-- ==== Sys2Proof/Word.lean ====
section
/-!
DEFINITION. The words the FW-300's manual counts in, and the sparse table every store of the model is held in.
Widths are the manual's: a byte, a 32-bit register, a 64-bit register pair, a 64-byte line of host memory.
-/

namespace Sys2Proof

/-- One byte. -/
abbrev Byte := BitVec 8

/-- One 32-bit register (R426). -/
abbrev Word := BitVec 32

/-- A 64-bit value held in a register pair (R426). -/
abbrev DWord := BitVec 64

/-- A 64-byte line: a descriptor, its extension, a doorbell line (R352, R353, R358). -/
abbrev Line := BitVec 512

/-- One relay-link baton: a 32-byte header and 256 bytes of payload (R274), byte 0 lowest. -/
abbrev BatonWord := BitVec 2304

/-- A sparse table: pairs of a key and a value in strictly rising keys, no pair holding the value an unlisted key
reads as. `Machine/Bits.lean` reads and writes it and keeps that form. -/
abbrev Tab (α : Type) := List (Nat × α)

/-- A motion vector: horizontal and vertical quarter samples, and its reference, 0 the picture coded last (R406). -/
abbrev Mv := Int × Int × Nat

/-- Who writes a register: a host port, or the service tool over MCTP (R510). -/
inductive Writer where
  | port (p : Fin 4)
  | tool
  deriving DecidableEq, Repr

/-- Where a detected fault lies (Table 17.2). -/
inductive FaultPlace where
  /-- A mesh, queue, link or host-interface transfer at a site, for the first command of a ring, with its failed sends. -/
  | path (site : Fin 81) (cx : Fin 16) (ring : Fin 4) (failures : Nat)
  /-- The heat cache of a rank: the heat unit. -/
  | heatCache (rank : Fin 75) (unit : Nat)
  /-- A stack codeword of 64 bytes: its stack address, or 2^37 plus a byte of the frame area, and how many
  symbols are wrong. -/
  | stackWord (rank : Fin 75) (addr : Nat) (symbols : Nat)
  /-- A line of scratch or of the weight stream window. -/
  | infieldLine (rank : Fin 75) (line : Nat)
  /-- Engine state: the output lines of the row in work. -/
  | engineState (rank : Fin 75) (line : Nat) (lines : Nat)
  /-- Operand SRAM, banks, shadow or sequencer state of a core. -/
  | core (site : Fin 81) (core : Fin 4096)
  /-- Field controller, lap-counter block, dispatcher or tier-mover controller state. -/
  | controller (site : Fin 81)
  /-- Media engine state. -/
  | media (eng : Fin 24)
  /-- Link interface state (R454). -/
  | linkState (link : Fin 36)
  /-- Host port interface state (R454). -/
  | hostPort (port : Fin 4)
  /-- A poisoned or corrupted command checksum seen at a hop, with its failed resends (R454). -/
  | checksum (cx : Fin 16) (ring : Fin 4) (failures : Nat)
  deriving DecidableEq, Repr

/-- Why a lane is spared (R272). -/
inductive LaneCause where
  /-- The peer's receiver named a lane of the transmit direction in an IDLE baton. -/
  | named
  /-- A receive lane lost lock. -/
  | lockLost
  /-- The symbols a receiver corrected on a lane, by ms, the latest last. -/
  | counts (ms : List Nat)
  deriving DecidableEq, Repr

/-- A unit that posts heartbeats to the MGC (R454). -/
inductive BeatUnit where
  | fieldController (site : Fin 81)
  | lapCounter (site : Fin 81)
  | link (link : Fin 36)
  | hostPort (port : Fin 4)
  | media (eng : Fin 24)
  deriving DecidableEq, Repr

end Sys2Proof
end

