-- ==== Sys2Proof/Syntax.lean ====
section
/-!
DEFINITION. The commands of the block: one constructor per row of spec/opcode_table.json, in the table's order. A row
gives no operand bits, so the operands here are what the step needs to be named: the unit it happens at (a site, a core,
a rank, a context, a ring, a port, a link), and what comes from outside the module with it (a baton, a line of host
memory, a register's value, a measured wait or temperature).
-/

namespace Sys2Proof

/-- The tile whose partials STAGE_C_SUM adds, and the ns its hand-off to a link stream waited (R133, R341). -/
structure SumTile where
  tile : Nat
  waitNs : Nat
  deriving DecidableEq, Repr

/-- The channel whose repair ends: the granules found uncorrectable, and how many the old channel answered for (R261, R262). -/
structure RepairedChannel where
  chan : Fin 64
  bad : List Nat
  answered : Nat
  deriving DecidableEq, Repr

/-- A playout port at its alignment point t_k (R414). -/
structure FrameTake where
  port : Fin 2
  k : Nat
  deriving DecidableEq, Repr

/-- A received baton that fails its CRC, and how many of its codewords were uncorrectable (R267, R276). -/
structure DamagedBaton where
  baton : BatonWord
  codewords : Nat
  deriving DecidableEq, Repr

/-- The steps of spec/opcode_table.json. -/
inductive Instr where
  /-- CLAIM (R38). Tile-program word that takes the next tile from the named lap counter and sets the claim registers. -/
  | claim (site : Fin 81) (core : Fin 4096)
  /-- LOAD_A (R40). Tile-program word that fills the A ring with the pass's slabs from the infield. -/
  | loadA (site : Fin 81) (core : Fin 4096)
  /-- LOAD_B (R40). Tile-program word that fills the B ring with the pass's slabs from the infield. -/
  | loadB (site : Fin 81) (core : Fin 4096)
  /-- MMA (R43). Tile-program word that runs the pass's K loop into the compute bank. -/
  | mma (site : Fin 81) (core : Fin 4096)
  /-- CHANGEOVER (R49). Tile-program word that ends accumulation and swaps the compute and drain banks. -/
  | changeover (site : Fin 81) (core : Fin 4096) (opdWait : Nat)
  /-- BANK_TOGGLE (R50). A delayed bank-select toggle that takes place once a non-empty drain bank has emptied. -/
  | bankToggle (site : Fin 81) (core : Fin 4096) (lost : Nat)
  /-- DRAIN (R53). Tile-program word that writes the drain bank's tile out through the epilogue. -/
  | drain (site : Fin 81) (core : Fin 4096)
  /-- SHADOW_COPY (R53). Copy of the full drain bank into the shadow drain buffer, begun once the shadow is free. -/
  | shadowCopy (site : Fin 81) (core : Fin 4096)
  /-- FENCE (R48). Tile-program word that waits for loads or drains and ends run-ahead. -/
  | fence (site : Fin 81) (core : Fin 4096)
  /-- TILE_COMPLETE (R59). Once the last DRAIN's writes are visible, the core posts the tile's completion to its lap counter. -/
  | tileComplete (site : Fin 81) (core : Fin 4096)
  /-- CORE_IDLE (R34). A core whose CLAIM found no tile reports idle once its last drain writes are visible. -/
  | coreIdle (site : Fin 81) (core : Fin 4096)
  /-- STEP_BOUNDARY (R103). Completion of a step_end command of the recipe context applies committed recipe requests. -/
  | stepBoundary (cx : Fin 16) (ring : Fin 4)
  /-- GR_MON_CLEAR (R100). A write of 1 clears every module monitor counter. -/
  | grMonClear (w : Writer) (v : Word)
  /-- GR_FIRST_WRITE (R109). A write of 0xFFFF to a half of GR_FIRST resets that half. -/
  | grFirstWrite (w : Writer) (v : Word)
  /-- GR_UNTRACKED_WRITE (R109). A write of 1 to bit 0 clears the whole GR_UNTRACKED register. -/
  | grUntrackedWrite (w : Writer) (v : Word)
  /-- RUN_KERNEL (R121). Command that issues a kernel slot, reads its bounds and derives the claim space. -/
  | runKernel (cx : Fin 16)
  /-- LOAD_KERNEL (R362). Command that reads a kernel image, runs every load check and writes the kernel slot. -/
  | loadKernel (cx : Fin 16)
  /-- LAP_COUNTER_FREED (R144). A kernel waiting at issue for a held lap counter takes it and reads its bounds. -/
  | lapCounterFreed (cx : Fin 16)
  /-- STAGE_C_SUM (R133). Once all partials of a tile are posted, a vector engine sums them and applies reduce_drain. -/
  | stageCSum (counter : Fin 256) (tile : SumTile)
  /-- HURDLE_ARRIVAL (R138). A field arrives at the kernel's hurdle, and the completion is written when all 75 have arrived. -/
  | hurdleArrival (cx : Fin 16) (chained : Bool) (rank : Fin 75)
  /-- CORE_LOST (R139). The reliability logic takes a core out of service, and its claims move to retry lists. -/
  | coreLost (site : Fin 81) (core : Fin 4096)
  /-- CORE_HANG_TIMEOUT (R449). A core that holds a claim and completes no word for 2^24 ac is lost. -/
  | coreHangTimeout (site : Fin 81) (core : Fin 4096)
  /-- CORE_ENTER_SERVICE (R142). A core entering service receives the running kernel's program and starts claiming. -/
  | coreEnterService (site : Fin 81) (core : Fin 4096)
  /-- DISPATCH_DECODE (R123). The dispatcher fetches and decodes a descriptor up to 8 beyond the running command and runs decode checks. -/
  | dispatchDecode (cx : Fin 16) (ring : Fin 4) (line : Line) (ext : Line) (failed : Bool) (mismatches : Nat)
  /-- CHAIN (R157). Engine operation that runs a package chain program elementwise on streams A, B, C and OUT. -/
  | chain (cx : Fin 16)
  /-- ADD (R154). Vector-engine operation a + b with one rounding. -/
  | add (cx : Fin 16)
  /-- SUB (R154). Vector-engine operation a - b with one rounding. -/
  | sub (cx : Fin 16)
  /-- MUL (R154). Vector-engine operation a times b with one rounding. -/
  | mul (cx : Fin 16)
  /-- FMA (R154). Vector-engine fused multiply-add with one rounding. -/
  | fma (cx : Fin 16)
  /-- MAX (R154). Vector-engine elementwise maximum. -/
  | max (cx : Fin 16)
  /-- MIN (R154). Vector-engine elementwise minimum. -/
  | min (cx : Fin 16)
  /-- CONVERT (R154). Vector-engine conversion of A to fmt_out. -/
  | convert (cx : Fin 16)
  /-- QUANT_MX (R160). Vector-engine operation that forms MX blocks, with a side list where the recipe names one. -/
  | quantMx (cx : Fin 16)
  /-- DEQUANT_MX (R161). Vector-engine operation that expands MX slab rows to FP32. -/
  | dequantMx (cx : Fin 16)
  /-- TREE_SUM (R519). Vector-engine stage C sum of aux partials per element by the fixed tree. -/
  | treeSum (cx : Fin 16)
  /-- ROW_SUM (R155). Vector-engine sum of each row by the fixed tree. -/
  | rowSum (cx : Fin 16)
  /-- ROW_MAX (R156). Vector-engine maximum of each row. -/
  | rowMax (cx : Fin 16)
  /-- ARGMAX (R156). Vector-engine lowest position of each row's maximum. -/
  | argmax (cx : Fin 16)
  /-- SOFTMAX_MERGE (R207). Vector-engine merge of online softmax states placed in the infield. -/
  | softmaxMerge (cx : Fin 16)
  /-- NORM_APPLY (R170). Vector-engine normalisation output from mean, rstd, gamma and beta. -/
  | normApply (cx : Fin 16)
  /-- POOL (R230). Vector-engine windowed pooling over the taps of a window record. -/
  | pool (cx : Fin 16) (window : Line)
  /-- EXP (R164). Library routine 0x0100 applied element by element. -/
  | exp (cx : Fin 16)
  /-- EXP2 (R164). Library routine 0x0101 applied element by element. -/
  | exp2 (cx : Fin 16)
  /-- LOG (R164). Library routine 0x0102 applied element by element. -/
  | log (cx : Fin 16)
  /-- LOG2 (R164). Library routine 0x0103 applied element by element. -/
  | log2 (cx : Fin 16)
  /-- RECIPROCAL (R164). Library routine 0x0104 applied element by element. -/
  | reciprocal (cx : Fin 16)
  /-- RSQRT (R164). Library routine 0x0105 applied element by element. -/
  | rsqrt (cx : Fin 16)
  /-- SQRT (R164). Library routine 0x0106 applied element by element. -/
  | sqrt (cx : Fin 16)
  /-- TANH (R164). Library routine 0x0107 applied element by element. -/
  | tanh (cx : Fin 16)
  /-- SIGMOID (R164). Library routine 0x0108 applied element by element. -/
  | sigmoid (cx : Fin 16)
  /-- ERF (R164). Library routine 0x0109 applied element by element. -/
  | erf (cx : Fin 16)
  /-- GELU_TANH (R164). Library routine 0x010A applied element by element. -/
  | geluTanh (cx : Fin 16)
  /-- GELU_ERF (R164). Library routine 0x010B applied element by element. -/
  | geluErf (cx : Fin 16)
  /-- SILU (R164). Library routine 0x010C applied element by element. -/
  | silu (cx : Fin 16)
  /-- SOFTPLUS (R164). Library routine 0x010D applied element by element. -/
  | softplus (cx : Fin 16)
  /-- SIN (R164). Library routine 0x010E applied element by element. -/
  | sin (cx : Fin 16)
  /-- COS (R164). Library routine 0x010F applied element by element. -/
  | cos (cx : Fin 16)
  /-- ROW_STATS (R168). SFE operation that writes the mean, variance and rstd of each row by Welford updates and merges. -/
  | rowStats (cx : Fin 16)
  /-- ROW_LSE (R168). SFE operation that writes the log-sum-exp of each row in FP32X. -/
  | rowLse (cx : Fin 16)
  /-- MICRO (R520). SFE operation that runs a package micro-program element by element. -/
  | micro (cx : Fin 16)
  /-- GATHER (R172). GSE operation that copies table items named by an index list to list items. -/
  | gather (cx : Fin 16)
  /-- SCATTER (R172). GSE operation that writes list items to the table items named by an index list. -/
  | scatter (cx : Fin 16)
  /-- SORT (R173). GSE stable sort of key-value pairs per row. -/
  | sort (cx : Fin 16)
  /-- TOPK (R174). GSE selection of the aux largest elements of each row with their positions. -/
  | topk (cx : Fin 16)
  /-- SEGMENT_REDUCE (R175). GSE reduction of each run of equal keys. -/
  | segmentReduce (cx : Fin 16)
  /-- SET_PAD (R176). GSE fill of a group-sorted list into fixed-capacity group slots. -/
  | setPad (cx : Fin 16)
  /-- ADJ_EXPAND (R197). GSE expansion of adjacency rows into span rows. -/
  | adjExpand (cx : Fin 16)
  /-- EG_FIRST_WRITE (R179). A write of 0xFFFF to EG_FIRST resets it. -/
  | egFirstWrite (w : Writer) (site : Fin 81) (v : Word)
  /-- EG_CLEAR (R179). A write of 1 clears EG_DROP, EG_SUBST and EG_SKIP. -/
  | egClear (w : Writer) (site : Fin 81) (v : Word)
  /-- ATTENTION (R202). Command that runs block-sparse attention over spans for every query block and head claim. -/
  | attention (cx : Fin 16)
  /-- SPAN_FORM (R205). Once a span's score tiles finish, the vector engines form each valid row's span state. -/
  | spanForm (cx : Fin 16) (claim : Nat) (span : Nat)
  /-- SPAN_MERGE (R206). Once all spans of a claim have states, the engine merges them by the fixed tree and finishes the output. -/
  | spanMerge (cx : Fin 16) (claim : Nat)
  /-- SEQUENCE_ENABLE (R182). The owner host enables a sequence, and its region is checked. -/
  | sequenceEnable (w : Writer) (seq : Fin 8) (v : Word)
  /-- SEQUENCE_DISABLE (R181). Clearing enable frees every page of the sequence as FREE does. -/
  | sequenceDisable (w : Writer) (seq : Fin 8) (v : Word)
  /-- SHARE (R193). Page command that maps source KV pages into target pages and raises their share counts. -/
  | share (cx : Fin 16)
  /-- PAGE_FREE (R194). Page command that marks pages freeing and queues them for reclaim. -/
  | pageFree (cx : Fin 16)
  /-- SHARE_COUNT_UPDATE (R187). A field controller applies one queued share-count update with its test and change in one ac. -/
  | shareCountUpdate (rank : Fin 75)
  /-- COW_COPY_DONE (R192). When a copy on write ends, the entry is repointed, the hold is released and the write lands. -/
  | cowCopyDone (seq : Fin 8) (page : Nat)
  /-- RECLAIM (R195). Once SQ_LOW reaches free_issue, a freeing entry is reclaimed and the quota credited. -/
  | reclaim (seq : Fin 8)
  /-- SLICE_STAGE (R225). Tier movers stage an input slice once the producer bands it needs are complete. -/
  | sliceStage (counter : Fin 256) (rank : Fin 75) (bandWait : Nat)
  /-- GATED_CLAIM (R224). A waiting CLAIM is served once its tile becomes open or sendable. -/
  | gatedClaim (site : Fin 81) (core : Fin 4096) (gateWait : Nat)
  /-- CHAINED_KERNEL_ISSUE (R226). A chained kernel issues as soon as its producer has issued. -/
  | chainedKernelIssue (cx : Fin 16)
  /-- FILL (R237). Tier command that moves rows from the working tier into each rank's infield. -/
  | fill (cx : Fin 16) (ring : Fin 4)
  /-- SPILL (R237). Tier command that moves rows from each rank's infield into the working tier. -/
  | spill (cx : Fin 16) (ring : Fin 4)
  /-- COPY (R237). Tier command that copies rows between two CVA ranges. -/
  | copy (cx : Fin 16) (ring : Fin 4)
  /-- MAP (R238). Tier command that writes translation entries and, with fixed placement, backs the pages. -/
  | map (cx : Fin 16) (ring : Fin 4)
  /-- UNMAP (R238). Tier command that clears translation entries and drops cached translations. -/
  | unmap (cx : Fin 16) (ring : Fin 4)
  /-- UNMAP_FREE (R238). Pages of an UNMAP are freed after every command issued before it has completed. -/
  | unmapFree (cx : Fin 16)
  /-- WMAP (R238). Tier command that maps weight pages into the package window. -/
  | wmap (cx : Fin 16) (ring : Fin 4)
  /-- WLOAD (R247). Tier command that copies the working tier into the weight partition with P and Q parity. -/
  | wload (cx : Fin 16) (ring : Fin 4)
  /-- HEAT_DECAY (R251). At each decay period every heat-unit read counter halves. -/
  | heatDecay
  /-- CHANNEL_RETRAIN_START (R259). A scheduled or unscheduled retrain of a physical channel starts and holds its requests. -/
  | channelRetrainStart (rank : Fin 75) (chan : Fin 64) (scheduled : Bool)
  /-- CHANNEL_RETRAIN_END (R259). A channel retrain ends and held requests resume. -/
  | channelRetrainEnd (rank : Fin 75) (chan : Fin 64) (passed : Bool) (holdNs : Nat)
  /-- CHANNEL_REPAIR_START (R261). The MGC starts moving a logical channel to a spare physical channel. -/
  | channelRepairStart (rank : Fin 75) (chan : Fin 64)
  /-- CHANNEL_REPAIR_END (R261). When the last granule is copied, the remap entry takes the spare and the old channel retires. -/
  | channelRepairEnd (rank : Fin 75) (chan : RepairedChannel)
  /-- PATROL_SCRUB (R258). Patrol scrub reads a granule and writes back what it corrects. -/
  | patrolScrub (rank : Fin 75) (granule : Nat) (symbols : Nat)
  /-- STACK_THERMAL_SAMPLE (R263). A stack's layer sensors are sampled, and its thermal state changes. -/
  | stackThermalSample (rank : Fin 75) (celsius : Nat)
  /-- STACK_CRITICAL_TIMEOUT (R263). After 50 ms in CRITICAL a stack enters STOPPED and its held writes are discarded. -/
  | stackCriticalTimeout (rank : Fin 75)
  /-- TR_ERR_CLEAR (R265). A write clears the error and rebuild counters of every stack. -/
  | trErrClear (w : Writer) (v : Word)
  /-- LINK_TRAINING_START (R271). Setting enable, or loss of the peer, starts link training. -/
  | linkTrainingStart (link : Fin 36)
  /-- LINK_TRAINING_END (R271). Training ends with the link UP or DEGRADED, or the attempt fails. -/
  | linkTrainingEnd (link : Fin 36) (txMask : BitVec 10) (rxMask : BitVec 10) (peer : BitVec 12) (peerLink : Fin 36)
  /-- LINK_TRAINING_RETRY (R271). Training starts again 100 ms after a failed attempt. -/
  | linkTrainingRetry (link : Fin 36)
  /-- LANE_SPARE (R272). A receiver replaces a failing lane with a spare lane. -/
  | laneSpare (link : Fin 36) (lane : Fin 10) (why : LaneCause)
  /-- LINK_RETRAIN (R273). A link enters RETRAIN and reruns training while keeping its replay state. -/
  | linkRetrain (link : Fin 36)
  /-- BATON_SLOT (R281). At each baton slot the sender chooses the next baton by priority. -/
  | batonSlot (link : Fin 36)
  /-- REPLAY_TIMEOUT (R276). With no acknowledgement advance within LK_REPLAY_TIMEOUT, the sender resends from the oldest baton. -/
  | replayTimeout (link : Fin 36)
  /-- IDLE_BATON (R275). Receipt of an IDLE baton carrying acks and credits. -/
  | idleBaton (link : Fin 36) (baton : BatonWord)
  /-- NAK_BATON (R276). Receipt of a NAK makes the sender replay from ack + 1. -/
  | nakBaton (link : Fin 36) (baton : BatonWord)
  /-- BULK_BATON (R286). Receipt of a BULK baton, which is landed through the landing table or routed onwards. -/
  | bulkBaton (link : Fin 36) (baton : BatonWord)
  /-- DONE_BATON (R285). Receipt of DONE completes the source's bulk transfer command. -/
  | doneBaton (link : Fin 36) (baton : BatonWord)
  /-- UNREACH_BATON (R285). Receipt of UNREACH fails the source's bulk transfer command. -/
  | unreachBaton (link : Fin 36) (baton : BatonWord)
  /-- REDUCE_BATON (R288). Receipt of a REDUCE baton, which goes into its group's adder staging. -/
  | reduceBaton (link : Fin 36) (baton : BatonWord)
  /-- BCAST_BATON (R308). Receipt of a BCAST baton, which is landed and forwarded to the other tree neighbours. -/
  | bcastBaton (link : Fin 36) (baton : BatonWord)
  /-- SPRINT_BATON (R310). Receipt of a SPRINT data or control baton: data, form-up, go-down, ack-up or abort. -/
  | sprintBaton (link : Fin 36) (baton : BatonWord)
  /-- MGMT_BATON (R275). Receipt of a MGMT baton between management controllers. -/
  | mgmtBaton (link : Fin 36) (baton : BatonWord)
  /-- ADDER_SUM (R292). Once all inputs of an offset are held, the adder sums them in tree order, codes the sum and emits it. -/
  | adderSum (cx : Fin 16) (group : Fin 64) (grants : Nat) (localNs : Nat) (childNs : List Nat)
  /-- LK_ERR_CLEAR (R295). A write clears a link's error counters. -/
  | lkErrClear (w : Writer) (link : Fin 36) (v : Word)
  /-- FORM (R298). Collective command that checks a group record, sets aside staging and starts formation. -/
  | form (cx : Fin 16)
  /-- REFORM (R301). Collective command that re-forms an ordinary group at the next generation. -/
  | reform (cx : Fin 16)
  /-- GROUP_FREE (R302). Collective command that waits for outstanding commands, then returns staging and clears the entry. -/
  | groupFree (cx : Fin 16)
  /-- REDUCE (R306). Collective command that sends the member's contribution, sized to capacity, up the fixed tree. -/
  | reduce (cx : Fin 16)
  /-- BCAST (R308). Collective command that delivers the origin's bytes to every member. -/
  | bcast (cx : Fin 16)
  /-- SPRINT (R310). Collective command that broadcasts 1 to 64 bytes on the sprint channel. -/
  | sprint (cx : Fin 16)
  /-- COLLECTIVE_TIMEOUT (R309). A member that has waited longer than timeout for an input aborts the group. -/
  | collectiveTimeout (cx : Fin 16) (group : Fin 64)
  /-- AB_CLEAR (R320). A write clears the selected arrival bitmaps and their chunk counts. -/
  | abClear (w : Writer) (site : Fin 81) (v : Word)
  /-- STREAM_BIND (R322). Enabling ST_CTRL binds a link stream to a group and sets aside assembly space. -/
  | streamBind (w : Writer) (st : Fin 256) (v : Word)
  /-- ST_ARM (R332). A write of 1 sets the stream's err_valid. -/
  | stArm (w : Writer) (st : Fin 256) (v : Word)
  /-- DOORBELL_SNOOP (R354). A snoop of a held doorbell line is answered, and a RdShared of the line is issued. -/
  | doorbellSnoop (cx : Fin 16)
  /-- DOORBELL_POLL (R354). Every CX_DB_POLL µs the doorbell line is read again. -/
  | doorbellPoll (cx : Fin 16)
  /-- DOORBELL_READ_DONE (R355). A doorbell line arrives and the module computes the ready slots or faults the context. -/
  | doorbellReadDone (cx : Fin 16) (line : Line) (failed : Bool)
  /-- NOP (R359). Descriptor kind that does nothing and completes. -/
  | nop (cx : Fin 16) (ring : Fin 4)
  /-- SEM_SIGNAL (R363). Command that adds a value to one of the context's semaphores. -/
  | semSignal (cx : Fin 16) (ring : Fin 4)
  /-- SEM_WAIT (R363). Command that issues when its semaphore reaches the threshold. -/
  | semWait (cx : Fin 16) (ring : Fin 4)
  /-- HOST_COPY (R364). Command that moves bytes between host memory and the working tier. -/
  | hostCopy (cx : Fin 16) (data : List Byte) (failed : Bool)
  /-- BULK_SEND (R364). Command that performs a bulk transfer to another module. -/
  | bulkSend (cx : Fin 16)
  /-- ADMIT (R366). Command that reads, checks and installs the Isatra package. -/
  | admitPackage (cx : Fin 16) (data : List Byte) (failed : Bool)
  /-- EVICT (R367). Command that waits for other contexts, then removes the resident package. -/
  | evict (cx : Fin 16)
  /-- COMPLETION_ACK (R368). The host acknowledges a completion write, and RING_DONE rises. -/
  | completionAck (cx : Fin 16) (ring : Fin 4)
  /-- IRQ_COALESCE_TIMER (R369). The coalescing time in RING_IRQ expires and MSI-X is sent. -/
  | irqCoalesceTimer (cx : Fin 16) (ring : Fin 4)
  /-- HOST_PORT_DOWN (R345). A port link goes down or its die resets, and every context it owns is torn down. -/
  | hostPortDown (port : Fin 4)
  /-- HOST_PORT_DEGRADED (R345). A port link falls to 16 GT/s and reports DEGRADED. -/
  | hostPortDegraded (port : Fin 4)
  /-- HP_CX_MASK_WRITE (R350). The owner assigns or releases contexts of a port. -/
  | hpCxMaskWrite (w : Writer) (port : Fin 4) (v : Word)
  /-- CX_START (R351). CX_CMD start checks the rings and moves the context to READY. -/
  | cxStart (w : Writer) (cx : Fin 16) (line : Line) (failed : Bool)
  /-- CX_STOP (R351). CX_CMD stop starts teardown of a READY or FAULTED context. -/
  | cxStop (w : Writer) (cx : Fin 16)
  /-- LEG_EDGE (R372). The heat timer marks a leg edge, and the fields change the context they serve. -/
  | legEdge
  /-- SHARED_QUANTUM_EXPIRY (R376). A context served for SC_QUANTUM in a shared leg yields to another of its class. -/
  | sharedQuantumExpiry
  /-- CONTEXT_SWITCH (R384). After the outgoing context's last unit ends, its state is saved and the incoming context is loaded. -/
  | contextSwitch (overrunNs : Nat) (lateNs : Nat)
  /-- DURATION_EXPIRY (R380). A command whose run time reaches its declared duration is stopped with its status. -/
  | durationExpiry (cx : Fin 16) (ring : Fin 4)
  /-- TEARDOWN (R390). Teardown of a context cancels its commands, writes completions and returns it to ASSIGNED. -/
  | teardown (cx : Fin 16)
  /-- SC_CLEAR (R392). A write clears SC_CX_OVERRUN and SC_CX_LATE of every context. -/
  | scClear (w : Writer) (v : Word)
  /-- STREAM_OPEN (R399). Media command that opens a stream slot, with live admission. -/
  | streamOpen (cx : Fin 16)
  /-- STREAM_CLOSE (R399). Media command that closes a stream slot. -/
  | streamClose (cx : Fin 16)
  /-- ENCODE (R400). Media command that codes one frame of a stream. -/
  | encode (cx : Fin 16)
  /-- DECODE (R410). Media command that decodes one temporal or access unit, concealing damage. -/
  | decode (cx : Fin 16)
  /-- PLAY_START (R419). Media command that arms an IDLE playout port. -/
  | playStart (cx : Fin 16)
  /-- PLAY_STOP (R420). Media command that starts run-out of a playout port. -/
  | playStop (cx : Fin 16)
  /-- PLAY_QUEUE (R419). Media command that queues an uncompressed frame on a playout port. -/
  | playQueue (cx : Fin 16)
  /-- SLATE (R417). Media command that loads the slate of a playout port. -/
  | slate (cx : Fin 16)
  /-- MEDIA_FRAME_START (R402). A free media engine starts the next frame by deadline or batch order. -/
  | mediaFrameStart (eng : Fin 24)
  /-- MEDIA_FRAME_DONE (R404). A media engine finishes a frame and counts a late live frame. -/
  | mediaFrameEnd (eng : Fin 24)
  /-- PLAYOUT_FRAME_TAKE (R415). At t_k - PO_LEAD the port takes the queue head, or sends a repeat or the slate. -/
  | playoutFrameTake (po : FrameTake)
  /-- PLAYOUT_PACKET_SEND (R415). A playout packet leaves at its scheduled time after the alignment point. -/
  | playoutPacketSend (po : Fin 2)
  /-- PTP_SYNC (R414). A PTP message disciplines the port's playout clock. -/
  | ptpSync (po : Fin 2) (offset : Word) (settled : Bool) (newMaster : Bool)
  /-- PTP_SYNC_LOSS (R414). After 3 s without sync the playout clock enters HOLDOVER. -/
  | ptpSyncLoss (po : Fin 2)
  /-- RUN_OUT_LIMIT (R420). The port stops after the frame being sent 2 s - T_f after PLAY_STOP. -/
  | runOutLimit (po : Fin 2)
  /-- PO_CLEAR (R423). A write clears PO_REPEATS, PO_SLATES and PO_DISCARD. -/
  | poClear (w : Writer) (po : Fin 2) (v : Word)
  /-- CS_OPEN (R433). A write of an open generation opens a commit set and reloads its shadow. -/
  | csOpen (w : Writer) (cset : Fin 320) (g : BitVec 16)
  /-- CS_CLOSE (R433). A write of a close generation completes a commit set or puts it in HOLD. -/
  | csClose (w : Writer) (cset : Fin 320) (g : BitVec 16)
  /-- REGISTER_WRITE (R430). A write of a register with no row of its own, checked for rights, idleness and open sets. -/
  | registerWrite (w : Writer) (off : BitVec 26) (size : Nat) (data : DWord)
  /-- REGISTER_READ_LO (R426). A read of a _LO register latches its _HI register for the port. -/
  | registerReadLo (port : Fin 4) (off : BitVec 26)
  /-- GL_CFG_ERR_WRITE (R440). A W1C write of GL_CFG_ERR, which resets GL_CFG_ADDR when the last bit clears. -/
  | glCfgErrWrite (w : Writer) (v : Word)
  /-- GL_OWNER_EVENT_WRITE (R441). The owner clears owner event bits. -/
  | glOwnerEventWrite (w : Writer) (v : Word)
  /-- FD_STALL_CLEAR (R442). A write clears a field's stall counters. -/
  | fdStallClear (w : Writer) (site : Fin 81) (v : Word)
  /-- PARITY_FAULT (R446). A detected parity or code error leads to a retry, poison or the loss of the unit. -/
  | parityFault (place : FaultPlace)
  /-- CORE_RETEST (R450). The MGC retests a lost core by self-test and returns or retires it. -/
  | coreRetest (site : Fin 81) (core : Fin 4096) (passed : Bool)
  /-- FIELD_LOST (R451). A field is lost: contexts fault, sequences are disabled and substitution may begin. -/
  | fieldLost (site : Fin 81)
  /-- HEARTBEAT_MISS (R454). A unit that misses three heartbeats to the MGC is lost. -/
  | heartbeatMiss (unit : BeatUnit)
  /-- MGC_WATCHDOG (R454). Expiry of the MGC watchdog resets the MGC alone. -/
  | mgcWatchdog
  /-- PLANNED_SUBST_START (R456). A write of RL_SUBST starts planned substitution with the mirror phase. -/
  | plannedSubstStart (w : Writer) (v : Word)
  /-- SUBST_DRAIN (R456). After the mirror completes, the module drains and moves the rank to the spare site. -/
  | substDrain
  /-- UNPLANNED_SUBST_DONE (R457). The spare takes the lost rank and the module becomes available again. -/
  | unplannedSubstDone
  /-- WEIGHT_REBUILD_DONE (R457). The background rebuild of the lost rank's weight units completes. -/
  | weightRebuildDone (rank : Fin 75)
  /-- LEASE_MARK (R463). LB_CMD bit 0 appends a LEASE_MARK record with the owner's bytes. -/
  | leaseMark (w : Writer)
  /-- CHECKPOINT_REQUEST (R463). LB_CMD bit 1 appends a signed CHECKPOINT now. -/
  | checkpointRequest (w : Writer)
  /-- GRADE (R465). LB_CMD bit 2 computes the reserve shares and appends a GRADE record. -/
  | grade (w : Writer)
  /-- USAGE_RECORD (R460). Every 24 h the MGC appends a USAGE record. -/
  | usageRecord (milliKwh : BitVec 32) (hotSeconds : BitVec 32) (inlet : BitVec 16)
  /-- TM_DATA_WRITE (R464). The owner writes a calibration word into the trim staging copy. -/
  | tmDataWrite (w : Writer) (v : Word)
  /-- TM_COMMIT (R464). The staging copy is checked against the limit table and written to the boot store. -/
  | tmCommit (w : Writer) (v : Word)
  /-- FU_OPEN (R480). FU_CTRL open starts a delivery session. -/
  | fuOpen (w : Writer) (v : Word)
  /-- FU_PUT (R481). FU_CTRL put checks a piece and stores it in the inactive slot. -/
  | fuPut (w : Writer) (v : Word)
  /-- FU_DISCARD (R482). FU_CTRL discard empties the slot being delivered. -/
  | fuDiscard (w : Writer) (v : Word)
  /-- FU_ARM (R484). FU_CTRL arm loads a slot's components into the second program stores. -/
  | fuArm (w : Writer) (v : Word)
  /-- ARM_LOAD_DONE (R484). The second program stores are loaded and the state becomes ARMED. -/
  | armLoadDone
  /-- QUIESCENT_ACTIVATION (R485). At a quiet leg every unit changes program store, and the change is kept or undone. -/
  | quiescentActivation (passed : Bool)
  /-- FU_INSTALL_CERT (R474). FU_CTRL command 8 installs a certificate for the pending identity key. -/
  | fuInstallCert (w : Writer) (v : Word)
  /-- FU_COMMIT (R487). FU_CTRL commit blows anti-rollback fuses and clears the uncommitted mark. -/
  | fuCommit (w : Writer) (v : Word)
  /-- ATTESTATION_REQUEST (R489). AT_CMD has the MGC build and sign an attestation report with the nonce. -/
  | attestationRequest (w : Writer) (v : Word)
  /-- WIPE_START (R491). WP_CMD start runs the attested wipe and signs the wipe report. -/
  | wipeStart (w : Writer) (v : Word)
  /-- RESET_ASSERT (R511). RST_N low or another reset source places the module in MARKS. -/
  | resetAssert
  /-- RESET_RELEASE (R507). After the rising edge of RST_N the straps are sampled and SET begins. -/
  | resetRelease (straps : BitVec 16)
  /-- SET_COMPLETE (R512). SET ends, the contacts become I3C and the module enters GO. -/
  | setComplete (badSites : List (Fin 81))
  /-- SET_LIMIT_EXPIRY (R512). A slot that fails to reach GO within the SET limit stops in SET or rolls back. -/
  | setLimitExpiry
  /-- SET_STATUS_ALTERNATE (R508). On a failure in SET the contacts alternate every 100 ms between the status bytes. -/
  | setStatusAlternate
  /-- BUS_VOLTAGE_EVENT (R497). A bus dip or out-of-range voltage is ridden through and flagged in MO_EVENT. -/
  | busVoltageEvent (centivolts : Nat) (microseconds : Nat)
  /-- POWER_FAULT (R497). A sustained bus fault or rail fault removes the rails and trips the module. -/
  | powerFault (rail : Fin 8) (site : Fin 81)
  /-- FIELD_THERMAL_SAMPLE (R501). A field's junction sensors are sampled, and the field steps its clock or stops its cores. -/
  | fieldThermalSample (site : Fin 81) (celsius : Nat)
  /-- REF_CLOCK_LOSS (R503). Loss of the reference oscillator forces a module reset. -/
  | refClockLoss
  /-- MO_RESET (R516). Writing the reset key to MO_RESET resets the module. -/
  | moReset (w : Writer) (v : Word)
  /-- MO_CLEAR (R516). A write clears the peak input power. -/
  | moClear (w : Writer) (v : Word)
  /-- MCTP_READ (R510). Management command that reads registers over MCTP. -/
  | mctpRead (off : Word) (length : BitVec 16)
  /-- MCTP_WRITE (R510). Management command that writes allowed registers over MCTP. -/
  | mctpWrite (off : Word) (length : BitVec 16) (data : List Byte)
  /-- MCTP_RESET (R510). Management command that resets the module. -/
  | mctpReset (off : Word)
  /-- MCTP_STATE (R510). Management command that returns MO_STATE. -/
  | mctpState
  /-- I3C_ADDRESS_ASSIGN (R509). The module takes a dynamic I3C address by ENTDAA or SETDASA. -/
  | i3cAddressAssign (setdasa : Bool) (addr : BitVec 7)
  /-- MGC_HEARTBEAT_TOGGLE (R506). Every 500 ms the HEARTBEAT contact toggles while the MGC runs. -/
  | mgcHeartbeatToggle
  /-- BATON_CRC_FAILURE (R276). A received baton fails its CRC, is discarded, and the receiver sends one NAK for the expected sequence number. -/
  | batonCrcFailure (link : Fin 36) (baton : DamagedBaton)
  /-- MALFORMED_BATON (R275). A baton with a good CRC but a reserved kind or nonzero reserved bit is accepted into the sequence, discarded, its credit returned and LK_MALFORMED counted. -/
  | malformedBaton (link : Fin 36) (baton : BatonWord)
  /-- RL_EVENTS_READ (R506). A read of RL_EVENTS releases FAULT_N, which has been low since an interrupting event. -/
  | rlEventsRead (w : Writer)
  /-- COOLANT_INLET_SAMPLE (R500). The module senses the coolant inlets and outlets, and an inlet above 35 °C sets MO_EVENT[2] or [3]. -/
  | coolantInletSample (logicIn : BitVec 10) (stackIn : BitVec 10) (logicOut : BitVec 10) (stackOut : BitVec 10)
  /-- BUS_IN_RANGE (R511). Once the 54 V bus has been in range for 20 ms, the module may leave MARKS and begin SET. -/
  | busInRange
  /-- HOST_PORT_UP (R345). A host port's UCIe link trains again after going down or after its die resets, and HP_STATE returns to UP with HP_EVENT[2]. -/
  | hostPortUp (port : Fin 4)
  deriving DecidableEq, Repr

/-- MEDIA_FRAME_DONE with the operands it had while cycles, rows, units, picture and samples were taken from outside. They follow
from the engine, its stream and the frame (R401, R409 to R411), so none of them acts: it is the engine's row. -/
def Instr.mediaFrameDone (eng : Fin 24) (_cycles _rows _units _picture _outside : Nat) : Instr := .mediaFrameEnd eng

end Sys2Proof
end

