-- ==== Sys2Proof/Decode.lean ====
section
/-!
DEFINITION. The command a table word spells. spec/opcode_table.json gives no row any bits: a step of this block comes
from outside as a named event with its operands, never as a word, so no word spells a command.
-/

namespace Sys2Proof

/-- The command that the lowest `nbits` bits of a word spell: none, since no row of the table has bits. -/
def decodeTableWord (_nbits _w : Nat) : Option Instr := none

end Sys2Proof
end

