-- ==== Sys2Proof/Machine/Bits.lean ====
section
/-!
DEFINITION. Bit fields, little-endian bytes and the sparse table's two operations. Everything here is structural
recursion over lists or plain `Nat` arithmetic.
-/

namespace Sys2Proof.Machine

open Sys2Proof

/-- Bits [hi:lo] of a number, as the manual writes them. -/
def bits (v hi lo : Nat) : Nat := (v >>> lo) % 2 ^ (hi + 1 - lo)

/-- Bit n of a number. -/
def bit (v n : Nat) : Bool := (v >>> n) % 2 == 1

/-- Bits [hi:lo] of a word. -/
def fld {w : Nat} (v : BitVec w) (hi lo : Nat) : Nat := bits v.toNat hi lo

/-- Bit n of a word. -/
def flag {w : Nat} (v : BitVec w) (n : Nat) : Bool := bit v.toNat n

/-- 1 for true, 0 for false. -/
def b2n (b : Bool) : Nat := if b then 1 else 0

/-- Division rounded up; 0 when the divisor is 0. -/
def cdiv (a b : Nat) : Nat := (a + b - 1) / b

/-- `v` clamped into the range from `lo` to `hi` (R439). -/
def clampTo (lo hi v : Nat) : Nat := min hi (max lo v)

/-- A count that stops at 0xFFFF_FFFF. -/
def sat32 (v : Nat) : Nat := min 0xFFFFFFFF v

/-- A count that wraps at 2^32. -/
def wrap32 (v : Nat) : Nat := v % 4294967296

/-- A little-endian number of `n` bytes, its bytes lowest first (R4). -/
def toBytes : Nat → Nat → List Byte
  | 0, _ => []
  | n + 1, v => BitVec.ofNat 8 (v % 256) :: toBytes n (v / 256)

/-- The number that little-endian bytes spell (R4). -/
def ofBytes : List Byte → Nat
  | [] => 0
  | b :: r => b.toNat + 256 * ofBytes r

/-- The value of key `k` in a table; `d` where the table lists none. -/
def tget {α : Type} : Tab α → Nat → α → α
  | [], _, d => d
  | (j, v) :: r, k, d => if j = k then v else tget r k d

/-- A new key inserted before the first larger one. -/
def tins {α : Type} : Tab α → Nat → α → Tab α
  | [], k, v => [(k, v)]
  | (j, w) :: r, k, v => if j < k then (j, w) :: tins r k v else (k, v) :: (j, w) :: r

/-- Key `k` set to `v`, in canonical form: rising keys, no entry equal to `d`, the value an unlisted key reads as. -/
def tput {α : Type} [DecidableEq α] (t : Tab α) (k : Nat) (v d : α) : Tab α :=
  let r := t.filter fun p => p.1 != k
  if v = d then r else tins r k v

/-- The canonical form of a table: strictly rising keys, no entry equal to the value an unlisted key reads as. -/
abbrev tabWf {α : Type} (t : Tab α) (d : α) : Prop := (t.map Prod.fst).Pairwise (· < ·) ∧ ∀ p ∈ t, p.2 ≠ d

/-- The canonical form of a set of numbers. -/
abbrev setWf (l : List Nat) : Prop := l.Pairwise (· < ·)

/-- The table without the keys from `lo` to `hi - 1`. -/
def tdrop {α : Type} (t : Tab α) (lo hi : Nat) : Tab α := t.filter fun p => !(lo ≤ p.1 && p.1 < hi)

/-- A set of numbers is a rising list: insertion. -/
def sput : List Nat → Nat → List Nat
  | [], k => [k]
  | j :: r, k => if j < k then j :: sput r k else if j = k then j :: r else k :: j :: r

/-- A set of numbers: union, by insertion. -/
def sunion (a b : List Nat) : List Nat := b.foldl sput a

/-- The first element of a list that satisfies a test, and the rest of the list without it. -/
def takeFirst {α : Type} (p : α → Bool) : List α → Option (α × List α)
  | [] => none
  | a :: r => if p a then some (a, r) else
    match takeFirst p r with
    | none => none
    | some (b, r') => some (b, a :: r')

/-- The list with its first element that satisfies `p` changed by `f`. -/
def modFirst {α : Type} (p : α → Bool) (f : α → α) : List α → List α
  | [] => []
  | a :: r => if p a then f a :: r else a :: modFirst p f r

/-- The sum of a list of numbers. -/
def sumNat (l : List Nat) : Nat := l.foldl (· + ·) 0

/-- `f` applied to `s` at 0, 1, …, n - 1 in turn. -/
def iter {σ : Type} (n : Nat) (f : Nat → σ → σ) (s : σ) : σ := (List.range n).foldl (fun s i => f i s) s

/-- Element `i` of a list; `d` past its end. -/
def nth {α : Type} (l : List α) (i : Nat) (d : α) : α := l.getD i d

end Sys2Proof.Machine
end

