-- ==== Sys2Proof/Machine/Hash.lean ====
section
/-!
DEFINITION. SHA-256 and CRC-32C over byte strings, which digests, logbook chains, image hashes and batons use
(R274, R300, R365, R460, R476).
-/

namespace Sys2Proof.Machine

open Sys2Proof

/-! ### The words of SHA-256 that come from primes -/

/-- Whether a number is prime. -/
def isPrime (n : Nat) : Bool := decide (2 ≤ n) && (List.range n).all fun d => d < 2 || n % d != 0

/-- The first 32 bits of the fraction of the k-th root of a number below 2^24, bit by bit. -/
def rootFraction (k n : Nat) : Nat :=
  ((List.range 56).foldl (fun r i => if (r + 2 ^ (55 - i)) ^ k ≤ n * 2 ^ (32 * k) then r + 2 ^ (55 - i) else r) 0) % 2 ^ 32

/-- The constants of the 64 rounds: the cube roots of the first 64 primes. -/
def roundConstants : List Nat := ((List.range 312).filter isPrime).map (rootFraction 3)

/-! ### One block -/

/-- Four words of a running digest. -/
structure Quad where
  newest : Nat
  second : Nat
  third : Nat
  oldest : Nat

/-- A running digest: the next sixteen words of the message schedule, and its eight working words in two groups. -/
structure Digest where
  schedule : List Nat
  left : Quad
  right : Quad

/-- A word turned right by n places. -/
def turned (v n : Nat) : Nat := v / 2 ^ n + v % 2 ^ n * 2 ^ (32 - n)

/-- The exclusive or of a word's turns. -/
def turns (v : Nat) (places : List Nat) : Nat := (places.map (turned v)).foldl Nat.xor 0

/-- The word that follows sixteen words of the schedule. -/
def scheduleNext (w : List Nat) : Nat :=
  let early := nth w 1 0
  let late := nth w 14 0
  wrap32 (nth w 0 0 + nth w 9 0 + Nat.xor (turns early [7, 18]) (early / 8) + Nat.xor (turns late [17, 19]) (late / 1024))

/-- One round: a new word enters each group of four, and the schedule moves on. -/
def Digest.round (d : Digest) (constant : Nat) : Digest :=
  let l := d.left
  let r := d.right
  let chosen := Nat.land r.newest r.second + Nat.land (2 ^ 32 - 1 - r.newest) r.third
  let most := Nat.lor (Nat.land l.newest l.second) (Nat.land l.third (Nat.lor l.newest l.second))
  let carried := r.oldest + turns r.newest [6, 11, 25] + chosen + constant + nth d.schedule 0 0
  { schedule := d.schedule.drop 1 ++ [scheduleNext d.schedule]
    left := ⟨wrap32 (carried + turns l.newest [2, 13, 22] + most), l.newest, l.second, l.third⟩
    right := ⟨wrap32 (l.oldest + carried), r.newest, r.second, r.third⟩ }

/-- Two groups added word by word. -/
def Quad.plus (a b : Quad) : Quad :=
  ⟨wrap32 (a.newest + b.newest), wrap32 (a.second + b.second), wrap32 (a.third + b.third), wrap32 (a.oldest + b.oldest)⟩

/-- A number as `n` big-endian bytes. -/
def beBytes (n v : Nat) : List Byte := (toBytes n v).reverse

/-- The number that big-endian bytes spell. -/
def beNumber (l : List Byte) : Nat := ofBytes l.reverse

/-- A block of 64 bytes taken into a digest's working words. -/
def Digest.block (d : Digest) (l : List Byte) : Digest :=
  let e := roundConstants.foldl Digest.round
    { d with schedule := (List.range 16).map fun i => beNumber ((l.drop (4 * i)).take 4) }
  { d with left := d.left.plus e.left, right := d.right.plus e.right }

/-! ### Whole messages -/

/-- The digest before the first block: the square roots of the first eight primes. -/
def Digest.start : Digest :=
  let r := rootFraction 2
  ⟨[], ⟨r 2, r 3, r 5, r 7⟩, ⟨r 11, r 13, r 17, r 19⟩⟩

/-- A message with its padding: a one bit, zeros to 8 bytes short of a whole block, and its length in bits. -/
def padded (msg : List Byte) : List Byte :=
  msg ++ 0x80 :: List.replicate ((119 - msg.length % 64) % 64) 0 ++ beBytes 8 (8 * msg.length)

/-- The bytes of four words. -/
def Quad.bytes (q : Quad) : List Byte := beBytes 4 q.newest ++ beBytes 4 q.second ++ beBytes 4 q.third ++ beBytes 4 q.oldest

/-- SHA-256 of a byte string, its bytes in the digest's own order (R518). -/
def sha256 (msg : List Byte) : List Byte :=
  let m := padded msg
  let d := (List.range (m.length / 64)).foldl (fun d i => d.block ((m.drop (64 * i)).take 64)) Digest.start
  d.left.bytes ++ d.right.bytes

/-- One byte into the reflected CRC-32C register (R274). -/
def crcByte (c : Nat) (b : Byte) : Nat :=
  iter 8 (fun _ x => if x % 2 = 1 then (x >>> 1) ^^^ 0x82F63B78 else x >>> 1) (c ^^^ b.toNat)

/-- CRC-32C: polynomial 0x1EDC6F41 reflected, initial value and final XOR 0xFFFFFFFF (R274). -/
def crc32c (l : List Byte) : Nat := l.foldl crcByte 0xFFFFFFFF ^^^ 0xFFFFFFFF

end Sys2Proof.Machine
end

