-- ==== Sys2Proof/Machine/Baton.lean ====
section
/-!
DEFINITION. The baton (R274, R275, R312): its fields, its CRC, when it is malformed, and how one is built.
-/

namespace Sys2Proof.Machine

open Sys2Proof

/-! ### Header fields (Table 10.4) -/

def batCrc (b : BatonWord) : Nat := fld b 255 224
def batScales (b : BatonWord) : Nat := fld b 223 192
def batOffset (b : BatonWord) : Nat := fld b 191 160
def batTag (b : BatonWord) : Nat := fld b 159 144
def batCredit1 (b : BatonWord) : Nat := fld b 143 136
def batCredit2 (b : BatonWord) : Nat := fld b 135 128
def batAck (b : BatonWord) : Nat := fld b 127 116
def batSeq (b : BatonWord) : Nat := fld b 115 104
def batDst (b : BatonWord) : Nat := fld b 103 92
def batSrc (b : BatonWord) : Nat := fld b 91 80
def batVc (b : BatonWord) : Nat := fld b 79 78
def batClass (b : BatonWord) : Nat := fld b 77 77
def batLast (b : BatonWord) : Bool := flag b 76
def batKind (b : BatonWord) : Nat := fld b 75 72
def batFmt (b : BatonWord) : Nat := fld b 71 68
def batHops (b : BatonWord) : Nat := fld b 67 62
def batDetail (b : BatonWord) : Nat := fld b 61 0

/-- The 256 bytes of payload. -/
def batPayload (b : BatonWord) : List Byte := toBytes 256 (b.toNat / 2 ^ 256)

/-- The CRC-32C a baton must carry: header bytes 0 to 27, then the payload (R274). -/
def batonCrc (b : BatonWord) : Nat := crc32c (toBytes 28 b.toNat ++ batPayload b)

/-- The CRC of a baton is good. -/
def crcGood (b : BatonWord) : Bool := batCrc b == batonCrc b

/-! ### Details (Tables 10.5, 11.5 to 11.7) -/

def sprGen (b : BatonWord) : Nat := fld b 54 41
def sprControl (b : BatonWord) : Nat := fld b 40 38
def sprMsg (b : BatonWord) : Nat := fld b 37 34
def sprRank (b : BatonWord) : Nat := fld b 33 27
def sprLine (b : BatonWord) : Nat := fld b 26 7
def sprBytes (b : BatonWord) : Nat := fld b 6 0
def redSlowWait (b : BatonWord) : Nat := fld b 61 46
def redSlow (b : BatonWord) : Nat := fld b 45 34
def redMsg (b : BatonWord) : Nat := fld b 33 30
def redGen (b : BatonWord) : Nat := fld b 29 16
def redValid (b : BatonWord) : Nat := fld b 15 0
def bcGen (b : BatonWord) : Nat := fld b 61 48
def bcChunk (b : BatonWord) : Nat := fld b 47 44
def bcBitmapEn (b : BatonWord) : Bool := flag b 43
def bcBitmap (b : BatonWord) : Nat := fld b 42 40
def bcMsg (b : BatonWord) : Nat := fld b 39 36
def bcRank (b : BatonWord) : Nat := fld b 35 29
def bcLine (b : BatonWord) : Nat := fld b 28 9
def bcBytes (b : BatonWord) : Nat := fld b 8 0

/-- The channel a kind travels on; 4 for a kind without one (Table 10.6). -/
def kindVc (k : Nat) : Nat :=
  if k = 7 then 0 else if k = 5 ∨ k = 6 then 1 else if k = 2 ∨ k = 3 ∨ k = 4 then 2 else if k = 8 then 3 else 4

/-- A link format of Table 10.8. -/
def linkFmt (f : Nat) : Bool := f == 0 || f == 1 || f == 3 || f == 4 || f == 12

/-- Whether the bits a kind leaves unused, or its reserved codes, are other than zero (R275). -/
def detailBad (b : BatonWord) : Bool :=
  let k := batKind b
  let d := batDetail b
  if k = 0 ∨ k = 1 ∨ k = 8 then d != 0
  else if k = 2 then decide (2 ^ 9 ≤ d)
  else if k = 3 then decide (2 ^ 8 ≤ d)
  else if k = 4 then decide (2 ^ 16 ≤ d)
  else if k = 7 then fld b 61 55 != 0 || decide (4 < sprControl b)
  else false

/-- A malformed baton: a reserved kind, a kind on the wrong channel, or a nonzero reserved bit (R275). -/
def malformed (b : BatonWord) : Bool :=
  decide (8 < batKind b) || (kindVc (batKind b) != 4 && batVc b != kindVc (batKind b)) || detailBad b ||
    (if batKind b = 5 then !linkFmt (batFmt b) else batFmt b != 0) ||
    (batScales b != 0 && !(batKind b == 5 && (batFmt b == 3 || batFmt b == 4)))

/-- A baton that a link receives as one of a kind. -/
def batonIs (k : Nat) (b : BatonWord) : Bool := crcGood b && !malformed b && batKind b == k

/-! ### Building -/

/-- A baton as its maker queues it: the link fills in credits, ack, seq and crc when it is sent. -/
structure BatonParts where
  kind : Nat
  cls : Nat
  last : Bool
  fmt : Nat
  hops : Nat
  detail : Nat
  dst : Nat
  src : Nat
  tag : Nat
  offset : Nat
  scales : Nat
  payload : List Byte

/-- The word of a baton. -/
def BatonParts.word (p : BatonParts) : BatonWord :=
  BitVec.ofNat 2304 (
    ofBytes (p.payload.take 256) * 2 ^ 256 + 2 ^ 192 * (p.scales % 2 ^ 32) + 2 ^ 160 * (p.offset % 2 ^ 32)
    + 2 ^ 144 * (p.tag % 65536) + 2 ^ 92 * (p.dst % 4096) + 2 ^ 80 * (p.src % 4096)
    + 2 ^ 78 * (kindVc p.kind % 4) + 2 ^ 77 * (p.cls % 2) + (if p.last then 2 ^ 76 else 0) + 2 ^ 72 * (p.kind % 16)
    + 2 ^ 68 * (p.fmt % 16) + 2 ^ 62 * (p.hops % 64) + p.detail % 2 ^ 62)

/-- Bits [hi:lo] of a baton replaced. -/
def setBat (b : BatonWord) (hi lo x : Nat) : BatonWord :=
  let v := b.toNat
  BitVec.ofNat 2304 (v - bits v hi lo * 2 ^ lo + (x % 2 ^ (hi + 1 - lo)) * 2 ^ lo)

/-- A baton as it goes onto the lanes: credit returns, ack and seq set, then the CRC (R274, R276, R279). -/
def sealBaton (b : BatonWord) (credit1 credit2 ack seq : Nat) : BatonWord :=
  let b := setBat (setBat (setBat (setBat b 143 136 credit1) 135 128 credit2) 127 116 ack) 115 104 seq
  setBat b 255 224 (batonCrc b)

end Sys2Proof.Machine
end

