-- ==== Sys2Proof/Config.lean ====
section
/-!
DEFINITION. What the manual leaves to an implementation, to published vectors or to another standard, as constants
without a body: nothing in Lean can evaluate them, so every claim about the machine holds for every value of them.
-/

namespace Sys2Proof.Config

open Sys2Proof

/-- The bits of library routine `number` under an ALV at one FP32 argument, where the manual fixes only an error bound
(R89, R164). -/
opaque routine : (alv number : Nat) → (arg : Word) → Word

/-- The least FP32 argument at which a routine of a declared order reaches a result, named by its place in the order of the
FP32 values (R165). -/
opaque routineStep : (alv number : Nat) → (place : Int) → Word

/-- The n-th byte of undefined contents (output extents of a stopped command and their like: R143, R191, R239, R380). -/
opaque freeByte : Nat → Byte

/-- A word the manual leaves open: `slot` names the place, `n` the draw. -/
opaque freeWord : (slot n : Nat) → Word

/-- What a read of an infield line at or past line 786,432 gives: the manual checks no such address of a bias or scale
vector or of a memory-word shape source, and no such line exists (R61, R112, R248). -/
opaque beyondInfield : (rank addr bytes : Nat) → Nat

/-- Whether an HSS signature verifies (RFC 8554, R469): public key, message, signature. -/
opaque hssVerify : (key message signature : List Byte) → Bool

/-- The HSS signature that the identity key of a generation makes with its n-th leaf (R471). -/
opaque hssSign : (generation leaf : Nat) → (message : List Byte) → List Byte

/-- The HSS public key of an identity key generation (R471). -/
opaque identityKey : (generation : Nat) → List Byte

/-- Uzodor's root public key, held in the boot ROM (R469). -/
opaque rootKey : List Byte

/-- The limit table of the boot ROM: lowest and highest value of a calibration word (R514). -/
opaque limits : (word : Nat) → Word × Word

/-- The factory value of a trim word (R464): the structural and calibration regions as the factory wrote them. -/
opaque factoryTrim : (word : Nat) → Word

/-- A structural word of the trim table after field substitutions, each as (old site, new site, rank), oldest first: the
manual says that the region holds the active map and the rank assignment, and not where (R10, R464). -/
opaque structuralTrim : (moves : List (Nat × Nat × Nat)) → (word : Nat) → Word

/-- A stream's coding history after one more frame or slate: the media library, the history number before it, its input
(R409). -/
opaque mediaHistory : (lib history : Nat) → (input : List Nat) → Nat

/-- The bits of a row of units by its main coding and by its skip path, at a quantiser: they follow from the history, the
frame's input and how the rows above it were coded, as (quantiser, skipped) (R405, R409). -/
opaque rowBits : (lib history : Nat) → (input : List Nat) → (rows : List (Nat × Bool)) → (qp : Nat) → Nat × Nat

/-- The n-th byte an encoder writes for a frame whose rows were coded so (R408, R409). -/
opaque codedByte : (lib history : Nat) → (input : List Nat) → (rows : List (Nat × Bool)) → (n : Nat) → Byte

/-- The n-th luma sample of the picture that a coded frame leaves as a reference (R395). -/
opaque reconSample : (lib history : Nat) → (input : List Nat) → (rows : List (Nat × Bool)) → (n : Nat) → Nat

/-- How many bytes an encoder makes of a slate (R417). -/
opaque slateLength : (lib history : Nat) → (input : List Nat) → Nat

/-- The vector that the mode decision of a media library leaves a 16×16 block, given the one that the search found; none
where the block is not coded from a reference (R408). -/
opaque modeVector : (lib history : Nat) → (input : List Nat) → (block : Nat) → (found : Mv) → Option Mv

/-- A vector's bit cost beside a block's candidates (R408). -/
opaque vectorBits : (lib codec : Nat) → (cands : List Mv) → Mv → Nat

/-- Log2 of the side of the Hadamard transform in SATD, which the manual does not state (R407). -/
opaque satdLog : (lib : Nat) → Nat

/-- A codec's sample at a quarter-sample place, from the 8 by 8 whole samples around it: the standard's filter (R408). -/
opaque subSample : (codec : Nat) → (whole : List Nat) → (fx fy : Nat) → Nat

/-- The input of a DECODE conforms to its standard and lies within Table 15.1 (R410). -/
opaque conforms : (history : Nat) → (input : List Nat) → Bool

/-- The input holds a valid sequence header or parameter set outside Table 15.1 (R412). -/
opaque outsideSubset : (history : Nat) → (input : List Nat) → Bool

/-- How many pictures a temporal or access unit codes (R410). -/
opaque pictureCount : (history : Nat) → (input : List Nat) → Nat

/-- The header of a unit's f-th picture cannot be parsed (R411). -/
opaque headerDamaged : (history : Nat) → (input : List Nat) → (f : Nat) → Bool

/-- A tile or a slice starts at a 64×64 unit of the f-th picture (R411). -/
opaque groupStart : (history : Nat) → (input : List Nat) → (f unit : Nat) → Bool

/-- A syntax element of a 64×64 unit lies outside its legal range, or its data ends (R411). -/
opaque unitDamaged : (history : Nat) → (input : List Nat) → (f unit : Nat) → Bool

/-- The cycles a decoder would spend on a 64×64 unit, and on the rest of a picture (R401, R411). -/
opaque unitCycles : (history : Nat) → (input : List Nat) → (f unit : Nat) → Nat
opaque headerCycles : (history : Nat) → (input : List Nat) → (f : Nat) → Nat

/-- The n-th sample of the f-th picture that the standard's decoding process makes of an input (R410). -/
opaque pictureSample : (history : Nat) → (input : List Nat) → (f n : Nat) → Nat

/-- Which picture the standard's decoding process outputs after an input, if any: 0 for the one decoded last, 1 for the one
before it, and on (R410). -/
opaque outputIndex : (history : Nat) → (input : List Nat) → Option Nat

/-- The n-th sample of an output picture, from the decoded one: film grain synthesis where the stream has it (Table 15.1). -/
opaque shownSample : (history : Nat) → (input : List Nat) → (n sample : Nat) → Nat

/-- The reference slot that holds the picture a coding history ends with, as AV1 numbers them (R416). -/
opaque showIndex : (history : Nat) → Nat

/-- The all-skip picture that HEVC's skip path makes with the picture a coding history ends with, for a picture order count:
its NAL units with their start codes (R416). -/
opaque skipPicture : (history poc : Nat) → List Byte

/-- The RTP sequence number of the first packet a playout port sends, and of its n-th packet the IPv4 identification and
don't-fragment bit and a nonzero UDP checksum or none: Table 15.7 states none of them. -/
opaque rtpFirst : (port : Nat) → Nat
opaque ipIdent : (port n : Nat) → Nat
opaque ipWhole : (port n : Nat) → Bool
opaque udpSum : (port n : Nat) → Nat

/-- A sample of a queued surface that cannot be read any more when its frame is taken. -/
opaque lostSample : (seq n : Nat) → Byte

/-- RECON variants 4, 5 and 6 of a micro-program: a Newton step or a correction whose operations the manual does not
state, as (sign, magnitude, exponent) of an FP32X value (R162). -/
opaque microStep : (variant : Nat) → (a b : Bool × Nat × Int) → Bool × Nat × Int

/-- The log-sum-exp of a row, whose algorithm the manual does not state (Table 6.8). -/
opaque rowLse : (alv : Nat) → (row : List Nat) → Word

/-- The reference size of the FW image's self-described units, mean rail voltage in mV and power in W (R498). -/
opaque railReading : (rail n : Nat) → Word

/-- The bus voltage, current and input power the module senses (R497, R498). -/
opaque sensed : (which n : Nat) → Word

end Sys2Proof.Config
end

