-- ==== Sys2Proof/Machine/Arith.lean ====
section
/-!
DEFINITION. The number formats and roundings of chapter 3: exact values, RNE and stochastic rounding, conversion out
of FP32 with its flags, stage A's block sums, FP32 addition, and the pacer generator.

A value is exact: NaN, an infinity, or a sign with a magnitude m · 2^e. Every rounding is one named function.
Flags are sets of flag-word bits (R82, R83), held as a number.
-/

namespace Sys2Proof.Machine

open Sys2Proof

/-- An exact value: NaN, a signed infinity, or (-1)^neg · m · 2^e. -/
inductive Num where
  | nan
  | inf (neg : Bool)
  | fin (neg : Bool) (m : Nat) (e : Int)
  deriving DecidableEq, Repr

/-- A floating-point format of Table 3.1: exponent bits, fraction bits, bias, whether the top exponent field holds
infinities and NaN, and whether only the all-ones code is NaN (FP8 E4M3). -/
structure Fmt where
  eb : Nat
  fb : Nat
  bias : Nat
  ieee : Bool
  topNan : Bool
  deriving DecidableEq, Repr

def fp32 : Fmt := ⟨8, 23, 127, true, false⟩
def bf16 : Fmt := ⟨8, 7, 127, true, false⟩
def fp16 : Fmt := ⟨5, 10, 15, true, false⟩
def e4m3 : Fmt := ⟨4, 3, 7, false, true⟩
def e5m2 : Fmt := ⟨5, 2, 15, true, false⟩
def e3m2 : Fmt := ⟨3, 2, 3, false, false⟩
def e2m3 : Fmt := ⟨2, 3, 1, false, false⟩
def e2m1 : Fmt := ⟨2, 1, 1, false, false⟩

/-- NAN_OUT, flag-word bit 0 (0x0201). -/
def flNan : Nat := 1
/-- INF_OUT, bit 1 (0x0202). -/
def flInf : Nat := 2
/-- SAT, bit 2 (0x0203). -/
def flSat : Nat := 4
/-- SCALE_RANGE, bit 3 (0x0204). -/
def flScale : Nat := 8
/-- LONG_K, bit 4 (0x0205). -/
def flLongK : Nat := 16
/-- FALLBACK_CAP, bit 31 (0x0220). -/
def flCap : Nat := 2 ^ 31
/-- OUTLIER_OVERFLOW, bit 32 (0x0221). -/
def flOutlier : Nat := 2 ^ 32
/-- GSE_DROP, bit 63 (0x0240). -/
def flDrop : Nat := 2 ^ 63

/-- Weight of the last place of a format's subnormals, as a power of two. -/
def Fmt.qmin (f : Fmt) : Int := 1 - (f.bias : Int) - (f.fb : Int)

/-- The largest finite magnitude code of a format (Table 3.1). -/
def Fmt.maxCode (f : Fmt) : Nat :=
  if f.ieee then (2 ^ f.eb - 1) * 2 ^ f.fb - 1
  else if f.topNan then 2 ^ (f.eb + f.fb) - 2
  else 2 ^ (f.eb + f.fb) - 1

/-- The sign bit of a format. -/
def Fmt.sign (f : Fmt) (neg : Bool) : Nat := if neg then 2 ^ (f.eb + f.fb) else 0

/-- The value a code stands for (R63, Table 3.1). -/
def Fmt.decode (f : Fmt) (c : Nat) : Num :=
  let neg := bit c (f.eb + f.fb)
  let x := bits c (f.eb + f.fb - 1) f.fb
  let m := c % 2 ^ f.fb
  if f.ieee && x == 2 ^ f.eb - 1 then (if m == 0 then .inf neg else .nan)
  else if f.topNan && x == 2 ^ f.eb - 1 && m == 2 ^ f.fb - 1 then .nan
  else if x == 0 then .fin neg m f.qmin
  else .fin neg (m + 2 ^ f.fb) (f.qmin + (x : Int) - 1)

/-- The two rounding modes (R76). `sr r24` carries bits [31:8] of the pacer output (R77). -/
inductive Rounding where
  | rne
  | sr (r24 : Nat)
  deriving DecidableEq, Repr

/-- A magnitude m · 2^e rounded to `p` significant bits, spacing at least 2^qmin: the result is t · 2^q (R76, R77). -/
def roundMag (r : Rounding) (p : Nat) (qmin : Int) (m : Nat) (e : Int) : Nat × Int :=
  if m = 0 then (0, qmin) else
  let q := max qmin (e + (Nat.log2 m : Int) + 1 - (p : Int))
  if q ≤ e then (m <<< (e - q).toNat, q)
  else
    let d := (q - e).toNat
    let t := m >>> d
    let rem := m % 2 ^ d
    let up := match r with
      | .rne => decide (2 * rem > 2 ^ d) || (decide (2 * rem = 2 ^ d) && t % 2 == 1)
      | .sr r24 => rem != 0 && decide ((rem <<< 24) >>> d + r24 ≥ 2 ^ 24)
    (if up then t + 1 else t, q)

/-- The magnitude code of t · 2^q in a format; above `maxCode` it lies beyond the format's range. -/
def Fmt.magCode (f : Fmt) (t : Nat) (q : Int) : Nat := ((q - f.qmin).toNat <<< f.fb) + t

/-- The magnitude code of a rounded magnitude. -/
def Fmt.roundCode (f : Fmt) (r : Rounding) (m : Nat) (e : Int) : Nat :=
  let (t, q) := roundMag r (f.fb + 1) f.qmin m e
  f.magCode t q

/-- The canonical FP32 NaN (Table 3.3). -/
def nan32 : Nat := 0x7FC00000

/-- An exact value rounded to FP32; ±∞ beyond range, with INF_OUT; a NaN is canonical, with NAN_OUT (R71, R78). -/
def toF32 (r : Rounding) : Num → Nat × Nat
  | .nan => (nan32, flNan)
  | .inf neg => (fp32.sign neg + 0x7F800000, 0)
  | .fin neg m e =>
    let c := fp32.roundCode r m e
    if c > fp32.maxCode then (fp32.sign neg + 0x7F800000, flInf) else (fp32.sign neg + c, 0)

/-- The value of an FP32 code. -/
def ofF32 (c : Nat) : Num := fp32.decode c

/-- The negative of a value. -/
def Num.neg : Num → Num
  | .nan => .nan
  | .inf n => .inf (!n)
  | .fin n m e => .fin (!n) m e

/-- The magnitude of a value. -/
def Num.abs : Num → Num
  | .nan => .nan
  | .inf _ => .inf false
  | .fin _ m e => .fin false m e

/-- The exact sum of two values; an exact zero is +0 unless both are negative zeros; ∞ - ∞ is NaN (R71). -/
def Num.add : Num → Num → Num
  | .nan, _ => .nan
  | _, .nan => .nan
  | .inf a, .inf b => if a = b then .inf a else .nan
  | .inf a, _ => .inf a
  | _, .inf b => .inf b
  | .fin a m e, .fin b n g =>
    let q := min e g
    let x := m <<< (e - q).toNat
    let y := n <<< (g - q).toNat
    if a = b then .fin a (x + y) q
    else if x = y then .fin false 0 q
    else if x > y then .fin a (x - y) q
    else .fin b (y - x) q

/-- The exact product of two values; ∞ times zero is NaN (R69). -/
def Num.mul : Num → Num → Num
  | .nan, _ => .nan
  | _, .nan => .nan
  | .inf a, .inf b => .inf (a != b)
  | .inf a, .fin b m _ => if m = 0 then .nan else .inf (a != b)
  | .fin a m _, .inf b => if m = 0 then .nan else .inf (a != b)
  | .fin a m e, .fin b n g => .fin (a != b) (m * n) (e + g)

/-- A value times a power of two. -/
def Num.scale (k : Int) : Num → Num
  | .nan => .nan
  | .inf a => .inf a
  | .fin a m e => .fin a m (e + k)

/-- Whether the value is NaN. -/
def Num.isNan : Num → Bool
  | .nan => true
  | _ => false

/-- Whether the value is an infinity. -/
def Num.isInf : Num → Bool
  | .inf _ => true
  | _ => false

/-- Whether the value is zero, of either sign. -/
def Num.isZero : Num → Bool
  | .fin _ 0 _ => true
  | _ => false

/-- Whether the value has a set sign (a NaN has none). -/
def Num.isNeg : Num → Bool
  | .fin n _ _ => n
  | .inf n => n
  | .nan => false

/-- Strict order of two values, -0 equal to +0; false where either is NaN. -/
def Num.lt : Num → Num → Bool
  | .nan, _ => false
  | _, .nan => false
  | .inf a, .inf b => a && !b
  | .inf a, _ => a
  | _, .inf b => !b
  | .fin a m e, .fin b n g =>
    let q := min e g
    let x : Int := (m <<< (e - q).toNat : Nat)
    let y : Int := (n <<< (g - q).toNat : Nat)
    decide ((if a then -x else x) < (if b then -y else y))

/-- Equal values, -0 equal to +0; false where either is NaN. -/
def Num.eqv (x y : Num) : Bool := !x.isNan && !y.isNan && !x.lt y && !y.lt x

/-- +0. -/
def Num.zero : Num := .fin false 0 0

/-- An integer as a value. -/
def Num.ofInt (i : Int) : Num := .fin (decide (i < 0)) i.natAbs 0

/-- FP32 addition (R71): the rounding, INF_OUT on overflow, NAN_OUT on a NaN result. -/
def f32Add (r : Rounding) (a b : Nat) : Nat × Nat := toF32 r ((ofF32 a).add (ofF32 b))

/-- FP32 multiplication by RNE. -/
def f32Mul (a b : Nat) : Nat × Nat := toF32 .rne ((ofF32 a).mul (ofF32 b))

/-- Format codes of Table 2.5: the element format of each floating-point code; `none` for INT8, MXINT8 and reserved. -/
def fmtOf : Nat → Option Fmt
  | 0 => some fp32
  | 1 => some bf16
  | 2 => some fp16
  | 3 => some e4m3
  | 4 => some e5m2
  | 5 => some e4m3
  | 6 => some e5m2
  | 7 => some e3m2
  | 8 => some e2m3
  | 9 => some e2m1
  | _ => none

/-- Element width in bits of each format code (Table 2.5, R29). -/
def fmtBits : Nat → Nat
  | 0 => 32
  | 1 => 16
  | 2 => 16
  | 7 => 6
  | 8 => 6
  | 9 => 4
  | _ => 8

/-- Whether a format code is an MX format (Table 2.5). -/
def fmtMx (c : Nat) : Bool := c == 5 || c == 6 || c == 7 || c == 8 || c == 9 || c == 11

/-- Whether a format code is legal as an operand (Table 2.5). -/
def fmtOperand (c : Nat) : Bool := decide (1 ≤ c) && decide (c ≤ 11)

/-- Whether a format code is legal as a drain output (Table 2.5). -/
def fmtDrain (c : Nat) : Bool := decide (c ≤ 4) || c == 10

/-- An eight-bit two's-complement code as an integer. -/
def int8 (c : Nat) : Int := if c % 256 < 128 then (c % 256 : Nat) else ((c % 256 : Nat) : Int) - 256

/-- The value of an element code of any format of Table 2.5, the block scale left out (R64). -/
def elemVal (fmt c : Nat) : Num :=
  if fmt = 10 then Num.ofInt (int8 c)
  else if fmt = 11 then (Num.ofInt (int8 c)).scale (-6)
  else match fmtOf fmt with
    | some f => f.decode c
    | none => .nan

/-- Conversion of an exact value to INT8: rounded to an integer, clamped, SAT; NaN becomes 0 with NAN_OUT (Table 3.4). -/
def toInt8 (r : Rounding) : Num → Nat × Nat
  | .nan => (0, flNan)
  | .inf neg => (if neg then 0x80 else 0x7F, flSat)
  | .fin neg m e =>
    let (t, q) := if 0 ≤ e then (m, e) else
      let d := (-e).toNat
      let t := m >>> d
      let rem := m % 2 ^ d
      let up := match r with
        | .rne => decide (2 * rem > 2 ^ d) || (decide (2 * rem = 2 ^ d) && t % 2 == 1)
        | .sr r24 => rem != 0 && decide ((rem <<< 24) >>> d + r24 ≥ 2 ^ 24)
      (if up then t + 1 else t, 0)
    let v := t <<< q.toNat
    if neg then (if v > 128 then (0x80, flSat) else ((256 - v) % 256, 0))
    else (if v > 127 then (0x7F, flSat) else (v, 0))

/-- Conversion out of FP32, or out of an exact value, to a drain output format (R78, Table 3.4): the code and the flags. -/
def convOut (r : Rounding) (fmt : Nat) (x : Num) : Nat × Nat :=
  if fmt = 10 then toInt8 r x else
  match fmt, fmtOf fmt with
  | 0, _ => toF32 r x
  | 3, _ => match x with
    | .nan => (0x7F, flNan)
    | .inf neg => (e4m3.sign neg + 0x7E, flSat)
    | .fin neg m e =>
      let c := e4m3.roundCode r m e
      if c > 0x7E then (e4m3.sign neg + 0x7E, flSat) else (e4m3.sign neg + c, 0)
  | 4, _ => match x with
    | .nan => (0x7E, flNan)
    | .inf neg => (e5m2.sign neg + 0x7C, 0)
    | .fin neg m e =>
      let c := e5m2.roundCode r m e
      if c > 0x7B then (e5m2.sign neg + 0x7B, flSat) else (e5m2.sign neg + c, 0)
  | _, some f => match x with
    | .nan => ((2 ^ f.eb - 1) * 2 ^ f.fb + 2 ^ (f.fb - 1), flNan)
    | .inf neg => (f.sign neg + (2 ^ f.eb - 1) * 2 ^ f.fb, 0)
    | .fin neg m e =>
      let c := f.roundCode r m e
      if c > f.maxCode then (f.sign neg + (2 ^ f.eb - 1) * 2 ^ f.fb, flInf) else (f.sign neg + c, 0)
  | _, none => (0, 0)

/-- `n` bits of a 32-bit word rotated left (R79). -/
def rotl32 (x n : Nat) : Nat := ((x <<< n) ||| (x >>> (32 - n))) % 4294967296

/-- One round of the pacer generator on (x0, x1, x2, x3, k0, k1) (R79). -/
def pacerRound (r : Nat) : Nat × Nat × Nat × Nat × Nat × Nat → Nat × Nat × Nat × Nat × Nat × Nat
  | (x0, x1, x2, x3, k0, k1) =>
    let x0 := wrap32 (x0 + x1 + k0)
    let x3 := rotl32 (x3 ^^^ x0) 13
    let x2 := wrap32 (x2 + x3 + k1)
    let x1 := rotl32 (x1 ^^^ x2) 9
    let x0 := wrap32 (x0 + x1)
    let x3 := rotl32 (x3 ^^^ x0) 11
    let x2 := wrap32 (x2 + x3)
    let x1 := rotl32 (x1 ^^^ x2) 5
    let k0 := wrap32 (k0 + 0x9E3779B9 + r)
    let k1 := k1 ^^^ rotl32 k0 7
    (x0, x1, x2, x3, k0, k1)

/-- The pacer generator (R79). -/
def pacer (seed tensorId elementIndex partialIndex : Nat) : Nat :=
  let z := iter 10 pacerRound
    (wrap32 elementIndex,
     (bits elementIndex 47 32) ||| wrap32 ((tensorId % 65536) <<< 16),
     wrap32 partialIndex, 0x70616365, wrap32 seed, bits seed 63 32)
  z.1 ^^^ z.2.2.2.1 ^^^ rotl32 (z.2.1 ^^^ z.2.2.1) 16

/-- Bits [31:8] of the pacer output, the r24 of R77. -/
def pacer24 (seed tensorId elementIndex partialIndex : Nat) : Nat :=
  pacer seed tensorId elementIndex partialIndex >>> 8

/-- The mode of an operation: stochastic with its pacer key, or RNE. -/
def srMode (sr : Bool) (seed tensorId elementIndex partialIndex : Nat) : Rounding :=
  if sr then .sr (pacer24 seed tensorId elementIndex partialIndex) else .rne

/-- The exponent of the largest power of two not above a nonzero magnitude. -/
def magExp (m : Nat) (e : Int) : Int := (Nat.log2 m : Int) + e

/-- Whether an operand pair sums in window mode (Table 3.2): BF16, FP16, and every pair with an E5M2 side. -/
def windowPair (fa fb : Nat) : Bool :=
  fa == 1 || fa == 2 || fa == 4 || fa == 6 || fb == 4 || fb == 6

/-- A product's magnitude truncated toward zero to a multiple of 2^q (R68). -/
def truncTo (q : Int) : Num → Num
  | .fin n m e => if q ≤ e then .fin n m e else .fin n (m >>> (q - e).toNat) q
  | x => x

/-- The largest exponent among the nonzero finite products (R68). -/
def emaxOf (ps : List Num) : Option Int :=
  ps.foldl (fun acc p => match p with
    | .fin _ m e => if m = 0 then acc else
      match acc with
      | none => some (magExp m e)
      | some x => some (max x (magExp m e))
    | _ => acc) none

/-- The block register's sum of a block's products (R67, R68, R69). -/
def blockReg (window : Bool) (ps : List Num) : Num :=
  if window && !(ps.any fun p => p.isNan || p.isInf) then
    match emaxOf ps with
    | none => Num.zero
    | some x => (ps.map (truncTo (x - 41))).foldl Num.add Num.zero
  else ps.foldl Num.add Num.zero

/-- Conversion of a block sum to FP32 (R70): scaled by 2^k, RNE, an exact zero to +0, SCALE_RANGE and INF_OUT beyond
the range, SCALE_RANGE where a nonzero sum rounds to zero. -/
def blockToF32 (k : Int) : Num → Nat × Nat
  | .nan => (nan32, flNan)
  | .inf n => (fp32.sign n + 0x7F800000, 0)
  | .fin n m e =>
    if m = 0 then (0, 0) else
    let c := fp32.roundCode .rne m (e + k)
    if c > fp32.maxCode then (fp32.sign n + 0x7F800000, flScale ||| flInf)
    else if c = 0 then (fp32.sign n, flScale)
    else (fp32.sign n + c, 0)

/-- One FP32 block sum (R66 to R70, R97): the products of the elements, the side entries' products, and the two scale
bytes (`none` for a format without a scale). -/
def blockSum (fa fb : Nat) (a b : List Nat) (side : List Num) (sa sb : Option Nat) : Nat × Nat :=
  if sa = some 0xFF || sb = some 0xFF then (nan32, flNan) else
  let ps := (List.zipWith (fun x y => (elemVal fa x).mul (elemVal fb y)) a b) ++ side
  let k : Int := (match sa with | some e => (e : Int) - 127 | none => 0)
    + (match sb with | some e => (e : Int) - 127 | none => 0)
  blockToF32 k (blockReg (windowPair fa fb) ps)

/-- Smallest d with n ≤ 2^d (R72). -/
def ceilLog2 (n : Nat) : Nat := if n ≤ 1 then 0 else Nat.log2 (n - 1) + 1

/-- The fixed tree of R72 over FP32 partials, its additions rounded by `mode node`. `fuel` bounds the depth. -/
def treeSum (mode : Nat → Rounding) : Nat → List Nat → Nat → Nat × Nat
  | 0, p, _ => (p.headD 0, 0)
  | fuel + 1, p, node =>
    if p.length ≤ 1 then (p.headD 0, 0) else
    let half := 2 ^ (ceilLog2 p.length - 1)
    let l := treeSum mode fuel (p.take half) (2 * node)
    let r := treeSum mode fuel (p.drop half) (2 * node + 1)
    let z := f32Add (mode node) l.1 r.1
    (z.1, l.2 ||| r.2 ||| z.2)

/-- The greater of two FP32 values by R56's rule for ReLU: max(x, 0), with max(-0, 0) = +0. -/
def relu (x : Nat) : Nat := if (ofF32 x).isNan then nan32 else if (ofF32 x).isNeg then 0 else x

end Sys2Proof.Machine
end

