-- ==== Sys2Proof/Machine/State.lean ====
section
/-!
DEFINITION. The state of the module as plain data, and the state right after reset.

Registers that hold a value of their own stand in `regs`, keyed by their offset in BAR0 (R425), a port's own copy by
offset + 2^26 · (port + 1) (R427). Everything else the manual gives the module has a named place below. A table lists
only the entries that differ from what an unlisted key reads as (`Tab`); that default stands beside each table.
-/

namespace Sys2Proof.Machine

open Sys2Proof

/-- Names a command: its context, its ring and its slot index (R352). -/
structure CmdId where
  cx : Nat
  ring : Nat
  index : Nat
  deriving DecidableEq, Repr

/-- A kernel image as LOAD_KERNEL keeps it in a kernel slot (Table 13.6). -/
structure KImage where
  /-- Bytes 0 to 7 of the image. -/
  head : Nat
  prog0 : List Nat
  prog1 : List Nat
  counter : Nat
  bases : List Nat
  params : List Nat
  window : Nat
  gate : Nat
  deriving DecidableEq, Repr

/-- A decoded command (R123), from its decode until its completion record is written. -/
structure Cmd where
  index : Nat
  desc : Line
  ext : Line
  /-- Status of a refusal at decode (R361), 0 for none. -/
  refusal : Nat
  issued : Bool
  /-- Waiting at issue for a held lap counter (R144). -/
  waitsCounter : Bool
  /-- Port cycle counter at issue (R368). -/
  issueStamp : Nat
  /-- Run time so far, in ns (R379). -/
  runNs : Nat
  /-- Context seed committed at issue (R80). -/
  seed : Nat
  /-- Issue number in each pinned sequence, as (sequence, number) (R188). -/
  pins : List (Nat × Nat)
  /-- The frame of each KV page it has touched, by entry key (R189). -/
  frames : List (Nat × Nat)
  flags : Nat
  status : Nat
  result : Nat
  /-- Ranks that have arrived at the command's hurdle (R138). -/
  arrived : List Nat
  /-- Its work is done but for copies on write and held writes (R192, R264). -/
  worked : Bool
  /-- Its work is done; only earlier commands or a step boundary hold its completion record. -/
  finished : Bool
  /-- The step boundary of R103 has been applied. -/
  bounded : Bool
  /-- Rows, pieces, pages or batons done: the command's share of the progress record (R384). -/
  progress : Nat
  deriving DecidableEq, Repr

/-- A completion record written to host memory and not yet acknowledged (R368). -/
structure Completion where
  index : Nat
  slots : Nat
  record : Line
  irq : Bool
  /-- The port that it goes out on, and the host address of the command's first slot (R348, R352). -/
  port : Nat
  addr : Nat
  deriving DecidableEq, Repr

/-- One ring of a context (R352 to R357). -/
structure Ring where
  producer : Nat
  fetched : Nat
  done : Nat
  cmds : List Cmd
  written : List Completion
  /-- Completions acknowledged since the last MSI-X of the ring (R369). -/
  coalesced : Nat
  /-- Run time in ns, by index, of commands whose decoded descriptors a context switch discarded (R125, R379). -/
  ranNs : Tab Nat
  deriving DecidableEq, Repr

def Ring.empty : Ring := ⟨0, 0, 0, [], [], 0, []⟩

/-- Context states (Table 13.2). -/
inductive CxMode where
  | free
  | assigned
  | ready
  | faulted
  | stopping
  deriving DecidableEq, Repr

/-- One context (R349 to R363, R379, R384). -/
structure Ctx where
  mode : CxMode
  port : Nat
  status : Nat
  /-- The doorbell line is held Shared (R354). -/
  doorbellHeld : Bool
  doorbellReading : Bool
  doorbellAgain : Bool
  rings : Tab Ring
  sems : Tab Nat
  slots : Tab (Option KImage)
  /-- Sticky flag word (R82). -/
  flags : Nat
  deriving DecidableEq, Repr

def Ctx.empty : Ctx := ⟨.free, 0, 0, false, false, false, [], [], [], 0⟩

/-- One host port's UCIe link (HP_STATE, R370). -/
inductive PortMode where
  | noDie
  | inReset
  | training
  | up
  | degraded
  | down
  deriving DecidableEq, Repr

structure HostPort where
  mode : PortMode
  lanesRepaired : Nat
  /-- Port cycle counter: 1 GHz from port reset (R368). -/
  cycles : Nat
  /-- MSI-X vectors sent, newest first (R369). -/
  msix : List Nat
  deriving DecidableEq, Repr

def HostPort.empty : HostPort := ⟨.noDie, 0, 0, []⟩

/-- A write of the module into host memory by HOST_COPY: port, address, bytes, poison (R344, R364, R448). -/
structure HostWrite where
  port : Nat
  addr : Nat
  bytes : List Byte
  poison : Bool
  deriving DecidableEq, Repr

/-- A read of the module from host memory: port, address, bytes; by RdShared for a doorbell line, else by RdCurr (R344,
R348). -/
structure HostRead where
  port : Nat
  addr : Nat
  bytes : Nat
  shared : Bool
  deriving DecidableEq, Repr

/-- Hosts: ports, contexts, what the module wrote to host memory, and the reads it made there (chapter 13). -/
structure Hosts where
  ports : Tab HostPort
  ctxs : Tab Ctx
  outbox : List HostWrite
  reads : List HostRead
  deriving DecidableEq, Repr

/-- Commit set states (R433). -/
inductive SetMode where
  | closed
  | opened
  | hold
  deriving DecidableEq, Repr

/-- A commit set: generations, state, last status, and the values of the shadow and of the pending copy that differ from
those in effect, by register key (R433). -/
structure CommitSet where
  openGen : Nat
  closeGen : Nat
  mode : SetMode
  status : Nat
  shadow : List (Nat × Nat)
  pending : Option (List (Nat × Nat))
  /-- The port whose CS_CLOSE completed the pending copy (R295). -/
  closer : Nat
  deriving DecidableEq, Repr

def CommitSet.empty : CommitSet := ⟨0, 0, .closed, 0, [], none, 0⟩

/-- The register space (chapter 16). -/
structure Regs where
  /-- Values in effect, by offset; an unlisted register holds its reset value. -/
  vals : Tab Nat
  /-- Latched _HI values by port and offset (R426). -/
  latches : Tab (Option Nat)
  sets : Tab CommitSet
  deriving DecidableEq, Repr

/-- What a site is used for (R10, R12, FD_STATE). -/
inductive SiteUse where
  | active
  | spare
  | out
  deriving DecidableEq, Repr

/-- One field site (R10 to R13, R442, R501). -/
structure Site where
  use : SiteUse
  rank : Option Nat
  /-- Thermal steps taken, 0 to 4 (R501). -/
  steps : Nat
  /-- Samples of 100 µs since the last step, and in a row below 92 °C. -/
  sinceStep : Nat
  coolSamples : Nat
  junction : Nat
  /-- Cores stopped under R501. -/
  stopped : Bool
  chgStall : Nat
  opdStall : Nat
  /-- Powered seconds at which each path failure of the site's ports arose, newest first (R451). -/
  pathFails : List Nat
  /-- Whether the site's stack has ever served a rank (R491). -/
  served : Bool
  deriving DecidableEq, Repr

/-- What a core site is used for (R449, R450). -/
inductive CoreUse where
  | inService
  | spare
  | lost
  | retired
  deriving DecidableEq, Repr

/-- A core site's service record: its use, whether it was ever lost before, and the powered time of that loss (R450). -/
structure CoreSite where
  use : CoreUse
  lostAt : Option Nat
  deriving DecidableEq, Repr

/-- One pass of a core: the claim registers of R39, the program words issued, and what the rings and banks hold of it. -/
structure Pass where
  counter : Nat
  rank : Nat
  claim : Nat
  tileM : Nat
  tileN : Nat
  tileB : Nat
  mValid : Nat
  nValid : Nat
  kFirst : Nat
  kLen : Nat
  /-- Program words issued so far. -/
  issued : Nat
  /-- The ring slot of the pass's first slab, and how many of its slabs its LOAD has written, for A and for B (R30). -/
  slotA : Nat
  slotB : Nat
  inA : Nat
  inB : Nat
  /-- The array has run the pass; the banks have changed over; the shadow holds the tile. -/
  ran : Bool
  changed : Bool
  shadowed : Bool
  /-- DRAIN words executed. -/
  drained : Nat
  /-- Tiles sent to link streams that their link interfaces have not accepted yet: the stream, and (entry, FP32 word)
  (R327). -/
  sent : List (Nat × List (Nat × Nat))
  /-- The completion of the tile has been posted (R59). -/
  posted : Bool
  deriving DecidableEq, Repr

/-- An operand ring of a core (R29, R42): the slot that its next slab goes to, and the addresses and the first slot of the
slabs loaded last. -/
structure OperandRing where
  next : Nat
  keys : List Nat
  first : Nat
  deriving DecidableEq, Repr

def OperandRing.empty : OperandRing := ⟨0, [], 0⟩

/-- One core (R25). Banks and shadow hold FP32 words by r · 64 + c; an unlisted entry holds zero. -/
structure Core where
  /-- Lap counter index of the kernel whose program the core holds. -/
  kern : Option Nat
  /-- The program store, base sets and parameter sets stand in the kernel record. The passes claimed, oldest first. -/
  passes : List Pass
  bankA : Tab Nat
  bankB : Tab Nat
  shadow : Tab Nat
  /-- Bank select: the compute bank is B. -/
  computeB : Bool
  /-- CHANGEOVER waits for the drain bank to empty (R50). -/
  toggleDue : Bool
  /-- A CLAIM waits for a closed tile (R224). -/
  gateWait : Bool
  /-- The last CLAIM found no tile (R34). -/
  stopped : Bool
  /-- The operand SRAM's 384 lines, each as the bytes that the slab written there last put into it (R25, R29). -/
  sram : Tab (List Byte)
  ringA : OperandRing
  ringB : OperandRing
  /-- The 48-bit block registers of the 8 × 8 cells, by r · 8 + c (R25, R66). -/
  blocks : Tab (BitVec 48)
  deriving DecidableEq, Repr

def Core.empty : Core := ⟨none, [], [], [], [], false, false, false, false, [], .empty, .empty, []⟩

/-- An entry of a lap-counter block's claim table (R118). -/
structure Held where
  claim : Nat
  site : Nat
  core : Nat
  deriving DecidableEq, Repr

/-- Lap counter states (LC_STATE). -/
inductive LcMode where
  | free
  | serving
  | exhausted
  | cancelling
  deriving DecidableEq, Repr

/-- One lap counter of one rank's lap-counter block (R117, R118, R145). -/
structure LapCounter where
  mode : LcMode
  cx : Nat
  next : Nat
  stop : Nat
  done : Nat
  retry : List Nat
  held : List Held
  handOut : Nat
  handIn : Nat
  returned : Nat
  boundM : Nat
  boundN : Nat
  boundK : Nat
  boundB : Nat
  deriving DecidableEq, Repr

def LapCounter.empty : LapCounter := ⟨.free, 0, 0, 0, 0, [], [], 0, 0, 0, 0, 0, 0, 0⟩

/-- An issued kernel (R121), keyed by its lap counter. -/
structure Kernel where
  cmd : CmdId
  image : KImage
  prog : List Nat
  /-- The recipe record and the recipe active at its issue (R94). -/
  recIndex : Option Nat
  wide : Bool
  boundM : Nat
  boundN : Nat
  boundK : Nat
  boundB : Nat
  /-- Input extents of a window at issue: ID, IH, IW (R215). -/
  inD : Nat
  inH : Nat
  inW : Nat
  /-- The producer's command of a chained kernel (R226). -/
  producer : Option CmdId
  cancelled : Bool
  /-- Its status other than success, once known (R141, R143). -/
  status : Nat
  /-- Posted partials as (tile, p) and tiles summed (R133). -/
  posted : List (Nat × Nat)
  summed : List Nat
  /-- Slices staged, by rank · 2^16 + slice (R221). -/
  staged : List Nat
  deriving DecidableEq, Repr

/-- Tiles and kernels (chapters 2 and 5). -/
structure Tiles where
  /-- By site · 4096 + core. -/
  cores : Tab Core
  coreSites : Tab CoreSite
  /-- By rank · 256 + index. -/
  counters : Tab LapCounter
  /-- By lap counter index. -/
  kernels : Tab (Option Kernel)
  /-- The kernels each context completed last, newest first, none for one refused at issue: the first is the producer of a
  chained kernel that follows (R226). -/
  prior : Tab (List (Option Kernel))
  /-- Row-band completion counters, by rank · 512 + index (R137). -/
  bands : Tab Nat
  /-- Arrival bits, by rank · 2^15 + bitmap · 4096 + bit (R317). -/
  arrival : List Nat
  /-- Batons landed per chunk, by (rank · 8 + bitmap) · 2^20 + chunk (R317). -/
  chunks : Tab Nat
  deriving DecidableEq, Repr

/-- A recipe record (Table 4.1), an allocation (Table 9.4), a chain program or micro-program of the package, as words. -/
structure Package where
  header : Nat
  recipes : List Nat
  chains : List (List Byte)
  micros : List (List Byte)
  tprogs : List (List Nat)
  allocs : List Nat
  deriving DecidableEq, Repr

/-- The guard rails (chapter 4): counted layers, commands issued with a wide recipe, and the monitors. -/
structure Rails where
  counted : List Nat
  wideCmds : List (Nat × CmdId)
  /-- Monitor counts by (rank · 513 + slot) · 3 + which. -/
  fieldMon : Tab Nat
  /-- Module monitor counts by slot · 3 + which. -/
  moduleMon : Tab Nat
  /-- The recipe context has been torn down since the package's admission (R106). -/
  torn : Bool
  deriving DecidableEq, Repr

/-- The bytes of the infield and of the stacks (chapter 9, R447). -/
structure Memory where
  /-- By rank · 100663296 + byte address. -/
  infield : List Host.Cell
  /-- Stack bytes by rank · 2^37 + A, KV frame bytes at 2^48 + frame · 2^28 + byte, slate stores at 2^50 + port · 2^28. -/
  store : List Host.Cell
  /-- Poisoned infield lines, by rank · 786432 + line. -/
  poisonLines : List Nat
  /-- Poisoned codewords, by store address div 64. -/
  poisonWords : List Nat
  /-- Ranks whose working tier is poisoned until written, and the heat units written since, by store address div 65536. -/
  untilWritten : List Nat
  unitsWritten : List Nat
  deriving DecidableEq, Repr

/-- Stack thermal states (Table 9.8). -/
inductive StackMode where
  | normal
  | hot
  | critical
  | stopped
  deriving DecidableEq, Repr

/-- A stack (R244, R259 to R263), of a rank. -/
structure Stack where
  mode : StackMode
  celsius : Nat
  /-- Logical channels that stay in service for want of a spare (R262). -/
  degraded : List Nat
  /-- Physical channel of each logical channel that was moved from its factory place; channels retired. -/
  remap : Tab Nat
  retired : List Nat
  /-- The repair in progress: logical channel, spare channel; and logical channels whose repair waits (R261, R488). -/
  repair : Option (Nat × Nat)
  repairsDue : List Nat
  /-- Logical channels under a retrain, and failed retrains in a row by channel. -/
  retraining : List Nat
  failed : Tab Nat
  /-- Powered ns at which the repair in progress started; corrected errors of the last 24 h, as (logical channel, powered
  second) (R261). -/
  repairNs : Nat
  errors : List (Nat × Nat)
  corrected : Nat
  uncorrected : Nat
  retrains : Nat
  recon : Nat
  holdMax : Nat
  /-- Weight units awaiting rebuild after a substitution (R457). -/
  weightMissing : Bool
  deriving DecidableEq, Repr

def Stack.empty : Stack := ⟨.normal, 0, [], [], [], none, [], [], [], 0, [], 0, 0, 0, 0, 0, false⟩

/-- A write held while its stack is CRITICAL (R264). -/
structure HeldWrite where
  rank : Nat
  addr : Nat
  byte : Byte
  mark : Bool
  cmd : CmdId
  deriving DecidableEq, Repr

/-- A heat-cache unit of a rank: its stack heat unit, its holder, the unreferenced mark and the time of last reading. -/
structure HeatUnit where
  unit : Nat
  holder : Nat
  unreferenced : Bool
  lastRead : Nat
  deriving DecidableEq, Repr

/-- Pages of an UNMAP whose free waits for earlier commands (R238). -/
structure PendingFree where
  cx : Nat
  charge : Nat
  pages : List Nat
  waits : List CmdId
  deriving DecidableEq, Repr

/-- The tiers (chapter 9). -/
structure Tiers where
  /-- P: the weight partition of each stack in GiB, as the last package admitted set it (R247). -/
  partition : Nat
  /-- Translation entries by cx · 2^27 + page number; cx 16 is the package table (R235). -/
  entries : Tab Nat
  /-- Allocated stack pages, by rank · 65536 + page. -/
  pages : List Nat
  /-- Heat units charged to each context; 16: pages charged to the package (R254). -/
  used : Tab Nat
  stackTab : Tab Stack
  heldWrites : List HeldWrite
  /-- Heat-cache units by rank, and read counters by rank · 4096 + unit mod 4096 (R251). -/
  heat : Tab (List HeatUnit)
  heatReads : Tab Nat
  heatClock : Nat
  frees : List PendingFree
  /-- Undefined bytes of mapped pages without storage: translation table, address, length, first free value (R239). -/
  spoils : List (Nat × Nat × Nat × Nat)
  deriving DecidableEq, Repr

/-- A KV frame's share count (R187). -/
structure Share where
  map : Nat
  hold : Nat
  deriving DecidableEq, Repr

/-- A share-count update queued at a field controller (R187): the frame and the changes of map and hold. -/
structure ShareUpdate where
  frame : Nat
  map : Int
  hold : Int
  deriving DecidableEq, Repr

/-- A copy on write in progress (R192): the entry, the frames, the writing command and the bytes, with their poison marks,
that land at its end. -/
structure Cow where
  seq : Nat
  entry : Nat
  src : Nat
  dst : Nat
  cmd : CmdId
  bytes : List (Nat × Byte × Bool)
  deriving DecidableEq, Repr

/-- A sequence (R181 to R195). -/
structure Sequence where
  enabled : Bool
  disabling : Bool
  /-- The next issue number: how many commands have pinned the sequence; and the last one given out (R188). -/
  issue : Nat
  last : Nat
  pinned : List Nat
  /-- Entry indices on the reclaim queue. -/
  reclaim : List Nat
  frames : Nat
  copies : Nat
  /-- What SQ_CTRL takes once the last page of a disable is reclaimed (R181). -/
  later : Option Nat
  deriving DecidableEq, Repr

def Sequence.empty : Sequence := ⟨false, false, 0, 0, [], [], 0, 0, none⟩

/-- Sequences, frames and page tables (chapter 7). -/
structure Kv where
  seqs : Tab Sequence
  /-- Page table entries by sequence · 2^24 + entry index (R186). -/
  table : Tab Nat
  shares : Tab Share
  updates : List ShareUpdate
  cows : List Cow
  deriving DecidableEq, Repr

/-- An attention claim in progress (R200 to R202): the query blocks and the sequence lengths read at issue, whether its lap
counter has given it out before, the spans formed, and whether it is merged. -/
structure AttnClaim where
  cmd : CmdId
  claim : Nat
  blocks : Nat
  lens : List Nat
  taken : Bool
  formed : List Nat
  merged : Bool
  deriving DecidableEq, Repr

/-- A span state of one query row in the owner field's scratch (R202, R205): m, l and o as FP32 words. -/
structure SpanState where
  cmd : CmdId
  claim : Nat
  span : Nat
  row : Nat
  m : Nat
  l : Nat
  o : List Nat
  deriving DecidableEq, Repr

/-- Attention in progress. -/
structure Attn where
  claims : List AttnClaim
  states : List SpanState
  deriving DecidableEq, Repr

/-- Link states (Table 10.2). -/
inductive LinkMode where
  | disabled
  | training
  | up
  | retrain
  | degraded
  | down
  | loopback
  deriving DecidableEq, Repr

/-- A baton in a replay buffer: sequence number, bytes, how often it was replayed (R276, R277). -/
structure Replay where
  seq : Nat
  baton : BatonWord
  replays : Nat
  deriving DecidableEq, Repr

/-- One relay link (chapter 10). -/
structure Link where
  mode : LinkMode
  failures : Nat
  /-- A failed attempt waits 100 ms for the next one (R271). -/
  waiting : Bool
  /-- The lanes that carry logical lanes 0, 1, … of each direction, and the spare lanes left (R271, R272). -/
  txLanes : List Nat
  rxLanes : List Nat
  txSpares : List Nat
  rxSpares : List Nat
  peer : Option (Nat × Nat)
  status : Nat
  replay : List Replay
  /-- How many batons of the replay buffer still await resending. -/
  resend : Nat
  nextSeq : Nat
  expect : Nat
  nakDue : Bool
  nakSent : Bool
  ackDue : Bool
  /-- Sender's credits and credits due to the peer, by channel · 2 + class. -/
  credits : Tab Nat
  creditDue : Tab Nat
  /-- Batons waiting to be sent, oldest first, by channel. -/
  sprint : List BatonWord
  collective : List BatonWord
  bulk : List BatonWord
  /-- Management batons with the slots each has waited (R281). -/
  mgmt : List (BatonWord × Nat)
  turn : Nat
  idleSlots : Nat
  /-- The lane a receiver asks the sender to spare (R272). -/
  spareDue : Option Nat
  /-- The last baton put on the lanes. -/
  sent : Option BatonWord
  deriving DecidableEq, Repr

/-- Group states (CL_STATE). -/
inductive GroupMode where
  | free
  | forming
  | active
  | broken
  | freeing
  deriving DecidableEq, Repr

/-- A member entry of a group record (Table 11.3). -/
structure Member where
  module : Nat
  parent : Nat
  upLink : Nat
  deriving DecidableEq, Repr

/-- A collective message in work at this member (R304 to R310, R326). -/
structure Message where
  cmd : CmdId
  number : Nat
  op : Nat
  fmt : Nat
  cap : Nat
  len : Nat
  origin : Nat
  /-- Inputs from children: (child, offset, baton). -/
  inputs : List (Nat × Nat × BatonWord)
  /-- Local contribution: entries delivered by a stream, (entry, FP32 word). -/
  localIn : List (Nat × Nat)
  /-- Offsets summed. -/
  emitted : Nat
  /-- Ack-ups received: (member, time in ns, slowest member named, its wait in ns). -/
  acks : List (Nat × Nat × Nat × Nat)
  /-- Offsets landed. -/
  landed : List Nat
  issuedNs : Nat
  /-- A baton has been coded with error memory (R332). -/
  coded : Bool
  /-- The slowest member and its wait in ns (R313). -/
  slow : Nat
  slowWait : Nat
  dup : Bool
  /-- REDUCE batons the parent's adder has granted beyond its window (R288). -/
  granted : Nat
  /-- Local contributions taken into staging, by offset: a status, whether poisoned, the FP32 words (R315). -/
  taken : List (Nat × Nat × Bool × List Nat)
  /-- Batons of a broadcast that its origin has queued (R308, R315). -/
  queued : Nat
  deriving DecidableEq, Repr

/-- A group of a context's group table (R297 to R302, R319), keyed by cx · 64 + index. -/
structure Group where
  mode : GroupMode
  gid : Nat
  gen : Nat
  pinned : Bool
  window : Nat
  timeout : Nat
  members : List Member
  self : Nat
  /-- The children, in ascending member index, each with its link (R298). -/
  kids : List (Nat × Nat)
  /-- The link interface that holds its staging, and the bytes set aside (R299). -/
  iface : Nat
  staged : Nat
  digest : List Byte
  formUps : List Nat
  cmd : Option CmdId
  /-- Commands issued and completed since formation (R304). -/
  issued : Nat
  completed : Nat
  msgs : List Message
  /-- Batons of messages whose command has not issued here: (number modulo 16, sending member, time in ns, baton). -/
  early : List (Nat × Nat × Nat × BatonWord)
  drop : Nat
  lastNs : Nat
  slowMember : Option Nat
  slowWait : Nat
  slowRepeat : Nat
  localWait : Nat
  childWait : Nat
  childLink : Nat
  abort : Nat
  abortMember : Nat
  deriving DecidableEq, Repr

def Group.empty : Group :=
  ⟨.free, 0, 0, false, 0, 0, [], 0, [], 0, 0, [], [], none, 0, 0, [], [], 0, 0, none, 0, 0, 0, 0, 0, 0, 0⟩

/-- A link stream's state beside its registers (R322, R341). -/
structure Stream where
  bound : Bool
  iface : Nat
  errValid : Bool
  refusal : Nat
  tiles : Nat
  waitNs : Nat
  deriving DecidableEq, Repr

def Stream.empty : Stream := ⟨false, 0, false, 0, 0, 0⟩

/-- A bulk transfer at its destination: batons that arrived, batons it has in all once its last one arrived, the lower byte
of its failure, and one above the highest offset that arrived (R285, R286). -/
structure Landing where
  count : Nat
  total : Nat
  status : Nat
  top : Nat
  deriving DecidableEq, Repr

/-- A DONE that waits until the bytes of its transfer, which lie behind a copy on write, are written (R192, R285). -/
structure DoneDue where
  cx : Nat
  src : Nat
  tag : Nat
  status : Nat
  deriving DecidableEq, Repr

/-- A bulk transfer awaiting DONE at its source: where its bytes lie, and the next baton to queue (R285, R381). -/
structure Bulk where
  cmd : CmdId
  dst : Nat
  tag : Nat
  link : Nat
  va : Nat
  len : Nat
  next : Nat
  deriving DecidableEq, Repr

/-- Relay links, groups and streams (chapters 10 to 12). -/
structure Links where
  links : Tab Link
  groups : Tab Group
  streams : Tab Stream
  bulks : List Bulk
  /-- Transfers landing here, by source · 2^16 + tag. -/
  landings : Tab Landing
  dones : List DoneDue
  /-- Management messages received for this module's MGC. -/
  mgmtIn : List BatonWord
  /-- Stream assembly and adder staging set aside, by link (bytes). -/
  stagingUsed : Tab Nat
  assemblyUsed : Tab Nat
  deriving DecidableEq, Repr

/-- The heat sheet's run (chapter 14). -/
structure Sched where
  /-- Nanoseconds of the heat timer since the nominal start of the current leg. -/
  legNs : Nat
  leg : Nat
  heats : Nat
  /-- The context holding the fields; a switch in progress, with the context it will serve. -/
  holder : Option Nat
  switching : Bool
  incoming : Option Nat
  /-- The context whose units must end before the switch. -/
  outgoing : Option Nat
  lastServed : Nat
  /-- Nanoseconds since the holder took the fields, or since the switch began. -/
  servedNs : Nat
  /-- Contexts whose debit arose in the current leg, so that it falls due in a later one; and contexts whose service in the
  current leg their debit has ended (R385). -/
  fresh : List Nat
  spent : List Nat
  /-- Ranks whose stack has had its scheduled retrain in the current quiet leg, each with the logical channel (R377). -/
  retrained : List (Nat × Nat)
  /-- The sheet is stopped at its position: a drain or an activation (R456, R485). -/
  halted : Bool
  debit : Tab Nat
  overrun : Tab Nat
  late : Tab Nat
  deriving DecidableEq, Repr

/-- A media stream slot (R398 to R405). -/
structure MStream where
  isOpen : Bool
  cx : Nat
  record : Line
  engine : Option Nat
  fill : Nat
  qpNext : Nat
  frames : Nat
  concealed : Nat
  emergency : Nat
  hintsBad : Nat
  /-- The slate was sent since the last coded frame: the next frame is a key frame (R418). -/
  keyDue : Bool
  /-- Number of the stream's coding history: what its pool holds (R399, R409). -/
  history : Nat
  /-- Frames since the last key frame, itself counted (R395). -/
  sinceKey : Nat
  /-- Luma samples of the last three coded pictures, the last one first (R395), and the final vectors of the last one by
  16×16 block in raster order (R407). -/
  refs : List (List Nat)
  vectors : Tab Mv
  /-- Samples of the pictures the stream decoded, the last one first, as many as its pool holds (R399, R411). -/
  pictures : List (List Nat)
  deriving DecidableEq, Repr

def MStream.empty : MStream := ⟨false, 0, 0, none, 0, 0, 0, 0, 0, 0, false, 0, 0, [], [], []⟩

/-- A frame waiting for an engine, or running on one (R402). -/
structure MFrame where
  cmd : CmdId
  slot : Nat
  readyNs : Nat
  /-- Coded as a key frame; coding began before a slate that was sent since (R395, R418). -/
  key : Bool
  stale : Bool
  /-- The port whose slate it is, for a SLATE (R417). -/
  slate : Option Nat
  deriving DecidableEq, Repr

/-- A media engine: 0 to 7 encoders, 8 to 23 decoders (R401). -/
structure MEngine where
  running : Option MFrame
  cycles : Nat
  late : Nat
  /-- Powered seconds of its last loss by parity; out of use for good (R446, R450). -/
  lostAt : Option Nat
  retired : Bool
  deriving DecidableEq, Repr

def MEngine.empty : MEngine := ⟨none, 0, 0, none, false⟩

/-- Playout port states and clock states (PO_STATE). -/
inductive PoMode where
  | idle
  | hold
  | armed
  | running
  | runOut
  deriving DecidableEq, Repr

inductive PoClock where
  | unlocked
  | locked
  | holdover
  deriving DecidableEq, Repr

/-- A frame of a playout port: its sequence number, and its surface, or the coded bytes with end_gop, whether it is a key
frame, the coding history it left and its picture order count. A slate holds its samples as bytes, or its coded form. -/
structure PFrame where
  seq : Nat
  surface : Nat
  coded : List Byte
  endGop : Bool
  key : Bool
  history : Nat
  poc : Nat
  deriving DecidableEq, Repr

/-- One packet of a frame: its bytes from the destination MAC on, the PTP time in ns at which it leaves, the sequence
number that PO_FREE_SEQ takes with it, and whether it is the last of its frame (R413, R415). -/
structure PoPacket where
  bytes : List Byte
  leaveNs : Nat
  seq : Nat
  last : Bool
  deriving DecidableEq, Repr

/-- What a port is sending (R415, R416). -/
inductive Showing where
  | nothing
  | real
  | repeated
  | slate
  deriving DecidableEq, Repr

/-- A playout port (R413 to R421). -/
structure Playout where
  mode : PoMode
  clock : PoClock
  status : Nat
  queue : List PFrame
  nextSeq : Nat
  freeSeq : Nat
  last : Option PFrame
  showing : Showing
  /-- Repeats sent in a row; frames since the slate itself was last sent (R416). -/
  repeats : Nat
  sinceSlate : Nat
  slate : Option PFrame
  /-- The slate as it was sent last: a newer one stands in `slate` until its next use (R417). -/
  slateSent : Option PFrame
  /-- The packets of the frames taken that have not left, oldest first (R415), the one that left last, and how many have
  left and been made. -/
  packets : List PoPacket
  wire : Option PoPacket
  packetsSent : Nat
  packetsMade : Nat
  /-- The PLAY_STOP command that awaits IDLE; the port stops after the frame it is sending; ns since run-out began
  (R420). -/
  stop : Option CmdId
  ending : Bool
  runOutNs : Nat
  /-- A coded frame that waits for room in the queue, with its command (R419). -/
  entering : Option (CmdId × PFrame)
  deriving DecidableEq, Repr

def Playout.empty : Playout :=
  ⟨.idle, .unlocked, 0, [], 0, 0, none, .nothing, 0, 0, none, none, [], none, 0, 0, none, false, 0, none⟩

/-- Media engines and playout (chapter 15). -/
structure Media where
  streams : Tab MStream
  waiting : List MFrame
  engines : Tab MEngine
  ports : Tab Playout
  deriving DecidableEq, Repr

/-- Substitution phases (RL_SUBST_STATE). -/
inductive SubstMode where
  | idle
  | mirror
  | drain
  | unplanned
  deriving DecidableEq, Repr

/-- Faults, spares, logbook and trim table (chapter 17). -/
structure Reliability where
  subst : SubstMode
  oldSite : Nat
  newSite : Nat
  /-- The rank being moved. -/
  moving : Nat
  status : Nat
  /-- Losses waiting for the substitution in progress (R457): lost rank and the site that held it. -/
  waiting : List (Nat × Nat)
  /-- Ranks with no field in service, each with the lost site that holds it in the active map until a substitution (R10,
  R452). -/
  missing : List (Nat × Nat)
  /-- The substitutions made, oldest first: old site, new site, rank (R10, R464). -/
  moves : List (Nat × Nat × Nat)
  /-- Logbook records of the current book, oldest first; signature slots used, as (slot, signature). -/
  book : List (BitVec 1024)
  bookNumber : Nat
  signatures : List (Nat × List Byte)
  sinceCheckpoint : Nat
  /-- Trim words in effect, staged and stored, where they differ from the factory's (R464). -/
  trim : Tab (Option Word)
  staging : Tab (Option Word)
  stored : Tab (Option Word)
  provStatus : Nat
  provOrigin : Nat
  provWrites : Nat
  storedOrigin : Nat
  events : Nat
  criticals : Nat
  deriving DecidableEq, Repr

/-- Firmware update states (FU_STATE). -/
inductive FuMode where
  | idle
  | receiving
  | verified
  | armed
  | activating
  | activated
  deriving DecidableEq, Repr

/-- A firmware slot of the boot store (R475): its image pieces and the bitmap of received ones. -/
structure FwSlot where
  /-- Bytes of the slot, by image byte offset. -/
  bytes : List Host.Cell
  received : List Nat
  /-- The whole image is stored and its root signature holds (R483). -/
  verified : Bool
  /-- The slot holds the image it left the factory with, which the model does not list byte by byte. -/
  factory : Bool
  deriving DecidableEq, Repr

/-- Identity, attestation and firmware (chapter 18). -/
structure Firmware where
  mode : FuMode
  holder : Option Writer
  status : Nat
  active : Nat
  trial : Option Nat
  service : Bool
  uncommitted : Bool
  armedSlot : Nat
  quiescent : Bool
  /-- The second program stores are being loaded (R484). -/
  loading : Bool
  /-- The slot the delivery session writes (R480, R513); the slot that SET is booting. -/
  target : Nat
  booting : Nat
  /-- Requests that wait for the end of an activation: a planned substitution's site, a wipe (R488). -/
  heldSubst : Option Nat
  heldWipe : Bool
  slots : Tab FwSlot
  fuses : Nat
  /-- The piece buffer FU_BUF, by byte. -/
  buffer : List Host.Cell
  serial : BitVec 128
  keyGen : Nat
  sigUsed : Nat
  pendingKey : Bool
  /-- The UZKR signature of the pending key; the certificate, its body and signature (R472, R474). -/
  pendingSig : List Byte
  cert : List Byte
  /-- Requesters that wait for a report, and powered ns at which the last four reports were made (R473). -/
  atWaiting : List Nat
  atServed : List Nat
  /-- By requester 0 to 4: the status, ready, and the report with its signature. -/
  atStatus : Tab Nat
  atReady : List Nat
  atReport : Tab (List Byte)
  wipeState : Nat
  wipeStatus : Nat
  wipeCount : Nat
  wipeReport : List Byte
  lastWipe : Option (BitVec 1024)
  deriving DecidableEq, Repr

/-- Phases of the module (R506, R511). -/
inductive Phase where
  | marks
  | set
  | go
  | tripped
  deriving DecidableEq, Repr

/-- Module, power, clocks and contacts (chapter 19). -/
structure Module where
  phase : Phase
  /-- Host dies populated: 1, 2 or 4 (Table 0.1). -/
  dies : Nat
  straps : BitVec 16
  resetLow : Bool
  busInRange : Bool
  railsOn : Bool
  /-- Held in MARKS until every sensor reads below 45 °C (R502). -/
  holdHot : Bool
  /-- SET phase code (Table 19.6). -/
  setCode : Nat
  status : Nat
  /-- The bus, the coolant lies outside its limits; powered ns at which one of them was last seen there (R502). -/
  busOut : Bool
  coolOut : Bool
  outsideAt : Option Nat
  recovery : Bool
  heartbeat : Bool
  faultLow : Bool
  i3cAddr : Option (BitVec 7)
  /-- The last MCTP response: status and data (R510). -/
  response : Option (Nat × List Byte)
  lifeSeconds : Nat
  lifeNs : Nat
  bootCount : Nat
  siteEpoch : Nat
  deriving DecidableEq, Repr

/-- The state of the module, with the queue of waiting commands, first in, first out. -/
structure State where
  pending : List Instr
  module : Module
  sites : Tab Site
  tiles : Tiles
  package : Option Package
  rails : Rails
  memory : Memory
  tiers : Tiers
  kv : Kv
  attn : Attn
  links : Links
  hosts : Hosts
  sched : Sched
  media : Media
  regs : Regs
  rel : Reliability
  fw : Firmware
  /-- The model's own: how many free values have been drawn. No statement rests on its value. -/
  draws : Nat
  deriving DecidableEq, Repr

/-- Why the machine stops. -/
inductive Fault where
  /-- Raised by a meaning whose operands break `WellFormed` (a byte list of another length than the command needs): such
  an operand is no step of the table. Safe: the machine stops where no hardware step exists. -/
  | illFormed (mnemonic : String)
  deriving DecidableEq, Repr

/-- Why a command has no meaning. -/
inductive Refusal where
  /-- Raised only by an arm of `exec` whose command has no meaning in the model. Safe. -/
  | notModelled (mnemonic : String)
  deriving DecidableEq, Repr

/-- A site at reset: F00 to F74 active in ascending rank, F75 to F80 spare (the factory's choice, R10, R11). -/
def Site.reset (n : Nat) : Site :=
  if n < 75 then ⟨.active, some n, 0, 10, 0, 0, false, 0, 0, [], true⟩
  else ⟨.spare, none, 0, 10, 0, 0, false, 0, 0, [], false⟩

/-- A core site at reset: core sites 0 to 3999 in service, 4000 to 4095 spare (R25). -/
def CoreSite.reset (k : Nat) : CoreSite :=
  if k % 4096 < 4000 then ⟨.inService, none⟩ else ⟨.spare, none⟩

/-- A firmware slot as it left the factory: slot A holds the image the module boots, slot B none (R475). -/
def FwSlot.reset (n : Nat) : FwSlot := if n = 0 then ⟨[], [], true, true⟩ else ⟨[], [], false, false⟩

/-- A link at reset: disabled, no lane active, no credit (R270). -/
def Link.reset : Link :=
  ⟨.disabled, 0, false, [], [], [8, 9], [8, 9], none, 0, [], 0, 0, 0, false, false, false, [], [], [], [], [], [], 0, 0, none, none⟩

/-- A host port at reset: UP where a die is populated (R2, R512). -/
def HostPort.reset (dies n : Nat) : HostPort :=
  if n < dies then ⟨.up, 0, 0, []⟩ else HostPort.empty

/-- The module right after reset, in GO: every field at the value the manual states for reset. -/
def State.reset : State where
  pending := []
  module := ⟨.go, 4, 0, false, true, true, false, 0, 0, false, false, none, false, false, false, none, none, 0, 0, 1, 0⟩
  sites := []
  tiles := ⟨[], [], [], [], [], [], [], []⟩
  package := none
  rails := ⟨[], [], [], [], false⟩
  memory := ⟨[], [], [], [], [], []⟩
  tiers := ⟨0, [], [], [], [], [], [], [], 0, [], []⟩
  kv := ⟨[], [], [], [], []⟩
  attn := ⟨[], []⟩
  links := ⟨[], [], [], [], [], [], [], [], []⟩
  hosts := ⟨[(0, HostPort.reset 4 0), (1, HostPort.reset 4 1), (2, HostPort.reset 4 2), (3, HostPort.reset 4 3)], [], [], []⟩
  sched := ⟨0, 0, 0, none, false, none, none, 15, 0, [], [], [], false, [], [], []⟩
  media := ⟨[], [], [], []⟩
  regs := ⟨[], [], []⟩
  rel := ⟨.idle, 0, 0, 0, 0, [], [], [], [], 0, [], 0, [], [], [], 0, 0, 0, 0, 0, 0⟩
  fw := ⟨.idle, none, 0, 0, none, false, false, 0, false, false, 1, 0, none, false, [], 0, [], 0, 0, 0, false, [], [], [], [], [], [], [],
    0, 0, 0, [], none⟩
  draws := 0

end Sys2Proof.Machine
end

