-- ==== Sys2Proof/Machine/Ops.lean ====
section
/-!
DEFINITION. The named operations over the state that every family of commands shares: registers, sites and ranks,
infield and stack bytes with their poison, free values, owner and port events, and the logbook.
-/

namespace Sys2Proof.Machine

open Sys2Proof

/-- The outcome of a meaning that runs. -/
abbrev Out := Host.Outcome State Fault Refusal

/-- The canonical form of the bytes and of their poison marks: equal memories are equal data. -/
abbrev Memory.wf (m : Memory) : Prop :=
  tabWf m.infield 0 ∧ tabWf m.store 0 ∧ setWf m.poisonLines ∧ setWf m.poisonWords ∧ setWf m.untilWritten ∧ setWf m.unitsWritten

/-- A free byte string of length `n`: `draws` counts what has been drawn (undefined contents). -/
def freeBytes (draws n : Nat) : List Byte := (List.range n).map fun i => Config.freeByte (draws + i)

/-- Reset value of each register, by its offset in BAR0 (the Reset columns of the register tables). -/
def regReset (off : Nat) : Nat :=
  if off < 0x100000 then
    (if off = 0x4C then 0x3FF
    else if off = 0x200C then 0xFFFFFFFF
    else if off = 0x3010 then 0x6402
    else if off = 0x3014 then 0xA
    else if 0x3100 ≤ off ∧ off < 0x3200 ∧ off % 16 = 8 then 0x400
    else 0)
  else if off < 0x200000 then (if off % 0x1000 = 0x60C then 0xFFFF else 0)
  else if off < 0x300000 then
    (if off = 0x200000 then 0xFFF
    else if off = 0x20000C then 0x101
    else if off = 0x200010 then 0xFA0
    else 0)
  else if off < 0x400000 then
    (if 0x310000 ≤ off ∧ off % 0x1000 = 0x10 then 0x64
    else if 0x310000 ≤ off ∧ off < 0x320000 ∧ 0x40 ≤ off % 0x1000 ∧ off % 0x1000 < 0xC0 ∧ off % 0x20 = 0x14 then 0x101
    else 0)
  else if off < 0x500000 then
    (if off = 0x400000 then 1
    else if off = 0x400004 then 0xC8
    else if off = 0x400008 then 0x3E8
    else if off = 0x40000C then 0x2710
    else if off = 0x400100 then 0x426AC
    else if off = 0x400104 then 0x60064
    else if 0x400200 ≤ off ∧ off < 0x400300 ∧ off % 16 = 0 then 2
    else 0)
  else if off = 0x500004 then 0x7F8
  else if off = 0x600100 then 1
  else if 0x580000 ≤ off ∧ off < 0x582000 then
    (if off % 0x1000 = 0x24 then 0x400000
    else if off % 0x1000 = 0x28 then 0x7D00C
    else if off % 0x1000 = 0x30 then 0x5DC
    else if off % 0x1000 = 0x34 then 0x7F
    else 0)
  else 0

/-- The value in effect of a register key: an offset, or a port's own copy at offset + 2^26 · (port + 1) (R427). -/
def State.reg (s : State) (k : Nat) : Nat := tget s.regs.vals k (regReset (k % 67108864))

/-- A register key set. -/
def State.setReg (s : State) (k v : Nat) : State :=
  { s with regs := { s.regs with vals := tput s.regs.vals k v (regReset (k % 67108864)) } }

/-- The key of a port's own copy of a register (R427). -/
def portKey (port off : Nat) : Nat := off + 67108864 * (port + 1)

/-- A register's count raised by `n`, stopping at 0xFFFF_FFFF. -/
def State.addSat (s : State) (k n : Nat) : State := s.setReg k (sat32 (s.reg k + n))

/-- A register's count raised by `n`, wrapping at 2^32. -/
def State.addWrap (s : State) (k n : Nat) : State := s.setReg k (wrap32 (s.reg k + n))

/-- Bits of a register set. -/
def State.orReg (s : State) (k v : Nat) : State := s.setReg k (s.reg k ||| v)

/-- Bits of a 32-bit value cleared. -/
def clearBits (old mask : Nat) : Nat := old &&& (0xFFFFFFFF ^^^ (mask % 4294967296))

/-- A site's record. -/
def State.site (s : State) (n : Nat) : Site := tget s.sites n (Site.reset n)

/-- A site's record set. -/
def State.setSite (s : State) (n : Nat) (v : Site) : State := { s with sites := tput s.sites n v (Site.reset n) }

/-- The active rank a site holds (R11). -/
def State.rankOf (s : State) (site : Nat) : Option Nat := (s.site site).rank

/-- The site that holds an active rank. -/
def State.siteOf (s : State) (rank : Nat) : Option Nat :=
  (List.range 81).find? fun n => (s.site n).rank == some rank

/-- The rank a site holds in the rank assignment: a lost site keeps its rank there until a substitution (R10, R11). -/
def State.mapRank (s : State) (site : Nat) : Option Nat :=
  match s.rankOf site with
  | some r => some r
  | none => (s.rel.missing.find? fun p => p.2 == site).map Prod.fst

/-- The site that holds a rank in the rank assignment (R10, R11). -/
def State.mapSite (s : State) (rank : Nat) : Option Nat :=
  match s.siteOf rank with
  | some n => some n
  | none => (s.rel.missing.find? fun p => p.1 == rank).map Prod.snd

/-- Register block of a field controller: base offset of a site (R425). -/
def siteBase (site : Nat) : Nat := 0x100000 + 0x1000 * site

/-- The site of a rank, 0 where none holds it. -/
def State.siteAt (s : State) (rank : Nat) : Nat := (s.siteOf rank).getD 0

/-- The owner host port, from the straps (R2, R506). -/
def State.ownerPort (s : State) : Nat := fld s.module.straps 3 2

/-- Whether a writer is the owner host (R346). -/
def State.isOwner (s : State) : Writer → Bool
  | .port p => p.val == s.ownerPort
  | .tool => false

/-- The port number of a writer; 4 for the service tool. -/
def writerNo : Writer → Nat
  | .port p => p.val
  | .tool => 4

/-- A host port's record. -/
def State.port (s : State) (p : Nat) : HostPort := tget s.hosts.ports p HostPort.empty

def State.setPort (s : State) (p : Nat) (v : HostPort) : State :=
  { s with hosts := { s.hosts with ports := tput s.hosts.ports p v HostPort.empty } }

/-- A context's record. -/
def State.ctx (s : State) (n : Nat) : Ctx := tget s.hosts.ctxs n Ctx.empty

def State.setCtx (s : State) (n : Nat) (v : Ctx) : State :=
  { s with hosts := { s.hosts with ctxs := tput s.hosts.ctxs n v Ctx.empty } }

/-- A ring of a context. -/
def State.ring (s : State) (cx r : Nat) : Ring := tget (s.ctx cx).rings r Ring.empty

def State.setRing (s : State) (cx r : Nat) (v : Ring) : State :=
  let c := s.ctx cx
  s.setCtx cx { c with rings := tput c.rings r v Ring.empty }

/-- MSI-X vector `v` sent to a port (R369). -/
def State.msix (s : State) (p v : Nat) : State :=
  let h := s.port p
  s.setPort p { h with msix := v :: h.msix }

/-- Owner event bit n is set; vector 65 goes to the owner host when an unmasked bit goes from 0 to 1 (R441). -/
def State.ownerEvent (s : State) (n : Nat) : State :=
  let old := s.reg 0x48
  let t := s.setReg 0x48 (old ||| 2 ^ n)
  if !bit old n && bit (s.reg 0x4C) n then t.msix s.ownerPort 65 else t

/-- HP_EVENT bit n of a port is raised, signalled by vector 64 (R369, R370). -/
def State.hpEvent (s : State) (p n : Nat) : State :=
  (s.orReg (0x300108 + 0x100 * p) (2 ^ n)).msix p 64

/-- HP_EVENT bit n raised at every port with a die. -/
def State.hpEventAll (s : State) (n : Nat) : State :=
  iter s.module.dies (fun p t => t.hpEvent p n) s

/-- Status 0x0A00 + n + 1 arises from a write of a port at an offset (R440): GL_CFG_ERR and the first GL_CFG_ADDR. -/
def State.cfgErr (s : State) (w : Writer) (n off : Nat) : State :=
  match w with
  | .tool => s
  | .port p =>
    let t := if s.reg (portKey p 0x44) = 0 then s.setReg (portKey p 0x44) (2 ^ 31 + off % 2 ^ 26) else s
    t.orReg (portKey p 0x40) (2 ^ n)

/-- MO_EVENT bit n is set (R516). -/
def State.moEvent (s : State) (n : Nat) : State := s.orReg 0x1024 (2 ^ n)

/-- The key of an infield byte of a rank (R18, R248). -/
def infKey (rank addr : Nat) : Nat := 100663296 * rank + addr

/-- One infield byte. -/
def State.infByte (s : State) (rank addr : Nat) : Byte := tget s.memory.infield (infKey rank addr) 0

/-- Bytes of a rank's infield. -/
def State.infRead (s : State) (rank addr n : Nat) : List Byte := (List.range n).map fun i => s.infByte rank (addr + i)

/-- A little-endian number in a rank's infield. -/
def State.infNat (s : State) (rank addr n : Nat) : Nat := ofBytes (s.infRead rank addr n)

/-- A little-endian number at an infield address that no check has held inside the infield: beyond its last line nothing
is stored and the value is open (the log's entry 65). -/
def State.infOpen (s : State) (rank addr n : Nat) : Nat :=
  if 100663296 < addr + n then Config.beyondInfield rank addr n % 256 ^ n else s.infNat rank addr n

/-- The write of a byte list from key `k` on. -/
def putBytes : List Host.Cell → Nat → List Byte → List Host.Cell
  | t, _, [] => t
  | t, k, b :: r => putBytes (tput t k b 0) (k + 1) r

/-- Poison marks after a write of `n` bytes at `a`, for units of `u` bytes numbered from `base`: a write that covers a
whole unit clears its mark, a partial write keeps it (R447). -/
def clearMarks (marks : List Nat) (base u a n : Nat) : List Nat :=
  marks.filter fun m => !(decide (base + a ≤ m * u) && decide ((m + 1) * u ≤ base + a + n))

/-- Bytes written to a rank's infield; a line wholly covered loses its poison (R447). -/
def State.infWrite (s : State) (rank addr : Nat) (l : List Byte) : State :=
  if l = [] then s else
  { s with memory := { s.memory with
      infield := putBytes s.memory.infield (infKey rank addr) l
      poisonLines := clearMarks s.memory.poisonLines 0 128 (infKey rank addr) l.length } }

/-- Whether any of `n` bytes at an infield address lies in a poisoned line (R447). -/
def State.infPoisoned (s : State) (rank addr n : Nat) : Bool :=
  n != 0 && s.memory.poisonLines.any fun m =>
    decide (infKey rank addr < (m + 1) * 128) && decide (m * 128 < infKey rank addr + n)

/-- An infield line is poisoned (R446): RL_POISON_MADE counts it. -/
def State.poisonLine (s : State) (rank line : Nat) : State :=
  { s with memory := { s.memory with poisonLines := sput s.memory.poisonLines (786432 * rank + line) } }.addSat 0x600114 1

/-- The key of a stack byte of a rank (R242). -/
def stackKey (rank a : Nat) : Nat := 137438953472 * rank + a

/-- The key of a byte of a KV frame (R185, R241). -/
def frameKey (f b : Nat) : Nat := 281474976710656 + 268435456 * f + b

/-- The rank whose stack holds a store key (R241, R242). -/
def keyRank (k : Nat) : Nat :=
  if k < 281474976710656 then k / 137438953472 else ((k - 281474976710656) / 268435456) % 75

/-- One byte of a stack or frame. -/
def State.storeByte (s : State) (k : Nat) : Byte := tget s.memory.store k 0

/-- P in GiB: the weight partition per stack (R18, R247). -/
def State.weightGib (s : State) : Nat := s.tiers.partition

/-- Whether a store key lies in the weight partition of a stack (R242). -/
def State.isWeight (s : State) (k : Nat) : Bool :=
  decide (k < 281474976710656) && decide (1073741824 * (96 - s.weightGib) ≤ k % 137438953472)

/-- Whether a store byte lies in a heat unit of the working tier that is poisoned until written (R457). -/
def State.untilWritten (s : State) (k : Nat) : Bool :=
  s.memory.untilWritten.contains (keyRank k) && !s.memory.unitsWritten.contains (k / 65536) && !s.isWeight k

/-- Whether a store byte reads as poison: its codeword is marked, or its heat unit is poisoned until written (R447, R457). -/
def State.storePoisoned (s : State) (k : Nat) : Bool :=
  s.memory.poisonWords.contains (k / 64) || s.untilWritten k

/-- The codewords of heat unit `u`, as poison marks. -/
def unitMarks (u : Nat) : List Nat := (List.range 1024).map (fun i => 1024 * u + i)

/-- The first write to a poisoned-until-written unit fills it with poison and clears its bit (R457). -/
def State.firstWrite (s : State) (k : Nat) : State :=
  if s.untilWritten k then
    { s with memory := { s.memory with
        poisonWords := sunion s.memory.poisonWords (unitMarks (k / 65536))
        unitsWritten := sput s.memory.unitsWritten (k / 65536) } }
  else s

/-- Bytes written to consecutive store keys, with the poison rules of R447 and R457. -/
def State.storeWrite (s : State) (k : Nat) (l : List Byte) : State :=
  if l = [] then s else
  let t := s.firstWrite k
  let t := t.firstWrite (k + l.length - 1)
  { t with memory := { t.memory with
      store := putBytes t.memory.store k l
      poisonWords := clearMarks t.memory.poisonWords 0 64 k l.length } }

/-- A store codeword is marked as poison. -/
def State.poisonWord (s : State) (k : Nat) : State :=
  { s with memory := { s.memory with poisonWords := sput s.memory.poisonWords (k / 64) } }

/-- An infield line's mark set without counting (a tier transfer carries it, R447). -/
def State.markLine (s : State) (m : Nat) : State :=
  { s with memory := { s.memory with poisonLines := sput s.memory.poisonLines m } }

/-- `n` infield bytes at an address become undefined: free values. -/
def State.infHavoc (s : State) (rank addr n : Nat) : State :=
  { s.infWrite rank addr (freeBytes s.draws n) with draws := s.draws + n }

/-- `n` store bytes from a key become undefined: free values. -/
def State.storeHavoc (s : State) (k n : Nat) : State :=
  { s.storeWrite k (freeBytes s.draws n) with draws := s.draws + n }

/-- A stack's record, of a rank. -/
def State.stack (s : State) (rank : Nat) : Stack := tget s.tiers.stackTab rank Stack.empty

def State.setStack (s : State) (rank : Nat) (v : Stack) : State :=
  { s with tiers := { s.tiers with stackTab := tput s.tiers.stackTab rank v Stack.empty } }

/-- A link's record. -/
def State.link (s : State) (n : Nat) : Link := tget s.links.links n Link.reset

def State.setLink (s : State) (n : Nat) (v : Link) : State :=
  { s with links := { s.links with links := tput s.links.links n v Link.reset } }

/-- Base offset of a link's register set (R295). -/
def linkBase (n : Nat) : Nat := 0x201000 + 0x100 * n

/-- A group of a context's group table. -/
def State.group (s : State) (cx g : Nat) : Group := tget s.links.groups (cx * 64 + g) Group.empty

def State.setGroup (s : State) (cx g : Nat) (v : Group) : State :=
  { s with links := { s.links with groups := tput s.links.groups (cx * 64 + g) v Group.empty } }

/-- A link stream. -/
def State.stream (s : State) (n : Nat) : Stream := tget s.links.streams n Stream.empty

def State.setStream (s : State) (n : Nat) (v : Stream) : State :=
  { s with links := { s.links with streams := tput s.links.streams n v Stream.empty } }

/-- A sequence. -/
def State.seq (s : State) (n : Nat) : Sequence := tget s.kv.seqs n Sequence.empty

def State.setSeq (s : State) (n : Nat) (v : Sequence) : State :=
  { s with kv := { s.kv with seqs := tput s.kv.seqs n v Sequence.empty } }

/-- A lap counter of a rank (R145). -/
def State.lap (s : State) (rank i : Nat) : LapCounter := tget s.tiles.counters (rank * 256 + i) LapCounter.empty

def State.setLap (s : State) (rank i : Nat) (v : LapCounter) : State :=
  { s with tiles := { s.tiles with counters := tput s.tiles.counters (rank * 256 + i) v LapCounter.empty } }

/-- A core. -/
def State.core (s : State) (site c : Nat) : Core := tget s.tiles.cores (4096 * site + c) Core.empty

def State.setCore (s : State) (site c : Nat) (v : Core) : State :=
  { s with tiles := { s.tiles with cores := tput s.tiles.cores (4096 * site + c) v Core.empty } }

/-- A core site's service record (R449, R450). -/
def State.coreSite (s : State) (site c : Nat) : CoreSite :=
  tget s.tiles.coreSites (4096 * site + c) (CoreSite.reset c)

def State.setCoreSite (s : State) (site c : Nat) (v : CoreSite) : State :=
  { s with tiles := { s.tiles with coreSites := tput s.tiles.coreSites (4096 * site + c) v (CoreSite.reset c) } }

/-- The issued kernel that holds a lap counter index. -/
def State.kernel (s : State) (i : Nat) : Option Kernel := tget s.tiles.kernels i none

def State.setKernel (s : State) (i : Nat) (v : Option Kernel) : State :=
  { s with tiles := { s.tiles with kernels := tput s.tiles.kernels i v none } }

/-- A playout port. -/
def State.po (s : State) (p : Nat) : Playout := tget s.media.ports p Playout.empty

def State.setPo (s : State) (p : Nat) (v : Playout) : State :=
  { s with media := { s.media with ports := tput s.media.ports p v Playout.empty } }

/-- A media stream slot. -/
def State.mstream (s : State) (n : Nat) : MStream := tget s.media.streams n MStream.empty

def State.setMstream (s : State) (n : Nat) (v : MStream) : State :=
  { s with media := { s.media with streams := tput s.media.streams n v MStream.empty } }

/-- A media engine. -/
def State.engine (s : State) (n : Nat) : MEngine := tget s.media.engines n MEngine.empty

def State.setEngine (s : State) (n : Nat) (v : MEngine) : State :=
  { s with media := { s.media with engines := tput s.media.engines n v MEngine.empty } }

/-- The module's count of records a book may hold (R460). -/
def bookSize : Nat := 1572864

/-- The fields of a logbook record as one number (Table 17.6). -/
def recordOf (s : State) (ty status kind unit data : Nat) : Nat :=
  let prev := match s.rel.book.getLast? with
    | none => 0
    | some r => ofBytes (sha256 (toBytes 128 r.toNat))
  prev * 2 ^ 768 + 2 ^ 256 * (data % 2 ^ 512) + 2 ^ 192 * s.rel.book.length
    + 2 ^ 128 * (s.module.lifeSeconds % 2 ^ 64) + 2 ^ 96 * (s.module.bootCount % 2 ^ 32)
    + 2 ^ 88 * (kind % 256) + 2 ^ 64 * (unit % 2 ^ 24) + 2 ^ 48 * (ty % 65536) + 2 ^ 32 * (status % 65536) + 0x424C

/-- A record appended to both copies of the book, unless its area is full (R460, R462); owner event [8]. -/
def State.appendRecord (s : State) (ty status kind unit data : Nat) : State :=
  if bookSize ≤ s.rel.book.length then s.ownerEvent 8 else
  { s with rel := { s.rel with
      book := s.rel.book ++ [BitVec.ofNat 1024 (recordOf s ty status kind unit data)]
      sinceCheckpoint := s.rel.sinceCheckpoint + 1 } }.ownerEvent 8

/-- The identity budget of 2^30 signatures, the last 2^20 of them the reserve (R469, R473). -/
def sigBudget : Nat := 1073741824
def sigReserve : Nat := 1072693248

/-- One identity signature spent; SIG_BUDGET records at the marks of R473. The signature, or none when the budget is
spent. -/
def State.sign (s : State) (message : List Byte) : State × Option (List Byte) :=
  if sigBudget ≤ s.fw.sigUsed then (s, none) else
  let used := s.fw.sigUsed + 1
  let sig := Config.hssSign s.fw.keyGen s.fw.sigUsed message
  let t : State := { s with fw := { s.fw with sigUsed := used } }
  let rec_ := fun (c : Nat) (u : State) =>
    u.appendRecord 0x92 0 0 0 (s.fw.keyGen % 65536 + 65536 * (used % 2 ^ 32) + 2 ^ 48 * c)
  let t := if used % 67108864 = 0 then rec_ 0 t else t
  let t := if used = 966367642 then rec_ 1 t else t
  let t := if used = sigReserve then rec_ 2 t else t
  let t := if used = sigBudget then rec_ 3 t else t
  (t, some sig)

/-- A CHECKPOINT record and its signature in the next slot (R461, Table 17.7). -/
def State.checkpoint (s : State) : State :=
  let first := match s.rel.book.head? with
    | none => 0
    | some r => ofBytes (sha256 (toBytes 128 r.toNat))
  let slot := s.rel.signatures.length % 16384
  let t := s.appendRecord 0xF0 0 0 0 (slot + 2 ^ 256 * first)
  let last := match t.rel.book.getLast? with
    | none => []
    | some r => sha256 (toBytes 128 r.toNat)
  let t := { t with rel := { t.rel with sinceCheckpoint := 0 } }
  match t.sign ([0x55, 0x5A, 0x4C, 0x42] ++ last) with
  | (t, none) => t
  | (t, some g) => { t with rel := { t.rel with signatures := t.rel.signatures ++ [(slot, g)] } }

/-- A logbook record, with the CHECKPOINT that R461 appends after 1,024 records or a marking record. -/
def State.log (s : State) (ty status kind unit data : Nat) : State :=
  let t := s.appendRecord ty status kind unit data
  if ty = 0xA0 ∨ ty = 0xA1 ∨ ty = 0x90 ∨ ty = 0x91 ∨ 1024 ≤ t.rel.sinceCheckpoint then t.checkpoint else t

/-- An interrupting event (R459): RL_EVENTS rises, FAULT_N goes low, an INTERRUPT record is written. -/
def State.interrupt (s : State) (status : Nat) (unavailable : Bool) : State :=
  let t : State := { s with
    rel := { s.rel with events := s.rel.events + 1 }
    module := { s.module with faultLow := true } }
  t.log 0x61 status 0 0 (status + 65536 * b2n unavailable)

end Sys2Proof.Machine
end

