-- ==== Sys2Proof/Machine/Flags.lean ====
section
/-!
DEFINITION. The flag word and the completion status it gives (R82, R83).
-/

namespace Sys2Proof.Machine

open Sys2Proof

/-- The lowest set bit among bits 0 to n - 1, counted from bit `i`. -/
def lowestBit : Nat → Nat → Nat → Option Nat
  | 0, _, _ => none
  | n + 1, i, v => if bit v i then some i else lowestBit n (i + 1) v

/-- The status of a command that met none of its own: that of its lowest raised flag that is trapped, else success (R82). -/
def flagStatus (flags trap : Nat) : Nat :=
  match lowestBit 64 0 (flags &&& trap) with
  | some n => 0x0200 + n + 1
  | none => 0

/-- The status a completion record carries: the work's own, else that of the flags (R82). -/
def completionStatus (status flags trap : Nat) : Nat := if status ≠ 0 then status else flagStatus flags trap

end Sys2Proof.Machine
end

