-- ==== Sys2Proof/Machine/HostOps.lean ====
section
/-!
DEFINITION. Commands in their rings: decoded, issued, finished, and completed in slot order (R352 to R369), and the
operations every family of commands issues and finishes its command with.
-/

namespace Sys2Proof.Machine

open Sys2Proof

/-! ### Descriptor fields (Table 13.3) -/

def Cmd.kind (c : Cmd) : Nat := fld c.desc 7 0
def Cmd.irq (c : Cmd) : Bool := flag c.desc 8
def Cmd.stepEnd (c : Cmd) : Bool := flag c.desc 9
def Cmd.waitEn (c : Cmd) : Bool := flag c.desc 10
def Cmd.waitRing (c : Cmd) : Nat := fld c.desc 12 11
def Cmd.waitIndex (c : Cmd) : Nat := fld c.desc 63 32
def Cmd.duration (c : Cmd) : Nat := fld c.desc 95 64
def Cmd.trap (c : Cmd) : Nat := fld c.desc 191 128

/-- Slots a kind takes (Table 13.4, Table 15.4). -/
def kindSlots (k : Nat) : Nat :=
  if k = 0x03 ∨ k = 0x04 ∨ k = 0x10 ∨ k = 0x20 ∨ k = 0x30 ∨ k = 0x32 ∨ k = 0x33 ∨ k = 0x36 ∨ k = 0x37 then 2 else 1

/-- A newly decoded command at a slot index. -/
def Cmd.make (index : Nat) (desc ext : Line) (refusal : Nat) : Cmd :=
  ⟨index, desc, ext, refusal, false, false, 0, 0, 0, [], [], 0, 0, 0, [], false, false, false, 0⟩

/-- The base of a context's register set (R370). -/
def ctxBase (cx : Nat) : Nat := 0x310000 + 0x1000 * cx

/-- The port that holds a context; 4 where none does. -/
def State.cxPort (s : State) (cx : Nat) : Nat :=
  match (s.ctx cx).mode with
  | .free => 4
  | _ => (s.ctx cx).port

/-- Whether a port's link carries traffic. -/
def State.portUp (s : State) (p : Nat) : Bool :=
  (s.port p).mode == .up || (s.port p).mode == .degraded

/-- Whether a context belongs to the owner host (R367). -/
def State.ownerCx (s : State) (cx : Nat) : Bool := s.cxPort cx == s.ownerPort

/-- A command of a ring changed by `f`. -/
def State.modCmd (s : State) (id : CmdId) (f : Cmd → Cmd) : State :=
  let r := s.ring id.cx id.ring
  s.setRing id.cx id.ring { r with cmds := modFirst (fun c => c.index == id.index) f r.cmds }

/-- A command of a ring. -/
def State.cmd? (s : State) (id : CmdId) : Option Cmd :=
  (s.ring id.cx id.ring).cmds.find? fun c => c.index == id.index

/-- Flags raised by a unit that works for a command (R82). -/
def State.raise (s : State) (id : CmdId) (fl : Nat) : State :=
  if fl = 0 then s else s.modCmd id fun c => { c with flags := c.flags ||| fl }

/-- package_id, ALV of the resident package; zero if none (Table 13.7). -/
def State.packageId (s : State) : Nat := match s.package with | some p => bits p.header 127 64 | none => 0
def State.alv (s : State) : Nat := match s.package with | some p => bits p.header 63 48 | none => 0

/-- The recipe context of the resident package (R102). -/
def State.recipeCtx (s : State) : Option Nat :=
  match s.package with | some p => some (bits p.header 229 226) | none => none

/-- The completion record of a command (Table 13.8). -/
def completionRecord (s : State) (cx : Nat) (c : Cmd) (status : Nat) : Line :=
  BitVec.ofNat 512 (
    fld c.desc 511 448 * 2 ^ 448 + 2 ^ 384 * ((s.port (s.ctx cx).port).cycles % 2 ^ 64)
    + 2 ^ 320 * (c.issueStamp % 2 ^ 64) + 2 ^ 256 * s.packageId + 2 ^ 224 * (s.module.siteEpoch % 2 ^ 32)
    + 2 ^ 192 * s.alv + 2 ^ 128 * (c.result % 2 ^ 64) + 2 ^ 64 * (c.flags % 2 ^ 64)
    + 2 ^ 32 * (c.index % 2 ^ 32) + 65536 * (status % 65536) + c.kind * 256 + 0xFF)

/-- A context becomes FAULTED: its rings are no longer served, HP_EVENT[3] is raised at its port (R389). -/
def State.faultCx (s : State) (cx status : Nat) : State :=
  let c := s.ctx cx
  if c.mode = .ready then
    (s.setCtx cx { c with mode := .faulted, status := status }).hpEvent c.port 3
  else s

/-- A step boundary still to be applied before the record is written (R103). Once the recipe context has been torn down
there is none (R106). -/
def State.boundaryDue (s : State) (cx : Nat) (c : Cmd) : Bool :=
  c.stepEnd && s.recipeCtx == some cx && !c.bounded && !s.rails.torn

/-- The host address of a slot index of a ring: ring base + (i mod 2^size) · 64 (R352). -/
def State.slotAddr (s : State) (cx r i : Nat) : Nat :=
  let k := ctxBase cx + 0x40 + 0x20 * r
  s.reg k + 4294967296 * s.reg (k + 4) + i % 2 ^ (s.reg (k + 8) % 32) * 64

/-- The host address of a context's doorbell line (R353). -/
def State.doorbellAddr (s : State) (cx : Nat) : Nat := s.reg (ctxBase cx + 8) + 4294967296 * s.reg (ctxBase cx + 12)

/-- Bytes of host memory read for a context, on its port (R344, R348). -/
def State.hostRead (s : State) (cx addr n : Nat) (shared : Bool) : State :=
  { s with hosts := { s.hosts with reads := s.hosts.reads ++ [⟨(s.ctx cx).port, addr, n, shared⟩] } }

/-- The completion record of a ring's first command is written: it leaves the decoded list, releases its pins (R188) and
adds its flags to the sticky word (R82). A command lost to checksum mismatches faults its context
(R454, R459). -/
def State.writeRecord (s : State) (cx r : Nat) (c : Cmd) : State :=
  let st := completionStatus (if c.refusal ≠ 0 then c.refusal else c.status) c.flags c.trap
  let q := s.ring cx r
  let done : List Completion :=
    if s.portUp (s.ctx cx).port then
      [⟨c.index, kindSlots c.kind, completionRecord s cx c st, c.irq, (s.ctx cx).port, s.slotAddr cx r c.index⟩]
    else []
  let t := s.setRing cx r { q with cmds := q.cmds.drop 1, written := q.written ++ done }
  let k := t.ctx cx
  let t := t.setCtx cx { k with flags := k.flags ||| c.flags }
  let t := c.pins.foldl (fun u p =>
    let sq := u.seq p.1
    u.setSeq p.1 { sq with pinned := sq.pinned.erase p.2 }) t
  if c.refusal = 0x0B04 then (t.faultCx cx 0x0B04).interrupt 0x0B04 false else t

/-- Completion records written in slot order: refused commands complete in their turn (R361), finished ones as soon as
every earlier one has. `fuel` bounds the walk. -/
def State.flush (cx r : Nat) : Nat → State → State
  | 0, s => s
  | n + 1, s =>
    match (s.ring cx r).cmds with
    | [] => s
    | c :: _ =>
      if (c.finished || (c.refusal != 0 && (s.ctx cx).mode == .ready)) && !s.boundaryDue cx c then
        State.flush cx r n (s.writeRecord cx r c)
      else s

/-- A ring flushed over every command it holds. -/
def State.settle (s : State) (cx r : Nat) : State := State.flush cx r ((s.ring cx r).cmds.length) s

/-- A command's work ends with a status and a result (R368). A status that faults the context does so (R389). -/
def State.finish (s : State) (id : CmdId) (status result : Nat) : State :=
  let t := s.modCmd id fun c =>
    { c with finished := true, status := (if c.status ≠ 0 then c.status else status), result := result }
  let t := t.settle id.cx id.ring
  if status = 0x0B01 ∨ status = 0x0B02 ∨ status = 0x0B04 ∨ status = 0x030A then t.faultCx id.cx status else t

/-- A consumption of poison counted, logged and reported (R448, R459). -/
def State.notePoison (s : State) (cx : Nat) : State :=
  ((s.addSat 0x600118 1).log 0x60 0x0B01 0 0 cx).interrupt 0x0B01 false

/-- A unit reads poisoned data for a command: the command ends with 0x0B01 and its context faults (R448). -/
def State.consumePoison (s : State) (id : CmdId) : State := (s.notePoison id.cx).finish id 0x0B01 0

/-- A commit set (R433). -/
def State.cset (s : State) (n : Nat) : CommitSet := tget s.regs.sets n CommitSet.empty

def State.setCset (s : State) (n : Nat) (v : CommitSet) : State :=
  { s with regs := { s.regs with sets := tput s.regs.sets n v CommitSet.empty } }

/-- Whether a commit set is CLOSED, so that nothing of Table 16.7 waits (R436). -/
def State.setClosed (s : State) (n : Nat) : Bool := (s.cset n).mode == .closed

/-- Whether index `a` lies above index `b`, modulo 2^32 (R357). -/
def idxAbove (a b : Nat) : Bool := let d := wrap32 (a + 4294967296 - b % 4294967296); d != 0 && decide (d < 2147483648)

/-- A command's ring wait is met (R357). -/
def State.waitMet (s : State) (cx : Nat) (c : Cmd) : Bool :=
  !c.waitEn || idxAbove (s.ring cx c.waitRing).done c.waitIndex

/-- The context's fields may issue its commands now: it holds them, outside a switch; the media ring always (R378). -/
def State.served (s : State) (cx r : Nat) : Bool :=
  r == 3 || (s.sched.holder == some cx && !s.sched.switching && !s.sched.halted)

/-- Whether a command could issue under the ring rules, apart from who holds the fields (R357, R436). -/
def State.ringRules (s : State) (cx r : Nat) (c : Cmd) (pinned : List Nat) : Bool :=
  (s.ctx cx).mode == .ready && !c.issued && !c.finished && c.refusal == 0 && s.waitMet cx c &&
    (r == 3 || s.setClosed (16 + cx)) && pinned.all fun q => s.setClosed (8 + q)

/-- Kinds that run with no package resident (R367). -/
def kindFree (k : Nat) : Bool := k == 0x00 || k == 0x06 || k == 0x07 || k == 0x11 || k == 0x12 || k == 0x13

/-- Kinds that a missing rank turns away at issue (R452). -/
def kindFields (k : Nat) : Bool := k == 0x02 || k == 0x03 || k == 0x04 || k == 0x10 || k == 0x20

/-- The next issue numbers of the sequences a command pins, and the state that holds the pins (R188). -/
def State.pinAll (s : State) (qs : List Nat) : State × List (Nat × Nat) :=
  qs.foldl (fun (t, l) q =>
    let sq := t.seq q
    let n := sq.issue
    (t.setSeq q { sq with issue := wrap32 (n + 1), last := n, pinned := sq.pinned ++ [n] }, l ++ [(q, n)])) (s, [])

/-- The committed context seed (R80). -/
def State.cxSeed (s : State) (cx : Nat) : Nat := s.reg (ctxBase cx + 0x18) + 4294967296 * s.reg (ctxBase cx + 0x1C)

/-- A command issues: stamp, seed and pins are taken (R80, R188, R368). -/
def State.markIssued (s : State) (id : CmdId) (pinned : List Nat) : State :=
  let (t, pins) := s.pinAll pinned
  t.modCmd id fun c => { c with
    issued := true
    waitsCounter := false
    issueStamp := (s.port (s.ctx id.cx).port).cycles
    seed := s.cxSeed id.cx
    pins := pins }

/-- The first command of a ring, where `want` accepts it. -/
def State.headCmd (s : State) (cx r : Nat) (want : Cmd → Bool) : Option Cmd :=
  match (s.ring cx r).cmds with
  | c :: _ => if want c then some c else none
  | [] => none

/-- The first command of a ring issues, where it is of the wanted kind and could issue now; `run` is its effect. Without
a resident package it completes with 0x060A (R367), with a rank missing with 0x0B05 (R452). Where it cannot issue,
nothing happens. -/
def State.issueHead (s : State) (cx r : Nat) (want : Cmd → Bool) (pinsOf : State → Cmd → List Nat)
    (run : State → CmdId → Cmd → State) : State :=
  match s.headCmd cx r want with
  | none => s
  | some c =>
    let id : CmdId := ⟨cx, r, c.index⟩
    if s.ringRules cx r c (pinsOf s c) && s.served cx r then
      if s.package.isNone && !kindFree c.kind then (s.markIssued id []).finish id 0x060A 0
      else if !s.rel.missing.isEmpty && kindFields c.kind then (s.markIssued id []).finish id 0x0B05 0
      else
        let t := s.markIssued id (pinsOf s c)
        match t.cmd? id with
        | some d => run t id d
        | none => t
    else s

/-- The first command of a ring issues, or, where it has issued and its work waits, its work is tried again. -/
def State.issueOrRun (s : State) (cx r : Nat) (want : Cmd → Bool) (pinsOf : State → Cmd → List Nat)
    (run : State → CmdId → Cmd → State) : State :=
  match s.headCmd cx r fun c => want c && c.issued with
  | some c => if c.finished || c.worked || !s.served cx r then s else run s ⟨cx, r, c.index⟩ c
  | none => s.issueHead cx r want pinsOf run

/-- No sequence is pinned. -/
def noPins (_ : State) (_ : Cmd) : List Nat := []

/-- Whether a command's kind, and its op field where it has one, are the wanted ones. -/
def wantKind (k : Nat) (c : Cmd) : Bool := c.kind == k && c.refusal == 0

/-- The running command at the head of a ring: issued and not finished. -/
def State.running (s : State) (cx r : Nat) : Option Cmd := s.headCmd cx r fun c => c.issued && !c.finished

/-- Every command of every context that has issued and not completed. -/
def State.outstanding (s : State) : List CmdId :=
  (List.range 16).flatMap fun cx => (List.range 4).flatMap fun r =>
    ((s.ring cx r).cmds.filter fun c => c.issued && !c.finished).map fun c => ⟨cx, r, c.index⟩

/-- Outstanding commands of one context. -/
def State.outstandingOf (s : State) (cx : Nat) : List CmdId := s.outstanding.filter fun i => i.cx == cx

end Sys2Proof.Machine
end

