-- ==== Sys2Proof/Machine/RegMap.lean ====
section
/-!
DEFINITION. The register map (R425 to R439): where each register lies, its access code, its writable bits, who may
write it, and the clamped fields.
-/

namespace Sys2Proof.Machine

open Sys2Proof

/-- Access codes (R7, Table 0.4); an RWS register names its commit set (Table 16.2). -/
inductive Acc where
  | ro
  | rw
  | rws (set : Nat)
  | rwi
  | w1c
  | wo
  deriving DecidableEq, Repr

/-- Who may write a register (R346, R347 and each block's chapter). -/
inductive Right where
  /-- Any port: a selector, or a register of which each port holds its own copy (R427). -/
  | any
  | owner
  /-- The port of a context. -/
  | cx (n : Nat)
  /-- The port of the recipe context (R102). -/
  | recipe
  /-- The port of a sequence's owning context (R181). -/
  | seqOwner (n : Nat)
  /-- A landing entry (R295). -/
  | landing (i : Nat)
  /-- ST_CTRL of a link stream, and its other registers (R323). -/
  | stream (n : Nat)
  | streamRest (n : Nat)
  /-- The host port itself (R347). -/
  | hostPort (p : Nat)
  deriving DecidableEq, Repr

/-- A register: its access, who writes it, its writable bits, and whether each port holds its own copy (R427). -/
structure RegInfo where
  acc : Acc
  right : Right
  mask : Nat
  perPort : Bool
  deriving DecidableEq, Repr

/-- A read-only register. -/
def RegInfo.ro : RegInfo := ⟨.ro, .owner, 0, false⟩

/-- A selector register: a per-port copy, written by any port. -/
def RegInfo.sel (mask : Nat) : RegInfo := ⟨.rw, .any, mask, true⟩

/-- All 32 bits. -/
def m32 : Nat := 0xFFFFFFFF

/-- Global and module registers (Tables 16.3 and 19.10). -/
def regGlobal (o : Nat) : Option RegInfo :=
  if o = 0x24 ∨ o = 0x2C then some (RegInfo.sel 0x7F)
  else if o = 0x40 then some ⟨.w1c, .any, 0x1F, true⟩
  else if o = 0x48 then some ⟨.w1c, .owner, 0x3FF, false⟩
  else if o = 0x4C then some ⟨.rw, .owner, 0x3FF, false⟩
  else if o ≤ 0x4C then some RegInfo.ro
  else if o = 0x1010 then some (RegInfo.sel 0x7)
  else if o = 0x1024 then some ⟨.w1c, .owner, 0x7F, false⟩
  else if o = 0x1028 ∨ o = 0x102C then some ⟨.wo, .owner, m32, false⟩
  else if 0x1000 ≤ o ∧ o ≤ 0x102C then some RegInfo.ro
  else none

/-- Guard-rail registers (Table 4.3). -/
def regGuard (o : Nat) : Option RegInfo :=
  if o = 0x10 then some (RegInfo.sel 0x3FF)
  else if o = 0x0C ∨ o = 0x24 then some ⟨.w1c, .owner, m32, false⟩
  else if o = 0x20 then some ⟨.wo, .owner, 1, false⟩
  else if o ≤ 0x24 then some RegInfo.ro
  else if 0x100 ≤ o ∧ o < 0x140 then some ⟨.rws 0, .recipe, m32, false⟩
  else if 0x200 ≤ o ∧ o < 0x240 then some RegInfo.ro
  else if 0x300 ≤ o ∧ o < 0x340 then some ⟨.w1c, .owner, m32, false⟩
  else if 0x400 ≤ o ∧ o < 0x440 then some ⟨.w1c, .owner, m32, false⟩
  else none

/-- Tier registers (Table 9.9); TR_WIN is written by the context's port (step 3 after R350). -/
def regTiers (o : Nat) : Option RegInfo :=
  if o = 0x04 then some ⟨.rwi, .owner, 0x7FFFFF, false⟩
  else if o = 0x10 then some ⟨.rws 1, .owner, 0xFFFF0F, false⟩
  else if o = 0x14 then some ⟨.rws 1, .owner, 0x3F, false⟩
  else if o = 0x18 then some (RegInfo.sel 0x7F)
  else if o = 0x2C then some (RegInfo.sel 0x3F)
  else if o = 0x40 then some ⟨.wo, .owner, 1, false⟩
  else if o = 0x48 then some ⟨.w1c, .owner, 1, false⟩
  else if o ≤ 0x48 then some RegInfo.ro
  else if 0x100 ≤ o ∧ o < 0x200 then
    (if o % 16 = 0 then some ⟨.rws 1, .owner, 0xFFFFFFF, false⟩
    else if o % 16 = 4 then some RegInfo.ro
    else if o % 16 = 8 then some ⟨.rws 1, .owner, 0x7FF, false⟩
    else some ⟨.rwi, .cx ((o - 0x100) / 16), 0x7FFFFF, false⟩)
  else none

/-- Sequence and frame registers (Table 7.5). -/
def regSeqs (o : Nat) : Option RegInfo :=
  let n := o / 64
  if o < 0x200 then
    (if o % 64 = 0x00 then some ⟨.rwi, .owner, 0xFFF3, false⟩
    else if o % 64 = 0x04 then some ⟨.rwi, .seqOwner n, 0xFFE00000, false⟩
    else if o % 64 = 0x08 then some ⟨.rwi, .seqOwner n, 0xFFFF, false⟩
    else if o % 64 = 0x0C then some ⟨.rwi, .seqOwner n, 0xFFFF, false⟩
    else if o % 64 = 0x10 then some ⟨.rwi, .seqOwner n, 0xFFFF0000, false⟩
    else if o % 64 = 0x14 then some ⟨.rwi, .seqOwner n, 0xFFFF, false⟩
    else if o % 64 = 0x18 then some ⟨.rws (8 + n), .seqOwner n, 0x1FFFFFF, false⟩
    else if o % 64 ≤ 0x2C then some RegInfo.ro
    else none)
  else if o = 0x208 then some (RegInfo.sel 0x1FFFFF)
  else if o ≤ 0x20C then some RegInfo.ro
  else none

/-- The party that writes a commit set (Table 16.2); none for a set not listed. -/
def csetRight (n : Nat) : Option Right :=
  if n = 0 then some .recipe
  else if n ≤ 5 then some .owner
  else if 8 ≤ n ∧ n < 16 then some (.seqOwner (n - 8))
  else if 16 ≤ n ∧ n < 32 then some (.cx (n - 16))
  else if 64 ≤ n ∧ n < 320 then some (.landing (n - 64))
  else none

/-- Commit set registers (Table 16.5). -/
def regCsets (o : Nat) : Option RegInfo :=
  match csetRight (o / 16) with
  | none => none
  | some r => if o % 16 < 8 then some ⟨.wo, r, 0xFFFF, false⟩ else some RegInfo.ro

/-- Field blocks of one site (Tables 16.4, 5.4, 11.10, 6.11 and 8.4). -/
def regField (o : Nat) : Option RegInfo :=
  if o < 0x14 then some RegInfo.ro
  else if o = 0x14 then some ⟨.wo, .owner, 1, false⟩
  else if o = 0x400 then some (RegInfo.sel 0xFF)
  else if 0x400 < o ∧ o ≤ 0x430 then some RegInfo.ro
  else if o = 0x440 then some RegInfo.ro
  else if o = 0x480 then some (RegInfo.sel 0x7FFF)
  else if o = 0x484 then some RegInfo.ro
  else if o = 0x488 then some ⟨.wo, .owner, 0xFF, false⟩
  else if o = 0x60C then some ⟨.w1c, .owner, 0xFFFF, false⟩
  else if o = 0x610 then some ⟨.wo, .owner, 1, false⟩
  else if 0x600 ≤ o ∧ o ≤ 0x61C then some RegInfo.ro
  else if 0x700 ≤ o ∧ o ≤ 0x710 then some RegInfo.ro
  else none

/-- Link registers, landing entries and routes (Table 10.10). -/
def regLinks (o : Nat) : Option RegInfo :=
  if o = 0 then some ⟨.rwi, .owner, 0xFFF, false⟩
  else if o = 0x0C then some ⟨.rws 2, .owner, 0xFFFF, false⟩
  else if o = 0x10 then some ⟨.rws 2, .owner, 0x1FFF, false⟩
  else if o ≤ 0x14 then some RegInfo.ro
  else if 0x1000 ≤ o ∧ o < 0x1000 + 0x100 * 36 then
    (if o % 0x100 = 0 then some ⟨.rws 2, .owner, 0x1F, false⟩
    else if o % 0x100 = 0x34 then some ⟨.wo, .owner, 1, false⟩
    else if o % 0x100 ≤ 0x30 then some RegInfo.ro
    else none)
  else if 0x4000 ≤ o ∧ o < 0x5000 then
    let i := (o - 0x4000) / 16
    (if o % 16 = 0 then some ⟨.rws (64 + i), .landing i, 0xFFF003F, false⟩
    else if o % 16 = 4 then some ⟨.rws (64 + i), .landing i, 0xFFFFFF00, false⟩
    else if o % 16 = 8 then some ⟨.rws (64 + i), .landing i, 0xFFFF, false⟩
    else some ⟨.rws (64 + i), .landing i, m32, false⟩)
  else if 0x8000 ≤ o ∧ o < 0x10000 then
    (if o % 8 = 0 then some ⟨.rws 2, .owner, m32, false⟩ else some ⟨.rws 2, .owner, 0xF, false⟩)
  else none

/-- Collective registers (Table 11.9). -/
def regColl (o : Nat) : Option RegInfo :=
  if o = 0 then some (RegInfo.sel 0x3FF)
  else if o ≤ 0x38 then some RegInfo.ro
  else if o = 0x104 then some (RegInfo.sel 0x3F)
  else if o = 0x100 ∨ o = 0x108 then some RegInfo.ro
  else none

/-- Link stream registers (Table 12.3). -/
def regStreams (o : Nat) : Option RegInfo :=
  let n := o / 32
  if o < 0x2000 then
    (if o % 32 = 0 then some ⟨.rwi, .stream n, 0x3FF0FFF, false⟩
    else if o % 32 = 4 then some ⟨.rwi, .streamRest n, 0xFFFFFF80, false⟩
    else if o % 32 = 8 then some ⟨.rwi, .streamRest n, 0xFFFF, false⟩
    else if o % 32 = 0x1C then some ⟨.wo, .streamRest n, 1, false⟩
    else some RegInfo.ro)
  else if o = 0x2004 then some (RegInfo.sel 0x3F)
  else if o ≤ 0x2008 then some RegInfo.ro
  else none

/-- Host-port and context registers (Table 13.10), and each port's MSI-X table of 66 vectors of 16 bytes with its pending
bits (R369, R425). -/
def regHost (o : Nat) : Option RegInfo :=
  if o ≤ 4 then some RegInfo.ro
  else if 0x100 ≤ o ∧ o < 0x500 then
    (if o % 0x100 = 4 then some ⟨.rw, .owner, 0xFFFF, false⟩
    else if o % 0x100 = 8 then some ⟨.w1c, .hostPort (o / 0x100 - 1), 0xF, false⟩
    else if o % 0x100 ≤ 0x10 then some RegInfo.ro
    else none)
  else if 0x10000 ≤ o ∧ o < 0x20000 then
    let n := (o - 0x10000) / 0x1000
    let x := o % 0x1000
    (if x = 0 then some ⟨.wo, .cx n, 3, false⟩
    else if x = 4 then some RegInfo.ro
    else if x = 8 then some ⟨.rwi, .cx n, 0xFFFFFFC0, false⟩
    else if x = 0xC then some ⟨.rwi, .cx n, m32, false⟩
    else if x = 0x10 then some ⟨.rws (16 + n), .cx n, 0x3FFF, false⟩
    else if x = 0x18 ∨ x = 0x1C then some ⟨.rws (16 + n), .cx n, m32, false⟩
    else if x = 0x20 ∨ x = 0x24 then some ⟨.w1c, .cx n, m32, false⟩
    else if x = 0x28 then some ⟨.rw, .cx n, 0xF, true⟩
    else if x = 0x2C then some RegInfo.ro
    else if 0x40 ≤ x ∧ x < 0xC0 then
      (if x % 32 = 0 then some ⟨.rwi, .cx n, 0xFFFFF000, false⟩
      else if x % 32 = 4 then some ⟨.rwi, .cx n, m32, false⟩
      else if x % 32 = 8 then some ⟨.rwi, .cx n, 0x1F, false⟩
      else if x % 32 = 0x14 then some ⟨.rws (16 + n), .cx n, 0xFFFFFF01, false⟩
      else if x % 32 ≤ 0x10 then some RegInfo.ro
      else none)
    else if 0x100 ≤ x ∧ x < 0x200 then some ⟨.rws (16 + n), .cx n, m32, false⟩
    else none)
  else if 0x20000 ≤ o ∧ o < 0x20420 then some ⟨.rw, .any, if o % 16 = 12 then 1 else m32, true⟩
  else if 0x21000 ≤ o ∧ o < 0x2100C then some RegInfo.ro
  else none

/-- Heat-sheet registers (Table 14.9). -/
def regHeat (o : Nat) : Option RegInfo :=
  if o = 0 then some ⟨.rws 3, .owner, 1, false⟩
  else if o = 4 then some ⟨.rwi, .owner, 0xFF, false⟩
  else if o = 8 then some ⟨.rws 3, .owner, 0x1FFFF, false⟩
  else if o = 0x14 then some ⟨.w1c, .owner, 0xFFFF, false⟩
  else if o = 0x20 then some ⟨.wo, .owner, 1, false⟩
  else if o ≤ 0x20 then some RegInfo.ro
  else if 0x100 ≤ o ∧ o < 0x200 then some ⟨.rws 3, .owner, m32, false⟩
  else if 0x200 ≤ o ∧ o < 0x300 then
    (if o % 16 = 0 then some ⟨.rws 3, .owner, 3, false⟩ else some RegInfo.ro)
  else none

/-- Media registers (Table 15.9). -/
def regMedia (o : Nat) : Option RegInfo :=
  if o = 4 then some ⟨.rwi, .owner, 0x3FFF, false⟩
  else if o = 8 then some (RegInfo.sel 0x3F)
  else if o = 0x24 then some (RegInfo.sel 0x1F)
  else if o ≤ 0x30 then some RegInfo.ro
  else none

/-- Playout registers of one port set (Table 15.10). -/
def regPlayout (p o : Nat) : Option RegInfo :=
  let mask := if o = 0x0C ∨ o = 0x14 then 0xFFFF else if o = 0x24 then 0x3FFFFFFF else if o = 0x28 then 0xFFFFFF
    else if o = 0x2C then 0xFFFFF else if o = 0x30 then 0x3FFF else if o = 0x34 then 0x7F else m32
  if o = 0 then some ⟨.rwi, .owner, 0x3FFFFFF, false⟩
  else if o ≤ 0x34 then some ⟨.rws (4 + p), .owner, mask, false⟩
  else if o = 0x60 then some ⟨.wo, .owner, 1, false⟩
  else if 0x40 ≤ o ∧ o ≤ 0x5C then some RegInfo.ro
  else none

/-- Trim and reliability registers (Table 17.9); only the owner writes the window. -/
def regTrim (o : Nat) : Option RegInfo :=
  if o = 4 then some ⟨.rw, .owner, 0x3FFF, true⟩
  else if o = 8 then some ⟨.rwi, .owner, m32, false⟩
  else if o = 0xC then some ⟨.wo, .owner, 1, false⟩
  else if o ≤ 0x2C then some RegInfo.ro
  else if o = 0x100 then some ⟨.rw, .owner, 1, false⟩
  else if o = 0x104 then some ⟨.wo, .owner, 0xFF, false⟩
  else if 0x100 ≤ o ∧ o ≤ 0x12C then some RegInfo.ro
  else none

/-- Logbook registers (Table 17.10). -/
def regBook (o : Nat) : Option RegInfo :=
  if o = 0xC then some (RegInfo.sel 0x1FFFFF)
  else if o = 0x10 then some (RegInfo.sel 0x3FFF)
  else if o ≤ 8 then some RegInfo.ro
  else if 0x80 ≤ o ∧ o < 0x100 then some RegInfo.ro
  else if 0x100 ≤ o ∧ o < 0x120 then some ⟨.rw, .owner, m32, false⟩
  else if o = 0x120 then some ⟨.wo, .owner, m32, false⟩
  else if 0x1000 ≤ o ∧ o < 0x2000 then some RegInfo.ro
  else none

/-- Update, attestation and wipe registers (Table 18.10). -/
def regUpdate (o : Nat) : Option RegInfo :=
  if o = 0 then some ⟨.wo, .owner, m32, false⟩
  else if o = 0xC then some ⟨.rw, .owner, 1, false⟩
  else if o ≤ 0x1C then some RegInfo.ro
  else if 0x100 ≤ o ∧ o < 0x120 then some ⟨.rw, .any, m32, true⟩
  else if o = 0x120 then some ⟨.wo, .any, 1, true⟩
  else if 0x124 ≤ o ∧ o ≤ 0x12C then some RegInfo.ro
  else if o = 0x200 then some ⟨.wo, .owner, 1, false⟩
  else if o = 0x204 ∨ o = 0x208 then some RegInfo.ro
  else if 0x4000 ≤ o ∧ o < 0x7000 then some RegInfo.ro
  else if 0x10000 ≤ o ∧ o < 0x20000 then some ⟨.rw, .owner, m32, false⟩
  else none

/-- The register at an offset of BAR0 (Table 16.1); none at an undefined offset. -/
def regInfo (off : Nat) : Option RegInfo :=
  if off % 4 ≠ 0 then none
  else if off < 0x2000 then regGlobal off
  else if off < 0x3000 then regGuard (off - 0x2000)
  else if off < 0x4000 then regTiers (off - 0x3000)
  else if off < 0x10000 then regSeqs (off - 0x4000)
  else if off < 0x100000 then regCsets (off - 0x10000)
  else if off < 0x100000 + 0x1000 * 81 then regField ((off - 0x100000) % 0x1000)
  else if off < 0x200000 then none
  else if off < 0x220000 then regLinks (off - 0x200000)
  else if off < 0x230000 then regColl (off - 0x220000)
  else if off < 0x300000 then regStreams (off - 0x230000)
  else if off < 0x400000 then regHost (off - 0x300000)
  else if off < 0x500000 then regHeat (off - 0x400000)
  else if off < 0x580000 then regMedia (off - 0x500000)
  else if off < 0x582000 then regPlayout ((off - 0x580000) / 0x1000) (off % 0x1000)
  else if off < 0x600000 then none
  else if off < 0x700000 then regTrim (off - 0x600000)
  else if off < 0x780000 then regBook (off - 0x700000)
  else regUpdate (off - 0x780000)

/-- Offset of a sequence's register set (R211). -/
def seqBase (n : Nat) : Nat := 0x4000 + 0x40 * n

/-- The context that owns a sequence (Table 7.5). -/
def State.seqCx (s : State) (n : Nat) : Nat := bits (s.reg (seqBase n)) 7 4

/-- Offset of a landing entry (R295). -/
def landBase (i : Nat) : Nat := 0x204000 + 0x10 * i

/-- Offset of a link stream's register set (R341). -/
def streamBase (n : Nat) : Nat := 0x230000 + 0x20 * n

/-- Offset of a playout port's register set (R423). -/
def poBase (p : Nat) : Nat := 0x580000 + 0x1000 * p

/-- Whether the writer is the port of a context (R347). -/
def State.isCxPort (s : State) (n : Nat) : Writer → Bool
  | .port p => s.cxPort n == p.val
  | .tool => false

/-- Whether a writer may write a register with a given right; `v` is the value it writes (a landing entry's LD_CTRL, and
a stream that a port enables for its own context). -/
def State.mayWrite (s : State) (w : Writer) (r : Right) (v : Nat) : Bool :=
  match r with
  | .any => decide (w ≠ .tool)
  | .owner => s.isOwner w
  | .cx n => s.isCxPort n w
  | .recipe => match s.recipeCtx with
    | none => false
    | some n => s.isCxPort n w
  | .seqOwner n => s.isCxPort (s.seqCx n) w
  | .landing i =>
    let c := s.reg (landBase i)
    s.isOwner w || (if bit c 0 then s.isCxPort (bits c 4 1) w else decide (w ≠ .tool))
  | .stream n =>
    let c := s.reg (streamBase n)
    if bit c 0 then s.isCxPort (bits c 4 1) w
    else if bit v 0 then s.isCxPort (bits v 4 1) w
    else decide (w ≠ .tool)
  | .streamRest n =>
    let c := s.reg (streamBase n)
    if bit c 0 then s.isCxPort (bits c 4 1) w else decide (w ≠ .tool)
  | .hostPort p => decide (w = .port 0 ∧ p = 0 ∨ w = .port 1 ∧ p = 1 ∨ w = .port 2 ∧ p = 2 ∨ w = .port 3 ∧ p = 3)

/-- Whether a playout port's stream is HEVC, by its PO_CFG (R439). -/
def State.poHevc (s : State) (p : Nat) : Bool :=
  let c := s.reg (poBase p)
  bit c 0 && fld (s.mstream (bits c 14 9)).record 19 18 == 1

/-- A value's field [hi:lo] replaced. -/
def setFld (v hi lo x : Nat) : Nat := v - bits v hi lo * 2 ^ lo + x * 2 ^ lo

/-- A field of a value clamped into a range (R439). -/
def clampFld (v hi lo a b : Nat) : Nat := setFld v hi lo (clampTo a b (bits v hi lo))

/-- The clamped fields of Table 16.8: the value in effect of a value written at an offset. -/
def State.clampReg (s : State) (off v : Nat) : Nat :=
  if off = 0x2010 then clampFld v 9 0 0 512
  else if 0x2100 ≤ off ∧ off < 0x2140 then
    v % 2 ^ ((match s.package with | some k => k.recipes.length | none => 0) - 8 * (off - 0x2100))
  else if off = 0x3010 then clampFld (clampFld v 3 0 1 15) 23 8 10 10000
  else if off = 0x3014 then clampFld v 5 0 1 60
  else if 0x3100 ≤ off ∧ off < 0x3200 ∧ off % 16 = 8 then clampFld v 10 0 0 1024
  else if 0x3100 ≤ off ∧ off < 0x3200 ∧ off % 16 = 12 then clampFld v 22 0 0 4194304
  else if 0x4000 ≤ off ∧ off < 0x4200 ∧ off % 64 = 0 then clampFld v 15 8 1 255
  else if 0x4000 ≤ off ∧ off < 0x4200 ∧ off % 64 = 0x18 then clampFld v 24 0 0 16777216
  else if off = 0x20000C then clampFld (clampFld v 7 0 1 255) 15 8 1 255
  else if off = 0x200010 then clampFld v 12 0 1000 8000
  else if 0x230000 ≤ off ∧ off < 0x232000 ∧ off % 32 = 0 then clampFld v 25 16 1 512
  else if 0x310000 ≤ off ∧ off < 0x320000 ∧ off % 0x1000 = 0x10 then
    (if bits v 13 0 = 0 then v else clampFld v 13 0 10 10000)
  else if 0x310000 ≤ off ∧ off < 0x320000 ∧ 0x40 ≤ off % 0x1000 ∧ off % 0x1000 < 0xC0 ∧ off % 32 = 0x14 then
    clampFld v 15 8 1 255
  else if off = 0x400004 then clampFld v 7 0 40 200
  else if off = 0x400008 then clampFld v 16 0 100 100000
  else if off = 0x500004 then clampFld v 13 0 64 8160
  else if 0x580000 ≤ off ∧ off < 0x582000 then
    (if off % 0x1000 = 0x28 then
      clampFld (clampFld v 23 8 200 20000) 7 0 0 (if s.poHevc ((off - 0x580000) / 0x1000) then 15 else 255)
    else if off % 0x1000 = 0x2C then clampFld v 19 0 0 1000000
    else if off % 0x1000 = 0x30 then clampFld v 13 0 576 9000
    else if off % 0x1000 = 0x24 then clampFld v 29 22 1 255
    else v)
  else v

/-- The registers the service tool may write over MCTP (R510). -/
def toolMay (off : Nat) : Bool :=
  off == 0x780000 || off == 0x78000C || (decide (0x790000 ≤ off) && decide (off < 0x7A0000)) ||
    (decide (0x780100 ≤ off) && decide (off ≤ 0x780120)) || off == 0x600104 || off == 0x1028 || off == 0x102C

/-- The same with the limits of a recovery boot (R513). -/
def State.toolWrites (s : State) (off : Nat) : Bool :=
  toolMay off && !(s.module.recovery && (off == 0x78000C || off == 0x600104 || off == 0x1028))

/-- Whether a party can reach the registers: a host port with its link up; the service tool once the MGC answers and the
module has taken an I3C address (R509 to R511). -/
def State.reaches (s : State) : Writer → Bool
  | .port p => s.portUp p
  | .tool => (s.module.phase == .go || s.module.phase == .tripped) && s.module.i3cAddr.isSome

/-- A register write by a party that reaches the registers: without the right to it nothing happens but 0x0A04 in the writing port's GL_CFG_ERR
(R428); `f` is the effect of a permitted write. -/
def State.guarded (s : State) (w : Writer) (off v : Nat) (f : State → State) : State :=
  if !s.reaches w then s else
  match w with
  | .tool => if s.toolWrites off then f s else s
  | .port _ =>
    match regInfo off with
    | none => s.cfgErr w 4 off
    | some i => if s.mayWrite w i.right v then f s else s.cfgErr w 3 off

end Sys2Proof.Machine
end

