-- ==== Sys2Proof/Machine/Mem.lean ====
section
/-!
DEFINITION. Context virtual addresses (R233 to R246), KV pages and frames (R181 to R195), quotas (R254), infield
allocations (R249), and the two transfers every command uses: a read and a write of a range of addresses.
-/

namespace Sys2Proof.Machine

open Sys2Proof

/-! ### Sizes -/

/-- H in MiB: the heat cache (R248). -/
def State.heatMib (s : State) : Nat := match s.package with | some p => bits p.header 201 195 | none => 0

/-- PK_WIN in pages (R234). -/
def State.pkWin (s : State) : Nat := match s.package with | some p => bits p.header 326 304 | none => 0

/-- Frame units of the resident package, and its frame size in bytes (R185). -/
def State.frameUnits (s : State) : Nat := match s.package with | some p => bits p.header 214 202 | none => 0
def State.frameBytes (s : State) : Nat := 65536 * s.frameUnits

/-! ### Infield allocations (R248, R249) -/

/-- The allocations of the resident package. -/
def State.allocs (s : State) : List Nat := match s.package with | some p => p.allocs | none => []

/-- An allocation's lines: the first and one above the last. -/
def allocSpan (a : Nat) : Nat × Nat := (bits a 19 0, bits a 19 0 + bits a 39 20)

/-- Whether a context may read or write an allocation. -/
def allocMay (cx : Nat) (write : Bool) (a : Nat) : Bool := bit a (if write then 96 + cx else 80 + cx)

/-- The allocation that holds a whole run of lines and that the context may use. -/
def State.allocFor (s : State) (cx : Nat) (write : Bool) (line n : Nat) : Option Nat :=
  s.allocs.find? fun a => allocMay cx write a && decide ((allocSpan a).1 ≤ line) && decide (line + n ≤ (allocSpan a).2)

/-- Whether every line of a run lies in some allocation that the context may use. -/
def coverLines (allocs : List Nat) (cx : Nat) (write : Bool) : Nat → Nat → Nat → Bool
  | 0, _, n => n == 0
  | fuel + 1, line, n =>
    if n = 0 then true else
    match allocs.find? fun a => allocMay cx write a && decide ((allocSpan a).1 ≤ line) && decide (line < (allocSpan a).2) with
    | none => false
    | some a => coverLines allocs cx write fuel (allocSpan a).2 (n - ((allocSpan a).2 - line))

/-- A context may read or write `n` lines from a line on (R249). -/
def State.linesOk (s : State) (cx : Nat) (write : Bool) (line n : Nat) : Bool := coverLines s.allocs cx write 65 line n

/-- The same of `n` bytes from an infield byte address on. -/
def State.bytesOk (s : State) (cx : Nat) (write : Bool) (addr n : Nat) : Bool :=
  n == 0 || s.linesOk cx write (addr / 128) ((addr + n - 1) / 128 - addr / 128 + 1)

/-! ### Quotas and stack pages (R242, R254) -/

/-- Heat units charged to a context; index 16: pages charged to the package. -/
def State.usedOf (s : State) (n : Nat) : Nat := tget s.tiers.used n 0

def State.setUsed (s : State) (n v : Nat) : State :=
  { s with tiers := { s.tiers with used := tput s.tiers.used n v 0 } }

/-- Whether a charge of `units` fits the quota of an account (R254). -/
def State.quotaOk (s : State) (acc units : Nat) : Bool :=
  if acc = 16 then decide (s.usedOf 16 + cdiv units 32 ≤ s.reg 0x3004)
  else decide (s.usedOf acc + units ≤ s.reg (0x3100 + 16 * acc))

/-- A charge made, in heat units for a context, in pages for the package. -/
def State.charge (s : State) (acc units : Nat) : State :=
  s.setUsed acc (s.usedOf acc + (if acc = 16 then cdiv units 32 else units))

/-- A charge credited. -/
def State.credit (s : State) (acc units : Nat) : State :=
  s.setUsed acc (s.usedOf acc - (if acc = 16 then cdiv units 32 else units))

/-- Slots of a rank's frame area that hold an allocated frame (R241). -/
def State.usedSlots (s : State) (rank : Nat) : List Nat :=
  (s.kv.shares.filter fun p => p.1 % 75 == rank).map fun p => p.1 / 75

/-- Frame-area pages that a list of slots takes: the pages covering their bytes. -/
def slotPages (units : Nat) (slots : List Nat) : Nat :=
  (slots.foldl (fun acc k =>
    (List.range (cdiv ((k + 1) * units) 32 - k * units / 32)).foldl (fun a i => sput a (k * units / 32 + i)) acc) []).length

/-- Stack pages of a rank's working tier that are neither reserved, nor allocated, nor in the frame area (R242). -/
def State.freePages (s : State) (rank : Nat) : Nat :=
  ((96 - s.weightGib) * 512 - 64) - (s.tiers.pages.filter fun k => k / 65536 == rank).length
    - slotPages s.frameUnits (s.usedSlots rank)

/-- The lowest free stack page index of a rank, from `i` on. -/
def findPage (taken : List Nat) (rank : Nat) : Nat → Nat → Nat
  | 0, i => i
  | fuel + 1, i => if taken.contains (65536 * rank + i) then findPage taken rank fuel (i + 1) else i

/-- Store bytes from a key on read zero and lose their poison: a page or frame when it is backed (DESIGN CHOICE, the
log's entry 9). -/
def State.storeClear (s : State) (k n : Nat) : State :=
  { s with memory := { s.memory with
      store := tdrop s.memory.store k (k + n)
      poisonWords := s.memory.poisonWords.filter fun w => !(decide (k ≤ w * 64) && decide (w * 64 < k + n)) } }

/-- A free page of a rank's stack taken: the page index. -/
def State.takePage (s : State) (rank : Nat) : Option (State × Nat) :=
  if s.freePages rank = 0 then none else
  let i := findPage s.tiers.pages rank 65536 64
  let t := s.storeClear (stackKey rank (2097152 * i)) 2097152
  some ({ t with tiers := { t.tiers with pages := sput t.tiers.pages (65536 * rank + i) } }, i)

/-- The first rank from `rank` on, modulo 75, whose stack has a free page (R240). -/
def State.takePageFrom (s : State) (rank : Nat) : Option (State × Nat × Nat) :=
  match (List.range 75).find? fun i => s.freePages ((rank + i) % 75) != 0 with
  | none => none
  | some i => match s.takePage ((rank + i) % 75) with
    | none => none
    | some (t, p) => some (t, (rank + i) % 75, p)

/-- A stack page returned to the pool. -/
def State.freePage (s : State) (k : Nat) : State :=
  { s with tiers := { s.tiers with pages := s.tiers.pages.filter fun p => p != k } }

/-! ### Translation entries (Table 9.2) -/

/-- The translation table of an address: the context's, or 16, the package's, and the page number. -/
def entryKey (tab va : Nat) : Nat := 134217728 * tab + va / 2097152

def State.entry (s : State) (k : Nat) : Nat := tget s.tiers.entries k 0

def State.setEntry (s : State) (k v : Nat) : State :=
  { s with tiers := { s.tiers with entries := tput s.tiers.entries k v 0 } }

/-- An entry's word (R235). -/
def entryWord (writeOk backed : Bool) (kind placement rank page : Nat) : Nat :=
  2 ^ 63 + 2 ^ 62 * b2n writeOk + 2 ^ 61 * b2n backed + 2 ^ 59 * kind + 2 ^ 57 * placement + 2 ^ 50 * rank + page

/-- The spaces of Table 9.1. -/
inductive Space where
  /-- A translation table: a context's, or 16 for the package's. -/
  | table (tab : Nat)
  /-- A sequence region: the sequence and the byte offset in it. -/
  | region (seq off : Nat)
  | outside
  deriving DecidableEq, Repr

/-- Base and page count of a sequence's region (R182). -/
def State.seqRegion (s : State) (q : Nat) : Nat :=
  s.reg (seqBase q + 4) + 4294967296 * s.reg (seqBase q + 8)
def State.seqLayers (s : State) (q : Nat) : Nat := bits (s.reg (seqBase q)) 15 8
def State.seqPages (s : State) (q : Nat) : Nat := s.reg (seqBase q + 0xC)

/-- The size of a region in bytes, rounded up to 2 MiB (R182). -/
def State.regionBytes (s : State) (q : Nat) : Nat :=
  cdiv (s.seqLayers q * s.seqPages q * s.frameBytes) 2097152 * 2097152

/-- The space a context's address lies in (R233). -/
def State.space (s : State) (cx va : Nat) : Space :=
  if va / 2097152 < s.reg (0x310C + 16 * cx) then .table cx
  else if 2 ^ 47 ≤ va ∧ va < 2 ^ 47 + 2097152 * s.pkWin then .table 16
  else
    match (List.range 8).find? fun q => (s.seq q).enabled && s.seqCx q == cx &&
        decide (s.seqRegion q ≤ va) && decide (va < s.seqRegion q + s.regionBytes q) with
    | some q => .region q (va - s.seqRegion q)
    | none => .outside

/-- Where weight byte `wa` lives: the rank and its stack address (R245). -/
def locateWeight (p wa : Nat) : Nat × Nat :=
  let stripe := wa / 53248
  let rest := wa % 53248
  let g := stripe % 5
  let k := stripe / 5
  (15 * g + (rest / 4096 + k) % 15, 1073741824 * (96 - p) + 4096 * k + rest % 4096)

/-! ### KV pages (R182 to R195) -/

def kvKey (q i : Nat) : Nat := 16777216 * q + i

/-- A KV page table entry (Table 7.1). -/
def State.kvEntry (s : State) (q i : Nat) : Nat := tget s.kv.table (kvKey q i) 0

def State.setKvEntry (s : State) (q i v : Nat) : State :=
  { s with kv := { s.kv with table := tput s.kv.table (kvKey q i) v 0 } }

def kvValid (e : Nat) : Bool := bit e 63
def kvWriteOk (e : Nat) : Bool := bit e 62
def kvFreeing (e : Nat) : Bool := bit e 61
def kvFree (e : Nat) : Nat := bits e 52 21
def kvFrame (e : Nat) : Nat := bits e 20 0

/-- An entry's word. -/
def kvWord (writeOk : Bool) (frame : Nat) : Nat := 2 ^ 63 + 2 ^ 62 * b2n writeOk + frame

/-- The share count of a frame. -/
def State.shareOf (s : State) (f : Nat) : Share := tget s.kv.shares f ⟨0, 0⟩

def State.setShare (s : State) (f : Nat) (v : Share) : State :=
  { s with kv := { s.kv with shares := tput s.kv.shares f v ⟨0, 0⟩ } }

/-- One share-count update applied (R187). -/
def State.applyShare (s : State) (u : ShareUpdate) : State :=
  let c := s.shareOf u.frame
  s.setShare u.frame ⟨(c.map + u.map).toNat, (c.hold + u.hold).toNat⟩

/-- Every queued update applied, in arrival order: a test at a field controller comes after every update that arrived
before it (R187). -/
def State.drainShares (s : State) : State :=
  s.kv.updates.foldl State.applyShare { s with kv := { s.kv with updates := [] } }

/-- A share-count update sent to its field controller. -/
def State.pushShare (s : State) (f : Nat) (map hold : Int) : State :=
  { s with kv := { s.kv with updates := s.kv.updates ++ [⟨f, map, hold⟩] } }

/-- Whether a free frame can be backed: its slot's pages lie in the frame area or the pool can supply them (R241). -/
def State.frameFits (s : State) (f : Nat) : Bool :=
  let rank := f % 75
  let slots := s.usedSlots rank
  decide (slotPages s.frameUnits (sput slots (f / 75)) ≤ slotPages s.frameUnits slots + s.freePages rank)

/-- The lowest free slot of a rank's frame area, from `k` on; 16384 where there is none (R185). -/
def findSlot (used : List Nat) : Nat → Nat → Nat
  | 0, k => k
  | fuel + 1, k => if used.contains k then findSlot used fuel (k + 1) else k

/-- The lowest free frame of a rank. -/
def State.frameOn (s : State) (rank : Nat) : Option Nat :=
  let k := findSlot (s.usedSlots rank) 16384 0
  if k < 16384 ∧ s.frameFits (k * 75 + rank) then some (k * 75 + rank) else none

/-- The frame that backing for a rank takes: its own rank's, else the next rank's in ascending order (R241). -/
def State.pickFrame (s : State) (rank : Nat) : Option Nat :=
  (List.range 75).findSome? fun i => s.frameOn ((rank + i) % 75)

/-- The lowest issue number of a sequence not yet released (R188). -/
def State.seqLow (s : State) (q : Nat) : Nat := let sq := s.seq q; sq.pinned.headD sq.issue

/-- A command's issue number in a sequence; the next one where it holds no pin. -/
def State.issueOf (s : State) (id : CmdId) (q : Nat) : Nat :=
  match s.cmd? id with
  | none => (s.seq q).issue
  | some c => match c.pins.find? fun p => p.1 == q with
    | some p => p.2
    | none => (s.seq q).issue

/-- Whether issue number `a` comes before `b`, modulo 2^32. -/
def before (a b : Nat) : Bool := idxAbove b a

/-! ### One address -/

/-- What an address holds for a reader or a writer. -/
inductive Place where
  /-- A mapped page without storage: its translation table and the address. -/
  | zero (tab va : Nat)
  /-- A store byte. -/
  | at (key : Nat)
  /-- A word of a page table (R186): its entry key and the byte in it. -/
  | pageTable (k b : Nat)
  | bad (status : Nat)
  deriving DecidableEq, Repr

/-- The enabled sequence whose page table holds an address of its owning context (R186). -/
def State.tableAt (s : State) (cx va : Nat) : Option (Nat × Nat) :=
  (List.range 8).findSome? fun q =>
    let base := s.reg (seqBase q + 0x10) + 4294967296 * s.reg (seqBase q + 0x14)
    if (s.seq q).enabled && s.seqCx q == cx && decide (base ≤ va) && decide (va < base + 8 * (s.seqLayers q * s.seqPages q))
    then some (q, va - base) else none

/-- Whether a page's entry is live for a command: valid, and not freeing or freed after the command's issue (R189). -/
def State.kvLive (s : State) (id : CmdId) (q i : Nat) : Bool :=
  let e := s.kvEntry q i
  kvValid e && (!kvFreeing e || before (s.issueOf id q) (kvFree e))

/-- The frame a page translates to for a command's reads: the one of its first touch, else the entry's (R189). -/
def State.frameFor (s : State) (id : CmdId) (q i : Nat) : Option Nat :=
  match (s.cmd? id).bind fun c => c.frames.find? fun p => p.1 == kvKey q i with
  | some p => some p.2
  | none => if s.kvLive id q i then some (kvFrame (s.kvEntry q i)) else none

/-- A command has touched an address: the frame of a KV page stays the command's for its reads (R189). -/
def State.keepFrame (s : State) (id : CmdId) (va : Nat) : State :=
  match s.space id.cx va with
  | .region q o =>
    match s.frameFor id q (o / s.frameBytes) with
    | some f => s.modCmd id fun c =>
        if c.frames.any fun p => p.1 == kvKey q (o / s.frameBytes) then c
        else { c with frames := c.frames ++ [(kvKey q (o / s.frameBytes), f)] }
    | none => s
  | _ => s

/-- A rank whose stack is STOPPED serves nothing (R264). -/
def State.stopped (s : State) (rank : Nat) : Bool := (s.stack rank).mode == .stopped

/-- The place of an address for a read by a command (R189, R191, R239, R264). -/
def State.readPlace (s : State) (id : CmdId) (va : Nat) : Place :=
  match s.tableAt id.cx va with
  | some (q, o) => .pageTable (kvKey q (o / 8)) (o % 8)
  | none =>
  match s.space id.cx va with
  | .outside => .bad 0x0302
  | .table tab =>
    let e := s.entry (entryKey tab va)
    if !bit e 63 then .bad 0x0303
    else if !bit e 61 then .zero tab va
    else if bits e 60 59 = 1 then
      let (rank, a) := locateWeight s.weightGib (2097152 * bits e 21 0 + va % 2097152)
      .at (stackKey rank a)
    else if s.stopped (bits e 56 50) then .bad 0x030A
    else .at (stackKey (bits e 56 50) (2097152 * bits e 21 0 + va % 2097152))
  | .region q o =>
    let i := o / s.frameBytes
    if s.seqLayers q * s.seqPages q ≤ i then .bad 0x0302
    else
      match s.frameFor id q i with
      | none => .bad 0x0331
      | some f => if s.stopped (f % 75) then .bad 0x030A else .at (frameKey f (o % s.frameBytes))

/-! ### Ranges -/

/-- A range cut at every aligned 4 KiB: pieces of one page, one frame and one weight unit each. -/
def segs : Nat → Nat → Nat → List (Nat × Nat)
  | 0, _, _ => []
  | fuel + 1, va, n =>
    if n = 0 then [] else
    let k := min n (4096 - va % 4096)
    (va, k) :: segs fuel (va + k) (n - k)

def segsOf (va n : Nat) : List (Nat × Nat) := segs (n / 4096 + 2) va n

/-- The poison mark of each byte of a read. -/
abbrev Marked := List (Byte × Bool)

/-- A byte of a mapped page without storage: zero, or undefined since a command that could not complete would have
written it (R239). -/
def State.zeroByte (s : State) (tab va : Nat) : Byte :=
  match s.tiers.spoils.find? fun p => p.1 == tab && decide (p.2.1 ≤ va) && decide (va < p.2.1 + p.2.2.1) with
  | some p => Config.freeByte (p.2.2.2 + (va - p.2.1))
  | none => 0

/-- The bytes of one piece, each with its poison mark. -/
def State.readPiece (s : State) (p : Place) (n : Nat) : Marked :=
  match p with
  | .zero tab va => (List.range n).map fun i => (s.zeroByte tab (va + i), false)
  | .at k => (List.range n).map fun i => (s.storeByte (k + i), s.storePoisoned (k + i))
  | .pageTable k b => (List.range n).map fun i =>
      let j := b + i
      (nth (toBytes 8 (tget s.kv.table (k + j / 8) 0)) (j % 8) 0, false)
  | _ => List.replicate n (0, false)

/-- A read of a range of addresses by a command: the first failing status (0 for none) and the bytes with their marks. -/
def State.cvaRead (s : State) (id : CmdId) (va n : Nat) : Nat × Marked :=
  (segsOf va n).foldl (fun acc p =>
    if acc.1 ≠ 0 then acc else
    match s.readPlace id p.1 with
    | .bad st => (st, [])
    | w => (0, acc.2 ++ s.readPiece w p.2)) (0, [])

/-- The bytes alone. -/
def unmark (l : Marked) : List Byte := l.map Prod.fst

/-- Whether any byte of a read is poison. -/
def anyPoison (l : Marked) : Bool := l.any Prod.snd

/-- A read of infield bytes with their marks. -/
def State.infMarked (s : State) (rank addr n : Nat) : Marked :=
  (List.range n).map fun i => (s.infByte rank (addr + i), s.memory.poisonLines.contains (infKey rank (addr + i) / 128))

/-- A write of marked bytes into a rank's infield: the lines of poisoned bytes take the mark (R447). -/
def State.infWriteMarked (s : State) (rank addr : Nat) (l : Marked) : State :=
  let t := s.infWrite rank addr (unmark l)
  (l.zipIdx).foldl (fun u p => if p.1.2 then u.markLine (infKey rank (addr + p.2) / 128) else u) t

/-- Marked bytes into consecutive store keys: the codewords of poisoned bytes take the mark (R447). -/
def State.storeWriteMarked (s : State) (k : Nat) (l : Marked) : State :=
  let t := s.storeWrite k (unmark l)
  (l.zipIdx).foldl (fun u p => if p.1.2 then u.poisonWord (k + p.2) else u) t

/-- A write to a working-tier stack: landed, or held while the stack is CRITICAL (R263, R264). -/
def State.stackWrite (s : State) (id : CmdId) (k : Nat) (l : Marked) : State :=
  if (s.stack (keyRank k)).mode = .critical then
    { s with tiers := { s.tiers with heldWrites := s.tiers.heldWrites ++
        (l.zipIdx.map fun p => ⟨keyRank k, k + p.2, p.1.1, p.1.2, id⟩) } }
  else s.storeWriteMarked k l

/-- A frame backed for a page (R190): the frame, or none where the quota or the pool cannot supply it. -/
def State.backFrame (s : State) (cx rank q : Nat) : Option (State × Nat) :=
  let s := s.drainShares
  if !s.quotaOk cx s.frameUnits then none else
  match s.pickFrame rank with
  | none => none
  | some f =>
    let t := (s.charge cx s.frameUnits).storeClear (frameKey f 0) s.frameBytes
    let sq := t.seq q
    some (t.setSeq q { sq with frames := sq.frames + 1 }, f)

/-- The copy on write in progress on an entry. -/
def State.cowOn (s : State) (q i : Nat) : Option Cow := s.kv.cows.find? fun c => c.seq == q && c.entry == i

/-- A write of one piece of a KV page (R190 to R192). -/
def State.kvWrite (s : State) (id : CmdId) (rank q o : Nat) (l : Marked) : State × Nat :=
  let i := o / s.frameBytes
  let e := s.kvEntry q i
  let b := o % s.frameBytes
  let live := s.kvLive id q i
  if s.seqLayers q * s.seqPages q ≤ i then (s, 0x0302)
  else if bit (s.reg (seqBase q)) 1 || (live && !kvWriteOk e) then (s, 0x0333)
  else if !live then
    match s.backFrame id.cx rank q with
    | none => (s, 0x0332)
    | some (t, f) =>
      let t := (t.setShare f ⟨1, 0⟩).setKvEntry q i (kvWord true f)
      (if s.stopped (f % 75) then (t, 0x030A) else (t.stackWrite id (frameKey f b) l, 0))
  else
    match s.cowOn q i with
    | some c =>
      let more := l.zipIdx.map fun p => (b + p.2, p.1)
      let cows := modFirst (fun x => x == c) (fun x => { x with bytes := x.bytes ++ more }) s.kv.cows
      ({ s with kv := { s.kv with cows := cows } }, 0)
    | none =>
      let s := s.drainShares
      let f := kvFrame e
      let c := s.shareOf f
      if c.map + c.hold ≤ 1 then
        (if s.stopped (f % 75) then (s, 0x030A) else (s.stackWrite id (frameKey f b) l, 0))
      else
        match s.backFrame id.cx rank q with
        | none => (s, 0x0332)
        | some (t, g) =>
          let t := (t.setShare f ⟨c.map - 1, c.hold + 1⟩).setShare g ⟨1, 0⟩
          ({ t with kv := { t.kv with cows := t.kv.cows ++
              [⟨q, i, f, g, id, (l.zipIdx.map fun p => (b + p.2, p.1))⟩] } }, 0)

/-- Undefined bytes of a page stand in its storage once it has some. -/
def State.landSpoils (s : State) (tab va rank page : Nat) : State :=
  let mine := fun (p : Nat × Nat × Nat × Nat) => p.1 == tab && p.2.1 / 2097152 == va / 2097152
  let t : State := { s with tiers := { s.tiers with spoils := s.tiers.spoils.filter fun p => !mine p } }
  (s.tiers.spoils.filter mine).reverse.foldl (fun u p =>
    u.storeWrite (stackKey rank (2097152 * page + p.2.1 % 2097152)) (freeBytes p.2.2.2 p.2.2.1)) t

/-- A write of one piece through a translation table (R239, R240, R264). -/
def State.tableWrite (s : State) (id : CmdId) (rank tab va : Nat) (l : Marked) : State × Nat :=
  let k := entryKey tab va
  let e := s.entry k
  let land := fun (t : State) (r page : Nat) =>
    if t.stopped r then (t, 0x030A) else (t.stackWrite id (stackKey r (2097152 * page + va % 2097152)) l, 0)
  if !bit e 63 then (s, 0x0303)
  else if !bit e 62 || bits e 60 59 = 1 then (s, 0x0304)
  else if bit e 61 then land s (bits e 56 50) (bits e 21 0)
  else if !s.quotaOk tab 32 then (s, 0x0305)
  else
    match s.takePageFrom rank with
    | none => (s, 0x0305)
    | some (t, r, p) =>
      land (((t.charge tab 32).setEntry k (entryWord true true 0 (bits e 58 57) r p)).landSpoils tab va r p) r p

/-- A write of one piece by a command whose acting rank is `rank`. -/
def State.writeAt (s : State) (id : CmdId) (rank va : Nat) (l : Marked) : Space → State × Nat
  | .outside => (s, 0x0302)
  | .table tab => s.tableWrite id rank tab va l
  | .region q o => s.kvWrite id rank q o l

/-- The same, in the space its address lies in. -/
def State.pieceWrite (s : State) (id : CmdId) (rank va : Nat) (l : Marked) : State × Nat :=
  s.writeAt id rank va l (s.space id.cx va)

/-- The pieces of a range with their bytes. -/
def chunks : List (Nat × Nat) → Marked → List (Nat × Marked)
  | [], _ => []
  | (va, n) :: r, l => (va, l.take n) :: chunks r (l.drop n)

/-- A write of a range of addresses: pieces in ascending order up to the first failing one. -/
def State.cvaWrite (s : State) (id : CmdId) (rank va : Nat) (l : Marked) : State × Nat :=
  (chunks (segsOf va l.length) l).foldl (fun acc p =>
    if acc.2 ≠ 0 then acc else acc.1.pieceWrite id rank p.1 p.2) (s, 0)

/-- Unmarked bytes. -/
def clean (l : List Byte) : Marked := l.map fun b => (b, false)

/-- A write that must wait: a piece of the range lies on a freeing entry whose reclaim is due (R190), or under another
command's copy on write. -/
def State.writeWaits (s : State) (id : CmdId) (va n : Nat) : Bool :=
  (segsOf va n).any fun p =>
    match s.space id.cx p.1 with
    | .region q o =>
      let i := o / s.frameBytes
      let e := s.kvEntry q i
      (kvValid e && !s.kvLive id q i) ||
        (match s.cowOn q i with | some c => c.cmd != id | none => false)
    | _ => false

/-- Whether a range lies wholly in mapped and, for a write, writable pages (R239). -/
def State.mappedOk (s : State) (id : CmdId) (write : Bool) (va n : Nat) : Nat :=
  (segsOf va n).foldl (fun acc p =>
    if acc ≠ 0 then acc else
    match s.space id.cx p.1 with
    | .outside => 0x0302
    | .table tab =>
      let e := s.entry (entryKey tab p.1)
      if !bit e 63 then 0x0303 else if write && (!bit e 62 || bits e 60 59 == 1) then 0x0304 else 0
    | .region q o =>
      let e := s.kvEntry q (o / s.frameBytes)
      if write then (if bit (s.reg (seqBase q)) 1 || (kvValid e && !kvWriteOk e) then 0x0333 else 0)
      else if !kvValid e then 0x0331 else 0) 0

/-- One piece of a range that a command may write becomes undefined: in its storage, be the stack STOPPED; as bytes of a
mapped page without storage; not in a frame that another mapping needs, which no write of the command can have reached
before the end of its copy (R190, R192, R239, R264). -/
def State.havocPiece (s : State) (id : CmdId) (va n : Nat) : State :=
  match s.space id.cx va with
  | .outside => s
  | .table tab =>
    let e := s.entry (entryKey tab va)
    if bit e 61 then s.storeHavoc (stackKey (bits e 56 50) (2097152 * bits e 21 0 + va % 2097152)) n
    else { s with tiers := { s.tiers with spoils := (tab, va, n, s.draws) :: s.tiers.spoils }, draws := s.draws + n }
  | .region q o =>
    let f := kvFrame (s.kvEntry q (o / s.frameBytes))
    let c := s.drainShares.shareOf f
    if s.kvLive id q (o / s.frameBytes) && decide (c.map + c.hold ≤ 1) then s.storeHavoc (frameKey f (o % s.frameBytes)) n
    else s

/-- A range of addresses becomes undefined where the command may write it (R190, R239, R264). -/
def State.cvaHavoc (s : State) (id : CmdId) (va n : Nat) : State :=
  (segsOf va n).foldl (fun t p => if t.mappedOk id true p.1 p.2 ≠ 0 then t else t.havocPiece id p.1 p.2) s

/-- The sequences of a context whose regions a list of ranges touches (R188). -/
def State.pinsOf (s : State) (cx : Nat) (ranges : List (Nat × Nat)) : List Nat :=
  (List.range 8).filter fun q => (s.seq q).enabled && s.seqCx q == cx &&
    ranges.any fun r => r.2 != 0 && decide (r.1 < s.seqRegion q + s.regionBytes q) && decide (s.seqRegion q < r.1 + r.2)

/-- Whether a range touches the page table of an enabled sequence (R186). -/
def State.hitsTable (s : State) (cx va n : Nat) : Bool :=
  n != 0 && (List.range 8).any fun q =>
    let base := s.reg (seqBase q + 0x10) + 4294967296 * s.reg (seqBase q + 0x14)
    (s.seq q).enabled && s.seqCx q == cx && decide (va < base + 8 * (s.seqLayers q * s.seqPages q)) && decide (base < va + n)

/-! ### Reads that the tiers count -/

/-- The order in which a heat-cache unit is evicted before another: unreferenced first, then least recently read. -/
def HeatUnit.older (a b : HeatUnit) : Bool :=
  (a.unreferenced && !b.unreferenced) || (a.unreferenced == b.unreferenced && decide (a.lastRead < b.lastRead))

/-- The first unit to evict among those a test picks. -/
def heatVictim (pick : HeatUnit → Bool) (l : List HeatUnit) : Option HeatUnit :=
  (l.filter pick).foldl (fun acc u => match acc with
    | none => some u
    | some v => if u.older v then some u else acc) none

/-- One heat-cache unit placed in a rank's cache for a context (R251, R252). -/
def State.heatPlace (s : State) (rank cx unit : Nat) (unreferenced : Bool) : State :=
  let h := s.heatMib
  if h = 0 then s else
  let l := tget s.tiers.heat rank []
  let l := if s.reg (0x3108 + 16 * cx) ≤ (l.filter fun u => u.holder == cx).length then
      match heatVictim (fun u => u.holder == cx) l with
      | some v => l.erase v
      | none => l
    else l
  let sameSet := fun (u : HeatUnit) => u.unit % h == unit % h
  let l := if 16 ≤ (l.filter sameSet).length then
      match heatVictim sameSet l with
      | some v => l.erase v
      | none => l
    else l
  if s.reg (0x3108 + 16 * cx) = 0 then s else
  { s with tiers := { s.tiers with
      heat := tput s.tiers.heat rank (l ++ [⟨unit, cx, unreferenced, s.tiers.heatClock⟩]) []
      heatClock := s.tiers.heatClock + 1 } }

/-- A read of a heat unit of a rank's stack: its counter rises, a cached unit is marked read, and a read that may place
does so at the threshold (R251). -/
def State.heatRead (s : State) (rank cx unit : Nat) (place : Bool) : State :=
  let k := 4096 * rank + unit % 4096
  let n := min 15 (tget s.tiers.heatReads k 0 + 1)
  let t : State := { s with tiers := { s.tiers with heatReads := tput s.tiers.heatReads k n 0 } }
  let l := tget t.tiers.heat rank []
  if l.any fun u => u.unit == unit then
    { t with tiers := { t.tiers with
        heat := tput t.tiers.heat rank (modFirst (fun u => u.unit == unit)
          (fun u => { u with unreferenced := false, lastRead := t.tiers.heatClock }) l) []
        heatClock := t.tiers.heatClock + 1 } }
  else if place && decide (bits (s.reg 0x3010) 3 0 ≤ n) then t.heatPlace rank cx unit false
  else t

/-- The logical channel of a stack address (R243). -/
def channelOf (a : Nat) : Nat := bits (a >>> 8 ^^^ a >>> 14 ^^^ a >>> 20 ^^^ a >>> 26) 5 0

/-- The channel address of a stack address, A[36:14] and A[7:0] (R243). -/
def channelAddr (a : Nat) : Nat := bits a 36 14 * 256 + bits a 7 0

/-- The stack address of granule `i` of a logical channel, its channel addresses in ascending order: A[19:14], A[25:20] and
A[31:26] restore A[13:8] (R243). -/
def granuleAt (chan i : Nat) : Nat := i * 16384 + (chan ^^^ i % 64 ^^^ i / 64 % 64 ^^^ i / 4096 % 64) * 256

/-- A weight read of one 4 KiB piece that is rebuilt from its stripe: the stack is STOPPED or awaits its rebuild, or a
granule's channel retrains (R260, R264, R457). -/
def State.rebuilt (s : State) (k n : Nat) : Nat :=
  let r := keyRank k
  let st := s.stack r
  let g := cdiv (k % 256 + n) 256
  if st.mode = .stopped ∨ st.weightMissing then g
  else ((List.range g).filter fun i => st.retraining.contains (channelOf ((k - stackKey r 0) / 256 * 256 + i * 256))).length

/-- The counters and the heat cache after a read of `n` bytes of a stack for a context: `place` says whether the read's
class may place, and a CRITICAL stack serves every read as URGENT (R251, R253, R260). -/
def State.noteStack (s : State) (cx : Nat) (place : Bool) (k n : Nat) : State :=
  let r := keyRank k
  let st := s.stack r
  if s.isWeight k then s.setStack r { st with recon := sat32 (st.recon + s.rebuilt k n) }
  else s.heatRead r cx (if k < 281474976710656 then (k - stackKey r 0) / 65536 else k / 65536)
    (place || st.mode == .critical)

/-- The same after a read of a range by a command, which keeps the frames of the KV pages it has touched (R189). -/
def State.noteRead (s : State) (id : CmdId) (place : Bool) (va n : Nat) : State :=
  (segsOf va n).foldl (fun t p =>
    let t := t.keepFrame id p.1
    match t.readPlace id p.1 with
    | .at k => t.noteStack id.cx place k p.2
    | _ => t) s

/-- The same after a read of several ranges. -/
def State.noteReads (s : State) (id : CmdId) (place : Bool) (l : List (Nat × Nat)) : State :=
  l.foldl (fun t r => t.noteRead id place r.1 r.2) s

/-- Whether a context's reads are URGENT: it is of class LIVE (Table 9.5). -/
def State.isLive (s : State) (cx : Nat) : Bool := s.reg (0x400200 + 16 * cx) % 4 == 0

/-! ### The end of a command's work -/

/-- Whether writes of a command still wait for a copy on write or for a CRITICAL stack. -/
def State.writesDue (s : State) (id : CmdId) : Bool :=
  (s.kv.cows.any fun c => c.cmd == id) || s.tiers.heldWrites.any fun h => h.cmd == id

/-- A command's work ends with a status; its completion waits for its copies on write and held writes (R192, R264). -/
def State.endWork (s : State) (id : CmdId) (status result : Nat) : State :=
  if s.writesDue id then s.modCmd id fun c => { c with worked := true, status := status, result := result }
  else s.finish id status result

/-- A worked command whose last waiting write has landed completes; one with a hurdle, only once all ranks have arrived
there (R138). -/
def State.checkWork (s : State) (id : CmdId) : State :=
  match s.cmd? id with
  | some c =>
    let there := !(c.kind == 3 || c.kind == 4) || decide (75 ≤ c.arrived.length)
    if c.worked && there && !c.finished && !s.writesDue id then s.finish id c.status c.result else s
  | none => s

/-! ### Shape sources (Table 5.2) -/

/-- The 32-bit word a shape source names for a context, read at issue (R112, R121). -/
def State.shape (s : State) (cx src : Nat) : Nat :=
  if bits src 31 30 = 0 then bits src 29 0
  else if bits src 31 30 = 1 then s.reg (ctxBase cx + 0x100 + 4 * bits src 5 0)
  else s.infOpen 0 (bits src 19 0 * 128 + bits src 24 20 * 4) 4

/-- Whether a shape source breaks Table 5.2. -/
def shapeBad (src : Nat) : Bool :=
  bits src 31 30 == 3 || (bits src 31 30 == 1 && bits src 29 6 != 0) || (bits src 31 30 == 2 && bits src 29 25 != 0)

end Sys2Proof.Machine
end

