-- ==== Sys2Proof/Machine/LinkOps.lean ====
section
/-!
DEFINITION. What links and groups do whatever baton comes: queueing and routing (R284), a link that leaves service (R285,
R309), the abort of a group (R309), and the ends of a group's commands (R304, R314, R332).
-/

namespace Sys2Proof.Machine

open Sys2Proof

/-! ### The collective record (Table 11.4) -/

def collSrcVa (x : Line) : Nat := fld x 511 464
def collDstVa (x : Line) : Nat := fld x 463 416
def collLen (x : Line) : Nat := fld x 415 384
def collCap (x : Line) : Nat := fld x 383 352
def collSrcLine (x : Line) : Nat := fld x 351 332
def collDstLine (x : Line) : Nat := fld x 331 312
def collSrcRank (x : Line) : Nat := fld x 311 305
def collDstRank (x : Line) : Nat := fld x 304 298
def collOrigin (x : Line) : Nat := fld x 297 286
def collGroup (x : Line) : Nat := fld x 285 280
def collFmt (x : Line) : Nat := fld x 279 276
def collSrcKind (x : Line) : Nat := fld x 275 274
def collDstInf (x : Line) : Bool := flag x 273
def collStream (x : Line) : Nat := fld x 272 265
def collBitmap (x : Line) : Nat := fld x 264 262
def collBitmapEn (x : Line) : Bool := flag x 261
def collChunk (x : Line) : Nat := fld x 260 257
def collDropFail (x : Line) : Bool := flag x 256
def collOp (x : Line) : Nat := fld x 7 0

/-- Entries per baton of a link format, in header or packed mode (Table 10.8); 0 for a reserved format. -/
def linkEntries (fmt : Nat) (packed : Bool) : Nat :=
  if fmt = 0 then 64
  else if fmt = 1 then 128
  else if fmt = 3 ∨ fmt = 4 then (if packed then 224 else 256)
  else if fmt = 12 then 1600
  else 0

/-- A group of more than 64 members uses packed mode (R290). -/
def Group.packed (g : Group) : Bool := decide (64 < g.members.length)

/-- A group's message of a command changed by `f`. -/
def State.modMsg (s : State) (cx g : Nat) (number : Nat) (f : Message → Message) : State :=
  let r := s.group cx g
  s.setGroup cx g { r with msgs := modFirst (fun m => m.number == number) f r.msgs }

/-! ### Link streams (Table 12.3) -/

/-- A stream's context, group index and span in entries (Table 12.3). -/
def State.streamCx (s : State) (n : Nat) : Nat := bits (s.reg (streamBase n)) 4 1
def State.streamGroup (s : State) (n : Nat) : Nat := bits (s.reg (streamBase n)) 10 5
def State.streamSpan (s : State) (n : Nat) : Nat := 4096 * bits (s.reg (streamBase n)) 25 16

/-- The error memory's address (R330). -/
def State.streamErr (s : State) (n : Nat) : Nat := s.reg (streamBase n + 4) + 4294967296 * s.reg (streamBase n + 8)

/-- Whether a stream codes with error memory. -/
def State.streamErrEn (s : State) (n : Nat) : Bool := bit (s.reg (streamBase n)) 11

/-! ### Links -/

/-- The module's own ID (R283); 0xFFF means unset. -/
def State.moduleId (s : State) : Nat := s.reg 0x200000

/-- A link that carries batons: UP or DEGRADED. -/
def State.linkUp (s : State) (n : Nat) : Bool := (s.link n).mode == .up || (s.link n).mode == .degraded

/-- Receive slots of a channel's class (Table 10.6), by channel · 2 + class. -/
def vcSlots (k : Nat) : Nat := nth [32, 0, 1024, 0, 768, 768, 16, 16] k 0

/-- The credits of a link after training (R278). -/
def fullCredits : Tab Nat := [(0, 32), (2, 1024), (4, 768), (5, 768), (6, 16), (7, 16)]

/-- A baton joins the queue of its channel on a link. -/
def State.sendOn (s : State) (n : Nat) (b : BatonWord) : State :=
  let l := s.link n
  s.setLink n (
    if batVc b = 0 then { l with sprint := l.sprint ++ [b] }
    else if batVc b = 1 then { l with collective := l.collective ++ [b] }
    else if batVc b = 2 then { l with bulk := l.bulk ++ [b] }
    else { l with mgmt := l.mgmt ++ [(b, 0)] })

/-- The usable links of a destination's route entry, in ascending order; the module's own entry is ignored (R284). -/
def State.routeLinks (s : State) (dst : Nat) : List Nat :=
  if dst = s.moduleId then [] else
  let mask := s.reg (0x208000 + 8 * dst) + 4294967296 * s.reg (0x208004 + 8 * dst)
  (List.range 36).filter fun n => bit mask n && s.linkUp n

/-- dim and dateline of a link (LK_CTRL). -/
def State.linkDim (s : State) (n : Nat) : Nat := bits (s.reg (linkBase n)) 3 2
def State.linkDateline (s : State) (n : Nat) : Bool := bit (s.reg (linkBase n)) 4

/-- A routed baton set onto its way, from an arrival link or from this module itself: the link chosen, or none where the
entry has no usable link (R284). -/
def State.route (s : State) (arrival : Option Nat) (b : BatonWord) : Option (State × Nat) :=
  let l := s.routeLinks (batDst b)
  if l = [] then none else
  let n := nth l ((batDst b + batTag b) % l.length) 0
  let cls := if s.linkDateline n then 1
    else match arrival with
      | none => 0
      | some a => if s.linkDim a = s.linkDim n then batClass b else 0
  some (s.sendOn n (setBat b 77 77 cls), n)

/-- A routed baton made at this module: 48 hops (R284). -/
def State.routeNew (s : State) (kind dst tag offset detail : Nat) (last : Bool) (payload : List Byte) : Option (State × Nat) :=
  s.route none (BatonParts.word ⟨kind, 0, last, 0, 48, detail, dst, s.moduleId, tag, offset, 0, payload⟩)

/-- The state after a routed baton was sent, or the discard counted where no link could take it (R284). -/
def State.orDiscard (s : State) : Option (State × Nat) → State
  | some p => p.1
  | none => s.addSat 0x200014 1

/-- A routed baton answered by this module: without a usable link it is discarded and counted (R284). -/
def State.routeReply (s : State) (kind dst tag detail : Nat) : State :=
  s.orDiscard (s.routeNew kind dst tag 0 detail true [])

/-- What stands for the command of a landing: its context, and no ring. -/
def landingId (cx : Nat) : CmdId := ⟨cx, 4, 0⟩

/-- The DONEs that waited for a context's landings, once none of its landed bytes waits any more. -/
def State.donesGo (s : State) (cx : Nat) : State :=
  if s.writesDue (landingId cx) then s else
  let due := s.links.dones.filter fun d => d.cx == cx
  let t : State := { s with links := { s.links with dones := s.links.dones.filter fun d => d.cx != cx } }
  due.foldl (fun t d => t.routeReply 3 d.src d.tag d.status) t

/-! ### Bulk transfers at their source (R282, R285, R381) -/

/-- A transfer's record is gone. -/
def State.dropBulk (s : State) (b : Bulk) : State :=
  { s with links := { s.links with bulks := s.links.bulks.filter fun x => x.cmd != b.cmd } }

/-- Batons of a transfer queued at its link and not sent. -/
def State.bulkUnsent (s : State) (b : Bulk) : Nat :=
  ((s.link b.link).bulk.filter fun w => batKind w == 2 && batSrc w == s.moduleId && batDst w == b.dst && batTag w == b.tag).length

/-- A transfer whose next baton was sent over a link, or ended where no link could take it (R284, R285). -/
def State.bulkSent (s : State) (id : CmdId) (b : Bulk) : Option (State × Nat) → State
  | none => ((s.dropBulk b).addSat 0x200014 1).finish id 0x0402 0
  | some p =>
    { p.1 with links := { p.1.links with bulks := p.1.links.bulks.map fun x =>
        if x.cmd = id then { x with link := p.2, next := x.next + 1 } else x } }

/-- The next baton of a transfer is read and queued: a read that fails, poison, or the want of a usable link ends the
command (R284, R285, R448). -/
def State.bulkStep (s : State) (id : CmdId) : State :=
  match s.links.bulks.find? fun b => b.cmd == id with
  | none => s
  | some b =>
    let at_ := 256 * b.next
    let n := min 256 (b.len - at_)
    if b.len ≤ at_ ∨ 64 ≤ s.bulkUnsent b then s else
    match s.cvaRead id (b.va + at_) n with
    | (0, l) =>
      if anyPoison l then (s.dropBulk b).consumePoison id else
      s.bulkSent id b
        ((s.noteRead id (s.isLive id.cx) (b.va + at_) n).routeNew 2 b.dst b.tag b.next n (b.len ≤ at_ + 256) (unmark l))
    | (st, _) => (s.dropBulk b).finish id st 0

/-- A transfer of the context that holds the fields has up to 64 batons queued (Table 14.3). -/
def State.bulkFill (s : State) (id : CmdId) : State :=
  if s.sched.holder = some id.cx then iter 64 (fun _ t => t.bulkStep id) s else s

/-! ### Groups -/

/-- The parent of this member with the link to it; none at member 0 (R298). -/
def Group.parent (g : Group) : Option (Nat × Nat) :=
  if g.self = 0 then none else
  match g.members[g.self]? with
  | some m => some (m.parent, m.upLink)
  | none => none

/-- The tree neighbours, as (member, link): the parent, then the children. -/
def Group.neighbours (g : Group) : List (Nat × Nat) := g.parent.toList ++ g.kids

/-- The member across a link. -/
def Group.across (g : Group) (link : Nat) : Option Nat := (g.neighbours.find? fun p => p.2 == link).map Prod.fst

/-- The module ID of a member. -/
def Group.moduleOf (g : Group) (m : Nat) : Nat := ((g.members[m]?).map Member.module).getD 0

/-- Every group of every context, as (context, index). -/
def State.groupKeys (s : State) : List (Nat × Nat) := s.links.groups.map fun p => (p.1 / 64, p.1 % 64)

/-- Whether a group is ACTIVE or FORMING. -/
def Group.live (g : Group) : Bool := g.mode == .active || g.mode == .forming

/-- The live group of a baton's gid and generation bits (R302). -/
def State.findGroup (s : State) (gid gen : Nat) : Option (Nat × Nat) :=
  s.groupKeys.find? fun k =>
    let g := s.group k.1 k.2
    g.live && g.gid == gid && g.gen % 16384 == gen

/-- A sprint control baton of a group to a neighbour (Table 11.5). -/
def State.control (s : State) (g : Group) (to_ : Nat × Nat) (code msg : Nat) (payload : List Byte) : State :=
  s.sendOn to_.2 (BatonParts.word ⟨7, 0, true, 0, 0,
    (g.gen % 16384) * 2 ^ 41 + 2 ^ 38 * code + 2 ^ 34 * (msg % 16) + payload.length, g.moduleOf to_.1, s.moduleId, g.gid, 0, 0,
    payload⟩)

/-- Whether a nonzero end of a REDUCE spoils its stream's error memory: err_valid clears and the entries become undefined
(R332). -/
def State.spoilError (s : State) (m : Message) (status : Nat) : State :=
  if status = 0 || !m.coded then s else
  match s.cmd? m.cmd with
  | none => s
  | some c =>
    let n := collStream c.ext
    let t := s.cvaHavoc m.cmd (s.streamErr n) (4 * min m.len m.cap)
    t.setStream n { t.stream n with errValid := false }

/-- The time in ns since first power-on, on the module's own clock. -/
def State.nowNs (s : State) : Nat := 1000000000 * s.module.lifeSeconds + s.module.lifeNs

/-- The anchor or origin records the slowest member of a command (R314). -/
def Group.noteSlow (g : Group) (m : Message) : Group :=
  { g with
    slowMember := some m.slow
    slowWait := sat32 m.slowWait
    slowRepeat := if g.slowMember = some m.slow then sat32 (g.slowRepeat + 1) else 1 }

/-! ### Broadcasts at their origin (R308, R315) -/

/-- Batons of a broadcast's message (R308). -/
def castBatons (m : Message) : Nat := if m.op = 3 then 1 else cdiv m.cap 256

/-- Bytes of a collective command's own source, from an offset, with their marks. -/
def State.collRead (s : State) (id : CmdId) (x : Line) (off n : Nat) : Nat × Marked :=
  if collSrcKind x = 2 then (0, s.infMarked (collSrcRank x) (collSrcLine x * 128 + off) n)
  else s.cvaRead id (collSrcVa x + off) n

/-- That read counted; it is of class URGENT (Table 9.5). -/
def State.collNote (s : State) (id : CmdId) (x : Line) (off n : Nat) : State :=
  if collSrcKind x = 0 then s.noteRead id true (collSrcVa x + off) n else s

/-- One baton of the origin's message (Tables 11.5 and 11.7). -/
def castBaton (s : State) (g : Group) (m : Message) (x : Line) (to_ i : Nat) (bytes : List Byte) : BatonWord :=
  if m.op = 3 then
    BatonParts.word ⟨7, 0, true, 0, 0, 2 ^ 41 * (g.gen % 16384) + 2 ^ 34 * (m.number % 16) + 2 ^ 27 * collDstRank x
      + collDstLine x * 2 ^ 7 + bytes.length, g.moduleOf to_, s.moduleId, g.gid, 0, 0, bytes⟩
  else
    BatonParts.word ⟨6, 0, i + 1 == castBatons m, 0, 0, 2 ^ 48 * (g.gen % 16384) + 2 ^ 44 * collChunk x
      + 2 ^ 43 * b2n (collBitmapEn x) + 2 ^ 40 * collBitmap x + 2 ^ 36 * (m.number % 16) + 2 ^ 29 * collDstRank x
      + collDstLine x * 2 ^ 9 + bytes.length, g.moduleOf to_, s.moduleId, g.gid, i, 0, bytes⟩

/-- A group's command ends: its message is gone, the counts rise, and `named` says whether this member is the anchor or
origin. -/
def State.endMessage (s : State) (cx gi : Nat) (m : Message) (status : Nat) (named : Bool) : State :=
  let t := s.spoilError m status
  let g := t.group cx gi
  let ns := match t.cmd? m.cmd with
    | some c => (t.port (t.ctx cx).port).cycles - c.issueStamp
    | none => 0
  let g := { g with
    msgs := g.msgs.filter fun x => x.number != m.number
    completed := wrap32 (g.completed + 1)
    lastNs := sat32 ns }
  t.setGroup cx gi (if named then g.noteSlow m else g)

/-- The group and the message of a collective command. -/
def State.messageOf (s : State) (id : CmdId) : Option ((Nat × Nat) × Message) :=
  s.groupKeys.findSome? fun k => ((s.group k.1 k.2).msgs.find? fun m => m.cmd == id).map fun m => (k, m)

/-- A worked command whose last waiting write has landed completes, and a REDUCE's message with it (R192, R264, R306). -/
def State.workDone (s : State) (id : CmdId) : State :=
  match s.messageOf id, s.cmd? id with
  | some (k, m), some c =>
    if c.worked && !c.finished && !s.writesDue id then (s.endMessage k.1 k.2 m c.status true).finish id c.status c.result else s
  | _, _ => s.checkWork id

/-- Every outstanding command of a group ends with a status (R309). -/
def State.endGroup (s : State) (cx gi status : Nat) : State :=
  let g := s.group cx gi
  let t := g.msgs.foldl (fun t m =>
    let drops := ((t.cmd? m.cmd).map Cmd.result).getD 0
    (t.endMessage cx gi m status false).finish m.cmd status drops) s
  match g.cmd with
  | none => t
  | some id => (t.setGroup cx gi { t.group cx gi with cmd := none }).finish id status 0

/-- The group becomes BROKEN: an abort baton goes to every tree neighbour, or the one that came by a link is forwarded
unchanged to the others; CL_ABORT holds the status and the member, and the outstanding commands end with `mine` (R309). -/
def State.breakGroup (s : State) (cx gi status member mine : Nat) (from_ : Option (Nat × BatonWord)) : State :=
  let g := s.group cx gi
  if !g.live then s else
  let number := match g.msgs with | m :: _ => m.number | [] => g.issued
  let payload := toBytes 5 (status % 65536 + 65536 * (member % 4096) + 2 ^ 32 * (number % 16))
  let t := g.neighbours.foldl (fun t p => match from_ with
    | some (link, b) => if link = p.2 then t else t.sendOn p.2 b
    | none => t.control g p 4 number payload) s
  let t := t.setGroup cx gi { t.group cx gi with mode := .broken, abort := status, abortMember := member, early := [] }
  t.endGroup cx gi mine

/-- This member aborts a group with a status that names a member (R309). -/
def State.abortGroup (s : State) (cx gi status member : Nat) : State := s.breakGroup cx gi status member status none

/-- A command fails with a status of its own; a collective command aborts its group, naming this member (R309, R316). -/
def State.failCmd (s : State) (id : CmdId) (status : Nat) : State :=
  match s.groupKeys.find? fun k => (s.group k.1 k.2).cmd == some id || (s.group k.1 k.2).msgs.any fun m => m.cmd == id with
  | some k =>
    let g := s.group k.1 k.2
    if g.live then s.abortGroup k.1 k.2 status g.self else s.finish id status 0
  | none => s.finish id status 0

/-- A broadcast baton read and queued to every tree neighbour; the source's failure ends the command (R308). -/
def State.castStep1 (s : State) (cx gi number : Nat) (x : Line) (i : Nat) : State :=
  let g := s.group cx gi
  match g.msgs.find? fun m => m.number == number with
  | none => s
  | some m =>
    let own := min m.len m.cap
    let n := min 256 (own - 256 * i)
    let (st, l) := s.collRead m.cmd x (256 * i) n
    if st ≠ 0 then s.failCmd m.cmd st
    else if anyPoison l then (s.notePoison cx).failCmd m.cmd 0x0B01
    else
      let bytes := (unmark l ++ List.replicate (m.cap - 256 * i - n) 0).take 256
      let t := g.neighbours.foldl (fun u p => u.sendOn p.2 (castBaton s g m x p.1 i bytes)) (s.collNote m.cmd x (256 * i) n)
      t.modMsg cx gi number fun y => { y with queued := i + 1 }

/-- Whether a message's own batons wait at a link: sums of a REDUCE, or an origin's broadcast. -/
def State.msgUnsent (s : State) (g : Group) (m : Message) : Bool :=
  let mine := fun (b : BatonWord) => batTag b == g.gid &&
    (if m.op = 1 then batKind b == 5 && redGen b == g.gen % 16384 && redMsg b == m.number % 16
    else batKind b == 6 && g.self == m.origin && bcGen b == g.gen % 16384 && bcMsg b == m.number % 16)
  g.neighbours.any fun p => (s.link p.2).collective.any mine

/-- The origin queues the next window of its broadcast once the last one has left, while its context holds the fields
(R308, R315). -/
def State.castFill (s : State) (cx gi : Nat) : State :=
  let g := s.group cx gi
  match g.msgs.find? fun m => m.op == 2 && m.origin == g.self && decide (m.queued < castBatons m) with
  | none => s
  | some m =>
    match s.cmd? m.cmd with
    | none => s
    | some c =>
      if s.sched.holder ≠ some cx ∨ s.msgUnsent g m then s
      else iter (min g.window (castBatons m - m.queued)) (fun i t => t.castStep1 cx gi m.number c.ext (m.queued + i)) s

/-- Whether a context's commands hold a unit that has begun at the links: batons queued and not sent, or a window taken into
staging (R282, R315, Table 14.3). -/
def State.unsent (s : State) (cx : Nat) : Bool :=
  (s.links.bulks.any fun b => b.cmd.cx == cx && s.bulkUnsent b != 0) ||
    s.groupKeys.any fun k => k.1 == cx &&
      (s.group k.1 k.2).msgs.any fun m => !m.taken.isEmpty || s.msgUnsent (s.group k.1 k.2) m

/-- What the senders queue after a slot of a link (R282). -/
def State.refill (s : State) (n : Nat) : State :=
  let t := (s.links.bulks.filter fun b => b.link == n).foldl (fun t b => t.bulkFill b.cmd) s
  t.groupKeys.foldl (fun u k => if (u.group k.1 k.2).neighbours.any (fun p => p.2 == n) then u.castFill k.1 k.2 else u) t

/-- A link leaves UP and DEGRADED: its groups abort with 0x050E, naming the member across it, and bulk transfers that
left by it end with 0x0404 (R285, R309). -/
def State.linkLost (s : State) (n : Nat) : State :=
  let t := s.groupKeys.foldl (fun t k =>
    let g := t.group k.1 k.2
    match g.across n with
    | some m => if g.live then t.abortGroup k.1 k.2 0x050E m else t
    | none => t) s
  t.links.bulks.foldl (fun u b =>
    if b.link = n then
      ({ u with links := { u.links with bulks := u.links.bulks.filter fun x => x != b } } : State).finish b.cmd 0x0404 0
    else u) t

/-- A link passes from service to another mode: what waits on it is lost where it does not keep its replay state. -/
def State.linkLeave (s : State) (n : Nat) (f : Link → Link) : State :=
  let was := s.linkUp n
  let t := s.setLink n (f (s.link n))
  if was then t.linkLost n else t

/-- A link with empty queues, credits and sequence state, and its lanes and peer unknown. -/
def Link.fresh (mode : LinkMode) (failures : Nat) : Link := { Link.reset with mode := mode, failures := failures }

/-- A link goes DOWN (R271, R273, R283): owner event 1. -/
def State.linkDown (s : State) (n status : Nat) : State :=
  (s.linkLeave n fun _ => { Link.fresh .down 0 with status := status }).ownerEvent 1

/-- A link enters RETRAIN: replay and sequence state stay (R273). -/
def State.linkRetrain (s : State) (n : Nat) : State :=
  (s.linkLeave n fun l => { l with mode := .retrain, failures := 0, waiting := false }).addWrap (linkBase n + 0x30) 1

/-- A stream is unbound: its assembly returns and its enable bit clears (R322). -/
def State.unbindStream (s : State) (n : Nat) : State :=
  let r := s.stream n
  if !r.bound then s else
  let k := streamBase n
  let used := tget s.links.assemblyUsed r.iface 0 - s.streamSpan n * 4
  let t : State := { s with links := { s.links with assemblyUsed := tput s.links.assemblyUsed r.iface used 0 } }
  (t.setStream n { r with bound := false }).setReg k (setFld (t.reg k) 0 0 0)

/-- Every stream bound to a group is unbound (R322). -/
def State.unbindGroup (s : State) (cx gi : Nat) : State :=
  iter 256 (fun n t => if (t.stream n).bound && t.streamCx n == cx && t.streamGroup n == gi then t.unbindStream n else t) s

/-- A group's staging returns to its link interface (R299, R302). -/
def State.returnStaging (s : State) (cx gi : Nat) : State :=
  let g := s.group cx gi
  let used := tget s.links.stagingUsed g.iface 0 - g.staged
  let t : State := { s with links := { s.links with stagingUsed := tput s.links.stagingUsed g.iface used 0 } }
  t.setGroup cx gi { g with staged := 0 }

end Sys2Proof.Machine
end

