-- ==== Sys2Proof/Machine/Commit.lean ====
section
/-!
DEFINITION. Commit points (R433, R435): a CLOSED set's pending copy is checked and applied whole.
-/

namespace Sys2Proof.Machine

open Sys2Proof

/-- The value a pending copy gives a register, else the one in effect. -/
def State.pendingReg (s : State) (p : List (Nat × Nat)) (k : Nat) : Nat :=
  match p.find? fun e => e.1 == k with
  | some e => e.2
  | none => s.reg k

/-- The values of a pending copy take effect, clamped (R439). -/
def State.applyVals (s : State) (p : List (Nat × Nat)) : State :=
  p.foldl (fun t e => t.setReg e.1 (t.clampReg e.1 e.2)) s

/-- Pages of the working tier that quotas may share out (R255). -/
def State.quotaPages (s : State) : Nat :=
  75 * ((96 - s.weightGib) * 512 - 64)

/-- Whether a pending copy of set 1 keeps the sum of R255. -/
def State.quotaFits (s : State) (p : List (Nat × Nat)) : Bool :=
  decide (cdiv (sumNat ((List.range 16).map fun n => s.pendingReg p (0x3100 + 16 * n))) 32 + s.reg 0x3004 ≤ s.quotaPages)

/-- A QT_WT register (Table 9.9). -/
def isQtWt (k : Nat) : Bool := decide (0x3100 ≤ k) && decide (k < 0x3200) && k % 16 == 0

/-- Leg entries of a sheet under a pending copy (R373). -/
def State.legEntry (s : State) (p : List (Nat × Nat)) (i : Nat) : Nat := s.pendingReg p (0x400100 + 4 * i)

/-- The legs of a heat: the entries up to the first of kind 0 (R373). -/
def State.legsOf (s : State) (p : List (Nat × Nat)) : List Nat :=
  ((List.range 64).map (s.legEntry p)).takeWhile fun e => bits e 18 17 != 0

/-- One leg entry passes R374. -/
def State.legOk (s : State) (p : List (Nat × Nat)) (e : Nat) : Bool :=
  let kind := bits e 18 17
  let len := bits e 16 0
  bits e 31 24 == 0 &&
  (if kind == 1 || kind == 2 then decide (s.reg 0x400004 + 12 + 1 ≤ len) else true) &&
  (if kind == 3 then decide (10 ≤ len) else true) &&
  (if kind == 1 then !(bit e 23 && s.pendingReg p (0x400200 + 16 * bits e 22 19) % 4 == 0)
    else bits e 22 19 == 0 && !bit e 23)

/-- A committed heat sheet passes R374. -/
def State.sheetOk (s : State) (p : List (Nat × Nat)) : Bool :=
  let all := (List.range 64).map (s.legEntry p)
  let legs := s.legsOf p
  let h := sumNat (legs.map fun e => bits e 16 0)
  decide (250 ≤ h) && decide (h ≤ 100000) && all.all (s.legOk p) &&
    (all.drop legs.length).all fun e => bits e 18 17 == 0

/-- A playout port's configuration passes R421, with PO_CFG in effect and the other registers of a pending copy. -/
def State.portCfgOk (s : State) (po : Nat) (p : List (Nat × Nat)) : Bool :=
  let c := s.reg (poBase po)
  let m := s.mstream (bits c 14 9)
  let raster := bits c 2 1
  let size := (fld m.record 367 352, fld m.record 351 336)
  let rate := (fld m.record 335 320, fld m.record 319 304)
  decide (raster < 3) && decide (bits c 6 3 < 8) && decide (bits c 8 7 < 3) &&
  decide (96 ≤ bits c 21 15) &&
  (if bit c 0 then
    m.isOpen && flag m.record 21 && !flag m.record 20 && fld m.record 23 22 == po + 1 &&
    size == nth [(3840, 2160), (1920, 1080), (1280, 720)] raster (0, 0) &&
    decide (rate.1 * (nth [(24000, 1001), (24, 1), (25, 1), (30000, 1001), (30, 1), (50, 1), (60000, 1001), (60, 1)]
      (bits c 6 3) (0, 1)).2 =
      rate.2 * (nth [(24000, 1001), (24, 1), (25, 1), (30000, 1001), (30, 1), (50, 1), (60000, 1001), (60, 1)]
      (bits c 6 3) (0, 1)).1)
  else decide (1262 ≤ s.clampReg (poBase po + 0x30) (s.pendingReg p (poBase po + 0x30))))

/-- A playout port enters HOLD with a status; owner event 5 (R421, R438, R441). -/
def State.poHold (s : State) (po status : Nat) : State :=
  (s.setPo po { s.po po with mode := .hold, status := status }).ownerEvent 5

/-- The clamp of PO_TIMING applied again (R439). -/
def State.poReclamp (s : State) (po : Nat) : State :=
  let k := poBase po + 0x28
  s.setReg k (s.clampReg k (s.reg k))

/-- A commit of a playout port's registers (R421): an IDLE or HOLD port passes to IDLE or enters HOLD, and keeps its
values where the check fails; a running port's failing commit changes only the status. The second part says whether it
passed. -/
def State.poCommit (s : State) (po : Nat) (p : List (Nat × Nat)) : State × Bool :=
  let q := s.po po
  let idle := q.mode == .idle || q.mode == .hold
  if s.portCfgOk po p then
    let t := (s.applyVals p).poReclamp po
    (if idle then t.setPo po { t.po po with mode := .idle } else t, true)
  else if idle then (s.poHold po 0x0901, false)
  else (s.setPo po { q with status := 0x0901 }, false)

/-- A commit set's last status. -/
def State.csetStatus (s : State) (n st : Nat) : State := s.setCset n { s.cset n with status := st }

/-- LK_CTRL in effect brings a link to DISABLED where enable is clear, and to LOOPBACK and back where the test mode
changes (Table 10.2). -/
def State.linkCtrl (s : State) (n : Nat) : State :=
  let c := s.reg (linkBase n)
  let l := s.link n
  if !bit c 0 then (if l.mode = .disabled then s else s.linkLeave n fun _ => Link.reset)
  else if bit c 1 then
    (if l.mode = .loopback then s
    else s.linkLeave n fun _ => { Link.fresh .loopback 0 with
      txLanes := List.range 8, rxLanes := List.range 8, credits := fullCredits })
  else if l.mode = .loopback then s.setLink n Link.reset
  else s

/-- The pending copy of a set is applied, after its check. -/
def State.applySet (s : State) (n : Nat) (p : List (Nat × Nat)) : State :=
  if n = 1 then
    if p.any (fun e => isQtWt e.1) && !s.quotaFits p then
      ((s.applyVals (p.filter fun e => !isQtWt e.1)).orReg 0x3048 1).csetStatus 1 0x030C
    else s.applyVals p
  else if n = 2 then iter 36 (fun l t => if p.any (fun e => e.1 == linkBase l) then t.linkCtrl l else t) (s.applyVals p)
  else if n = 3 then
    if s.sheetOk p then s.applyVals p
    else ((s.setReg 0x400014 0x0704).ownerEvent 6).csetStatus 3 0x0704
  else if n = 4 ∨ n = 5 then
    let (t, ok) := s.poCommit (n - 4) p
    if ok then t else t.csetStatus n 0x0901
  else if 64 ≤ n then
    let i := n - 64
    let v := s.pendingReg p (landBase i)
    let port := (s.cset n).closer
    let own := s.cxPort (bits v 4 1) == port && (!bit (s.reg (landBase i)) 0 || s.cxPort (bits (s.reg (landBase i)) 4 1) == port)
    if own || (port == s.ownerPort && !bit v 0) then s.applyVals p
    else if h : port < 4 then s.cfgErr (.port ⟨port, h⟩) 3 (landBase i) else s
  else s.applyVals p

/-- A set's commit point (R433): nothing happens while the set is OPEN or in HOLD, or holds no pending copy. -/
def State.commitPoint (s : State) (n : Nat) : State :=
  let c := s.cset n
  match c.pending with
  | none => s
  | some p => if c.mode = .closed then (s.setCset n { c with pending := none }).applySet n p else s

/-- Whether a set's commit point is immediate (Table 16.2). -/
def State.commitsNow (s : State) (n : Nat) : Bool :=
  if n = 3 then false
  else if n = 4 ∨ n = 5 then (s.po (n - 4)).mode == .idle || (s.po (n - 4)).mode == .hold
  else true

/-- CS_OPEN ← g (Table 16.6). -/
def State.csetOpen (s : State) (w : Writer) (n g : Nat) : State :=
  let c := s.cset n
  if g = c.closeGen then s.cfgErr w 2 (0x10000 + 16 * n)
  else s.setCset n { c with openGen := g, mode := .opened, shadow := c.pending.getD [] }

/-- CS_CLOSE ← g (Table 16.6); a HOLD of a playout port's set puts an IDLE port in HOLD (R438). -/
def State.csetClose (s : State) (w : Writer) (n g : Nat) : State :=
  let c := s.cset n
  if c.mode = .opened ∧ g = c.openGen then
    let t := s.setCset n { c with closeGen := g, mode := .closed, status := 0, pending := some c.shadow, shadow := [],
                                  closer := writerNo w }
    if t.commitsNow n then t.commitPoint n else t
  else
    let t := ((s.setCset n { c with closeGen := g, mode := .hold, status := 0x0A01 }).cfgErr w 0 (0x10004 + 16 * n)).ownerEvent 7
    if (n = 4 ∨ n = 5) ∧ (t.po (n - 4)).mode = .idle then t.poHold (n - 4) 0x0A01 else t

/-- A write of an RWS field (Table 16.6): into the shadow while the set is OPEN, else discarded with 0x0A03. -/
def State.shadowWrite (s : State) (w : Writer) (n k v : Nat) : State :=
  let c := s.cset n
  if c.mode = .opened then
    s.setCset n { c with shadow := (c.shadow.filter fun e => e.1 != k) ++ [(k, v)] }
  else s.cfgErr w 2 k

end Sys2Proof.Machine
end

