-- ==== Sys2Proof/Machine/Deliver.lean ====
section
/-!
DEFINITION. The delivery of a tile to a link stream (R324 to R327).
-/

namespace Sys2Proof.Machine

open Sys2Proof

/-- Whether a command's record is a REDUCE fed by a stream. -/
def reduceFrom (n : Nat) (c : Cmd) : Bool :=
  c.kind == 0x20 && collOp c.ext == 1 && collSrcKind c.ext == 1 && collStream c.ext == n

/-- The running REDUCEs that name a stream: their groups and messages, in each context's ring order. -/
def State.streamRuns (s : State) (n : Nat) : List ((Nat × Nat) × Message) :=
  (List.range 16).flatMap fun cx => (s.ring cx 2).cmds.filterMap fun c =>
    if reduceFrom n c && c.issued && !c.finished then s.messageOf ⟨cx, 2, c.index⟩ else none

/-- The oldest running REDUCE that names a stream and has not yet received all its entries: those below min(L, cap)
(R325). -/
def State.streamMsg (s : State) (n : Nat) : Option ((Nat × Nat) × Message) :=
  ((s.streamRuns n).filter fun p => decide (p.2.localIn.length < min p.2.len p.2.cap)).foldl (fun b p =>
    match b with
    | none => some p
    | some o => if p.2.issuedNs < o.2.issuedNs then some p else b) none

/-- Whether a tile whose last entry is `last` is sendable on a stream (R326). -/
def State.sendable (s : State) (n last : Nat) : Bool :=
  (s.stream n).bound &&
    match s.streamMsg n with
    | none => false
    | some (k, m) =>
      let e := linkEntries m.fmt (s.group k.1 k.2).packed
      decide (last < m.emitted * e + s.streamSpan n)

/-- Whether a link interface has room for a whole tile, given as its entries (R282, R326). -/
def State.tileRoom (s : State) (n : Nat) (entries : List (Nat × Nat)) : Bool :=
  match entries.getLast? with
  | some e => s.sendable n e.1
  | none => true

/-- One entry delivered to a message: kept, dropped beyond min(L, cap), or counted as a duplicate. What lies from cap to L - 1
was counted as dropped when the command issued (R305, R325). -/
def deliverEntry (cx g number : Nat) (s : State) (p : Nat × Nat) : State :=
  match (s.group cx g).msgs.find? fun m => m.number == number with
  | none => s
  | some m =>
    let e := linkEntries m.fmt (s.group cx g).packed
    if min m.len m.cap ≤ p.1 then
      if m.cap ≤ p.1 ∧ p.1 < m.len then s else
      let r := s.group cx g
      (s.setGroup cx g { r with drop := r.drop + 1 }).modCmd m.cmd fun c => { c with result := c.result + 1 }
    else if p.1 < m.emitted * e || m.localIn.any (fun q => q.1 == p.1) then
      (s.addSat 0x232000 1).modMsg cx g number fun x => { x with dup := true }
    else s.modMsg cx g number fun x => { x with localIn := x.localIn ++ [p] }

/-- ST_WAIT counts time that a claim or a hand-off waited on the sendable gate (R341). -/
def State.streamWaited (s : State) (n ns : Nat) : State :=
  s.setStream n { s.stream n with waitNs := sat32 ((s.stream n).waitNs + ns) }

/-- A whole tile delivered to a stream: entries as (index, FP32 word); ST_TILES rises (R325, R327). -/
def State.deliver (s : State) (n : Nat) (entries : List (Nat × Nat)) : State :=
  match s.streamMsg n with
  | none => s
  | some (k, m) =>
    let t := entries.foldl (deliverEntry k.1 k.2 m.number) s
    let r := t.stream n
    t.setStream n { r with tiles := wrap32 (r.tiles + 1) }

end Sys2Proof.Machine
end

