-- ==== Sys2Proof/Machine/Approx.lean ====
section
/-!
DEFINITION. The exact results of the library routines for which R164 gives an error bound, in fixed point, and the bits that
the bound and the declared order of R165 leave open.

Fixed point: an integer v stands for v · 2^-320. The errors of what follows lie below 2^-250, far below the least unit in the
last place of FP32, 2^-149.
-/

namespace Sys2Proof.Machine

open Sys2Proof

/-! ### Fixed point -/

/-- One. -/
def fxOne : Int := 2 ^ 320

def fxMul (a b : Int) : Int := a * b / fxOne
def fxDiv (a b : Int) : Int := a * fxOne / b

/-- A finite FP32 value. -/
def fxOf (neg : Bool) (m : Nat) (e : Int) : Int :=
  let v : Int := (m <<< (e + 320).toNat : Nat)
  if neg then -v else v

/-- A series by Horner's rule: c(0) + x · (c(1) + x · (… + x · c(n))). -/
def fxSeries (c : Nat → Int) (x : Int) (n : Nat) : Int :=
  (List.range (n + 1)).reverse.foldl (fun acc i => c i + fxMul x acc) 0

/-- The inverse hyperbolic tangent of a value of at most a third in magnitude. -/
def fxAtanh (x : Int) : Int := fxMul x (fxSeries (fun i => fxOne / (2 * i + 1)) (fxMul x x) 120)

/-- The arc tangent of 1/n. -/
def fxArctan (n : Int) : Int := (fxSeries (fun i => fxOne / (2 * i + 1)) (-(fxOne / (n * n))) 80) / n

def fxLn2 : Int := 2 * fxAtanh (fxOne / 3)
def fxPi : Int := 16 * fxArctan 5 - 4 * fxArctan 239

/-- The exponential of a value of at most 128; zero below -256, where it has no FP32 digit left. -/
def fxExp (t : Int) : Int :=
  if t < -256 * fxOne then 0 else
  let k := t / fxLn2
  let y := (List.range 100).reverse.foldl (fun acc i => fxOne + fxMul (t - k * fxLn2) acc / (i + 1)) fxOne
  if 0 ≤ k then y * 2 ^ k.toNat else y / 2 ^ (-k).toNat

/-- The natural logarithm of a positive value. -/
def fxLog (y : Int) : Int :=
  let e : Int := (Nat.log2 y.toNat : Int) - 320
  let f := if 0 ≤ e then y / 2 ^ e.toNat else y * 2 ^ (-e).toNat
  e * fxLn2 + 2 * fxAtanh (fxDiv (f - fxOne) (f + fxOne))

/-- The error function; ±1 where the rest has no FP32 digit left. -/
def fxErf (z : Int) : Int :=
  let q := fxMul z z
  if 128 * fxOne < q then (if z < 0 then -fxOne else fxOne) else
  let sum := (List.range 700).reverse.foldl (fun acc i => fxOne + fxMul (2 * q) acc / (2 * i + 3)) fxOne
  let root : Int := (Nat.sqrt (fxPi * fxOne).toNat : Nat)
  fxDiv (2 * fxMul (fxMul z sum) (fxExp (-q))) root

/-- The logistic function. -/
def fxSigmoid (t : Int) : Int :=
  let u := fxExp (-(t.natAbs : Int))
  fxDiv (if t < 0 then u else fxOne) (fxOne + u)

/-- Sine where `k` is 0, cosine where it is 1: the argument reduced to a quarter turn. -/
def fxSin (k : Nat) (t : Int) : Int :=
  let h := fxPi / 2
  let n := (t + h / 2) / h
  let r := t - n * h
  let q := (n.toNat % 4 + (4 - (-n).toNat % 4) + k) % 4
  let series := fun (first : Nat) =>
    (List.range 60).reverse.foldl (fun acc i => fxOne - fxMul (fxMul r r) acc / ((2 * i + first + 1) * (2 * i + first + 2))) fxOne
  let v := if q % 2 = 0 then fxMul r (series 1) else series 0
  if q < 2 then v else -v

/-- The exact result of a routine at a finite argument of its domain (Table 2.13, Table 6.6). -/
def fxRoutine (num : Nat) (t : Int) : Int :=
  if num = 0x100 then fxExp t
  else if num = 0x101 then fxExp (fxMul t fxLn2)
  else if num = 0x102 then fxLog t
  else if num = 0x103 then fxDiv (fxLog t) fxLn2
  else if num = 0x107 then 2 * fxSigmoid (2 * t) - fxOne
  else if num = 0x108 then fxSigmoid t
  else if num = 0x109 then fxErf t
  else if num = 0x10A then
    let cube := fxMul (fxMul t t) t
    fxMul t (fxSigmoid (2 * (7978845608 * (t + 44715 * cube / 1000000) / 10000000000)))
  else if num = 0x10B then
    let root : Int := (Nat.sqrt (2 * fxOne * fxOne).toNat : Nat)
    fxMul t (fxOne + fxErf (fxDiv t root)) / 2
  else if num = 0x10C then fxMul t (fxSigmoid t)
  else if num = 0x10D then max t 0 + fxLog (fxOne + fxExp (-(t.natAbs : Int)))
  else if num = 0x10E then fxSin 0 t
  else fxSin 1 t

/-! ### FP32 codes in order -/

/-- The place of an FP32 code in the order of its value; both zeros stand at 0. -/
def codeKey (c : Nat) : Int := if bit c 31 then -((c % 2147483648 : Nat) : Int) else ((c % 2147483648 : Nat) : Int)

/-- The magnitude code at or below a magnitude, infinity beyond the range. -/
def magFloor (v : Nat) : Nat :=
  let e : Int := (Nat.log2 v : Int) - 320
  if v = 0 then 0
  else if e < -126 then v / 2 ^ 171
  else if 128 ≤ e then 0x7F800000
  else v / 2 ^ (e + 297).toNat - 8388608 + 8388608 * (e + 127).toNat

/-- The magnitude a finite magnitude code stands for. -/
def magValue (c : Nat) : Nat :=
  if c < 8388608 then c * 2 ^ 171 else (c % 8388608 + 8388608) * 2 ^ (c / 8388608 + 170)

/-- The magnitude code at or above a magnitude. -/
def magCeil (v : Nat) : Nat := if magFloor v < 0x7F800000 ∧ magValue (magFloor v) < v then magFloor v + 1 else magFloor v

/-- The greatest key whose value does not exceed v, and the least that does not fall below it. -/
def keyFloor (v : Int) : Int := if 0 ≤ v then (magFloor v.toNat : Int) else -(magCeil (-v).toNat : Int)
def keyCeil (v : Int) : Int := if 0 ≤ v then (magCeil v.toNat : Int) else -(magFloor (-v).toNat : Int)

/-! ### What a bound leaves open (R164, R165) -/

/-- A routine's error bound in FP32 ulp; 0 for sine and cosine, whose bound is absolute (Table 6.6). -/
def boundUlps (num : Nat) : Int :=
  if num ≤ 0x103 then 1
  else if num = 0x10A ∨ num = 0x10B then 4
  else if num = 0x10C then 3
  else if num = 0x10E ∨ num = 0x10F then 0
  else 2

/-- What the error of the fixed point may add to a bound. -/
def fxSlack : Int := 2 ^ 140

/-- The least and greatest values within k ulp of an exact result. Where the ulp changes, at a power of two, the bound on its
near side holds on its far side as well: the results of an ordered routine cannot turn back there. -/
def ulpRange (k y : Int) : Int × Int :=
  let e := max ((Nat.log2 y.natAbs : Int) - 320) (-126)
  let ulp : Int := 2 ^ (e + 297).toNat
  let edge : Int := if -126 < e then 2 ^ (e + 320).toNat - k * ulp / 2 - fxSlack else -fxOne * 2 ^ 200
  if 0 ≤ y then (max (y - k * ulp - fxSlack) edge, y + k * ulp + fxSlack)
  else (y - k * ulp - fxSlack, min (y + k * ulp + fxSlack) (-edge))

/-- The range of a routine whatever its argument: the limits that Table 6.7 gives it at ±∞, between which R165 holds it. -/
def limitRange (num : Nat) : Int × Int :=
  if num = 0x107 ∨ num = 0x109 then (-(0x3F800000 : Int), 0x3F800000)
  else if num = 0x108 then (0, 0x3F800000)
  else if num = 0x100 ∨ num = 0x101 ∨ num = 0x10D then (0, 0x7F800000)
  else (-(0x7F800000 : Int), 0x7F800000)

/-- The keys that R163 and R164 allow a routine at a finite argument: within the bound; saturated above the table range of
tanh, sigmoid and erf. Below -2^5 a sigmoid's saturated value, zero, lies outside its bound, and every key between is open
(DEDUCED, the log's entry 19). -/
def routineKeys (num : Nat) (t : Int) : Int × Int :=
  let top : Int := if num = 0x107 then 16 else if num = 0x108 then 32 else 4
  let sat := (num == 0x107 || num == 0x108 || num == 0x109) && decide (top * fxOne < t.natAbs)
  let wide := num == 0x10E || num == 0x10F
  let lim := limitRange num
  if wide && decide (65536 * fxOne < t.natAbs) then (-(0x3F800000 : Int), 0x3F800000)
  else if sat && decide (0 < t) then (lim.2, lim.2)
  else if sat && num != 0x108 then (lim.1, lim.1)
  else
    let y := fxRoutine num t
    let r := if wide then (y - fxOne / 2 ^ 23 - fxSlack, y + fxOne / 2 ^ 23 + fxSlack) else ulpRange (boundUlps num) y
    (if sat then 0 else max lim.1 (keyCeil r.1), min lim.2 (keyFloor r.2))

/-- Whether a routine is declared monotone at an argument (Table 6.6). -/
def routineOrdered (num : Nat) (t : Int) : Bool :=
  if num = 0x10A ∨ num = 0x10B then decide (-fxOne ≤ 2 * t)
  else if num = 0x10C then decide (-5 * fxOne ≤ 4 * t)
  else num != 0x10E && num != 0x10F

/-- The greatest key of a range from `lo` on whose least argument, which the ALV's vectors fix, does not exceed x: every
choice of those arguments gives an order-preserving routine, and every such routine has them. -/
def stepKey (alv num : Nat) (x lo : Int) (n : Nat) : Int :=
  (List.range n).foldl (fun acc i =>
    let k := lo + 1 + i
    if codeKey (Config.routineStep alv num k).toNat ≤ x then k else acc) lo

/-- A routine's result where the manual fixes only a bound: its bits are open within the bound, and in the declared order
where it has one (R89, R164, R165). The sign of a zero result is open. -/
def boundedRoutine (alv num x : Nat) (neg : Bool) (m : Nat) (e : Int) : Nat :=
  let t := fxOf neg m e
  let r := routineKeys num t
  let k := if routineOrdered num t then stepKey alv num (codeKey x) r.1 (r.2 - r.1).toNat
    else max r.1 (min r.2 (codeKey (Config.routine alv num (BitVec.ofNat 32 x)).toNat))
  if k = 0 then 2147483648 * ((Config.routine alv (num + 0x1000) (BitVec.ofNat 32 x)).toNat % 2)
  else if k < 0 then 2147483648 + k.natAbs else k.natAbs

end Sys2Proof.Machine
end

