-- ==== Sys2Proof/Machine/Library.lean ====
section
/-!
DEFINITION. FP32X (R81), division and square root with one rounding, and the library routines with their special
arguments (R164, R166): the correctly rounded routines are computed, the others' bits are open within their bounds.
-/

namespace Sys2Proof.Machine

open Sys2Proof

/-! ### Quotients and roots -/

/-- The largest r with r² ≤ n. -/
def isqrt (n : Nat) : Nat :=
  (List.range (Nat.log2 n / 2 + 1)).reverse.foldl (fun r i => if (r + 2 ^ i) * (r + 2 ^ i) ≤ n then r + 2 ^ i else r) 0

/-- A truncated magnitude with a sticky last bit: what was cut off is not zero where `inexact`. -/
def sticky (t : Nat) (inexact : Bool) : Nat := 2 * t + b2n inexact

/-- The quotient of two values to at least 64 bits with a sticky last bit, so that one rounding of it is the rounding of
the exact quotient. Zero divided by zero and infinity by infinity are NaN; a nonzero value by zero is infinite. -/
def Num.div : Num → Num → Num
  | .nan, _ => .nan
  | _, .nan => .nan
  | .inf _, .inf _ => .nan
  | .inf a, .fin b _ _ => .inf (a != b)
  | .fin a _ _, .inf b => .fin (a != b) 0 0
  | .fin a m e, .fin b n g =>
    if n = 0 then (if m = 0 then .nan else .inf (a != b)) else
    let k := 64 + Nat.log2 n
    let t := (m <<< k) / n
    .fin (a != b) (sticky t (decide (t * n ≠ m <<< k))) (e - g - k - 1)

/-- The square root of a positive magnitude m · 2^e, with a sticky last bit. -/
def sqrtMag (m : Nat) (e : Int) : Nat × Int :=
  let odd := e % 2 ≠ 0
  let m := if odd then 2 * m else m
  let e := if odd then e - 1 else e
  let x := m <<< 128
  let r := isqrt x
  (sticky r (decide (r * r ≠ x)), e / 2 - 64 - 1)

/-- The reciprocal square root of a positive magnitude m · 2^e, with a sticky last bit. -/
def rsqrtMag (m : Nat) (e : Int) : Nat × Int :=
  let odd := e % 2 ≠ 0
  let m := if odd then 2 * m else m
  let e := if odd then e - 1 else e
  let k := 128 + Nat.log2 m
  let r := isqrt (2 ^ (2 * k) / m)
  (sticky r (decide (r * r * m ≠ 2 ^ (2 * k))), -(e / 2) - k - 1)

/-! ### FP32X -/

/-- An exact value rounded to FP32X: 24 bits, fixed spacing 2^-1045 below the normal range, RNE, ±∞ from 2^1024 on
(R81). -/
def roundX : Num → Num
  | .fin n m e =>
    let (t, q) := roundMag .rne 24 (-1045) m e
    if t ≠ 0 ∧ 1024 ≤ magExp t q then .inf n else .fin n t q
  | x => x

def addX (a b : Num) : Num := roundX (a.add b)
def subX (a b : Num) : Num := roundX (a.add b.neg)
def mulX (a b : Num) : Num := roundX (a.mul b)
def divX (a b : Num) : Num := roundX (a.div b)
def fmaX (a b c : Num) : Num := roundX ((a.mul b).add c)

/-- The value nearest the first argument within the closed interval between the other two (R168). -/
def clampBetween (x a b : Num) : Num :=
  let lo := if b.lt a then b else a
  let hi := if b.lt a then a else b
  if x.lt lo then lo else if hi.lt x then hi else x

/-- A natural number as a value. -/
def Num.ofNat' (n : Nat) : Num := .fin false n 0

/-- The tree of R72 over any kind of state. `fuel` bounds the depth. -/
def treeMerge {α : Type} (d : α) (f : α → α → α) : Nat → List α → α
  | 0, l => l.headD d
  | fuel + 1, l =>
    if l.length ≤ 1 then l.headD d else
    let half := 2 ^ (ceilLog2 l.length - 1)
    f (treeMerge d f fuel (l.take half)) (treeMerge d f fuel (l.drop half))

/-! ### Routines -/

/-- Flags of a result that a routine computes from a finite argument: ±∞ raises INF_OUT, NaN NAN_OUT (R152). -/
def resultFlags (c : Nat) : Nat := if (ofF32 c).isNan then flNan else if (ofF32 c).isInf then flInf else 0

/-- A routine's result at a finite argument where the manual gives an error bound only, with its flags. -/
def freeRoutine (alv num x : Nat) (neg : Bool) (m : Nat) (e : Int) : Nat × Nat :=
  let c := boundedRoutine alv num x neg m e
  (c, resultFlags c)

def inf32 : Nat := 0x7F800000
def one32 : Nat := 0x3F800000

/-- Whether exp or exp2 of a finite argument lies beyond the FP32 range: from ln of 2^128 on, whose lowest FP32 code is
0x42B17218, and from 128 on (Table 6.7). -/
def expOver (num x : Nat) : Bool :=
  !(ofF32 x).isNeg && ((num == 0x100 && decide (0x42B17218 ≤ x)) || (num == 0x101 && decide (0x43000000 ≤ x)))

/-- A library routine at an FP32 argument: its result and flags (R164, R166). -/
def libRoutine (alv num x : Nat) : Nat × Nat :=
  match ofF32 x with
  | .nan => (nan32, flNan)
  | .inf neg =>
    if num = 0x100 ∨ num = 0x101 then (if neg then 0 else inf32, 0)
    else if num = 0x102 ∨ num = 0x103 then (if neg then (nan32, flNan) else (inf32, 0))
    else if num = 0x104 then (fp32.sign neg, 0)
    else if num = 0x105 then (if neg then (nan32, flNan) else (0, 0))
    else if num = 0x106 then (if neg then (nan32, flNan) else (inf32, 0))
    else if num = 0x107 ∨ num = 0x109 then (fp32.sign neg + one32, 0)
    else if num = 0x108 then (if neg then 0 else one32, 0)
    else if num = 0x10A ∨ num = 0x10B ∨ num = 0x10C then (if neg then 0x80000000 else inf32, 0)
    else if num = 0x10D then (if neg then 0 else inf32, 0)
    else (nan32, flNan)
  | .fin neg m e =>
    if expOver num x then (inf32, flInf)
    else if num = 0x102 ∨ num = 0x103 then
      (if m = 0 then (fp32.sign true + inf32, flInf) else if neg then (nan32, flNan) else freeRoutine alv num x neg m e)
    else if num = 0x104 then
      (if m = 0 then (fp32.sign neg + inf32, flInf) else toF32 .rne (Num.div (.fin false 1 0) (.fin neg m e)))
    else if num = 0x105 then
      (if m = 0 then (fp32.sign neg + inf32, flInf)
      else if neg then (nan32, flNan)
      else let (r, q) := rsqrtMag m e; toF32 .rne (.fin false r q))
    else if num = 0x106 then
      (if m = 0 then (fp32.sign neg, 0)
      else if neg then (nan32, flNan)
      else let (r, q) := sqrtMag m e; toF32 .rne (.fin false r q))
    else freeRoutine alv num x neg m e

/-- Greater of two FP32 values under R154: a NaN input gives NaN, -0 is less than +0. -/
def max32 (a b : Nat) : Nat × Nat :=
  let x := ofF32 a
  let y := ofF32 b
  if x.isNan || y.isNan then (nan32, flNan)
  else if x.lt y then (b, 0)
  else if y.lt x then (a, 0)
  else (if x.isNeg then b else a, 0)

/-- Lesser of two FP32 values under R154. -/
def min32 (a b : Nat) : Nat × Nat :=
  let x := ofF32 a
  let y := ofF32 b
  if x.isNan || y.isNan then (nan32, flNan)
  else if x.lt y then (a, 0)
  else if y.lt x then (b, 0)
  else (if x.isNeg then a else b, 0)

/-- Fused multiply-add with one rounding (R154). -/
def f32Fma (a b c : Nat) : Nat × Nat := toF32 .rne (((ofF32 a).mul (ofF32 b)).add (ofF32 c))

/-- Subtraction. -/
def f32Sub (a b : Nat) : Nat × Nat := toF32 .rne ((ofF32 a).add (ofF32 b).neg)

/-- The activations of Table 2.13. -/
def activation (alv act pa pb x : Nat) : Nat × Nat :=
  let v := ofF32 x
  if act = 1 then (relu x, if v.isNan then flNan else 0)
  else if act = 2 then libRoutine alv 0x10A x
  else if act = 3 then libRoutine alv 0x10B x
  else if act = 4 then libRoutine alv 0x10C x
  else if act = 5 then libRoutine alv 0x108 x
  else if act = 6 then libRoutine alv 0x107 x
  else if act = 7 then
    (if v.isNan then (nan32, flNan)
    else if v.lt (ofF32 pa) then (pa, 0)
    else if (ofF32 pb).lt v then (pb, 0) else (x, 0))
  else if act = 8 then
    (if v.isNan then (nan32, flNan) else if v.isNeg && !v.isZero then f32Mul pa x else (x, 0))
  else (x, 0)

end Sys2Proof.Machine
end

