-- ==== Sys2Proof/Machine/Kernel.lean ====
section
/-!
DEFINITION. Kernel images: tile-program words, base sets, counter, window and gate records, every check that LOAD_KERNEL
makes (R32 to R61, R94, R126 to R136, R213 to R223, R318, R324, R362), and LOAD_KERNEL.
-/

namespace Sys2Proof.Machine

open Sys2Proof

/-! ### Tile-program words (Tables 2.4 to 2.10) -/

def opWord (w : Nat) : Nat := bits w 63 60
def claimCounter (w : Nat) : Nat := bits w 59 52
def claimHandoff (w : Nat) : Bool := bit w 51
def loadBase (w : Nat) : Nat := bits w 59 57
def loadReuse (w : Nat) : Bool := bit w 56
def loadFmt (w : Nat) : Nat := bits w 54 51
def loadStart (w : Nat) : Nat := bits w 47 39
def loadLines (w : Nat) : Nat := bits w 38 30
def drainBase (w : Nat) : Nat := bits w 59 57
def drainLink (w : Nat) : Bool := bit w 56
def drainFmt (w : Nat) : Nat := bits w 55 52
def drainSr (w : Nat) : Bool := bit w 51
def drainScale (w : Nat) : Bool := bit w 50
def drainBias (w : Nat) : Bool := bit w 49
def drainAct (w : Nat) : Nat := bits w 48 45
def drainPad (w : Nat) : Bool := bit w 44
def drainParams (w : Nat) : Nat := bits w 43 41
def drainPartial (w : Nat) : Bool := bit w 40
def drainStream (w : Nat) : Nat := bits w 39 32

/-- The first word of a program with an opcode; 0 where it has none. -/
def wordOf (p : List Nat) (op : Nat) : Nat := (p.find? fun w => opWord w == op).getD 0

/-- The DRAIN words of a program, in order. -/
def drainsOf (p : List Nat) : List Nat := p.filter fun w => opWord w == 6

/-- Whether a word has a reserved opcode, field or activation (status 0x0101). -/
def wordBad (w : Nat) : Bool :=
  let op := opWord w
  if op = 1 then bits w 50 0 != 0
  else if op = 2 ∨ op = 3 then bits w 50 48 != 0 || bits w 29 0 != 0
  else if op = 4 then bits w 51 0 != 0
  else if op = 5 then bits w 59 0 != 0
  else if op = 6 then bits w 31 0 != 0 || decide (8 < drainAct w)
  else if op = 7 then bits w 57 0 != 0
  else true

/-- The operand pairs of R37. -/
def pairOk (a b : Nat) : Bool :=
  (a == b && (a == 1 || a == 2 || a == 9 || a == 10 || a == 11)) ||
    ((a == 3 || a == 4) && (b == 3 || b == 4)) ||
    (decide (5 ≤ a) && decide (a ≤ 8) && decide (5 ≤ b) && decide (b ≤ 8))

/-- Whether a program has the structure of R32; `p` holds no other opcode than those of Table 2.4. -/
def structureOk (p : List Nat) : Bool :=
  let body := p.take 1 ++ (p.drop 1).filter fun w => opWord w != 7
  let ops := body.map opWord
  ops.head? == some 1 && (ops.take 3 == [1, 2, 3] || ops.take 3 == [1, 3, 2]) && (ops.drop 3).take 2 == [4, 5] &&
    decide (6 ≤ ops.length) && decide (ops.length ≤ 9) && (ops.drop 5).all fun o => o == 6

/-- The status of a program under R5, R32, R35, R36 and R37; 0 where it passes. -/
def programStatus (p : List Nat) : Nat :=
  let a := wordOf p 2
  let b := wordOf p 3
  let m := wordOf p 4
  if 16 < p.length then 0x010A
  else if p.any wordBad then 0x0101
  else if !structureOk p then 0x0102
  else if !fmtOperand (loadFmt a) || !fmtOperand (loadFmt b) || bits m 59 56 != loadFmt a || bits m 55 52 != loadFmt b ||
      (drainsOf p).any (fun d => !fmtDrain (drainFmt d)) then 0x0103
  else if !pairOk (loadFmt a) (loadFmt b) then 0x0104
  else 0

/-- Whether R57 refuses a DRAIN word. -/
def drainBad (w : Nat) : Bool :=
  (drainFmt w == 0 && drainSr w) ||
    (drainPartial w && (drainFmt w != 0 || drainScale w || drainBias w || drainPad w || drainAct w != 0)) ||
    (drainLink w && (drainFmt w != 0 || drainBias w || drainPad w || drainAct w != 0)) ||
    (!drainLink w && drainStream w != 0)

/-! ### Slabs (R29, R96) -/

/-- Bytes of a slab of `rows` rows with `k` side entries per row. -/
def slabBytes (fmt rows k : Nat) : Nat :=
  rows * 32 * fmtBits fmt / 8 + (if fmtMx fmt then rows else 0) + rows * 2 * k

def slabLines (fmt rows k : Nat) : Nat := cdiv (slabBytes fmt rows k) 128

/-! ### The counter record (Table 5.1) -/

def recReduce (c : Nat) : Nat := bits c 511 448
def recSrcB (c : Nat) : Nat := bits c 447 416
def recSrcK (c : Nat) : Nat := bits c 415 384
def recSrcN (c : Nat) : Nat := bits c 383 352
def recSrcM (c : Nat) : Nat := bits c 351 320
def recMaxB (c : Nat) : Nat := bits c 319 288
def recMaxK (c : Nat) : Nat := bits c 287 256
def recMaxN (c : Nat) : Nat := bits c 255 224
def recMaxM (c : Nat) : Nat := bits c 223 192
def recStridePartial (c : Nat) : Nat := bits c 191 160
def recBandTiles (c : Nat) : Nat := bits c 159 144
def recBandFirst (c : Nat) : Nat := bits c 143 135
def recKPass (c : Nat) : Nat := bits c 134 127
def recN (c : Nat) : Nat := bits c 126 120
def recM (c : Nat) : Nat := bits c 119 113
def recOrder (c : Nat) : Nat := bits c 112 111
def recLive (c : Nat) : Nat := bits c 110 109
def recKOuter (c : Nat) : Bool := bit c 108
def recSr (c : Nat) : Bool := bit c 107

/-- Slabs and partials at given K (R113). -/
def slabsFor (k : Nat) : Nat := cdiv k 32
def partialsFor (kPass k : Nat) : Nat := if slabsFor k = 0 then 1 else cdiv (slabsFor k) kPass

/-- P_max of a counter record (R132). -/
def recPMax (c : Nat) : Nat := partialsFor (recKPass c) (recMaxK c)

/-! ### Base and parameter sets (Tables 2.11 and 2.14) -/

def baseTensor (b : Nat) : Nat := bits b 175 160
def baseTileN (b : Nat) : Nat := bits b 159 128
def baseBatch (b : Nat) : Nat := bits b 127 96
def baseInner (b : Nat) : Nat := bits b 95 64
def baseTile (b : Nat) : Nat := bits b 63 32
def baseLine (b : Nat) : Nat := bits b 19 0
def baseReserved (b : Nat) : Bool := bits b 255 176 != 0 || bits b 31 20 != 0
def parBiasBf16 (p : Nat) : Bool := bit p 170
def parScaleMode (p : Nat) : Nat := bits p 169 168
def parBiasLine (p : Nat) : Nat := bits p 167 148
def parScaleLine (p : Nat) : Nat := bits p 147 128
def parB (p : Nat) : Nat := bits p 127 96
def parA (p : Nat) : Nat := bits p 95 64
def parPad (p : Nat) : Nat := bits p 63 32
def parScale (p : Nat) : Nat := bits p 31 0
def parBad (p : Nat) : Bool := bits p 255 171 != 0 || parScaleMode p == 3

/-! ### The window record (Table 8.1) -/

def winSrcW (w : Nat) : Nat := bits w 511 480
def winSrcH (w : Nat) : Nat := bits w 479 448
def winSrcD (w : Nat) : Nat := bits w 447 416
def winMaxW (w : Nat) : Nat := bits w 415 400
def winMaxH (w : Nat) : Nat := bits w 399 384
def winMaxD (w : Nat) : Nat := bits w 383 368
def winPosBytes (w : Nat) : Nat := bits w 367 336
def winVa (w : Nat) : Nat := bits w 335 288
def winLine (w : Nat) : Nat := bits w 287 268
def winLines (w : Nat) : Nat := bits w 267 248
def winCin (w : Nat) : Nat := bits w 247 232
def winCout (w : Nat) : Nat := bits w 231 216
def winPad (w : Nat) : Nat := bits w 215 200
def winFD (w : Nat) : Nat := bits w 199 195 + 1
def winFH (w : Nat) : Nat := bits w 194 190 + 1
def winFW (w : Nat) : Nat := bits w 189 185 + 1
def winSD (w : Nat) : Nat := bits w 184 180 + 1
def winSH (w : Nat) : Nat := bits w 179 175 + 1
def winSW (w : Nat) : Nat := bits w 174 170 + 1
def winDD (w : Nat) : Nat := bits w 169 167 + 1
def winDH (w : Nat) : Nat := bits w 166 164 + 1
def winDW (w : Nat) : Nat := bits w 163 161 + 1
def winPDlo (w : Nat) : Nat := bits w 160 156
def winPDhi (w : Nat) : Nat := bits w 155 151
def winPHlo (w : Nat) : Nat := bits w 150 146
def winPHhi (w : Nat) : Nat := bits w 145 141
def winPWlo (w : Nat) : Nat := bits w 140 136
def winPWhi (w : Nat) : Nat := bits w 135 131
def winS2c (w : Nat) : Nat := 2 ^ bits w 130 129
def winC2s (w : Nat) : Nat := 2 ^ bits w 128 127
def winAxisH (w : Nat) : Bool := bit w 126
def winChained (w : Nat) : Bool := bit w 125

/-- Logical channels, and the same rounded up to whole slabs (R214). -/
def winC (w : Nat) : Nat := winS2c w * winS2c w * winCin w
def winCp (w : Nat) : Nat := cdiv (winC w) 32 * 32

/-- The output extent of one axis (R215). -/
def outExtent (i lo hi f st d : Nat) : Nat :=
  let x : Int := (i : Int) + lo + hi - d * (f - 1 : Nat) - 1
  if x < 0 then 0 else x.toNat / st + 1

/-- OD, OH and OW of a window at raw input extents (R214, R215). -/
def winOD (w id : Nat) : Nat := outExtent id (winPDlo w) (winPDhi w) (winFD w) (winSD w) (winDD w)
def winOH (w ih : Nat) : Nat := outExtent (ih / winS2c w) (winPHlo w) (winPHhi w) (winFH w) (winSH w) (winDH w)
def winOW (w iw : Nat) : Nat := outExtent (iw / winS2c w) (winPWlo w) (winPWhi w) (winFW w) (winSW w) (winDW w)

/-- Element bytes of a windowed A format (R218). -/
def winElem (fmt : Nat) : Nat := fmtBits fmt / 8

/-- A window record outside Table 8.1 (0x0160); `fmt` is the A format. -/
def winBad (w fmt : Nat) : Bool :=
  bits w 124 0 != 0 || winCin w == 0 || (winC2s w == 1 && winCout w != 0) || (winC2s w != 1 && winCout w == 0) ||
    (fmtBits fmt == 8 && bits w 215 208 != 0) || (winChained w && winVa w != 0) ||
    shapeBad (winSrcW w) || shapeBad (winSrcH w) || shapeBad (winSrcD w)

/-! #### Stripes (R220, R221) -/

/-- Output positions per stripe-axis slice. -/
def sliceOut (w od oh ow : Nat) : Nat := if winAxisH w then od * ow else oh * ow

/-- The logical input slices that a run of output rows needs: first and one above last; (0, 0) where it needs none. -/
def slicesFor (w id ih iw rowLo rowHi : Nat) : Nat × Nat :=
  let od := winOD w id
  let oh := winOH w ih
  let ow := winOW w iw
  let per := sliceOut w od oh ow
  if per = 0 ∨ rowHi ≤ rowLo then (0, 0) else
  let lo := rowLo / per
  let hi := (rowHi - 1) / per
  let (i, st, d, f, p) :=
    if winAxisH w then (ih / winS2c w, winSH w, winDH w, winFH w, winPHlo w)
    else (id, winSD w, winDD w, winFD w, winPDlo w)
  let a := lo * st - p
  let b : Int := min ((i : Int) - 1) ((hi * st : Nat) - (p : Int) + (d * (f - 1) : Nat))
  if (a : Int) ≤ b then (a, b.toNat + 1) else (0, 0)

/-- Raw slices per logical slice: f under H striping (R220). -/
def rawPer (w : Nat) : Nat := if winAxisH w then winS2c w else 1

/-- Bytes of one raw slice (R221). -/
def sliceBytes (w fmt id ih iw : Nat) : Nat :=
  (if winAxisH w then id * iw else ih * iw) * winCin w * winElem fmt

/-- Whether a stripe of `n` logical slices exceeds the staging area. -/
def stripeOver (w fmt id ih iw n : Nat) : Bool :=
  decide (winLines w * 128 < n * rawPer w * sliceBytes w fmt id ih iw)

/-! ### Kernel images -/

def KImage.windowed (k : KImage) : Bool := bit k.head 0
def KImage.gated (k : KImage) : Bool := bit k.head 1
def KImage.recipe (k : KImage) : Bool := bit k.head 2
def KImage.recIndex (k : KImage) : Nat := bits k.head 31 16
def KImage.base (k : KImage) (i : Nat) : Nat := nth k.bases i 0
def KImage.par (k : KImage) (i : Nat) : Nat := nth k.params i 0

/-- The gate record (Table 11.8). -/
def gateRows (g : Nat) : Nat := bits g 63 32
def gateClear (g : Nat) : Bool := bit g 18
def gateB (g : Nat) : Bool := bit g 17
def gateBitmap (g : Nat) : Nat := bits g 16 14
def gateOn (g : Nat) : Bool := bit g 13
def gateBad (g : Nat) : Bool :=
  bits g 127 64 != 0 || bits g 31 19 != 0 || bits g 12 0 != 0 || gateRows g == 0 || decide (16777216 < gateRows g)

/-- `n` little-endian numbers of `size` bytes. -/
def numbers (size : Nat) : Nat → List Byte → List Nat
  | 0, _ => []
  | n + 1, l => ofBytes (l.take size) :: numbers size n (l.drop size)

/-- The image that 1,024 bytes hold (Table 13.6). -/
def KImage.parse (l : List Byte) : KImage :=
  let head := ofBytes (l.take 8)
  let words := fun (o n : Nat) => numbers 8 n (l.drop o)
  ⟨head, words 8 (bits head 35 32 + 1), (if bit head 2 then words 136 (bits head 39 36 + 1) else []),
    ofBytes ((l.drop 264).take 64), numbers 32 8 (l.drop 328), numbers 32 8 (l.drop 584),
    ofBytes ((l.drop 840).take 64), ofBytes ((l.drop 904).take 16)⟩

/-- Whether a run of bytes is zero. -/
def zeroRun (l : List Byte) (a b : Nat) : Bool := ((l.take b).drop a).all fun x => x == 0

/-- A recipe record of the resident package (Table 4.1). -/
def State.recipeRec (s : State) (i : Nat) : Option Nat := match s.package with | some p => p.recipes[i]? | none => none

def recipeLayer (r : Nat) : Nat := bits r 63 48
def recipeNarrowA (r : Nat) : Nat := bits r 47 44
def recipeNarrowB (r : Nat) : Nat := bits r 43 40
def recipeWideA (r : Nat) : Nat := bits r 39 36
def recipeWideB (r : Nat) : Nat := bits r 35 32
def recipeCap (r : Nat) : Nat := nth [0, 1, 2, 4] (bits r 31 30) 0
def recipeSideB (r : Nat) : Bool := bit r 29
def recipeClip (r : Nat) : Nat := bits r 28 26

/-- Whether an image breaks the layout of Table 13.6 (0x0608). -/
def State.imageBad (s : State) (l : List Byte) : Bool :=
  let head := ofBytes (l.take 8)
  bits head 15 3 != 0 || bits head 63 40 != 0 ||
    !zeroRun l (8 + 8 * (bits head 35 32 + 1)) 136 ||
    !zeroRun l (if bit head 2 then 136 + 8 * (bits head 39 36 + 1) else 136) 264 ||
    (!bit head 0 && !zeroRun l 840 904) || (!bit head 1 && !zeroRun l 904 920) || !zeroRun l 920 1024 ||
    (bit head 2 && (s.recipeRec (bits head 31 16)).isNone)

/-- Side entries per row of the A and B slabs of a program of an image: those of the narrow program's recipe (R96). -/
def State.sideOf (s : State) (k : KImage) (wide : Bool) : Nat × Nat :=
  if !k.recipe || wide then (0, 0) else
  match s.recipeRec k.recIndex with
  | none => (0, 0)
  | some r => if recipeSideB r then (0, recipeCap r) else (recipeCap r, 0)

/-- The programs of an image, each with whether it is the wide one. -/
def KImage.progs (k : KImage) : List (List Nat × Bool) :=
  if k.recipe then [(k.prog0, false), (k.prog1, true)] else [(k.prog0, false)]

/-- Ring placement and reuse of a program (R42): 0x0105, 0x0106 or 0. -/
def ringStatus (c : Nat) (side : Nat × Nat) (p : List Nat) : Nat :=
  let a := wordOf p 2
  let b := wordOf p 3
  let la := slabLines (loadFmt a) (recM c) side.1
  let lb := slabLines (loadFmt b) (recN c) side.2
  let one := fun (w l : Nat) => loadLines w == 0 || decide (384 < loadStart w + loadLines w) || l == 0 ||
    loadLines w % l != 0 || decide (loadLines w < 2 * l)
  let maxK := min (recKPass c) (slabsFor (recMaxK c))
  if one a la || one b lb || rangesMeet' (loadStart a, loadLines a) (loadStart b, loadLines b) then 0x0105
  else if (loadReuse a && decide (loadLines a / la < maxK)) || (loadReuse b && decide (loadLines b / lb < maxK)) then 0x0106
  else 0
where
  /-- Whether two runs of lines meet. -/
  rangesMeet' (a b : Nat × Nat) : Bool := decide (a.1 < b.1 + b.2) && decide (b.1 < a.1 + a.2)

/-! ### Extents as lattices of byte runs (R127, R128) -/

/-- A set of byte runs: a first byte, dimensions as (count, stride), and the bytes of each run. -/
abbrev Lattice := Nat × List (Nat × Nat) × Nat

def latticeEmpty (x : Lattice) : Bool := x.2.2 == 0 || x.2.1.any fun d => d.1 == 0

/-- First byte and one above the last byte. -/
def latticeSpan (x : Lattice) : Nat × Nat := (x.1, x.1 + sumNat (x.2.1.map fun d => (d.1 - 1) * d.2) + x.2.2)

/-- First bytes of a lattice's runs. -/
def latticeStarts (a : Nat) : List (Nat × Nat) → List Nat
  | [] => [a]
  | d :: r => (List.range d.1).flatMap fun i => latticeStarts (a + i * d.2) r

/-- Smallest and largest sum of d · c over ranges. -/
def rangeSum (l : List (Int × Int × Int)) : Int × Int :=
  l.foldl (fun acc d => (acc.1 + min (d.1 * d.2.2) (d.2.1 * d.2.2), acc.2 + max (d.1 * d.2.2) (d.2.1 * d.2.2))) (0, 0)

/-- Whether integers within ranges (lo, hi) sum, weighted by c, into [lo, hi] with `acc` added; not all of them zero where
`need`. -/
def latticeHit : List (Int × Int × Int) → Int → Int → Int → Bool → Bool
  | [], acc, lo, hi, need => !need && decide (lo ≤ acc) && decide (acc ≤ hi)
  | (a, b, c) :: r, acc, lo, hi, need =>
    if b < a then false
    else if c = 0 then latticeHit r acc lo hi (need && a == 0 && b == 0)
    else
      let (rl, rh) := rangeSum r
      let (a, b, k, sg) := if c < 0 then (-b, -a, -c, (-1 : Int)) else (a, b, c, (1 : Int))
      let first := max a (-((acc + rh - lo) / k))
      let last := min b ((hi - acc - rl) / k)
      (List.range (last + 1 - first).toNat).any fun i =>
        let d := (first + i) * sg
        latticeHit r (acc + d * c) lo hi (need && d == 0)

/-- Dimensions in descending stride, which keeps the search short. -/
def insertDim (d : Int × Int × Int) : List (Int × Int × Int) → List (Int × Int × Int)
  | [] => [d]
  | e :: r => if e.2.2.natAbs ≤ d.2.2.natAbs then d :: e :: r else e :: insertDim d r

def sortDims (l : List (Int × Int × Int)) : List (Int × Int × Int) := l.foldr insertDim []

/-- Whether two distinct positions of one lattice share a byte. -/
def latticeSelf (x : Lattice) : Bool :=
  !latticeEmpty x && latticeHit (sortDims (x.2.1.map fun d => (1 - (d.1 : Int), (d.1 : Int) - 1, (d.2 : Int))))
    0 (1 - (x.2.2 : Int)) ((x.2.2 : Int) - 1) true

/-- Whether two lattices share a byte. -/
def latticeMeet (x y : Lattice) : Bool :=
  !latticeEmpty x && !latticeEmpty y && latticeHit
    (sortDims ((x.2.1.map fun d => (0, (d.1 : Int) - 1, (d.2 : Int))) ++ y.2.1.map fun d => (0, (d.1 : Int) - 1, -(d.2 : Int))))
    ((x.1 : Int) - (y.1 : Int)) (1 - (x.2.2 : Int)) ((y.2.2 : Int) - 1) false

/-- Whether a lattice lies within one allocation that a context may use (R127, R249). -/
def State.latticeOk (s : State) (cx : Nat) (write : Bool) (x : Lattice) : Bool :=
  latticeEmpty x ||
    let (lo, hi) := latticeSpan x
    (s.allocFor cx write (lo / 128) ((hi - 1) / 128 + 1 - lo / 128)).isSome

/-- Every DRAIN word of a program and the reduce_drain of its kernel. -/
def outWords (k : KImage) (p : List Nat) : List Nat :=
  drainsOf p ++ (if recReduce k.counter = 0 then [] else [recReduce k.counter])

/-- The extent of an operand set at the declared maxima. -/
def operandLattice (k : KImage) (w rows tiles side : Nat) : Lattice :=
  let b := k.base (loadBase w)
  (baseLine b * 128,
    [(tiles, baseTile b), (recMaxB k.counter, baseBatch b), (slabsFor (recMaxK k.counter), baseInner b)],
    slabBytes (loadFmt w) rows side)

/-- The extents of a program's operands: A, but for a windowed kernel, and B. -/
def State.operandLattices (s : State) (k : KImage) (p : List Nat × Bool) : List Lattice :=
  let c := k.counter
  let side := s.sideOf k p.2
  (if k.windowed then [] else [operandLattice k (wordOf p.1 2) (recM c) (cdiv (recMaxM c) (recM c)) side.1]) ++
    [operandLattice k (wordOf p.1 3) (recN c) (cdiv (recMaxN c) (recN c)) side.2]

/-- Target positions of a channel-to-space output at the declared maxima (R229). -/
def c2sPositions (w : Nat) : Nat :=
  winOD w (winMaxD w) * (winOH w (winMaxH w) * winC2s w) * (winOW w (winMaxW w) * winC2s w)

/-- A windowed kernel's bound_m at the declared maxima of its input extents (R215), for its stripes (R223). -/
def KImage.windowMaxM (k : KImage) : Nat :=
  winOD k.window (winMaxD k.window) * winOH k.window (winMaxH k.window) * winOW k.window (winMaxW k.window)

/-- The extent of an output set at the declared maxima, partial slots included (R127, R132, R229). -/
def outputLattice (k : KImage) (w : Nat) : Lattice :=
  let c := k.counter
  let b := k.base (drainBase w)
  let e := fmtBits (drainFmt w) / 8
  (baseLine b * 128,
    (if k.windowed && winC2s k.window != 1 then [(c2sPositions k.window, baseInner b), (winCout k.window, e)]
    else [(recMaxB c, baseBatch b), (cdiv (recMaxM c) (recM c), baseTile b), (cdiv (recMaxN c) (recN c), baseTileN b),
      (recM c, baseInner b), (recN c, e)]) ++ (if drainPartial w then [(recPMax c, recStridePartial c)] else []), e)

/-- The output words that write the infield. -/
def infieldOuts (k : KImage) (p : List Nat) : List Nat := (outWords k p).filter fun w => !drainLink w

/-- Whether two output positions of a program overlap: in the infield, or as entries of one link stream (R128, R324). -/
def outsOverlap (k : KImage) (p : List Nat) : Bool :=
  let ws := outWords k p
  ws.any (fun w => latticeSelf (outputLattice k w)) ||
    ws.zipIdx.any fun a => ws.zipIdx.any fun b => decide (a.2 < b.2) && drainLink a.1 == drainLink b.1 &&
      drainStream a.1 == drainStream b.1 && latticeMeet (outputLattice k a.1) (outputLattice k b.1)

/-! ### Load checks -/

/-- Base sets that operand words and output words name. -/
def operandBases (k : KImage) : List Nat :=
  k.progs.flatMap fun p => [k.base (loadBase (wordOf p.1 2)), k.base (loadBase (wordOf p.1 3))]
def outputBases (k : KImage) : List Nat :=
  k.progs.flatMap fun p => (outWords k p.1).map fun w => k.base (drainBase w)

/-- The program checks of chapter 2 and R94, in order; 0 where all pass. -/
def State.coreChecks (s : State) (k : KImage) : Nat :=
  match (k.progs.map fun p => programStatus p.1).find? fun x => x != 0 with
  | some st => st
  | none =>
  let mma := fun (p : List Nat) => (bits (wordOf p 4) 59 56, bits (wordOf p 4) 55 52)
  if (match k.recipe, s.recipeRec k.recIndex with
      | true, some r => mma k.prog0 != (recipeNarrowA r, recipeNarrowB r) || mma k.prog1 != (recipeWideA r, recipeWideB r)
      | _, _ => false) then 0x0103 else
  match (k.progs.map fun p => ringStatus k.counter (s.sideOf k p.2) p.1).find? fun x => x != 0 with
  | some st => st
  | none =>
  let notLine := fun (x : Nat) => x % 128 != 0
  if (operandBases k ++ outputBases k).any baseReserved || k.params.any parBad ||
      (operandBases k).any (fun b => baseTileN b != 0) then 0x0101
  else if (operandBases k).any (fun b => notLine (baseTile b) || notLine (baseBatch b) || notLine (baseInner b)) ||
      (outputBases k).any (fun b => notLine (baseTile b) || notLine (baseBatch b) || notLine (baseTileN b)) then 0x0108
  else if k.progs.any fun p => (drainsOf p.1).any drainBad then 0x0109
  else 0

/-- Whether the split-K structure of R132 holds. -/
def splitOk (k : KImage) : Bool :=
  let c := k.counter
  let rd := recReduce c
  if 1 < recPMax c then
    !wordBad rd && opWord rd == 6 && fmtDrain (drainFmt rd) && !drainPartial rd && !drainBad rd &&
      k.progs.all fun p => (drainsOf p.1).length == 1 && (drainsOf p.1).all fun d => drainPartial d && !drainLink d
  else rd == 0 && k.progs.all fun p => (drainsOf p.1).all fun d => !drainPartial d

/-- The counter-record checks of Table 5.3, in order; 0 where all pass. -/
def State.counterChecks (s : State) (cx : Nat) (k : KImage) : Nat :=
  let c := k.counter
  let tm := cdiv (recMaxM c) (recM c)
  let tn := cdiv (recMaxN c) (recN c)
  if bits c 106 0 != 0 || shapeBad (recSrcB c) || shapeBad (recSrcK c) || shapeBad (recSrcN c) || shapeBad (recSrcM c) ||
      decide (1 < recOrder c) || recLive c == 0 then 0x0148
  else if recKOuter c || decide (2 < recLive c) then 0x0140
  else if recM c % 8 != 0 || recM c == 0 || decide (64 < recM c) || recN c % 8 != 0 || recN c == 0 || decide (64 < recN c) ||
      recKPass c == 0 then 0x0141
  else if 128 < recKPass c then 0x0107
  else if 65536 < slabsFor (recMaxK c) then 0x0143
  else if 1024 < recPMax c then 0x0211
  else if 65536 < tm ∨ 65536 < tn ∨ 65536 < recMaxB c ∨ 4294967296 < recMaxB c * tm * tn * recPMax c then 0x0144
  else if !splitOk k then 0x0145
  else if 1 < recPMax c ∧ recStridePartial c % 128 ≠ 0 then 0x0108
  else if k.progs.any fun p => (s.operandLattices k p).any (fun x => !s.latticeOk cx false x) ||
      (infieldOuts k p.1).any (fun w => !s.latticeOk cx true (outputLattice k w)) then 0x0142
  else if k.progs.any fun p => outsOverlap k p.1 then 0x0146
  else if k.progs.any fun p => (infieldOuts k p.1).any fun w =>
      k.progs.any fun q => (s.operandLattices k q).any fun x => latticeMeet (outputLattice k w) x then 0x0147
  else if recBandTiles c ≠ 0 ∧ 512 < recBandFirst c + cdiv tm (recBandTiles c) then 0x0149
  else 0

/-- Tile rows of a rank's range and its output rows, as first and one above last (R115, R220). -/
def rankRows (tm tn m boundM rank : Nat) : Nat × Nat :=
  let tt := tm * tn
  let t0 := tt * rank / 75
  let t1 := tt * (rank + 1) / 75
  if tn = 0 ∨ t1 ≤ t0 then (0, 0) else (t0 / tn * m, min boundM (((t1 - 1) / tn + 1) * m))

/-- The input stripe of a rank at given extents (R220). -/
def stripeOf (k : KImage) (boundM boundN id ih iw rank : Nat) : Nat × Nat :=
  let c := k.counter
  let r := rankRows (cdiv boundM (recM c)) (cdiv boundN (recN c)) (recM c) boundM rank
  slicesFor k.window id ih iw r.1 r.2

/-- Whether any rank's stripe exceeds the staging area at given extents (R223). -/
def stagingOver (k : KImage) (fmt boundM boundN id ih iw : Nat) : Bool :=
  (List.range 75).any fun r =>
    let x := stripeOf k boundM boundN id ih iw r
    stripeOver k.window fmt id ih iw (x.2 - x.1)

/-- The staging area as a byte range. -/
def stageLattice (w : Nat) : Lattice := (winLine w * 128, [], winLines w * 128)

/-- The window checks (R213, R218, R223), in order; 0 where all pass or the image has no window. -/
def State.windowChecks (s : State) (cx : Nat) (k : KImage) : Nat :=
  if !k.windowed then 0 else
  let w := k.window
  let c := k.counter
  let fmt := loadFmt (wordOf k.prog0 2)
  let kk := winFD w * winFH w * winFW w * winCp w
  let f := winC2s w
  if winBad w fmt then 0x0160
  else if k.progs.any fun p => let x := loadFmt (wordOf p.1 2); !(x == 1 || x == 2 || x == 3 || x == 4 || x == 10) then 0x0161
  else if recSrcM c != 0 || recSrcB c != 1 || recMaxB c != 1 || recOrder c != 0 || recSrcK c != kk || recMaxK c != kk ||
      (f != 1 && (recSrcN c != f * f * winCout w || recMaxN c != f * f * winCout w)) then 0x0162
  else if stagingOver k fmt k.windowMaxM (recMaxN c) (winMaxD w) (winMaxH w) (winMaxW w) ||
      (k.progs.any fun p => (s.operandLattices k p).any (fun x => latticeMeet (stageLattice w) x) ||
        (infieldOuts k p.1).any fun o => latticeMeet (stageLattice w) (outputLattice k o)) then 0x0163
  else if !s.latticeOk cx true (stageLattice w) then 0x0142
  else 0

/-- The check of R324 on deliveries to link streams. -/
def State.streamChecks (s : State) (cx : Nat) (k : KImage) : Nat :=
  let c := k.counter
  if k.progs.any fun p => (outWords k p.1).any fun w => drainLink w &&
      (baseInner (k.base (drainBase w)) != 4 * recN c ||
        decide (s.streamSpan (drainStream w) < recM c * recN c + 1600) ||
        !((s.stream (drainStream w)).bound && s.streamCx (drainStream w) == cx)) then 0x0412 else 0

/-- Every load check of an image, in order (R362). -/
def State.loadChecks (s : State) (cx : Nat) (l : List Byte) (k : KImage) : Nat :=
  if s.imageBad l then 0x0608
  else if s.coreChecks k ≠ 0 then s.coreChecks k
  else if s.counterChecks cx k ≠ 0 then s.counterChecks cx k
  else if k.gated && gateBad k.gate then 0x0148
  else if s.windowChecks cx k ≠ 0 then s.windowChecks cx k
  else s.streamChecks cx k

/-- A kernel slot of a context written. -/
def State.setSlot (s : State) (cx i : Nat) (v : Option KImage) : State :=
  let c := s.ctx cx
  s.setCtx cx { c with slots := tput c.slots i v none }

def State.slot (s : State) (cx i : Nat) : Option KImage := tget (s.ctx cx).slots i none

/-- LOAD_KERNEL's work: the image is read and checked; the slot is written only if every check passes. -/
def loadWork (s : State) (id : CmdId) (c : Cmd) : State :=
  match s.cvaRead id (fld c.desc 303 256) 1024 with
  | (0, l) =>
    let bytes := unmark l
    let k := KImage.parse bytes
    let s := s.noteRead id (s.isLive id.cx) (fld c.desc 303 256) 1024
    if anyPoison l then s.consumePoison id
    else if s.loadChecks id.cx bytes k ≠ 0 then s.finish id (s.loadChecks id.cx bytes k) 0
    else (s.setSlot id.cx (fld c.desc 197 192) (some k)).finish id 0 0
  | (st, _) => s.finish id st 0

/-- LOAD_KERNEL. -/
def execLoadKernel (cx : Fin 16) (s : State) : Out :=
  .next (s.issueHead cx 0 (wantKind 1) (fun t c => t.pinsOf cx [(fld c.desc 303 256, 1024)]) loadWork)

end Sys2Proof.Machine
end

