-- ==== Sys2Proof/Machine/Claims.lean ====
section
/-!
DEFINITION. Claim spaces, lap counters, the issue, cancellation and end of kernels, and claims (R111 to R145, R224 to
R228, R382).
-/

namespace Sys2Proof.Machine

open Sys2Proof

/-! ### The claim space (R113 to R115) -/

def Kernel.m (k : Kernel) : Nat := recM k.image.counter
def Kernel.n (k : Kernel) : Nat := recN k.image.counter
def Kernel.tm (k : Kernel) : Nat := cdiv k.boundM k.m
def Kernel.tn (k : Kernel) : Nat := cdiv k.boundN k.n
def Kernel.ks (k : Kernel) : Nat := slabsFor k.boundK
def Kernel.parts (k : Kernel) : Nat := partialsFor (recKPass k.image.counter) k.boundK
/-- Tt, the tiles of the kernel. -/
def Kernel.tiles (k : Kernel) : Nat := k.boundB * k.tm * k.tn

/-- The tiles of a rank: the first and one above the last (R115). -/
def Kernel.range (k : Kernel) (rank : Nat) : Nat × Nat := (k.tiles * rank / 75, k.tiles * (rank + 1) / 75)

/-- The rank that owns a tile. -/
def Kernel.owner (k : Kernel) (t : Nat) : Nat :=
  ((List.range 75).find? fun r => decide ((k.range r).1 ≤ t) && decide (t < (k.range r).2)).getD 0

/-- tile_m, tile_n and tile_b of a tile (R114). -/
def Kernel.place (k : Kernel) (t : Nat) : Nat × Nat × Nat :=
  if recOrder k.image.counter = 0 then (t / k.tn % k.tm, t % k.tn, t / (k.tn * k.tm))
  else (t % k.tm, t / k.tm % k.tn, t / (k.tn * k.tm))

/-- The tile index of a place. -/
def Kernel.tileAt (k : Kernel) (tm tn tb : Nat) : Nat :=
  if recOrder k.image.counter = 0 then (tb * k.tm + tm) * k.tn + tn else (tb * k.tn + tn) * k.tm + tm

/-- The claim registers of a claim served by a rank's counter (R39, R114). -/
def Kernel.pass (k : Kernel) (counter rank i : Nat) : Pass :=
  let p := i % k.parts
  let (tm, tn, tb) := k.place (i / k.parts)
  let kf := p * recKPass k.image.counter
  ⟨counter, rank, i, tm, tn, tb, min k.m (k.boundM - tm * k.m), min k.n (k.boundN - tn * k.n), kf,
    (if k.ks = 0 then 0 else min (recKPass k.image.counter) (k.ks - kf)), 0, 0, 0, 0, 0, false, false, false, 0, [], false⟩

/-- Whether the kernel's tiles pass through stage C (R132, R133). -/
def Kernel.split (k : Kernel) : Bool := decide (1 < recPMax k.image.counter)

/-! ### Which kernels run -/

/-- The issued kernel of a command, with its counter index. -/
def State.kernelOf (s : State) (id : CmdId) : Option (Nat × Kernel) :=
  s.tiles.kernels.findSome? fun e => match e.2 with
    | some k => if k.cmd = id then some (e.1, k) else none
    | none => none

/-- The running kernels of a context, in ring order. -/
def State.kernelsOf (s : State) (cx : Nat) : List (Nat × Kernel) :=
  (s.ring cx 0).cmds.filterMap fun c => s.kernelOf ⟨cx, 0, c.index⟩

/-- The running kernels of the context that holds the fields. -/
def State.runs (s : State) : List (Nat × Kernel) :=
  match s.sched.holder with
  | none => []
  | some cx => (s.kernelsOf cx).filter fun e => !e.2.cancelled

/-- The kernel whose program a core runs: the one it was loaded with, else the oldest; none while another context holds the
fields, or none does (R382, R384). -/
def State.coreKernel (s : State) (c : Core) : Option (Nat × Kernel) :=
  match c.kern with
  | some i => match s.kernel i with
    | some k => if s.sched.holder = some k.cmd.cx then some (i, k) else none
    | none => s.runs.head?
  | none => s.runs.head?

/-- The chained kernel that waits for the cores of a producer (R228). -/
def State.chainedTo (s : State) (i : Nat) : Option Nat :=
  match s.kernel i with
  | some k => (s.runs.find? fun e => e.2.producer == some k.cmd).map Prod.fst
  | none => none

/-- A pass's kernel. -/
def State.passKernel (s : State) (p : Pass) : Option Kernel := s.kernel p.counter

/-- Whether a site has no core in service left: its 4,000 factory places are all out and no spare has come in (R449). -/
def State.coresGone (s : State) (site : Nat) : Bool :=
  let l := s.tiles.coreSites.filter fun e => e.1 / 4096 == site
  (l.filter fun e => decide (e.1 % 4096 < 4000)).length == 4000 && l.all fun e => e.2.use != .inService

/-- Whether a field's cores have all stopped (R120, R140): by temperature, with a CRITICAL or STOPPED stack, or lost one by
one. -/
def State.computeStopped (s : State) (rank : Nat) : Bool :=
  (match s.siteOf rank with | some n => (s.site n).stopped || s.coresGone n | none => true) ||
    (s.stack rank).mode == .critical || (s.stack rank).mode == .stopped

/-- Whether a core may run: in service, on an active site whose cores are not stopped. -/
def State.coreRuns (s : State) (site core : Nat) : Bool :=
  (s.coreSite site core).use == .inService &&
    match (s.site site).rank with
    | some r => (s.site site).use == .active && !s.computeStopped r
    | none => false

/-! ### Windows, gates and streams that hold claims back (R224, R318, R326) -/

/-- Whether every input slice of a tile row's positions is staged in a rank (R224). -/
def Kernel.winOpen (k : Kernel) (rank tm : Nat) : Bool :=
  let w := k.image.window
  let (a, b) := slicesFor w k.inD k.inH k.inW (tm * k.m) (min k.boundM ((tm + 1) * k.m))
  (List.range ((b - a) * rawPer w)).all fun i => k.staged.contains (65536 * rank + a * rawPer w + i)

/-- Whether the arrival bits of a gated tile are set in a rank (R318). -/
def State.gateOpen (s : State) (k : Kernel) (rank tm tn : Nat) : Bool :=
  let g := k.image.gate
  if !(k.image.gated && gateOn g) then true else
  let (t, size) := if gateB g then (tn, k.n) else (tm, k.m)
  let first := t * size / gateRows g
  let last := (t * size + size - 1) / gateRows g
  (List.range (last + 1 - first)).all fun i =>
    s.tiles.arrival.contains (32768 * rank + 4096 * gateBitmap g + min 4095 (first + i))

/-- The first entry index of a tile in a stream's message (R324). -/
def Kernel.firstEntry (k : Kernel) (w tm tn tb : Nat) : Nat :=
  let b := k.image.base (drainBase w)
  baseLine b * 32 + (tb * baseBatch b + tm * baseTile b + tn * baseTileN b) / 4

/-- Whether every dest-1 word of a list finds a tile sendable (R326). -/
def State.tileSendable (s : State) (k : Kernel) (ws : List Nat) (tm tn tb : Nat) : Bool :=
  ws.all fun w => !drainLink w || s.sendable (drainStream w) (k.firstEntry w tm tn tb + k.m * k.n - 1)

/-- Whether a claim's tile is open for a claim. -/
def State.claimOpen (s : State) (k : Kernel) (rank i : Nat) : Bool :=
  let (tm, tn, tb) := k.place (i / k.parts)
  (!k.image.windowed || k.winOpen rank tm) && s.gateOpen k rank tm tn && s.tileSendable k (drainsOf k.prog) tm tn tb

/-! ### Claims (R117 to R120) -/

/-- What a counter answers a claim. -/
inductive Served where
  | tile (i : Nat)
  | closed
  | none
  deriving DecidableEq, Repr

/-- A counter's answer to a local claim, or to one by hand-off. -/
def State.serve (s : State) (k : Kernel) (rank : Nat) (l : LapCounter) (handoff : Bool) : Served :=
  match l.retry with
  | i :: _ => if s.claimOpen k rank i then .tile i else .closed
  | [] =>
    if l.stop ≤ l.next then .none
    else
      let i := if handoff then l.stop - 1 else l.next
      if s.claimOpen k rank i then .tile i else .closed

/-- A claim given out: off the retry list or the fresh range, into the claim table (R118). -/
def giveOut (l : LapCounter) (i site core : Nat) : LapCounter :=
  let l := if l.retry.head? = some i then { l with retry := l.retry.drop 1 }
    else if i = l.next then { l with next := l.next + 1 }
    else { l with stop := l.stop - 1 }
  { l with held := l.held ++ [⟨i, site, core⟩], mode := if l.next < l.stop then l.mode else .exhausted }

/-- The ranks a hand-off tries, in order (R119). -/
def handRanks (r : Nat) : List Nat :=
  (List.range 74).map fun i => if i % 2 = 0 then (r + i / 2 + 1) % 75 else (r + 75 - (i / 2 + 1)) % 75

/-- A tile taken for a core from a rank's counter: the counters' entries and the core's new pass. -/
def State.takeTile (s : State) (k : Kernel) (counter site core own rank i : Nat) : State :=
  let t := s.setLap rank counter (giveOut (s.lap rank counter) i site core)
  let t := if rank = own then t else
    let a := t.lap rank counter
    let t := t.setLap rank counter { a with handOut := wrap32 (a.handOut + 1) }
    let b := t.lap own counter
    t.setLap own counter { b with handIn := wrap32 (b.handIn + 1) }
  let c := t.core site core
  t.setCore site core { c with passes := c.passes ++ [{ k.pass counter rank i with issued := 1 }], gateWait := false }

/-- Whether a field may claim from a rank's counter of a kernel: its own rank, one that hand-off is set for, or one whose
field has stopped compute (R119, R120). -/
def State.mayServe (s : State) (k : Kernel) (own rank : Nat) : Bool :=
  rank == own || claimHandoff (wordOf k.prog 1) || s.computeStopped rank

/-- The answer to a core's claim: the rank and index, closed, or no tile. -/
def State.findTile (s : State) (k : Kernel) (counter own : Nat) : Option (Nat × Nat) × Bool :=
  let l := s.lap own counter
  match s.serve k own l false with
  | .tile i => (some (own, i), false)
  | .closed => (none, true)
  | .none =>
    let answers := (handRanks own).filterMap fun r =>
      if s.mayServe k own r then
        match s.serve k r (s.lap r counter) true with
        | .tile i => some (some (r, i))
        | .closed => some none
        | .none => none
      else none
    match answers.findSome? id with
    | some x => (some x, false)
    | none => (none, !answers.isEmpty)

/-- A core without a tile: it stops, and where a chained kernel waits it is loaded with that kernel's program once it
holds no pass (R34, R228). -/
def State.noTile (s : State) (counter site core : Nat) : State :=
  let c := s.core site core
  match s.chainedTo counter, c.passes with
  | some j, [] => s.setCore site core { Core.empty with kern := some j }
  | _, _ => s.setCore site core { c with stopped := true, gateWait := false }

/-- Whether a core without a claim, at the chained kernel's program, has returned claims of the producer to take (R228). -/
def State.strayFor (s : State) (producer : Nat) (key : Nat) (c : Core) : Bool :=
  c.passes.isEmpty && (c.gateWait || c.stopped) && s.coreRuns (key / 4096) (key % 4096) &&
    match s.kernel producer, s.rankOf (key / 4096) with
    | some k, some own => (List.range 75).any fun r =>
      let l := s.lap r producer
      (!l.retry.isEmpty || (decide (l.next < l.stop) && s.computeStopped r)) && s.mayServe k own r
    | _, _ => false

/-- A core that waits on the chained kernel, holding no claim, returns to its producer, which has returned claims that the
core may take (R228). -/
def State.returnCore (s : State) (producer : Nat) : State :=
  match s.chainedTo producer with
  | none => s
  | some j =>
    match s.tiles.cores.find? fun e => e.2.kern == some j && s.strayFor producer e.1 e.2 with
    | none => s
    | some e =>
      (s.setCore (e.1 / 4096) (e.1 % 4096) { Core.empty with kern := some producer }).addWrap (siteBase (e.1 / 4096) + 0x710) 1

/-- The counter of the running producer that a chained kernel names. -/
def State.producerCounter (s : State) (k : Kernel) : Option Nat := (k.producer.bind s.kernelOf).map Prod.fst

/-- A core of a chained kernel has begun to wait: where its producer has returned claims, it goes back to it (R228). -/
def State.waitBegins (s : State) (k : Kernel) : State :=
  match s.producerCounter k with
  | some j => s.returnCore j
  | none => s

/-- A core's claim on its kernel's counter: a tile, a wait for a closed one, or none. -/
def State.claim (s : State) (site core : Nat) : State :=
  match s.coreKernel (s.core site core), s.rankOf site with
  | some (i, k), some own =>
    (match s.findTile k i own with
    | (some (r, c), _) => s.takeTile k i site core own r c
    | (none, true) => (s.setCore site core { s.core site core with gateWait := true }).waitBegins k
    | (none, false) => (s.noTile i site core).waitBegins k)
  | _, _ => s

/-- Whether word `j` of a pass's program may issue behind the pass before it (R33): run-ahead covers CLAIM and the loads,
once the MMA of that pass has issued and no FENCE stands between. -/
def mayRunAhead (prog : List Nat) (before : Option Pass) (op : Nat) : Bool :=
  match before with
  | none => true
  | some p =>
    p.issued == prog.length ||
      ((op == 1 || op == 2 || op == 3) && (prog.take p.issued).any (fun w => opWord w == 4) &&
        !(prog.drop p.issued).any fun w => opWord w == 7)

/-- Whether a core may issue its CLAIM now: the newest pass allows it and no more than two claims are held. -/
def State.claimReady (s : State) (site core : Nat) : Bool :=
  let c := s.core site core
  s.coreRuns site core && !c.stopped && !c.gateWait && decide (c.passes.length ≤ 2) && !s.sched.switching &&
    !s.sched.halted &&
    match s.coreKernel c with
    | some (_, k) => mayRunAhead k.prog c.passes.getLast? 1
    | none => false

/-- CLAIM: the core takes the next tile and sets its claim registers (R38, R39, R117 to R120). -/
def execClaim (site : Fin 81) (core : Fin 4096) (s : State) : Out :=
  .next (if s.claimReady site core then s.claim site core else s)

/-- Clock of a field in MHz (FD_CLK). -/
def State.fieldMhz (s : State) (site : Nat) : Nat := 800 - 50 * (s.site site).steps

/-- GATED_CLAIM: a waiting CLAIM is served once a tile is open or sendable; its wait is counted in ac by WN_GATE_WAIT,
and for a gated delivery in ns by ST_WAIT (R224, R231, R326, R341). -/
def execGatedClaim (site : Fin 81) (core : Fin 4096) (gateWait : Nat) (s : State) : Out :=
  .next (
    let c := s.core site core
    if !(c.gateWait && s.coreRuns site core && !s.sched.switching && !s.sched.halted) then s else
    let t := s.claim site core
    if (t.core site core).gateWait then s else
    let t := t.addSat (siteBase site + 0x708) gateWait
    match s.coreKernel c with
    | none => t
    | some (_, k) => ((drainsOf k.prog).filter drainLink).foldl (fun u w =>
        u.streamWaited (drainStream w) (1000 * gateWait / s.fieldMhz site)) t)

/-- CORE_IDLE: a stopped core whose last drain writes are visible reports idle; a core of a producer takes the chained
kernel's program (R34, R228). -/
def execCoreIdle (site : Fin 81) (core : Fin 4096) (s : State) : Out :=
  .next (
    let c := s.core site core
    if c.stopped && c.passes.isEmpty then
      match s.coreKernel c with
      | some (i, _) => s.noTile i site core
      | none => s
    else s)

/-! ### Claims of attention commands (R201, R202) -/

/-- The claims of a rank among `n`: the first and one above the last (R115, R201). -/
def claimRange (n rank : Nat) : Nat × Nat := (n * rank / 75, n * (rank + 1) / 75)

/-- The owner rank of claim c of `n` (R201). -/
def claimRank (n c : Nat) : Nat :=
  ((List.range 75).find? fun r => decide ((claimRange n r).1 ≤ c) && decide (c < (claimRange n r).2)).getD 0

/-- An attention command's lap counter, and the number of its claims. -/
def attnIndex (c : Cmd) : Nat := fld c.ext 94 87
def attnCount (c : Cmd) (a : AttnClaim) : Nat := a.blocks * (fld c.ext 147 142 + 1)

/-- The first core of a site from `k` on that may run. -/
def State.findCore (s : State) (site : Nat) : Nat → Nat → Option Nat
  | 0, _ => none
  | fuel + 1, k => if s.coreRuns site k then some k else s.findCore site fuel (k + 1)

/-- A core for an attention claim of a rank: one of its own field; of the next field by hand-off where that field's cores
have stopped (R120, R202). The rank, the site and the core. -/
def State.attnCore (s : State) (rank : Nat) : Option (Nat × Nat × Nat) :=
  (if s.computeStopped rank then handRanks rank else [rank]).findSome? fun r =>
    (s.siteOf r).bind fun n => (s.findCore n 4096 0).map fun k => (r, n, k)

/-- The lowest claim of a counter's range, from `next` on, that an attention command has not given out. -/
def State.attnFresh (s : State) (id : CmdId) (next stop : Nat) : Nat :=
  (((List.range (stop - next)).map fun j => next + j).find? fun j =>
    s.attn.claims.any fun b => b.cmd == id && b.claim == j && !b.taken).getD stop

/-- An attention claim is given out to a core, unless it is held already: off the retry list, or off the fresh range. Claims
run at once in any number and order (R202; DESIGN CHOICE, the log's entry 70). None where no core can run it. -/
def State.attnTake (s : State) (a : AttnClaim) (c : Cmd) : Option State :=
  let i := attnIndex c
  let r := claimRank (attnCount c a) a.claim
  let l := s.lap r i
  if l.held.any fun h => h.claim == a.claim then some s else
  (s.attnCore r).map fun p =>
    let t : State := { s with attn := { s.attn with
      claims := modFirst (fun b => b.cmd == a.cmd && b.claim == a.claim) (fun b => { b with taken := true }) s.attn.claims } }
    let next := t.attnFresh a.cmd l.next l.stop
    let t := t.setLap r i { l with
      next := next
      mode := if next < l.stop then l.mode else .exhausted
      retry := l.retry.erase a.claim
      held := l.held ++ [⟨a.claim, p.2.1, p.2.2⟩]
      handOut := if p.1 = r then l.handOut else wrap32 (l.handOut + 1) }
    if p.1 = r then t else
    let b := t.lap p.1 i
    t.setLap p.1 i { b with handIn := wrap32 (b.handIn + 1) }

/-- An attention claim is complete: its table entry goes, and LC_DONE counts it. -/
def State.attnGive (s : State) (a : AttnClaim) (c : Cmd) : State :=
  let r := claimRank (attnCount c a) a.claim
  let l := s.lap r (attnIndex c)
  s.setLap r (attnIndex c) { l with held := l.held.filter fun h => h.claim != a.claim, done := wrap32 (l.done + 1) }

/-! ### Claims that return (R139, R228, R382) -/

/-- Cores of a kernel that found no tile claim again: a claim of it has returned, or a field has stopped compute (R120,
R139). -/
def State.wake (s : State) (counter : Nat) : State :=
  { s with tiles := { s.tiles with cores := s.tiles.cores.map fun e =>
      if e.2.stopped && (s.coreKernel e.2).map Prod.fst == some counter then (e.1, { e.2 with stopped := false }) else e } }

/-- The cores of every running kernel claim again, and one that has left a producer with work to do returns to it. -/
def State.wakeAll (s : State) : State := s.runs.foldl (fun t e => (t.wake e.1).returnCore e.1) s

/-- One pass's claim moves from the claim table to the retry list (R139); LC_RETURNED counts it where its core is lost
(R145), not at a withdrawal. -/
def State.returnClaim (s : State) (site core : Nat) (lost : Bool) (p : Pass) : State :=
  let l := s.lap p.rank p.counter
  if l.held.any fun h => h.claim == p.claim && h.site == site && h.core == core then
    s.setLap p.rank p.counter { l with
      held := l.held.filter fun h => !(h.claim == p.claim && h.site == site && h.core == core)
      retry := sput l.retry p.claim
      returned := if lost then wrap32 (l.returned + 1) else l.returned } |> fun t =>
        if lost then t.returnCore p.counter else t
  else s

/-- The attention claims whose table entries a test picks return to the retry lists, and the spans formed of them are
abandoned (R139, R202, R382). -/
def State.returnAttn (s : State) (which : Held → Bool) (lost : Bool) : State :=
  s.attn.claims.foldl (fun t a =>
    match t.cmd? a.cmd with
    | none => t
    | some c =>
      let r := claimRank (attnCount c a) a.claim
      let l := t.lap r (attnIndex c)
      let mine := fun (h : Held) => h.claim == a.claim && which h
      if l.held.any mine then
        let u := t.setLap r (attnIndex c) { l with
          held := l.held.filter fun h => !mine h
          retry := sput l.retry a.claim
          returned := if lost then wrap32 (l.returned + 1) else l.returned }
        { u with attn := {
          claims := modFirst (fun b => b.cmd == a.cmd && b.claim == a.claim) (fun b => { b with formed := [] }) u.attn.claims
          states := u.attn.states.filter fun p => !(p.cmd == a.cmd && p.claim == a.claim) } }
      else t) s

/-- A core's claims return and it holds nothing any more (R139, R382). -/
def State.dropCore (s : State) (site core : Nat) (lost : Bool) : State :=
  let c := s.core site core
  (c.passes.foldl (fun t p => t.returnClaim site core lost p) (s.setCore site core Core.empty)).returnAttn
    (fun h => h.site == site && h.core == core) lost

/-- Every core of a field is lost to the running kernels, and the others claim for it (R120, R140). -/
def State.dropField (s : State) (site : Nat) : State :=
  (((s.tiles.cores.filter fun e => e.1 / 4096 == site).foldl (fun t e => t.dropCore site (e.1 % 4096) true) s).returnAttn
    (fun h => h.site == site) true).wakeAll

/-- Every core of every field drops its claims: a withdrawal (R382). -/
def State.withdraw (s : State) : State :=
  (s.tiles.cores.foldl (fun t e => t.dropCore (e.1 / 4096) (e.1 % 4096) false) s).returnAttn (fun _ => true) false

/-! ### The end of a kernel -/

/-- A lap counter freed (R143). What the LC_ registers of a free counter report the manual does not state: they keep the
context and the counts, and the range is empty (DESIGN CHOICE, the log's entry 66). -/
def freeLap (l : LapCounter) : LapCounter := { l with mode := .free, next := 0, stop := 0, retry := [], held := [] }

/-- A lap counter of a cancelled kernel: it gives out nothing, and is free once the cores have reported idle (R143). -/
def cancelLap (l : LapCounter) : LapCounter := { freeLap l with mode := .cancelling }

/-- A bitmap of every rank cleared, with its chunk counts (R318, R320). -/
def State.clearBitmap (s : State) (rank b : Nat) : State :=
  { s with tiles := { s.tiles with
      arrival := s.tiles.arrival.filter fun k => k / 4096 != rank * 8 + b
      chunks := tdrop s.tiles.chunks (1048576 * (rank * 8 + b)) (1048576 * (rank * 8 + b + 1)) } }

/-- Whether a core has nothing to do with a kernel. -/
def coreFree (s : State) (i : Nat) (c : Core) : Bool :=
  c.passes.all (fun p => p.counter != i) &&
    match c.kern with
    | some j => j != i
    | none => s.runs.head?.map Prod.fst != some i

/-- A kernel of a context has ended, or was refused at issue: what a chained kernel behind it finds as its producer, and
what one that runs still reads (R226). -/
def State.notePrior (s : State) (cx : Nat) (k : Option Kernel) : State :=
  { s with tiles := { s.tiles with prior := tput s.tiles.prior cx ((k :: tget s.tiles.prior cx []).take 3) [] } }

/-- A kernel ends: its counters are let go, its cores forget it, its bitmap clears where the gate record asks (R143, R318);
its command finishes with a status. -/
def State.endWith (s : State) (i : Nat) (k : Kernel) (lap : LapCounter → LapCounter) (status : Nat) : State :=
  let t : State := { s with tiles := { s.tiles with cores := s.tiles.cores.filter fun e => coreFree s i e.2 } }
  let t := iter 75 (fun r u => u.setLap r i (lap (u.lap r i))) t
  let t := if k.image.gated && gateClear k.image.gate then
    iter 75 (fun r u => u.clearBitmap r (gateBitmap k.image.gate)) t else t
  ((t.setKernel i none).notePrior k.cmd.cx (some k)).finish k.cmd status 0

/-- A kernel ends at its hurdle, or as its own work fails: its counters are free. -/
def State.endKernel (s : State) (i : Nat) (k : Kernel) (status : Nat) : State := s.endWith i k freeLap status

/-- The address of an output position in its owner's infield (R60, R132, R229). -/
def Kernel.outAddr (k : Kernel) (w tm tn tb p r c : Nat) : Nat :=
  let b := k.image.base (drainBase w)
  let e := fmtBits (drainFmt w) / 8
  let slot := if drainPartial w then p * recStridePartial k.image.counter else 0
  if k.image.windowed && winC2s k.image.window != 1 then
    let x := k.image.window
    let f := winC2s x
    let g := tm * k.m + r
    let col := tn * k.n + c
    let od := winOD x k.inD
    let oh := winOH x k.inH
    let ow := winOW x k.inW
    let dy := col / (f * winCout x)
    let dx := col / winCout x % f
    let wi := g % ow * f + dx
    let idx := if winAxisH x then ((g / (ow * od) * f + dy) * od + g / ow % od) * (ow * f) + wi
      else (g / (ow * oh) * (oh * f) + g / ow % oh * f + dy) * (ow * f) + wi
    baseLine b * 128 + idx * baseInner b + col % winCout x * e + slot
  else
    baseLine b * 128 + tb * baseBatch b + tm * baseTile b + tn * baseTileN b + r * baseInner b + c * e + slot

/-- A function folded over the first byte of every run of a lattice. -/
def latticeFold {α : Type} (f : α → Nat → α) : List (Nat × Nat) → Nat → α → α
  | [], at_, a => f a at_
  | d :: r, at_, a => iter d.1 (fun i b => latticeFold f r (at_ + i * d.2) b) a

/-- A kernel's output extents become undefined (R141, R143): the extents of R127, at the declared maxima with every
partial slot, in every rank (DEDUCED, the log's entry 67). -/
def State.havocOutputs (s : State) (k : Kernel) : State :=
  (infieldOuts k.image k.prog).foldl (fun t w =>
    let x := outputLattice k.image w
    iter 75 (fun rank u => latticeFold (fun v a => v.infHavoc rank a x.2.2) x.2.1 x.1 u) t) s

/-- A kernel is cancelled or stopped: its claims are abandoned and its outputs undefined; its counters are free once the
cores have reported idle (R141, R143). -/
def State.cancelKernel (s : State) (i : Nat) (k : Kernel) (status : Nat) : State :=
  (s.havocOutputs k).endWith i k cancelLap status

/-- The counters of cancelled kernels are free: every core has reported idle, in less than a microsecond (R143). -/
def State.idleCounters (s : State) : State :=
  { s with tiles := { s.tiles with counters := s.tiles.counters.map fun e =>
      if e.2.mode = .cancelling then (e.1, freeLap e.2) else e } }

/-! ### Issue (R121, R122, R144, R215, R220, R223, R226, R227) -/

/-- Registers of the active recipes (Table 4.3). -/
def State.recipeActive (s : State) (i : Nat) : Bool := bit (s.reg (0x2200 + 4 * (i / 32))) (i % 32)

/-- Whether an image runs its wide program at issue (R94). -/
def State.runsWide (s : State) (k : KImage) : Bool := k.recipe && s.recipeActive k.recIndex

def State.progFor (s : State) (k : KImage) : List Nat := if s.runsWide k then k.prog1 else k.prog0

/-- Whether a clamp that a program or the reduce_drain names has bounds out of order or NaN (R57). -/
def clampBad (k : KImage) (p : List Nat) : Bool :=
  (outWords k p).any fun w => drainAct w == 7 &&
    let a := ofF32 (parA (k.par (drainParams w)))
    let b := ofF32 (parB (k.par (drainParams w)))
    a.isNan || b.isNan || b.lt a

/-- The bands of a kernel and a rank's share of one (R225). -/
def Kernel.band (k : Kernel) (tm : Nat) : Nat := tm / recBandTiles k.image.counter
def Kernel.bandShare (k : Kernel) (rank b : Nat) : Nat :=
  ((List.range ((k.range rank).2 - (k.range rank).1)).filter fun j =>
    k.band (k.place ((k.range rank).1 + j)).1 == b).length

/-- A row-band completion counter of a rank (R137). -/
def State.bandCount (s : State) (rank i : Nat) : Nat := tget s.tiles.bands (rank * 512 + i) 0

/-- The band counters a kernel names start again at its issue (the log's entry 7). -/
def State.zeroBands (s : State) (k : Kernel) : State :=
  let c := k.image.counter
  if recBandTiles c = 0 then s else
  let n := cdiv k.tm (recBandTiles c)
  { s with tiles := { s.tiles with bands := s.tiles.bands.filter fun e =>
      !(decide (recBandFirst c ≤ e.1 % 512) && decide (e.1 % 512 < recBandFirst c + n)) } }

/-- A kernel's record at issue, its bounds read (R121, R215). -/
def State.kernelAt (s : State) (id : CmdId) (k : KImage) (producer : Option CmdId) : Kernel :=
  let c := k.counter
  let w := k.window
  let id_ := s.shape id.cx (winSrcD w)
  let ih := s.shape id.cx (winSrcH w)
  let iw := s.shape id.cx (winSrcW w)
  let bm := if k.windowed then winOD w id_ * winOH w ih * winOW w iw else s.shape id.cx (recSrcM c)
  ⟨id, k, s.progFor k, (if k.recipe then some k.recIndex else none), s.runsWide k, bm,
    s.shape id.cx (recSrcN c), s.shape id.cx (recSrcK c), s.shape id.cx (recSrcB c),
    (if k.windowed then id_ else 0), (if k.windowed then ih else 0), (if k.windowed then iw else 0),
    producer, false, 0, [], [], []⟩

/-- The output word of a producer that a chained kernel reads. -/
def Kernel.outWord (k : Kernel) : Nat := ((drainsOf k.prog).find? fun w => !drainLink w).getD 0

/-- Whether a producer does not suit a chained kernel (R227), or its output meets the staging area (R223). -/
def producerBad (p : Option Kernel) (k : Kernel) : Bool :=
  match p with
  | none => true
  | some q =>
    recBandTiles q.image.counter == 0 || q.boundM != k.inD * k.inH * k.inW || q.boundN != winCin k.image.window ||
      drainFmt q.outWord != loadFmt (wordOf k.prog 2) || q.split || opWord q.outWord != 6 ||
      (q.image.windowed && winC2s q.image.window != 1)

/-- Whether a staging area meets the output extent of a producer, which only the issue of the command behind it names
(R223; DEDUCED, the log's entry 69). -/
def stageOnProducer (w : Nat) (p : Option Kernel) : Bool :=
  match p with
  | some q => (infieldOuts q.image q.prog).any fun o => latticeMeet (stageLattice w) (outputLattice q.image o)
  | none => false

/-- The status with which a kernel is refused at issue; 0 where it issues. -/
def issueStatus (k : Kernel) (p : Option Kernel) : Nat :=
  let c := k.image.counter
  let w := k.image.window
  let fmt := loadFmt (wordOf k.prog 2)
  let f := winS2c w
  if clampBad k.image k.prog then 0x0109
  else if k.image.windowed && (decide (winMaxD w < k.inD) || decide (winMaxH w < k.inH) || decide (winMaxW w < k.inW) ||
      k.inH % f != 0 || k.inW % f != 0) then 0x0165
  else if recMaxM c < k.boundM ∨ recMaxN c < k.boundN ∨ recMaxK c < k.boundK ∨ recMaxB c < k.boundB then 0x0150
  else if k.image.windowed && stagingOver k.image fmt k.boundM k.boundN k.inD k.inH k.inW then 0x0166
  else if k.image.windowed && winChained w && producerBad p k then 0x0164
  else if k.image.windowed && winChained w && stageOnProducer w p then 0x0163
  else 0

/-- The window registers of every field at a windowed command's issue, from each rank's input stripe (R231). -/
def State.windowStart (s : State) (stripe : Nat → Nat × Nat) : State :=
  iter 75 (fun r t =>
    let base := siteBase (t.siteAt r)
    let (a, b) := stripe r
    ((((t.setReg (base + 0x700) 0).setReg (base + 0x704) (a % 65536 + 65536 * ((b - a) % 65536))).setReg (base + 0x708) 0).setReg
      (base + 0x70C) 0).setReg (base + 0x710) 0) s

/-- The same at a kernel's issue: a gated kernel has no stripe. -/
def State.windowRegs (s : State) (k : Kernel) : State :=
  if !(k.image.windowed || k.image.gated) then s else
  s.windowStart fun r => if k.image.windowed then stripeOf k.image k.boundM k.boundN k.inD k.inH k.inW r else (0, 0)

/-- A kernel takes its counters (R115, R117, R121). -/
def State.takeCounters (s : State) (i : Nat) (k : Kernel) : State :=
  iter 75 (fun r t =>
    let lo := (k.range r).1 * k.parts
    let hi := (k.range r).2 * k.parts
    t.setLap r i ⟨if lo < hi then .serving else .exhausted, k.cmd.cx, lo, hi, 0, [], [], 0, 0, 0,
      k.boundM, k.boundN, k.boundK, k.boundB⟩) s

/-- A wide recipe's command is counted until it completes (R104). -/
def State.noteWide (s : State) (k : Kernel) : State :=
  match k.recIndex, k.wide with
  | some r, true => { s with rails := { s.rails with wideCmds := s.rails.wideCmds ++ [(r, k.cmd)] } }
  | _, _ => s

/-- A core that has already left the producer takes the chained kernel's program (R228). -/
def chainCore (producer i : Nat) (s : State) (c : Core) : Core :=
  if c.stopped && c.passes.isEmpty && (s.coreKernel c).map Prod.fst == some producer then { Core.empty with kern := some i } else c

/-- The refusal of a kernel at its issue: it never ran, and no chained kernel can follow it. -/
def State.refuseKernel (s : State) (id : CmdId) (status : Nat) : State :=
  (s.notePrior id.cx none).finish id status 0

/-- The kernel before a command in its context's command ring: the running one, or the one that ended last. -/
def State.kernelBefore (s : State) (cx : Nat) (producer : Option Nat) : Option Kernel :=
  match producer with
  | some j => s.kernel j
  | none => ((tget s.tiles.prior cx []).head?).join

/-- A kernel whose counter is free issues (R121): `producer` is the running kernel it is chained to, if any. -/
def State.startKernel (s : State) (id : CmdId) (img : KImage) (producer : Option Nat) : State :=
  let q := s.kernelBefore id.cx producer
  let k := s.kernelAt id img (if img.windowed && winChained img.window then q.map Kernel.cmd else none)
  let st := issueStatus k q
  if st ≠ 0 then s.refuseKernel id st else
  let i := claimCounter (wordOf k.prog 1)
  let cores := match producer with
    | none => []
    | some j => s.tiles.cores.map fun e => (e.1, chainCore j i s e.2)
  let t : State := { s with tiles := { s.tiles with cores := cores } }
  let t := ((t.takeCounters i k).setKernel i (some k)).zeroBands k
  (t.windowRegs k).noteWide k |>.raise id (if 4194304 < k.boundK then flLongK else 0)

/-- Whether a running attention command holds a lap counter (R199, R202). -/
def State.attnHolds (s : State) (i : Nat) : Bool :=
  s.attn.claims.any fun a => match s.cmd? a.cmd with
    | some c => attnIndex c == i
    | none => false

/-- Arrivals at the hurdle of the attention command that holds a lap counter (LC_HURDLE). -/
def State.attnArrived (s : State) (i : Nat) : Nat :=
  (s.attn.claims.findSome? fun a => (s.cmd? a.cmd).bind fun c =>
    if attnIndex c = i then some c.arrived.length else none).getD 0

/-- Whether a lap counter index is held by an issued kernel, by one whose cores have not reported idle since its
cancellation, or by an attention command. -/
def State.lapHeld (s : State) (i : Nat) : Bool :=
  (s.kernel i).isSome || (s.lap 0 i).mode == .cancelling || s.attnHolds i

/-- Whether the counter that a slot's kernel names is held (R144). -/
def State.counterHeld (s : State) (img : KImage) : Bool := s.lapHeld (claimCounter (wordOf (s.progFor img) 1))

/-- The working-tier source of a windowed kernel, for pins (R188, R222). -/
def runPins (cx : Nat) (s : State) (c : Cmd) : List Nat :=
  match s.slot cx (fld c.desc 197 192) with
  | some k => if k.windowed && !winChained k.window then
      s.pinsOf cx [(winVa k.window, winMaxD k.window * winMaxH k.window * winMaxW k.window * winPosBytes k.window)] else []
  | none => []

/-- A RUN_KERNEL that could issue: it takes its counter, or waits for it unissued (R121, R144, R362). -/
def State.runSlot (s : State) (id : CmdId) (c : Cmd) (pins : List Nat) (producer : Option Nat) : State :=
  match s.slot id.cx (fld c.desc 197 192) with
  | none => (s.markIssued id []).refuseKernel id 0x0607
  | some img =>
    if s.counterHeld img then s.modCmd id fun d => { d with waitsCounter := true }
    else (s.markIssued id pins).startKernel id img producer

/-- RUN_KERNEL at the head of its ring, where `want` accepts it: checks of R367 and R452 first. -/
def State.runHead (s : State) (cx : Nat) (want : Cmd → Bool) : State :=
  match s.headCmd cx 0 fun c => wantKind 2 c && want c with
  | none => s
  | some c =>
    let id : CmdId := ⟨cx, 0, c.index⟩
    if s.ringRules cx 0 c (runPins cx s c) && s.served cx 0 then
      if s.package.isNone then (s.markIssued id []).finish id 0x060A 0
      else if !s.rel.missing.isEmpty then (s.markIssued id []).finish id 0x0B05 0
      else s.runSlot id c (runPins cx s c) none
    else s

/-- RUN_KERNEL (R121). -/
def execRunKernel (cx : Fin 16) (s : State) : Out := .next (s.runHead cx fun c => !c.waitsCounter)

/-- LAP_COUNTER_FREED: a kernel waiting at issue takes its counter once that is free, and only then reads its bounds
(R121, R144). -/
def execLapCounterFreed (cx : Fin 16) (s : State) : Out := .next (s.runHead cx fun c => c.waitsCounter)

/-- Whether a slot holds a chained kernel. -/
def State.chainedSlot (s : State) (cx : Nat) (c : Cmd) : Bool :=
  match s.slot cx (fld c.desc 197 192) with
  | some k => k.windowed && winChained k.window
  | none => false

/-- CHAINED_KERNEL_ISSUE: the kernel behind a running producer in the same ring issues (R226, R227). -/
def execChainedKernelIssue (cx : Fin 16) (s : State) : Out :=
  .next (
    match (s.ring cx 0).cmds with
    | a :: c :: _ =>
      let id : CmdId := ⟨cx, 0, c.index⟩
      match s.kernelOf ⟨cx, 0, a.index⟩ with
      | some (j, _) =>
        if a.issued && !a.finished && wantKind 2 c && s.chainedSlot cx c && s.ringRules cx 0 c (runPins cx s c) &&
            s.served cx 0 && s.rel.missing.isEmpty then
          s.runSlot id c (runPins cx s c) (some j)
        else s
      | none => s
    | _ => s)

/-! ### Cores lost and back (R139, R142, R449, R450) -/

/-- Retired core sites of a field. -/
def State.retiredCores (s : State) (site : Nat) : Nat :=
  (s.tiles.coreSites.filter fun e => e.1 / 4096 == site && e.2.use == .retired).length

/-- Spare cores left of a field: FD_CORES[22:16]. -/
def State.sparesLeft (s : State) (site : Nat) : Nat := 96 - s.retiredCores site

/-- A core site retired for good: logged, and the spare count falls (R441, R450). -/
def State.retireCore (s : State) (site core : Nat) : State :=
  let t := s.setCoreSite site core ⟨.retired, (s.coreSite site core).lostAt⟩
  (t.log 0x12 0 2 (4096 * site + core) (t.sparesLeft site)).ownerEvent 4

/-- 30 days of powered time, in seconds. -/
def days30 : Nat := 2592000

/-- A core is lost (R139, R449): its claims move to retry lists; lost a second time within 30 days of powered time, it is
retired (R450). -/
def State.loseCore (s : State) (site core : Nat) : State :=
  let x := s.coreSite site core
  if x.use ≠ .inService then s else
  let again := match x.lostAt with
    | some t => decide (s.module.lifeSeconds < t + days30)
    | none => false
  let t := ((s.dropCore site core true).setCoreSite site core ⟨.lost, some s.module.lifeSeconds⟩).wakeAll
  let t := t.log 0x10 0 2 (4096 * site + core) (t.sparesLeft site)
  if again then t.retireCore site core else t

/-- CORE_LOST. -/
def execCoreLost (site : Fin 81) (core : Fin 4096) (s : State) : Out := .next (s.loseCore site core)

/-- CORE_HANG_TIMEOUT: a core that holds a claim and completes no word for 2^24 ac is lost. -/
def execCoreHangTimeout (site : Fin 81) (core : Fin 4096) (s : State) : Out :=
  .next (if (s.core site core).passes.isEmpty then s else s.loseCore site core)

/-- Core sites of a field in service. -/
def State.coresInService (s : State) (site : Nat) : Nat :=
  ((List.range 4096).filter fun k => (s.coreSite site k).use == .inService).length

/-- CORE_ENTER_SERVICE: the lowest-numbered spare core site comes into service in place of a lost one and joins the running
kernel (R142, R449). -/
def execCoreEnterService (site : Fin 81) (core : Fin 4096) (s : State) : Out :=
  .next (
    match (List.range 4096).find? fun k => (s.coreSite site k).use == .spare with
    | some k =>
      if k = core.val ∧ s.coresInService site < 4000 then
        let t := (s.setCoreSite site k ⟨.inService, (s.coreSite site k).lostAt⟩).setCore site k Core.empty
        t.log 0x13 0 2 (4096 * site.val + k) (t.sparesLeft site)
      else s
    | none => s)

/-- CORE_RETEST: a lost core that passes its self-test becomes a spare again, one that fails is retired (R450). -/
def execCoreRetest (site : Fin 81) (core : Fin 4096) (passed : Bool) (s : State) : Out :=
  .next (
    if (s.coreSite site core).use ≠ .lost then s
    else if passed then
      let t := s.setCoreSite site core ⟨.spare, (s.coreSite site core).lostAt⟩
      t.log 0x11 0 2 (4096 * site.val + core.val) (t.sparesLeft site)
    else s.retireCore site core)

end Sys2Proof.Machine
end

