-- ==== Sys2Proof/Machine/Tiles.lean ====
section
/-!
DEFINITION. What a core does with a claimed tile (R26 to R61, R63 to R71): loads, the array's pass, the changeover, the
drain with its epilogue and the posting of the tile; the sum of split tiles by a vector engine (R133); and the staging of
input slices (R213 to R225).
-/

namespace Sys2Proof.Machine

open Sys2Proof

/-! ### Which word a core runs -/

/-- The next word of a pass, if any. -/
def nextWord (prog : List Nat) (p : Pass) : Option Nat := prog[p.issued]?

/-- DRAIN words of a pass issued so far. -/
def drainsIssued (prog : List Nat) (p : Pass) : Nat := (drainsOf (prog.take p.issued)).length

/-- The first pass of a core whose next word has an opcode and may issue (R33). -/
def passFor (prog : List Nat) (op : Nat) : Option Pass → Nat → List Pass → Option (Nat × Pass × Nat)
  | _, _, [] => none
  | before, i, p :: r =>
    match nextWord prog p with
    | some w => if opWord w == op && mayRunAhead prog before op then some (i, p, w) else passFor prog op (some p) (i + 1) r
    | none => passFor prog op (some p) (i + 1) r

/-- Pass `i` of a core replaced. -/
def setPass (c : Core) (i : Nat) (p : Pass) : Core := { c with passes := c.passes.set i p }

/-- DRAIN words issue by themselves, into a queue of four (R32, R33). -/
def issueDrain (prog : List Nat) (c : Core) : Core :=
  let waiting := sumNat (c.passes.map fun p => drainsIssued prog p - p.drained)
  match passFor prog 6 none 0 c.passes with
  | some (i, p, _) => if waiting < 4 then setPass c i { p with issued := p.issued + 1 } else c
  | none => c

/-- Up to four DRAIN words issue. -/
def issueDrains (prog : List Nat) (c : Core) : Core := issueDrain prog (issueDrain prog (issueDrain prog (issueDrain prog c)))

/-- A pass leaves its core once its completion is posted and every word of its program has issued. -/
def retirePasses (prog : List Nat) (c : Core) : Core :=
  { c with passes := c.passes.filter fun p => !(p.posted && p.issued == prog.length) }

/-- A core stored after an event, its DRAIN words issued and its finished passes gone. -/
def State.putCore (s : State) (site core : Nat) (prog : List Nat) (c : Core) : State :=
  s.setCore site core (retirePasses prog (issueDrains prog c))

/-- A word of a core's program runs, where the core may run it now. -/
def State.onWord (s : State) (site core op : Nat) (f : Nat × Kernel → Core → Nat → Pass → Nat → State) : State :=
  let c := s.core site core
  match s.coreKernel c with
  | none => s
  | some (i, k) =>
    if !s.coreRuns site core then s else
    match passFor k.prog op none 0 c.passes with
    | some (j, p, w) => f (i, k) c j p w
    | none => s

/-- A unit working for a kernel reads poison: the command ends with 0x0B01 and its context faults (R448). -/
def State.poisonKernel (s : State) (i : Nat) (k : Kernel) : State := (s.notePoison k.cmd.cx).endKernel i k 0x0B01

/-! ### Windowed operands (R214 to R217) -/

/-- The staged byte address of an input position's channel in a rank's infield (R221). -/
def Kernel.stagedAt (k : Kernel) (rank d h w c : Nat) : Nat :=
  let x := k.image.window
  let e := winElem (loadFmt (wordOf k.prog 2))
  let lo := (stripeOf k.image k.boundM k.boundN k.inD k.inH k.inW rank).1 * rawPer x
  let (sl, pos) := if winAxisH x then (h, d * k.inW + w) else (d, h * k.inW + w)
  winLine x * 128 + (sl - lo) * sliceBytes x (loadFmt (wordOf k.prog 2)) k.inD k.inH k.inW + (pos * winCin x + c) * e

/-- Where element k of output row g comes from (R216): an infield address, or a fixed code. -/
def Kernel.windowElem (k : Kernel) (rank g kk : Nat) : Option Nat × Nat :=
  let x := k.image.window
  let f := winS2c x
  if k.boundM ≤ g then (none, winPad x) else
  let tap := kk / winCp x
  let cl := kk % winCp x
  if winC x ≤ cl then (none, 0) else
  let fd := tap / (winFH x * winFW x)
  let fh := tap % (winFH x * winFW x) / winFW x
  let fw := tap % winFW x
  let od := winOD x k.inD
  let oh := winOH x k.inH
  let ow := winOW x k.inW
  let (pd, ph, pw) := if winAxisH x then (g / ow % od, g / (ow * od), g % ow) else (g / (ow * oh), g / ow % oh, g % ow)
  let d : Int := (pd * winSD x + fd * winDD x : Nat) - (winPDlo x : Int)
  let h : Int := (ph * winSH x + fh * winDH x : Nat) - (winPHlo x : Int)
  let w : Int := (pw * winSW x + fw * winDW x : Nat) - (winPWlo x : Int)
  if d < 0 ∨ (k.inD : Int) ≤ d ∨ h < 0 ∨ (k.inH / f : Nat) ≤ h ∨ w < 0 ∨ (k.inW / f : Nat) ≤ w then (none, winPad x) else
  let dy := cl / (f * winCin x)
  let dx := cl / winCin x % f
  (some (k.stagedAt rank d.toNat (h.toNat * f + dy) (w.toNat * f + dx) (cl % winCin x)), 0)

/-- A windowed slab as the WAG writes it (R219). -/
def State.windowSlab (s : State) (k : Kernel) (p : Pass) (j : Nat) : Marked :=
  let e := winElem (loadFmt (wordOf k.prog 2))
  (List.range k.m).flatMap fun r => (List.range 32).flatMap fun i =>
    match k.windowElem p.rank (p.tileM * k.m + r) ((p.kFirst + j) * 32 + i) with
    | (some a, _) => s.infMarked p.rank a e
    | (none, v) => clean (toBytes e v)

/-! ### LOAD_A and LOAD_B (R40 to R42) -/

/-- Infield key of slab j of a pass (R41); for a windowed A operand, a name of the slab (R219). -/
def Kernel.slabKey (k : Kernel) (p : Pass) (w : Nat) (isB : Bool) (j : Nat) : Nat :=
  if k.image.windowed && !isB then 2 ^ 60 + 65536 * (65536 * p.rank + p.tileM) + p.kFirst + j
  else
    let b := k.image.base (loadBase w)
    infKey p.rank (baseLine b * 128 + (if isB then p.tileN else p.tileM) * baseTile b + p.tileB * baseBatch b +
      (p.kFirst + j) * baseInner b)

/-- Bytes of a slab of a kernel's operand (R29, R96). -/
def State.slabSize (s : State) (k : Kernel) (w : Nat) (isB : Bool) : Nat :=
  let side := s.sideOf k.image k.wide
  slabBytes (loadFmt w) (if isB then k.n else k.m) (if isB then side.2 else side.1)

/-- Slab j of a pass's operand as read now, with its poison marks. -/
def State.readSlab (s : State) (k : Kernel) (p : Pass) (w : Nat) (isB : Bool) (j : Nat) : Marked :=
  if k.image.windowed && !isB then s.windowSlab k p j
  else s.infMarked p.rank (k.slabKey p w isB j - infKey p.rank 0) (s.slabSize k w isB)

/-- Slabs that a ring holds (R29, R42). -/
def ringSlots (w size : Nat) : Nat := loadLines w / cdiv size 128

/-- A slab written into a slot of a ring, line by line. -/
def putSlab (w size slot : Nat) (slab : List Byte) (sram : Tab (List Byte)) : Tab (List Byte) :=
  iter (cdiv size 128) (fun i t => tput t (loadStart w + slot * cdiv size 128 + i) ((slab.drop (128 * i)).take 128) []) sram

/-- The slab that a slot of a ring holds. -/
def getSlab (w size slot : Nat) (sram : Tab (List Byte)) : List Byte :=
  (List.range (cdiv size 128)).flatMap fun i => tget sram (loadStart w + slot * cdiv size 128 + i) []

/-- Slabs `a` to `b` − 1 of a pass read into its ring, which holds slab 0 in slot `slot`: the operand SRAM after it, and
whether one was poisoned. -/
def State.fillSlabs (s : State) (k : Kernel) (p : Pass) (w : Nat) (isB : Bool) (slot a b : Nat) (sram : Tab (List Byte)) :
    Tab (List Byte) × Bool :=
  let n := s.slabSize k w isB
  (List.range (b - a)).foldl (fun acc i =>
    let l := s.readSlab k p w isB (a + i)
    (putSlab w n ((slot + a + i) % ringSlots w n) (unmark l) acc.1, acc.2 || anyPoison l)) (sram, false)

/-- A LOAD word issues: it writes slabs while its ring has free lines, all of them free behind the MMA of the pass before
(R30, R33); what the ring cannot hold follows as the array frees lines. With reuse the slabs of the last load stay
(R42). -/
def State.load (s : State) (site core : Nat) (isB : Bool) : State :=
  s.onWord site core (if isB then 3 else 2) fun (i, k) c j p w =>
    let g := if isB then c.ringB else c.ringA
    let keys := (List.range p.kLen).map (k.slabKey p w isB)
    let reused := loadReuse w && keys == g.keys
    let slots := ringSlots w (s.slabSize k w isB)
    let now := if reused then p.kLen else min p.kLen slots
    let (sram, bad) := if reused then (c.sram, false) else s.fillSlabs k p w isB g.next 0 now c.sram
    if bad then s.poisonKernel i k else
    let slot := if reused then g.first else g.next
    let g' : OperandRing := if reused then g else ⟨(g.next + p.kLen) % slots, keys, g.next⟩
    let p' := if isB then { p with issued := p.issued + 1, slotB := slot, inB := now }
      else { p with issued := p.issued + 1, slotA := slot, inA := now }
    let c' := setPass { c with sram := sram } j p'
    s.putCore site core k.prog (if isB then { c' with ringB := g' } else { c' with ringA := g' })

/-- LOAD_A. -/
def execLoadA (site : Fin 81) (core : Fin 4096) (s : State) : Out := .next (s.load site core false)

/-- LOAD_B. -/
def execLoadB (site : Fin 81) (core : Fin 4096) (s : State) : Out := .next (s.load site core true)

/-! ### MMA (R27, R43 to R45, R63 to R71, R97) -/

/-- `n` fields of `w` bits from a number, lowest first. -/
def unpack (w : Nat) : Nat → Nat → List Nat
  | 0, _ => []
  | n + 1, v => v % 2 ^ w :: unpack w n (v / 2 ^ w)

/-- The 32 element codes of a slab row. -/
def slabRow (fmt : Nat) (slab : List Byte) (r : Nat) : List Nat :=
  let n := 32 * fmtBits fmt / 8
  unpack (fmtBits fmt) 32 (ofBytes ((slab.drop (r * n)).take n))

/-- The scale byte of a slab row; none for a format without one. -/
def slabScale (fmt rows : Nat) (slab : List Byte) (r : Nat) : Option Nat :=
  if fmtMx fmt then some (nth slab (rows * 32 * fmtBits fmt / 8 + r) 0).toNat else none

/-- The valid side entries of a slab row: (position, E4M3 code) (R96). -/
def slabSide (fmt rows k : Nat) (slab : List Byte) (r : Nat) : List (Nat × Nat) :=
  (numbers 2 k (slab.drop (rows * 32 * fmtBits fmt / 8 + rows + r * 2 * k))).filterMap fun e =>
    if bit e 15 then some (bits e 12 8, bits e 7 0) else none

/-- The products of one row's side entries with the other row's elements (R97). -/
def sideProducts (fmt : Nat) (entries : List (Nat × Nat)) (other : List Nat) : List Num :=
  entries.map fun e => (e4m3.decode e.2).mul (elemVal fmt (nth other e.1 0))

/-- One block sum of a slab pair at row r and column c (stage A). -/
def pairSum (fa fb m n : Nat) (side : Nat × Nat) (a b : List Byte) (r c : Nat) : Nat × Nat :=
  let ra := slabRow fa a r
  let rb := slabRow fb b c
  blockSum fa fb ra rb
    (sideProducts fb (slabSide fa m side.1 a r) rb ++ sideProducts fa (slabSide fb n side.2 b c) ra)
    (slabScale fa m a r) (slabScale fb n b c)

/-- One output element of a pass: the block sums added into the bank entry in ascending slab order (R27, R71). -/
def passElem (fa fb m n : Nat) (side : Nat × Nat) (slabs : List (List Byte × List Byte)) (entry r c : Nat) : Nat × Nat :=
  slabs.foldl (fun acc ab =>
    let x := pairSum fa fb m n side ab.1 ab.2 r c
    let z := f32Add .rne acc.1 x.1
    (z.1, acc.2 ||| x.2 ||| z.2)) (entry, 0)

/-- The slabs of a pass in the order the array reads them; the rest of the load follows as lines come free (R30). The
slabs, the operand SRAM after the pass, and whether a slab it still had to read was poisoned. -/
def State.passSlabs (s : State) (k : Kernel) (p : Pass) (isB : Bool) (sram : Tab (List Byte)) :
    List (List Byte) × Tab (List Byte) × Bool :=
  let w := wordOf k.prog (if isB then 3 else 2)
  let n := s.slabSize k w isB
  let slot := if isB then p.slotB else p.slotA
  let inRing := if isB then p.inB else p.inA
  (List.range p.kLen).foldl (fun acc j =>
    let (sram, bad) := if j < inRing then (acc.2.1, false) else s.fillSlabs k p w isB slot j (j + 1) acc.2.1
    (acc.1 ++ [(getSlab w n ((slot + j) % ringSlots w n) sram).take n], sram, acc.2.2 || bad)) ([], sram, false)

/-- The weight exponent of a block register's least significant bit in fixed mode (Table 3.2, R97). -/
def blockLsb (fa fb : Nat) (side : Nat × Nat) : Int :=
  let wide := fun (f : Nat) => f == 3 || f == 5
  if side.1 ≠ 0 ∨ side.2 ≠ 0 then -10
  else if fa = 9 then -2
  else if wide fa && wide fb then -18
  else if wide fa || wide fb then -13
  else if fa = 10 then 0
  else if fa = 11 then -12
  else -8

/-- What a block register holds after a block: its sum over its least significant bit (R66 to R68). A product that is NaN
or infinite reaches the block sum beside the register (R69), which then holds nothing. -/
def blockBits (fa fb : Nat) (side : Nat × Nat) (ps : List Num) : BitVec 48 :=
  let w := windowPair fa fb
  let lsb := if w then (emaxOf ps).getD 0 - 41 else blockLsb fa fb side
  match blockReg w ps with
  | .fin neg m e =>
    let v := if lsb ≤ e then m <<< (e - lsb).toNat else m >>> (lsb - e).toNat
    BitVec.ofInt 48 (if neg then -(v : Int) else v)
  | _ => 0

/-- The products that the cell of a position sums for one slab pair (R66, R97). -/
def pairProducts (fa fb m n : Nat) (side : Nat × Nat) (a b : List Byte) (r c : Nat) : List Num :=
  let ra := slabRow fa a r
  let rb := slabRow fb b c
  List.zipWith (fun x y => (elemVal fa x).mul (elemVal fb y)) ra rb ++
    (sideProducts fb (slabSide fa m side.1 a r) rb ++ sideProducts fa (slabSide fb n side.2 b c) ra)

/-- The block registers after a pass: the array's last 8 × 8 block of the last slab (R25, R26). -/
def passBlocks (k : Kernel) (side : Nat × Nat) (slabs : List (List Byte × List Byte)) (old : Tab (BitVec 48)) :
    Tab (BitVec 48) :=
  let m := wordOf k.prog 4
  match slabs.getLast? with
  | none => old
  | some (a, b) => iter 64 (fun i t =>
      tput t i (blockBits (bits m 59 56) (bits m 55 52) side
        (pairProducts (bits m 59 56) (bits m 55 52) k.m k.n side a b (k.m - 8 + i / 8) (k.n - 8 + i % 8))) 0) old

/-- A pass over a whole tile: the bank after it, and the flags of the positions that are written (R44, R130). -/
def runPass (k : Kernel) (side : Nat × Nat) (p : Pass) (slabs : List (List Byte × List Byte)) (bank : Tab Nat) : Tab Nat × Nat :=
  let m := wordOf k.prog 4
  (List.range (k.m * k.n)).foldl (fun acc x =>
    let r := x / k.n
    let c := x % k.n
    let z := passElem (bits m 59 56) (bits m 55 52) k.m k.n side slabs (tget bank (r * 64 + c) 0) r c
    (tput acc.1 (r * 64 + c) z.1 0, if r < p.mValid ∧ c < p.nValid then acc.2 ||| z.2 else acc.2)) (bank, 0)

/-- MMA: the pass's K loop into the compute bank. It runs behind the CHANGEOVER of the pass before it. -/
def execMma (site : Fin 81) (core : Fin 4096) (s : State) : Out :=
  .next (s.onWord site core 4 fun (i, k) c j p _ =>
    if c.toggleDue then s else
    let (as, sram, badA) := s.passSlabs k p false c.sram
    let (bs, sram, badB) := s.passSlabs k p true sram
    if badA || badB then s.poisonKernel i k else
    let side := s.sideOf k.image k.wide
    let (bank, fl) := runPass k side p (as.zip bs) (if c.computeB then c.bankB else c.bankA)
    let c' := setPass { c with sram := sram, blocks := passBlocks k side (as.zip bs) c.blocks } j
      { p with issued := p.issued + 1, ran := true, inA := p.kLen, inB := p.kLen }
    let c' := if c.computeB then { c' with bankB := bank } else { c' with bankA := bank }
    (s.putCore site core k.prog c').raise k.cmd fl)

/-! ### The changeover (R46, R49 to R51) -/

/-- Whether the drain bank is full: a pass has changed over and is not in the shadow yet. -/
def drainFull (c : Core) : Bool := c.passes.any fun p => p.changed && !p.shadowed

/-- The bank select toggles for the first pass that has run and not changed over. -/
def toggle (c : Core) : Core :=
  { c with computeB := !c.computeB, toggleDue := false,
           passes := modFirst (fun p => p.ran && !p.changed) (fun p => { p with changed := true }) c.passes }

/-- CHANGEOVER: the banks swap roles at once where the drain bank is empty, else the toggle is due (R49, R50). What the
array waited for operands is counted by FD_OPD_STALL (R51). -/
def execChangeover (site : Fin 81) (core : Fin 4096) (opdWait : Nat) (s : State) : Out :=
  .next (s.onWord site core 5 fun (_, k) c j p _ =>
    let c' := setPass c j { p with issued := p.issued + 1 }
    let c' := if drainFull c then { c' with toggleDue := true } else toggle c'
    let t := s.putCore site core k.prog c'
    let x := t.site site
    t.setSite site { x with opdStall := sat32 (x.opdStall + opdWait) })

/-- BANK_TOGGLE: the delayed toggle takes place once the drain bank is empty; FD_CHG_STALL counts the lost ac (R50). -/
def execBankToggle (site : Fin 81) (core : Fin 4096) (lost : Nat) (s : State) : Out :=
  .next (
    let c := s.core site core
    if c.toggleDue && !drainFull c && s.coreRuns site core then
      let prog := match s.coreKernel c with | some (_, k) => k.prog | none => []
      let t := s.putCore site core prog (toggle c)
      let x := t.site site
      t.setSite site { x with chgStall := sat32 (x.chgStall + lost) }
    else s)

/-! ### The drain (R53 to R61) -/

/-- Whether the shadow drain buffer is free: no pass still reads it. -/
def shadowFree (prog : List Nat) (c : Core) : Bool :=
  c.passes.all fun p => !p.shadowed || decide ((drainsOf prog).length ≤ p.drained)

/-- Whether a bank key lies in the M × N region. -/
def inTile (k : Kernel) (key : Nat) : Bool := decide (key / 64 < k.m) && decide (key % 64 < k.n)

/-- SHADOW_COPY: the full drain bank is copied into the free shadow, once a DRAIN of its pass has issued; each bank entry is
cleared as it is read (R53). -/
def execShadowCopy (site : Fin 81) (core : Fin 4096) (s : State) : Out :=
  .next (
    let c := s.core site core
    match s.coreKernel c, c.passes.find? fun p => p.changed && !p.shadowed with
    | some (_, k), some p =>
      if s.coreRuns site core && shadowFree k.prog c && decide (0 < drainsIssued k.prog p) then
        let bank := if c.computeB then c.bankA else c.bankB
        let rest := bank.filter fun e => !inTile k e.1
        let c' := { c with shadow := bank.filter fun e => inTile k e.1,
                           passes := modFirst (fun q => q.changed && !q.shadowed) (fun q => { q with shadowed := true }) c.passes }
        let c' := if c.computeB then { c' with bankA := rest } else { c' with bankB := rest }
        s.putCore site core k.prog c'
      else s
    | _, _ => s)

/-- The scale of an output position (R55, R61). -/
def State.scaleOf (s : State) (k : Kernel) (w rank tm tn r c : Nat) : Nat :=
  let q := k.image.par (drainParams w)
  if parScaleMode q = 0 then parScale q
  else s.infOpen rank (parScaleLine q * 128 + 4 * (if parScaleMode q = 1 then tn * k.n + c else tm * k.m + r)) 4

/-- The bias of an output column, widened to FP32 (R55, R61). -/
def State.biasOf (s : State) (k : Kernel) (w rank tn c : Nat) : Nat :=
  let q := k.image.par (drainParams w)
  if parBiasBf16 q then 65536 * s.infOpen rank (parBiasLine q * 128 + 2 * (tn * k.n + c)) 2
  else s.infOpen rank (parBiasLine q * 128 + 4 * (tn * k.n + c)) 4

/-- Whether the vectors an output tile's epilogue reads are poisoned. -/
def State.vectorsPoisoned (s : State) (k : Kernel) (w rank tm tn : Nat) : Bool :=
  let q := k.image.par (drainParams w)
  (drainScale w && parScaleMode q == 1 && s.infPoisoned rank (parScaleLine q * 128 + 4 * (tn * k.n)) (4 * k.n)) ||
    (drainScale w && parScaleMode q == 2 && s.infPoisoned rank (parScaleLine q * 128 + 4 * (tm * k.m)) (4 * k.m)) ||
    (drainBias w && s.infPoisoned rank (parBiasLine q * 128 + (if parBiasBf16 q then 2 else 4) * (tn * k.n))
      ((if parBiasBf16 q then 2 else 4) * k.n))

/-- Steps 1 to 3 of the epilogue: scale, bias, activation (R55). -/
def State.epilogue (s : State) (k : Kernel) (w rank tm tn r c x : Nat) : Nat × Nat :=
  let x1 := if drainScale w then f32Mul x (s.scaleOf k w rank tm tn r c) else (x, 0)
  let x2 := if drainBias w then f32Add .rne x1.1 (s.biasOf k w rank tn c) else (x1.1, 0)
  let q := k.image.par (drainParams w)
  let x3 := activation s.alv (drainAct w) (parA q) (parB q) x2.1
  (x3.1, x1.2 ||| x2.2 ||| x3.2)

/-- The element index of an output position for the pacer key (R55). -/
def Kernel.elemIndex (k : Kernel) (w tm tn tb r c : Nat) : Nat :=
  let b := k.image.base (drainBase w)
  (k.outAddr w tm tn tb 0 r c - baseLine b * 128) / (fmtBits (drainFmt w) / 8)

/-- Step 4: the conversion to out_fmt (R55, R77, R78). -/
def Kernel.convert (k : Kernel) (seed w tm tn tb r c x : Nat) : Nat × Nat :=
  convOut (srMode (drainSr w) seed (baseTensor (k.image.base (drainBase w))) (k.elemIndex w tm tn tb r c) 0)
    (drainFmt w) (ofF32 x)

/-- Whether a position of a tile has a place in the output: with channel-to-space, only one inside the bounds (R229). -/
def Kernel.placed (k : Kernel) (tm tn r c : Nat) : Bool :=
  !(k.image.windowed && winC2s k.image.window != 1) ||
    (decide (tm * k.m + r < k.boundM) && decide (tn * k.n + c < k.boundN))

/-- A tile's values through one DRAIN word into the owner field's infield: positions inside the bounds, and with pad_fill
the others with the pad value (R54, R129, R130). The state and the flags raised. -/
def State.drainTile (s : State) (k : Kernel) (w rank tm tn tb p mv nv seed : Nat) (value : Nat → Nat → Nat) : State × Nat :=
  let e := fmtBits (drainFmt w) / 8
  (List.range (k.m * k.n)).foldl (fun acc i =>
    let r := i / k.n
    let c := i % k.n
    let put := fun (v : Nat) => acc.1.infWrite rank (k.outAddr w tm tn tb p r c) (toBytes e v)
    if r < mv ∧ c < nv then
      let x := if drainPartial w then (value r c, 0) else s.epilogue k w rank tm tn r c (value r c)
      let z := if drainPartial w then toF32 .rne (ofF32 x.1) else k.convert seed w tm tn tb r c x.1
      (put z.1, acc.2 ||| x.2 ||| z.2)
    else if drainPad w && k.placed tm tn r c then
      let z := convOut .rne (drainFmt w) (ofF32 (parPad (k.image.par (drainParams w))))
      (put z.1, acc.2 ||| z.2)
    else acc) (s, 0)

/-- A tile's values through a DRAIN word to its link stream: every position, +0 outside the bounds, with the flags raised
(R58, R325). -/
def State.linkTile (s : State) (k : Kernel) (w rank tm tn tb mv nv : Nat) (value : Nat → Nat → Nat) :
    List (Nat × Nat) × Nat :=
  let l := (List.range (k.m * k.n)).map fun i =>
    let r := i / k.n
    let c := i % k.n
    if r < mv ∧ c < nv then
      let x := s.epilogue k w rank tm tn r c (value r c)
      ((k.firstEntry w tm tn tb + i, x.1), x.2)
    else ((k.firstEntry w tm tn tb + i, 0), 0)
  (l.map Prod.fst, l.foldl (fun a x => a ||| x.2) 0)

/-- A tile of a rank counts as complete: its row-band counter rises (R59, R137). -/
def State.tileDone (s : State) (k : Kernel) (rank t : Nat) : State :=
  let c := k.image.counter
  if recBandTiles c = 0 then s else
  let key := rank * 512 + recBandFirst c + k.band (k.place t).1
  { s with tiles := { s.tiles with bands := tput s.tiles.bands key (tget s.tiles.bands key 0 + 1) 0 } }

/-- A pass's completion is posted to the lap counter that gave its claim out, unless that has forgotten it (R59, R118,
R139); a split tile waits for its other partials (R133). -/
def State.post (s : State) (i : Nat) (k : Kernel) (site core : Nat) (p : Pass) : State :=
  let l := s.lap p.rank p.counter
  if !(l.held.any fun h => h.claim == p.claim && h.site == site && h.core == core) then s else
  let t := s.setLap p.rank p.counter { l with
    held := l.held.filter fun h => !(h.claim == p.claim && h.site == site && h.core == core)
    done := l.done + 1 }
  if k.split then t.setKernel i (some { k with posted := k.posted ++ [(p.claim / k.parts, p.claim % k.parts)] })
  else t.tileDone k p.rank (p.claim / k.parts)

/-- The tiles that a pass has sent to link streams are accepted by their link interfaces. -/
def State.acceptSent (s : State) (p : Pass) : State := p.sent.foldl (fun t d => t.deliver d.1 d.2) s

/-- The first pass of a core, all of whose DRAIN words have executed and whose streams have a running REDUCE, is posted;
its link interfaces accept its tiles in the same act (R59, R327). -/
def State.complete (s : State) (site core : Nat) : State :=
  let c := s.core site core
  let due := fun (k : Kernel) (p : Pass) => p.shadowed && !p.posted && decide ((drainsOf k.prog).length ≤ p.drained)
  match s.coreKernel c with
  | none => s
  | some (i, k) =>
    match c.passes.findIdx? (due k), c.passes.find? (due k) with
    | some j, some p =>
      if p.sent.any fun d => !s.tileRoom d.1 d.2 then s
      else
        ((s.acceptSent p).putCore site core k.prog (setPass c j { p with posted := true, sent := [] })).post i k site core p
    | _, _ => s

/-- DRAIN: one DRAIN word runs from the shadow, into the infield or as a tile sent to a link stream, whose interface must
have room for all of it (R282). The last one of a pass, sent to a stream, is accepted and the tile posted at once (R58, R327). -/
def execDrain (site : Fin 81) (core : Fin 4096) (s : State) : Out :=
  .next (
    let c := s.core site core
    match s.coreKernel c, c.passes.findIdx? fun p => p.shadowed && !p.ran.not with
    | some (i, k), some j =>
      match c.passes.findIdx? fun p => p.shadowed && decide (p.drained < drainsIssued k.prog p) with
      | none => s
      | some j' =>
        let p := nth c.passes j' (k.pass i 0 0)
        let w := nth (drainsOf k.prog) p.drained 0
        let seed := match s.cmd? k.cmd with | some d => d.seed | none => 0
        let value := fun r x => tget c.shadow (r * 64 + x) 0
        if !s.coreRuns site core || j' < j then s
        else if s.vectorsPoisoned k w p.rank p.tileM p.tileN then s.poisonKernel i k
        else if drainLink w && !s.tileSendable k [w] p.tileM p.tileN p.tileB then s
        else
          let link := s.linkTile k w p.rank p.tileM p.tileN p.tileB p.mValid p.nValid value
          let (t, fl) := if drainLink w then (s, link.2)
            else s.drainTile k w p.rank p.tileM p.tileN p.tileB (p.claim % k.parts) p.mValid p.nValid seed value
          let last := decide ((drainsOf k.prog).length ≤ p.drained + 1)
          let c' := setPass c j' { p with
            drained := p.drained + 1
            sent := if drainLink w then p.sent ++ [(drainStream w, link.1)] else p.sent }
          let c' := if last then { c' with shadow := [] } else c'
          let t := (t.putCore site core k.prog c').raise k.cmd fl
          if last && drainLink w then t.complete site core else t
    | _, _ => s)

/-- TILE_COMPLETE: the writes of a pass's last DRAIN are visible, and the core posts the tile (R59). -/
def execTileComplete (site : Fin 81) (core : Fin 4096) (s : State) : Out :=
  .next (if s.coreRuns site core then s.complete site core else s)

/-- Whether a load of a core's passes has slabs left to write: its ring is full until the array reads (R30). -/
def loadsOpen (prog : List Nat) (c : Core) : Bool :=
  c.passes.any fun q =>
    let done := (prog.take q.issued).map opWord
    (done.contains 2 && decide (q.inA < q.kLen)) || (done.contains 3 && decide (q.inB < q.kLen))

/-- Whether the writes of an issued DRAIN are not visible yet (R48). A tile that a link interface accepts together with
its posting is waited for once every DRAIN of its pass has executed (DEDUCED, the log's entry 68). -/
def drainsOpen (prog : List Nat) (c : Core) : Bool :=
  c.passes.any fun q => decide (q.drained < drainsIssued prog q) ||
    (!q.sent.isEmpty && decide ((drainsOf prog).length ≤ q.drained))

/-- FENCE: with wait_loads it waits until every issued LOAD has written its last slab, with wait_drains for every issued
DRAIN; then the sequencer goes on (R48). -/
def execFence (site : Fin 81) (core : Fin 4096) (s : State) : Out :=
  .next (s.onWord site core 7 fun (_, k) c j p w =>
    if (bit w 59 && loadsOpen k.prog c) || (bit w 58 && drainsOpen k.prog c) then s
    else s.putCore site core k.prog (setPass c j { p with issued := p.issued + 1 }))

/-! ### Stage C (R72, R73, R133) -/

/-- Whether a kernel's context holds the fields now (R378, R384). -/
def State.holds (s : State) (cx : Nat) : Bool := s.sched.holder == some cx && !s.sched.switching

/-- The infield address of partial p of an output position. -/
def Kernel.partAddr (k : Kernel) (tm tn tb p r c : Nat) : Nat := k.outAddr ((drainsOf k.prog).headD 0) tm tn tb p r c

/-- The stage C sum of one output position. -/
def State.stageSum (s : State) (k : Kernel) (rank tm tn tb seed r c : Nat) : Nat × Nat :=
  let rd := recReduce k.image.counter
  let sr := recSr k.image.counter && decide (65536 < k.boundK)
  treeSum (fun node => srMode sr seed (baseTensor (k.image.base (drainBase rd))) (k.elemIndex rd tm tn tb r c) node) 11
    ((List.range k.parts).map fun p => s.infNat rank (k.partAddr tm tn tb p r c) 4) 1

/-- Whether any partial that a tile's sum reads is poisoned. -/
def State.partsPoisoned (s : State) (k : Kernel) (rank tm tn tb mv nv : Nat) : Bool :=
  (List.range k.parts).any fun p => (List.range mv).any fun r => (List.range nv).any fun c =>
    s.infPoisoned rank (k.partAddr tm tn tb p r c) 4

/-- STAGE_C_SUM: with every partial of a tile posted, a vector engine of the owner field sums them and applies the
reduce_drain; a delivery to a link stream waits until the tile is sendable, for `tile.waitNs` in all, which ST_WAIT counts (R133, R326, R341). -/
def execStageCSum (counter : Fin 256) (tile : SumTile) (s : State) : Out :=
  .next (
    match s.kernel counter with
    | none => s
    | some k =>
      let rd := recReduce k.image.counter
      let (tm, tn, tb) := k.place tile.tile
      let rank := k.owner tile.tile
      let mv := min k.m (k.boundM - tm * k.m)
      let nv := min k.n (k.boundN - tn * k.n)
      let ready := k.split && decide (tile.tile < k.tiles) && !k.summed.contains tile.tile && !k.cancelled && s.holds k.cmd.cx &&
        (List.range k.parts).all (fun p => k.posted.contains (tile.tile, p)) && s.tileSendable k [rd] tm tn tb
      if !ready then s
      else if s.partsPoisoned k rank tm tn tb mv nv || s.vectorsPoisoned k rd rank tm tn then s.poisonKernel counter k
      else
        let seed := match s.cmd? k.cmd with | some d => d.seed | none => 0
        let sums := fun r c => s.stageSum k rank tm tn tb seed r c
        let fl := (List.range mv).foldl (fun a r => (List.range nv).foldl (fun b c => b ||| (sums r c).2) a) 0
        let link := s.linkTile k rd rank tm tn tb mv nv (fun r c => (sums r c).1)
        let (t, f2) := if drainLink rd then ((s.deliver (drainStream rd) link.1).streamWaited (drainStream rd) tile.waitNs, link.2)
          else s.drainTile k rd rank tm tn tb 0 mv nv seed (fun r c => (sums r c).1)
        let t := t.setKernel counter (some { k with summed := sput k.summed tile.tile })
        (t.tileDone k rank tile.tile).raise k.cmd (fl ||| f2))

/-! ### Staging (R221, R222, R225) -/

/-- Input positions of one raw slice. -/
def Kernel.slicePos (k : Kernel) : Nat := if winAxisH k.image.window then k.inD * k.inW else k.inH * k.inW

/-- The producer of a chained kernel, and whether it still runs: once it has ended, every band of it is complete. -/
def State.producerOf (s : State) (k : Kernel) : Option (Kernel × Bool) :=
  match k.producer with
  | none => none
  | some id =>
    match s.kernelOf id with
    | some (_, q) => some (q, true)
    | none => ((tget s.tiles.prior k.cmd.cx []).find? fun q => q.any fun x => x.cmd == id).join.map fun q => (q, false)

/-- Whether some tap of some output names a position of one axis: `o` output positions (R217). -/
def axisNamed (o f st d lo x : Nat) : Bool :=
  (List.range f).any fun t => decide (t * d ≤ x + lo) && (x + lo - t * d) % st == 0 && decide ((x + lo - t * d) / st < o)

/-- Whether a raw input position is read by some tap of some output (R217). -/
def windowNamed (w id ih iw d h x : Nat) : Bool :=
  let f := winS2c w
  axisNamed (winOD w id) (winFD w) (winSD w) (winDD w) (winPDlo w) d &&
    axisNamed (winOH w ih) (winFH w) (winSH w) (winDH w) (winPHlo w) (h / f) &&
    axisNamed (winOW w iw) (winFW w) (winSW w) (winDW w) (winPWlo w) (x / f)

/-- The positions of a raw slice that are staged: those that some tap names (R217). -/
def Kernel.slicePicks (k : Kernel) (slice : Nat) : List Nat :=
  let w := k.image.window
  (List.range k.slicePos).filter fun j =>
    let (d, h) := if winAxisH w then (j / k.inW, slice) else (slice, j / k.inW)
    windowNamed w k.inD k.inH k.inW d h (j % k.inW)

/-- Whether a running producer's band is complete: every rank has reached its share of it (R225). -/
def State.bandDone (s : State) (q : Kernel) (b : Nat) : Bool :=
  (List.range 75).all fun r => decide (q.bandShare r b ≤ s.bandCount r (recBandFirst q.image.counter + b))

/-- Whether the producer bands that hold rows of a raw slice are complete. -/
def State.sliceReady (s : State) (k : Kernel) (slice : Nat) : Bool :=
  if !winChained k.image.window || (k.slicePicks slice).isEmpty then true else
  match s.producerOf k with
  | none => false
  | some (_, false) => true
  | some (q, true) =>
    let per := recBandTiles q.image.counter * q.m
    let a := slice * k.slicePos / per
    let b := ((slice + 1) * k.slicePos - 1) / per
    (List.range (b + 1 - a)).all fun i => s.bandDone q (a + i)

/-- The staged positions of a raw slice from their source: a status where the working tier refuses, and each position with
its marked bytes (R222). -/
def State.sliceSource (s : State) (k : Kernel) (slice : Nat) : Nat × List (Nat × Marked) :=
  let w := k.image.window
  let fmt := loadFmt (wordOf k.prog 2)
  let e := winElem fmt
  (k.slicePicks slice).foldl (fun acc j =>
    if acc.1 ≠ 0 then acc else
    let pos := slice * k.slicePos + j
    if winChained w then
      match s.producerOf k with
      | none => (0x0164, [])
      | some (q, _) =>
        let row := (List.range (winCin w)).flatMap fun c =>
          let tm := pos / q.m
          let tn := c / q.n
          s.infMarked (q.owner (q.tileAt tm tn 0)) (q.outAddr q.outWord tm tn 0 0 (pos % q.m) (c % q.n)) e
        (0, acc.2 ++ [(j, row)])
    else
      match s.cvaRead k.cmd (winVa w + pos * winPosBytes w) (winCin w * e) with
      | (0, l) => (0, acc.2 ++ [(j, l)])
      | (st, _) => (st, [])) (0, [])

/-- A raw slice staged: its positions written at an address of a rank's staging area, and where they come from the working
tier the heat units from the first to the last of them counted as read (R221, R251). -/
def State.stageSlice (s : State) (k : Kernel) (rank slice at_ : Nat) (l : List (Nat × Marked)) : State :=
  let w := k.image.window
  let size := winCin w * winElem (loadFmt (wordOf k.prog 2))
  let t := l.foldl (fun t p => t.infWriteMarked rank (at_ + p.1 * size) p.2) s
  match winChained w, l.head?, l.getLast? with
  | false, some a, some b => t.noteRead k.cmd true (winVa w + (slice * k.slicePos + a.1) * winPosBytes w)
      ((b.1 - a.1) * winPosBytes w + size)
  | _, _, _ => t

/-- The first raw slice of a rank's stripe that is not staged yet. -/
def Kernel.nextSlice (k : Kernel) (rank : Nat) : Option Nat :=
  let w := k.image.window
  let (a, b) := stripeOf k.image k.boundM k.boundN k.inD k.inH k.inW rank
  ((List.range ((b - a) * rawPer w)).map fun i => a * rawPer w + i).find? fun sl => !k.staged.contains (65536 * rank + sl)

/-- SLICE_STAGE: the tier movers of a rank stage the next input slice of its stripe, in ascending order, once the bands it
needs are complete; WN_BAND_WAIT counts what they waited (R221, R222, R225, R231). -/
def execSliceStage (counter : Fin 256) (rank : Fin 75) (bandWait : Nat) (s : State) : Out :=
  .next (
    match s.kernel counter with
    | none => s
    | some k =>
      match k.nextSlice rank with
      | none => s
      | some sl =>
        if !(k.image.windowed && !k.cancelled && s.holds k.cmd.cx && s.sliceReady k sl) then s else
        match s.sliceSource k sl with
        | (0, l) =>
          let w := k.image.window
          let fmt := loadFmt (wordOf k.prog 2)
          let lo := (stripeOf k.image k.boundM k.boundN k.inD k.inH k.inW rank).1 * rawPer w
          let at_ := winLine w * 128 + (sl - lo) * sliceBytes w fmt k.inD k.inH k.inW
          let base := siteBase (s.siteAt rank)
          let t := (s.stageSlice k rank sl at_ l).setKernel counter
            (some { k with staged := sput k.staged (65536 * rank.val + sl) })
          (t.addWrap (base + 0x700) (if l.isEmpty then 0 else 1)).addSat (base + 0x70C) bandWait
        | (st, _) => s.cancelKernel counter k st)

end Sys2Proof.Machine
end

