-- ==== Sys2Proof/Machine/Engines.lean ====
section
/-!
DEFINITION. Engine commands (chapter 6): the engine record, its streams' extents, every check made at load, and the run of
an engine command row by row over the ranks.
-/

namespace Sys2Proof.Machine

open Sys2Proof

/-! ### The engine record (Table 6.1) -/

def egOp (x : Line) : Nat := fld x 15 0
def egSr (x : Line) : Bool := flag x 16
def egBit17 (x : Line) : Bool := flag x 17
def egTwo (x : Line) : Nat := fld x 19 18
def egLayer (x : Line) : Nat := fld x 47 32
def egFmtA (x : Line) : Nat := fld x 51 48
def egFmtB (x : Line) : Nat := fld x 55 52
def egFmtC (x : Line) : Nat := fld x 59 56
def egFmtOut (x : Line) : Nat := fld x 63 60
def egLineA (x : Line) : Nat := fld x 83 64
def egLineB (x : Line) : Nat := fld x 103 84
def egLineC (x : Line) : Nat := fld x 123 104
def egLineOut (x : Line) : Nat := fld x 143 124
def egAux (x : Line) : Nat := fld x 159 144
def egStrideA (x : Line) : Nat := fld x 191 160
def egStrideB (x : Line) : Nat := fld x 223 192
def egStrideOut (x : Line) : Nat := fld x 255 224
def egStrideC (x : Line) : Nat := fld x 287 256
def egRows (x : Line) : Nat := fld x 319 288
def egLen (x : Line) : Nat := fld x 351 320
def egCap (x : Line) : Nat := fld x 383 352
def egRoutine (x : Line) : Nat := fld x 399 384
def egTensor (x : Line) : Nat := fld x 415 400
def egMaxRows (x : Line) : Nat := fld x 447 416
def egParA (x : Line) : Nat := fld x 479 448
def egParB (x : Line) : Nat := fld x 511 480

/-- Byte address of a row of each stream (R147). -/
def egAtA (x : Line) (r : Nat) : Nat := egLineA x * 128 + r * egStrideA x
def egAtB (x : Line) (r : Nat) : Nat := egLineB x * 128 + r * egStrideB x
def egAtC (x : Line) (r : Nat) : Nat := egLineC x * 128 + r * egStrideC x
def egAtOut (x : Line) (r : Nat) : Nat := egLineOut x * 128 + r * egStrideOut x

/-- Bytes of an element of a format that is no MX format. -/
def fmtBytes (f : Nat) : Nat := fmtBits f / 8

/-- A format legal outside the quantising operations: a code of Table 2.5 that names no MX format. -/
def fmtPlain (f : Nat) : Bool := decide (f ≤ 11) && !fmtMx f

/-! ### Kinds of operations -/

def opElementwise (op : Nat) : Bool := decide (0x200 ≤ op) && decide (op ≤ 0x207)
def opRoutine (op : Nat) : Bool := decide (0x100 ≤ op) && decide (op ≤ 0x10F)
def opGse (op : Nat) : Bool := decide (0x280 ≤ op) && decide (op ≤ 0x286)
def opSfe (op : Nat) : Bool := decide (op < 0x200)

/-- Mode bits an operation names beside bit 16, as bits of the record's [31:16] (R147). -/
def opModes (op : Nat) : Nat :=
  if op = 0x20A ∨ op = 0x20B ∨ op = 0x180 ∨ op = 0x285 then 0x3
  else if op = 0x20E then 0x5
  else if op = 0x210 ∨ op = 0x284 then 0xD
  else if op = 0x282 then 0x1D
  else 0x1

/-! ### Chain programs and micro-programs (R157, R158, R162) -/

/-- A chain program of the resident package. -/
def State.chainProg (s : State) (i : Nat) : Option (List Byte) :=
  match s.package with | some p => p.chains[i]? | none => none

/-- A micro-program slot of the resident package. -/
def State.microProg (s : State) (i : Nat) : Option (List Byte) :=
  match s.package with | some p => p.micros[i]? | none => none

def chainHead (l : List Byte) : Nat := ofBytes (l.take 4)
def chainSteps (l : List Byte) : List Nat := (numbers 4 16 (l.drop 4)).take (bits (chainHead l) 3 0 + 1)
def chainConsts (l : List Byte) : List Nat := numbers 4 6 (l.drop 68)
def chainWrites (l : List Byte) (j : Nat) : Bool := bit (chainHead l) (4 + j)

/-- The status of a chain program under R157 and R158; 0 where it passes. -/
def chainStatus (l : List Byte) : Nat :=
  let steps := chainSteps l
  let rest := (numbers 4 16 (l.drop 4)).drop steps.length
  if bits (chainHead l) 31 8 != 0 || !zeroRun l 92 128 then 0x0250
  else if steps.any fun w => bits w 31 27 == 0 || decide (0xD < bits w 31 27) || bits w 10 0 != 0 then 0x0250
  else if rest.any (fun w => w != 0) || steps.any fun w => decide (0xA ≤ bits w 31 27) && bit w 11 then 0x0252
  else 0

/-- The steps of a micro-program, END excluded; none where it has no END (R162). -/
def microSteps (l : List Byte) : Option (List Nat) :=
  let w := numbers 4 32 l
  if w.any fun x => bits x 31 28 == 7 then some (w.takeWhile fun x => bits x 31 28 != 7) else none

/-- Highest table index a micro-program step can name, plus one: a TABLE step loads the eight coefficients of any of 32
segments. -/
def microReach (w : Nat) : Nat :=
  let k := bits w 31 28
  let v := bits w 27 24
  let i := bits w 11 0
  if k = 1 ∧ v = 1 then i + 3
  else if k = 1 ∧ v = 2 ∨ k = 6 then i + 2
  else if k = 2 then i + 256
  else if k = 4 ∧ v = 1 then i + 1
  else 0

/-- Whether a micro-program step has a reserved kind, variant or degree. -/
def microBad (w : Nat) : Bool :=
  let k := bits w 31 28
  let v := bits w 27 24
  if k = 1 then decide (2 < v)
  else if k = 2 then decide (1 < v)
  else if k = 3 then v != 0 || bits w 11 0 == 0 || decide (7 < bits w 11 0)
  else if k = 4 then decide (6 < v)
  else if k = 5 then decide (3 < v)
  else if k = 6 then v != 0
  else true

/-- The status of a micro-program; 0 where it passes (R162). -/
def microStatus (l : List Byte) : Nat :=
  match microSteps l with
  | none => 0x0252
  | some steps =>
    if steps.any microBad then 0x0250
    else if steps.any fun w => decide (1024 < microReach w) then 0x0252 else 0

/-! ### Recipes named by layer (R100, R160, R161) -/

/-- The record index of a layer_id; none where the recipe table has none. -/
def State.layerIndex (s : State) (layer : Nat) : Option Nat :=
  match s.package with
  | some p => p.recipes.findIdx? fun r => recipeLayer r == layer
  | none => none

/-- side_cap and clip under which a block of MXFP4 is formed, where the layer's narrow pair is MXFP4 × MXFP4. -/
def State.sideList (s : State) (layer fmt : Nat) : Option (Nat × Nat) :=
  match s.layerIndex layer with
  | none => none
  | some i => match s.recipeRec i with
    | none => none
    | some r => if fmt = 9 ∧ recipeNarrowA r = 9 ∧ recipeNarrowB r = 9 then some (recipeCap r, recipeClip r) else none

/-- Side entries per block of a slab. -/
def State.sideCount (s : State) (layer fmt : Nat) : Nat := ((s.sideList layer fmt).map Prod.fst).getD 0

/-! ### Extents (R149) -/

/-- One stream extent: whether it is written, the bytes, and for an elementwise stream its line, stride and element size,
which let an output coincide with an input. -/
structure Extent where
  write : Bool
  area : Lattice
  tag : Option (Nat × Nat × Nat)
  deriving DecidableEq, Repr

/-- An extent without a tag. -/
def ext (write : Bool) (first : Nat) (dims : List (Nat × Nat)) (n : Nat) : Extent := ⟨write, (first, dims, n), none⟩

/-- The bytes that `n` rows address in slabs of `aux` rows: whole slab groups, and of the last group the elements, scale bytes
and side entries of its rows alone (R127, R160, R161). -/
def slabExtents (w : Bool) (first strideB stride fmt n aux slabs side : Nat) : List Extent :=
  let m := n % aux
  let last := first + n / aux * strideB
  let scales := aux * 32 * fmtBits fmt / 8
  [ext w first [(n / aux, strideB), (slabs, stride)] (slabBytes fmt aux side),
    ext w last [(slabs, stride)] (m * 32 * fmtBits fmt / 8),
    ext w (last + scales) [(slabs, stride)] m,
    ext w (last + scales + aux) [(slabs, stride)] (m * 2 * side)]

/-- The extents of an engine record over `n` rows; `side` is the slab's side entries per row. -/
def State.engineExtents (s : State) (x : Line) (n side : Nat) : List Extent :=
  let op := egOp x
  let len := egLen x
  let aux := egAux x
  let cap := egCap x
  let stream := fun (w : Bool) (line stride fmt : Nat) =>
    (⟨w, (line * 128, [(n, stride)], len * fmtBytes fmt),
      if opElementwise op then some (line, stride, fmtBytes fmt) else none⟩ : Extent)
  let a := stream false (egLineA x) (egStrideA x) (egFmtA x)
  let b := stream false (egLineB x) (egStrideB x) (egFmtB x)
  let c := stream false (egLineC x) (egStrideC x) (egFmtC x)
  let out := stream true (egLineOut x) (egStrideOut x) (egFmtOut x)
  let row := fun (w : Bool) (line stride bytes : Nat) => ext w (line * 128) [(n, stride)] bytes
  let slab := fun (w : Bool) (line fmt stride : Nat) =>
    slabExtents w (line * 128) (egStrideB x) stride fmt n aux (len / 32) side
  if op = 0x200 then
    let m := (s.chainProg (egRoutine x)).getD []
    let w := fun (j : Nat) (e : Extent) => if chainWrites m j then [{ e with write := true }] else []
    let o := { out with write := false }
    [a, b, c, o] ++ w 0 a ++ w 1 b ++ w 2 c ++ w 3 o
  else if op = 0x204 then [a, b, c, out]
  else if op = 0x207 ∨ opRoutine op ∨ op = 0x182 then [a, out]
  else if opElementwise op then [a, b, out]
  else if op = 0x208 then a :: slab true (egLineOut x) (egFmtOut x) (egStrideOut x)
  else if op = 0x209 then row true (egLineOut x) (egStrideOut x) (4 * len) :: slab false (egLineA x) (egFmtA x) (egStrideA x)
  else if op = 0x20A then
    [ext false (egLineA x * 128) [(n, egStrideA x), (aux, egStrideB x)] (4 * len), out]
  else if op = 0x20B ∨ op = 0x20C ∨ op = 0x181 then [a, row true (egLineOut x) (egStrideOut x) (fmtBytes (egFmtOut x))]
  else if op = 0x20D then [a, row true (egLineOut x) (egStrideOut x) 4]
  else if op = 0x20E then
    [row false (egLineA x) (egStrideA x) (aux * (8 + 4 * len))] ++
      (if flag x 18 then [row true (egLineOut x) (egStrideOut x) (8 + 4 * len)]
      else [out, row true (egLineC x) (egStrideC x) 4])
  else if op = 0x20F then
    [a, row false (egLineB x) (egStrideB x) 4, row false (egLineC x) (egStrideC x) 4,
      ext false (egParA x * 128) [] (4 * len), ext false (egParB x * 128) [] (4 * len), out]
  else if op = 0x210 then [out]
  else if op = 0x180 then
    [a, row true (egLineOut x) (egStrideOut x) 4, row true (egLineB x) (egStrideB x) 4, row true (egLineC x) (egStrideC x) 4]
  else if op = 0x280 then
    [row false (egLineB x) (egStrideB x) (4 * len),
      ext false ((if flag x 511 then bits (egParB x) 19 0 else egLineA x) * 128) [(cap, egStrideA x)] (4 * aux),
      ext true (egLineOut x * 128) [(n * len, egStrideOut x)] (4 * aux)]
  else if op = 0x281 then
    [row false (egLineB x) (egStrideB x) (4 * len), ext false (egLineA x * 128) [(n * len, egStrideA x)] (4 * aux),
      ext true (egLineOut x * 128) [(cap, egStrideOut x)] (4 * aux)]
  else if op = 0x282 then
    [row false (egLineA x) (egStrideA x) (4 * len), row false (egLineB x) (egStrideB x) (4 * len),
      row true (egLineOut x) (egStrideOut x) (4 * len), row true (egLineC x) (egStrideC x) (4 * len)]
  else if op = 0x283 then
    [a, row true (egLineOut x) (egStrideOut x) (aux * fmtBytes (egFmtOut x)), row true (egLineC x) (egStrideC x) (4 * aux)]
  else if op = 0x284 then
    [row false (egLineA x) (egStrideA x) (4 * len), row false (egLineB x) (egStrideB x) (4 * len),
      row true (egLineOut x) (egStrideOut x) (cap * fmtBytes (egFmtOut x)), row true (egLineC x) (egStrideC x) (4 * cap),
      ext true (egLineOut x * 128 - 128) [(n, egStrideOut x)] 4]
  else if op = 0x285 then
    [row false (egLineA x) (egStrideA x) (4 * len), row false (egLineB x) (egStrideB x) (4 * len),
      row true (egLineOut x) (egStrideOut x) (4 * aux * cap)] ++
      (if egBit17 x then [row true (egLineC x) (egStrideC x) (4 * aux)] else [])
  else if op = 0x286 then
    [row false (egLineA x) (egStrideA x) (4 * len), row true (egLineOut x) (egStrideOut x) (32 * (cap + 1))]
  else []

/-- Side entries per row of the slab that a record writes or reads. -/
def State.slabSideOf (s : State) (x : Line) : Nat :=
  s.sideCount (egLayer x) (if egOp x = 0x208 then egFmtOut x else egFmtA x)

/-- Whether R149 refuses a record: an extent outside the allocations of the context, or an output over an input. -/
def State.extentsBad (s : State) (cx : Nat) (x : Line) : Bool :=
  let l := s.engineExtents x (egMaxRows x) (s.slabSideOf x)
  l.any (fun e => !s.latticeOk cx e.write e.area) ||
    l.any fun o => o.write && l.any fun i =>
      !i.write && !(o.tag.isSome && o.tag == i.tag) && latticeMeet o.area i.area

/-! ### Load checks (R147 to R149, R153 to R177, R361, R519, R520) -/

/-- Whether an operation number is one of Tables 6.3, 6.6, 6.8 or 6.9. -/
def opKnown (op : Nat) : Bool :=
  (decide (0x100 ≤ op) && decide (op ≤ 0x17F)) || (decide (0x180 ≤ op) && decide (op ≤ 0x182)) ||
    (decide (0x200 ≤ op) && decide (op ≤ 0x210)) || opGse op

/-- Reserved values and the fields an operation does not use: 0x0250. -/
def engineReserved (x : Line) : Bool :=
  let op := egOp x
  !opKnown op || decide (11 < egFmtA x) || decide (11 < egFmtB x) || decide (11 < egFmtC x) || decide (11 < egFmtOut x) ||
    bits x.toNat 31 16 &&& (0xFFFF ^^^ opModes op) != 0 ||
    (op != 0x208 && op != 0x209 && egLayer x != 0xFFFF) || shapeBad (egRows x) ||
    (op != 0x200 && op != 0x182 && egRoutine x != 0) ||
    (op == 0x182 && !(decide (0x4000 ≤ egRoutine x) && decide (egRoutine x ≤ 0x403F))) ||
    (op == 0x282 && egTwo x == 3) ||
    (op == 0x280 && (bits (egParB x) 30 27 != 0 || decide (74 < bits (egParB x) 26 20) || (!bit (egParB x) 31 && egParB x != 0)))

/-- Limits of the operation: 0x0251. -/
def engineLimits (x : Line) : Bool :=
  let op := egOp x
  let len := egLen x
  let aux := egAux x
  let cap := egCap x
  let rowsPerSlab := aux % 8 != 0 || aux == 0 || decide (64 < aux)
  let between := fun (a b v : Nat) => decide (a ≤ v) && decide (v ≤ b)
  if op = 0x208 ∨ op = 0x209 then len % 32 != 0 || rowsPerSlab
  else if op = 0x20A then !between 1 1024 aux
  else if op = 0x20E then !between 1 256 aux
  else if op = 0x180 ∨ op = 0x181 then decide (2 ^ 24 < len)
  else if op = 0x280 ∨ op = 0x281 then !between 1 (2 ^ 24) len || !between 1 65535 aux || !between 1 (2 ^ 31) cap
  else if op = 0x282 then !between 1 (2 ^ 22) len
  else if op = 0x283 then !between 1 (2 ^ 20) len || !between 1 (min 1024 len) aux
  else if op = 0x284 then !between 1 (2 ^ 24) len || !between 1 len cap || egLineOut x == 0 ||
    (decide (1 < egMaxRows x) && (egStrideOut x % 128 != 0 || decide (egStrideOut x < 128 + cap * fmtBytes (egFmtOut x))))
  else if op = 0x285 then !between 1 (2 ^ 24) len || !between 1 65535 aux || !between 1 (2 ^ 20) cap || decide (2 ^ 24 < aux * cap)
  else if op = 0x286 then !between 3 65538 len || !between 1 8 aux || !between 1 65536 cap || decide (egStrideOut x < 32 * (cap + 1))
  else false

/-- Formats not legal for the operation: 0x0253. -/
def engineFormats (x : Line) : Bool :=
  let op := egOp x
  let a := !fmtPlain (egFmtA x)
  let b := !fmtPlain (egFmtB x)
  let c := !fmtPlain (egFmtC x)
  let o := !fmtPlain (egFmtOut x)
  if op = 0x200 ∨ op = 0x204 then a || b || c || o
  else if op = 0x208 then !(egFmtA x == 0 || egFmtA x == 1) || !fmtMx (egFmtOut x)
  else if op = 0x209 then !fmtMx (egFmtA x) || egFmtOut x != 0
  else if op = 0x20A then egFmtA x != 0 || o
  else if op = 0x20D ∨ op = 0x180 then a
  else if op = 0x20E then !flag x 18 && o
  else if op = 0x20F then a || egFmtB x != 0 || egFmtC x != 0 || o
  else if op = 0x210 then !(egFmtA x == 1 || egFmtA x == 2 || egFmtA x == 3 || egFmtA x == 4 || egFmtA x == 10) || o
  else if op = 0x284 then o || (egTwo x == 3 && egFmtOut x != 0)
  else if opGse op ∧ op ≠ 0x283 then false
  else if op = 0x201 ∨ op = 0x202 ∨ op = 0x203 ∨ op = 0x205 ∨ op = 0x206 then a || b || o
  else a || o

/-- The status with which an engine record is refused at decode; 0 where it passes. -/
def State.engineStatus (s : State) (cx : Nat) (x : Line) : Nat :=
  let op := egOp x
  let prog := if op = 0x200 then s.chainProg (egRoutine x) else if op = 0x182 then s.microProg (egRoutine x - 0x4000) else some []
  if engineReserved x then 0x0250
  else if (decide (0x110 ≤ op) && decide (op ≤ 0x17F)) || prog.isNone then 0x0256
  else if engineLimits x then 0x0251
  else
    let st := if op = 0x200 then chainStatus (prog.getD []) else if op = 0x182 then microStatus (prog.getD []) else 0
    if st ≠ 0 then st
    else if engineFormats x then 0x0253
    else if s.extentsBad cx x then 0x0254
    else 0

/-! ### Running rows (R148, R152, R178) -/

/-- What one row of an engine operation does: the ranges it reads, as (rank, address, bytes); what it writes into its owner's
infield; its flags; items dropped, substituted and skipped; blocks formed, side entries used, candidates saturated. -/
structure EngRow where
  reads : List (Nat × Nat × Nat)
  writes : List (Nat × List Byte)
  flags : Nat
  drop : Nat
  subst : Nat
  skip : Nat
  blocks : Nat
  used : Nat
  excess : Nat
  /-- Free values drawn. -/
  drawn : Nat
  deriving DecidableEq, Repr

/-- A row that reads, writes and flags only. -/
def EngRow.plain (reads : List (Nat × Nat × Nat)) (writes : List (Nat × List Byte)) (flags : Nat) : EngRow :=
  ⟨reads, writes, flags, 0, 0, 0, 0, 0, 0, 0⟩

/-- An operation's row, from the state, the context's seed, the record, the owner rank and the row index. -/
abbrev RowFn := State → Nat → Line → Nat → Nat → EngRow

/-- The ranks' whole rows, as (rank, row), divided as R115 divides tiles (R148). -/
def rowParts (n : Nat) : List (Nat × Nat) :=
  (List.range 75).flatMap fun r =>
    (List.range (n * (r + 1) / 75 - n * r / 75)).map fun i => (r, n * r / 75 + i)

/-- A count of a field's monitors raised (R100). -/
def State.monAdd (s : State) (rank slot which n : Nat) : State :=
  let k := (rank * 513 + slot) * 3 + which
  if n = 0 then s else
  { s with rails := { s.rails with fieldMon := tput s.rails.fieldMon k (sat32 (tget s.rails.fieldMon k 0 + n)) 0 } }

/-- The traces of a saturated candidate (R101). -/
def State.noteOverflow (s : State) (layer : Nat) : State :=
  match s.layerIndex layer with
  | some i =>
    let t := s.orReg (0x2400 + 4 * (i / 32)) (2 ^ (i % 32))
    if bits (t.reg 0x200C) 31 16 = 0xFFFF then t.setReg 0x200C (setFld (t.reg 0x200C) 31 16 layer) else t
  | none => if bit (s.reg 0x2024) 0 then s else s.setReg 0x2024 (1 + 65536 * layer)

/-- The counts of a row in its owner field (R100, R101, R178, R179). -/
def State.noteRow (s : State) (x : Line) (rank : Nat) (w : EngRow) : State :=
  let base := siteBase (s.siteAt rank)
  let t := s.addWrap (base + (if opGse (egOp x) then 0x61C else if opSfe (egOp x) then 0x618 else 0x614)) 1
  let t := if w.drop + w.subst + w.skip = 0 then t else
    let u := ((t.addSat (base + 0x600) w.drop).addSat (base + 0x604) w.subst).addSat (base + 0x608) w.skip
    if u.reg (base + 0x60C) = 0xFFFF then u.setReg (base + 0x60C) (egTensor x) else u
  let slot := (t.layerIndex (egLayer x)).getD 512
  let t := ((t.monAdd rank slot 0 w.blocks).monAdd rank slot 1 w.used).monAdd rank slot 2 w.excess
  if w.excess = 0 then t else t.noteOverflow (egLayer x)

/-- The flags of a row. -/
def EngRow.allFlags (w : EngRow) : Nat :=
  w.flags ||| (if w.drop + w.subst + w.skip = 0 then 0 else flDrop) ||| (if w.excess = 0 then 0 else flOutlier)

/-- One row runs; a row that would read poison writes nothing, and no row runs after it (R448). -/
def runRow (f : RowFn) (id : CmdId) (seed : Nat) (x : Line) (acc : State × Bool) (p : Nat × Nat) : State × Bool :=
  if acc.2 then acc else
  let s := acc.1
  let w := f s seed x p.1 p.2
  if w.reads.any fun r => s.infPoisoned r.1 r.2.1 r.2.2 then (s, true) else
  let t := w.writes.foldl (fun u e => u.infWrite p.1 e.1 e.2) s
  let t := (t.noteRow x p.1 w).raise id w.allFlags
  ({ t with draws := t.draws + w.drawn }, false)

/-- The `n` rows of a command run; its completion then waits for its hurdle (R138, R148). A row count above the declared
maximum runs no row. -/
def State.runCount (s : State) (id : CmdId) (c : Cmd) (f : RowFn) (n : Nat) : State :=
  if egMaxRows c.ext < n then s.finish id 0x0257 0 else
  match (rowParts n).foldl (runRow f id c.seed c.ext) (s, false) with
  | (t, true) => t.consumePoison id
  | (t, false) => t.modCmd id fun d => { d with worked := true, progress := n }

/-- Every row of a command runs, as many as its shape source names at issue. -/
def State.runRows (s : State) (id : CmdId) (c : Cmd) (f : RowFn) : State :=
  s.runCount id c f (s.shape id.cx (egRows c.ext))

/-- Whether an operation number names an operation. -/
def opNamed (op : Nat) : Bool := opKnown op && (!opSfe op || opRoutine op || decide (0x180 ≤ op))

/-- An engine command of an operation, or of a number that names none, which every row of the family turns away. -/
def wantEngine (op : Nat) (c : Cmd) : Bool := wantKind 0x03 c && (egOp c.ext == op || !opNamed (egOp c.ext))

/-- An engine command issues and its rows run. -/
def State.engineRun (s : State) (cx op : Nat) (f : RowFn) : State :=
  s.issueHead cx 0 (wantEngine op) noPins fun t id c =>
    if opNamed (egOp c.ext) then t.runRows id c f else t.finish id (if opKnown (egOp c.ext) then 0x0256 else 0x0250) 0

/-! ### Reading and writing elements -/

/-- `n` element codes of a format from an infield address. -/
def State.codes (s : State) (rank addr fmt n : Nat) : List Nat :=
  numbers (fmtBytes fmt) n (s.infRead rank addr (n * fmtBytes fmt))

/-- `n` elements widened exactly (R153). -/
def State.values (s : State) (rank addr fmt n : Nat) : List Num := (s.codes rank addr fmt n).map (elemVal fmt)

/-- `n` 32-bit words from an infield address. -/
def State.words (s : State) (rank addr n : Nat) : List Nat := s.codes rank addr 0 n

/-- Element codes as bytes. -/
def codeBytes (fmt : Nat) (l : List Nat) : List Byte := l.flatMap (toBytes (fmtBytes fmt))

/-- Words as bytes. -/
def wordBytes (l : List Nat) : List Byte := codeBytes 0 l

/-- The rounding of a vector engine under R159: stochastic with the key of element `e` of a row and a partial index. -/
def egRound (sr : Bool) (seed : Nat) (x : Line) (row e part : Nat) : Rounding :=
  srMode sr seed (egTensor x) (row * egLen x + e) part

/-- The conversion of element `e` of a row to fmt_out (R154). -/
def egConv (seed : Nat) (x : Line) (row e : Nat) (v : Num) : Nat × Nat :=
  convOut (egRound (egSr x) seed x row e 0) (egFmtOut x) v

/-- The flags of a list of results. -/
def flagsOf (l : List (Nat × Nat)) : Nat := l.foldl (fun a p => a ||| p.2) 0

/-- A row whose elements are computed from rows of its streams and written to OUT: `f` gives element e's code and flags. -/
def outRow (x : Line) (row : Nat) (reads : List (Nat × Nat × Nat)) (n : Nat) (f : Nat → Nat × Nat) : EngRow :=
  let l := (List.range n).map f
  EngRow.plain reads [(egAtOut x row, codeBytes (egFmtOut x) (l.map Prod.fst))] (flagsOf l)

/-- The range that a row reads of each stream. -/
def readA (x : Line) (rank row : Nat) : Nat × Nat × Nat := (rank, egAtA x row, egLen x * fmtBytes (egFmtA x))
def readB (x : Line) (rank row : Nat) : Nat × Nat × Nat := (rank, egAtB x row, egLen x * fmtBytes (egFmtB x))
def readC (x : Line) (rank row : Nat) : Nat × Nat × Nat := (rank, egAtC x row, egLen x * fmtBytes (egFmtC x))
def readOut (x : Line) (rank row : Nat) : Nat × Nat × Nat := (rank, egAtOut x row, egLen x * fmtBytes (egFmtOut x))

/-- The elements of a row of each stream. -/
def State.rowA (s : State) (x : Line) (rank row : Nat) : List Num := s.values rank (egAtA x row) (egFmtA x) (egLen x)
def State.rowB (s : State) (x : Line) (rank row : Nat) : List Num := s.values rank (egAtB x row) (egFmtB x) (egLen x)
def State.rowC (s : State) (x : Line) (rank row : Nat) : List Num := s.values rank (egAtC x row) (egFmtC x) (egLen x)
def State.rowOut (s : State) (x : Line) (rank row : Nat) : List Num := s.values rank (egAtOut x row) (egFmtOut x) (egLen x)

/-- An element widened to FP32: its code. A value of any format but FP32 is exact; a NaN is the canonical one. -/
def code32 (v : Num) : Nat := (toF32 .rne v).1

/-- Element i of a row of values. -/
def numAt (l : List Num) (i : Nat) : Num := nth l i Num.zero

end Sys2Proof.Machine
end

