-- ==== Sys2Proof/Machine/Vector.lean ====
section
/-!
DEFINITION. The vector-engine operations but for pooling (R153 to R161, R170, R207, R519), and the merge of online softmax
states (R206).
-/

namespace Sys2Proof.Machine

open Sys2Proof

/-! ### Elementwise operations (R153, R154) -/

/-- A row of an elementwise operation on A and B: `f` acts on FP32 codes. -/
def binRow (f : Nat → Nat → Nat × Nat) : RowFn := fun s seed x rank row =>
  let a := s.rowA x rank row
  let b := s.rowB x rank row
  outRow x row [readA x rank row, readB x rank row] (egLen x) fun e =>
    let z := f (code32 (numAt a e)) (code32 (numAt b e))
    let y := egConv seed x row e (ofF32 z.1)
    (y.1, z.2 ||| y.2)

/-- FMA over A, B and C. -/
def fmaRow : RowFn := fun s seed x rank row =>
  let a := s.rowA x rank row
  let b := s.rowB x rank row
  let c := s.rowC x rank row
  outRow x row [readA x rank row, readB x rank row, readC x rank row] (egLen x) fun e =>
    let z := f32Fma (code32 (numAt a e)) (code32 (numAt b e)) (code32 (numAt c e))
    let y := egConv seed x row e (ofF32 z.1)
    (y.1, z.2 ||| y.2)

/-- CONVERT of A. -/
def convertRow : RowFn := fun s seed x rank row =>
  let a := s.rowA x rank row
  outRow x row [readA x rank row] (egLen x) fun e => egConv seed x row e (numAt a e)

/-- ADD. -/
def execAdd (cx : Fin 16) (s : State) : Out := .next (s.engineRun cx 0x201 (binRow (f32Add .rne)))
/-- SUB. -/
def execSub (cx : Fin 16) (s : State) : Out := .next (s.engineRun cx 0x202 (binRow f32Sub))
/-- MUL. -/
def execMul (cx : Fin 16) (s : State) : Out := .next (s.engineRun cx 0x203 (binRow f32Mul))
/-- FMA. -/
def execFma (cx : Fin 16) (s : State) : Out := .next (s.engineRun cx 0x204 fmaRow)
/-- MAX. -/
def execMax (cx : Fin 16) (s : State) : Out := .next (s.engineRun cx 0x205 (binRow max32))
/-- MIN. -/
def execMin (cx : Fin 16) (s : State) : Out := .next (s.engineRun cx 0x206 (binRow min32))
/-- CONVERT. -/
def execConvert (cx : Fin 16) (s : State) : Out := .next (s.engineRun cx 0x207 convertRow)

/-! ### Chain programs (R157 to R159) -/

/-- One chain step on the eight registers, FP32 codes: the registers after it and its flags. -/
def chainStep (alv : Nat) (consts : List Nat) (round : Nat → Rounding) (regs : List Nat) (i w : Nat) : List Nat × Nat :=
  let src := fun (c : Nat) => if c < 8 then nth regs c 0 else nth consts (c - 8) 0
  let a := src (bits w 23 20)
  let b := src (bits w 19 16)
  let c := src (bits w 15 12)
  let r := if bit w 11 then round i else .rne
  let op := bits w 31 27
  let z : Nat × Nat :=
    if op = 1 then toF32 r ((ofF32 a).add (ofF32 b))
    else if op = 2 then toF32 r ((ofF32 a).add (ofF32 b).neg)
    else if op = 3 then toF32 r ((ofF32 a).mul (ofF32 b))
    else if op = 4 then toF32 r (((ofF32 a).mul (ofF32 b)).add (ofF32 c))
    else if op = 5 then max32 a b
    else if op = 6 then min32 a b
    else if op = 7 then toF32 .rne (ofF32 a).abs
    else if op = 8 then toF32 .rne (ofF32 a).neg
    else if op = 9 then
      let x := ofF32 a
      (if x.isNan || x.lt Num.zero then c else b, 0)
    else if op = 10 then libRoutine alv 0x104 a
    else if op = 11 then libRoutine alv 0x106 a
    else if op = 12 then libRoutine alv 0x105 a
    else libRoutine alv 0x100 a
  (regs.set (bits w 26 24) z.1, z.2)

/-- A chain program on one element: the registers at its end and the flags. -/
def chainElem (alv : Nat) (consts steps : List Nat) (round : Nat → Rounding) (start : List Nat) : List Nat × Nat :=
  steps.zipIdx.foldl (fun acc w =>
    let z := chainStep alv consts round acc.1 w.2 w.1
    (z.1, acc.2 ||| z.2)) (start, 0)

/-- The four streams of a CHAIN: their formats. -/
def chainFmt (x : Line) (j : Nat) : Nat := nth [egFmtA x, egFmtB x, egFmtC x, egFmtOut x] j 0

/-- Row address of stream j of a CHAIN. -/
def chainAt (x : Line) (row j : Nat) : Nat := nth [egAtA x row, egAtB x row, egAtC x row, egAtOut x row] j 0

/-- A row of a CHAIN. -/
def chainRow : RowFn := fun s seed x rank row =>
  let prog := (s.chainProg (egRoutine x)).getD []
  let consts := chainConsts prog ++ [egParA x, egParB x]
  let a := s.rowA x rank row
  let b := s.rowB x rank row
  let c := s.rowC x rank row
  let o := s.rowOut x rank row
  let elems := (List.range (egLen x)).map fun e =>
    chainElem s.alv consts (chainSteps prog) (fun i => egRound true seed x row e (0x200 + i))
      [code32 (numAt a e), code32 (numAt b e), code32 (numAt c e), code32 (numAt o e), 0, 0, 0, 0]
  let stream := fun (j : Nat) =>
    if chainWrites prog j then
      let l := elems.zipIdx.map fun p =>
        convOut (egRound (egSr x) seed x row p.2 (0x100 + j)) (chainFmt x j) (ofF32 (nth p.1.1 j 0))
      [((chainAt x row j, codeBytes (chainFmt x j) (l.map Prod.fst)), flagsOf l)]
    else []
  let outs := stream 0 ++ stream 1 ++ stream 2 ++ stream 3
  EngRow.plain [readA x rank row, readB x rank row, readC x rank row, readOut x rank row] (outs.map Prod.fst)
    ((elems.foldl (fun f p => f ||| p.2) 0) ||| (outs.foldl (fun f p => f ||| p.2) 0))

/-- CHAIN. -/
def execChain (cx : Fin 16) (s : State) : Out := .next (s.engineRun cx 0x200 chainRow)

/-! ### Blocks (R95, R96, R160, R161) -/

/-- The largest magnitude of each MX element format, as m · 2^e (R160). -/
def vmaxOf (fmt : Nat) : Num :=
  if fmt = 5 then .fin false 7 6
  else if fmt = 6 then .fin false 7 13
  else if fmt = 7 then .fin false 7 2
  else if fmt = 8 then .fin false 15 (-1)
  else if fmt = 9 then .fin false 3 1
  else .fin false 127 (-6)

/-- The greatest magnitude of a list of finite values. -/
def amaxOf (l : List Num) : Num := l.foldl (fun a v => if a.lt v.abs then v.abs else a) Num.zero

/-- The smallest integer e with a nonzero amax ≤ vmax · 2^e. -/
def blockExp (amax vmax : Num) : Int :=
  match amax, vmax with
  | .fin _ m q, .fin _ n g =>
    let e0 := magExp m q - magExp n g - 1
    let ok := fun (i : Nat) => !(Num.scale (e0 + i) vmax).lt amax
    e0 + (((List.range 3).find? ok).getD 2 : Nat)
  | _, _ => 0

/-- An element code of an MX format: within the largest magnitude, so nothing saturates (R160). -/
def mxElem (r : Rounding) (fmt : Nat) (v : Num) : Nat :=
  if fmt = 11 then (toInt8 r (v.scale 6)).1
  else match fmtOf fmt, v with
    | some f, .fin neg m e => f.sign neg + f.roundCode r m e
    | _, _ => 0

/-- A formed block: its scale byte, its codes, its side entries, and what R100 counts. -/
structure Block where
  scale : Nat
  codes : List Nat
  side : List (Nat × Nat)
  flags : Nat
  used : Nat
  excess : Nat
  deriving DecidableEq, Repr

/-- Candidates in the order of R95: largest magnitude first, then lowest position. -/
def insertCand (y : List Num) (i : Nat) : List Nat → List Nat
  | [] => [i]
  | j :: r => if (numAt y j).abs.lt (numAt y i).abs then i :: j :: r else j :: insertCand y i r

/-- A block formed from 32 values; with a side list of k entries and clip c where `list` holds them (R95, R160). -/
def formBlock (fmt : Nat) (list : Option (Nat × Nat)) (round : Nat → Rounding) (v : List Num) : Block :=
  if v.any fun a => a.isNan || a.isInf then ⟨0xFF, List.replicate 32 0, [], flNan, 0, 0⟩ else
  let amax := amaxOf v
  let (k, c) := list.getD (0, 0)
  let e := if amax.isZero then 0 else blockExp amax (vmaxOf fmt) - (c : Int)
  let fl := if e < -127 then flScale else 0
  let e := max e (-127)
  let y := v.map (Num.scale (-e))
  let cand := if list.isNone then [] else
    ((List.range 32).filter fun i => (vmaxOf fmt).lt (numAt y i).abs).foldl (fun l i => insertCand y i l) []
  let side := cand.take k
  let excess := cand.drop k
  let codes := (List.range 32).map fun i =>
    if side.contains i then 0
    else if excess.contains i then (if (numAt y i).isNeg then 0xF else 0x7)
    else mxElem (round i) fmt (numAt y i)
  ⟨(127 + e).toNat, codes, side.map (fun i => (i, (convOut .rne 3 (numAt y i)).1)), fl, side.length, excess.length⟩

/-- `n` codes of `w` bits as one number, the first lowest. -/
def packCodes (w : Nat) : List Nat → Nat
  | [] => 0
  | c :: r => c % 2 ^ w + 2 ^ w * packCodes w r

/-- The base of slab j of the group of a row (R160, R161). -/
def slabAt (line : Nat) (strideGroup strideSlab aux row j : Nat) : Nat :=
  line * 128 + row / aux * strideGroup + j * strideSlab

/-- The bytes of one row of a slab: data, scale byte, and side entries, each with its offset in the slab (R96). -/
def slabRowBytes (fmt aux k pos : Nat) (b : Block) : List (Nat × List Byte) :=
  let n := 4 * fmtBits fmt
  let entries := b.side.map fun e => 0x8000 + e.1 * 256 + e.2
  [(pos * n, toBytes n (packCodes (fmtBits fmt) b.codes)), (aux * n + pos, toBytes 1 b.scale)] ++
    (if k = 0 then [] else
      [(aux * n + aux + pos * 2 * k, (entries ++ List.replicate (k - entries.length) 0).flatMap (toBytes 2))])

/-- A row of QUANT_MX. -/
def quantRow : RowFn := fun s seed x rank row =>
  let fmt := egFmtOut x
  let list := s.sideList (egLayer x) fmt
  let k := (list.map Prod.fst).getD 0
  let a := s.rowA x rank row
  let blocks := (List.range (egLen x / 32)).map fun j =>
    formBlock fmt list (fun i => egRound (egSr x) seed x row (32 * j + i) 0) ((a.drop (32 * j)).take 32)
  let writes := blocks.zipIdx.flatMap fun b =>
    (slabRowBytes fmt (egAux x) k (row % egAux x) b.1).map fun p =>
      (slabAt (egLineOut x) (egStrideB x) (egStrideOut x) (egAux x) row b.2 + p.1, p.2)
  { EngRow.plain [readA x rank row] writes (blocks.foldl (fun f b => f ||| b.flags) 0) with
    blocks := blocks.length
    used := sumNat (blocks.map Block.used)
    excess := sumNat (blocks.map Block.excess) }

/-- QUANT_MX. -/
def execQuantMx (cx : Fin 16) (s : State) : Out := .next (s.engineRun cx 0x208 quantRow)

/-- One element of a slab row expanded: 2^(s - 127) · (v + q) (R161). -/
def dequantElem (fmt scale : Nat) (side : List (Nat × Nat)) (codes : List Nat) (i : Nat) : Nat × Nat :=
  if scale = 0xFF then (nan32, flNan) else
  let v := (side.filter fun p => p.1 == i).foldl (fun a p => a.add (e4m3.decode p.2)) (elemVal fmt (nth codes i 0))
  toF32 .rne (v.scale ((scale : Int) - 127))

/-- A row of DEQUANT_MX. -/
def dequantRow : RowFn := fun s _ x rank row =>
  let fmt := egFmtA x
  let aux := egAux x
  let k := s.sideCount (egLayer x) fmt
  let n := 4 * fmtBits fmt
  let pos := row % aux
  let at_ := slabAt (egLineA x) (egStrideB x) (egStrideA x) aux row
  let slabs := egLen x / 32
  let reads := (List.range slabs).flatMap fun j =>
    [(rank, at_ j + pos * n, n), (rank, at_ j + aux * n + pos, 1), (rank, at_ j + aux * n + aux + pos * 2 * k, 2 * k)]
  let l := (List.range slabs).flatMap fun j =>
    let codes := unpack (fmtBits fmt) 32 (s.infNat rank (at_ j + pos * n) n)
    let side := (numbers 2 k (s.infRead rank (at_ j + aux * n + aux + pos * 2 * k) (2 * k))).filterMap fun e =>
      if bit e 15 then some (bits e 12 8, bits e 7 0) else none
    (List.range 32).map (dequantElem fmt (s.infNat rank (at_ j + aux * n + pos) 1) side codes)
  EngRow.plain reads [(egAtOut x row, wordBytes (l.map Prod.fst))] (flagsOf l)

/-- DEQUANT_MX. -/
def execDequantMx (cx : Fin 16) (s : State) : Out := .next (s.engineRun cx 0x209 dequantRow)

/-! ### Reductions (R155, R156, R519) -/

/-- A row of TREE_SUM. -/
def treeRow : RowFn := fun s seed x rank row =>
  let n := egLen x
  let at_ := fun (p : Nat) => egAtA x row + p * egStrideB x
  let parts := (List.range (egAux x)).map fun p => s.words rank (at_ p) n
  let sr := egBit17 x && decide (65536 < egParA x)
  let w := outRow x row ((List.range (egAux x)).map fun p => (rank, at_ p, 4 * n)) n fun e =>
    let z := treeSum (fun node => egRound sr seed x row e node) 11 (parts.map fun l => nth l e 0) 1
    let y := egConv seed x row e (ofF32 z.1)
    (y.1, z.2 ||| y.2)
  { w with flags := w.flags ||| (if 4194304 < egParA x then flLongK else 0) }

/-- TREE_SUM. -/
def execTreeSum (cx : Fin 16) (s : State) : Out := .next (s.engineRun cx 0x20A treeRow)

/-- A result of a row that has no elements, which the manual does not state: a free value. -/
def emptyRow (s : State) (x : Line) (row n : Nat) : EngRow :=
  { EngRow.plain [] [(egAtOut x row, freeBytes s.draws n)] 0 with drawn := n }

/-- A row of ROW_SUM. -/
def sumRow : RowFn := fun s seed x rank row =>
  if egLen x = 0 then emptyRow s x row (fmtBytes (egFmtOut x)) else
  let a := s.rowA x rank row
  outRow x row [readA x rank row] 1 fun _ =>
    let z := if egBit17 x then toF32 .rne (treeMerge Num.zero addX 64 a)
      else treeSum (fun _ => .rne) 64 (a.map code32) 1
    let y := egConv seed x row 0 (ofF32 z.1)
    (y.1, z.2 ||| y.2)

/-- ROW_SUM. -/
def execRowSum (cx : Fin 16) (s : State) : Out := .next (s.engineRun cx 0x20B sumRow)

/-- The order of R156: NaN above every number and equal to NaN, -0 equal to +0. -/
def maxLt (a b : Num) : Bool := if a.isNan then false else if b.isNan then true else a.lt b

/-- Lowest position of the maximum of a row. -/
def maxPos (l : List Num) : Nat :=
  l.zipIdx.foldl (fun best p => if maxLt (numAt l best) p.1 then p.2 else best) 0

/-- A row of ROW_MAX: the maximum's value from its lowest position; a NaN raises no flag. -/
def maxRow : RowFn := fun s seed x rank row =>
  if egLen x = 0 then emptyRow s x row (fmtBytes (egFmtOut x)) else
  let a := s.rowA x rank row
  let v := numAt a (maxPos a)
  outRow x row [readA x rank row] 1 fun _ =>
    let y := egConv seed x row 0 v
    (y.1, if v.isNan then 0 else y.2)

/-- ROW_MAX. -/
def execRowMax (cx : Fin 16) (s : State) : Out := .next (s.engineRun cx 0x20C maxRow)

/-- A row of ARGMAX. -/
def argmaxRow : RowFn := fun s _ x rank row =>
  if egLen x = 0 then emptyRow s x row 4 else
  EngRow.plain [readA x rank row] [(egAtOut x row, toBytes 4 (maxPos (s.rowA x rank row)))] 0

/-- ARGMAX. -/
def execArgmax (cx : Fin 16) (s : State) : Out := .next (s.engineRun cx 0x20D argmaxRow)

/-! ### Softmax states (R206, R207) -/

/-- A softmax state in FP32X: m, l and o. -/
structure Soft where
  m : Num
  l : Num
  o : List Num
  /-- Flags raised on the way to it by results that left FP32X for FP32 (R81, R82). -/
  fl : Nat
  deriving DecidableEq, Repr

/-- The routine value of an FP32X difference rounded to FP32, and the flags. -/
def expDiff (alv : Nat) (a b : Num) : Num × Nat :=
  let d := toF32 .rne (subX a b)
  let e := libRoutine alv 0x100 d.1
  (ofF32 e.1, d.2 ||| e.2)

/-- merge_node of R206. -/
def Soft.merge (alv : Nat) (a b : Soft) : Soft :=
  let fl := a.fl ||| b.fl
  if a.m.isNan || b.m.isNan then ⟨.nan, .nan, a.o.map fun _ => Num.nan, fl⟩
  else if a.m == .inf true && b.m == .inf true then { a with fl := fl }
  else
    let m := if a.m.lt b.m then b.m else a.m
    let weight := fun (v : Num) => if v.eqv m then (Num.fin false 1 0, 0) else expDiff alv v m
    let (ca, fa) := weight a.m
    let (cb, fb) := weight b.m
    ⟨m, addX (mulX a.l ca) (mulX b.l cb), List.zipWith (fun p q => addX (mulX p ca) (mulX q cb)) a.o b.o, fl ||| fa ||| fb⟩

/-- finish of R206: the output codes with their flags, and the log-sum-exp. -/
def Soft.finish (alv : Nat) (s : Soft) (conv : Nat → Num → Nat × Nat) : List (Nat × Nat) × (Nat × Nat) :=
  if s.m.isNan then (s.o.zipIdx.map fun p => conv p.2 .nan, (nan32, flNan))
  else if s.l.isZero then (s.o.zipIdx.map fun p => ((conv p.2 Num.zero).1, 0), (0xFF800000, 0))
  else
    (s.o.zipIdx.map fun p =>
      let z := toF32 .rne (divX p.1 s.l)
      let y := conv p.2 (ofF32 z.1)
      (y.1, z.2 ||| y.2),
     let l := toF32 .rne s.l
     let w := libRoutine alv 0x102 l.1
     let z := toF32 .rne (addX s.m (ofF32 w.1))
     (z.1, l.2 ||| w.2 ||| z.2))

/-- A state read as FP32 words m, l and o. -/
def Soft.ofWords (l : List Nat) : Soft := ⟨ofF32 (nth l 0 0), ofF32 (nth l 1 0), (l.drop 2).map ofF32, 0⟩

/-- A state rounded to FP32: its words and flags. -/
def Soft.round (s : Soft) : List (Nat × Nat) := (s.m :: s.l :: s.o).map (toF32 .rne)

/-- The rounded state, with the flags of its rounding. -/
def Soft.rounded (s : Soft) : Soft := { Soft.ofWords (s.round.map Prod.fst) with fl := s.fl ||| flagsOf s.round }

/-- A row of SOFTMAX_MERGE. -/
def softmaxRow : RowFn := fun s seed x rank row =>
  let n := egLen x
  let at_ := fun (k : Nat) => egAtA x row + k * (8 + 4 * n)
  let states := (List.range (egAux x)).map fun k => Soft.ofWords (s.words rank (at_ k) (n + 2))
  let root := treeMerge ⟨.inf true, Num.zero, [], 0⟩ (Soft.merge s.alv) 9 states
  let reads := [(rank, at_ 0, egAux x * (8 + 4 * n))]
  if flag x 18 then
    let l := root.round
    EngRow.plain reads [(egAtOut x row, wordBytes (l.map Prod.fst))] (root.fl ||| flagsOf l)
  else
    let (out, lse) := root.finish s.alv (fun e v => egConv seed x row e v)
    EngRow.plain reads
      [(egAtOut x row, codeBytes (egFmtOut x) (out.map Prod.fst)), (egAtC x row, toBytes 4 lse.1)]
      (root.fl ||| flagsOf out ||| lse.2)

/-- SOFTMAX_MERGE. -/
def execSoftmaxMerge (cx : Fin 16) (s : State) : Out := .next (s.engineRun cx 0x20E softmaxRow)

/-! ### NORM_APPLY (R170) -/

/-- A row of NORM_APPLY: FMA(RNE(RNE(x - mean) · rstd), gamma, beta). -/
def normRow : RowFn := fun s seed x rank row =>
  let n := egLen x
  let a := s.rowA x rank row
  let mean := s.infNat rank (egAtB x row) 4
  let rstd := s.infNat rank (egAtC x row) 4
  let gamma := s.words rank (egParA x * 128) n
  let beta := s.words rank (egParB x * 128) n
  outRow x row [readA x rank row, (rank, egAtB x row, 4), (rank, egAtC x row, 4), (rank, egParA x * 128, 4 * n),
    (rank, egParB x * 128, 4 * n)] n fun e =>
    let d := f32Sub (code32 (numAt a e)) mean
    let t := f32Mul d.1 rstd
    let z := f32Fma t.1 (nth gamma e 0) (nth beta e 0)
    let y := egConv seed x row e (ofF32 z.1)
    (y.1, d.2 ||| t.2 ||| z.2 ||| y.2)

/-- NORM_APPLY. -/
def execNormApply (cx : Fin 16) (s : State) : Out := .next (s.engineRun cx 0x20F normRow)

end Sys2Proof.Machine
end

