-- ==== Sys2Proof/Machine/Gather.lean ====
section
/-!
DEFINITION. The gather-scatter engine (R171 to R178, R196 to R198) and the engine registers written by the owner (R179).
-/

namespace Sys2Proof.Machine

open Sys2Proof

/-- The pad index. -/
def padIndex : Nat := 0xFFFFFFFF

/-- An INT32 word as an integer. -/
def int32 (w : Nat) : Int := if w < 2147483648 then (w : Int) else (w : Int) - 4294967296

/-- Whether an index word names a table item. -/
def inTable (cap w : Nat) : Bool := decide (0 ≤ int32 w) && decide (int32 w < (cap : Int))

/-! ### GATHER and SCATTER (R172) -/

/-- The rank and address of a GATHER's table item. -/
def gatherFrom (x : Line) (rank idx : Nat) : Nat × Nat :=
  if bit (egParB x) 31 then (bits (egParB x) 26 20, bits (egParB x) 19 0 * 128 + idx * egStrideA x)
  else (rank, egLineA x * 128 + idx * egStrideA x)

/-- A row of GATHER. -/
def gatherRow : RowFn := fun s _ x rank row =>
  let n := egLen x
  let size := 4 * egAux x
  let idx := s.words rank (egAtB x row) n
  let hits := idx.filter (inTable (egCap x))
  let writes := idx.zipIdx.map fun p =>
    (egLineOut x * 128 + (row * n + p.2) * egStrideOut x,
      if inTable (egCap x) p.1 then
        let f := gatherFrom x rank p.1
        s.infRead f.1 f.2 size
      else (List.replicate (egAux x) (egParA x)).flatMap (toBytes 4))
  { EngRow.plain ((rank, egAtB x row, 4 * n) :: hits.map fun i => ((gatherFrom x rank i).1, (gatherFrom x rank i).2, size))
      writes 0 with
    subst := (idx.filter fun i => i != padIndex && !inTable (egCap x) i).length }

/-- GATHER. -/
def execGather (cx : Fin 16) (s : State) : Out := .next (s.engineRun cx 0x280 gatherRow)

/-- A row of SCATTER: the table item takes the input of its highest list item, by the order of the writes. -/
def scatterRow : RowFn := fun s _ x rank row =>
  let n := egLen x
  let size := 4 * egAux x
  let idx := s.words rank (egAtB x row) n
  let from_ := fun (i : Nat) => egLineA x * 128 + (row * n + i) * egStrideA x
  let hits := idx.zipIdx.filter fun p => inTable (egCap x) p.1
  { EngRow.plain ((rank, egAtB x row, 4 * n) :: hits.map fun p => (rank, from_ p.2, size))
      (hits.map fun p => (egLineOut x * 128 + p.1 * egStrideOut x, s.infRead rank (from_ p.2) size)) 0 with
    skip := (idx.filter fun i => i != padIndex && !inTable (egCap x) i).length }

/-- SCATTER. -/
def execScatter (cx : Fin 16) (s : State) : Out := .next (s.engineRun cx 0x281 scatterRow)

/-! ### SORT and TOPK (R173, R174) -/

/-- Whether key `a` comes strictly before key `b` in ascending order. -/
def keyLt (ty a b : Nat) : Bool :=
  if ty = 0 then decide (a < b)
  else if ty = 1 then decide (int32 a < int32 b)
  else maxLt (ofF32 a) (ofF32 b)

/-- Two runs merged, the first before the second where keys are equal. `fuel` bounds the two lengths. -/
def mergeRuns {α : Type} (lt : α → α → Bool) : Nat → List α → List α → List α
  | 0, a, b => a ++ b
  | _ + 1, [], b => b
  | _ + 1, a, [] => a
  | n + 1, x :: a, y :: b => if lt y x then y :: mergeRuns lt n (x :: a) b else x :: mergeRuns lt n a (y :: b)

/-- A stable merge sort. `fuel` bounds the depth. -/
def stableSort {α : Type} (lt : α → α → Bool) : Nat → List α → List α
  | 0, l => l
  | n + 1, l =>
    if l.length ≤ 1 then l else
    let h := l.length / 2
    mergeRuns lt l.length (stableSort lt n (l.take h)) (stableSort lt n (l.drop h))

/-- A row of SORT: pairs of key and value. -/
def sortRow : RowFn := fun s _ x rank row =>
  let n := egLen x
  let pairs := (s.words rank (egAtA x row) n).zip (s.words rank (egAtB x row) n)
  let lt := fun (p q : Nat × Nat) => if flag x 20 then keyLt (egTwo x) q.1 p.1 else keyLt (egTwo x) p.1 q.1
  let l := stableSort lt 23 pairs
  EngRow.plain [(rank, egAtA x row, 4 * n), (rank, egAtB x row, 4 * n)]
    [(egAtOut x row, wordBytes (l.map Prod.fst)), (egAtC x row, wordBytes (l.map Prod.snd))] 0

/-- SORT. -/
def execSort (cx : Fin 16) (s : State) : Out := .next (s.engineRun cx 0x282 sortRow)

/-- A row of TOPK. -/
def topkRow : RowFn := fun s seed x rank row =>
  let a := s.rowA x rank row
  let l := (stableSort (fun (p q : Num × Nat) => maxLt q.1 p.1) 21 a.zipIdx).take (egAux x)
  let outs := l.zipIdx.map fun p => egConv seed x row p.2 p.1.1
  EngRow.plain [readA x rank row]
    [(egAtOut x row, codeBytes (egFmtOut x) (outs.map Prod.fst)), (egAtC x row, wordBytes (l.map Prod.snd))] (flagsOf outs)

/-- TOPK. -/
def execTopk (cx : Fin 16) (s : State) : Out := .next (s.engineRun cx 0x283 topkRow)

/-! ### SEGMENT_REDUCE (R175) -/

/-- The runs of equal keys, each with its values in list order. -/
def runsOf : List (Nat × Nat) → List (Nat × List Nat)
  | [] => []
  | (k, v) :: r =>
    match runsOf r with
    | (j, vs) :: t => if j = k then (k, v :: vs) :: t else (k, [v]) :: (j, vs) :: t
    | [] => [(k, [v])]

/-- The reduction of run j of a row: its code and flags. -/
def reduceRun (seed : Nat) (x : Line) (row j : Nat) (vs : List Nat) : Nat × Nat :=
  if egTwo x = 3 then (vs.length, 0) else
  let z : Nat × Nat :=
    if egTwo x = 0 then treeSum (fun node => egRound (egSr x) seed x row j node) 25 vs 1
    else (vs.drop 1).foldl (fun a v =>
      let y := if egTwo x = 1 then max32 a.1 v else min32 a.1 v
      (y.1, a.2 ||| y.2)) (vs.headD 0, 0)
  let y := egConv seed x row j (ofF32 z.1)
  (y.1, z.2 ||| y.2)

/-- A row of SEGMENT_REDUCE. -/
def segmentRow : RowFn := fun s seed x rank row =>
  let n := egLen x
  let runs := runsOf (((s.words rank (egAtA x row) n).zip (s.words rank (egAtB x row) n)).filter fun p => p.1 != padIndex)
  let kept := runs.take (egCap x)
  let outs := kept.zipIdx.map fun p => reduceRun seed x row p.2 p.1.2
  { EngRow.plain [(rank, egAtA x row, 4 * n), (rank, egAtB x row, 4 * n)]
      [(egAtOut x row, codeBytes (egFmtOut x) (outs.map Prod.fst)), (egAtC x row, wordBytes (kept.map Prod.fst)),
        (egAtOut x row - 128, toBytes 4 kept.length)] (flagsOf outs) with
    drop := sumNat ((runs.drop (egCap x)).map fun r => r.2.length) }

/-- SEGMENT_REDUCE. -/
def execSegmentReduce (cx : Fin 16) (s : State) : Out := .next (s.engineRun cx 0x284 segmentRow)

/-! ### SET_PAD (R176) -/

/-- The entries of one group, in list order. -/
def groupOf (l : List (Nat × Nat)) (g : Nat) : List Nat := (l.filter fun p => p.1 == g).map Prod.snd

/-- A row of SET_PAD. -/
def setPadRow : RowFn := fun s _ x rank row =>
  let n := egLen x
  let cap := egCap x
  let l := ((s.words rank (egAtA x row) n).zip (s.words rank (egAtB x row) n)).filter fun p => p.1 != padIndex
  let groups := (List.range (egAux x)).map (groupOf l)
  let slots := groups.flatMap fun v => (v ++ List.replicate (cap - v.length) padIndex).take cap
  let lost := groups.map fun v => v.length - cap
  let outside := (l.filter fun p => !inTable (egAux x) p.1).length
  { EngRow.plain [(rank, egAtA x row, 4 * n), (rank, egAtB x row, 4 * n)]
      ((egAtOut x row, wordBytes slots) :: (if egBit17 x then [(egAtC x row, wordBytes lost)] else [])) 0 with
    drop := sumNat lost + outside }

/-- SET_PAD. -/
def execSetPad (cx : Fin 16) (s : State) : Out := .next (s.engineRun cx 0x285 setPadRow)

/-! ### ADJ_EXPAND (R196, R197) -/

/-- Entries of an adjacency row that are kept, in order, and how many are dropped; `before` is bits [18:0] of the entry
before. -/
def adjKept (bad : Bool) : Option Nat → List Nat → List Nat × Nat
  | _, [] => ([], 0)
  | before, w :: r =>
    if w = padIndex then adjKept bad before r else
    let low := bits w 18 0
    let (k, d) := adjKept bad (some low) r
    if bad || bits w 31 19 != 0 || (match before with | some b => decide (low ≤ b) | none => false) then (k, d + 1)
    else (low :: k, d)

/-- The spans of kept entries: each a sequence and its pages. -/
def spansOf (pages : Nat) (l : List Nat) : List (Nat × List Nat) :=
  (runsOf (l.map fun w => (65536 * bits w 18 16 + bits w 15 0 / pages, w))).map fun r =>
    (r.1 / 65536, r.2.map fun w => bits w 15 0)

/-- One span of a span row as a number (R197). -/
def spanWord (p : Nat × List Nat) : Nat :=
  p.2.length + p.1 * 16 +
    packCodes 16 (p.2 ++ List.replicate (8 - p.2.length) 0xFFFF) * 2 ^ 128

/-- A row of ADJ_EXPAND. -/
def adjRow : RowFn := fun s _ x rank row =>
  let n := egLen x
  let l := s.words rank (egAtA x row) n
  let w0 := nth l 0 0
  let (kept, dropped) := adjKept (bits w0 31 12 != 0) none (l.drop 2)
  let spans := spansOf (egAux x) kept
  let out := spans.take (egCap x)
  let head := out.length + 2 ^ 32 * nth l 1 0 + 2 ^ 64 * bits w0 8 0 + 2 ^ 73 * bits w0 11 9
  { EngRow.plain [(rank, egAtA x row, 4 * n)]
      [(egAtOut x row, toBytes 32 head ++ out.flatMap fun p => toBytes 32 (spanWord p))] 0 with
    drop := dropped + sumNat ((spans.drop (egCap x)).map fun p => p.2.length) }

/-- ADJ_EXPAND. -/
def execAdjExpand (cx : Fin 16) (s : State) : Out := .next (s.engineRun cx 0x286 adjRow)

/-! ### EG_FIRST and EG_CLEAR (R179) -/

/-- EG_FIRST: a write of 0xFFFF to [15:0] sets it to 0xFFFF; any other value leaves it. -/
def execEgFirstWrite (w : Writer) (site : Fin 81) (v : Word) (s : State) : Out :=
  .next (s.guarded w (siteBase site + 0x60C) v.toNat fun t =>
    if fld v 15 0 = 0xFFFF then t.setReg (siteBase site + 0x60C) 0xFFFF else t)

/-- EG_CLEAR: a write of 1 clears EG_DROP, EG_SUBST and EG_SKIP. -/
def execEgClear (w : Writer) (site : Fin 81) (v : Word) (s : State) : Out :=
  .next (s.guarded w (siteBase site + 0x610) v.toNat fun t =>
    if flag v 0 then ((t.setReg (siteBase site + 0x600) 0).setReg (siteBase site + 0x604) 0).setReg (siteBase site + 0x608) 0
    else t)

end Sys2Proof.Machine
end

