-- ==== Sys2Proof/Machine/Slots.lean ====
section
/-!
DEFINITION. The two firmware slots: an image's header fields, its manifest (R476, R477), and the media library version of
the active one (Table 15.9).
-/

namespace Sys2Proof.Machine

open Sys2Proof

/-! ### Slots -/

/-- A firmware slot; slot A holds at reset the image the module booted. -/
def State.fwSlot (s : State) (n : Nat) : FwSlot := tget s.fw.slots n (FwSlot.reset n)

def State.setFwSlot (s : State) (n : Nat) (v : FwSlot) : State :=
  { s with fw := { s.fw with slots := tput s.fw.slots n v (FwSlot.reset n) } }

/-- An empty slot. -/
def FwSlot.empty : FwSlot := ⟨[], [], false, false⟩

/-- Bytes of a slot, by image byte offset. -/
def FwSlot.read (f : FwSlot) (off n : Nat) : List Byte := (List.range n).map fun i => tget f.bytes (off + i) 0

/-- One piece of 64 KiB. -/
def FwSlot.piece (f : FwSlot) (i : Nat) : List Byte := f.read (65536 * i) 65536

/-- Header bytes 0 to 255 of a slot as a number (Table 18.4). -/
def FwSlot.header (f : FwSlot) : Nat := ofBytes (f.read 0 256)

/-! ### The header (Table 18.4) -/

def hdVersion (h : Nat) : Nat := bits h 159 128
def hdSecurity (h : Nat) : Nat := bits h 167 160
def hdKind (h : Nat) : Nat := bits h 175 168
def hdContent (h : Nat) : Nat := bits h 351 320
def hdTables (h : Nat) : Nat := bits h 359 352
def hdManifestHash (h : Nat) : Nat := bits h 767 512
def hdManifestBytes (h : Nat) : Nat := bits h 799 768
def hdTableHash (h i : Nat) : Nat := bits h (1279 + 256 * i) (1024 + 256 * i)

/-- Pieces of the image: header, block table and content. -/
def hdPieces (h : Nat) : Nat := 1 + hdTables h + hdContent h

/-! ### The manifest (R477) -/

/-- Component count, ALVs, state_format and media library version of a manifest head. -/
def mfCount (m : Nat) : Nat := bits m 15 0
def mfMediaLib (m : Nat) : Nat := bits m 31 16
def mfAlv (m i : Nat) : Nat := bits m (47 + 16 * i) (32 + 16 * i)
def mfFormat (m : Nat) : Nat := bits m 111 96

/-- Component entry i of a manifest: hash, first content piece, length, ID, live bit. -/
def mfEntry (m i : Nat) : Nat := bits m (512 * (i + 1) + 511) (512 * (i + 1))
def ceHash (e : Nat) : Nat := bits e 255 0
def ceFirst (e : Nat) : Nat := bits e 287 256
def ceLength (e : Nat) : Nat := bits e 319 288
def ceId (e : Nat) : Nat := bits e 335 320
def ceLive (e : Nat) : Bool := bit e 352

def mfEntries (m : Nat) : List Nat := (List.range (mfCount m)).map (mfEntry m)

/-- The manifest of a slot, as a number. -/
def FwSlot.manifest (f : FwSlot) : Nat := ofBytes (f.read 4096 (hdManifestBytes f.header))

/-- Media library version of the active firmware; version 1 for the firmware the module resets with (Table 15.9). -/
def State.mediaLib (s : State) : Nat :=
  let f := s.fwSlot s.fw.active
  if f.factory then 1 else mfMediaLib f.manifest

end Sys2Proof.Machine
end

