-- ==== Sys2Proof/Machine/MediaRec.lean ====
section
/-!
DEFINITION. The records that media commands carry: streams, surfaces and frames (Tables 15.3, 15.5 and 15.6), and the
memory that a media command touches.
-/

namespace Sys2Proof.Machine

open Sys2Proof

/-! ### The stream record (Table 15.5) -/

def srSlot (x : Line) : Nat := fld x 5 0
def srTenBit (x : Line) : Bool := flag x 17
def srCodec (x : Line) : Nat := fld x 19 18
def srDecode (x : Line) : Bool := flag x 20
def srLive (x : Line) : Bool := flag x 21
def srPort (x : Line) : Nat := fld x 23 22
def srRc (x : Line) : Nat := fld x 25 24
def srHints (x : Line) : Nat := fld x 29 26
def srInitFill (x : Line) : Nat := fld x 263 256
def srQpMax (x : Line) : Nat := fld x 271 264
def srQpMin (x : Line) : Nat := fld x 279 272
def srQpInit (x : Line) : Nat := fld x 287 280
def srKeyInterval (x : Line) : Nat := fld x 303 288
def srFpsDen (x : Line) : Nat := fld x 319 304
def srFpsNum (x : Line) : Nat := fld x 335 320
def srHeight (x : Line) : Nat := fld x 351 336
def srWidth (x : Line) : Nat := fld x 367 352
def srBucket (x : Line) : Nat := 1000 * fld x 399 368
def srRate (x : Line) : Nat := 1000 * fld x 431 400
def srPoolBytes (x : Line) : Nat := fld x 463 432
def srPoolVa (x : Line) : Nat := fld x 511 464

/-- Units per row, rows of units, and units of a picture (R394). -/
def srRowUnits (x : Line) : Nat := cdiv (srWidth x) 64
def srRows (x : Line) : Nat := cdiv (srHeight x) 64
def srUnits (x : Line) : Nat := srRowUnits x * srRows x

/-! ### Surfaces (R396) -/

/-- A surface record's fields (Table 15.3). -/
def sfLayout (v : Nat) : Nat := bits v 163 160
def sfHeight (v : Nat) : Nat := bits v 159 144
def sfWidth (v : Nat) : Nat := bits v 143 128
def sfPitch (v : Nat) : Nat := bits v 127 96
def sfChroma (v : Nat) : Nat := bits v 95 48
def sfLuma (v : Nat) : Nat := bits v 47 0

/-- Bytes per sample, and the rows of a surface as address ranges: luma, then interleaved Cb and Cr. -/
def sfBytes (v : Nat) : Nat := if sfLayout v = 0 then 1 else 2
def sfRows (v : Nat) : List (Nat × Nat) :=
  let n := sfWidth v * sfBytes v
  let c := if sfLayout v = 2 then sfHeight v else sfHeight v / 2
  (List.range (sfHeight v)).map (fun i => (sfLuma v + i * sfPitch v, n)) ++
    (List.range c).map fun i => (sfChroma v + i * sfPitch v, n)

/-! ### The frame record (Table 15.6) -/

def frBitsVa (x : Line) : Nat := fld x 511 464
def frBitsBytes (x : Line) : Nat := fld x 463 432
def frHintVa (x : Line) : Nat := fld x 431 384
def frHintStride (x : Line) : Nat := fld x 383 352
def frStream (x : Line) : Nat := fld x 263 258
def frForceKey (x : Line) : Bool := flag x 257
def frEndGop (x : Line) : Bool := flag x 256
def frSurface (x : Line) : Nat := fld x 255 0

/-- The rows of the hint plane a frame reads (R406). -/
def hintRows (m x : Line) : List (Nat × Nat) :=
  if srHints m = 0 then [] else
  (List.range (cdiv (srHeight m) 16)).map fun i => (frHintVa x + i * frHintStride x, cdiv (srWidth m) 16 * srHints m * 8)

/-- The memory that a media command of a kind touches, with its stream's record: pool, buffer, surface and hint plane
(R188, R399, R400). -/
def mediaRanges (kind : Nat) (stream x : Line) : List (Nat × Nat) :=
  let pool := fun r : Line => (srPoolVa r, srPoolBytes r)
  if kind = 0x30 then [pool x]
  else if kind = 0x32 then
    [pool stream, (frBitsVa x, frBitsBytes x)] ++ sfRows (frSurface x) ++ hintRows stream x
  else if kind = 0x33 then [pool stream, (frBitsVa x, frBitsBytes x)] ++ sfRows (frSurface x)
  else if kind = 0x36 then sfRows (fld x 255 0)
  else if kind = 0x37 then (if srPoolBytes stream = 0 then [] else [pool stream]) ++ sfRows (fld x 255 0)
  else []

end Sys2Proof.Machine
end

