-- ==== Sys2Proof/Machine/Motion.lean ====
section
/-!
DEFINITION. An encoder's motion search over the 16×16 blocks of an inter frame: the hint plane, the candidate list, and the
whole, half and quarter sample search (R406 to R408).
-/

namespace Sys2Proof.Machine

open Sys2Proof

/-! ### Hints (R406) -/

/-- A hint entry is valid; one that is and holds a reserved value is passed over and counted. -/
def hintValid (w : Nat) : Bool := bit w 34
def hintBad (w : Nat) : Bool := bit w 34 && (bits w 33 32 == 3 || bits w 63 35 != 0)

/-- The 8-byte entries of hint bytes. -/
def hintWords (l : List Byte) : List Nat := numbers 8 (l.length / 8) l

/-- Hint entries passed over for a reserved value. -/
def hintsBad (l : List Byte) : Nat := ((hintWords l).filter hintBad).length

/-- A signed 16-bit number. -/
def signed16 (n : Nat) : Int := if n < 32768 then n else (n : Int) - 65536

/-- The vector of a hint entry. -/
def hintMv (w : Nat) : Mv := (signed16 (bits w 15 0), signed16 (bits w 31 16), bits w 33 32)

/-- The vectors that a block's hint entries give, in plane order. -/
def hintMvs (entries : List Nat) : List Mv := (entries.filter fun w => hintValid w && !hintBad w).map hintMv

/-! ### Pictures and costs -/

/-- A stream's pictures for the search: codec, size, the luma samples of the frame and of its references. -/
structure Search where
  lib : Nat
  codec : Nat
  width : Nat
  height : Nat
  source : List Nat
  refs : List (List Nat)

/-- A coordinate taken to the nearest sample of a row or a column of `n`. -/
def edgeTo (n : Nat) (x : Int) : Nat := (max 0 (min x ((n : Int) - 1))).toNat

/-- A luma sample of a picture, which its edge samples extend. -/
def Search.whole (c : Search) (l : List Nat) (x y : Int) : Nat := nth l (edgeTo c.height y * c.width + edgeTo c.width x) 0

/-- A luma sample of a picture at a place in quarter samples. -/
def Search.quarter (c : Search) (l : List Nat) (x y : Int) : Nat :=
  let around := fun (j i : Nat) => c.whole l (x.fdiv 4 + i - 3) (y.fdiv 4 + j - 3)
  if x.fmod 4 = 0 ∧ y.fmod 4 = 0 then c.whole l (x.fdiv 4) (y.fdiv 4)
  else Config.subSample c.codec ((List.range 8).flatMap fun j => (List.range 8).map (around j)) (x.fmod 4).toNat (y.fmod 4).toNat

/-- The difference between a block of the frame and its reference under a vector, at row j and column i; 0 outside the
picture. -/
def Search.diff (c : Search) (bx by_ : Nat) (v : Mv) (j i : Nat) : Int :=
  let x := 16 * bx + i
  let y := 16 * by_ + j
  if c.width ≤ x ∨ c.height ≤ y then 0
  else (nth c.source (y * c.width + x) 0 : Int) - c.quarter (nth c.refs v.2.2 []) (4 * x + v.1) (4 * y + v.2.1)

/-- The 256 places of a block. -/
def blockPlaces : List (Nat × Nat) := (List.range 16).flatMap fun j => (List.range 16).map fun i => (j, i)

/-- The sum of a list of integers' absolute values. -/
def sumAbs (l : List Int) : Nat := (l.map Int.natAbs).foldl (· + ·) 0

/-- Luma SAD. -/
def Search.sad (c : Search) (bx by_ : Nat) (v : Mv) : Nat := sumAbs (blockPlaces.map fun p => c.diff bx by_ v p.1 p.2)

/-- The sign in a Hadamard matrix's row p and column i. -/
def hadamard (p i : Nat) : Int := if ((List.range 4).filter fun b => bit p b && bit i b).length % 2 = 0 then 1 else -1

/-- Luma SATD: the Hadamard transform of each square of side 2^n of the differences. -/
def Search.satd (c : Search) (bx by_ : Nat) (v : Mv) : Nat :=
  let n := 2 ^ (Config.satdLog c.lib % 5)
  let d := blockPlaces.map fun p => (p, c.diff bx by_ v p.1 p.2)
  sumAbs (blockPlaces.map fun p =>
    ((d.filter fun q => q.1.1 / n == p.1 / n && q.1.2 / n == p.2 / n).map fun q =>
      hadamard (p.1 % n) (q.1.1 % n) * hadamard (p.2 % n) (q.1.2 % n) * q.2).foldl (· + ·) 0)

/-! ### Candidates (R407) -/

/-- Quarter samples from `lo` to `hi`. -/
def clampInt (lo hi v : Int) : Int := max lo (min hi v)

/-- A vector clamped so that its block lies within its reference extended by 64 samples on each side. -/
def Search.clampMv (c : Search) (bx by_ : Nat) (v : Mv) : Mv :=
  let x : Int := 16 * bx
  let y : Int := 16 * by_
  (clampInt (4 * (-64 - x)) (4 * (c.width + 64 - 16 - x)) v.1, clampInt (4 * (-64 - y)) (4 * (c.height + 64 - 16 - y)) v.2.1, v.2.2)

/-- A vector rounded toward zero to whole samples. -/
def wholeMv (v : Mv) : Mv := (4 * v.1.tdiv 4, 4 * v.2.1.tdiv 4, v.2.2)

/-- Blocks in a row, and rows of blocks. -/
def Search.blocksWide (c : Search) : Nat := cdiv c.width 16
def Search.blocksHigh (c : Search) : Nat := cdiv c.height 16

/-- The vector that a table holds for a block at a place, if the place lies in the picture and has one. -/
def Search.vectorAt (c : Search) (t : Tab Mv) (x y : Int) : List Mv :=
  if x < 0 ∨ y < 0 ∨ (c.blocksWide : Int) ≤ x ∨ (c.blocksHigh : Int) ≤ y then []
  else (t.filter fun p => p.1 == y.toNat * c.blocksWide + x.toNat).map Prod.snd

/-- The candidates of a block in order: hints, neighbours coded in this frame, the co-located block of reference 0 with its
neighbours, the zero vector. One equal to an earlier one is dropped, and so is one whose reference the stream has not coded
yet. At most 16 remain. -/
def Search.candidates (c : Search) (hints : List Mv) (now before : Tab Mv) (bx by_ : Nat) : List Mv :=
  let x : Int := bx
  let y : Int := by_
  let l := hints ++ c.vectorAt now (x - 1) y ++ c.vectorAt now x (y - 1) ++ c.vectorAt now (x + 1) (y - 1) ++
    c.vectorAt now (x - 1) (y - 1) ++ c.vectorAt before x y ++ c.vectorAt before (x + 1) y ++
    c.vectorAt before x (y + 1) ++ [(0, 0, 0)]
  ((l.filter fun v => decide (v.2.2 < c.refs.length)).eraseDups).take 16

/-! ### The search (R408) -/

/-- Whether a list of numbers comes before another of its length. -/
def listBefore : List Int → List Int → Bool
  | a :: r, b :: q => decide (a < b) || (a == b && listBefore r q)
  | _, _ => false

/-- The element of a nonempty list with the least key, the earliest on a tie. -/
def leastBy (key : Mv → List Int) (first : Mv) (l : List Mv) : Mv :=
  l.foldl (fun b v => if listBefore (key v) (key b) then v else b) first

/-- The best candidate by SATD, clamped and in whole samples; ties go to the earlier. -/
def Search.best (c : Search) (bx by_ : Nat) (cands : List Mv) : Mv :=
  let l := cands.map fun v => wholeMv (c.clampMv bx by_ v)
  leastBy (fun v => [(c.satd bx by_ v : Int)]) (l.headD (0, 0, 0)) l

/-- Whole-sample places within ±32 of a centre, by SAD; a tie goes to the smaller |dx| + |dy|, then dy, then dx. -/
def Search.wholeSearch (c : Search) (bx by_ : Nat) (m : Mv) : Mv :=
  let d : List Int := (List.range 65).map fun (i : Nat) => (i : Int) - 32
  let key := fun (v : Mv) =>
    let dx := (v.1 - m.1).tdiv 4
    let dy := (v.2.1 - m.2.1).tdiv 4
    [(c.sad bx by_ v : Int), ((dx.natAbs + dy.natAbs : Nat) : Int), dy, dx]
  leastBy key m ((d.flatMap fun dy => d.map fun dx => ((m.1 + 4 * dx, m.2.1 + 4 * dy, m.2.2) : Mv)).filter fun v =>
    c.clampMv bx by_ v == v)

/-- The eight places a step of quarter samples around a vector, by SATD and the vector's bit cost; the centre stays on a
tie. -/
def Search.refine (c : Search) (bx by_ : Nat) (cands : List Mv) (step : Int) (m : Mv) : Mv :=
  let d : List Int := [-step, 0, step]
  let key := fun (v : Mv) => [((c.satd bx by_ v + Config.vectorBits c.lib c.codec cands v : Nat) : Int)]
  leastBy key m ((d.flatMap fun dy => d.map fun dx => ((m.1 + dx, m.2.1 + dy, m.2.2) : Mv)).filter fun v =>
    v != m && c.clampMv bx by_ v == v)

/-- The vector that the search finds for a block. -/
def Search.find (c : Search) (bx by_ : Nat) (cands : List Mv) : Mv :=
  c.refine bx by_ cands 1 (c.refine bx by_ cands 2 (c.wholeSearch bx by_ (c.best bx by_ cands)))

/-- The blocks of a frame in coding order: units in raster order, and within a unit the quarters of quarters. -/
def Search.order (c : Search) : List (Nat × Nat) :=
  ((List.range (cdiv c.height 64)).flatMap fun uy => (List.range (cdiv c.width 64)).flatMap fun ux =>
    (List.range 16).map fun z => (4 * ux + z % 2 + 2 * (z / 4 % 2), 4 * uy + z / 2 % 2 + 2 * (z / 8))).filter fun b =>
      decide (b.1 < c.blocksWide) && decide (b.2 < c.blocksHigh)

/-- The search over a whole inter frame: the vectors found, and the final ones that the mode decision leaves. `hints` are
the entries of the hint plane, `per` of them a block. -/
def Search.frame (c : Search) (history : Nat) (input hints : List Nat) (per : Nat) (before : Tab Mv) : Tab Mv × Tab Mv :=
  c.order.foldl (fun acc b =>
    let n := b.2 * c.blocksWide + b.1
    let cands := c.candidates (hintMvs ((hints.drop (n * per)).take per)) acc.2 before b.1 b.2
    let v := c.find b.1 b.2 cands
    (acc.1 ++ [(n, v)], match Config.modeVector c.lib history input n v with
      | some w => acc.2 ++ [(n, w)]
      | none => acc.2)) ([], [])

/-- A vector as numbers, so that it may stand in a frame's input. -/
def mvNumbers (v : Mv) : List Nat := [v.1.natAbs, b2n (decide (v.1 < 0)), v.2.1.natAbs, b2n (decide (v.2.1 < 0)), v.2.2]

end Sys2Proof.Machine
end

