-- ==== Sys2Proof/Machine/Tiers.lean ====
section
/-!
DEFINITION. Tier commands (R236 to R240, R247), the free of unmapped pages, the decay of the heat-cache counters and the
clear of the stack error counters (chapter 9).
-/

namespace Sys2Proof.Machine

open Sys2Proof

/-! ### The tier record (Table 9.3) -/

def tierA (x : Line) : Nat := fld x 511 464
def tierB (x : Line) : Nat := fld x 463 416
def tierVaRank (x : Line) : Nat := fld x 415 376
def tierRows (x : Line) : Nat := fld x 375 344
def tierBytes (x : Line) : Nat := fld x 343 312
def tierStride (x : Line) : Nat := fld x 311 280
def tierLineStride (x : Line) : Nat := fld x 279 248
def tierLine (x : Line) : Nat := fld x 247 228
def tierPages (x : Line) : Nat := fld x 227 196
def tierRank (x : Line) : Nat := fld x 195 189
def tierOne (x : Line) : Bool := flag x 188
def tierWriteOk (x : Line) : Bool := flag x 187
def tierPlacement (x : Line) : Nat := fld x 186 185
def tierOp (x : Line) : Nat := fld x 7 0

/-- The ranks that perform a part of the command. -/
def tierRanks (x : Line) : List Nat := if tierOne x then [tierRank x] else List.range 75

/-- The rows of every acting rank, as (rank, row). -/
def tierParts (x : Line) : List (Nat × Nat) :=
  (tierRanks x).flatMap fun r => (List.range (tierRows x)).map fun i => (r, i)

/-- Address of a rank's row counted from a base address (R237). -/
def tierVa (x : Line) (base : Nat) (p : Nat × Nat) : Nat := base + p.1 * tierVaRank x + p.2 * tierStride x

/-- Infield byte address of row `i` (R237). -/
def tierInf (x : Line) (i : Nat) : Nat := tierLine x * 128 + i * tierLineStride x

/-- The address ranges of the rows from a base. -/
def tierRanges (x : Line) (base : Nat) : List (Nat × Nat) := (tierParts x).map fun p => (tierVa x base p, tierBytes x)

/-- Whether two byte ranges meet. -/
def rangesMeet (a b : Nat × Nat) : Bool := decide (a.1 < b.1 + b.2) && decide (b.1 < a.1 + a.2)

/-- Whether a tier record breaks R236. -/
def State.tierBad (s : State) (x : Line) : Bool :=
  fld x 184 8 != 0 || tierOp x == 0 || decide (7 < tierOp x) || decide (1 < tierPlacement x) ||
    (tierOne x && decide (75 ≤ tierRank x)) || tierBytes x % 128 != 0 || tierLineStride x % 128 != 0 ||
    (tierOp x == 3 && (tierRanges x (tierA x)).any fun a => (tierRanges x (tierB x)).any fun b => rangesMeet a b) ||
    (tierOp x == 6 && !(decide (2 ^ 47 ≤ 2097152 * (tierA x / 2097152)) &&
      decide (tierA x / 2097152 + tierPages x ≤ 2 ^ 26 + s.pkWin)))

/-- Whether a record's infield lines break R249 for a context; a FILL writes them, a SPILL reads them. -/
def State.tierLinesBad (s : State) (cx : Nat) (x : Line) : Bool :=
  tierBytes x != 0 && (List.range (tierRows x)).any fun i => !s.bytesOk cx (tierOp x == 1) (tierInf x i) (tierBytes x)

/-- The sequences a tier command of a context pins: those its source or destination ranges touch (R188). -/
def tierPins (cx : Nat) (s : State) (c : Cmd) : List Nat :=
  let x := c.ext
  s.pinsOf cx (
    if tierOp x = 1 ∨ tierOp x = 2 ∨ tierOp x = 7 then tierRanges x (tierA x)
    else if tierOp x = 3 then tierRanges x (tierA x) ++ tierRanges x (tierB x)
    else [])

/-- A tier command with a given op, or with an op that Table 9.3 reserves, which every row of the family turns away. -/
def wantTier (op : Nat) (c : Cmd) : Bool :=
  wantKind 0x10 c && (tierOp c.ext == op || tierOp c.ext == 0 || decide (7 < tierOp c.ext))

/-- A tier command issues, or is tried again while its writes wait: a record that breaks R236 completes with 0x0301, a
FILL or SPILL whose lines break R249 with 0x0308, having moved nothing. -/
def State.tierRun (s : State) (cx ring op : Nat) (work : State → CmdId → Line → State) : State :=
  s.issueOrRun cx ring (wantTier op) (tierPins cx) fun t id c =>
    if t.tierBad c.ext then t.finish id 0x0301 0
    else if (op = 1 ∨ op = 2) ∧ t.tierLinesBad cx c.ext then t.finish id 0x0308 0
    else work t id c.ext

/-- Whether a run of lines lies in a weight stream window (R250). -/
def State.infKind1 (s : State) (cx line n : Nat) : Bool :=
  match s.allocFor cx true line n with
  | some a => bits a 75 74 == 1
  | none => false

/-! ### FILL, SPILL and COPY (R237) -/

/-- One row of a FILL. -/
def fillRow (id : CmdId) (x : Line) (acc : State × Nat) (p : Nat × Nat) : State × Nat :=
  if acc.2 ≠ 0 then acc else
  let s := acc.1
  let va := tierVa x (tierA x) p
  match s.cvaRead id va (tierBytes x) with
  | (0, l) =>
    let place := !s.infKind1 id.cx (tierInf x p.2 / 128) (tierBytes x / 128)
    ((s.noteRead id place va (tierBytes x)).infWriteMarked p.1 (tierInf x p.2) l, 0)
  | (st, _) => (s, st)

/-- FILL: rows from the working tier into each rank's infield. A failing read leaves its output extents undefined
(R239). -/
def fillWork (s : State) (id : CmdId) (x : Line) : State :=
  match (tierParts x).foldl (fillRow id x) (s, 0) with
  | (t, 0) => t.endWork id 0 0
  | (t, st) =>
    ((tierParts x).foldl (fun u p => u.infHavoc p.1 (tierInf x p.2) (tierBytes x)) t).finish id st 0

/-- FILL. -/
def execFill (cx : Fin 16) (ring : Fin 4) (s : State) : Out := .next (s.tierRun cx ring 1 fillWork)

/-- One row of a SPILL. -/
def spillRow (id : CmdId) (x : Line) (acc : State × Nat) (p : Nat × Nat) : State × Nat :=
  if acc.2 ≠ 0 then acc else
  acc.1.cvaWrite id p.1 (tierVa x (tierA x) p) (acc.1.infMarked p.1 (tierInf x p.2) (tierBytes x))

/-- SPILL: rows from each rank's infield into the working tier; it waits where a page it writes is freeing and due
(R190). -/
def spillWork (s : State) (id : CmdId) (x : Line) : State :=
  if (tierParts x).any fun p => s.writeWaits id (tierVa x (tierA x) p) (tierBytes x) then s else
  match (tierParts x).foldl (spillRow id x) (s, 0) with
  | (t, 0) => t.endWork id 0 0
  | (t, st) =>
    ((tierParts x).foldl (fun u p => u.cvaHavoc id (tierVa x (tierA x) p) (tierBytes x)) t).finish id st 0

/-- SPILL. -/
def execSpill (cx : Fin 16) (ring : Fin 4) (s : State) : Out := .next (s.tierRun cx ring 2 spillWork)

/-- One row of a COPY. -/
def copyRow (id : CmdId) (x : Line) (acc : State × Nat) (p : Nat × Nat) : State × Nat :=
  if acc.2 ≠ 0 then acc else
  let s := acc.1
  let va := tierVa x (tierA x) p
  match s.cvaRead id va (tierBytes x) with
  | (0, l) => (s.noteRead id (s.isLive id.cx) va (tierBytes x)).cvaWrite id p.1 (tierVa x (tierB x) p) l
  | (st, _) => (s, st)

/-- COPY: rows between two ranges of addresses. -/
def copyWork (s : State) (id : CmdId) (x : Line) : State :=
  if (tierParts x).any fun p => s.writeWaits id (tierVa x (tierB x) p) (tierBytes x) then s else
  match (tierParts x).foldl (copyRow id x) (s, 0) with
  | (t, 0) => t.endWork id 0 0
  | (t, st) =>
    ((tierParts x).foldl (fun u p => u.cvaHavoc id (tierVa x (tierB x) p) (tierBytes x)) t).finish id st 0

/-- COPY. -/
def execCopy (cx : Fin 16) (ring : Fin 4) (s : State) : Out := .next (s.tierRun cx ring 3 copyWork)

/-! ### MAP, UNMAP and WMAP (R238) -/

/-- Whether any page of a range lies in the package window. -/
def State.inPackageWindow (s : State) (va pages : Nat) : Bool :=
  pages != 0 && decide (va / 2097152 < 2 ^ 26 + s.pkWin) && decide (2 ^ 26 < va / 2097152 + pages)

/-- The address of page i of a record. -/
def tierPage (x : Line) (i : Nat) : Nat := 2097152 * (tierA x / 2097152 + i)

/-- One page of a MAP: its effect and its status (R238). -/
def mapPage (id : CmdId) (x : Line) (acc : State × Nat) (i : Nat) : State × Nat :=
  if acc.2 ≠ 0 then acc else
  let s := acc.1
  match s.space id.cx (tierPage x i) with
  | .table tab =>
    let k := entryKey tab (tierPage x i)
    if bit (s.entry k) 63 then (s, 0x0306)
    else if tierPlacement x = 0 then (s.setEntry k (entryWord (tierWriteOk x) false 0 0 0 0), 0)
    else
      let rank := (tierRank x + i) % 75
      if !s.quotaOk tab 32 then (s, 0x0305) else
      match s.takePage rank with
      | none => (s, 0x0305)
      | some (t, p) => ((t.charge tab 32).setEntry k (entryWord (tierWriteOk x) true 0 1 rank p), 0)
  | _ => (s, 0x0302)

/-- MAP. -/
def mapWork (s : State) (id : CmdId) (x : Line) : State :=
  if s.inPackageWindow (tierA x) (tierPages x) && !s.ownerCx id.cx then s.finish id 0x0309 0 else
  let (t, st) := (List.range (tierPages x)).foldl (mapPage id x) (s, 0)
  t.finish id st 0

/-- MAP: translation entries written, and with fixed placement the pages backed. -/
def execMap (cx : Fin 16) (ring : Fin 4) (s : State) : Out := .next (s.tierRun cx ring 4 mapWork)

/-- A page that is not mapped any more has no bytes. -/
def State.dropSpoils (s : State) (tab va : Nat) : State :=
  { s with tiers := { s.tiers with
      spoils := s.tiers.spoils.filter fun p => !(p.1 == tab && p.2.1 / 2097152 == va / 2097152) } }

/-- One page of an UNMAP: the entry is cleared, a backed page joins the pages to free. -/
def unmapPage (id : CmdId) (x : Line) (acc : State × Nat × List (Nat × Nat)) (i : Nat) : State × Nat × List (Nat × Nat) :=
  if acc.2.1 ≠ 0 then acc else
  let s := acc.1
  match s.space id.cx (tierPage x i) with
  | .table tab =>
    let k := entryKey tab (tierPage x i)
    let e := s.entry k
    if !bit e 63 then acc
    else ((s.setEntry k 0).dropSpoils tab (tierPage x i), 0,
      if bit e 61 && bits e 60 59 == 0 then acc.2.2 ++ [(tab, 65536 * bits e 56 50 + bits e 21 0)] else acc.2.2)
  | _ => (s, 0x0302, acc.2.2)

/-- The pages of one table among those an UNMAP frees, to be freed after the commands issued before it: of its context,
or of every context for the package window (R238). -/
def pendingFree (s : State) (id : CmdId) (pages : List (Nat × Nat)) (tab : Nat) : List PendingFree :=
  let l := (pages.filter fun p => p.1 == tab).map Prod.snd
  if l = [] then [] else
  [⟨id.cx, tab, l, ((if tab = 16 then s.outstanding else s.outstandingOf id.cx).filter fun c => c != id)⟩]

/-- UNMAP. -/
def unmapWork (s : State) (id : CmdId) (x : Line) : State :=
  if s.inPackageWindow (tierA x) (tierPages x) && !s.ownerCx id.cx then s.finish id 0x0309 0 else
  let (t, st, pages) := (List.range (tierPages x)).foldl (unmapPage id x) (s, 0, [])
  let frees := pendingFree s id pages id.cx ++ pendingFree s id pages 16
  { t with tiers := { t.tiers with frees := t.tiers.frees ++ frees } }.finish id st 0

/-- UNMAP: translation entries cleared. -/
def execUnmap (cx : Fin 16) (ring : Fin 4) (s : State) : Out := .next (s.tierRun cx ring 5 unmapWork)

/-- The pages of a free returned to the pool and credited (R238, R254). -/
def State.freeAll (s : State) (f : PendingFree) : State :=
  f.pages.foldl (fun t p => (t.freePage p).credit f.charge 32) s

/-- Whether a free may take effect: none of the commands it waits for is outstanding. -/
def State.freeReady (s : State) (f : PendingFree) : Bool := f.waits.all fun c => !s.outstanding.contains c

/-- UNMAP_FREE: the unmapped pages of a context whose earlier commands have all completed are freed. -/
def execUnmapFree (cx : Fin 16) (s : State) : Out :=
  let due := fun (f : PendingFree) => f.cx == cx.val && s.freeReady f
  let t : State := { s with tiers := { s.tiers with frees := s.tiers.frees.filter fun f => !due f } }
  .next ((s.tiers.frees.filter due).foldl State.freeAll t)

/-- One page of a WMAP. -/
def wmapPage (x : Line) (acc : State × Nat) (i : Nat) : State × Nat :=
  if acc.2 ≠ 0 then acc else
  let k := entryKey 16 (tierPage x i)
  if bit (acc.1.entry k) 63 then (acc.1, 0x0306)
  else (acc.1.setEntry k (entryWord false true 1 0 0 (tierB x / 2097152 + i)), 0)

/-- WMAP. -/
def wmapWork (s : State) (id : CmdId) (x : Line) : State :=
  if !s.ownerCx id.cx then s.finish id 0x0309 0
  else if 65 * s.weightGib * 512 < tierB x / 2097152 + tierPages x then s.finish id 0x0306 0
  else
    let (t, st) := (List.range (tierPages x)).foldl (wmapPage x) (s, 0)
    t.finish id st 0

/-- WMAP: weight pages mapped into the package window. -/
def execWmap (cx : Fin 16) (ring : Fin 4) (s : State) : Out := .next (s.tierRun cx ring 6 wmapWork)

/-! ### WLOAD and the parity of R246 -/

/-- A byte times g = 0x02 in GF(2^8) with the polynomial x^8 + x^4 + x^3 + x^2 + 1. -/
def gfDouble (b : Byte) : Byte := if b.msb then (b <<< 1) ^^^ 0x1D else b <<< 1

/-- P of thirteen data units at one offset: their exclusive or. -/
def parityP (d : List Byte) : Byte := d.foldl (· ^^^ ·) 0

/-- Q of thirteen data units at one offset: the sum of g^j · D_j. -/
def parityQ (d : List Byte) : Byte := d.foldr (fun b q => gfDouble q ^^^ b) 0

/-- The bytes of units 0 to 12 of a stripe at one offset. -/
def stripeColumn (l : Marked) (i : Nat) : Marked := (List.range 13).map fun j => nth l (4096 * j + i) (0, false)

/-- The units of a stripe: 13 data units, P and Q; a parity byte over a poisoned byte carries the mark. -/
def stripeUnits (l : Marked) : List Marked :=
  let col := fun (f : List Byte → Byte) => (List.range 4096).map fun i =>
    (f (unmark (stripeColumn l i)), anyPoison (stripeColumn l i))
  ((List.range 13).map fun j => (l.drop (4096 * j)).take 4096) ++ [col parityP, col parityQ]

/-- Unit j of a weight stripe: its rank and stack key (R245); P is unit 13, Q unit 14. -/
def stripeKey (p stripe j : Nat) : Nat :=
  stackKey (15 * (stripe % 5) + (j + stripe / 5) % 15) (1073741824 * (96 - p) + 4096 * (stripe / 5))

/-- One stripe written, with its parity. -/
def wloadStripe (id : CmdId) (l : Marked) (first : Nat) (s : State) (i : Nat) : State :=
  (stripeUnits (l.drop (53248 * i))).zipIdx.foldl (fun t u =>
    t.stackWrite id (stripeKey t.weightGib (first + i) u.2) u.1) s

/-- The rows of a WLOAD read in order. -/
def wloadRead (s : State) (id : CmdId) (x : Line) : Nat × Marked :=
  (List.range (tierRows x)).foldl (fun acc i =>
    if acc.1 ≠ 0 then acc else
    match s.cvaRead id (tierA x + i * tierStride x) (tierBytes x) with
    | (0, l) => (0, acc.2 ++ l)
    | (st, _) => (st, [])) (0, [])

/-- One stripe whose WLOAD could not read its rows: its fifteen units are undefined (R239, R264). -/
def wloadSpoil (first : Nat) (s : State) (i : Nat) : State :=
  (List.range 15).foldl (fun t j => t.storeHavoc (stripeKey t.weightGib (first + i) j) 4096) s

/-- WLOAD. Where a row cannot be read its output stripes are undefined (R239, R264). -/
def wloadWork (s : State) (id : CmdId) (x : Line) : State :=
  let n := tierRows x * tierBytes x
  if tierB x % 53248 != 0 || n % 53248 != 0 || decide (1073741824 * (65 * s.weightGib) < tierB x + n) ||
      !s.ownerCx id.cx || s.outstanding.any (fun c => c != id) || !tierOne x then s.finish id 0x0307 0
  else
    match wloadRead s id x with
    | (0, l) =>
      let t := s.noteReads id (s.isLive id.cx) ((List.range (tierRows x)).map fun i => (tierA x + i * tierStride x, tierBytes x))
      ((List.range (n / 53248)).foldl (wloadStripe id l (tierB x / 53248)) t).endWork id 0 0
    | (st, _) => ((List.range (n / 53248)).foldl (wloadSpoil (tierB x / 53248)) s).finish id st 0

/-- WLOAD: the working tier copied into the weight partition with its parity. -/
def execWload (cx : Fin 16) (ring : Fin 4) (s : State) : Out := .next (s.tierRun cx ring 7 wloadWork)

/-! ### Counters -/

/-- HEAT_DECAY: every heat-unit read counter halves (R251). -/
def execHeatDecay (s : State) : Out :=
  .next { s with tiers := { s.tiers with
    heatReads := (s.tiers.heatReads.map fun p => (p.1, p.2 / 2)).filter fun p => p.2 != 0 } }

/-- The error and rebuild counters of a stack cleared (R265). -/
def clearStack (rank : Nat) (s : State) : State :=
  s.setStack rank { s.stack rank with corrected := 0, uncorrected := 0, recon := 0, holdMax := 0 }

/-- TR_ERR_CLEAR: a write of 1 clears TR_STACK_CE, TR_STACK_UE, TR_RECON and TR_HOLD_MAX of every stack. -/
def execTrErrClear (w : Writer) (v : Word) (s : State) : Out :=
  .next (s.guarded w 0x3040 v.toNat fun t => if flag v 0 then iter 75 clearStack t else t)

end Sys2Proof.Machine
end

