-- ==== Sys2Proof/Machine/Kv.lean ====
section
/-!
DEFINITION. KV pages: page commands (R193, R194), share-count updates (R187), the end of a copy on write (R192), reclaim
(R195), and the enable and disable of sequences (R181, R182).
-/

namespace Sys2Proof.Machine

open Sys2Proof

/-! ### The page record (Table 7.2), in the descriptor's body -/

def pageSrcPage (d : Line) : Nat := fld d 415 400
def pageSrcLayer (d : Line) : Nat := fld d 399 384
def pageSrcSeq (d : Line) : Nat := fld d 383 381
def pageWrite (d : Line) : Bool := flag d 380
def pageCount (d : Line) : Nat := fld d 367 352
def pageFirst (d : Line) : Nat := fld d 351 336
def pageLayers (d : Line) : Nat := fld d 335 320
def pageLayer (d : Line) : Nat := fld d 319 304
def pageSeq (d : Line) : Nat := fld d 290 288
def pageOp (d : Line) : Nat := fld d 199 192

/-- Whether a page record breaks Table 7.2. -/
def pageBad (d : Line) : Bool :=
  fld d 447 416 != 0 || fld d 379 368 != 0 || fld d 303 291 != 0 || fld d 287 200 != 0 ||
    !(pageOp d == 1 || pageOp d == 2) || pageCount d == 0 || pageLayers d == 0 || decide (255 < pageLayers d)

/-- The pages of a record, as (layer offset, page offset), layer by layer. -/
def pageList (d : Line) : List (Nat × Nat) :=
  (List.range (pageLayers d)).flatMap fun i => (List.range (pageCount d)).map fun j => (i, j)

/-- The entry index of a sequence's page; none outside its layers and pages. A rolling sequence uses layer 0 (R183). -/
def State.pageIndex (s : State) (q layer page : Nat) : Option Nat :=
  let l := if s.seqLayers q = 1 then 0 else layer
  if l < s.seqLayers q ∧ page < s.seqPages q then some (l * s.seqPages q + page) else none

/-- The sequences a page command pins: those it names (R188). -/
def pagePins (_ : State) (c : Cmd) : List Nat :=
  if pageOp c.desc = 2 ∧ pageSrcSeq c.desc ≠ pageSeq c.desc then [pageSeq c.desc, pageSrcSeq c.desc] else [pageSeq c.desc]

/-- A page command with a given op. -/
def wantPage (op : Nat) (c : Cmd) : Bool := wantKind 0x05 c && pageOp c.desc == op

/-! ### SHARE (R193) -/

/-- One page of a SHARE: the state and its status. -/
def sharePage (d : Line) (acc : State × Nat) (p : Nat × Nat) : State × Nat :=
  if acc.2 ≠ 0 then acc else
  let s := acc.1.drainShares
  let q := pageSeq d
  match s.pageIndex q (pageLayer d + p.1) (pageFirst d + p.2),
      s.pageIndex (pageSrcSeq d) (pageSrcLayer d + p.1) (pageSrcPage d + p.2) with
  | none, _ => (s, 0x0302)
  | some i, src =>
    let e := (src.map (s.kvEntry (pageSrcSeq d))).getD 0
    if kvValid (s.kvEntry q i) then (s, 0x0335)
    else if !kvValid e || kvFreeing e then (s, 0x0336)
    else if (s.shareOf (kvFrame e)).map = 0xFFFF then (s, 0x0338)
    else if !s.quotaOk (s.seqCx q) s.frameUnits then (s, 0x0332)
    else
      let t := (s.charge (s.seqCx q) s.frameUnits).pushShare (kvFrame e) 1 0
      let sq := t.seq q
      ((t.setKvEntry q i (kvWord (pageWrite d) (kvFrame e))).setSeq q { sq with frames := sq.frames + 1 }, 0)

/-- SHARE's work; a source sequence of another host port refuses it at issue with 0x0337. -/
def shareWork (s : State) (id : CmdId) (c : Cmd) : State :=
  if s.cxPort (s.seqCx (pageSrcSeq c.desc)) ≠ s.cxPort id.cx then s.finish id 0x0337 0 else
  let (t, st) := (pageList c.desc).foldl (sharePage c.desc) (s, 0)
  t.finish id st 0

/-- SHARE. -/
def execShare (cx : Fin 16) (s : State) : Out := .next (s.issueHead cx 0 (wantPage 2) pagePins shareWork)

/-! ### FREE and reclaim (R194, R195) -/

/-- An entry reclaimed: its frame's hold falls, the entry is not backed, the quota is credited one frame (R195). -/
def State.reclaimEntry (s : State) (q i : Nat) : State :=
  let e := s.kvEntry q i
  let t := ((s.pushShare (kvFrame e) 0 (-1)).setKvEntry q i 0).credit (s.seqCx q) s.frameUnits
  let sq := t.seq q
  t.setSeq q { sq with reclaim := sq.reclaim.erase i, frames := sq.frames - 1 }

/-- A page marked freeing with a FREE's issue number; reclaimed at once where SQ_LOW has reached it (R194, R195). -/
def State.freeEntry (s : State) (q i number : Nat) : State :=
  let e := s.kvEntry q i
  if !kvValid e || kvFreeing e then s else
  let t := (s.pushShare (kvFrame e) (-1) 1).setKvEntry q i (e + 2 ^ 61 + 2 ^ 21 * number)
  let sq := t.seq q
  let t := t.setSeq q { sq with reclaim := sq.reclaim ++ [i] }
  if t.seqLow q = number then t.reclaimEntry q i else t

/-- The pages of a FREE from a position on; it stops where the reclaim queue of 4,096 entries is full. -/
def freePages (q number : Nat) : List (Nat × Nat) → Line → State × Nat → State × Nat
  | [], _, acc => acc
  | p :: r, d, acc =>
    if 4096 ≤ (acc.1.seq q).reclaim.length then acc else
    match acc.1.pageIndex q (pageLayer d + p.1) (pageFirst d + p.2) with
    | none => freePages q number r d (acc.1, acc.2 + 1)
    | some i => freePages q number r d (acc.1.freeEntry q i number, acc.2 + 1)

/-- FREE's work: it goes on where it stopped, and waits while the queue is full. -/
def freeWork (s : State) (id : CmdId) (c : Cmd) : State :=
  let q := pageSeq c.desc
  let l := pageList c.desc
  let (t, n) := freePages q (s.issueOf id q) (l.drop c.progress) c.desc (s, c.progress)
  if n < l.length then t.modCmd id fun d => { d with progress := n } else t.finish id 0 0

/-- FREE. -/
def execPageFree (cx : Fin 16) (s : State) : Out := .next (s.issueOrRun cx 0 (wantPage 1) pagePins freeWork)

/-- A disabling sequence with an empty reclaim queue no longer reads enable set, and its other fields are those of the
write that disabled it (R181). -/
def State.settleSeq (s : State) (q : Nat) : State :=
  let sq := s.seq q
  if sq.disabling && sq.reclaim.isEmpty then
    (s.setSeq q { sq with enabled := false, disabling := false, later := none }).setReg (seqBase q)
      (sq.later.getD (setFld (s.reg (seqBase q)) 0 0 0))
  else s

/-- RECLAIM: the first entry of the queue whose FREE SQ_LOW has reached is reclaimed (R195). -/
def execReclaim (seq : Fin 8) (s : State) : Out :=
  .next (
    match (s.seq seq).reclaim.find? fun i => !before (s.seqLow seq) (kvFree (s.kvEntry seq i)) with
    | some i => (s.reclaimEntry seq i).settleSeq seq
    | none => s)

/-- SHARE_COUNT_UPDATE: the field controller of a rank applies its oldest queued update (R187). -/
def execShareCountUpdate (rank : Fin 75) (s : State) : Out :=
  .next (
    match takeFirst (fun (u : ShareUpdate) => u.frame % 75 == rank.val) s.kv.updates with
    | some (u, r) => { s with kv := { s.kv with updates := r } }.applyShare u
    | none => s)

/-! ### Copy on write (R192) -/

/-- The bytes of a frame copied to another, their poison with them (R447). -/
def State.copyFrame (s : State) (f g : Nat) : State :=
  let n := s.frameBytes
  s.storeWriteMarked (frameKey g 0) ((List.range n).map fun i => (s.storeByte (frameKey f i), s.storePoisoned (frameKey f i)))

/-- COW_COPY_DONE: the entry is repointed, the hold released, the old frame's charge credited, and the write lands. -/
def execCowCopyDone (seq : Fin 8) (page : Nat) (s : State) : Out :=
  .next (
    match s.cowOn seq page with
    | none => s
    | some c =>
      let t := (iter s.frameUnits (fun i u => u.noteStack c.cmd.cx true (frameKey c.src (65536 * i)) 65536) s).copyFrame c.src c.dst
      let t := (t.setKvEntry seq page (kvWord true c.dst)).modCmd c.cmd fun d =>
        { d with frames := d.frames.filter fun p => p.1 != kvKey seq page }
      let t := (t.pushShare c.src 0 (-1)).credit (s.seqCx seq) s.frameUnits
      let sq := t.seq seq
      let t := t.setSeq seq { sq with copies := wrap32 (sq.copies + 1), frames := sq.frames - 1 }
      let t : State := { t with kv := { t.kv with cows := t.kv.cows.filter fun x => x != c } }
      let t := c.bytes.foldl (fun u p => u.stackWrite c.cmd (frameKey c.dst p.1) [p.2]) t
      if c.cmd.ring = 4 then t.donesGo c.cmd.cx else t.workDone c.cmd)

/-! ### Enable and disable (R181, R182, R233) -/

/-- Whether R182 or R233 refuses a region (0x0330). -/
def State.regionBad (s : State) (q : Nat) : Bool :=
  let cx := s.seqCx q
  let lo := s.seqRegion q
  let hi := lo + s.regionBytes q
  let tokens := s.seqPages q * 384
  decide (tokens < 384) || decide (2 ^ 24 + 383 < tokens) || decide (lo < 2097152 * s.reg (0x310C + 16 * cx)) ||
    decide (2 ^ 47 < hi) ||
    (List.range 8).any fun p => p != q && (s.seq p).enabled && s.seqCx p == cx &&
      rangesMeet (lo, hi - lo) (s.seqRegion p, s.regionBytes p)

/-- A sequence's pages freed as FREE does, and the sequence disabled once the last is reclaimed: until then SQ_CTRL reads
enable set and its frees need its layers, pages and context as they are; then it reads `later` (R181). -/
def State.disableSeq (s : State) (q : Nat) (later : Option Nat) : State :=
  let number := (s.seq q).issue
  let t := iter (s.seqLayers q * s.seqPages q) (fun i u => u.freeEntry q i number) s
  let sq := t.seq q
  (if sq.enabled then t.setSeq q { sq with disabling := true, later := later } else t).settleSeq q

/-- A write of SQ_CTRL while no command pins the sequence, with enable set: the region is checked, and refused with 0x0330
the sequence stays disabled (R182). -/
def State.enableSeq (s : State) (q v : Nat) : State :=
  let old := s.seq q
  let t := s.setReg (seqBase q) (s.clampReg (seqBase q) (v % 65536 - v % 16 + v % 4))
  if old.enabled then (if t.regionBad q then s else t)
  else if t.regionBad q then t.setReg (seqBase q) (setFld (t.reg (seqBase q)) 0 0 0)
  else t.setSeq q { old with enabled := true, disabling := false, copies := 0 }

/-- A write that a register accepts only while idle: 0x0A02 where it is not (R430). -/
def State.whenIdle (s : State) (w : Writer) (off : Nat) (idle : Bool) (f : State → State) : State :=
  if idle then f s else s.cfgErr w 1 off

/-- SEQUENCE_ENABLE. -/
def execSequenceEnable (w : Writer) (seq : Fin 8) (v : Word) (s : State) : Out :=
  .next (if flag v 0 then
    s.guarded w (seqBase seq) v.toNat fun t =>
      t.whenIdle w (seqBase seq) ((t.seq seq).pinned.isEmpty && !(t.seq seq).disabling) fun u => u.enableSeq seq v.toNat
  else s)

/-- SEQUENCE_DISABLE. -/
def execSequenceDisable (w : Writer) (seq : Fin 8) (v : Word) (s : State) : Out :=
  .next (if flag v 0 then s else
    s.guarded w (seqBase seq) v.toNat fun t =>
      t.whenIdle w (seqBase seq) (t.seq seq).pinned.isEmpty fun u =>
        let word := u.clampReg (seqBase seq) (v.toNat % 65536 - v.toNat % 16 + v.toNat % 4)
        if (u.seq seq).enabled then u.disableSeq seq (some word) else u.setReg (seqBase seq) word)

end Sys2Proof.Machine
end

