-- ==== Sys2Proof/Machine/Attention.lean ====
section
/-!
DEFINITION. The attention command (R199 to R208): its record and load checks, its claims, the forming of span states and
their merge.
-/

namespace Sys2Proof.Machine

open Sys2Proof

/-! ### The attention record (Table 7.4) -/

def atOutVa (x : Line) : Nat := fld x 511 464
def atQVa (x : Line) : Nat := fld x 463 416
def atLseVa (x : Line) : Nat := fld x 415 368
def atQStride (x : Line) : Nat := fld x 367 352
def atOutStride (x : Line) : Nat := fld x 351 336
def atScale (x : Line) : Nat := fld x 335 304
def atBlocks (x : Line) : Nat := fld x 303 272
def atMaxBlocks (x : Line) : Nat := fld x 271 256
def atAdjLine (x : Line) : Nat := fld x 255 236
def atAdjStride (x : Line) : Nat := fld x 235 204
def atScratch (x : Line) : Nat := fld x 203 184
def atScratchLines (x : Line) : Nat := fld x 183 164
def atScoreProg (x : Line) : Nat := fld x 163 156
def atValueProg (x : Line) : Nat := fld x 155 148
def atHeads (x : Line) : Nat := fld x 147 142 + 1
def atHd (x : Line) : Nat := if flag x 141 then 128 else 64
def atSpanPages (x : Line) : Nat := fld x 140 137
def atTileM (x : Line) : Nat := fld x 136 130
def atQSlot (x : Line) : Nat := fld x 129 121
def atKvFmt (x : Line) : Nat := fld x 120 117
def atPFmt (x : Line) : Nat := fld x 116 113
def atOutFmt (x : Line) : Nat := fld x 112 109
def atLayer (x : Line) : Nat := fld x 108 103 + fld x 85 84 * 64
def atMask (x : Line) : Nat := fld x 102 95
def atCounter (x : Line) : Nat := fld x 94 87
def atLseEn (x : Line) : Bool := flag x 86

/-- Bytes of an element of kv_fmt. -/
def atElem (x : Line) : Nat := fmtBytes (atKvFmt x)

/-- Addresses of query row i of block b, head h (R199). -/
def atQAt (x : Line) (b h i : Nat) : Nat := atQVa x + (b * atQSlot x + i) * atQStride x + h * atHd x * atElem x
def atOutAt (x : Line) (b h i : Nat) : Nat :=
  atOutVa x + (b * atQSlot x + i) * atOutStride x + h * atHd x * fmtBytes (atOutFmt x)
def atLseAt (x : Line) (b h i : Nat) : Nat := atLseVa x + ((b * atQSlot x + i) * atHeads x + h) * 4

/-- Bytes of a span buffer, each part in whole lines (R203). -/
def spanBuffer (x : Line) : Nat :=
  let line := fun (n : Nat) => cdiv n 128 * 128
  let tokens := atSpanPages x * 384
  line (atQSlot x * atHd x * atElem x) + line (2 * tokens * atHd x * atElem x) +
    line (atQSlot x * tokens * (4 + atElem x)) + line (atQSlot x * (atHd x * 4 + 8))

/-! ### Load checks (R186, R200) -/

/-- A tile program of the package's table. -/
def State.tileProg (s : State) (i : Nat) : Option (List Nat) := match s.package with | some p => p.tprogs[i]? | none => none

/-- Whether a program suits R200: its formats, one DRAIN to FP32 with scale_en as asked and nothing else, its counter. -/
def progSuits (x : Line) (fmtA : Nat) (scale : Bool) (p : Option (List Nat)) : Bool :=
  match p with
  | none => false
  | some p =>
    programStatus p == 0 && loadFmt (wordOf p 2) == fmtA && loadFmt (wordOf p 3) == atKvFmt x &&
      drainsOf p == [6 * 2 ^ 60 + 2 ^ 50 * b2n scale] && claimCounter (wordOf p 1) == atCounter x

/-- The output ranges of a record at its declared maximum. -/
def atOutRanges (x : Line) (blocks : Nat) : List (Nat × Nat) :=
  (List.range (blocks * atQSlot x)).flatMap fun i =>
    [(atOutAt x 0 0 i, atHeads x * atHd x * fmtBytes (atOutFmt x))] ++
      (if atLseEn x then [(atLseAt x 0 0 i, atHeads x * 4)] else [])

/-- The status with which an attention record is refused at decode; 0 where it passes. -/
def State.attnStatus (s : State) (cx : Nat) (x : Line) : Nat :=
  let step8 := fun (v hi : Nat) => v % 8 == 0 && decide (8 ≤ v) && decide (v ≤ hi)
  if fld x 83 0 != 0 || shapeBad (atBlocks x) || atAdjStride x % 128 != 0 || atSpanPages x == 0 || decide (8 < atSpanPages x) ||
      !step8 (atTileM x) 64 || !step8 (atQSlot x) 384 || !(atKvFmt x == 1 || atKvFmt x == 3) || !fmtDrain (atOutFmt x) ||
      atLayer x == 255 || decide (atQSlot x < atTileM x) || atPFmt x != atKvFmt x then 0x0260
  else if atScratchLines x * 128 < 2 * spanBuffer x then 0x0264
  else if !progSuits x (atKvFmt x) true (s.tileProg (atScoreProg x)) ||
      !progSuits x (atPFmt x) false (s.tileProg (atValueProg x)) then 0x0261
  else if (atOutRanges x (atMaxBlocks x)).any fun r => s.hitsTable cx r.1 r.2 then 0x0334
  else 0

/-! ### Issue (R188, R200, R201) -/

/-- The sequences a record names. -/
def atSeqs (x : Line) : List Nat := (List.range 8).filter fun q => bit (atMask x) q

/-- The sequences an attention command pins: those of its mask, and those whose regions its transfers touch (R188). -/
def attnPins (cx : Nat) (s : State) (c : Cmd) : List Nat :=
  let x := c.ext
  let q := (List.range (atMaxBlocks x * atQSlot x)).map fun i => (atQAt x 0 0 i, atHeads x * atHd x * atElem x)
  sunion (atSeqs x) (s.pinsOf cx (q ++ atOutRanges x (atMaxBlocks x)))

/-- The lap counters of every rank taken by an attention command of `n` claims. It has no bounds of R112: those registers
keep their values (DEDUCED, the log's entry 70). -/
def State.attnCounters (s : State) (cx i n : Nat) : State :=
  iter 75 (fun r t =>
    let (lo, hi) := claimRange n r
    t.setLap r i { t.lap r i with
      mode := if lo < hi then .serving else .exhausted
      cx := cx
      next := lo
      stop := hi
      done := 0
      retry := []
      held := []
      handOut := 0
      handIn := 0
      returned := 0 }) s

/-- The lap counters of an attention command freed. -/
def State.freeCounters (s : State) (i : Nat) : State := iter 75 (fun r t => t.setLap r i (freeLap (t.lap r i))) s

/-- ATTENTION's issue: its bounds are read, its claims formed; with no claim its work is done at once. The contents of its
scratch are no longer defined. -/
def attnWork (s : State) (id : CmdId) (c : Cmd) : State :=
  let x := c.ext
  let qb := s.shape id.cx (atBlocks x)
  if atMaxBlocks x < qb then s.finish id 0x0263 0
  else if (atSeqs x).any fun q => s.seqLayers q != 1 && decide (s.seqLayers q ≤ atLayer x) then s.finish id 0x0265 0
  else
    let n := qb * atHeads x
    let lens := (List.range 8).map fun q => s.reg (seqBase q + 0x18)
    let claims := (List.range n).map fun k => (⟨id, k, qb, lens, false, [], false⟩ : AttnClaim)
    let t := (List.range 75).foldl (fun u r =>
      if (claimRange n r).2 = (claimRange n r).1 then u
      else u.infHavoc r (atScratch x * 128) (atScratchLines x * 128)) s
    let t : State := { t with attn := { t.attn with claims := t.attn.claims ++ claims } }
    if n = 0 then t.modCmd id fun d => { d with worked := true } else t.attnCounters id.cx (atCounter x) n

/-- Whether the first command of a context's command ring is an attention command whose counter is free. -/
def State.attnFree (s : State) (c : Cmd) : Bool := !s.lapHeld (atCounter c.ext)

/-- ATTENTION: it waits at issue while another command holds its lap counter. -/
def execAttention (cx : Fin 16) (s : State) : Out :=
  .next (s.issueHead cx 0 (fun c => wantKind 0x04 c && s.attnFree c) (attnPins cx) attnWork)

/-! ### Span rows (R197, R201) -/

/-- A claim's record, command and place in the list. -/
def State.attnClaim (s : State) (cx claim : Nat) : Option (AttnClaim × Cmd) :=
  s.attn.claims.findSome? fun a =>
    if a.cmd.cx = cx ∧ a.claim = claim then (s.cmd? a.cmd).map fun c => (a, c) else none

/-- The address of a claim's span row, in the rank that owns engine row b. -/
def spanRow (x : Line) (a : AttnClaim) : Nat × Nat :=
  let b := a.claim / atHeads x
  (claimRank a.blocks b, atAdjLine x * 128 + b * atAdjStride x)

/-- A number at an offset of a claim's span row. -/
def State.spanNat (s : State) (x : Line) (a : AttnClaim) (off n : Nat) : Nat :=
  let p := spanRow x a
  s.infNat p.1 (p.2 + off) n

/-- Header fields: the span count, causal_first, q_valid and the query block's sequence. -/
def State.spanCount (s : State) (x : Line) (a : AttnClaim) : Nat := s.spanNat x a 0 4
def State.spanCausal (s : State) (x : Line) (a : AttnClaim) : Nat := s.spanNat x a 4 4
def State.spanValid (s : State) (x : Line) (a : AttnClaim) : Nat := bits (s.spanNat x a 8 2) 8 0
def State.spanQuerySeq (s : State) (x : Line) (a : AttnClaim) : Nat := bits (s.spanNat x a 8 2) 11 9

/-- A span: its sequence and its pages. -/
def State.spanAt (s : State) (x : Line) (a : AttnClaim) (i : Nat) : Nat × List Nat :=
  let w := s.spanNat x a (32 * (i + 1)) 32
  (bits w 6 4, (List.range (min 8 (bits w 3 0))).map fun j => bits w (143 + 16 * j) (128 + 16 * j))

/-! ### Forming a span (R202, R204, R205) -/

/-- A dot product of two code lists in slabs of 32, as the cores compute it: block sums added in ascending slab order. -/
def dotCodes (fmt : Nat) : Nat → List Nat → List Nat → Nat × Nat → Nat × Nat
  | 0, _, _, acc => acc
  | n + 1, a, b, acc =>
    if a.isEmpty then acc else
    let p := blockSum fmt fmt (a.take 32) (b.take 32) [] none none
    let z := f32Add .rne acc.1 p.1
    dotCodes fmt n (a.drop 32) (b.drop 32) (z.1, acc.2 ||| p.2 ||| z.2)

/-- A run of elements of kv_fmt read from a context's addresses: the status, the codes, and whether any byte is poison. -/
def State.atRead (s : State) (id : CmdId) (x : Line) (va n : Nat) : Nat × List Nat × Bool :=
  match s.cvaRead id va (n * atElem x) with
  | (0, l) => (0, numbers (atElem x) n (unmark l), anyPoison l)
  | (st, _) => (st, [], false)

/-- Heads, head size and element size of the resident package's KV pages (R184). -/
def State.kvHeads (s : State) : Nat := match s.package with | some p => bits p.header 220 215 + 1 | none => 0
def State.kvHd (s : State) : Nat := match s.package with | some p => if bit p.header 221 then 128 else 64 | none => 0
def State.kvElem (s : State) : Nat := match s.package with | some p => fmtBytes (bits p.header 225 222) | none => 0

/-- The address of a page of a sequence, at the record's layer (R182, R183). -/
def State.pageVa (s : State) (x : Line) (q page : Nat) : Nat :=
  s.seqRegion q + ((if s.seqLayers q = 1 then 0 else atLayer x) * s.seqPages q + page) * s.frameBytes

/-- The K rows of a span and the rows of its transposed V, as codes, each slot at or beyond its sequence's length +0; a
status where a page cannot be read, and whether any byte read is poison. -/
structure SpanData where
  status : Nat
  poison : Bool
  k : List (List Nat)
  v : List (List Nat)
  deriving DecidableEq, Repr

/-- The slots of a page that hold tokens. -/
def pageTokens (len page : Nat) : Nat := min 384 (len - 384 * page)

/-- The addresses of a page's K row of slot t and of its V row of dimension d, for a head: the layout is the package's
(R184). What a record of another head size or format reads there the manual leaves open: as many elements as it names, from
the start of each row (DESIGN CHOICE, the log's entry 71). -/
def State.kRow (s : State) (base h t : Nat) : Nat := base + (h * 384 + t) * s.kvHd * s.kvElem
def State.vRow (s : State) (base h d : Nat) : Nat := base + ((s.kvHeads + h) * s.kvHd + d) * 384 * s.kvElem

/-- The reads of a page, K rows before V rows: address and element count. -/
def State.pageReads (s : State) (x : Line) (q h page len : Nat) : List (Nat × Nat) :=
  let live := pageTokens len page
  let base := s.pageVa x q page
  (List.range live).map (fun t => (s.kRow base h t, atHd x)) ++ (List.range (atHd x)).map fun d => (s.vRow base h d, live)

/-- One page of a span. -/
def State.pageData (s : State) (id : CmdId) (x : Line) (q h page len : Nat) : SpanData :=
  let live := pageTokens len page
  if s.seqPages q ≤ page then ⟨0x0331, false, [], []⟩ else
  let l := (s.pageReads x q h page len).map fun r => s.atRead id x r.1 r.2
  let st := (l.map Prod.fst).find? fun c => c != 0
  ⟨st.getD 0, l.any (fun v => v.2.2),
    ((l.take live).map fun v => v.2.1) ++ List.replicate (384 - live) (List.replicate (atHd x) 0),
    (l.drop live).map fun v => v.2.1 ++ List.replicate (384 - live) 0⟩

/-- A span's pages in order: K rows one page after another, V concatenated along the token axis. -/
def State.spanData (s : State) (id : CmdId) (x : Line) (q h : Nat) (pages : List Nat) (len : Nat) : SpanData :=
  (pages.map fun p => s.pageData id x q h p len).foldl
    (fun a b => ⟨if a.status ≠ 0 then a.status else b.status, a.poison || b.poison, a.k ++ b.k,
      (if a.v.isEmpty then b.v else List.zipWith (· ++ ·) a.v b.v)⟩) ⟨0, false, [], []⟩

/-- Whether key slot t of a span is kept for query row i (R204). -/
def keptSlot (pages : List Nat) (len causal : Nat) (sameSeq : Bool) (i t : Nat) : Bool :=
  let a := 384 * nth pages (t / 384) 0 + t % 384
  decide (a < len) && (causal == 0xFFFFFFFF || !sameSeq || decide (a ≤ causal + i))

/-- form of R205: m, l, and P's codes each with its flags; none for the NaN state. -/
def formRow (alv fmt : Nat) (scores : List Nat) (kept : Nat → Bool) : Option (Nat × Nat × List (Nat × Nat)) :=
  let idx := (List.range scores.length).filter kept
  if idx.isEmpty then some (0xFF800000, 0, scores.map fun _ => (0, 0))
  else if idx.any fun i => let v := ofF32 (nth scores i 0); v.isNan || v.isInf then none
  else
    let m := (idx.map fun i => ofF32 (nth scores i 0)).foldl (fun a v => if a.lt v then v else a) (.inf true)
    let m32 := (toF32 .rne m).1
    let p := scores.zipIdx.map fun s =>
      if kept s.2 then
        let d := f32Sub s.1 m32
        let e := libRoutine alv 0x100 d.1
        let y := convOut .rne fmt (ofF32 e.1)
        (y.1, d.2 ||| e.2 ||| y.2)
      else (0, 0)
    some (m32, (toF32 .rne (treeMerge Num.zero addX 16 (p.map fun v => elemVal fmt v.1))).1, p)

/-- The state of one query row: scores, form and values; and its flags. -/
def State.spanRowState (s : State) (x : Line) (data : SpanData) (q : List Nat) (kept : Nat → Bool) :
    (Nat × Nat × List Nat) × Nat :=
  let fmt := atKvFmt x
  let scores := data.k.map fun k =>
    let d := dotCodes fmt 8 q k (0, 0)
    let z := f32Mul d.1 (atScale x)
    (z.1, d.2 ||| z.2)
  match formRow s.alv fmt (scores.map Prod.fst) kept with
  | none => ((nan32, nan32, List.replicate (atHd x) nan32), flagsOf scores ||| flNan)
  | some (m, l, p) =>
    let o := data.v.map fun v => dotCodes (atPFmt x) 97 (p.map Prod.fst) v (0, 0)
    ((m, l, o.map Prod.fst), flagsOf scores ||| flagsOf p ||| flagsOf o)

/-- An attention command ends before its hurdle: its claims and states are dropped, its counters freed, its outputs
undefined (R190, R191, R380, R448). -/
def State.endAttention (s : State) (id : CmdId) (c : Cmd) : State :=
  let blocks := match s.attn.claims.find? fun a => a.cmd == id with | some a => a.blocks | none => 0
  let t := (atOutRanges c.ext blocks).foldl (fun u r => u.cvaHavoc id r.1 r.2) s
  let t : State := { t with attn := {
    claims := t.attn.claims.filter fun a => a.cmd != id
    states := t.attn.states.filter fun a => a.cmd != id } }
  if blocks = 0 then t else t.freeCounters (atCounter c.ext)

/-- A claim changed. -/
def State.modClaim (s : State) (id : CmdId) (claim : Nat) (f : AttnClaim → AttnClaim) : State :=
  { s with attn := { s.attn with claims := modFirst (fun a => a.cmd == id && a.claim == claim) f s.attn.claims } }

/-- The states of a span's valid rows: the Q rows, their states, the flags, and whether poison was read. -/
def State.formStates (s : State) (a : AttnClaim) (x : Line) (span : Nat) : Nat × Bool × List SpanState × Nat :=
  let h := a.claim % atHeads x
  let b := a.claim / atHeads x
  let (q, pages) := s.spanAt x a span
  let len := nth a.lens q 0
  let data := s.spanData a.cmd x q h pages len
  let rows := (List.range (s.spanValid x a)).map fun i => s.atRead a.cmd x (atQAt x b h i) (atHd x)
  let st := (data.status :: rows.map Prod.fst).find? fun c => c != 0
  let states := rows.zipIdx.map fun r =>
    let z := s.spanRowState x data r.1.2.1 (keptSlot pages len (s.spanCausal x a) (q == s.spanQuerySeq x a) r.2)
    ((⟨a.cmd, a.claim, span, r.2, z.1.1, z.1.2.1, z.1.2.2⟩ : SpanState), z.2)
  (st.getD 0, data.poison || rows.any (fun r => r.2.2), states.map Prod.fst, states.foldl (fun f p => f ||| p.2) 0)

/-- The ranges a span's staging reads: its Q rows, and its pages' K and V rows (R202). -/
def State.spanReads (s : State) (a : AttnClaim) (x : Line) (span : Nat) : List (Nat × Nat) :=
  let h := a.claim % atHeads x
  let b := a.claim / atHeads x
  let (q, pages) := s.spanAt x a span
  ((List.range (s.spanValid x a)).map fun i => (atQAt x b h i, atHd x * atElem x)) ++
    pages.flatMap fun p => (s.pageReads x q h p (nth a.lens q 0)).map fun r => (r.1, r.2 * atElem x)

/-- SPAN_FORM: a core takes the claim where none holds it, and a span is staged, scored, formed and valued for every valid
query row (R202 to R205). A span that names a sequence outside the mask gives the command status 0x0262, after its hurdle
(R201). -/
def execSpanForm (cx : Fin 16) (claim : Nat) (span : Nat) (s : State) : Out :=
  .next (
    match s.attnClaim cx claim with
    | none => s
    | some (a, c) =>
      let x := c.ext
      if !s.holds cx || a.merged || a.formed.contains span || decide (s.spanCount x a ≤ span) then s else
      match s.attnTake a c with
      | none => s
      | some s =>
      let done := fun (t : State) => t.modClaim a.cmd claim fun r => { r with formed := sput r.formed span }
      let q := (s.spanAt x a span).1
      if !bit (atMask x) q then
        done (s.modCmd a.cmd fun d => { d with status := if d.status = 0 then 0x0262 else d.status })
      else
        let (st, poison, states, fl) := s.formStates a x span
        if poison then (s.endAttention a.cmd c).consumePoison a.cmd
        else if st ≠ 0 then (s.endAttention a.cmd c).finish a.cmd st 0
        else
          let t := (done s).noteReads a.cmd true (s.spanReads a x span)
          { t with attn := { t.attn with states := t.attn.states ++ states } }.raise a.cmd fl)

/-! ### Merging a claim (R206, R208) -/

/-- The state of a row of a span, in FP32X. -/
def SpanState.soft (p : SpanState) : Soft := ⟨ofF32 p.m, ofF32 p.l, p.o.map ofF32, 0⟩

/-- States merged by the tree, in groups of 256 whose states are rounded to FP32 where there are more. -/
def mergeSpans (alv hd : Nat) (l : List Soft) : Soft :=
  let none_ : Soft := ⟨.inf true, Num.zero, List.replicate hd Num.zero, 0⟩
  let tree := treeMerge none_ (Soft.merge alv) 9
  if l.length ≤ 256 then tree l else
  tree ((List.range (cdiv l.length 256)).map fun g => (tree ((l.drop (256 * g)).take 256)).rounded)

/-- One row of a claim's output: its bytes, its log-sum-exp and the flags. -/
def State.mergeRow (s : State) (x : Line) (a : AttnClaim) (i : Nat) : List Byte × Nat × Nat :=
  let states := (List.range (s.spanCount x a)).filterMap fun n =>
    s.attn.states.find? fun p => p.cmd == a.cmd && p.claim == a.claim && p.span == n && p.row == i
  let root := mergeSpans s.alv (atHd x) (states.map SpanState.soft)
  let (out, lse) := root.finish s.alv fun _ v => convOut .rne (atOutFmt x) v
  (codeBytes (atOutFmt x) (out.map Prod.fst), lse.1, root.fl ||| flagsOf out ||| (if atLseEn x then lse.2 else 0))

/-- A claim's rows written, in ascending order, up to the first failing write. -/
def State.writeRow (x : Line) (a : AttnClaim) (rank : Nat) (acc : State × Nat) (i : Nat) : State × Nat :=
  if acc.2 ≠ 0 then acc else
  let b := a.claim / atHeads x
  let h := a.claim % atHeads x
  let (bytes, lse, fl) := acc.1.mergeRow x a i
  let (t, st) := (acc.1.raise a.cmd fl).cvaWrite a.cmd rank (atOutAt x b h i) (clean bytes)
  if st ≠ 0 ∨ !atLseEn x then (t, st) else t.cvaWrite a.cmd rank (atLseAt x b h i) (clean (toBytes 4 lse))

/-- Whether every span of a claim names a sequence of the mask. -/
def State.claimSound (s : State) (x : Line) (a : AttnClaim) : Bool :=
  (List.range (s.spanCount x a)).all fun n => bit (atMask x) (s.spanAt x a n).1

/-- The last claim merged: the command's work is done but for its hurdle. -/
def State.attnDone (s : State) (id : CmdId) : State :=
  if s.attn.claims.any fun a => a.cmd == id && !a.merged then s
  else s.modCmd id fun d => { d with worked := true }

/-- An attention command whose hurdle is complete: its counters are free (R138, R208). -/
def State.closeAttention (s : State) (id : CmdId) (c : Cmd) : State :=
  if s.attn.claims.any fun a => a.cmd == id then
    { s with attn := { s.attn with claims := s.attn.claims.filter fun a => a.cmd != id } }.freeCounters (atCounter c.ext)
  else s

/-- Whether a rank's part of an attention command is done (R138). -/
def State.attnRankDone (s : State) (id : CmdId) (c : Cmd) (rank : Nat) : Bool :=
  let l := s.lap rank (atCounter c.ext)
  if s.attn.claims.any fun a => a.cmd == id then decide (l.stop ≤ l.next) && l.retry.isEmpty && l.held.isEmpty else c.worked

/-- SPAN_MERGE: with every span of a claim formed, the states of each valid row are merged and finished, and the output is
written. It waits where a page it writes is freeing and due (R190). The output of a claim with a span outside the mask is
undefined. -/
def execSpanMerge (cx : Fin 16) (claim : Nat) (s : State) : Out :=
  .next (
    match s.attnClaim cx claim with
    | none => s
    | some (a, c) =>
      let x := c.ext
      let b := claim / atHeads x
      let h := claim % atHeads x
      let rows := s.spanValid x a
      let ranges := (List.range rows).flatMap fun i =>
        (atOutAt x b h i, atHd x * fmtBytes (atOutFmt x)) :: (if atLseEn x then [(atLseAt x b h i, 4)] else [])
      if !s.holds cx || a.merged || decide (a.formed.length < s.spanCount x a) ||
          ranges.any (fun r => s.writeWaits a.cmd r.1 r.2) then s else
      match s.attnTake a c with
      | none => s
      | some s =>
      let rank := claimRank (a.blocks * atHeads x) claim
      let (t, st) := if s.claimSound x a then (List.range rows).foldl (State.writeRow x a rank) (s, 0)
        else (ranges.foldl (fun u r => u.cvaHavoc a.cmd r.1 r.2) s, 0)
      if st ≠ 0 then (t.endAttention a.cmd c).finish a.cmd st 0
      else
        let t : State := { t with attn := { t.attn with
          states := t.attn.states.filter fun p => !(p.cmd == a.cmd && p.claim == claim) } }
        ((t.modClaim a.cmd claim fun r => { r with merged := true }).attnGive a c).attnDone a.cmd)

end Sys2Proof.Machine
end

