-- ==== Sys2Proof/Machine/LinkCode.lean ====
section
/-!
DEFINITION. The link formats of a REDUCE baton: entries widened to FP32, sums coded, and the error memory's values (R289 to
R293, R330).
-/

namespace Sys2Proof.Machine

open Sys2Proof

/-- Entries per scaled block of a format in a mode (R290). -/
def linkBlock (fmt : Nat) (packed : Bool) : Nat := if fmt = 12 then 64 else if packed then 32 else 64

/-- The element format of a scaled link format. -/
def linkElem (fmt : Nat) : Fmt := if fmt = 3 then e4m3 else e5m2

/-- One entry of a baton as an FP32 code, and its flags (R291). -/
def linkEntry (fmt : Nat) (packed : Bool) (scales : Nat) (p : List Byte) (i : Nat) : Nat × Nat :=
  let byte := fun k => (nth p k 0).toNat
  let word := fun k n => ofBytes ((p.drop k).take n)
  if fmt = 0 then (word (4 * i) 4, 0)
  else if fmt = 1 then ((toF32 .rne (bf16.decode (word (2 * i) 2))).1, 0)
  else if fmt = 12 then
    let j := i / 64
    let scale := word (10 * j + 8) 2
    let neg := bit (word (10 * j) 8) (i % 64) != bit scale 15
    match bf16.decode (scale % 32768) with
    | .nan => (nan32, 0)
    | v => ((toF32 .rne (if neg then v.neg else v)).1, 0)
  else
    let j := i / linkBlock fmt packed
    let s := if packed then byte (33 * j + 32) else bits scales (8 * j + 7) (8 * j)
    let c := if packed then byte (33 * j + i % 32) else byte i
    if s = 0xFF then (nan32, 0) else
    let (r, fl) := toF32 .rne (((linkElem fmt).decode c).scale ((s : Int) - 127))
    (r, fl &&& flInf)

/-- The first `n` entries of a baton. -/
def linkEntriesOf (fmt : Nat) (packed : Bool) (b : BatonWord) (n : Nat) : List (Nat × Nat) :=
  let p := batPayload b
  (List.range n).map (linkEntry fmt packed (batScales b) p)

/-- Entries added in place: the sums and the flags (R292). -/
def addEntries (a b : List (Nat × Nat)) : List (Nat × Nat) :=
  List.zipWith (fun x y => let (r, fl) := f32Add .rne x.1 y.1; (r, x.2 ||| y.2 ||| fl)) a b

/-- A coded block: its codes, its scale, the values a receiver decodes, and its flags. -/
structure LinkBlk where
  codes : List Nat
  scale : Nat
  decoded : List Nat
  flags : Nat
  deriving DecidableEq, Repr

/-- The largest magnitude of a scaled format (R293). -/
def linkMax (fmt : Nat) : Num := if fmt = 3 then .fin false 7 6 else .fin false 7 13

/-- A scaled block of FP32 sums (R293). -/
def scaledBlock (fmt : Nat) (v : List Nat) : LinkBlk :=
  let x := v.map ofF32
  if x.any fun a => a.isNan || a.isInf then ⟨v.map fun _ => 0, 0xFF, v.map fun _ => nan32, flNan⟩ else
  let amax := amaxOf x
  let e := if amax.isZero then 0 else blockExp amax (linkMax fmt)
  let fl := if e < -127 then flScale else 0
  let e := max e (-127)
  let codes := x.map fun a => mxElem .rne (if fmt = 3 then 5 else 6) (a.scale (-e))
  ⟨codes, (127 + e).toNat, codes.map (fun c => (toF32 .rne (((linkElem fmt).decode c).scale e)).1), fl⟩

/-- A SIGN1 block (R330): signs, BF16 scale, the decoded values; a NaN or an infinity spoils it. -/
def signBlock (v : List Nat) : LinkBlk :=
  if v = [] then ⟨[], 0, [], 0⟩ else
  let x := v.map ofF32
  let a := (treeSum (fun _ => .rne) 8 (x.map fun y => (toF32 .rne y.abs).1) 1).1
  let q := (toF32 .rne (Num.div (ofF32 a) (Num.ofNat' v.length))).1
  let scale := (convOut .rne 1 (ofF32 q)).1
  let sv := bf16.decode scale
  if x.any (fun y => y.isNan || y.isInf) || sv.isNan || sv.isInf then ⟨v.map fun _ => 0, 0x7FC0, v.map fun _ => nan32, flNan⟩
  else
    let w := (toF32 .rne sv).1
    ⟨v.map fun c => c / 2 ^ 31, scale, v.map fun c => c / 2 ^ 31 * 2 ^ 31 + w, 0⟩

/-- A list cut into runs of `n`. -/
def chunksOf (n : Nat) : Nat → List Nat → List (List Nat)
  | 0, _ => []
  | fuel + 1, l => if l = [] then [] else l.take n :: chunksOf n fuel (l.drop n)

/-- The coded sums of a baton: payload, header scales, decoded values, flags, and whether a SIGN1 block was spoiled, by
entry (R290, R293). -/
structure LinkCoded where
  payload : List Byte
  scales : Nat
  decoded : List Nat
  flags : Nat
  spoiled : List Bool
  deriving DecidableEq, Repr

/-- Sums coded into a link format (R290, R293). -/
def linkCode (fmt : Nat) (packed : Bool) (v : List Nat) : LinkCoded :=
  if fmt = 0 then ⟨v.flatMap (toBytes 4), 0, v, 0, v.map fun _ => false⟩
  else if fmt = 1 then
    let c := v.map fun x => convOut .rne 1 (ofF32 x)
    ⟨c.flatMap (fun p => toBytes 2 p.1), 0, c.map (fun p => (toF32 .rne (bf16.decode p.1)).1),
      c.foldl (fun a p => a ||| p.2) 0, v.map fun _ => false⟩
  else if fmt = 12 then
    let b := (chunksOf 64 25 v).map signBlock
    ⟨b.flatMap (fun k => toBytes 8 (packCodes 1 k.codes) ++ toBytes 2 k.scale), 0, b.flatMap LinkBlk.decoded,
      b.foldl (fun a k => a ||| k.flags) 0, b.flatMap fun k => k.codes.map fun _ => k.flags != 0⟩
  else
    let n := linkBlock fmt packed
    let b := (chunksOf n 8 v).map (scaledBlock fmt)
    let blocks := if packed then 7 else 4
    let empty : LinkBlk := ⟨[], 0x7F, [], 0⟩
    let all := b ++ List.replicate (blocks - b.length) empty
    let pad := fun (k : LinkBlk) => k.codes ++ List.replicate (n - k.codes.length) 0
    ⟨all.flatMap (fun k => (pad k).flatMap (toBytes 1) ++ (if packed then toBytes 1 k.scale else [])),
      (if packed then 0 else ofBytes (all.map fun k => BitVec.ofNat 8 k.scale)), b.flatMap LinkBlk.decoded,
      b.foldl (fun a k => a ||| k.flags) 0, v.map fun _ => false⟩

/-- A sum with its error memory entry: the value coded. Only BF16 and the scaled formats raise the addition's flags
(R330). -/
def withError (fmt : Nat) (s : Nat) (m : Option Nat) : Nat × Nat :=
  match m with
  | none => (s, 0)
  | some m => let (r, fl) := f32Add .rne s m; (r, if fmt = 12 then 0 else fl)

/-- The new error memory entry: v - d, or +0 in a spoiled SIGN1 block (R330). -/
def newError (v d : Nat) (spoiled : Bool) : Nat := if spoiled then 0 else (f32Sub v d).1

end Sys2Proof.Machine
end

