-- ==== Sys2Proof/Machine/Lanes.lean ====
section
/-!
DEFINITION. The lanes of a relay link (R267, R268, R272): striping, the scrambler, what the FEC does with wrong symbols, and
the ratio at which a receiver spares a lane. The symbols of a codeword are not modelled, since the manual gives neither the
field polynomial nor the roots of the code.
-/

namespace Sys2Proof.Machine

open Sys2Proof

/-- The bytes of a baton that travel on a logical lane: 36i to 36i + 35 (R268). -/
def laneBytes (b : BatonWord) (lane : Nat) : List Byte := (List.range 36).map fun j => BitVec.ofNat 8 (b.toNat / 2 ^ (8 * (36 * lane + j)))

/-- The baton that eight lanes carried. -/
def batonOfLanes (lanes : List (List Byte)) : BatonWord := BitVec.ofNat 2304 (ofBytes lanes.flatten)

/-- The last 58 bits a lane sent, the latest at bit 0. -/
abbrev Scramble := BitVec 58

/-- One bit through the self-synchronous scrambler x^58 + x^39 + 1: the bit sent, and the lane's state after it (R267). -/
def scrambleBit (st : Scramble) (b : Bool) : Bool × Scramble :=
  let o := (b ^^ st.getLsbD 57) ^^ st.getLsbD 38
  (o, st <<< 1 ||| BitVec.ofNat 58 o.toNat)

/-- One bit through the receiver's descrambler, whose state holds the bits received. -/
def descrambleBit (st : Scramble) (o : Bool) : Bool × Scramble :=
  ((o ^^ st.getLsbD 57) ^^ st.getLsbD 38, st <<< 1 ||| BitVec.ofNat 58 o.toNat)

/-- What a receiver makes of a codeword of RS(280,250) over GF(2^10). -/
inductive FecResult where
  | corrected (symbols : Nat)
  | uncorrectable
  deriving DecidableEq, Repr

/-- Up to 15 wrong symbols of 280 are corrected (R267). -/
def fecResult (wrong : Nat) : FecResult := if wrong ≤ 15 then .corrected wrong else .uncorrectable

/-- Whether a lane's codeword is one of alignment markers, which carries no baton: one in every 16,384, taken as the last of
each run (R268). -/
def isMarker (codeword : Nat) : Bool := codeword % 16384 == 16383

/-- Symbols of 10 bits that a lane carries in 1 ms at 224 Gb/s. -/
def symbolsPerMs : Nat := 22400000

/-- The corrected symbols of consecutive ms pass the bound of R272: a ratio above 10^-4 in each of the last ten. -/
def ratioOver (ms : List Nat) : Bool :=
  decide (10 ≤ ms.length) && (ms.drop (ms.length - 10)).all fun n => decide (symbolsPerMs < 10000 * n)

end Sys2Proof.Machine
end

