-- ==== Sys2Proof/Machine/Links.lean ====
section
/-!
DEFINITION. Relay links (chapter 10): training, lane sparing, the baton slot, replay, receipt in sequence, routing, and the
bulk and management kinds.
-/

namespace Sys2Proof.Machine

open Sys2Proof

/-! ### Training and lanes (R271 to R273, R283) -/

/-- The lanes of a mask that pass, in ascending order. -/
def lanesOf (m : BitVec 10) : List Nat := (List.range 10).filter fun i => flag m i

/-- LINK_TRAINING_START: enable is set, or the peer is lost; no link trains while the module ID is unset (R271, R283). -/
def execLinkTrainingStart (link : Fin 36) (s : State) : Out :=
  .next (
    let n := link.val
    let c := s.reg (linkBase n)
    if !bit c 0 || bit c 1 || s.moduleId == 0xFFF then s else
    match (s.link n).mode with
    | .disabled => s.setLink n (Link.fresh .training 0)
    | .up | .degraded | .retrain => s.linkLeave n fun _ => Link.fresh .training 0
    | _ => s)

/-- LINK_TRAINING_RETRY: 100 ms after a failed attempt (R271). -/
def execLinkTrainingRetry (link : Fin 36) (s : State) : Out :=
  .next (
    let l := s.link link.val
    if l.mode = .training ∧ l.waiting then s.setLink link.val { l with waiting := false } else s)

/-- A failed attempt: the third in a row leaves the link DOWN (R271, R273). -/
def State.trainFail (s : State) (n : Nat) : State :=
  let l := s.link n
  if 2 ≤ l.failures then s.linkDown n 0
  else s.setLink n { l with failures := l.failures + 1, waiting := l.mode == .training }

/-- The lanes of a direction's logical lanes: the eight lowest that pass, or four where fewer than eight pass (R271). -/
def logicalLanes (pass : List Nat) : List Nat := pass.take (if 8 ≤ pass.length then 8 else 4)

/-- LINK_DEGRADED, record 0x41, of the link: no spare is left (Table 17.7). -/
def State.logDegraded (s : State) (n : Nat) : State := s.log 0x41 0 8 n 0

/-- Logical lanes after a failing lane's role went to another lane. -/
def moveLane (lanes : List Nat) (bad spare : Nat) : List Nat := lanes.map fun l => if l = bad then spare else l

/-- Logical lanes 0 to 3, on lanes that do not fail (R272). -/
def lowLanes (lanes : List Nat) (bad : Nat) : List Nat :=
  (moveLane lanes bad (((lanes.drop 4).filter fun l => l != bad).headD bad)).take 4

/-- A link comes up with the passing lanes of each direction, its peer, and full credits (R271, R278). -/
def State.trainDone (s : State) (n : Nat) (tx rx : List Nat) (peer peerLink : Nat) : State :=
  let l := s.link n
  let low := decide (tx.length < 8) || decide (rx.length < 8)
  let t := s.setLink n { l with
    mode := if low then .degraded else .up
    failures := 0
    waiting := false
    txLanes := logicalLanes tx
    rxLanes := logicalLanes rx
    txSpares := tx.drop 8
    rxSpares := rx.drop 8
    peer := some (peer, peerLink)
    status := 0
    credits := fullCredits
    creditDue := []
    resend := l.replay.length }
  if low then t.logDegraded n else t

/-- LINK_TRAINING_END: the lanes that pass in each direction, and the peer's ID and link. A direction with fewer than four
fails the attempt; a peer with this module's own ID or none puts the link DOWN with 0x0406 (R271, R283). -/
def execLinkTrainingEnd (link : Fin 36) (txMask rxMask : BitVec 10) (peer : BitVec 12) (peerLink : Fin 36) (s : State) : Out :=
  .next (
    let n := link.val
    let l := s.link n
    if !(l.mode == .retrain || (l.mode == .training && !l.waiting)) then s
    else if (lanesOf txMask).length < 4 ∨ (lanesOf rxMask).length < 4 then s.trainFail n
    else if peer.toNat = s.moduleId ∨ peer.toNat = 0xFFF then s.linkDown n 0x06
    else s.trainDone n (lanesOf txMask) (lanesOf rxMask) peer.toNat peerLink.val)

/-- A failing lane of a direction is replaced by a spare; with none left the direction drops to logical lanes 0 to 3 and the
link is DEGRADED (R272). -/
def State.spareLane (s : State) (n : Nat) (transmit : Bool) (lane : Nat) : State :=
    let l := s.link n
    let lanes := if transmit then l.txLanes else l.rxLanes
    if !s.linkUp n || lanes.length != 8 || !lanes.contains lane then s
    else match (if transmit then l.txSpares else l.rxSpares) with
    | p :: rest =>
      let lanes := moveLane lanes lane p
      let l := if transmit then { l with txLanes := lanes, txSpares := rest }
        else { l with rxLanes := lanes, rxSpares := rest, spareDue := some lane }
      let t := (s.setLink n l).log 0x40 0 4 (n * 32 + (if transmit then 0 else 16) + lane) rest.length
      (t.ownerEvent 3).ownerEvent 4
    | [] =>
      let lanes := lowLanes lanes lane
      let l := if transmit then { l with txLanes := lanes } else { l with rxLanes := lanes }
      (s.setLink n { l with mode := .degraded }).logDegraded n

/-- LANE_SPARE: the peer's receiver named the lane in an IDLE baton; or this module's receiver spares a lane that lost lock,
or whose corrected ratio passed its bound. The symbols it corrected on the lane count in LK_FEC_CORR (R272). -/
def execLaneSpare (link : Fin 36) (lane : Fin 10) (why : LaneCause) (s : State) : Out :=
  .next (
    let n := link.val
    match why with
    | .named => s.spareLane n true lane
    | .lockLost => s.spareLane n false lane
    | .counts ms =>
      if !s.linkUp n then s else
      let t := s.addSat (linkBase n + 0x1C) (sumNat ms)
      if ratioOver ms then t.spareLane n false lane else t)

/-- LINK_RETRAIN (R273). -/
def execLinkRetrain (link : Fin 36) (s : State) : Out :=
  .next (if s.linkUp link.val then s.linkRetrain link.val else s)

/-! ### The sender (R276, R277, R279, R281) -/

/-- Whether batons flow on a link. -/
def State.linkFlows (s : State) (n : Nat) : Bool := s.linkUp n || (s.link n).mode == .loopback

/-- What a baton slot carries. -/
inductive SlotPick where
  | resend
  | sprint (b : BatonWord)
  | nak
  | mgmt (b : BatonWord)
  | collective (b : BatonWord)
  | bulk (b : BatonWord)
  | idle
  deriving DecidableEq, Repr

/-- The first baton of a queue whose class holds a credit, while the replay buffer has room (R276, R279). -/
def Link.ready (l : Link) (q : List BatonWord) : Option BatonWord :=
  if 1024 ≤ l.replay.length then none
  else q.find? fun b => decide (0 < tget l.credits (batVc b * 2 + batClass b) 0)

/-- Collective and bulk by weighted round robin: which of the two goes (LK_ARB). -/
def Link.roundRobin (l : Link) (wc : Nat) : SlotPick :=
  match l.ready l.collective, l.ready l.bulk with
  | some c, some b => if l.turn < wc then .collective c else .bulk b
  | some c, none => .collective c
  | none, some b => .bulk b
  | none, none =>
    match l.ready (l.mgmt.map Prod.fst) with
    | some m => .mgmt m
    | none => .idle

/-- The choice of R281; batons that await resending keep their order before every other (R276). -/
def Link.pick (l : Link) (wc : Nat) : SlotPick :=
  if 64 ≤ l.idleSlots then .idle
  else if 0 < l.resend then .resend
  else match l.ready l.sprint with
  | some b => .sprint b
  | none =>
    if l.nakDue then .nak
    else match l.ready ((l.mgmt.filter fun p => decide (256 ≤ p.2)).map Prod.fst) with
      | some b => .mgmt b
      | none => l.roundRobin wc

/-- A credit field for `n` slots of a channel's class (Table 10.4). -/
def creditField (k n : Nat) : Nat := k / 2 * 64 + k % 2 * 32 + n

/-- Up to two credit returns, and what stays due. -/
def takeDue : Tab Nat → Nat × Nat × Tab Nat
  | [] => (0, 0, [])
  | (k, n) :: r =>
    let c := min n 31
    let rest := if n ≤ 31 then r else (k, n - 31) :: r
    match rest with
    | [] => (creditField k c, 0, [])
    | (j, m) :: q =>
      let d := min m 31
      (creditField k c, creditField j d, if m ≤ 31 then q else (j, m - 31) :: q)

/-- A fresh baton put on the lanes with the acks and credits that are due. -/
def Link.put (l : Link) (b : BatonWord) (seq : Nat) : Link × BatonWord :=
  let (c1, c2, due) := takeDue l.creditDue
  let w := sealBaton b c1 c2 ((l.expect + 4095) % 4096) seq
  ({ l with creditDue := due, ackDue := false, idleSlots := 0, sent := some w }, w)

/-- A sequenced baton sent: it takes a credit and a place in the replay buffer (R276, R279). -/
def Link.sendSeq (l : Link) (b : BatonWord) : Link :=
  let k := batVc b * 2 + batClass b
  let (l, w) := l.put b l.nextSeq
  { l with
    credits := tput l.credits k (tget l.credits k 0 - 1) 0
    replay := l.replay ++ [⟨l.nextSeq, w, 0⟩]
    nextSeq := (l.nextSeq + 1) % 4096 }

/-- The oldest baton that awaits resending goes again, same number, same bytes (R276). -/
def Link.replayOne (l : Link) : Link :=
  let i := l.replay.length - l.resend
  { l with
    sent := (l.replay[i]?).map Replay.baton
    replay := l.replay.zipIdx.map fun p => if p.2 = i then { p.1 with replays := p.1.replays + 1 } else p.1
    resend := l.resend - 1
    idleSlots := if l.ackDue || l.creditDue != [] then l.idleSlots + 1 else 0 }

/-- IDLE and NAK (R275). -/
def unsequenced (kind : Nat) : BatonWord := BatonParts.word ⟨kind, 0, false, 0, 0, 0, 0, 0, 0, 0, 0, []⟩

/-- The link after one baton slot. -/
def Link.slot (l : Link) (wc wb : Nat) : Link :=
  let m := { l with mgmt := l.mgmt.map fun (p : BatonWord × Nat) => (p.1, p.2 + 1) }
  match l.pick wc with
  | .resend => m.replayOne
  | .sprint b => { m.sendSeq b with sprint := l.sprint.erase b }
  | .nak => { (m.put (unsequenced 1) 0).1 with nakDue := false }
  | .mgmt b => { m.sendSeq b with mgmt := m.mgmt.eraseP fun p => p.1 == b }
  | .collective b => { m.sendSeq b with
      collective := l.collective.erase b
      turn := if l.turn < wc then (l.turn + 1) % (wc + wb) else 1 }
  | .bulk b => { m.sendSeq b with
      bulk := l.bulk.erase b
      turn := if wc ≤ l.turn then (l.turn + 1) % (wc + wb) else (wc + 1) % (wc + wb) }
  | .idle => { (m.put (unsequenced 0) 0).1 with spareDue := none }

/-- BATON_SLOT: one baton goes onto the lanes; its eighth replay starts a retrain (R277, R281). -/
def execBatonSlot (link : Fin 36) (s : State) : Out :=
  .next (
    let n := link.val
    let l := s.link n
    if !s.linkFlows n then s else
    let arb := s.reg 0x20000C
    let pick := l.pick (bits arb 7 0)
    let t := s.setLink n (l.slot (bits arb 7 0) (bits arb 15 8))
    match pick with
    | .resend =>
      let t := t.addSat (linkBase n + 0x14) 1
      if (t.link n).replay.any fun r => decide (8 ≤ r.replays) then
        (t.setLink n { t.link n with replay := (t.link n).replay.map fun r => { r with replays := 0 } }).linkRetrain n
      else t
    | .nak | .idle => t.refill n
    | _ => (t.addWrap (linkBase n + 0x0C) 1).refill n)

/-- REPLAY_TIMEOUT: the acknowledgement has not advanced; the sender resends from the oldest baton (R276). -/
def execReplayTimeout (link : Fin 36) (s : State) : Out :=
  .next (
    let l := s.link link.val
    if s.linkFlows link.val && l.replay != [] then s.setLink link.val { l with resend := l.replay.length } else s)

/-! ### The receiver (R276, R279) -/

/-- Credits a baton returns (Table 10.4). -/
def Link.addCredit (l : Link) (f : Nat) : Link :=
  let k := bits f 7 6 * 2 + bits f 5 5
  { l with credits := tput l.credits k (min (vcSlots k) (tget l.credits k 0 + bits f 4 0)) 0 }

/-- The batons an ack covers leave the replay buffer (R276). -/
def Link.acked (l : Link) (a : Nat) : Link :=
  if l.replay.any fun r => r.seq == a then
    let rest := (l.replay.dropWhile fun r => r.seq != a).drop 1
    { l with replay := rest, resend := min l.resend rest.length }
  else l

/-- The acks and credits of a baton (R276, R279). -/
def Link.hear (l : Link) (b : BatonWord) : Link := ((l.acked (batAck b)).addCredit (batCredit1 b)).addCredit (batCredit2 b)

/-- Batons of a group's REDUCE (R305). -/
def Group.reduceBatons (g : Group) (m : Message) : Nat := cdiv m.cap (linkEntries m.fmt g.packed)

/-- Whether a link still holds a REDUCE baton of a message that its peer has not accepted (R306). -/
def Link.holdsReduce (l : Link) (g : Group) (m : Message) : Bool :=
  let is_ := fun b => batKind b == 5 && batTag b == g.gid && redGen b == g.gen % 16384 && redMsg b == m.number % 16
  l.collective.any is_ || l.replay.any fun r => is_ r.baton

/-- The status with which a finished REDUCE completes (R305, R325). -/
def State.reduceStatus (s : State) (m : Message) : Nat :=
  if m.dup then 0x0414
  else match s.cmd? m.cmd with
    | some c => if c.result ≠ 0 ∧ collDropFail c.ext then 0x0507 else 0
    | none => 0

/-- A member's REDUCE completes when every baton of its message has been accepted by its parent (R306). -/
def State.checkReduce (s : State) (cx gi : Nat) : State :=
  let g := s.group cx gi
  match g.parent, g.msgs.find? fun m => m.op == 1 with
  | some p, some m =>
    if m.emitted < g.reduceBatons m || (s.link p.2).holdsReduce g m then s else
    let st := s.reduceStatus m
    let drops := ((s.cmd? m.cmd).map Cmd.result).getD 0
    (s.endMessage cx gi m st false).finish m.cmd st drops
  | _, _ => s

/-- Every REDUCE whose batons left by a link. -/
def State.checkReduces (s : State) (n : Nat) : State :=
  s.groupKeys.foldl (fun t k =>
    match (t.group k.1 k.2).parent with
    | some p => if p.2 = n then t.checkReduce k.1 k.2 else t
    | none => t) s

/-- Whether a baton arrives at a link: it carries batons; in LOOPBACK it takes the module's own last one (Table 10.2). -/
def State.arrives (s : State) (n : Nat) (b : BatonWord) : Bool :=
  s.linkUp n || ((s.link n).mode == .loopback && (s.link n).sent == some b)

/-- A sequenced baton with a good CRC arrives: accepted where it has the expected number, its slot freed and its credit
due back; discarded else (R276, R279, R280). The second part says whether it was accepted. -/
def State.accept (s : State) (n : Nat) (b : BatonWord) : State × Bool :=
  let l := s.link n
  if !s.arrives n b then (s, false)
  else if batSeq b ≠ l.expect then (s.setLink n { l with ackDue := true }, false)
  else
    let k := batVc b * 2 + batClass b
    let l := l.hear b
    let t := s.setLink n { l with
      expect := (l.expect + 1) % 4096
      nakSent := false
      ackDue := true
      creditDue := tput l.creditDue k (tget l.creditDue k 0 + 1) 0 }
    ((t.addWrap (linkBase n + 0x10) 1).checkReduces n, true)

/-- A baton row: without a baton of its kind it is no step of the table. -/
def batonRow (mnemonic : String) (k : Nat) (b : BatonWord) (f : State) : Out :=
  if batonIs k b then .next f else .fault (.illFormed mnemonic)

/-- A sequenced baton row: `f` is what is done with an accepted baton. -/
def seqRow (mnemonic : String) (k : Nat) (link : Nat) (b : BatonWord) (s : State) (f : State → State) : Out :=
  batonRow mnemonic k b (
    let (t, ok) := s.accept link b
    if ok then f t else t)

/-- IDLE_BATON: acks and credits only (R275). -/
def execIdleBaton (link : Fin 36) (baton : BatonWord) (s : State) : Out :=
  batonRow "IDLE_BATON" 0 baton (
    let n := link.val
    if s.arrives n baton then (s.setLink n ((s.link n).hear baton)).checkReduces n else s)

/-- NAK_BATON: the sender replays from ack + 1 (R275, R276). -/
def execNakBaton (link : Fin 36) (baton : BatonWord) (s : State) : Out :=
  batonRow "NAK_BATON" 1 baton (
    let n := link.val
    if s.arrives n baton then
      let l := (s.link n).hear baton
      (s.setLink n { l with resend := l.replay.length }).checkReduces n
    else s)

/-- BATON_CRC_FAILURE: the baton is discarded, and one NAK is due for the expected number; the codewords that carried it and
were uncorrectable count in LK_FEC_UNCORR (R267, R275, R276). -/
def execBatonCrcFailure (link : Fin 36) (baton : DamagedBaton) (s : State) : Out :=
  if crcGood baton.baton then .fault (.illFormed "BATON_CRC_FAILURE") else
  .next (
    let n := link.val
    let l := s.link n
    if !s.arrives n baton.baton then s else
    let t := (s.addSat (linkBase n + 0x18) 1).addSat (linkBase n + 0x20) baton.codewords
    if l.nakSent then t else t.setLink n { l with nakDue := true, nakSent := true })

/-- MALFORMED_BATON: accepted into the sequence, its credit returned, counted and discarded (R275). -/
def execMalformedBaton (link : Fin 36) (baton : BatonWord) (s : State) : Out :=
  if !crcGood baton || !malformed baton then .fault (.illFormed "MALFORMED_BATON") else
  .next (
    let n := link.val
    if batKind baton ≤ 1 then (if s.arrives n baton then s.addSat (linkBase n + 0x24) 1 else s)
    else
      let (t, ok) := s.accept n baton
      if ok then t.addSat (linkBase n + 0x24) 1 else t)

/-! ### Routed kinds (R284 to R286) -/

/-- A routed baton is discarded: LK_DISCARD counts it, and the source of a BULK baton hears UNREACH with 0x0402 (R284). -/
def State.discard (s : State) (b : BatonWord) : State :=
  let t := s.addSat 0x200014 1
  if batKind b = 2 then t.routeReply 4 (batSrc b) (batTag b) 0x0402 else t

/-- A routed baton for another module (R284). -/
def State.forward (s : State) (link : Nat) (b : BatonWord) : State :=
  if batHops b ≤ 1 then s.discard b else
  match s.route (some link) (setBat b 67 62 (batHops b - 1)) with
  | some (t, _) => t
  | none => s.discard b

/-- The rank that places a page first written from outside the fields: the page's deciding rank (R240). -/
def placeRank (va : Nat) : Nat := va / 2097152 % 75

/-- Freeing entries under a range whose reclaim is due are reclaimed before a landing (R190, R195, R280). -/
def State.reclaimUnder (s : State) (cx va n : Nat) : State :=
  (segsOf va n).foldl (fun t p =>
    match t.space cx p.1 with
    | .region q o =>
      let i := o / t.frameBytes
      let e := t.kvEntry q i
      if kvValid e && kvFreeing e && !before (t.issueOf (landingId cx) q) (kvFree e) then t.reclaimEntry q i else t
    | _ => t) s

/-- Whether a landing would lie on an entry that is freeing and cannot be reclaimed yet. A landing never waits (R280), so it is
refused. -/
def State.landBlocked (s : State) (cx va n : Nat) : Bool :=
  (segsOf va n).any fun p =>
    match s.space cx p.1 with
    | .region q o =>
      let i := o / s.frameBytes
      kvValid (s.kvEntry q i) && !s.kvLive (landingId cx) q i
    | _ => false

/-- The bytes of a landing that an allocation of the table covers and that a failed transfer has left undefined: those of the
batons below `top` (R285). -/
def State.landHavoc (s : State) (tag top : Nat) : State :=
  let i := tag % 256
  let c := s.reg (landBase i)
  let va := s.reg (landBase i + 4) + 4294967296 * s.reg (landBase i + 8)
  if bit c 0 then s.cvaHavoc (landingId (bits c 4 1)) va (min (256 * top) (s.reg (landBase i + 12) * 256)) else s

/-- The bytes of a BULK baton land through the landing table: the state, and the lower byte of a failure (R280, R286). -/
def State.land (s : State) (b : BatonWord) : State × Nat :=
  let i := batTag b % 256
  let c := s.reg (landBase i)
  let cx := bits c 4 1
  let at_ := batOffset b * 256
  let n := min 256 (bits (batDetail b) 8 0)
  let va := s.reg (landBase i + 4) + 4294967296 * s.reg (landBase i + 8) + at_
  if !bit c 0 || (!bit c 5 && bits c 27 16 != batSrc b) || decide (s.reg (landBase i + 12) * 256 < at_ + n) then (s, 0x03)
  else
    let t := s.reclaimUnder cx va n
    if t.landBlocked cx va n then (t, 0x03) else
    let (u, st) := t.cvaWrite (landingId cx) (placeRank va) va (clean ((batPayload b).take n))
    if st = 0x030A ∨ u.tiers.heldWrites.length ≠ t.tiers.heldWrites.length then (t, 0x05)
    else if st ≠ 0 then (t, 0x03)
    else (u, 0)

/-- What has arrived of a transfer. -/
def State.landing (s : State) (src tag : Nat) : Landing := tget s.links.landings (65536 * src + tag) ⟨0, 0, 0, 0⟩

def State.setLanding (s : State) (src tag : Nat) (v : Landing) : State :=
  { s with links := { s.links with landings := tput s.links.landings (65536 * src + tag) v ⟨0, 0, 0, 0⟩ } }

/-- The baton of offset 0 begins a transfer: what is left of an earlier one that failed on its way is undefined (R285). -/
def State.landStart (s : State) (b : BatonWord) : State :=
  let l := s.landing (batSrc b) (batTag b)
  if batOffset b = 0 ∧ l.count ≠ 0 then (s.landHavoc (batTag b) l.top).setLanding (batSrc b) (batTag b) ⟨0, 0, 0, 0⟩ else s

/-- DONE goes back to the source; after a success only once the bytes are written (R192, R285). -/
def State.sendDone (s : State) (cx src tag status : Nat) : State :=
  if status = 0 ∧ s.writesDue (landingId cx) then
    { s with links := { s.links with dones := s.links.dones ++ [⟨cx, src, tag, status⟩] } }
  else s.routeReply 3 src tag status

/-- A BULK baton at its destination; DONE goes back once every baton of the transfer has arrived. The bytes of a transfer
that failed are undefined. LK_DISCARD counts a baton that R286 discards (R285, R286). -/
def State.bulkHere (s : State) (b : BatonWord) : State :=
  let (t, st) := (s.landStart b).land b
  let t := if st = 0x03 then t.addSat 0x200014 1 else t
  let l := t.landing (batSrc b) (batTag b)
  let l : Landing := ⟨l.count + 1, if batLast b then batOffset b + 1 else l.total, if l.status = 0 then st else l.status,
    max l.top (batOffset b + 1)⟩
  if l.total ≠ 0 ∧ l.total ≤ l.count then
    let t := t.setLanding (batSrc b) (batTag b) ⟨0, 0, 0, 0⟩
    let t := if l.status = 0 then t else t.landHavoc (batTag b) l.top
    t.sendDone (bits (t.reg (landBase (batTag b % 256))) 4 1) (batSrc b) (batTag b) l.status
  else t.setLanding (batSrc b) (batTag b) l

/-- BULK_BATON (R284, R286). -/
def execBulkBaton (link : Fin 36) (baton : BatonWord) (s : State) : Out :=
  seqRow "BULK_BATON" 2 link.val baton s fun t =>
    if batDst baton = t.moduleId then t.bulkHere baton else t.forward link.val baton

/-- A bulk transfer of this module ends with a status (R285). -/
def State.bulkEnd (s : State) (which : Bulk → Bool) (status : Nat) : State :=
  match s.links.bulks.find? which with
  | none => s
  | some b =>
    let moved := match s.cmd? b.cmd with | some c => fld c.desc 351 320 | none => 0
    ({ s with links := { s.links with bulks := s.links.bulks.filter fun x => x != b } } : State).finish b.cmd status
      (if status = 0 then moved else 0)

/-- DONE_BATON: the transfer's command completes with the status it carries (R285). -/
def execDoneBaton (link : Fin 36) (baton : BatonWord) (s : State) : Out :=
  seqRow "DONE_BATON" 3 link.val baton s fun t =>
    if batDst baton ≠ t.moduleId then t.forward link.val baton else
    let st := bits (batDetail baton) 7 0
    t.bulkEnd (fun b => b.dst == batSrc baton && b.tag == batTag baton) (if st = 0 then 0 else 0x0400 + st)

/-- UNREACH_BATON: the module that discarded the baton need not be the destination, so the tag alone names the transfer
(R284, R285). -/
def execUnreachBaton (link : Fin 36) (baton : BatonWord) (s : State) : Out :=
  seqRow "UNREACH_BATON" 4 link.val baton s fun t =>
    if batDst baton ≠ t.moduleId then t.forward link.val baton else
    t.bulkEnd (fun b => b.tag == batTag baton) (bits (batDetail baton) 15 0)

/-- MGMT_BATON: kept for the management controller, or routed onwards (R275, R284). -/
def execMgmtBaton (link : Fin 36) (baton : BatonWord) (s : State) : Out :=
  seqRow "MGMT_BATON" 8 link.val baton s fun t =>
    if batDst baton = t.moduleId then { t with links := { t.links with mgmtIn := t.links.mgmtIn ++ [baton] } }
    else t.forward link.val baton

/-- LK_ERR_CLEAR: a write of 1 clears a link's error counters (R295). -/
def execLkErrClear (w : Writer) (link : Fin 36) (v : Word) (s : State) : Out :=
  .next (s.guarded w (linkBase link.val + 0x34) v.toNat fun t =>
    if flag v 0 then [0x14, 0x18, 0x1C, 0x20, 0x24].foldl (fun u o => u.setReg (linkBase link.val + o) 0) t else t)

end Sys2Proof.Machine
end

