-- ==== Sys2Proof/Machine/Collective.lean ====
section
/-!
DEFINITION. Groups, reduce-to-one, broadcast and sprint (chapter 11).
-/

namespace Sys2Proof.Machine

open Sys2Proof

/-! ### Formation (R297 to R302) -/

/-- Header fields of a group record (Table 11.2). -/
def grpTimeout (h : Nat) : Nat := bits h 95 72
def grpWindow (h : Nat) : Nat := bits h 71 64
def grpPinned (h : Nat) : Bool := bit h 61
def grpMembers (h : Nat) : Nat := bits h 60 48
def grpGen (h : Nat) : Nat := bits h 47 16
def grpGid (h : Nat) : Nat := bits h 15 0

/-- A member entry (Table 11.3). -/
def memberOf (e : Nat) : Member := ⟨bits e 11 0, bits e 23 12, bits e 29 24⟩

/-- The members of a record's entries. -/
def membersOf (n : Nat) (l : List Byte) : List Member := (List.range n).map fun i => memberOf (ofBytes ((l.drop (8 * i)).take 8))

/-- Whether a header or a list of member entries breaks Tables 11.2 and 11.3 or the tree rules of R298. -/
def recordBad (own h : Nat) (entries : List Byte) (ms : List Member) : Bool :=
  bits h 511 96 != 0 || bits h 63 62 != 0 || decide (grpTimeout h < 10) || decide (10000000 < grpTimeout h) ||
    grpWindow h % 8 != 0 || decide (grpWindow h < 8) || decide (64 < grpWindow h) ||
    grpMembers h == 0 || decide (4096 < grpMembers h) ||
    ((List.range ms.length).any fun i => bits (ofBytes ((entries.drop (8 * i)).take 8)) 63 30 != 0) ||
    !decide (ms.map Member.module).Nodup || (ms.filter fun m => m.module == own).length != 1 ||
    ms.zipIdx.any fun p =>
      if p.2 = 0 then p.1.parent != 0xFFF || p.1.upLink != 0 else decide (p.2 ≤ p.1.parent) || decide (35 < p.1.upLink)

/-- The link whose peer is a module's link, among those in service. -/
def State.linkTo (s : State) (m up : Nat) : Option Nat :=
  (List.range 36).find? fun n => s.linkUp n && (s.link n).peer == some (m, up)

/-- This member's index, and its children with their links; none where R298's link conditions fail. -/
def State.treePlace (s : State) (ms : List Member) : Option (Nat × List (Nat × Nat)) :=
  let self := (ms.findIdx? fun m => m.module == s.moduleId).getD 0
  let me := ms.getD self ⟨0, 0, 0⟩
  let up := self == 0 || (s.linkUp me.upLink &&
    ((s.link me.upLink).peer.map Prod.fst) == some (ms.getD me.parent ⟨0xFFFF, 0, 0⟩).module)
  let kids := ms.zipIdx.filter fun p => p.2 != 0 && p.1.parent == self
  let links := kids.map fun p => (p.2, s.linkTo p.1.module p.1.upLink)
  if up && links.all (fun p => p.2.isSome) then some (self, links.map fun p => (p.1, p.2.getD 0)) else none

/-- The interface that holds a member's staging, and its bytes (R299). -/
def stagingOf (ms : List Member) (self : Nat) (kids : List (Nat × Nat)) (window : Nat) : Nat × Nat :=
  let need := (kids.length + 1) * window * 256
  if self = 0 then
    (match kids.map Prod.snd with
    | [] => (0, 0)
    | a :: r => (r.foldl min a, need))
  else ((ms.getD self ⟨0, 0, 0⟩).upLink, need)

/-- Form-up from every child: this member's form-up goes to its parent; at member 0 go-down starts and the group is ACTIVE
(R300). -/
def State.formStep (s : State) (cx gi : Nat) : State :=
  let g := s.group cx gi
  if g.mode ≠ .forming ∨ !(g.kids.all fun k => g.formUps.contains k.1) then s else
  match g.parent with
  | some p => s.control g p 1 0 g.digest
  | none =>
    let t := g.kids.foldl (fun t k => t.control g k 2 0 [0]) s
    let t := t.setGroup cx gi { t.group cx gi with mode := .active, cmd := none }
    match g.cmd with
    | some id => t.finish id 0 0
    | none => t

/-- A record that passes takes its table entry: staging is set aside and formation starts (R299, R300). -/
def State.startForm (s : State) (id : CmdId) (cx gi h : Nat) (ms : List Member) (self : Nat) (kids : List (Nat × Nat))
    (iface staged : Nat) (digest : List Byte) : State :=
  let t : State := { s with links := { s.links with
    stagingUsed := tput s.links.stagingUsed iface (tget s.links.stagingUsed iface 0 + staged) 0 } }
  (t.setGroup cx gi { Group.empty with
    mode := .forming
    gid := grpGid h
    gen := grpGen h
    pinned := grpPinned h
    window := grpWindow h
    timeout := grpTimeout h
    members := ms
    self := self
    kids := kids
    iface := iface
    staged := staged
    digest := digest
    cmd := some id }).formStep cx gi

/-- Whether a live or BROKEN group other than one holds a gid (R298). -/
def State.gidHeld (s : State) (cx gi gid : Nat) : Bool :=
  s.groupKeys.any fun k =>
    let g := s.group k.1 k.2
    (g.live || g.mode == .broken) && g.gid == gid && k != (cx, gi)

/-- Pinned groups of a context beside one entry. -/
def State.pinnedGroups (s : State) (cx gi : Nat) : Nat :=
  ((List.range 64).filter fun i => i != gi && (s.group cx i).mode != .free && (s.group cx i).pinned).length

/-- Whether the record of a FORM, REFORM or FREE breaks R303: a reserved field, a reserved kind, or a link format, which
those ops have no use for. -/
def formBad (x : Line) : Bool := fld x 255 8 != 0 || collSrcKind x == 3 || collFmt x != 0

/-- FORM and REFORM: the record is read and checked (R298 to R301). -/
def State.formRun (again : Bool) (s : State) (id : CmdId) (c : Cmd) : State :=
  let x := c.ext
  let cx := id.cx
  let gi := collGroup x
  let g := s.group cx gi
  if formBad x then s.finish id 0x0501 0
  else if again ∧ (g.pinned ∨ !(g.mode == .active || g.mode == .broken)) then s.finish id 0x0506 0
  else
  let (st, head) := s.cvaRead id (collSrcVa x) 64
  let h := ofBytes (unmark head)
  let n := min (grpMembers h) 4096
  let (st2, body) := s.cvaRead id (collSrcVa x + 64) (8 * n)
  let raw := unmark head ++ unmark body
  let ms := membersOf n (unmark body)
  if st = 0x030A ∨ (st = 0 ∧ st2 = 0x030A) then s.finish id 0x030A 0
  else if st ≠ 0 ∨ st2 ≠ 0 then s.finish id 0x050A 0
  else if anyPoison head || anyPoison body then s.consumePoison id
  else if again ∧ (grpGen h ≠ wrap32 (g.gen + 1) ∨ ms = g.members) then s.finish id 0x0506 0
  else if recordBad s.moduleId h (unmark body) ms then s.finish id 0x0503 0
  else
  match s.treePlace ms with
  | none => s.finish id 0x0503 0
  | some (self, kids) =>
    if (!again && g.mode != .free) || (grpPinned h && decide (4 ≤ s.pinnedGroups cx gi)) then s.finish id 0x050C 0
    else if s.gidHeld cx gi (grpGid h) then s.finish id 0x050F 0
    else
      let (iface, need) := stagingOf ms self kids (grpWindow h)
      let back := if again && g.iface == iface then g.staged else 0
      if 4194304 < tget s.links.stagingUsed iface 0 - back + need then s.finish id 0x0504 0
      else
        let t := if again then (s.unbindGroup cx gi).returnStaging cx gi else s
        t.startForm id cx gi h ms self kids iface need (sha256 raw)

/-- The ranges of addresses a collective command uses, which pin their sequences (R188). -/
def collPins (cx : Nat) (s : State) (c : Cmd) : List Nat :=
  let x := c.ext
  let op := collOp x
  if op = 0x10 ∨ op = 0x11 then s.pinsOf cx [(collSrcVa x, 64 + 8 * 4096)]
  else if op = 1 then
    let err := if collSrcKind x = 1 then [(s.streamErr (collStream x), 4 * collCap x)] else []
    s.pinsOf cx ((if collSrcKind x = 0 then [(collSrcVa x, 4 * collCap x)] else []) ++ [(collDstVa x, 4 * collCap x)] ++ err)
  else if collSrcKind x = 0 then s.pinsOf cx [(collSrcVa x, collCap x)] else []

/-- Whether a collective op is one of Table 11.4. -/
def collNamed (op : Nat) : Bool := (decide (1 ≤ op) && decide (op ≤ 3)) || (decide (0x10 ≤ op) && decide (op ≤ 0x12))

/-- A collective command of an op at the head of the collective ring, or one of a reserved op, which every row of the family
turns away with 0x0501 (R303). -/
def State.collRun (s : State) (cx op : Nat) (run : State → CmdId → Cmd → State) : State :=
  s.issueHead cx 2 (fun c => wantKind 0x20 c && (collOp c.ext == op || !collNamed (collOp c.ext))) (collPins cx) fun t id c =>
    if collNamed (collOp c.ext) then run t id c else t.finish id 0x0501 0

/-- FORM (R298). -/
def execForm (cx : Fin 16) (s : State) : Out := .next (s.collRun cx 0x10 (State.formRun false))

/-- REFORM (R301). -/
def execReform (cx : Fin 16) (s : State) : Out := .next (s.collRun cx 0x11 (State.formRun true))

/-- FREE: no command of the group is outstanding, since the ring runs one at a time; staging and streams return and the
entry clears (R302, R322). -/
def execGroupFree (cx : Fin 16) (s : State) : Out :=
  .next (s.collRun cx 0x12 fun t id c =>
    let gi := collGroup c.ext
    if formBad c.ext then t.finish id 0x0501 0 else
    (((t.unbindGroup id.cx gi).returnStaging id.cx gi).setGroup id.cx gi Group.empty).finish id 0 0)

/-! ### Refusals at issue (R303, R331) -/

/-- Whether a REDUCE, BCAST or SPRINT record breaks R303 at this member. -/
def collBad (g : Group) (x : Line) : Bool :=
  let op := collOp x
  let known := g.mode != .free
  let cast_ := op == 2 || op == 3
  if cast_ && known && decide (g.members.length ≤ collOrigin x) then true
  else if cast_ && known && g.self != collOrigin x then op == 3 && (collCap x == 0 || decide (64 < collCap x))
  else
    fld x 255 8 != 0 || collSrcKind x == 3 || shapeBad (collLen x) || (collSrcKind x == 2 && decide (75 ≤ collSrcRank x)) ||
    (if op = 1 then !linkFmt (collFmt x) || (collDstInf x && known && g.self == 0 && decide (75 ≤ collDstRank x))
    else collFmt x != 0 || collSrcKind x == 1 || (decide (75 ≤ collDstRank x) && collDstRank x != 127) ||
      decide (12 < collChunk x) || (op == 3 && (collCap x == 0 || decide (64 < collCap x))))

/-- Whether `n` source bytes of a record lie where the context may read them (R239, R249). -/
def State.collSrcOk (s : State) (id : CmdId) (x : Line) (n : Nat) : Bool :=
  if collSrcKind x = 0 then s.mappedOk id false (collSrcVa x) n == 0
  else if collSrcKind x = 2 then s.bytesOk id.cx false (collSrcLine x * 128) n
  else true

/-- Whether the record's source or destination lies outside what the context may use (R303). -/
def State.collOutside (s : State) (id : CmdId) (g : Group) (x : Line) (own : Nat) : Bool :=
  if collOp x = 1 then
    !s.collSrcOk id x (4 * own) || (g.self == 0 &&
      (if collDstInf x then !s.bytesOk id.cx true (collDstLine x * 128) (4 * collCap x)
      else s.mappedOk id true (collDstVa x) (4 * collCap x) != 0))
  else g.self == collOrigin x &&
    (!s.collSrcOk id x own || !s.bytesOk id.cx true (collDstLine x * 128) (collCap x))

/-- Whether R331 refuses a REDUCE: its error memory cannot be used, or SIGN1 has none. -/
def State.errorRefused (s : State) (id : CmdId) (x : Line) : Bool :=
  let n := collStream x
  let en := collSrcKind x == 1 && s.streamErrEn n
  collOp x == 1 && collFmt x != 0 &&
    (if en then s.mappedOk id true (s.streamErr n) (4 * collCap x) != 0 || !(s.stream n).errValid else collFmt x == 12)

/-- A message starts: L is read, the drops are counted, and what arrived early is taken (R304, R305). -/
def State.startMessage (s : State) (id : CmdId) (c : Cmd) : State × Message :=
  let x := c.ext
  let gi := collGroup x
  let g := s.group id.cx gi
  let away := collOp x != 1 && g.self != collOrigin x
  let l := if away then 0 else s.shape id.cx (collLen x)
  let drop := l - collCap x
  let mine := g.early.filter fun e => e.1 == g.issued % 16
  let ins := mine.filterMap fun e => if batKind e.2.2.2 = 5 then some (e.2.1, batOffset e.2.2.2, e.2.2.2) else none
  let acks := mine.filterMap fun e =>
    if batKind e.2.2.2 = 7 ∧ sprControl e.2.2.2 = 3 then
      let p := ofBytes (batPayload e.2.2.2)
      some (e.2.1, e.2.2.1, bits p 11 0, bits p 27 16 * 64)
    else none
  let landed := mine.filterMap fun e =>
    if batKind e.2.2.2 = 6 ∨ (batKind e.2.2.2 = 7 ∧ sprControl e.2.2.2 = 0) then some (batOffset e.2.2.2) else none
  let m : Message := ⟨id, g.issued, collOp x, collFmt x, collCap x, l, collOrigin x, ins, [], 0, acks, landed, s.nowNs, false,
    g.self, 0, false, 0, [], 0⟩
  let t := s.setGroup id.cx gi { g with
    issued := wrap32 (g.issued + 1)
    msgs := g.msgs ++ [m]
    early := g.early.filter fun e => e.1 != g.issued % 16
    drop := sat32 (g.drop + drop) }
  (t.modCmd id fun d => { d with result := drop }, m)

/-- A collective command of an ACTIVE group at issue: its refusals, then its message. -/
def State.collIssue (s : State) (id : CmdId) (c : Cmd) (run : State → Nat → Message → Line → State) : State :=
  let x := c.ext
  let gi := collGroup x
  let g := s.group id.cx gi
  let own := min (s.shape id.cx (collLen x)) (collCap x)
  if collBad g x then s.finish id 0x0501 0
  else if s.collOutside id g x own then s.finish id 0x050A 0
  else if s.errorRefused id x then s.finish id 0x0411 0
  else if g.mode ≠ .active then s.finish id 0x0502 0
  else
    let (t, m) := s.startMessage id c
    run t gi m x

/-! ### REDUCE (R304 to R306, R313) -/

/-- REDUCE: its message starts; ADDER_SUM does each offset. A message without batons completes at once (R305). -/
def execReduce (cx : Fin 16) (s : State) : Out :=
  .next (s.collRun cx 1 fun t id c => t.collIssue id c fun u gi m _ =>
    let g := u.group cx gi
    if g.reduceBatons m ≠ 0 then u else
    let st := u.reduceStatus m
    (u.endMessage cx gi m st (g.self == 0)).finish id st (((u.cmd? id).map Cmd.result).getD 0))

/-- The local contribution of one baton offset as FP32 words: entries below min(L, cap), +0 beyond. From a stream, none while
it has not delivered all of them; else what was taken into staging with its window (R305, R315, R325). -/
def localPart (x : Line) (m : Message) (o first n : Nat) : Option (Nat × Bool × List Nat) :=
  if collSrcKind x = 1 then
    let k := min n (min m.len m.cap - first)
    let vals := (List.range k).map fun i => (m.localIn.find? fun e => e.1 == first + i).map Prod.snd
    if vals.all Option.isSome then some (0, false, vals.map (fun v => v.getD 0) ++ List.replicate (n - k) 0) else none
  else (m.taken.find? fun e => e.1 == o).map Prod.snd

/-- One offset's source entries taken into staging. -/
def State.takeOffset (s : State) (x : Line) (m : Message) (e o : Nat) : Nat × Nat × Bool × List Nat :=
  let first := o * e
  let n := min e (m.cap - first)
  let k := min n (min m.len m.cap - first)
  let (st, l) := s.collRead m.cmd x (4 * first) (4 * k)
  (o, st, anyPoison l, (List.range k).map (fun i => ofBytes ((unmark l).drop (4 * i) |>.take 4)) ++ List.replicate (n - k) 0)

/-- A window of the local contribution begins: its batons' entries are taken into staging, while the context holds the
fields, and at a member with a parent only when the parent's grant covers the whole window (R288, R315, Table 14.3). -/
def State.takeWindow (s : State) (cx gi : Nat) (x : Line) (m : Message) : State :=
  let g := s.group cx gi
  let o := m.emitted
  let e := linkEntries m.fmt g.packed
  let w := min g.window (g.reduceBatons m - o)
  if collSrcKind x = 1 || m.taken.any (fun p => p.1 == o) || s.sched.holder != some cx then s
  else if g.parent.isSome && decide (g.window + m.granted < o + w) then s
  else
    let own := min m.len m.cap
    let t := s.modMsg cx gi m.number fun y => { y with taken := (List.range w).map fun i => s.takeOffset x m e (o + i) }
    t.collNote m.cmd x (4 * o * e) (4 * (min own ((o + w) * e) - o * e))

/-- The children's batons of one offset, in ascending member index; none while one is missing (R292). -/
def childParts (g : Group) (m : Message) (o : Nat) : Option (List BatonWord) :=
  let l := g.kids.map fun k => (m.inputs.find? fun i => i.1 == k.1 && i.2.1 == o).map fun i => i.2.2
  if l.all Option.isSome then some (l.filterMap id) else none

/-- The node sum of R306 with its flags; a NaN among this member's own entries is the canonical one (R65). -/
def nodeSum (fmt : Nat) (packed : Bool) (n : Nat) (local_ : List Nat) (kids : List BatonWord) : List (Nat × Nat) :=
  kids.foldl (fun acc b => addEntries acc (linkEntriesOf fmt packed b n)) (local_.map fun v => (code32 (ofF32 v), 0))

/-- The error memory of one offset: the entries below min(L, cap), none where it is not used (R330). -/
def State.errorPart (s : State) (x : Line) (m : Message) (first n : Nat) : Nat × Bool × List (Option Nat) :=
  let k := collStream x
  if collSrcKind x = 1 ∧ s.streamErrEn k ∧ m.fmt ≠ 0 then
    let own := min n (min m.len m.cap - first)
    let (st, l) := s.cvaRead m.cmd (s.streamErr k + 4 * first) (4 * own)
    (st, anyPoison l, (List.range n).map fun i => if i < own then some (ofBytes ((unmark l).drop (4 * i) |>.take 4)) else none)
  else (0, false, List.replicate n none)

/-- How long an adder waited for one of its inputs after all others had arrived. -/
def waitFor (arrivals : List Nat) (i : Nat) : Nat := arrivals.getD i 0 - (arrivals.eraseIdx i).foldl max 0

/-- The input that arrived last; of several, the first of them. 0 is the local contribution, i the i-th child. -/
def lastInput (arrivals : List Nat) : Nat :=
  (List.range arrivals.length).foldl (fun b i => if arrivals.getD b 0 < arrivals.getD i 0 then i else b) 0

/-- What R313 records at offset 0: the slowest member and its wait in ns. -/
def slowOf (g : Group) (kids : List BatonWord) (arrivals : List Nat) : Nat × Nat :=
  if kids = [] then (g.self, 0)
  else
    let i := lastInput arrivals
    if i = 0 then (g.self, waitFor arrivals 0)
    else
      let b := kids.getD (i - 1) 0
      (redSlow b, max (waitFor arrivals i) (redSlowWait b * 64))

/-- The split times of offset 0 in the message and the group: the wait for the local contribution, and the longest wait for
a child, which is for the child whose baton came last, with its link (R313, R314). -/
def State.noteSplit (s : State) (cx gi number slow wait : Nat) (arrivals : List Nat) : State :=
  let t := s.modMsg cx gi number fun m => { m with slow := slow, slowWait := wait }
  let g := t.group cx gi
  let kid := lastInput (arrivals.drop 1)
  t.setGroup cx gi { g with
    localWait := sat32 (if g.kids = [] then 0 else waitFor arrivals 0)
    childWait := waitFor arrivals (kid + 1)
    childLink := (g.kids.getD kid (0, 0)).2 }

/-- The baton of one coded sum (Table 11.6). -/
def reduceBaton (s : State) (g : Group) (m : Message) (parent : Nat × Nat) (o n slow wait : Nat) (c : LinkCoded) : BatonWord :=
  BatonParts.word ⟨5, 0, o + 1 == g.reduceBatons m, m.fmt, 0,
    (min 0xFFFF (wait / 64)) * 2 ^ 46 + 2 ^ 34 * (slow % 4096) + 2 ^ 30 * (m.number % 16) + 65536 * (g.gen % 16384) + n,
    g.moduleOf parent.1, s.moduleId, g.gid, o, c.scales, c.payload⟩

/-- Member 0 writes the FP32 sums of an offset to its destination (R306). -/
def State.writeSums (s : State) (id : CmdId) (x : Line) (first : Nat) (l : List Nat) : State × Nat :=
  let b := l.flatMap (toBytes 4)
  if collDstInf x then (s.infWrite (collDstRank x) (collDstLine x * 128 + 4 * first) b, 0)
  else
    let va := collDstVa x + 4 * first
    s.cvaWrite id (placeRank va) va (clean b)

/-- One offset's sum at a member that sends it: coded, with error memory where the stream has it, and queued (R293,
R330). -/
def State.emitSum (s : State) (cx gi : Nat) (x : Line) (m : Message) (parent : Nat × Nat) (o n slow wait : Nat)
    (sums : List Nat) : State :=
  let g := s.group cx gi
  let first := o * linkEntries m.fmt g.packed
  let (st, bad, mem) := s.errorPart x m first n
  if st ≠ 0 then s.failCmd m.cmd st
  else if bad then (s.notePoison cx).failCmd m.cmd 0x0B01
  else
    let v := List.zipWith (withError m.fmt) sums mem
    let c := linkCode m.fmt g.packed (v.map Prod.fst)
    let used := mem.filterMap id
    let fresh := (List.zip (v.map Prod.fst) (List.zip c.decoded c.spoiled)).map fun p => newError p.1 p.2.1 p.2.2
    let va := s.streamErr (collStream x) + 4 * first
    let (t, st) := if used = [] then (s, 0)
      else s.cvaWrite m.cmd (placeRank va) va (clean ((fresh.take used.length).flatMap (toBytes 4)))
    if st ≠ 0 then t.failCmd m.cmd st else
    let fl := v.foldl (fun a p => a ||| p.2) c.flags
    let t := t.raise m.cmd fl
    let t := if used = [] then t else t.noteRead m.cmd true va (4 * used.length)
    let t := t.modMsg cx gi m.number fun y => { y with
      emitted := o + 1, coded := y.coded || used != [], taken := y.taken.filter fun p => p.1 != o }
    (t.sendOn parent.2 (reduceBaton s g m parent o n slow wait c)).checkReduce cx gi

/-- One offset's sum at member 0: written; after the last one the command completes once its writes are visible (R306,
R314). -/
def State.keepSum (s : State) (cx gi : Nat) (x : Line) (m : Message) (o : Nat) (sums : List Nat) : State :=
  let g := s.group cx gi
  let (t, st) := s.writeSums m.cmd x (o * linkEntries m.fmt g.packed) sums
  if st ≠ 0 then t.failCmd m.cmd st else
  let t := t.modMsg cx gi m.number fun y => { y with emitted := o + 1, taken := y.taken.filter fun p => p.1 != o }
  if o + 1 < g.reduceBatons m then t else
  match (t.group cx gi).msgs.find? fun y => y.number == m.number with
  | none => t
  | some y =>
    let st := t.reduceStatus y
    (t.modCmd m.cmd fun c => { c with worked := true, status := st }).workDone m.cmd

/-- The sum of one offset, its inputs at hand. -/
def State.sumOffset (s : State) (cx gi : Nat) (x : Line) (m : Message) (kids : List BatonWord) (local_ : List Nat)
    (arrivals : List Nat) : State :=
  let g := s.group cx gi
  let o := m.emitted
  let r := nodeSum m.fmt g.packed local_.length local_ kids
  let t := s.raise m.cmd (r.foldl (fun a p => a ||| p.2) 0)
  let (slow, wait) := if o = 0 then slowOf g kids arrivals else (m.slow, m.slowWait)
  let t := if o = 0 then t.noteSplit cx gi m.number slow wait arrivals else t
  let t := t.modCmd m.cmd fun c => { c with progress := c.progress + 1 }
  match g.parent with
  | some p => t.emitSum cx gi x m p o local_.length slow wait (r.map Prod.fst)
  | none => t.keepSum cx gi x m o (r.map Prod.fst)

/-- Whether a sum may be sent now: a member with a parent holds a grant for it (R288). -/
def Group.mayEmit (g : Group) (m : Message) : Bool := g.parent.isNone || decide (m.emitted < g.window + m.granted)

/-- ADDER_SUM: the next offset of a running REDUCE, once every input is held: added in tree order, then coded and sent within
the parent's grant, or at member 0 written. `grants` are batons the parent's adder has granted since, and `localNs` and
`childNs` the ns at which the local contribution and the children's batons came (R288, R292, R306, R313). -/
def execAdderSum (cx : Fin 16) (group : Fin 64) (grants : Nat) (localNs : Nat) (childNs : List Nat) (s : State) : Out :=
  .next (
    let s := match (s.group cx group).msgs.find? fun m => m.op == 1 with
      | some m => match s.cmd? m.cmd with
        | some c =>
          let t := s.modMsg cx group m.number fun y => { y with granted := y.granted + grants }
          if (s.group cx group).reduceBatons m ≤ m.emitted then t
          else t.takeWindow cx group c.ext { m with granted := m.granted + grants }
        | none => s
      | none => s
    let g := s.group cx group
    match g.msgs.find? fun m => m.op == 1 with
    | none => s
    | some m =>
      match s.cmd? m.cmd, childParts g m m.emitted with
      | some c, some kids =>
        let e := linkEntries m.fmt g.packed
        let n := min e (m.cap - m.emitted * e)
        if g.mode ≠ .active ∨ g.reduceBatons m ≤ m.emitted ∨ !g.mayEmit m then s else
        match localPart c.ext m m.emitted (m.emitted * e) n with
        | none => s
        | some (st, bad, l) =>
          if st ≠ 0 then s.failCmd m.cmd st
          else if bad then (s.notePoison cx).failCmd m.cmd 0x0B01
          else s.sumOffset cx group c.ext m kids l (localNs :: childNs)
      | _, _ => s)

/-! ### Broadcast and sprint (R308, R310, R317) -/

/-- The neighbour of a member towards another: the child whose subtree holds it, else the parent. -/
def towards (g : Group) : Nat → Nat → Option Nat
  | 0, _ => none
  | fuel + 1, m =>
    if m = g.self then none
    else
      let p := (g.members.getD m ⟨0, 0, 0⟩).parent
      if p = g.self then some m
      else if m = 0 then g.parent.map Prod.fst
      else towards g fuel p

/-- The slowest of a broadcast's inputs: this member's own issue and its ack-ups, as (time, member, wait) (R313). -/
def slowestInput (self issued : Nat) (acks : List (Nat × Nat × Nat × Nat)) : Nat × Nat :=
  let all := (issued, self, 0) :: acks.map fun a => (a.2.1, a.2.2.1, a.2.2.2)
  let last := all.foldl (fun b a => if b.1 < a.1 then a else b) (issued, self, 0)
  let others := (all.erase last).map fun a => a.1
  let second := others.foldl max 0
  (last.2.1, max (if others = [] then 0 else last.1 - second) last.2.2)

/-- A broadcast at this member ends, or sends its ack-up towards the origin, once the whole message has landed, its own
command has issued and its further neighbours have acknowledged (R308). -/
def State.castStep (s : State) (cx gi number : Nat) : State :=
  let g := s.group cx gi
  match g.msgs.find? fun m => m.number == number && m.op != 1 with
  | none => s
  | some m =>
    let up := towards g 4097 m.origin
    let further := g.neighbours.filter fun p => some p.1 != up
    if !(further.all fun p => m.acks.any fun a => a.1 == p.1) then s
    else if g.self ≠ m.origin ∧ m.landed.length < castBatons m then s
    else
      let (slow, wait) := slowestInput g.self m.issuedNs m.acks
      let t := s.modMsg cx gi number fun y => { y with slow := slow, slowWait := wait }
      let m := { m with slow := slow, slowWait := wait }
      let drops := ((t.cmd? m.cmd).map Cmd.result).getD 0
      let st := t.reduceStatus m
      let t := match up.bind fun k => g.neighbours.find? fun p => p.1 == k with
        | some p => t.control g p 3 number (toBytes 4 (slow % 4096 + 65536 * (min 0xFFF (wait / 64))))
        | none => t
      (t.endMessage cx gi m st (g.self == m.origin)).finish m.cmd st drops

/-- One landed baton counted into its arrival bitmap in one rank (R317). -/
def State.countChunk (s : State) (rank bitmap k offset : Nat) (last : Bool) : State :=
  let c := min 4095 (offset / 2 ^ k)
  let key := 1048576 * (rank * 8 + bitmap) + c
  let n := tget s.tiles.chunks key 0 + 1
  let t : State := { s with tiles := { s.tiles with chunks := tput s.tiles.chunks key n 0 } }
  if last || (decide (c < 4095) && n == 2 ^ k) then
    { t with tiles := { t.tiles with arrival := sput t.tiles.arrival (32768 * rank + 4096 * bitmap + c) } }
  else t

/-- The ranks a broadcast lands in: one, or every active rank (R308). -/
def castRanks (r : Nat) : List Nat := if r = 127 then List.range 75 else [r]

/-- A broadcast or sprint payload lands; none where the context may not write there (R308, R317). -/
def State.castLand (s : State) (cx : Nat) (b : BatonWord) : Option State :=
  let wide := batKind b == 6
  let r := if wide then bcRank b else sprRank b
  let n := if wide then min 256 (bcBytes b) else min 64 (sprBytes b)
  let addr := (if wide then bcLine b else sprLine b) * 128 + batOffset b * 256
  if (decide (75 ≤ r) && r != 127) || !s.bytesOk cx true addr n then none else
  some ((castRanks r).foldl (fun t k =>
    let t := t.infWrite k addr ((batPayload b).take n)
    if wide && bcBitmapEn b then t.countChunk k (bcBitmap b) (bcChunk b) (batOffset b) (batLast b) else t) s)

/-- A baton kept for a message whose command has not issued here. -/
def State.keepEarly (s : State) (cx gi msg member : Nat) (b : BatonWord) : State :=
  let g := s.group cx gi
  s.setGroup cx gi { g with early := g.early ++ [(msg, member, s.nowNs, b)] }

/-- The running message that a baton's number modulo 16 names. -/
def Group.msgFor (g : Group) (msg : Nat) : Option Message := g.msgs.find? fun m => m.number % 16 == msg

/-- Whether a landing or an input is of a kind the running message takes; else it belongs to message m + 16 (R309). -/
def Message.takes (m : Message) (b : BatonWord) : Bool :=
  if m.op = 1 then batKind b == 5
  else if m.op = 2 then batKind b == 6 || (batKind b == 7 && sprControl b == 3)
  else batKind b == 7

/-- Whether an early baton of the same kind and offset is held already: one of message m + 16 (R309). -/
def Group.earlyHas (g : Group) (msg : Nat) (member : Option Nat) (b : BatonWord) : Bool :=
  g.early.any fun e => e.1 == msg && batKind e.2.2.2 == batKind b && batOffset e.2.2.2 == batOffset b &&
    (batKind b != 7 || sprControl e.2.2.2 == sprControl b) && (member.isNone || member == some e.2.1)

/-- A BCAST or SPRINT data baton: forwarded unchanged, landed, counted; an overrun or a landing outside the allocations
aborts the group (R294, R308, R309). -/
def State.castArrive (s : State) (cx gi link member msg : Nat) (b : BatonWord) : State :=
  let g := s.group cx gi
  let again := match g.msgFor msg with
    | some m => !m.takes b || m.landed.contains (batOffset b)
    | none => g.earlyHas msg none b
  if again then s.abortGroup cx gi 0x0509 member else
  let t := g.neighbours.foldl (fun t p => if p.2 = link then t else t.sendOn p.2 b) s
  match t.castLand cx b with
  | none => t.abortGroup cx gi 0x050A g.self
  | some u =>
    match g.msgFor msg with
    | some m => (u.modMsg cx gi m.number fun y => { y with landed := y.landed ++ [batOffset b] }).castStep cx gi m.number
    | none => u.keepEarly cx gi msg member b

/-- CL_STALE counts a baton of no live group (R302). -/
def State.stale (s : State) : State := s.addSat 0x220100 1

/-- The live group of a tree baton and the member it came from; stale where there is none. -/
def State.treeBaton (s : State) (link gen : Nat) (b : BatonWord) (f : Nat → Nat → Nat → State) : State :=
  match s.findGroup (batTag b) gen with
  | none => s.stale
  | some k =>
    match (s.group k.1 k.2).across link with
    | none => s.stale
    | some m => f k.1 k.2 m

/-- REDUCE_BATON: into its group's staging (R280, R288); an offset that its child has already sent overruns (R309). -/
def execReduceBaton (link : Fin 36) (baton : BatonWord) (s : State) : Out :=
  seqRow "REDUCE_BATON" 5 link.val baton s fun t =>
    t.treeBaton link (redGen baton) baton fun cx gi member =>
      let g := t.group cx gi
      let msg := redMsg baton
      match g.msgFor msg with
      | some m =>
        if !m.takes baton || (m.inputs.any fun i => i.1 == member && i.2.1 == batOffset baton) then t.abortGroup cx gi 0x0509 member
        else t.modMsg cx gi m.number fun y => { y with inputs := y.inputs ++ [(member, batOffset baton, baton)] }
      | none =>
        if g.earlyHas msg (some member) baton then t.abortGroup cx gi 0x0509 member
        else t.keepEarly cx gi msg member baton

/-- BCAST_BATON (R308). -/
def execBcastBaton (link : Fin 36) (baton : BatonWord) (s : State) : Out :=
  seqRow "BCAST_BATON" 6 link.val baton s fun t =>
    t.treeBaton link (bcGen baton) baton fun cx gi member => t.castArrive cx gi link member (bcMsg baton) baton

/-- A form-up of a child: its digest must be this member's own (R300). -/
def State.formUp (s : State) (cx gi member : Nat) (b : BatonWord) : State :=
  let g := s.group cx gi
  if g.mode ≠ .forming ∨ !(g.kids.any fun k => k.1 == member) then s
  else if (batPayload b).take 32 ≠ g.digest then s.abortGroup cx gi 0x050B member
  else (s.setGroup cx gi { g with formUps := sput g.formUps member }).formStep cx gi

/-- A go-down of the parent: forwarded to the children, and the group is ACTIVE (R300). -/
def State.goDown (s : State) (cx gi member : Nat) : State :=
  let g := s.group cx gi
  if g.mode ≠ .forming ∨ g.parent.map Prod.fst ≠ some member then s else
  let t := g.kids.foldl (fun t k => t.control g k 2 0 [0]) s
  let t := t.setGroup cx gi { t.group cx gi with mode := .active, cmd := none }
  match g.cmd with
  | some id => t.finish id 0 0
  | none => t

/-- An ack-up of a neighbour (R308, R313). -/
def State.ackUp (s : State) (cx gi member : Nat) (b : BatonWord) : State :=
  match (s.group cx gi).msgFor (sprMsg b) with
  | some m =>
    if !m.takes b then s.abortGroup cx gi 0x0509 member else
    let p := ofBytes (batPayload b)
    (s.modMsg cx gi m.number fun y => { y with acks := y.acks ++ [(member, s.nowNs, bits p 11 0, bits p 27 16 * 64)] }).castStep
      cx gi m.number
  | none => s.keepEarly cx gi (sprMsg b) member b

/-- SPRINT_BATON: data, or one of the four controls (R300, R308 to R310). -/
def execSprintBaton (link : Fin 36) (baton : BatonWord) (s : State) : Out :=
  seqRow "SPRINT_BATON" 7 link.val baton s fun t =>
    t.treeBaton link (sprGen baton) baton fun cx gi member =>
      match sprControl baton with
      | 0 => t.castArrive cx gi link member (sprMsg baton) baton
      | 1 => t.formUp cx gi member baton
      | 2 => t.goDown cx gi member
      | 3 => t.ackUp cx gi member baton
      | _ =>
        let p := ofBytes (batPayload baton)
        t.breakGroup cx gi (bits p 15 0) (bits p 27 16) 0x0505 (some (link.val, baton))

/-- BCAST or SPRINT at issue. -/
def State.castRun (s : State) (cx op : Nat) : State :=
  s.collRun cx op fun t id c => t.collIssue id c fun u gi m x =>
    (if (u.group cx gi).self ≠ m.origin then u
    else if op = 3 then u.castStep1 cx gi m.number x 0
    else u.castFill cx gi).castStep cx gi m.number

/-- BCAST (R308). -/
def execBcast (cx : Fin 16) (s : State) : Out := .next (s.castRun cx 2)

/-- SPRINT (R310). -/
def execSprint (cx : Fin 16) (s : State) : Out := .next (s.castRun cx 3)

/-- The member whose input a group waits for (R309). -/
def Group.missing (g : Group) : Option Nat :=
  if g.mode = .forming then
    match g.kids.find? fun k => !g.formUps.contains k.1 with
    | some k => some k.1
    | none => g.parent.map Prod.fst
  else
    match g.msgs with
    | [] => none
    | m :: _ =>
      if m.op = 1 then
        if g.reduceBatons m ≤ m.emitted then none else
        match g.kids.find? fun k => !(m.inputs.any fun i => i.1 == k.1 && i.2.1 == m.emitted) with
        | some k => some k.1
        | none => some g.self
      else
        let up := towards g 4097 m.origin
        if g.self ≠ m.origin ∧ m.landed.length < castBatons m then up
        else ((g.neighbours.filter fun p => some p.1 != up).find? fun p => !(m.acks.any fun a => a.1 == p.1)).map Prod.fst

/-- COLLECTIVE_TIMEOUT: an input has been missing for longer than the group's timeout; the group aborts with 0x0508, naming
the member it comes from (R309). -/
def execCollectiveTimeout (cx : Fin 16) (group : Fin 64) (s : State) : Out :=
  .next (
    let g := s.group cx group
    if !g.live then s else
    match g.missing with
    | some m => s.abortGroup cx group 0x0508 m
    | none => s)

/-! ### Arrival bitmaps and streams (R320, R322, R332) -/

/-- AB_CLEAR: the selected bitmaps of the site's rank are cleared with their chunk counts (R320). -/
def execAbClear (w : Writer) (site : Fin 81) (v : Word) (s : State) : Out :=
  .next (s.guarded w (siteBase site.val + 0x488) v.toNat fun t =>
    match t.rankOf site with
    | none => t
    | some r => iter 8 (fun b u => if flag v b then u.clearBitmap r b else u) t)

/-- Whether a kernel's programs name a stream. -/
def kernelNames (n : Nat) (k : Kernel) : Bool :=
  ((drainsOf k.prog).any fun w => drainLink w && drainStream w == n) ||
    (k.split && drainLink (recReduce k.image.counter) && drainStream (recReduce k.image.counter) == n)

/-- No command names a stream (R341). -/
def State.streamIdle (s : State) (n : Nat) : Bool :=
  (s.tiles.kernels.all fun p => match p.2 with | some k => !kernelNames n k | none => true) && s.outstanding.all fun i => match s.cmd? i with
    | some c => !(reduceFrom n c)
    | none => true

/-- Why a binding is refused, if it is (R322). -/
def State.bindOk (s : State) (cx gi span : Nat) : Bool :=
  let g := s.group cx gi
  g.mode == .active && decide (1 < g.members.length) &&
    decide (tget s.links.assemblyUsed g.iface 0 + 16384 * span ≤ 8388608)

/-- ST_CTRL takes a value: enable set binds the stream, clear unbinds it (R322). -/
def State.streamCtrl (s : State) (n v : Nat) : State :=
  let t := s.unbindStream n
  let k := streamBase n
  let v := t.clampReg k (v &&& 0x3FF0FFF)
  let span := bits v 25 16
  let g := t.group (bits v 4 1) (bits v 10 5)
  if !bit v 0 then t.setReg k v
  else if t.bindOk (bits v 4 1) (bits v 10 5) span then
    let u : State := { t with links := { t.links with
      assemblyUsed := tput t.links.assemblyUsed g.iface (tget t.links.assemblyUsed g.iface 0 + 16384 * span) 0 } }
    (u.setReg k v).setStream n ⟨true, g.iface, false, 0, 0, 0⟩
  else (t.setReg k (setFld v 0 0 0)).setStream n { t.stream n with refusal := 0x10 }

/-- STREAM_BIND: a write of ST_CTRL (R322, R323). -/
def execStreamBind (w : Writer) (st : Fin 256) (v : Word) (s : State) : Out :=
  let k := streamBase st.val
  .next (s.guarded w k v.toNat fun t => t.whenIdle w k (t.streamIdle st) fun u => u.streamCtrl st v.toNat)

/-- ST_ARM: a write of 1 sets err_valid (R332). -/
def execStArm (w : Writer) (st : Fin 256) (v : Word) (s : State) : Out :=
  .next (s.guarded w (streamBase st.val + 0x1C) v.toNat fun t =>
    if flag v 0 then t.setStream st { t.stream st with errValid := true } else t)

end Sys2Proof.Machine
end

