-- ==== Sys2Proof/Machine/Rails.lean ====
section
/-!
DEFINITION. The guard rails: recipe requests applied at a step boundary, and the monitors (R100 to R109).
-/

namespace Sys2Proof.Machine

open Sys2Proof

/-- The recipe records of the resident package. -/
def State.recipes (s : State) : List Nat := match s.package with | some p => p.recipes | none => []

/-- fb_pages and the fallback cap (Tables 4.1 and 13.7). -/
def recipePages (r : Nat) : Nat := bits r 127 96
def State.fallbackCap (s : State) : Nat := match s.package with | some p => bits p.header 271 256 | none => 0

/-- One bit of a register array indexed by record. -/
def State.recipeBit (s : State) (base i : Nat) : Bool := bit (s.reg (base + 4 * (i / 32))) (i % 32)

def State.setRecipeBit (s : State) (base i : Nat) (v : Bool) : State :=
  let k := base + 4 * (i / 32)
  s.setReg k (setFld (s.reg k) (i % 32) (i % 32) (b2n v))

/-- Whether a command issued with a record's wide recipe has not completed (R104). -/
def State.wideRuns (s : State) (i : Nat) : Bool :=
  s.rails.wideCmds.any fun p => p.1 == i && s.outstanding.contains p.2

/-- Records that returned to narrow at an earlier boundary, all of whose wide commands have completed, stop being counted;
completed commands are forgotten (R104). -/
def State.dropCounted (s : State) : State :=
  { s with rails := { s.rails with
      counted := s.rails.counted.filter fun i => s.recipeBit 0x2200 i || s.wideRuns i
      wideCmds := s.rails.wideCmds.filter fun p => s.outstanding.contains p.2 } }

/-- R103 step 1 for one record: an active record no longer requested returns to narrow. -/
def narrowRecord (i : Nat) (s : State) : State :=
  if s.recipeBit 0x2200 i && !s.recipeBit 0x2100 i then s.setRecipeBit 0x2200 i false else s

/-- R103 step 2 for one record, in ascending order, with the refused records so far. -/
def wideRecord (s : State × List Nat) (i : Nat) : State × List Nat :=
  let t := s.1
  if t.recipeBit 0x2200 i || !t.recipeBit 0x2100 i then s
  else if t.rails.counted.contains i then (t.setRecipeBit 0x2200 i true, s.2)
  else if t.fallbackCap = 0xFFFF ∨ t.rails.counted.length + 1 ≤ t.fallbackCap then
    (({ t with rails := { t.rails with counted := sput t.rails.counted i } } : State).setRecipeBit 0x2200 i true, s.2)
  else (t.setRecipeBit 0x2300 i true, s.2 ++ [i])

/-- The fields' monitor counts added into the module's, each stopping at 0xFFFF_FFFF, and cleared (R100). -/
def State.foldMonitors (s : State) : State :=
  { s with rails := { s.rails with
      moduleMon := s.rails.fieldMon.foldl (fun m p =>
        let k := p.1 % 1539
        tput m k (sat32 (tget m k 0 + p.2)) 0) s.rails.moduleMon
      fieldMon := [] } }

/-- The active bits of every record. -/
def State.activeBits (s : State) : List Nat := (List.range 16).map fun n => s.reg (0x2200 + 4 * n)

/-- A step boundary (R103): the state, and whether any record was refused. With set 0 OPEN or in HOLD no request is applied
(R436). -/
def State.boundary (s : State) : State × Bool :=
  if !s.setClosed 0 then (s.dropCounted.foldMonitors, false) else
  let n := s.recipes.length
  let a := iter n narrowRecord s.dropCounted
  let (b, refused) := (List.range n).foldl wideRecord (a, [])
  let c := match refused with
    | [] => b
    | i :: _ => b.setReg 0x200C (setFld (b.reg 0x200C) 15 0 (recipeLayer (nth b.recipes i 0)))
  let d := if c.activeBits == s.activeBits then c else c.addWrap 0x2008 1
  (d.foldMonitors, !refused.isEmpty)

/-- A step_end command of the recipe context at the head of a ring is about to complete: its boundary is applied, then its
record is written in its turn. FALLBACK_CAP, flag bit 31, tells of a refusal (R103, R105). -/
def State.stepBoundary (s : State) (cx ring : Nat) : State :=
  match s.headCmd cx ring fun c =>
      (c.finished || (c.refusal != 0 && (s.ctx cx).mode == .ready)) && s.boundaryDue cx c with
  | none => s
  | some c =>
    let (t, refused) := s.boundary
    let t := t.modCmd ⟨cx, ring, c.index⟩ fun d => { d with
      bounded := true
      flags := d.flags ||| (if refused then 2 ^ 31 else 0) }
    t.settle cx ring

/-- STEP_BOUNDARY (R103). -/
def execStepBoundary (cx : Fin 16) (ring : Fin 4) (s : State) : Out := .next (s.stepBoundary cx ring)

/-- GR_MON_CLEAR: a write of 1 clears every module monitor counter (R100). -/
def execGrMonClear (w : Writer) (v : Word) (s : State) : Out :=
  .next (s.guarded w 0x2020 v.toNat fun t =>
    if flag v 0 then { t with rails := { t.rails with moduleMon := [] } } else t)

/-- GR_FIRST: a write of 0xFFFF to a half sets that half to 0xFFFF; any other value leaves it (R109). -/
def State.grFirst (s : State) (v : Nat) : State :=
  let a := s.reg 0x200C
  let a := if bits v 15 0 = 0xFFFF then setFld a 15 0 0xFFFF else a
  let a := if bits v 31 16 = 0xFFFF then setFld a 31 16 0xFFFF else a
  s.setReg 0x200C a

def execGrFirstWrite (w : Writer) (v : Word) (s : State) : Out :=
  .next (s.guarded w 0x200C v.toNat fun t => t.grFirst v.toNat)

/-- GR_UNTRACKED: a write of 1 to bit 0 clears the register (R109). -/
def execGrUntrackedWrite (w : Writer) (v : Word) (s : State) : Out :=
  .next (s.guarded w 0x2024 v.toNat fun t => if flag v 0 then t.setReg 0x2024 0 else t)

end Sys2Proof.Machine
end

