-- ==== Sys2Proof/Machine/Sched.lean ====
section
/-!
DEFINITION. The heat sheet: ready work, who holds the fields, leg edges, the switch between contexts with its overrun and
debit, and the time a command has run (R372 to R388).
-/

namespace Sys2Proof.Machine

open Sys2Proof

/-! ### Ready work (R375) -/

/-- A semaphore has reached a threshold: their difference, as a signed 32-bit number, is zero or more (R363). -/
def semReached (value threshold : Nat) : Bool :=
  decide (wrap32 (value + 4294967296 - threshold % 4294967296) < 2147483648)

/-- A semaphore of a context. -/
def State.sem (s : State) (cx i : Nat) : Nat := tget (s.ctx cx).sems i 0

/-- A SEM_WAIT's threshold is reached. -/
def State.semMet (s : State) (cx : Nat) (c : Cmd) : Bool :=
  semReached (s.sem cx (fld c.desc 195 192)) (fld c.desc 255 224)

/-- The sequences whose regions a media command touches; the stream is the one its frame record names, or the one its
port sends (R188). -/
def mediaPins (cx : Nat) (s : State) (c : Cmd) : List Nat :=
  let port := s.reg (poBase (fld c.desc 192 192))
  let slot := if c.kind = 0x37 then bits port 14 9 else frStream c.ext
  let stream := if c.kind = 0x37 ∧ !bit port 0 then 0 else (s.mstream slot).record
  s.pinsOf cx (mediaRanges c.kind stream c.ext)

/-- The sequences a command would pin at its issue (R188). -/
def State.pinsFor (s : State) (cx : Nat) (c : Cmd) : List Nat :=
  if c.kind = 0x01 then s.pinsOf cx [(fld c.desc 303 256, 1024)]
  else if c.kind = 0x02 then runPins cx s c
  else if c.kind = 0x04 then attnPins cx s c
  else if c.kind = 0x05 then pagePins s c
  else if c.kind = 0x10 then tierPins cx s c
  else if c.kind = 0x11 then s.pinsOf cx [(fld c.desc 303 256, fld c.desc 415 384)]
  else if c.kind = 0x12 then s.pinsOf cx [(fld c.desc 303 256, fld c.desc 351 320)]
  else if c.kind = 0x20 then collPins cx s c
  else if 0x30 ≤ c.kind then mediaPins cx s c
  else []

/-- A command waits at issue for a held lap counter (R144). -/
def State.counterWaits (s : State) (cx : Nat) (c : Cmd) : Bool :=
  if c.kind = 0x02 then
    match s.slot cx (fld c.desc 197 192) with
    | some k => s.counterHeld k
    | none => false
  else c.kind == 0x04 && !s.attnFree c

/-- The first command of a ring runs, or could issue: it waits neither under R357, R363 or R144 nor for a commit set
(R375, R437). -/
def State.headReady (s : State) (cx r : Nat) : Bool :=
  match (s.ring cx r).cmds with
  | [] => false
  | c :: _ =>
    c.refusal == 0 && !c.finished && (c.issued ||
      (s.ringRules cx r c (s.pinsFor cx c) && !(c.kind == 0x07 && !s.semMet cx c) && !s.counterWaits cx c))

/-- A context has ready work; a faulted one has none (R375, R389). A context to be torn down has that one unit to run
(R390). -/
def State.readyWork (s : State) (cx : Nat) : Bool :=
  (s.ctx cx).mode == .stopping ||
    (s.ctx cx).mode == .ready && (s.headReady cx 0 || s.headReady cx 1 || s.headReady cx 2)

/-! ### Who holds the fields (R376, R377, R389) -/

/-- A context's class (Table 14.2). -/
def State.classOf (s : State) (cx : Nat) : Nat := s.reg (0x400200 + 16 * cx) % 4

/-- The legs of the sheet in force, and the entry of the current one. -/
def State.legs (s : State) : List Nat := s.legsOf []
def State.legNow (s : State) : Nat := nth s.legs s.sched.leg 0

/-- The length of the current leg in ns. -/
def State.legLen (s : State) : Nat := 1000 * bits s.legNow 16 0

/-- The served context's quantum has passed. -/
def State.quantumOver (s : State) : Bool := decide (1000 * s.reg 0x400008 ≤ s.sched.servedNs)

/-- The context of the listed classes that a shared leg serves: the highest class with ready work; within it the served
context, unless `expire` and its quantum has passed while another waits, else the next in ascending number after the
context served last (R376). -/
def State.pick (s : State) (classes : List Nat) (expire : Bool) : Option Nat :=
  let cands := (List.range 16).filter fun c => classes.contains (s.classOf c) && !s.sched.spent.contains c && s.readyWork c
  let top := (cands.map s.classOf).foldl min 3
  let same := cands.filter fun c => s.classOf c == top
  let next := fun (l : List Nat) => (l.find? fun c => decide (s.sched.lastServed < c)).or l.head?
  match s.sched.holder with
  | some h =>
    if same.contains h then
      (if expire && s.quantumOver && decide (1 < same.length) then next (same.filter fun c => c != h) else some h)
    else next same
  | none => next same

/-- The context that should hold the fields in the current leg. -/
def State.wantHolder (s : State) (expire : Bool) : Option Nat :=
  let e := s.legNow
  let owner := bits e 22 19
  if !bit (s.reg 0x400000) 0 || s.sched.halted then none
  else if bits e 18 17 = 2 then s.pick [1, 2, 3] expire
  else if bits e 18 17 = 1 then
    let mine := !s.sched.spent.contains owner && ((s.ctx owner).mode == .ready || (s.ctx owner).mode == .stopping)
    let rest := if mine then some owner else none
    if mine && s.readyWork owner then some owner
    else if bit e 23 && s.classOf owner != 0 then
      match s.pick [3] expire with
      | some b => some b
      | none => rest
    else rest
  else none

/-! ### Switches (R384, R385, R386) -/

/-- A debit that falls due in the current leg: it arose in an earlier one. -/
def State.debitDue (s : State) (cx : Nat) : Bool := tget s.sched.debit cx 0 != 0 && !s.sched.fresh.contains cx

/-- A context's service in a leg ends: the debit due in it counts as made. -/
def State.debitMade (s : State) (cx : Nat) : State :=
  if s.debitDue cx then { s with sched := { s.sched with debit := tput s.sched.debit cx 0 0 } } else s

/-- The fields stop issuing for their holder, and will serve `w` (R384). A debit that arises from this switch falls due in a
later leg. -/
def State.beginSwitch (s : State) (w : Option Nat) : State :=
  let t := match s.sched.holder with
    | some c => s.debitMade c
    | none => s
  { t with sched := { t.sched with
      holder := none
      switching := true
      outgoing := s.sched.holder
      incoming := w
      servedNs := 0
      fresh := match s.sched.holder with
        | some c => sput t.sched.fresh c
        | none => t.sched.fresh } }

/-- Where another context should hold the fields, a switch begins (R376). -/
def State.reschedule (s : State) (expire : Bool) : State :=
  if s.sched.switching then s else
  let w := s.wantHolder expire
  if w = s.sched.holder then s else s.beginSwitch w

/-- SHARED_QUANTUM_EXPIRY. -/
def execSharedQuantumExpiry (s : State) : Out := .next (s.reschedule true)

/-- One above the last slot of a ring's commands that have issued; RING_DONE where none has issued beyond it (R125). -/
def Ring.issuedEnd (r : Ring) : Nat :=
  match (r.cmds.filter fun c => c.issued).getLast? with
  | some c => wrap32 (c.index + kindSlots c.kind)
  | none => match r.written.getLast? with
    | some w => wrap32 (w.index + w.slots)
    | none => r.done

/-- A context's decoded descriptors that have not issued are discarded, and RING_FETCHED falls back; the run time they have
had stays theirs (R125, R379). The media ring runs outside the heat sheet and keeps its own (R378). -/
def State.dropDecoded (s : State) (cx : Nat) : State :=
  iter 3 (fun r t =>
    let q := t.ring cx r
    t.setRing cx r { q with
      fetched := q.issuedEnd
      cmds := q.cmds.filter fun c => c.issued
      ranNs := (q.cmds.filter fun c => !c.issued).foldl (fun l c => tput l c.index c.runNs 0) q.ranNs }) s

/-- The outgoing context's last unit has ended: its claims are withdrawn, its progress stands in its commands and kernels,
its decoded descriptors are discarded, the overrun and the excess over unit bounds are recorded, and the overrun is
debited unless it is LIVE (R382, R384, R385, R386). -/
def State.saveOut (s : State) (cx overrunNs lateNs : Nat) : State :=
  let t := s.withdraw.dropDecoded cx
  let v := if t.classOf cx = 0 then 0 else overrunNs
  { t with sched := { t.sched with
      debit := tput t.sched.debit cx (tget t.sched.debit cx 0 + v) 0
      overrun := tput t.sched.overrun cx (max (tget t.sched.overrun cx 0) overrunNs) 0
      late := tput t.sched.late cx (sat32 (tget t.sched.late cx 0 + lateNs)) 0 } }

/-- t_sw in ns (Table 14.4). -/
def switchNs : Nat := 12000

/-- CONTEXT_SWITCH: `overrunNs` after the switch was asked for, the outgoing context's last unit has ended (edge X), and
t_sw after X the incoming context, if one still should, holds the fields. Without one the switch ends at X. No unit has ended
while a link interface holds a baton of the outgoing context that it has not sent, or a window in staging (R282, R315). -/
def execContextSwitch (overrunNs : Nat) (lateNs : Nat) (s : State) : Out :=
  .next (
    let v := if s.sched.outgoing.isSome then overrunNs else 0
    let wait := if s.sched.incoming.isSome then switchNs else 0
    if !s.sched.switching || decide (s.sched.servedNs < v + wait) || s.sched.outgoing.any s.unsent then s else
    let t := match s.sched.outgoing with
      | some c => s.saveOut c v lateNs
      | none => s
    let keep := decide (t.wantHolder false = s.sched.incoming)
    let t : State := { t with sched := { t.sched with
      switching := false
      outgoing := none
      incoming := none
      servedNs := 0
      holder := if keep then s.sched.incoming else none
      lastServed := if keep then s.sched.incoming.getD t.sched.lastServed else t.sched.lastServed } }
    t.reschedule false)

/-! ### Leg edges (R372, R374) -/

/-- SC_HEATS counts from the moment SC_CTRL enables the sheet. -/
def State.heatsFrom (s old : State) : State :=
  if !bit (old.reg 0x400000) 0 && bit (s.reg 0x400000) 0 then { s with sched := { s.sched with heats := 0 } } else s

/-- The end of a heat: SC_HEATS rises and a committed sheet is checked and takes effect (R374, R432). -/
def State.heatEnd (s : State) : State :=
  let t := if bit (s.reg 0x400000) 0 then { s with sched := { s.sched with heats := wrap32 (s.sched.heats + 1) } } else s
  (t.commitPoint 3).heatsFrom t

/-- LEG_EDGE: once the heat timer has passed the current leg, the next one begins, and the fields change the context they
serve. -/
def execLegEdge (s : State) : Out :=
  .next (
    if s.sched.halted || decide (s.sched.legNs < s.legLen) then s else
    let past := s.sched.legNs - s.legLen
    let t := match s.sched.holder with
      | some c => s.debitMade c
      | none => s
    let last := decide (s.legs.length ≤ s.sched.leg + 1)
    let t := if last then t.heatEnd else t
    let t : State := { t with sched := { t.sched with
      legNs := past
      leg := if last then 0 else s.sched.leg + 1
      fresh := []
      spent := []
      retrained := [] } }
    let u := t.reschedule false
    { u with sched := { u.sched with fresh := [] } })

/-- SC_CLEAR: a write of 1 clears SC_CX_OVERRUN and SC_CX_LATE of every context (R392). -/
def execScClear (w : Writer) (v : Word) (s : State) : Out :=
  .next (s.guarded w 0x400020 v.toNat fun t =>
    if flag v 0 then { t with sched := { t.sched with overrun := [], late := [] } } else t)

/-! ### Run time (R379, R385) -/

/-- The commands of a ring whose run time passes: its first, and a chained kernel behind an issued producer (R226, R379). -/
def State.timed (s : State) (cx r : Nat) : List Nat :=
  match (s.ring cx r).cmds with
  | [] => []
  | a :: rest => a.index :: (match rest with
    | c :: _ => if r == 0 && a.issued && c.kind == 0x02 && s.chainedSlot cx c then [c.index] else []
    | [] => [])

/-- Run time of a ring's commands raised by one ns. -/
def State.runRing (s : State) (cx r : Nat) : State :=
  let l := s.timed cx r
  let q := s.ring cx r
  if l = [] then s else
  s.setRing cx r { q with cmds := q.cmds.map fun c => if l.contains c.index && !c.finished then { c with runNs := c.runNs + 1 } else c }

/-- Run time passes in the rings of the context that holds the fields, and on the media ring of every served context. -/
def State.runTime (s : State) : State :=
  let t := match s.sched.holder with
    | some cx => if s.sched.switching then s else iter 3 (fun r u => u.runRing cx r) s
    | none => s
  iter 16 (fun cx u => if (u.ctx cx).mode = .ready then u.runRing cx 3 else u) t

/-- The holder's service in this leg ends early by the debit it owes (R385). -/
def State.spendDebit (s : State) : State :=
  match s.sched.holder with
  | some c =>
    if s.debitDue c && decide (s.legLen ≤ s.sched.legNs + tget s.sched.debit c 0) then
      { s with sched := { s.sched with spent := sput s.sched.spent c } }
    else s
  | none => s

/-- One nanosecond of the heat sheet: the timer and the run times advance, a debit that falls due ends its context's
service, and the fields pass to the context that should hold them. -/
def State.schedTick (s : State) : State :=
  let t := s.runTime
  let t : State := { t with sched := { t.sched with
    legNs := if t.sched.halted then t.sched.legNs else t.sched.legNs + 1
    servedNs := t.sched.servedNs + 1 } }
  t.spendDebit.reschedule false

end Sys2Proof.Machine
end

