-- ==== Sys2Proof/Machine/Hosts.lean ====
section
/-!
DEFINITION. Hosts in the package: the dispatcher's decode, doorbells, contexts, NOP, semaphores, HOST_COPY and BULK_SEND,
completion records and their interrupts, and host ports (chapter 13, R121 to R125, R454).
-/

namespace Sys2Proof.Machine

open Sys2Proof

/-! ### Decode (R123, R355 to R361, R383) -/

/-- The kinds of Tables 13.4 and 15.4. -/
def kindKnown (k : Nat) : Bool :=
  decide (k ≤ 0x07) || (decide (0x10 ≤ k) && decide (k ≤ 0x14)) || k == 0x20 || (decide (0x30 ≤ k) && decide (k ≤ 0x37))

/-- Whether a ring takes a kind. -/
def ringTakes (r k : Nat) : Bool :=
  if k = 0x00 ∨ k = 0x06 ∨ k = 0x07 then true
  else if k ≤ 0x05 then r == 0
  else if k = 0x10 then r == 0 || r == 1
  else if k ≤ 0x14 then r == 1
  else if k = 0x20 then r == 2
  else r == 3

/-- The body fields that a kind names (Tables 13.5 and 15.4). -/
def bodyFields (k : Nat) : List (Nat × Nat) :=
  if k = 0x01 then [(197, 192), (303, 256)]
  else if k = 0x02 ∨ k = 0x31 then [(197, 192)]
  else if k = 0x05 then [(447, 192)]
  else if k = 0x06 then [(195, 192), (255, 224)]
  else if k = 0x07 then [(195, 192), (199, 196), (255, 224)]
  else if k = 0x11 then [(192, 192), (303, 256), (383, 320), (415, 384)]
  else if k = 0x12 then [(203, 192), (223, 208), (303, 256), (351, 320)]
  else if k = 0x13 then [(255, 192)]
  else if k = 0x34 ∨ k = 0x35 ∨ k = 0x36 ∨ k = 0x37 then [(192, 192)]
  else []

/-- Whether a descriptor has a nonzero reserved field, or a value outside the range or alignment of Table 13.3 or 13.5
(R359). -/
def fieldsBad (d : Line) : Bool :=
  let k := fld d 7 0
  fld d 127 96 != 0 || fld d 31 13 != 0 || fld d 95 64 == 0 ||
    fld d 447 192 * 2 ^ 192 != sumNat ((bodyFields k).map fun p => fld d p.1 p.2 * 2 ^ p.2) ||
    (k == 0x01 && fld d 303 256 % 128 != 0) ||
    (k == 0x11 && (fld d 383 320 % 64 != 0 || fld d 415 384 == 0)) ||
    (k == 0x12 && fld d 351 320 == 0) ||
    (k == 0x13 && fld d 255 192 % 64 != 0)

/-- Ranges of addresses a command writes whatever its data: its output extent, for the check of R186. -/
def State.outputRanges (d ext : Line) (s : State) : List (Nat × Nat) :=
  let k := fld d 7 0
  if k = 0x10 then
    (if tierOp ext = 2 then tierRanges ext (tierA ext) else if tierOp ext = 3 then tierRanges ext (tierB ext) else [])
  else if k = 0x11 then (if flag d 192 then [] else [(fld d 303 256, fld d 415 384)])
  else if k = 0x32 then [(frBitsVa ext, frBitsBytes ext)]
  else if k = 0x33 then sfRows (frSurface ext)
  else if k = 0x20 ∧ collOp ext = 1 then
    (if collDstInf ext then [] else [(collDstVa ext, 4 * collCap ext)]) ++
      (if collSrcKind ext = 1 then [(s.streamErr (collStream ext), 4 * collCap ext)] else [])
  else []

/-- The load checks that a decoded command meets (R186, R361): 0 where it passes. Without a resident package they wait for
its admission. -/
def State.decodeChecks (s : State) (cx : Nat) (d ext : Line) : Nat :=
  let k := fld d 7 0
  if k = 0x05 ∧ pageBad d then 0x0601
  else if s.package.isNone then 0
  else if k = 0x03 then s.engineStatus cx ext
  else if k = 0x04 then s.attnStatus cx ext
  else if (s.outputRanges d ext).any fun p => s.hitsTable cx p.1 p.2 then 0x0334
  else 0

/-- The status with which a descriptor is refused at decode; 0 where it is accepted. The unit bounds of Table 14.3 are at
most 40 µs, so that R383 can refuse only a declared duration. -/
def State.decodeStatus (s : State) (cx r : Nat) (d ext : Line) (mismatches : Nat) : Nat :=
  let k := fld d 7 0
  if !kindKnown k then 0x0601
  else if !ringTakes r k then 0x0602
  else if fieldsBad d then 0x0601
  else if flag d 10 && fld d 12 11 == r then 0x0604
  else if k = 0x07 ∧ fld d 199 196 ≠ cx then 0x0606
  else if (k = 0x00 ∨ k = 0x01 ∨ k = 0x06) ∧ s.reg 0x400004 < fld d 95 64 then 0x0701
  else if s.decodeChecks cx d ext ≠ 0 then s.decodeChecks cx d ext
  else if 4 ≤ mismatches then 0x0B04
  else 0

/-- The heat units of a windowed kernel's source, at its declared maxima, read ahead into the heat cache as unreferenced
(R123, R124). -/
def State.prefetch (s : State) (cx : Nat) (d : Line) : State :=
  match s.slot cx (fld d 197 192) with
  | none => s
  | some k =>
    if fld d 7 0 != 0x02 || !k.windowed || winChained k.window then s else
    let w := k.window
    let n := winMaxD w * winMaxH w * winMaxW w * winPosBytes w
    iter (cdiv n 65536) (fun i t =>
      match t.readPlace ⟨cx, 0, 0⟩ (winVa w + 65536 * i) with
      | .at key =>
        let rank := keyRank key
        let u := if key < 281474976710656 then (key - stackKey rank 0) / 65536 else key / 65536
        if t.isWeight key || (tget t.tiers.heat rank []).any (fun h => h.unit == u) then t
        else t.heatPlace rank cx u true
      | _ => t) s

/-- The reads of the slots of a command that is decoded (R344, R352). -/
def State.fetchSlots (s : State) (cx r i slots : Nat) : State :=
  iter slots (fun j t => t.hostRead cx (t.slotAddr cx r (wrap32 (i + j))) 64 false) s

/-- DISPATCH_DECODE: the next slot of a ring is fetched, checked and decoded, at most 8 beyond the command that runs. A
command that a context switch discarded keeps the run time it had (R125, R379). A descriptor that fails to arrive faults the context (R355); checksum mismatches are counted, and a fourth refuses the
command with 0x0B04 (R454). -/
def execDispatchDecode (cx : Fin 16) (ring : Fin 4) (line : Line) (ext : Line) (failed : Bool) (mismatches : Nat)
    (s : State) : Out :=
  .next (
    let q := s.ring cx ring
    let d := wrap32 (q.producer + 4294967296 - q.fetched)
    let slots := kindSlots (fld line 7 0)
    if (s.ctx cx).mode ≠ .ready ∨ !s.portUp (s.ctx cx).port ∨ d = 0 ∨ 8 ≤ (q.cmds.filter fun c => !c.issued).length then s
    else if failed then (s.fetchSlots cx ring q.fetched 1).faultCx cx 0x0610
    else if d < slots then s
    else
      let st := s.decodeStatus cx ring line ext mismatches
      let t := ((s.addSat 0x600124 mismatches).fetchSlots cx ring q.fetched slots).setRing cx ring { q with
        fetched := wrap32 (q.fetched + slots)
        cmds := q.cmds ++ [{ Cmd.make q.fetched line ext st with runNs := tget q.ranNs q.fetched 0 }]
        ranNs := tput q.ranNs q.fetched 0 0 }
      let t := if st = 0 then t.prefetch cx line else t
      (t.settle cx ring).reschedule false)

/-! ### Doorbells (R353 to R355) -/

/-- The doorbell line of a context is read (R344, R353). -/
def State.readDoorbell (s : State) (cx : Nat) : State := s.hostRead cx (s.doorbellAddr cx) 64 true

/-- DOORBELL_SNOOP: the line is given up and read again; while a read is outstanding, once more after it. -/
def execDoorbellSnoop (cx : Fin 16) (s : State) : Out :=
  .next (
    let c := s.ctx cx
    if c.mode ≠ .ready then s
    else if c.doorbellReading then s.setCtx cx { c with doorbellAgain := true }
    else if c.doorbellHeld then (s.setCtx cx { c with doorbellHeld := false, doorbellReading := true }).readDoorbell cx
    else s)

/-- DOORBELL_POLL: with CX_DB_POLL nonzero the line is read every period. -/
def execDoorbellPoll (cx : Fin 16) (s : State) : Out :=
  .next (
    let c := s.ctx cx
    if c.mode ≠ .ready ∨ s.reg (ctxBase cx + 0x10) = 0 ∨ c.doorbellReading then s
    else (s.setCtx cx { c with doorbellReading := true }).readDoorbell cx)

/-- RING_SIZE of a ring. -/
def State.ringSize (s : State) (cx r : Nat) : Nat := s.reg (ctxBase cx + 0x48 + 0x20 * r) % 32

/-- The producer index of a ring in a doorbell line (R353). -/
def doorbellIndex (l : Line) (r : Nat) : Nat := fld l (32 * r + 31) (32 * r)

/-- Whether a ring's producer index is out of range (R355). -/
def State.producerBad (s : State) (cx : Nat) (l : Line) (r : Nat) : Bool :=
  decide (2 ^ s.ringSize cx r < wrap32 (doorbellIndex l r + 4294967296 - (s.ring cx r).fetched))

/-- DOORBELL_READ_DONE. -/
def execDoorbellReadDone (cx : Fin 16) (line : Line) (failed : Bool) (s : State) : Out :=
  .next (
    let c := s.ctx cx
    if c.mode ≠ .ready ∨ !c.doorbellReading then s
    else if failed then
      (s.setCtx cx { c with doorbellReading := false, doorbellAgain := false, doorbellHeld := false }).faultCx cx 0x0610
    else
      let t := s.setCtx cx { c with doorbellReading := c.doorbellAgain, doorbellAgain := false, doorbellHeld := !c.doorbellAgain }
      let t := if c.doorbellAgain then t.readDoorbell cx else t
      if (List.range 4).any (t.producerBad cx line) then t.faultCx cx 0x060F
      else iter 4 (fun r u => u.setRing cx r { u.ring cx r with producer := doorbellIndex line r }) t)

/-! ### NOP, semaphores (R359, R363) -/

/-- NOP. -/
def execNop (cx : Fin 16) (ring : Fin 4) (s : State) : Out :=
  .next (s.issueHead cx ring (wantKind 0x00) noPins fun t id _ => t.finish id 0 0)

/-- SEM_SIGNAL: a value added to a semaphore, modulo 2^32. -/
def execSemSignal (cx : Fin 16) (ring : Fin 4) (s : State) : Out :=
  .next (s.issueHead cx ring (wantKind 0x06) noPins fun t id c =>
    let k := t.ctx cx
    let i := fld c.desc 195 192
    (t.setCtx cx { k with sems := tput k.sems i (wrap32 (t.sem cx i + fld c.desc 255 224)) 0 }).finish id 0 0)

/-- SEM_WAIT issues once its semaphore has reached the threshold; its result is the semaphore's value. -/
def execSemWait (cx : Fin 16) (ring : Fin 4) (s : State) : Out :=
  .next (s.issueHead cx ring (fun c => wantKind 0x07 c && s.semMet cx c) noPins fun t id c =>
    t.finish id 0 (t.sem cx (fld c.desc 195 192)))

/-! ### HOST_COPY and BULK_SEND (R344, R364, R448) -/

/-- The lines the module writes to host memory for a HOST_COPY, the poisoned ones marked (R344, R448). -/
def hostLines (port addr : Nat) (l : Marked) : List HostWrite :=
  (List.range (cdiv l.length 64)).map fun i =>
    let m := (l.drop (64 * i)).take 64
    ⟨port, addr + 64 * i, unmark m, anyPoison m⟩

/-- Host to module: the bytes read from host memory are written to the working tier. Where a piece cannot be written the
output is undefined (R239). -/
def hostIn (s : State) (id : CmdId) (c : Cmd) (data : List Byte) : State :=
  let va := fld c.desc 303 256
  let n := fld c.desc 415 384
  if data.length ≠ n ∨ s.writeWaits id va n then s else
  let s := s.hostRead id.cx (fld c.desc 383 320) n false
  match s.cvaWrite id (placeRank va) va (clean data) with
  | (t, 0) => t.endWork id 0 n
  | (t, st) => (t.cvaHavoc id va n).finish id st 0

/-- Module to host: every line is sent, poisoned ones marked; poison completes the command with 0x0B01 (R448). -/
def hostOut (s : State) (id : CmdId) (c : Cmd) : State :=
  let va := fld c.desc 303 256
  let n := fld c.desc 415 384
  match s.cvaRead id va n with
  | (0, l) =>
    let t := s.noteRead id (s.isLive id.cx) va n
    let t : State := { t with hosts := { t.hosts with
      outbox := t.hosts.outbox ++ hostLines (t.ctx id.cx).port (fld c.desc 383 320) l } }
    if anyPoison l then (t.notePoison id.cx).finish id 0x0B01 n else t.finish id 0 n
  | (st, _) => s.finish id st 0

/-- HOST_COPY: `data` are the bytes read from host memory (host to module), and `failed` says that a host-memory access
failed or returned poison (R344). -/
def execHostCopy (cx : Fin 16) (data : List Byte) (failed : Bool) (s : State) : Out :=
  .next (s.issueOrRun cx 1 (wantKind 0x11) (fun t c => t.pinsFor cx c) fun t id c =>
    if failed then (t.hostRead id.cx (fld c.desc 383 320) (fld c.desc 415 384) false).finish id 0x060D 0
    else if flag c.desc 192 then hostOut t id c
    else hostIn t id c data)

/-- BULK_SEND: the source bytes are sent as BULK batons, at most 64 queued at a time; the command completes when DONE or
UNREACH comes (R285, R381). -/
def execBulkSend (cx : Fin 16) (s : State) : Out :=
  .next (s.issueHead cx 1 (wantKind 0x12) (fun t c => t.pinsFor cx c) fun t id c =>
    let va := fld c.desc 303 256
    let n := fld c.desc 351 320
    let dst := fld c.desc 203 192
    let tag := fld c.desc 223 208
    let l := t.routeLinks dst
    if l = [] then t.finish id 0x0401 0
    else
      ({ t with links := { t.links with
        bulks := t.links.bulks ++ [⟨id, dst, tag, nth l ((dst + tag) % l.length) 0, va, n, 0⟩] } } : State).bulkFill id)

/-! ### Completions and interrupts (R368, R369) -/

/-- RING_IRQ of a ring. -/
def State.ringIrq (s : State) (cx r : Nat) : Nat := s.reg (ctxBase cx + 0x54 + 0x20 * r)

/-- MSI-X vector 4n + r of a ring sent to its port. -/
def State.ringMsix (s : State) (cx r : Nat) : State :=
  let q := s.ring cx r
  (s.setRing cx r { q with coalesced := 0 }).msix (s.ctx cx).port (4 * cx + r)

/-- COMPLETION_ACK: the oldest written record is acknowledged, RING_DONE rises, and its interrupt goes out: at once with
irq set, else when the coalescing count is reached. -/
def execCompletionAck (cx : Fin 16) (ring : Fin 4) (s : State) : Out :=
  .next (
    let q := s.ring cx ring
    match q.written with
    | [] => s
    | w :: rest =>
      let on := bit (s.ringIrq cx ring) 0
      let n := if on then q.coalesced + 1 else q.coalesced
      let t := s.setRing cx ring { q with written := rest, done := wrap32 (w.index + w.slots), coalesced := n }
      let t := if w.irq || (on && decide (bits (s.ringIrq cx ring) 15 8 ≤ n)) then t.ringMsix cx ring else t
      t.reschedule false)

/-- IRQ_COALESCE_TIMER: the coalescing time passes with acknowledged completions that no interrupt has told of. -/
def execIrqCoalesceTimer (cx : Fin 16) (ring : Fin 4) (s : State) : Out :=
  .next (if bit (s.ringIrq cx ring) 0 && (s.ring cx ring).coalesced != 0 then s.ringMsix cx ring else s)

/-! ### Contexts (R349 to R351) -/

/-- One bit of HP_CX_MASK (R350). A port without a die never accepts a context (R2). -/
def State.assignCx (s : State) (p n : Nat) (on : Bool) : State :=
  let c := s.ctx n
  if on && decide (c.mode = .free) && decide (p < s.module.dies) then s.setCtx n { c with mode := .assigned, port := p }
  else if !on && decide (c.mode = .assigned) && c.port == p then s.setCtx n { c with mode := .free, port := 0 }
  else s

/-- HP_CX_MASK_WRITE. -/
def execHpCxMaskWrite (w : Writer) (port : Fin 4) (v : Word) (s : State) : Out :=
  .next (s.guarded w (0x300104 + 0x100 * port.val) v.toNat fun t =>
    iter 16 (fun n u => u.assignCx port n (flag v n)) t)

/-- Ring sizes lie from 6 to 16; bases and the doorbell address hold no lower bits (R351, Table 13.10). -/
def State.startOk (s : State) (cx : Nat) : Bool :=
  (List.range 4).all fun r => decide (6 ≤ s.ringSize cx r) && decide (s.ringSize cx r ≤ 16)

/-- A ring at start: RING_FETCHED and RING_DONE at the line's producer index. -/
def Ring.startAt (i : Nat) : Ring := { Ring.empty with producer := i, fetched := i, done := i }

/-- CX_START: the doorbell line that the module reads comes with it. A failed read faults the context (R355). -/
def execCxStart (w : Writer) (cx : Fin 16) (line : Line) (failed : Bool) (s : State) : Out :=
  .next (s.guarded w (ctxBase cx) 1 fun t =>
    let c := t.ctx cx
    if c.mode ≠ .assigned then t
    else if !t.startOk cx then t.setCtx cx { c with status := 0x0611 }
    else
      let t := t.setCtx cx { c with mode := .ready, status := 0, doorbellHeld := !failed, doorbellReading := false,
                                    doorbellAgain := false } |>.readDoorbell cx
      if failed then t.faultCx cx 0x0610
      else iter 4 (fun r u => u.setRing cx r (Ring.startAt (doorbellIndex line r))) t)

/-- CX_STOP: a READY or FAULTED context is to be torn down (R351). -/
def execCxStop (w : Writer) (cx : Fin 16) (s : State) : Out :=
  .next (s.guarded w (ctxBase cx) 2 fun t =>
    let c := t.ctx cx
    if c.mode = .ready ∨ c.mode = .faulted then t.setCtx cx { c with mode := .stopping } else t)

end Sys2Proof.Machine
end

