-- ==== Sys2Proof/Machine/Package.lean ====
section
/-!
DEFINITION. The resident package: ADMIT and EVICT (R365 to R367), with the admission checks of R88, R93, R107, R185, R247
and R248, and the command DISPATCH_DECODE's checks made again for what was decoded before it.
-/

namespace Sys2Proof.Machine

open Sys2Proof

/-! ### The header (Table 13.7) -/

def pkMagic (h : Nat) : Nat := bits h 31 0
def pkVersion (h : Nat) : Nat := bits h 47 32
def pkAlv (h : Nat) : Nat := bits h 63 48
def pkHeadBytes (h : Nat) : Nat := bits h 191 128
def pkP8 (h : Nat) : Nat := bits h 194 192
def pkHeat (h : Nat) : Nat := bits h 201 195
def pkFrameUnits (h : Nat) : Nat := bits h 214 202
def pkHeads (h : Nat) : Nat := bits h 220 215 + 1
def pkHd (h : Nat) : Nat := if bit h 221 then 128 else 64
def pkKvFmt (h : Nat) : Nat := bits h 225 222
def pkCap (h : Nat) : Nat := bits h 271 256
def pkFootprint (h : Nat) : Nat := bits h 303 272

/-- The tables of a head as (offset, entries, bytes of an entry): recipes, allocations, chain programs, micro-programs,
tile programs. -/
def pkTables (h : Nat) : List (Nat × Nat × Nat) :=
  [(bits h 383 352, bits h 393 384, 16), (bits h 431 400, bits h 438 432, 16), (bits h 479 448, bits h 488 480, 128),
    (bits h 527 496, bits h 534 528, 4224), (bits h 599 568, bits h 608 600, 128)]

/-- The reserved fields of the header. -/
def pkReserved (h : Nat) : Bool :=
  [(767, 609), (567, 535), (495, 489), (447, 439), (399, 394), (351, 327), (255, 230)].any fun p => bits h p.1 p.2 != 0

/-- The header breaks Table 13.7. -/
def headerBad (h : Nat) : Bool :=
  pkMagic h != 0x4B505A55 || pkVersion h != 1 || pkReserved h || decide (pkHeadBytes h < 128) ||
    decide (2 ^ 24 < pkHeadBytes h) || decide (6 < pkP8 h) || decide (64 < pkHeat h) || pkFrameUnits h == 0 ||
    decide (4096 < pkFrameUnits h) || decide (4194304 < bits h 326 304) || !(pkKvFmt h == 1 || pkKvFmt h == 3) ||
    (pkCap h != 0xFFFF && decide (512 < pkCap h)) ||
    (List.zip (pkTables h) [512, 64, 256, 64, 256]).any fun p => decide (p.2 < p.1.2.1)

/-- A table lies wholly within head bytes 128 to head_bytes - 1; an empty table lies anywhere. -/
def tableFits (h : Nat) (t : Nat × Nat × Nat) : Bool :=
  t.2.1 == 0 || (decide (128 ≤ t.1) && decide (t.1 + t.2.1 * t.2.2 ≤ pkHeadBytes h))

/-- The entries of a table, as byte strings. -/
def tableEntries (l : List Byte) (t : Nat × Nat × Nat) : List (List Byte) :=
  (List.range t.2.1).map fun i => (l.drop (t.1 + i * t.2.2)).take t.2.2

/-- A tile program of a slot of 128 bytes: its words up to the last that is not zero (R365). -/
def slotProgram (l : List Byte) : List Nat :=
  ((numbers 8 16 l).reverse.dropWhile fun w => w == 0).reverse

/-- The package of a head. -/
def Package.parse (h : Nat) (l : List Byte) : Package :=
  let t := (pkTables h).map (tableEntries l)
  ⟨h, (nth t 0 []).map ofBytes, nth t 2 [], nth t 3 [], (nth t 4 []).map slotProgram, (nth t 1 []).map ofBytes⟩

/-! ### The checks of R366 -/

/-- Whether any two elements of a list meet a relation. -/
def anyPair {α : Type} (r : α → α → Bool) : List α → Bool
  | [] => false
  | a :: l => l.any (r a) || anyPair r l

/-- A recipe record breaks R93. -/
def recipeBad (r : Nat) : Bool :=
  let na := recipeNarrowA r
  let nb := recipeNarrowB r
  recipeLayer r == 0xFFFF || bits r 95 64 != 0 || bits r 25 0 != 0 || decide (5 < recipeClip r) ||
    !pairOk na nb || !fmtMx na || !fmtMx nb || !pairOk (recipeWideA r) (recipeWideB r) ||
    ((recipeCap r != 0 || recipeClip r != 0) && !(na == 9 && nb == 9))

/-- A recipe table breaks R93; a package without recipe layers skips the rule. -/
def recipesBad (l : List Nat) : Bool := l.any recipeBad || anyPair (fun a b => recipeLayer a == recipeLayer b) l

/-- Insertion into a falling list. -/
def insertDown (x : Nat) : List Nat → List Nat
  | [] => [x]
  | y :: r => if y ≤ x then x :: y :: r else y :: insertDown x r

/-- The fallback reserve B in pages (R107). -/
def Package.reserve (p : Package) : Nat :=
  let l := p.recipes.map recipePages
  if pkCap p.header = 0xFFFF ∨ l.length ≤ pkCap p.header then sumNat l
  else sumNat ((l.foldr insertDown []).take (pkCap p.header))

/-- The infield allocations break R248. -/
def allocsBad (h : Nat) (l : List Nat) : Bool :=
  let top := 786432 - 8192 * pkHeat h
  (l.any fun a => bits a 127 112 != 0 || bits a 79 76 != 0 || bits a 73 40 != 0 || decide (1 < bits a 75 74) ||
    bits a 39 20 == 0 || decide (top < (allocSpan a).2)) ||
    anyPair (fun a b => decide ((allocSpan a).1 < (allocSpan b).2) && decide ((allocSpan b).1 < (allocSpan a).2)) l

/-- The ALVs that the active firmware carries: those of its image's manifest, ALV 1 alone for the firmware the module resets
with (R88, R477; DESIGN CHOICE, the log's entry 10). -/
def State.alvs (s : State) : List Nat :=
  let slot := tget s.fw.slots s.fw.active (FwSlot.reset s.fw.active)
  let h := ofBytes ((List.range 12).map fun i => tget slot.bytes (4096 + i) 0)
  if slot.bytes.isEmpty then [1, 0, 0, 0] else [bits h 47 32, bits h 63 48, bits h 79 64, bits h 95 80]

/-- The admission checks after R366's own, in their order; 0 where all pass. -/
def State.admitChecks (s : State) (p : Package) : Nat :=
  let h := p.header
  if pkAlv h = 0 ∨ !s.alvs.contains (pkAlv h) then 0x0210
  else if recipesBad p.recipes then 0x0321
  else if s.reg 0x3004 < pkFootprint h + p.reserve then 0x0320
  else if 65536 * pkFrameUnits h < 2 * pkHeads h * 384 * pkHd h * (if pkKvFmt h = 1 then 2 else 1) then 0x0330
  else if 8 * pkP8 h ≠ s.weightGib ∧ (s.tiers.pages ≠ [] ∨ s.kv.shares ≠ []) then 0x030B
  else if allocsBad h p.allocs then 0x030B
  else ((p.tprogs.map programStatus).find? fun x => x != 0).getD 0

/-! ### ADMIT -/

/-- The guard rails at an admission: every register of Table 4.3 at its reset value, no request pending, nothing counted
(R106). -/
def State.resetRails (s : State) : State :=
  { s with
    rails := ⟨[], [], [], [], false⟩
    regs := { s.regs with
      vals := s.regs.vals.filter fun p => !(decide (0x2000 ≤ p.1 % 67108864) && decide (p.1 % 67108864 < 0x3000))
      sets := tput s.regs.sets 0 { tget s.regs.sets 0 CommitSet.empty with pending := none } CommitSet.empty } }

/-- An allocation's lines of one rank read zero, and are no longer poisoned (R249). -/
def zeroAlloc (a rank : Nat) (s : State) : State :=
  let lo := (allocSpan a).1
  let hi := (allocSpan a).2
  { s with memory := { s.memory with
      infield := tdrop s.memory.infield (infKey rank (lo * 128)) (infKey rank (hi * 128))
      poisonLines := s.memory.poisonLines.filter fun m => !(decide (786432 * rank + lo ≤ m) && decide (m < 786432 * rank + hi)) } }

/-- A decoded command that has not issued meets the load checks of the package just admitted (R361). -/
def State.recheck (s : State) (cx : Nat) (c : Cmd) : Cmd :=
  if c.issued || c.refusal != 0 then c else { c with refusal := s.decodeChecks cx c.desc c.ext }

/-- Every decoded command meets them. -/
def State.recheckAll (s : State) : State :=
  iter 16 (fun cx t => iter 4 (fun r u =>
    let q := u.ring cx r
    u.setRing cx r { q with cmds := q.cmds.map (u.recheck cx) }) t) s

/-- A package becomes resident (R106, R108, R247, R249, R366). -/
def State.install (s : State) (p : Package) : State :=
  let t : State := { s.resetRails with package := some p }
  let t : State := { t with tiers := { t.tiers with partition := 8 * pkP8 p.header, heat := [], heatReads := [] } }
  let t := t.setUsed 16 (t.usedOf 16 + p.reserve)
  let t := p.allocs.foldl (fun u a => iter 75 (zeroAlloc a) u) t
  t.recheckAll.hpEventAll 1

/-- ADMIT's work on the head as far as it has been read from host memory: the header's 128 bytes, then head_bytes in all. -/
def admitWork (s : State) (id : CmdId) (addr : Nat) (data : List Byte) : State :=
  if data.length < 128 then s else
  let h := ofBytes (data.take 128)
  if s.package.isSome || headerBad h || (pkTables h).any (fun t => !tableFits h t) then
    (s.hostRead id.cx addr 128 false).finish id 0x060B 0
  else if data.length < pkHeadBytes h then s
  else
    let s := s.hostRead id.cx addr (pkHeadBytes h) false
    let head := data.take (pkHeadBytes h)
    if ofBytes (sha256 (head.drop 128)) ≠ bits h 1023 768 then s.finish id 0x060B 0
    else
      let p := Package.parse h head
      if s.admitChecks p ≠ 0 then s.finish id (s.admitChecks p) 0
      else (s.install p).finish id 0 0

/-- ADMIT: refused with the logbook full (R462) or the signature budget spent (R473); `data` are the bytes read at the head address; `failed` says that a host-memory read failed (R344). -/
def execAdmit (cx : Fin 16) (data : List Byte) (failed : Bool) (s : State) : Out :=
  .next (s.issueOrRun cx 1 (wantKind 0x13) noPins fun t id c =>
    if !t.ownerCx cx then t.finish id 0x0609 0
    else if bookSize ≤ t.rel.book.length then t.finish id 0x0B11 0
    else if sigBudget ≤ t.fw.sigUsed then t.finish id 0x0C12 0
    else if failed then (t.hostRead id.cx (fld c.desc 255 192) 128 false).finish id 0x060D 0
    else admitWork t id (fld c.desc 255 192) data)

/-! ### EVICT -/

/-- The package leaves: kernel slots and the package window empty, its reserve is released (R108, R367). -/
def State.uninstall (s : State) : State :=
  let reserve := match s.package with | some p => p.reserve | none => 0
  let window := s.tiers.entries.filter fun e => e.1 / 134217728 == 16
  let pages := (window.filter fun e => bit e.2 61 && bits e.2 60 59 == 0).map fun e => 65536 * bits e.2 56 50 + bits e.2 21 0
  let t := pages.foldl (fun u k => (u.freePage k).credit 16 32) s
  let t := iter 16 (fun n u => u.setCtx n { u.ctx n with slots := [] }) t
  let t := t.setUsed 16 (t.usedOf 16 - reserve)
  let t : State := { t with
    package := none
    tiers := { t.tiers with
      entries := t.tiers.entries.filter fun e => e.1 / 134217728 != 16
      heat := []
      heatReads := [] }
    tiles := { t.tiles with prior := [] } }
  t.hpEventAll 1

/-- EVICT: it waits until no command of any other context is outstanding. -/
def execEvict (cx : Fin 16) (s : State) : Out :=
  .next (s.issueOrRun cx 1 (wantKind 0x14) noPins fun t id _ =>
    if !t.ownerCx cx then t.finish id 0x0609 0
    else if (List.range 8).any fun q => (t.seq q).enabled then t.finish id 0x060C 0
    else if t.outstanding.any fun i => i.cx != cx.val then t
    else t.uninstall.finish id 0 0)

end Sys2Proof.Machine
end

