-- ==== Sys2Proof/Machine/Media.lean ====
section
/-!
DEFINITION. Media streams and engines: opening and live admission, the engines' order of work, rate control, and what
ENCODE, DECODE and a coded SLATE write (R394 to R412, R417).
-/

namespace Sys2Proof.Machine

open Sys2Proof

/-! ### Costs, and the record at its opening (R399, R401) -/

/-- Cycles per unit, and the frame bound t in ns (R401). -/
def srCost (x : Line) : Nat := if !srDecode x then 4000 else if srCodec x = 2 then 6000 else 2000
def srFrameNs (x : Line) : Nat := srCost x * srUnits x + 20000

/-- A field is reserved or out of range, or the fields do not suit each other (0x0801, R398, R399). -/
def streamBad (x : Line) : Bool :=
  let hevcQp := srCodec x == 1 && [srQpInit x, srQpMin x, srQpMax x].any fun q => decide (63 < q)
  fld x 255 30 != 0 || fld x 16 6 != 0 || srCodec x == 3 || srRc x == 3 || srPort x == 3 || decide (8 < srHints x) ||
    srKeyInterval x == 0 || decide (100 < srInitFill x) || srPoolVa x % 256 != 0 || srFpsNum x == 0 || srFpsDen x == 0 ||
    hevcQp || (srDecode x && (srPort x != 0 || srHints x != 0)) ||
    (srPort x != 0 && (!srLive x || srDecode x || srCodec x == 2)) ||
    (srRc x != 0 && decide (srBucket x * srFpsNum x < 4 * srRate x * srFpsDen x))

/-- Codec, depth, size or frame rate outside Table 15.1 (0x0802). -/
def streamOutside (x : Line) : Bool :=
  let avc := srCodec x == 2
  let (w, h) := if avc then (4096, 2304) else (7680, 4320)
  let rate := if srDecode x then 500000 else 250000
  (avc && (!srDecode x || srTenBit x)) || srWidth x % 2 != 0 || srHeight x % 2 != 0 || decide (srWidth x < 64) ||
    decide (srHeight x < 64) || decide (w < srWidth x) || decide (h < srHeight x) ||
    decide (rate * srFpsDen x < srUnits x * (if avc then 3 else 1) * srFpsNum x)

/-- The pool is shorter than n · F · 17/16 (R399). -/
def poolShort (x : Line) : Bool :=
  let n := if !srDecode x then 4 else if srCodec x = 0 then 9 else 17
  decide (srPoolBytes x * 32 < n * (4096 * srUnits x) * (if srTenBit x then 2 else 1) * 51)

/-! ### Live admission (R402, R403) -/

/-- A nonnegative rational: numerator and denominator. -/
abbrev Frac := Nat × Nat

def Frac.add (a b : Frac) : Frac := (a.1 * b.2 + b.1 * a.2, a.2 * b.2)
def Frac.le (a b : Frac) : Bool := decide (a.1 * b.2 ≤ b.1 * a.2)
def Frac.max (a b : Frac) : Frac := if Frac.le a b then b else a

/-- f · t of a stream, with t in ns; its frame rate. -/
def srShare (x : Line) : Frac := (srFpsNum x * srFrameNs x, 1000000000 * srFpsDen x)
def srFps (x : Line) : Frac := (srFpsNum x, srFpsDen x)

/-- The records of the live streams bound to an engine. -/
def State.liveOn (s : State) (e : Nat) : List Line :=
  (s.media.streams.filter fun p => p.2.isOpen && p.2.engine == some e).map fun p => p.2.record

/-- Σ f · t over records, and the left side of R403 for an engine kind. -/
def liveShare (l : List Line) : Frac := (l.map srShare).foldl Frac.add (0, 1)
def State.liveLoad (s : State) (e : Nat) (l : List Line) : Frac :=
  let block := (if e < 8 then 4000 else 6000) * s.reg 0x500004 + 20000
  let f := (l.map srFps).foldl Frac.max (0, 1)
  Frac.add (liveShare l) (f.1 * block, 1000000000 * f.2)

/-- The engines of a record's kind (R401). -/
def enginesFor (x : Line) : List Nat := if srDecode x then (List.range 16).map (· + 8) else List.range 8

/-- The engine a live stream is bound to: of those that admit it the one with the lowest live load, the lowest index on a
tie (R402, R403). -/
def State.bindEngine (s : State) (x : Line) : Option Nat :=
  ((enginesFor x).filter fun e => !(s.engine e).retired && Frac.le (s.liveLoad e (s.liveOn e ++ [x])) (1, 1)).foldl (fun acc e =>
    match acc with
    | none => some e
    | some b => if Frac.le (liveShare (s.liveOn b)) (liveShare (s.liveOn e)) then some b else some e) none

/-! ### Opening and closing (R399) -/

/-- A media command at the head of the media ring. -/
def State.mediaRun (s : State) (cx k : Nat) (run : State → CmdId → Cmd → State) : State :=
  s.issueHead cx 3 (wantKind k) (mediaPins cx) run

/-- A stream slot opened for a context with a record. -/
def MStream.start (cx : Nat) (x : Line) (e : Option Nat) : MStream :=
  { MStream.empty with
    isOpen := true, cx := cx, record := x, engine := e
    fill := srBucket x * srInitFill x / 100
    qpNext := srQpInit x
    history := 0 }

/-- A stream's slot changes; what its pool holds is the module's own, and undefined to everyone else (R399). -/
def State.poolWrite (s : State) (id : CmdId) (slot : Nat) (m : MStream) : State :=
  (s.cvaHavoc id (srPoolVa m.record) (srPoolBytes m.record)).setMstream slot m

/-- STREAM_OPEN. -/
def execStreamOpen (cx : Fin 16) (s : State) : Out :=
  .next (s.mediaRun cx 0x30 fun t id c =>
    let x := c.ext
    if streamBad x then t.finish id 0x0801 0
    else if streamOutside x then t.finish id 0x0802 0
    else if (t.mstream (srSlot x)).isOpen then t.finish id 0x0803 0
    else if poolShort x || t.mappedOk id true (srPoolVa x) (srPoolBytes x) != 0 then t.finish id 0x0805 0
    else if !srLive x then (t.poolWrite id (srSlot x) (MStream.start cx x none)).finish id 0 0
    else match t.bindEngine x with
      | none => t.finish id 0x0804 0
      | some e => (t.poolWrite id (srSlot x) (MStream.start cx x (some e))).finish id 0 0)

/-- Whether a context may use a stream slot. -/
def State.streamHeld (s : State) (cx slot : Nat) : Bool := (s.mstream slot).isOpen && (s.mstream slot).cx == cx

/-- Whether a playout port is IDLE or in HOLD. -/
def State.poQuiet (s : State) (p : Nat) : Bool := (s.po p).mode == .idle || (s.po p).mode == .hold

/-- STREAM_CLOSE. -/
def execStreamClose (cx : Fin 16) (s : State) : Out :=
  .next (s.mediaRun cx 0x31 fun t id c =>
    let n := fld c.desc 197 192
    let p := srPort (t.mstream n).record
    if !t.streamHeld cx n then t.finish id 0x0803 0
    else if p ≠ 0 ∧ !t.poQuiet (p - 1) then t.finish id 0x0905 0
    else (t.setMstream n MStream.empty).finish id 0 0)

/-! ### Surfaces (R396) -/

/-- A record breaks Table 15.3. -/
def surfaceBad (v : Nat) : Bool :=
  bits v 255 164 != 0 || decide (2 < sfLayout v) || sfPitch v % 256 != 0 || sfChroma v % 256 != 0 || sfLuma v % 256 != 0

/-- The status of a media command for one of its accesses: not mapped is 0x080A (R400). -/
def mediaStatus (st : Nat) : Nat := if st = 0x0302 ∨ st = 0x0303 then 0x080A else st

/-- The first status of a list of ranges that a command may not read, or write (R190, R191, R239); where a page of a table is
not mapped, that is 0x080A (R400). -/
def State.rangesBad (s : State) (id : CmdId) (write : Bool) (l : List (Nat × Nat)) : Nat :=
  l.foldl (fun acc r => if acc ≠ 0 then acc else mediaStatus (s.mappedOk id write r.1 r.2)) 0

/-- The bytes of a list of ranges: a status, the bytes and whether any is poison. -/
def State.readRanges (s : State) (id : CmdId) (l : List (Nat × Nat)) : Nat × Marked :=
  l.foldl (fun acc r =>
    if acc.1 ≠ 0 then acc else
    match s.cvaRead id r.1 r.2 with
    | (0, b) => (0, acc.2 ++ b)
    | (st, _) => (st, [])) (0, [])

/-- A list of ranges written. -/
def State.writeRanges (s : State) (id : CmdId) (l : List (Nat × Nat)) (b : List Byte) : State × Nat :=
  let (t, st, _) := l.foldl (fun (acc : State × Nat × List Byte) r =>
    if acc.2.1 ≠ 0 then acc else
    let (u, st) := acc.1.cvaWrite id (placeRank r.1) r.1 (clean (acc.2.2.take r.2))
    (u, st, acc.2.2.drop r.2)) (s, 0, b)
  (t, st)

/-! ### Frames at issue (R400) -/

/-- The least capacity of an ENCODE's buffer (R400). -/
def bitsNeeded (m : Line) : Nat := (if srRc m = 0 then 0 else srBucket m / 8) + 16 * srUnits m + 4096

/-- A frame record breaks R400 for a stream. -/
def frameBad (m x : Line) (encode : Bool) : Bool :=
  let v := frSurface x
  fld x 351 264 != 0 || surfaceBad v || frBitsVa x % 64 != 0 || srDecode m == encode || sfWidth v != srWidth m ||
    sfHeight v != srHeight m || sfLayout v != b2n (srTenBit m) || (srHints m == 0 && frHintVa x != 0) ||
    (encode && decide (frBitsBytes x < bitsNeeded m))

/-- A frame of a stream, or a slate of its port, is ready for an engine. -/
def State.frameReady (s : State) (id : CmdId) (slot : Nat) (slate : Option Nat) : State :=
  { s with media := { s.media with waiting := s.media.waiting ++ [⟨id, slot, s.nowNs, false, false, slate⟩] } }

/-- The first status of a list that is not 0. -/
def firstStatus (l : List Nat) : Nat := (l.find? fun st => st != 0).getD 0

/-- ENCODE and DECODE at issue: the record is checked, and the frame is ready for an engine. -/
def State.frameIssue (s : State) (cx : Nat) (encode : Bool) : State :=
  s.mediaRun cx (if encode then 0x32 else 0x33) fun t id c =>
    let x := c.ext
    let m := (t.mstream (frStream x)).record
    if !t.streamHeld cx (frStream x) then t.finish id 0x0803 0
    else if frameBad m x encode then t.finish id 0x0801 0
    else
      let st := firstStatus [t.rangesBad id encode [(frBitsVa x, frBitsBytes x)], t.rangesBad id (!encode) (sfRows (frSurface x)),
        t.rangesBad id false (if encode then hintRows m x else [])]
      if st ≠ 0 then t.finish id st 0 else t.frameReady id (frStream x) none

/-- ENCODE (R400). -/
def execEncode (cx : Fin 16) (s : State) : Out := .next (s.frameIssue cx true)

/-- DECODE (R410). -/
def execDecode (cx : Fin 16) (s : State) : Out := .next (s.frameIssue cx false)

/-! ### The engines' order of work (R402) -/

/-- A frame's record, and its deadline in ns as a rational. -/
def State.frameRec (s : State) (f : MFrame) : Line := (s.mstream f.slot).record
def State.deadline (s : State) (f : MFrame) : Frac :=
  let m := s.frameRec f
  (f.readyNs * srFpsNum m + 1000000000 * srFpsDen m, srFpsNum m)

/-- The frame to run first of two: by a key, then the lower slot. -/
def frameBefore (key : MFrame → Frac) (a b : MFrame) : Bool :=
  if Frac.le (key a) (key b) && Frac.le (key b) (key a) then decide (a.slot ≤ b.slot) else Frac.le (key a) (key b)

/-- The first frame of a list by a key. -/
def firstFrame (key : MFrame → Frac) (l : List MFrame) : Option MFrame :=
  l.foldl (fun acc f => match acc with
    | none => some f
    | some g => if frameBefore key g f then some g else some f) none

/-- The frame a free engine starts: the earliest deadline of its live streams, else the oldest batch frame it may run. -/
def State.nextFrame (s : State) (e : Nat) : Option MFrame :=
  let live := s.media.waiting.filter fun f => (s.mstream f.slot).engine == some e
  let batch := s.media.waiting.filter fun f =>
    !srLive (s.frameRec f) && srDecode (s.frameRec f) == decide (8 ≤ e) &&
      (decide (srUnits (s.frameRec f) ≤ s.reg 0x500004) || (s.liveOn e).isEmpty)
  match firstFrame s.deadline live with
  | some f => some f
  | none => firstFrame (fun f => (f.readyNs, 1)) batch

/-- Whether a stream's next frame is a key frame (R395, R418). -/
def MStream.keyNext (m : MStream) (force : Bool) : Bool :=
  force || m.keyDue || m.refs.isEmpty || decide (srKeyInterval m.record ≤ m.sinceKey)

/-- A frame starts on an engine: whether it is a key frame is settled, and the hints of an inter frame are looked through
(R406, R418). -/
def State.startFrame (s : State) (e : Nat) (f : MFrame) : State :=
  let x := ((s.cmd? f.cmd).map Cmd.ext).getD 0
  let m := s.mstream f.slot
  let key := f.slate.isSome || !srDecode m.record && m.keyNext (frForceKey x)
  let bad := if key || srDecode m.record then 0 else hintsBad (unmark (s.readRanges f.cmd (hintRows m.record x)).2)
  let t := s.setMstream f.slot { m with hintsBad := sat32 (m.hintsBad + bad) }
  let t : State := { t with media := { t.media with waiting := t.media.waiting.filter fun g => g.cmd != f.cmd } }
  t.setEngine e { t.engine e with running := some { f with key := key } }

/-- MEDIA_FRAME_START. -/
def execMediaFrameStart (eng : Fin 24) (s : State) : Out :=
  .next (
    if (s.engine eng).running.isSome || (s.engine eng).retired then s else
    match s.nextFrame eng with
    | none => s
    | some f => s.startFrame eng f)

/-! ### Rate control (R405) -/

/-- A frame's coding so far: bits used, quantiser, the rows in order as (quantiser, emergency row). -/
structure RcState where
  used : Nat
  qp : Nat
  rows : List (Nat × Bool)
  deriving DecidableEq, Repr

/-- Bits a frame may take on average, and its target. -/
def rcPerFrame (m : Line) : Nat := srRate m * srFpsDen m / srFpsNum m
def rcTarget (m : Line) (fill : Nat) : Int :=
  max ((rcPerFrame m : Int) + Int.tdiv ((srBucket m / 2 : Nat) - (fill : Int)) 4) ((rcPerFrame m / 4 : Nat) : Int)

/-- row_end: `bits` are the row's main and skip-path bits. -/
def rcRow (m : Line) (fill capacity : Nat) (row : Nat) (bits_ : Nat × Nat) (r : RcState) : RcState :=
  let rows := srRows m
  let least := 16 * srRowUnits m + 256
  let limit := if srRc m = 0 then capacity else min (srBucket m - fill) capacity
  let skip := decide (limit < r.used + bits_.1 + (rows - row - 1) * least)
  let used := r.used + (if skip then min bits_.2 least else bits_.1)
  let planned := Int.tdiv (rcTarget m fill * (row + 1 : Nat)) rows
  let step := if srCodec m = 0 then 8 else 1
  let qp := if srRc m = 0 then r.qp
    else if (11 * planned : Int) < (10 * used : Nat) then min (r.qp + step) (srQpMax m)
    else if ((10 * used : Nat) : Int) < 9 * planned then max (r.qp - step) (srQpMin m)
    else r.qp
  ⟨used, qp, r.rows ++ [(r.qp, skip)]⟩

/-- The rows of a frame in order; `rowBits` are the bits of the next row after those coded, at a quantiser. -/
def rcFrame (m : Line) (fill qp capacity : Nat) (rowBits : List (Nat × Bool) → Nat → Nat × Nat) : RcState :=
  iter (srRows m) (fun i r => rcRow m fill capacity i (rowBits r.rows r.qp) r) ⟨0, qp, []⟩

/-- Emergency rows of a frame. -/
def RcState.emergency (r : RcState) : Nat := (r.rows.filter Prod.snd).length

/-- frame_end: the fill, the filler bits and the next frame's quantiser. -/
def rcEnd (m : Line) (fill : Nat) (r : RcState) : Nat × Nat × Nat :=
  let n := r.rows.length
  let next := (2 * sumNat (r.rows.map Prod.fst) + n) / (2 * n)
  if srRc m = 0 then (fill, 0, next)
  else if rcPerFrame m ≤ fill + r.used then (fill + r.used - rcPerFrame m, 0, next)
  else (0, if srRc m = 1 then rcPerFrame m - (fill + r.used) else 0, next)

/-! ### A free engine, and the port that a stream feeds (R404, R419) -/

/-- The engine is free again: its busy cycles rise, and a live frame past its deadline is counted (R404). -/
def State.freeEngine (s : State) (e : Nat) (f : MFrame) (cycles : Nat) : State :=
  let late := srLive (s.frameRec f) && !Frac.le (s.nowNs, 1) (s.deadline f)
  let g := s.engine e
  s.setEngine e { g with running := none, cycles := g.cycles + cycles, late := sat32 (g.late + b2n late) }

/-- Whether a stream's coded frames enter a playout port's queue: the port sends this stream (R419). -/
def State.poFeeds (s : State) (slot : Nat) : Option Nat :=
  let p := srPort (s.mstream slot).record
  let c := s.reg (poBase (p - 1))
  if p ≠ 0 ∧ bit c 0 ∧ bits c 14 9 = slot ∧ !s.poQuiet (p - 1) then some (p - 1) else none

/-- A coded frame enters a port's queue, or waits for room; one that was coded before a slate that was sent since is
discarded and counted (R418, R419). The second part says whether the port is done with it. -/
def State.poCoded (s : State) (p : Nat) (id : CmdId) (stale : Bool) (f : PFrame) : State × Bool :=
  let q := s.po p
  if stale then (s.addSat (poBase p + 0x58) 1, true)
  else if q.queue.length < 8 then
    (s.setPo p { q with queue := q.queue ++ [{ f with seq := q.nextSeq }], nextSeq := wrap32 (q.nextSeq + 1) }, true)
  else (s.setPo p { q with entering := some (id, f) }, false)

/-! ### Encoding (R405 to R409, R417) -/

/-- The samples that the bytes of a surface hold: one byte each, or bits [15:6] of a container (R396). -/
def samplesOf (wide : Bool) (l : List Byte) : List Nat :=
  if wide then (numbers 2 (l.length / 2) l).map (· / 64) else l.map BitVec.toNat

/-- What the search sees of a stream for a source picture's samples: luma comes first. -/
def searchOf (lib : Nat) (m : MStream) (samples : List Nat) : Search :=
  { lib := lib, codec := srCodec m.record, width := srWidth m.record, height := srHeight m.record
    source := samples.take (srWidth m.record * srHeight m.record), refs := m.refs }

/-- The input of a frame: its flags, the stream record and source picture, and for an inter frame the vectors found. The
second part is the final vectors (R407 to R409). -/
def frameInput (lib : Nat) (m : MStream) (f : MFrame) (x : Line) (samples : List Nat) (hints : List Byte) :
    List Nat × Tab Mv :=
  let base := [b2n f.key, b2n (frForceKey x), b2n (frEndGop x), b2n f.slate.isSome, m.record.toNat] ++ samples
  if f.key then (base, [])
  else
    let (found, final) := (searchOf lib m samples).frame m.history base (hintWords hints) (srHints m.record) m.vectors
    (base ++ found.flatMap fun p => mvNumbers p.2, final)

/-- The stream after a coded frame: rate control, references and vectors, and where the frame is the first since a slate's
key frame was due, that is done (R395, R405, R418). -/
def MStream.coded (m : MStream) (lib : Nat) (f : MFrame) (input : List Nat) (final : Tab Mv) (r : RcState) (fill qp : Nat) : MStream :=
  { m with
    fill := fill
    qpNext := qp
    frames := wrap32 (m.frames + 1)
    emergency := sat32 (m.emergency + r.emergency * srRowUnits m.record)
    keyDue := m.keyDue && !(f.key && !f.stale)
    sinceKey := if f.key then 1 else m.sinceKey + 1
    refs := (((List.range (srWidth m.record * srHeight m.record)).map (Config.reconSample lib m.history input r.rows)) ::
      m.refs).take 3
    vectors := final
    history := Config.mediaHistory lib m.history (input ++ r.rows.map Prod.fst) }

/-- A frame's write fails: its outputs are undefined (R190, R239), and the stream is as before. -/
def State.frameFails (s : State) (id : CmdId) (st : Nat) (out : List (Nat × Nat)) : State :=
  (out.foldl (fun t r => t.cvaHavoc id r.1 r.2) s).finish id (mediaStatus st) 0

/-- An encoder finishes a frame. Its bytes follow from the stream's history and the frame's input alone (R409); with the
write of them the frame's number, and where its stream feeds a port its place in the queue (R419). -/
def State.encodeDone (s : State) (f : MFrame) (c : Cmd) : State :=
  let x := c.ext
  let m := s.mstream f.slot
  let lib := s.mediaLib
  let pic := s.readRanges f.cmd (sfRows (frSurface x))
  let hint := if f.key then (0, []) else s.readRanges f.cmd (hintRows m.record x)
  let st := firstStatus [pic.1, hint.1]
  if st ≠ 0 then s.finish f.cmd (mediaStatus st) 0
  else if anyPoison (pic.2 ++ hint.2) then s.consumePoison f.cmd
  else
    let (input, final) := frameInput lib m f x (samplesOf (srTenBit m.record) (unmark pic.2)) (unmark hint.2)
    let r := rcFrame m.record m.fill m.qpNext (frBitsBytes x * 8) (Config.rowBits lib m.history input)
    let (fill, filler, qp) := rcEnd m.record m.fill r
    let n := min (frBitsBytes x) (cdiv (r.used + filler) 8)
    let bytes := (List.range n).map (Config.codedByte lib m.history input r.rows)
    let d := m.coded lib f input final r fill qp
    match s.cvaWrite f.cmd (placeRank (frBitsVa x)) (frBitsVa x) (clean bytes) with
    | (u, 0) =>
      let u := u.poolWrite f.cmd f.slot d
      (match u.poFeeds f.slot with
      | none => u.endWork f.cmd 0 n
      | some p =>
        let (v, ok) := u.poCoded p f.cmd f.stale ⟨0, 0, bytes, frEndGop x, f.key, d.history, 16 * (d.sinceKey - 1)⟩
        if ok then v.endWork f.cmd 0 n else v.modCmd f.cmd fun d => { d with worked := true, result := n })
    | (u, st) => u.frameFails f.cmd st [(frBitsVa x, frBitsBytes x)]

/-- An encoder finishes a slate: coded as a key frame, it stands in the port's slate store. The stream's rate control,
references and frame count are as before (R417). -/
def State.slateDone (s : State) (f : MFrame) (c : Cmd) (p : Nat) : State :=
  let m := s.mstream f.slot
  let lib := s.mediaLib
  match s.readRanges f.cmd (sfRows (fld c.ext 255 0)) with
  | (0, l) =>
    if anyPoison l then s.consumePoison f.cmd
    else
      let (input, _) := frameInput lib m f 0 (samplesOf (srTenBit m.record) (unmark l)) []
      let bytes := (List.range (Config.slateLength lib m.history input)).map (Config.codedByte lib m.history input [])
      let h := Config.mediaHistory lib m.history input
      ((s.poolWrite f.cmd f.slot { m with history := h }).setPo p
        { s.po p with slate := some ⟨0, 0, bytes, false, true, h, 0⟩ }).finish f.cmd 0 0
  | (st, _) => s.finish f.cmd (mediaStatus st) 0

/-! ### Decoding (R410 to R412) -/

/-- The samples of a picture as bytes: 8-bit ones, or 10-bit ones in bits [15:6] of a container (R396). -/
def sampleBytes (tenBit : Bool) (l : List Nat) : List Byte :=
  l.flatMap fun v => if tenBit then toBytes 2 (v % 1024 * 64) else toBytes 1 (v % 256)

/-- The units of one picture in order: which are concealed, and the cycles spent, from `spent` on. A unit is concealed where
it is damaged, exceeds 8,000 cycles, or the frame's budget is spent; then every unit up to the next start of a tile or
slice is (R411). Input that conforms is concealed nowhere, at the cost of R401. -/
def concealUnits (m : Line) (history : Nat) (input : List Nat) (f spent : Nat) : List Bool × Nat :=
  let ok := Config.conforms history input
  let budget := srFrameNs m
  let (l, spent, _) := (List.range (srUnits m)).foldl (fun (acc : List Bool × Nat × Bool) u =>
    let (l, spent, run) := acc
    let cost := Config.unitCycles history input f u
    if ok then (l ++ [false], min budget (spent + min (srCost m) cost), false)
    else
      let run := run && !Config.groupStart history input f u
      let lost := run || Config.headerDamaged history input f || Config.unitDamaged history input f u ||
        decide (8000 < cost) || decide (budget ≤ spent)
      (l ++ [lost], (if run then spent else min budget (spent + min 8000 cost)), lost)) ([], spent, false)
  (l, spent)

/-- The unit that sample n of a picture lies in: luma first, then interleaved Cb and Cr of 4:2:0. -/
def unitOf (m : Line) (n : Nat) : Nat :=
  let w := srWidth m
  let y := if n < w * srHeight m then n / w else 2 * ((n - w * srHeight m) / w)
  y / 64 * srRowUnits m + n % w / 64

/-- One decoded picture: concealed units take the co-located samples of the picture decoded before it, or mid-grey (R411). -/
def pictureOf (m : Line) (history : Nat) (input : List Nat) (f : Nat) (lost : List Bool) (before : Option (List Nat)) : List Nat :=
  (List.range (srWidth m * srHeight m * 3 / 2)).map fun n =>
    if nth lost (unitOf m n) false then
      (match before with
      | some l => nth l n 0
      | none => if srTenBit m then 512 else 128)
    else Config.pictureSample history input f n % (if srTenBit m then 1024 else 256)

/-- A stream's decoding of one input: units concealed, cycles spent, the picture to write if any, the pictures then kept. -/
structure Decoded where
  lost : List Bool
  cycles : Nat
  shown : Option (List Nat)
  pictures : List (List Nat)

/-- A decoder's work on one temporal or access unit. Input that does not conform yields a whole picture always (R411). -/
def decodeInput (m : MStream) (input : List Nat) : Decoded :=
  let h := m.history
  let x := m.record
  let n := if Config.conforms h input then Config.pictureCount h input else max 1 (Config.pictureCount h input)
  let keep := if srCodec x = 0 then 9 else 17
  let (lost, cycles, pics) := (List.range n).foldl (fun (acc : List Bool × Nat × List (List Nat)) f =>
    let (lost, spent, pics) := acc
    let (l, spent) := concealUnits x h input f (min (srFrameNs x) (spent + min 20000 (Config.headerCycles h input f)))
    (lost ++ l, spent, (pictureOf x h input f l pics.head? :: pics).take keep)) ([], 0, m.pictures)
  let out := if lost.any id then some ((Config.outputIndex h input).getD 0) else Config.outputIndex h input
  { lost := lost, cycles := cycles, pictures := pics
    shown := match out with
      | none => none
      | some i => (pics[i]?.or pics.head?).map fun l => (List.range l.length).map fun n =>
          Config.shownSample h input n (nth l n 0) % (if srTenBit x then 1024 else 256) }

/-- A decoder finishes a frame: the picture is written, and 0x0808 completes one with concealed units. Input outside Table
15.1 changes nothing (R410 to R412). -/
def State.decodeDone (s : State) (f : MFrame) (c : Cmd) : State :=
  let x := c.ext
  let m := s.mstream f.slot
  let src := s.cvaRead f.cmd (frBitsVa x) (frBitsBytes x)
  if src.1 ≠ 0 then s.finish f.cmd (mediaStatus src.1) 0
  else if anyPoison src.2 then s.consumePoison f.cmd
  else
    let input := m.record.toNat :: (unmark src.2).map BitVec.toNat
    if Config.outsideSubset m.history input then s.finish f.cmd 0x0807 (2 ^ 33) else
    let d := decodeInput m input
    let lost := (d.lost.filter id).length
    let (u, st) := match d.shown with
      | some l => s.writeRanges f.cmd (sfRows (frSurface x)) (sampleBytes (srTenBit m.record) l)
      | none => (s, 0)
    if st ≠ 0 then u.frameFails f.cmd st (sfRows (frSurface x))
    else
      (u.poolWrite f.cmd f.slot { m with
        frames := wrap32 (m.frames + 1)
        concealed := sat32 (m.concealed + lost)
        history := Config.mediaHistory s.mediaLib m.history (input ++ d.lost.map b2n)
        pictures := d.pictures }).endWork f.cmd (if lost = 0 then 0 else 0x0808) (lost + 2 ^ 32 * b2n d.shown.isSome)

/-! ### The end of a frame (R401, R404) -/

/-- The cycles an engine spends on a frame: an encoder's exactly, a decoder's within the same bound (R401). -/
def State.frameCycles (s : State) (f : MFrame) : Nat :=
  let m := s.mstream f.slot
  match s.cmd? f.cmd with
  | some c =>
    if srDecode m.record then
      let src := s.cvaRead f.cmd (frBitsVa c.ext) (frBitsBytes c.ext)
      (decodeInput m (m.record.toNat :: (unmark src.2).map BitVec.toNat)).cycles
    else srFrameNs m.record
  | none => if srDecode m.record then 0 else srFrameNs m.record

/-- What a frame reads, and what it writes. -/
def State.frameReads (s : State) (f : MFrame) (c : Cmd) : List (Nat × Nat) :=
  let m := (s.mstream f.slot).record
  if f.slate.isSome then sfRows (fld c.ext 255 0)
  else if srDecode m then [(frBitsVa c.ext, frBitsBytes c.ext)]
  else sfRows (frSurface c.ext) ++ if f.key then [] else hintRows m c.ext
def State.frameWrites (s : State) (f : MFrame) (c : Cmd) : List (Nat × Nat) :=
  if f.slate.isSome then []
  else if srDecode (s.mstream f.slot).record then sfRows (frSurface c.ext) else [(frBitsVa c.ext, frBitsBytes c.ext)]

/-- MEDIA_FRAME_DONE: an engine finishes its frame, once no write of it must wait for a reclaim or another command's copy
(R190, R192). Its reads count as DEMAND or URGENT ones (R251, R401). -/
def execMediaFrameEnd (eng : Fin 24) (s : State) : Out :=
  .next (
    match (s.engine eng).running with
    | none => s
    | some f =>
      match s.cmd? f.cmd with
      | none => s.freeEngine eng f (s.frameCycles f)
      | some c =>
        if (s.frameWrites f c).any fun r => s.writeWaits f.cmd r.1 r.2 then s else
        let t := (s.freeEngine eng f (s.frameCycles f)).noteReads f.cmd true (s.frameReads f c)
        match f.slate with
        | some p => t.slateDone f c p
        | none => if srDecode (s.mstream f.slot).record then t.decodeDone f c else t.encodeDone f c)

/-- The effect of `Instr.mediaFrameDone`: that of the engine's row alone. -/
def execMediaFrameDone (eng : Fin 24) (_cycles _rows _units _picture _outside : Nat) (s : State) : Out := execMediaFrameEnd eng s

end Sys2Proof.Machine
end

