-- ==== Sys2Proof/Machine/Packets.lean ====
section
/-!
DEFINITION. The packets of a playout port: Ethernet, VLAN, IPv4, UDP and RTP headers, the payloads of AV1, HEVC and
uncompressed video, and the times at which they leave (R413 to R416).
-/

namespace Sys2Proof.Machine

open Sys2Proof

/-! ### A port's configuration (Table 15.10) -/

def State.poCfg (s : State) (p : Nat) : Nat := s.reg (poBase p)
def State.poCompressed (s : State) (p : Nat) : Bool := bit (s.poCfg p) 0
def State.poSlot (s : State) (p : Nat) : Nat := bits (s.poCfg p) 14 9
def State.poOwner (s : State) (p : Nat) : Nat := bits (s.poCfg p) 25 22
def State.poRaster (s : State) (p : Nat) : Nat × Nat :=
  nth [(3840, 2160), (1920, 1080), (1280, 720)] (bits (s.poCfg p) 2 1) (0, 0)

/-- PO_REPEAT_MAX as it reads back: at most 15 for an HEVC stream (R416). -/
def State.poRepeatMax (s : State) (p : Nat) : Nat :=
  bits (s.clampReg (poBase p + 0x28) (s.reg (poBase p + 0x28))) 7 0

/-- Frames per second of a port (Table 15.7). -/
def State.poRate (s : State) (p : Nat) : Frac :=
  nth [(24000, 1001), (24, 1), (25, 1), (30000, 1001), (30, 1), (50, 1), (60000, 1001), (60, 1)] (bits (s.poCfg p) 6 3) (1, 1)

/-! ### Headers -/

/-- A number as big-endian bytes: network order. -/
def netBytes (n v : Nat) : List Byte := (toBytes n v).reverse

/-- Destination and source MAC, the tag where PO_NET turns it on, and the EtherType of IPv4. -/
def State.macHeader (s : State) (p : Nat) : List Byte :=
  let r := fun o => s.reg (poBase p + o)
  let net := r 0x24
  netBytes 6 (r 0x08 + 2 ^ 32 * bits (r 0x0C) 15 0) ++ netBytes 6 (r 0x10 + 2 ^ 32 * bits (r 0x14) 15 0) ++
    (if bit net 15 then netBytes 2 0x8100 ++ netBytes 2 (bits net 14 12 * 8192 + bits net 11 0) else []) ++ netBytes 2 0x0800

/-- The one's complement sum of 16-bit words that an IPv4 header carries. -/
def headerSum (l : List Byte) : Nat :=
  let t := sumNat ((numbers 2 (l.length / 2) l).map fun w => w % 256 * 256 + w / 256)
  let t := t % 65536 + t / 65536
  0xFFFF - (t % 65536 + t / 65536)

/-- IPv4 and UDP headers before `n` octets of RTP: no options, not a fragment. -/
def State.ipHeader (s : State) (p number n : Nat) : List Byte :=
  let r := fun o => s.reg (poBase p + o)
  let net := r 0x24
  let head := fun (sum : Nat) =>
    netBytes 1 0x45 ++ netBytes 1 (bits net 21 16 * 4) ++ netBytes 2 (28 + n) ++ netBytes 2 (Config.ipIdent p number) ++
      netBytes 2 (if Config.ipWhole p number then 0x4000 else 0) ++ netBytes 1 (bits net 29 22) ++ netBytes 1 17 ++
      netBytes 2 sum ++ netBytes 4 (r 0x1C) ++ netBytes 4 (r 0x18)
  head (headerSum (head 0)) ++ netBytes 2 (bits (r 0x20) 31 16) ++ netBytes 2 (bits (r 0x20) 15 0) ++ netBytes 2 (8 + n) ++
    netBytes 2 (Config.udpSum p number)

/-- The sequence number of a port's packet. -/
def rtpSequence (p number : Nat) : Nat := Config.rtpFirst p + number

/-- An RTP header: version 2, no padding, extension or CSRC; the marker; payload type, sequence number, timestamp, SSRC. -/
def State.rtpHeader (s : State) (p number stamp : Nat) (marker : Bool) : List Byte :=
  netBytes 1 0x80 ++ netBytes 1 (b2n marker * 128 + bits (s.poCfg p) 21 15) ++ netBytes 2 (rtpSequence p number) ++
    netBytes 4 stamp ++ netBytes 4 (s.reg (poBase p + 0x04))

/-- A whole packet around a payload. -/
def State.packetBytes (s : State) (p number stamp : Nat) (marker : Bool) (payload : List Byte) : List Byte :=
  s.macHeader p ++ s.ipHeader p number (12 + payload.length) ++ s.rtpHeader p number stamp marker ++ payload

/-! ### Uncompressed video (SMPTE ST 2110-20) -/

/-- A pgroup of two pixels, Cb, Y, Cr, Y of 10 bits each, as five octets. -/
def pgroup (cb y0 cr y1 : Nat) : List Byte := netBytes 5 (cb % 1024 * 2 ^ 30 + y0 % 1024 * 2 ^ 20 + cr % 1024 * 2 ^ 10 + y1 % 1024)

/-- The sample data of a 4:2:2 picture, row by row, from its luma rows and then its rows of interleaved Cb and Cr. -/
def sampleData (w h : Nat) (l : List Nat) : List Byte :=
  (List.range h).flatMap fun y => (List.range (w / 2)).flatMap fun i =>
    let a := fun k => nth l (y * w + k) 0
    let b := fun k => nth l ((h + y) * w + k) 0
    pgroup (b (2 * i)) (a (2 * i)) (b (2 * i + 1)) (a (2 * i + 1))

/-- The row pieces of the octets from `a` to `b` of a picture's sample data: row, first pixel, octets; `n` rows at most. -/
def rowPieces (rowBytes : Nat) : Nat → Nat → Nat → List (Nat × Nat × Nat)
  | 0, _, _ => []
  | n + 1, a, b =>
    if b ≤ a then [] else
    let e := min b ((a / rowBytes + 1) * rowBytes)
    (a / rowBytes, a % rowBytes / 5 * 2, e - a) :: rowPieces rowBytes n e b

/-- The sample row data headers of pieces: length, row, continuation and offset. -/
def rowHeaders : List (Nat × Nat × Nat) → List Byte
  | [] => []
  | (y, x, n) :: rest =>
    netBytes 2 n ++ netBytes 2 y ++ netBytes 2 (b2n (!rest.isEmpty) * 32768 + x) ++ rowHeaders rest

/-- The payload of one uncompressed packet: the high half of its sequence number, row headers, and up to 1,200 octets. -/
def rawPayload (p number w : Nat) (data : List Byte) (j : Nat) : List Byte :=
  let part := (data.drop (1200 * j)).take 1200
  netBytes 2 (rtpSequence p number / 65536) ++ rowHeaders (rowPieces (w / 2 * 5) 1201 (1200 * j) (1200 * j + part.length)) ++ part

/-! ### Coded units -/

/-- An unsigned little-endian base 128 number and what follows it, of at most `n` bytes. -/
def leb128 : Nat → List Byte → Nat × List Byte
  | 0, l => (0, l)
  | _ + 1, [] => (0, [])
  | n + 1, b :: r =>
    if b.toNat < 128 then (b.toNat, r) else ((leb128 n r).1 * 128 + b.toNat % 128, (leb128 n r).2)

/-- A number in that form, of at most `n` bytes. -/
def toLeb128 : Nat → Nat → List Byte
  | 0, _ => []
  | n + 1, v => if v < 128 then [BitVec.ofNat 8 v] else BitVec.ofNat 8 (v % 128 + 128) :: toLeb128 n (v / 128)

/-- The OBUs of a temporal unit, at most `n`: each without its size field, the temporal delimiters left out. -/
def obus : Nat → List Byte → List (List Byte)
  | 0, _ => []
  | _ + 1, [] => []
  | n + 1, h :: r =>
    let ext := if flag h 2 then 1 else 0
    let (size, body) := if flag h 1 then leb128 8 (r.drop ext) else (r.length - ext, r.drop ext)
    let rest := obus n (body.drop size)
    if fld h 6 3 = 2 then rest
    else (BitVec.ofNat 8 (h.toNat - 2 * b2n (flag h 1)) :: r.take ext ++ body.take size) :: rest

/-- The NAL units of a byte stream: what stands between start codes, of at most `n` bytes. -/
def nals : Nat → List Byte → List Byte → List (List Byte)
  | 0, acc, _ => if acc = [] then [] else [acc]
  | _ + 1, acc, [] => if acc = [] then [] else [acc]
  | n + 1, acc, a :: r =>
    if a = 0 ∧ r.take 2 = [0, 1] then (if acc = [] then [] else [acc]) ++ nals n [] (r.drop 2)
    else if a = 0 ∧ r.take 3 = [0, 0, 1] then nals n acc r
    else nals n (acc ++ [a]) r

/-- Pieces of at most `size` bytes, `n` of them at most. -/
def splitBytes (size : Nat) : Nat → List Byte → List (List Byte)
  | 0, _ => []
  | n + 1, l => if l = [] then [] else l.take size :: splitBytes size n (l.drop size)

/-- The payloads of one OBU: the aggregation header with Z and Y for its fragments, N on the first packet of a key frame, and
W = 0, so the element carries its length (Table 15.7). -/
def obuPayloads (room : Nat) (key first : Bool) (u : List Byte) : List (List Byte) :=
  let l := splitBytes (room - 9) u.length u
  (List.range l.length).map fun i =>
    let part := nth l i []
    BitVec.ofNat 8 (b2n (decide (0 < i)) * 128 + b2n (decide (i + 1 < l.length)) * 64 + b2n (key && first && i == 0) * 8) ::
      toLeb128 8 part.length ++ part

/-- The payloads of one NAL unit: itself, or fragmentation units of type 49 with S and E (RFC 7798). -/
def nalPayloads (room : Nat) (u : List Byte) : List (List Byte) :=
  if u.length ≤ room then [u] else
  let h := (nth u 0 0).toNat
  let l := splitBytes (room - 3) u.length (u.drop 2)
  (List.range l.length).map fun i =>
    BitVec.ofNat 8 (h / 128 * 128 + 98 + h % 2) :: nth u 1 0 ::
      BitVec.ofNat 8 (b2n (i == 0) * 128 + b2n (i + 1 == l.length) * 64 + h / 2 % 64) :: nth l i []

/-- The payloads of coded bytes under an IP MTU: each OBU or NAL unit begins a packet of its own. -/
def codedPayloads (codec mtu : Nat) (key : Bool) (l : List Byte) : List (List Byte) :=
  let room := mtu - 40
  if codec = 0 then
    let u := obus l.length l
    (List.range u.length).flatMap fun i => obuPayloads room key (i == 0) (nth u i [])
  else (nals l.length [] l).flatMap (nalPayloads room)

/-- AV1's repeat: a frame header OBU of one byte with show_existing_frame, the slot of the last shown frame, and trailing
bits (R416). -/
def showExisting (history : Nat) : List Byte :=
  [0x1A, 0x01, BitVec.ofNat 8 (0x88 + 16 * (Config.showIndex history % 8))]

/-- HEVC's end of sequence NAL unit with its start code (R420). -/
def endOfSequence : List Byte := [0, 0, 1, 0x48, 0x01]

/-! ### The packets of a frame (R414, R415) -/

/-- The RTP timestamp of alignment point k: ⌊t_k · 90,000⌋ mod 2^32, with t_k = k · T_f after the PTP epoch. -/
def rtpStamp (rate : Frac) (k : Nat) : Nat := wrap32 (k * rate.2 * 90000 / rate.1)

/-- When packet j of n leaves, in ns after the PTP epoch: t_k + PO_OFFSET + j · T_f / n. -/
def leaveAt (rate : Frac) (offset k n j : Nat) : Nat := offset + (k * n + j) * rate.2 * 1000000000 / (rate.1 * n)

/-- The payloads of an uncompressed frame's sample data. -/
def State.rawPayloads (s : State) (p : Nat) (data : List Byte) : List (List Byte) :=
  (List.range (cdiv data.length 1200)).map fun j =>
    rawPayload p ((s.po p).packetsMade + j) (s.poRaster p).1 data j

/-- A port's queue of packets with those of one more frame. -/
def State.poSendPackets (s : State) (p k seq : Nat) (payloads : List (List Byte)) : State :=
  let q := s.po p
  let n := payloads.length
  let rate := s.poRate p
  let offset := s.reg (poBase p + 0x2C)
  s.setPo p { q with
    packetsMade := q.packetsMade + n
    packets := q.packets ++ (List.range n).map fun j =>
      ⟨s.packetBytes p (q.packetsMade + j) (rtpStamp rate k) (j + 1 == n) (nth payloads j []), leaveAt rate offset k n j, seq,
        j + 1 == n⟩ }

end Sys2Proof.Machine
end

