-- ==== Sys2Proof/Machine/Playout.lean ====
section
/-!
DEFINITION. Playout ports: the queue, the cadence with its repeats and slate, start, run-out and stop, and the PTP clock
(R413 to R423).
-/

namespace Sys2Proof.Machine

open Sys2Proof

/-! ### The end of run-out (R420) -/

/-- A port reaches IDLE: queued frames left unsent are released and counted, a frame waiting for room is dropped, and
PLAY_STOP completes with the count; a completed commit of the port's registers then takes effect (R420, R432). -/
def State.poIdle (s : State) (p : Nat) : State :=
  let q := s.po p
  let n := q.queue.length
  let t := (s.setPo p { q with
    mode := .idle, queue := [], freeSeq := q.nextSeq, last := none, slateSent := none, showing := .nothing, repeats := 0,
    sinceSlate := 0, packets := [], stop := none, ending := false, runOutNs := 0, entering := none }).addSat (poBase p + 0x58) n
  let t := match q.entering with
    | some (id, _) => t.checkWork id
    | none => t
  let t := match q.stop with
    | some id => t.finish id 0 n
    | none => t
  t.commitPoint (4 + p)

/-- A port whose run-out ends with the frame it sends is IDLE once that frame has left. -/
def State.poEnd (s : State) (p : Nat) : State :=
  let q := s.po p
  if q.mode == .runOut && q.ending && q.packets.isEmpty then s.poIdle p else s

/-- Run-out starts: an uncompressed port, one that shows the slate and one that has sent nothing stop after the frame they
send; another compressed one after the end of its group (R420). -/
def State.runOut (s : State) (p : Nat) (stop : Option CmdId) : State :=
  let q := s.po p
  if q.mode = .armed ∨ q.mode = .running then
    (s.setPo p { q with
      mode := .runOut, stop := stop, runOutNs := 0
      ending := !s.poCompressed p || q.showing == .slate || q.showing == .nothing }).poEnd p
  else if q.mode = .runOut then s.setPo p { q with stop := stop.or q.stop }
  else match stop with
    | some id => s.finish id 0 0
    | none => s

/-- The ports a context owns start run-out (R420). -/
def State.runOutOf (s : State) (cx : Nat) : State :=
  iter 2 (fun p t => if t.poOwner p = cx then t.runOut p none else t) s

/-! ### Cadence (R415, R416, R418) -/

/-- A coded frame that waits for room enters the queue (R419). -/
def State.poEnter (s : State) (p : Nat) : State :=
  match (s.po p).entering with
  | none => s
  | some (id, f) =>
    let (t, ok) := (s.setPo p { s.po p with entering := none }).poCoded p id false f
    if ok then t.checkWork id else t

/-- The frames a stream's encoder works on are stale: their coding began before a slate was sent; the stream's next frame
will be a key frame (R418). -/
def State.staleStream (s : State) (slot : Nat) : State :=
  let m := s.mstream slot
  let t := s.setMstream slot { m with keyDue := true }
  { t with media := { t.media with engines := t.media.engines.map fun e =>
      (e.1, { e.2 with running := e.2.running.map fun f => if f.slot = slot then { f with stale := true } else f }) } }

/-- Who reads a queued surface: the port, for its owning context. -/
def State.poReader (s : State) (p : Nat) : CmdId := ⟨s.poOwner p, 3, 0⟩

/-- The payloads of an uncompressed frame from its surface; the host keeps it as it was until PO_FREE_SEQ has passed it. -/
def State.surfacePayloads (s : State) (p : Nat) (f : PFrame) : List (List Byte) :=
  let (w, h) := s.poRaster p
  let data := match s.readRanges (s.poReader p) (sfRows f.surface) with
    | (0, l) => unmark l
    | _ => (List.range (4 * w * h)).map (Config.lostSample f.seq)
  s.rawPayloads p (sampleData w h (samplesOf true data))

/-- The payloads of a port's coded bytes. -/
def State.poPayloads (s : State) (p : Nat) (key : Bool) (l : List Byte) : List (List Byte) :=
  codedPayloads (srCodec (s.mstream (s.poSlot p)).record) (s.reg (poBase p + 0x30)) key l

/-- The payloads of a frame that is sent: a real one, or where `slate` a slate with its samples at hand. A frame that ends
run-out carries HEVC's end of sequence (R420). -/
def State.framePayloads (s : State) (p : Nat) (slate : Bool) (f : PFrame) : List (List Byte) :=
  if s.poCompressed p then
    s.poPayloads p f.key (f.coded ++ if !slate && f.endGop && s.poHevc p && (s.po p).mode == .runOut then endOfSequence else [])
  else if slate then
    s.rawPayloads p (sampleData (s.poRaster p).1 (s.poRaster p).2 (samplesOf true f.coded))
  else s.surfacePayloads p f

/-- The payloads of the r-th repeat of a frame (R416). -/
def State.repeatPayloads (s : State) (p : Nat) (slate : Bool) (f : PFrame) (r : Nat) : List (List Byte) :=
  if !s.poCompressed p then s.framePayloads p slate f
  else if s.poHevc p then s.poPayloads p false (Config.skipPicture f.history (f.poc + r))
  else s.poPayloads p false (showExisting f.history)

/-- The sequence number that PO_FREE_SEQ keeps below while the port may repeat its last real frame. -/
def State.poHeldSeq (s : State) (p : Nat) : Nat := ((s.po p).last.map PFrame.seq).getD (s.po p).freeSeq

/-- A port's surface reads count as DEMAND ones (R401). -/
def State.poNote (s : State) (p : Nat) (f : PFrame) : State :=
  if s.poCompressed p then s else s.noteReads (s.poReader p) true (sfRows f.surface)

/-- A repeat is counted in its run: after a slate, or of a real frame. -/
def State.countRepeat (s : State) (p : Nat) (slate : Bool) : State :=
  let q := s.po p
  if slate then s.setPo p { q with sinceSlate := q.sinceSlate + 1 }
  else s.setPo p { q with showing := .repeated, repeats := q.repeats + 1 }

/-- The port sends a repeat of what it sent last: a slate, or the last real frame. -/
def State.poRepeat (s : State) (p k : Nat) : State :=
  let q := s.po p
  let seq := s.poHeldSeq p
  let t :=
    if q.showing = .slate then
      match q.slateSent with
      | some f => (s.poSendPackets p k seq (s.repeatPayloads p true f (q.sinceSlate + 1))).countRepeat p true
      | none => s.countRepeat p true
    else
      match q.last with
      | some f => ((s.poNote p f).poSendPackets p k seq (s.repeatPayloads p false f (q.repeats + 1))).countRepeat p false
      | none => s.countRepeat p false
  t.addSat (poBase p + 0x50) 1

/-- The port sends the slate; a compressed stream's next frame will be a key frame, and what was coded before is not sent
(R416, R418). -/
def State.poSlate (s : State) (p k : Nat) : State :=
  let t := match (s.po p).slate with
    | some f => s.poSendPackets p k (s.poHeldSeq p) (s.framePayloads p true f)
    | none => s
  let q := t.po p
  let t := (t.setPo p { q with showing := .slate, sinceSlate := 0, slateSent := q.slate }).addSat (poBase p + 0x54) 1
  if t.poCompressed p then t.staleStream (t.poSlot p) else t

/-- The port sends a real frame. -/
def State.poReal (s : State) (p k : Nat) (f : PFrame) (rest : List PFrame) : State :=
  let t := (s.poNote p f).poSendPackets p k f.seq (s.framePayloads p false f)
  let q := t.po p
  ((t.setPo p { q with
    queue := rest, last := some f, slateSent := none, showing := .real, repeats := 0, sinceSlate := 0
    ending := q.ending || (q.mode == .runOut && f.endGop) }).addWrap (poBase p + 0x4C) 1).poEnter p

/-- The port takes what it sends at the next alignment point: the queue's head, a repeat, or after PO_REPEAT_MAX repeats in
a row the slate, and while that shows the slate again every 16 frames (R415, R416). -/
def State.poSend (s : State) (p k : Nat) : State :=
  let q := s.po p
  match q.queue with
  | f :: rest => s.poReal p k f rest
  | [] =>
    if q.showing = .slate then (if 15 ≤ q.sinceSlate then s.poSlate p k else s.poRepeat p k)
    else if q.repeats < s.poRepeatMax p then s.poRepeat p k
    else s.poSlate p k

/-- PLAYOUT_FRAME_TAKE for alignment point `po.k`: completed register writes take effect at the alignment point (R421, R432); an ARMED port starts
once its clock is LOCKED and a frame is queued (R419). -/
def execPlayoutFrameTake (po : FrameTake) (s : State) : Out :=
  .next (
    let p := po.port
    let t := if s.poQuiet p then s else s.commitPoint (4 + p.val)
    let q := t.po p
    if q.mode = .armed then
      (if q.clock = .locked ∧ q.queue ≠ [] then (t.setPo p { q with mode := .running }).poSend p po.k else t)
    else if q.mode = .running then t.poSend p po.k
    else if q.mode = .runOut ∧ !q.ending then t.poSend p po.k
    else t)

/-- PLAYOUT_PACKET_SEND: one packet of the frame being sent leaves. With its last one the frame is sent: earlier frames are
released, and a run-out that ends with it is over (R415, R419, R420). -/
def execPlayoutPacketSend (po : Fin 2) (s : State) : Out :=
  .next (
    let q := s.po po
    match q.packets with
    | [] => s
    | k :: rest =>
      (s.setPo po { q with
        packets := rest, wire := some k, packetsSent := wrap32 (q.packetsSent + 1)
        freeSeq := if k.last then k.seq else q.freeSeq }).poEnd po)

/-- RUN_OUT_LIMIT: 2 s less one frame period after PLAY_STOP, the port stops after the frame it sends (R420). -/
def execRunOutLimit (po : Fin 2) (s : State) : Out :=
  .next (
    let q := s.po po
    let f := s.poRate po
    if q.mode == .runOut && decide (2000000000 * f.1 ≤ q.runOutNs * f.1 + 1000000000 * f.2) then
      (s.setPo po { q with ending := true }).poEnd po
    else s)

/-! ### The playout commands (R417, R419, R420) -/

/-- The port a playout command names. -/
def cmdPort (c : Cmd) : Nat := fld c.desc 192 192

/-- PLAY_START (R419, R436). -/
def execPlayStart (cx : Fin 16) (s : State) : Out :=
  .next (s.mediaRun cx 0x34 fun t id c =>
    let p := cmdPort c
    let q := t.po p
    if t.poOwner p ≠ cx then t.finish id 0x0903 0
    else if !t.setClosed (4 + p) || q.mode != .idle || q.slate.isNone then t.finish id 0x0902 0
    else (t.setPo p { q with mode := .armed }).finish id 0 0)

/-- PLAY_STOP completes when the port reaches IDLE (R420). -/
def execPlayStop (cx : Fin 16) (s : State) : Out :=
  .next (s.mediaRun cx 0x35 fun t id c =>
    let p := cmdPort c
    if t.poOwner p ≠ cx then t.finish id 0x0903 0 else t.runOut p (some id))

/-- A surface suits an uncompressed port: its raster, in layout 2 (R419). -/
def State.poSurfaceOk (s : State) (p v : Nat) : Bool :=
  !surfaceBad v && sfLayout v == 2 && (sfWidth v, sfHeight v) == s.poRaster p

/-- PLAY_QUEUE: a surface joins the queue; it waits while the queue is full, and completes with the frame's number. -/
def execPlayQueue (cx : Fin 16) (s : State) : Out :=
  .next (s.issueOrRun cx 3 (wantKind 0x36) (mediaPins cx) fun t id c =>
    let p := cmdPort c
    let q := t.po p
    let v := fld c.ext 255 0
    if t.poOwner p ≠ cx ∨ t.poCompressed p ∨ (q.mode ≠ .armed ∧ q.mode ≠ .running) then t.finish id 0x0903 0
    else if !t.poSurfaceOk p v then t.finish id 0x0904 0
    else if t.rangesBad id false (sfRows v) ≠ 0 then t.finish id (t.rangesBad id false (sfRows v)) 0
    else if 8 ≤ q.queue.length then t
    else (t.setPo p { q with
        queue := q.queue ++ [⟨q.nextSeq, v, [], false, false, 0, 0⟩]
        nextSeq := wrap32 (q.nextSeq + 1) }).finish id 0 q.nextSeq)

/-- SLATE: a copy of the surface stands in an uncompressed port's slate store; for a compressed port the stream's encoder
codes it, when an engine takes it up (R417). -/
def execSlate (cx : Fin 16) (s : State) : Out :=
  .next (s.mediaRun cx 0x37 fun t id c =>
    let p := cmdPort c
    let v := fld c.ext 255 0
    let m := (t.mstream (t.poSlot p)).record
    let coded := t.poCompressed p
    if t.poOwner p ≠ cx then t.finish id 0x0903 0
    else if coded && !t.streamHeld cx (t.poSlot p) then t.finish id 0x0803 0
    else if coded && (surfaceBad v || sfLayout v != b2n (srTenBit m) || sfWidth v != srWidth m || sfHeight v != srHeight m) then
      t.finish id 0x0801 0
    else if !coded && !t.poSurfaceOk p v then t.finish id 0x0904 0
    else if coded then
      (if t.rangesBad id false (sfRows v) ≠ 0 then t.finish id (t.rangesBad id false (sfRows v)) 0
      else t.frameReady id (t.poSlot p) (some p))
    else
      match t.readRanges id (sfRows v) with
      | (0, l) =>
        if anyPoison l then t.consumePoison id
        else
          ((t.noteReads id true (sfRows v)).setPo p { t.po p with slate := some ⟨0, 0, unmark l, false, true, 0, 0⟩ }).finish id 0 0
      | (st, _) => t.finish id (mediaStatus st) 0)

/-! ### The clock, and the counters (R414, R423) -/

/-- PTP_SYNC: `settled` says that the clock has been within 1 µs of its master for 1 s; a change of master leaves it in
HOLDOVER (R414). -/
def execPtpSync (po : Fin 2) (offset : Word) (settled : Bool) (newMaster : Bool) (s : State) : Out :=
  .next (
    let q := s.po po
    let clock := if newMaster then .holdover else if settled then .locked
      else if q.clock = .holdover then .holdover else .unlocked
    (s.setReg (poBase po + 0x5C) offset.toNat).setPo po { q with clock := clock })

/-- PTP_SYNC_LOSS. -/
def execPtpSyncLoss (po : Fin 2) (s : State) : Out := .next (s.setPo po { s.po po with clock := .holdover })

/-- PO_CLEAR: a write of 1 clears PO_REPEATS, PO_SLATES and PO_DISCARD. -/
def execPoClear (w : Writer) (po : Fin 2) (v : Word) (s : State) : Out :=
  .next (s.guarded w (poBase po + 0x60) v.toNat fun t =>
    if flag v 0 then [0x50, 0x54, 0x58].foldl (fun u o => u.setReg (poBase po + o) 0) t else t)

end Sys2Proof.Machine
end

