-- ==== Sys2Proof/Machine/Stops.lean ====
section
/-!
DEFINITION. Commands that are stopped: at the end of their declared duration (R380), at the teardown of their context
(R389 to R391), and with the loss of their host port (R345).
-/

namespace Sys2Proof.Machine

open Sys2Proof

/-! ### Stopping one command -/

/-- A lattice of every rank's infield becomes undefined. -/
def State.latticeHavoc (s : State) (x : Lattice) : State :=
  iter 75 (fun r t => (latticeStarts x.1 x.2.1).foldl (fun u a => u.infHavoc r a x.2.2) t) s

/-- The output extents of an issued command that did not end are undefined: those of a tier command, a HOST_COPY, an engine
command at its issued rows, a REDUCE's result at member 0 and a broadcast's landing at its origin (R264, R380, R390). -/
def State.havocCmd (s : State) (id : CmdId) (c : Cmd) : State :=
  let x := c.ext
  if c.kind = 0x10 then
    (if tierOp x = 1 then (tierParts x).foldl (fun u p => u.infHavoc p.1 (tierInf x p.2) (tierBytes x)) s
    else if tierOp x = 2 then (tierRanges x (tierA x)).foldl (fun u r => u.cvaHavoc id r.1 r.2) s
    else if tierOp x = 3 then (tierRanges x (tierB x)).foldl (fun u r => u.cvaHavoc id r.1 r.2) s
    else s)
  else if c.kind = 0x11 ∧ !flag c.desc 192 then s.cvaHavoc id (fld c.desc 303 256) (fld c.desc 415 384)
  else if c.kind = 0x03 then
    ((s.engineExtents x (s.shape id.cx (egRows x)) (s.slabSideOf x)).filter fun e => e.write).foldl
      (fun u e => u.latticeHavoc e.area) s
  else if c.kind = 0x20 ∧ (s.group id.cx (collGroup x)).mode = .active then
    let g := s.group id.cx (collGroup x)
    if collOp x = 1 ∧ g.self = 0 then
      (if collDstInf x then s.infHavoc (collDstRank x) (collDstLine x * 128) (4 * collCap x)
      else s.cvaHavoc id (collDstVa x) (4 * collCap x))
    else if (collOp x = 2 ∨ collOp x = 3) ∧ g.self = collOrigin x then
      (castRanks (collDstRank x)).foldl (fun u r => u.infHavoc r (collDstLine x * 128) (collCap x)) s
    else s
  else s

/-- The same for a command that ends because a stack stopped (R264). -/
def State.havocOf (s : State) (id : CmdId) : State :=
  match s.cmd? id with
  | some c => s.havocCmd id c
  | none => s

/-- What a command still had in flight is dropped: bytes behind a copy on write, held writes, frames not started, bulk
transfers. A copy on write under way ends as it would, and its frames stay as R187 has them. -/
def State.dropFlight (s : State) (id : CmdId) : State :=
  { s with
    kv := { s.kv with cows := s.kv.cows.map fun c => if c.cmd = id then { c with bytes := [] } else c }
    tiers := { s.tiers with heldWrites := s.tiers.heldWrites.filter fun h => h.cmd != id }
    links := { s.links with bulks := s.links.bulks.filter fun b => b.cmd != id }
    media := { s.media with
      waiting := s.media.waiting.filter fun f => f.cmd != id
      ports := s.media.ports.map fun p => (p.1, { p.2 with
        stop := if p.2.stop = some id then none else p.2.stop
        entering := match p.2.entering with
          | some e => if e.1 = id then none else some e
          | none => none }) } }

/-- An issued command stops with a status, which replaces any it had met (R380). -/
def State.stopCmd (s : State) (id : CmdId) (c : Cmd) (status : Nat) : State :=
  let s := s.modCmd id fun d => { d with status := 0 }
  match s.kernelOf id with
  | some (i, k) => s.cancelKernel i k status
  | none =>
    if c.kind = 0x04 then (s.endAttention id c).finish id status 0
    else if c.kind = 0x20 then (s.havocCmd id c).failCmd id status
    else ((s.havocCmd id c).dropFlight id).finish id status 0

/-! ### Declared duration (R380, R437) -/

/-- Whether a kernel waits on the sendable gate: the next claim of some rank's counter, or the stage C hand-off of a tile
whose partials are all posted, finds its stream not ready (R326, R328). -/
def State.sendWaits (s : State) (i : Nat) (k : Kernel) : Bool :=
  ((List.range 75).any fun r =>
    let l := s.lap r i
    match l.retry.head?.or (if l.next < l.stop then some l.next else none) with
    | none => false
    | some j =>
      let (tm, tn, tb) := k.place (j / k.parts)
      !s.tileSendable k (drainsOf k.prog) tm tn tb) ||
  (k.split && (List.range k.tiles).any fun t =>
    let (tm, tn, tb) := k.place t
    !k.summed.contains t && (List.range k.parts).all (fun p => k.posted.contains (t, p)) &&
      !s.tileSendable k [recReduce k.image.counter] tm tn tb)

/-- The status of a command whose time has passed before it issued; 0 where it is not stopped. -/
def State.waitStatus (s : State) (id : CmdId) (c : Cmd) : Nat :=
  if !s.waitMet id.cx c || (c.kind == 0x07 && !s.semMet id.cx c) then 0x0605
  else if s.counterWaits id.cx c then 0x0151
  else if (id.ring ≠ 3 ∧ !s.setClosed (16 + id.cx)) ∨ (s.pinsFor id.cx c).any (fun q => !s.setClosed (8 + q)) then 0x0A10
  else if id.ring = 3 ∧ 0x30 ≤ c.kind then 0x0809
  else if c.kind = 0x00 ∨ c.kind = 0x01 ∨ c.kind = 0x06 then 0
  else 0x0703

/-- The status of an issued command whose time has passed; 0 where it runs on: a frame that an engine has started, or one
that waits for the queue of a port, and a PLAY_STOP. -/
def State.workStatus (s : State) (id : CmdId) (c : Cmd) : Nat :=
  match s.kernelOf id with
  | some (i, k) => if s.sendWaits i k then 0x0413 else 0x0703
  | none =>
    if c.kind = 0x05 then 0x0339
    else if c.kind = 0x32 ∨ c.kind = 0x33 ∨ c.kind = 0x37 then (if s.media.waiting.any (fun f => f.cmd == id) then 0x0809 else 0)
    else if c.kind = 0x36 then 0x0809
    else if c.kind = 0x35 then 0
    else 0x0703

/-- A ring's command whose run time has reached its declared duration. -/
def State.expired (s : State) (cx r : Nat) : Option Cmd :=
  (s.ring cx r).cmds.find? fun c =>
    (s.timed cx r).contains c.index && !c.finished && c.refusal == 0 && decide (1000 * c.duration ≤ c.runNs)

/-- DURATION_EXPIRY: the command is stopped, at its next unit boundary, with its status. -/
def execDurationExpiry (cx : Fin 16) (ring : Fin 4) (s : State) : Out :=
  .next (
    match s.expired cx ring with
    | none => s
    | some c =>
      let id : CmdId := ⟨cx, ring, c.index⟩
      let st := if c.issued then s.workStatus id c else s.waitStatus id c
      if st = 0 then s
      else if c.issued then s.stopCmd id c st
      else s.finish id st 0)

/-! ### Teardown (R390, R391) -/

/-- The commands of a context that have issued and not ended. -/
def State.issuedOf (s : State) (cx : Nat) : List (CmdId × Cmd) :=
  (List.range 4).flatMap fun r => ((s.ring cx r).cmds.filter fun c => c.issued && !c.finished).map fun c => (⟨cx, r, c.index⟩, c)

/-- Steps 1 to 3: kernels end with 0x0152, every other issued command with 0x0702, and their records are written. The
recipe context's teardown applies no request any more (R106). -/
def State.stopAll (s : State) (cx : Nat) : State :=
  let s : State := { s with rails := { s.rails with torn := s.rails.torn || s.recipeCtx == some cx } }
  let t := (s.issuedOf cx).foldl (fun u p =>
    match u.cmd? p.1 with
    | none => u
    | some c => if c.finished then u else u.stopCmd p.1 c (if c.kind = 0x02 then 0x0152 else 0x0702)) s
  iter 4 (fun r u => u.settle cx r) t

/-- Steps 4 and 5: kernel slots, semaphores, decoded descriptors and debit are gone, and the context is ASSIGNED. -/
def State.clearCx (s : State) (cx : Nat) : State :=
  let t := iter 4 (fun r u =>
    let q := u.ring cx r
    u.setRing cx r { q with fetched := q.issuedEnd, cmds := [], ranNs := [] }) s
  let c := t.ctx cx
  let t := t.setCtx cx { c with
    mode := .assigned, slots := [], sems := [], doorbellHeld := false, doorbellReading := false, doorbellAgain := false }
  { t with
    tiles := { t.tiles with prior := tput t.tiles.prior cx [] [] }
    sched := { t.sched with
      debit := tput t.sched.debit cx 0 0
      holder := if t.sched.holder = some cx then none else t.sched.holder
      outgoing := if t.sched.outgoing = some cx then none else t.sched.outgoing
      incoming := if t.sched.incoming = some cx then none else t.sched.incoming } }

/-- TEARDOWN of a STOPPING context, while it holds the fields: in its next leg, or at once where it holds them. A media engine first ends the frame it works on for the context (R400). -/
def execTeardown (cx : Fin 16) (s : State) : Out :=
  .next (
    let busy := (List.range 24).any fun e => match (s.engine e).running with
      | some f => f.cmd.cx == cx.val
      | none => false
    if (s.ctx cx).mode ≠ .stopping ∨ busy ∨ !s.holds cx then s
    else (((s.stopAll cx).clearCx cx).runOutOf cx).reschedule false)

/-! ### Host ports (R345, R389) -/

/-- A context loses its port: it faults, and its teardown starts at once. -/
def State.losePort (s : State) (cx : Nat) : State :=
  let c := s.ctx cx
  let t := if c.mode = .ready then s.hpEvent c.port 3 else s
  let t := if c.mode = .ready ∨ c.mode = .faulted then t.setCtx cx { c with mode := .stopping } else t
  t.runOutOf cx

/-- A host port's link is lost: every context it owns is torn down (R345). -/
def State.portDown (s : State) (p : Nat) : State :=
  let h := s.port p
  if h.mode = .noDie ∨ h.mode = .inReset ∨ h.mode = .down then s else
  let t := (s.setPort p { h with mode := .down }).hpEvent p 2
  iter 16 (fun cx u => if u.cxPort cx = p then u.losePort cx else u) t

/-- HOST_PORT_DOWN. -/
def execHostPortDown (port : Fin 4) (s : State) : Out := .next (s.portDown port)

/-- HOST_PORT_DEGRADED: an UP port falls to 16 GT/s and keeps its contexts (R345). -/
def execHostPortDegraded (port : Fin 4) (s : State) : Out :=
  .next (
    let h := s.port port
    if h.mode = .up then (s.setPort port { h with mode := .degraded }).hpEvent port 2 else s)

/-- A port's link has trained: UP; how many lanes it repaired the manual does not state (HP_STATE). -/
def HostPort.trained (h : HostPort) (n : Nat) : HostPort :=
  { h with mode := .up, lanesRepaired := (Config.freeWord 0x300100 n).toNat % 16 }

/-- HOST_PORT_UP: a DOWN or DEGRADED port has trained again (R345). -/
def execHostPortUp (port : Fin 4) (s : State) : Out :=
  .next (
    let h := s.port port
    if h.mode = .noDie ∨ h.mode = .inReset ∨ h.mode = .up then s
    else ({ s.setPort port (h.trained s.draws) with draws := s.draws + 1 } : State).hpEvent port 2)

end Sys2Proof.Machine
end

