-- ==== Sys2Proof/Machine/Image.lean ====
section
/-!
DEFINITION. Firmware images in their slots: header, manifest, block table and content (R475 to R477), the checks of
secure boot (R478), and when a quiescent activation is due (R484, R485).
-/

namespace Sys2Proof.Machine

open Sys2Proof

/-- The first status of a list of checks that fails; 0 where all pass. -/
def firstBad : List (Bool × Nat) → Nat
  | [] => 0
  | (bad, st) :: r => if bad then st else firstBad r

/-- The checks of a header of 4,096 bytes, from the magic upwards (R476, R481). -/
def headerStatus (fuses : Nat) (serial : BitVec 128) (l : List Byte) : Nat :=
  let h := ofBytes (l.take 256)
  firstBad [
    (bits h 31 0 != 0x57465A55, 0x0C02),
    (bits h 47 32 != 2, 0x0C02),
    (bits h 63 48 != 0x0300, 0x0C02),
    (bits h 95 64 != 65536 * hdPieces h, 0x0C02),
    (bits h 111 96 != 16, 0x0C02),
    (bits h 127 112 != 0, 0x0C02),
    (decide (128 < hdSecurity h), 0x0C02),
    (decide (hdSecurity h < fuses), 0x0C04),
    (hdKind h != 0 && hdKind h != 1, 0x0C02),
    (bits h 183 176 != 0xB1, 0x0C02),
    (bits h 191 184 != 0, 0x0C02),
    (hdKind h == 0 && bits h 319 192 != 0, 0x0C02),
    (hdKind h == 1 && bits h 319 192 != serial.toNat, 0x0C03),
    (hdContent h == 0 || decide (8187 < hdContent h), 0x0C02),
    (hdTables h != cdiv (hdContent h) 2048, 0x0C02),
    (bits h 511 360 != 0, 0x0C02),
    (hdManifestBytes h % 64 != 0 || decide (hdManifestBytes h < 128) || decide (4160 < hdManifestBytes h), 0x0C02),
    (bits h 1023 800 != 0, 0x0C02),
    ((List.range 4).any fun i => decide (hdTables h ≤ i) && hdTableHash h i != 0, 0x0C02),
    (((l.drop 256).take 3840).any fun b => b != 0, 0x0C02),
    (decide (8192 < hdPieces h), 0x0C02)]

/-! ### The manifest (R477) -/

/-- Whether a manifest breaks R477 for a header. -/
def manifestBad (h m : Nat) : Bool :=
  let l := mfEntries m
  let ids := l.map ceId
  mfCount m == 0 || decide (64 < mfCount m) || hdManifestBytes h != 64 + 64 * mfCount m || bits m 511 112 != 0 ||
    mfAlv m 0 == 0 ||
    (l.any fun e => bits e 511 353 != 0 || decide (hdContent h < ceFirst e + cdiv (ceLength e) 65536) ||
      (ceLive e && (ceId e == 5 || ceId e == 6))) ||
    ((List.range l.length).any fun i => (List.range i).any fun j =>
      let a := nth l i 0
      let b := nth l j 0
      ceLength a != 0 && ceLength b != 0 && decide (ceFirst a < ceFirst b + cdiv (ceLength b) 65536) && decide (ceFirst b < ceFirst a + cdiv (ceLength a) 65536)) ||
    (if hdKind h = 0 then
      l.length != 8 || !((List.range 8).all fun i => ids.contains (i + 1))
    else !(ids.all fun i => i == 0x80 || i == 0x81 || i == 0x82) || ids.eraseDups.length != ids.length)

/-- The status of a header with its manifest: 0x0C05 where the hash or R477 refuses it. -/
def manifestStatus (l : List Byte) : Nat :=
  let h := ofBytes (l.take 256)
  let m := (l.drop 4096).take (hdManifestBytes h)
  if ofBytes (sha256 m) ≠ hdManifestHash h ∨ manifestBad h (ofBytes m) then 0x0C05 else 0

/-! ### Hash chain and signature (R475, R478, R483) -/

/-- The root signature over a header holds. -/
def FwSlot.signed (f : FwSlot) : Bool :=
  Config.hssVerify Config.rootKey ([0x55, 0x5A, 0x49, 0x4D] ++ sha256 (f.read 0 4096)) (f.read 61440 3604)

/-- The hash that the block table gives content piece j. -/
def FwSlot.pieceHash (f : FwSlot) (j : Nat) : Nat := ofBytes (f.read (65536 * (1 + j / 2048) + 32 * (j % 2048)) 32)

/-- Whether image piece i ≥ 1 with these bytes matches the hash that stands before it. -/
def FwSlot.pieceOk (f : FwSlot) (i : Nat) (l : List Byte) : Bool :=
  let h := f.header
  ofBytes (sha256 l) == (if i ≤ hdTables h then hdTableHash h (i - 1) else f.pieceHash (i - 1 - hdTables h))

/-- A slot passes secure boot (R478); the factory's image does. -/
def State.slotPasses (s : State) (n : Nat) : Bool :=
  let f := s.fwSlot n
  f.factory || (headerStatus s.fw.fuses s.fw.serial (f.read 0 4096) == 0 && f.signed &&
    manifestStatus (f.read 0 65536) == 0 && (List.range (hdPieces f.header - 1)).all fun i => f.pieceOk (i + 1) (f.piece (i + 1)))

/-! ### Quiescent activation (R484, R485) -/

/-- The components of a slot whose hash differs from the active image's: (ID, live bit). -/
def State.changed (s : State) (n : Nat) : List (Nat × Bool) :=
  let old := (s.fwSlot s.fw.active).manifest
  ((mfEntries (s.fwSlot n).manifest).filter fun e =>
    !(mfEntries old).any fun o => ceId o == ceId e && ceHash o == ceHash e).map fun e => (ceId e, ceLive e)

/-- The ALVs an image carries. -/
def mfAlvs (m : Nat) : List Nat := (List.range 4).map (mfAlv m)

/-- Whether the slot's image carries the resident package's ALV. -/
def State.keepsAlv (s : State) (n : Nat) : Bool :=
  s.package.isNone || (mfAlvs (s.fwSlot n).manifest).contains s.alv

/-- The conditions of Table 18.5 hold for every changed component. -/
def State.liveNow (s : State) (n : Nat) : Bool :=
  (s.changed n).all fun c =>
    if c.1 = 4 then s.keepsAlv n
    else if c.1 = 7 then s.media.streams.all fun p => !p.2.isOpen
    else if c.1 = 8 then (List.range 2).all fun p => (s.po p).mode == .idle || (s.po p).mode == .hold
    else true

/-- Some stack is under repair. -/
def State.repairing (s : State) : Bool := s.tiers.stackTab.any fun p => p.2.repair.isSome

/-- The current leg is a quiet leg of a running sheet (R377). -/
def State.quietLeg (s : State) : Bool := bit (s.reg 0x400000) 0 && bits s.legNow 18 17 == 3

/-- A quiescent activation runs in this quiet leg (R485). -/
def State.activationDue (s : State) : Bool :=
  s.fw.mode == .armed && s.fw.quiescent && s.quietLeg && s.rel.subst == .idle && !s.repairing &&
    s.liveNow s.fw.armedSlot

/-- A change of FU_STATE[2:0] sets owner event [9] (R441, R494). -/
def State.fuMode (s : State) (m : FuMode) : State :=
  if s.fw.mode = m then s else ({ s with fw := { s.fw with mode := m } } : State).ownerEvent 9

/-- FU_STATE's last status. -/
def State.fuStatus (s : State) (st : Nat) : State := { s with fw := { s.fw with status := st } }

/-- The state FU_STATE returns to when no delivery, arm or activation is in progress (R487). -/
def State.fuRest (s : State) : State := s.fuMode (if s.fw.uncommitted then .activated else .idle)

/-- An FW_ACTIVATE record for a slot (Table 18.9). -/
def State.logActivate (s : State) (slot prev : Nat) (quiescent passed service : Bool) (status : Nat) : State :=
  let f := s.fwSlot slot
  let h := f.header
  s.log 0x90 status 0 0 (hdVersion h + 2 ^ 32 * hdVersion (s.fwSlot prev).header + 2 ^ 64 * hdSecurity h
    + 2 ^ 72 * b2n quiescent + 2 ^ 73 * b2n passed + 2 ^ 75 * b2n service + 2 ^ 256 * ofBytes (sha256 (f.read 0 4096)))

/-- An armed activation undone: VERIFIED with 0x0C0B (R486, R488). -/
def State.undoActivation (s : State) : State :=
  ((s.logActivate s.fw.armedSlot s.fw.active true false false 0x0C0B).fuMode .verified).fuStatus 0x0C0B

end Sys2Proof.Machine
end

