-- ==== Sys2Proof/Machine/Loss.lean ====
section
/-!
DEFINITION. The loss of a field and the substitution of a spare site for it (R10 to R13, R451 to R453, R456, R457), and the
removal of the rails (R497, R502).
-/

namespace Sys2Proof.Machine

open Sys2Proof

/-! ### Sites -/

/-- Spare sites, in ascending order. -/
def State.spareSites (s : State) : List Nat := (List.range 81).filter fun n => (s.site n).use == .spare

/-- The site epoch rises; owner event [0] and HP_EVENT[0] of every port (R23, R370, R441). -/
def State.raiseEpoch (s : State) : State :=
  (({ s with module := { s.module with siteEpoch := wrap32 (s.module.siteEpoch + 1) } } : State).ownerEvent 0).hpEventAll 0

/-- The held writes of a stack land in arrival order, and commands that waited for the last of theirs complete (R264). -/
def State.applyHeld (s : State) (rank : Nat) : State :=
  let l := s.tiers.heldWrites.filter fun h => h.rank == rank
  let t : State := { s with tiers := { s.tiers with heldWrites := s.tiers.heldWrites.filter fun h => h.rank != rank } }
  let t := l.foldl (fun u h => u.storeWriteMarked h.addr [(h.byte, h.mark)]) t
  (l.map HeldWrite.cmd).eraseDups.foldl State.workDone t

/-- The held writes of a stack are discarded, and their commands complete with a status, their outputs undefined (R264). -/
def State.dropHeld (s : State) (rank status : Nat) : State :=
  let l := s.tiers.heldWrites.filter fun h => h.rank == rank
  let t : State := { s with tiers := { s.tiers with heldWrites := s.tiers.heldWrites.filter fun h => h.rank != rank } }
  (l.map HeldWrite.cmd).eraseDups.foldl (fun u id => (u.havocOf id).failCmd id status) t

/-- A site goes out of service and holds no rank. -/
def State.retireSite (s : State) (site : Nat) : State :=
  let t := s.dropField site
  t.setSite site { t.site site with use := .out, rank := none, stopped := false }

/-- A rank has no field in service; the site that held it keeps it in the active map until a substitution (R10, R452). -/
def State.setMissing (s : State) (site rank : Nat) : State :=
  { s with rel := { s.rel with missing := (s.rel.missing.filter fun p => p.1 != rank) ++ [(rank, site)] } }

/-- A site takes a rank, with its own stack and cores; the active map and the trim table's structural region follow, the
site epoch rises and a FIELD_SUBST record names the site it replaces (R10, R11, R23, R441, R445, R464, Table 17.7). -/
def State.takeRank (s : State) (old new rank : Nat) (planned : Bool) : State :=
  let t := s.dropField new
  let t := t.setSite new { t.site new with
    use := .active, rank := some rank, steps := 0, sinceStep := 10, coolSamples := 0, stopped := false, served := true }
  let t := t.setStack rank { Stack.empty with weightMissing := !planned && s.weightGib != 0 }
  let t : State := { t with rel := { t.rel with
    missing := t.rel.missing.filter fun p => p.1 != rank
    moves := t.rel.moves ++ [(old, new, rank)] } }
  let t := t.raiseEpoch.ownerEvent 4
  t.log 0x21 0 1 new (b2n planned + old * 2 + new * 256 + 32768 * t.module.siteEpoch)

/-! ### What a lost field takes with it -/

/-- Every infield line of a rank is poisoned: what the lost field held reads as poison (R457). -/
def State.poisonInfield (s : State) (rank : Nat) : State :=
  let lo := 786432 * rank
  { s with memory := { s.memory with
      infield := tdrop s.memory.infield (infKey rank 0) (infKey (rank + 1) 0)
      poisonLines := (s.memory.poisonLines.filter fun m => decide (m < lo)) ++ (List.range 786432).map (lo + ·) ++
        (s.memory.poisonLines.filter fun m => decide (lo + 786432 ≤ m)) } }

/-- Every heat unit of a rank's working tier is poisoned until written, its weight units await their rebuild, and its heat
cache is empty (R457). -/
def State.loseStore (s : State) (rank : Nat) : State :=
  let t := s.dropHeld rank 0x0B05
  let t := t.setStack rank { t.stack rank with weightMissing := t.weightGib != 0 }
  { t with
    memory := { t.memory with
      untilWritten := sput t.memory.untilWritten rank
      unitsWritten := t.memory.unitsWritten.filter fun u => keyRank (65536 * u) != rank }
    tiers := { t.tiers with
      heat := tput t.tiers.heat rank [] []
      heatReads := tdrop t.tiers.heatReads (4096 * rank) (4096 * (rank + 1)) } }

/-- The state a field controller and its lap-counter block kept for a rank is gone. -/
def State.loseController (s : State) (rank : Nat) : State :=
  { s with tiles := { s.tiles with
      counters := tdrop s.tiles.counters (rank * 256) ((rank + 1) * 256)
      bands := tdrop s.tiles.bands (rank * 512) ((rank + 1) * 512)
      arrival := s.tiles.arrival.filter fun k => k / 32768 != rank
      chunks := tdrop s.tiles.chunks (1048576 * (rank * 8)) (1048576 * ((rank + 1) * 8)) } }

/-- Every sequence is disabled, its frames and share counts cleared (R451). -/
def State.clearSeqs (s : State) : State :=
  let waits := (s.kv.cows.map Cow.cmd).eraseDups
  let t := iter 8 (fun q u =>
    let sq := u.seq q
    let u := u.credit (u.seqCx q) (sq.frames * u.frameUnits)
    (u.setSeq q { sq with enabled := false, disabling := false, reclaim := [], frames := 0 }).setReg (seqBase q)
      (setFld (u.reg (seqBase q)) 0 0 0)) s
  let t : State := { t with kv := { t.kv with table := [], shares := [], updates := [], cows := [] } }
  waits.foldl State.workDone t

/-- Every running kernel completes with a status (R141). -/
def State.endKernels (s : State) (status : Nat) : State :=
  s.tiles.kernels.foldl (fun u e => match u.kernel e.1 with
    | some k => u.cancelKernel e.1 k status
    | none => u) s

/-! ### Substitution begins (R451, R456, R457) -/

/-- RL_SUBST_STATE's last status. -/
def State.substStatus (s : State) (st : Nat) : State := { s with rel := { s.rel with status := st } }

/-- Unplanned substitution of a lost rank begins with the lowest spare site, or waits for the one in progress (R457). -/
def State.beginUnplanned (s : State) (old rank : Nat) : State :=
  match s.rel.subst, s.spareSites with
  | .idle, n :: _ =>
    { s with rel := { s.rel with subst := .unplanned, oldSite := old, newSite := n, moving := rank, waiting := s.rel.waiting.filter fun r => r.1 != rank } }
  | .idle, [] => s
  | _, _ => { s with rel := { s.rel with waiting := s.rel.waiting ++ [(rank, old)] } }

/-- The substitution in progress ends with a status; a loss that waits for it has its own begin (R457). -/
def State.endSubst (s : State) (st : Nat) : State :=
  let t : State := { s with rel := { s.rel with subst := .idle, status := st } }
  match t.rel.waiting with
  | r :: _ => t.beginUnplanned r.2 r.1
  | [] => t

/-- Planned substitution of a site (R456): refused with 0x0B10, or its mirror phase begins with the lowest spare. -/
def State.startPlanned (s : State) (site : Nat) : State :=
  match s.spareSites with
  | n :: _ =>
    match (s.site site).rank with
    | some r =>
      if s.rel.subst = .idle ∧ site < 81 then
        { s with rel := { s.rel with subst := .mirror, oldSite := site, newSite := n, moving := r, status := 0 } }
      else s.substStatus 0x0B10
    | none => s.substStatus 0x0B10
  | [] => s.substStatus 0x0B10

/-- The site being brought in is lost: the next spare takes its part, else the substitution ends (R457). -/
def State.replaceNew (s : State) : State :=
  match s.spareSites with
  | n :: _ => { s with rel := { s.rel with newSite := n } }
  | [] => { s with rel := { s.rel with subst := .idle, status := if s.rel.subst = .mirror then 0x0B10 else s.rel.status } }

/-! ### The loss of a field (R451) -/

/-- A site out of use: a FIELD_LOST record with the spare sites left, owner event [0]. -/
def State.logLoss (s : State) (site : Nat) : State :=
  (s.log 0x20 0x0B03 1 site s.spareSites.length).ownerEvent 0

/-- What a site takes with it when it is lost: its rank is missing, kernels end, contexts fault, sequences and the bytes it
held are gone (R451, R457). -/
def State.takeDown (s : State) (site rank : Nat) : State :=
  let t := s.retireSite site
  let t := t.setMissing site rank
  let t := iter 16 (fun cx u => u.faultCx cx 0x0B03) (t.endKernels 0x0154)
  ((t.clearSeqs.loseStore rank).poisonInfield rank).loseController rank

/-- What follows a loss: substitution begins at once where RL_CTRL[0] is set, or goes on as an unplanned one where the lost
field was being replaced (R451, R457). -/
def State.substAfter (s : State) (site rank : Nat) : State :=
  if s.rel.subst = .mirror ∧ s.rel.oldSite = site then { s with rel := { s.rel with subst := .unplanned } }
  else if bit (s.reg 0x600100) 0 then s.beginUnplanned site rank
  else s

/-- The loss of a site that holds a rank: R451's steps in order. An activation under way is undone first (R488). -/
def State.loseActive (s : State) (site rank : Nat) : State :=
  let t := if s.activationDue then s.undoActivation else s
  (((t.takeDown site rank).logLoss site).interrupt 0x0B03 true).substAfter site rank

/-- A field is lost; a spare site that is lost only leaves the reserve. -/
def State.loseField (s : State) (site : Nat) : State :=
  let x := s.site site
  match x.use, x.rank with
  | .active, some r => s.loseActive site r
  | .spare, _ =>
    let t := ((s.setSite site { x with use := .out }).logLoss site).ownerEvent 4
    if t.rel.subst ≠ .idle ∧ t.rel.newSite = site then t.replaceNew else t
  | _, _ => s

/-! ### The rails removed (R497, R502) -/

/-- Powered time in ns. -/
def State.lifeTime (s : State) : Nat := 1000000000 * s.module.lifeSeconds + s.module.lifeNs

/-- Power and coolant lay within their limits throughout the last 10 s. -/
def State.withinLimits (s : State) : Bool :=
  !s.module.busOut && !s.module.coolOut &&
    match s.module.outsideAt with
    | some t => decide (t + 10000000000 ≤ s.lifeTime)
    | none => true

/-- Every rail but VA and VP is removed: the host ports go DOWN and their contexts are torn down, links, engines and
playout stop, what the stacks and infields held is lost, and the module is TRIPPED with a status (R502). -/
def State.dropRails (s : State) (status : Nat) : State :=
  let t := iter 4 (fun p u => u.portDown p) s
  let t := iter 36 (fun n u => if (u.link n).mode = .disabled then u else u.linkLeave n fun _ => Link.reset) t
  { t with
    memory := State.reset.memory
    sched := { t.sched with halted := true }
    media := { t.media with engines := t.media.engines.map fun e => (e.1, { e.2 with running := none }), ports := [] }
    module := { t.module with phase := .tripped, railsOn := false, status := status } }

/-- A thermal trip with a sensor's reading (R502). -/
def State.thermalTrip (s : State) (unit entered celsius : Nat) : State :=
  if !s.module.railsOn then s else
  let t := (s.dropRails 0x0D03).log 0x50 0x0D03 1 unit (entered % 4 + 4 + (celsius % 256) * 256)
  if s.withinLimits then t.interrupt 0x0D03 true else t

/-- A power fault (R497): as a trip, with 0x0D01. -/
def State.powerFault (s : State) : State := if !s.module.railsOn then s else s.dropRails 0x0D01

end Sys2Proof.Machine
end

