-- ==== Sys2Proof/Machine/Stacks.lean ====
section
/-!
DEFINITION. Stacks as devices: channel retrains and repairs (R259 to R262), the symbol code and patrol scrub (R258, R446),
and the thermal states (R263, R264, R502).
-/

namespace Sys2Proof.Machine

open Sys2Proof

/-! ### Channels (R244, R261) -/

/-- The physical channel of a logical one. -/
def Stack.physical (k : Stack) (chan : Nat) : Nat := tget k.remap chan chan

/-- Spare channels that are neither in use nor retired nor being repaired into. -/
def Stack.spares (k : Stack) : List Nat :=
  ((List.range 8).map (64 + ·)).filter fun p =>
    !(k.remap.any fun e => e.2 == p) && !k.retired.contains p && (k.repair.map Prod.snd) != some p

/-- Spare channels left: TR_STACK_STATE[19:16]. A spare under repair still counts until the repair ends. -/
def Stack.sparesLeft (k : Stack) : Nat := k.spares.length + b2n k.repair.isSome

/-- A record about a channel of a rank's stack (Table 17.7), unit kind 3. -/
def State.logChannel (s : State) (ty rank chan physical : Nat) : State :=
  s.log ty 0 3 (s.siteAt rank * 128 + physical) (chan + (s.stack rank).sparesLeft * 64)

/-- The MGC starts the repair of a logical channel: with no spare left the channel stays in service and the stack is
degraded; while another repair of the stack or an activation runs, it waits (R261, R262, R488). -/
def State.startRepair (s : State) (rank chan : Nat) : State :=
  let k := s.stack rank
  if k.repair.isSome || s.activationDue then s.setStack rank { k with repairsDue := sput k.repairsDue chan } else
  let k := { k with repairsDue := k.repairsDue.filter fun c => c != chan }
  match k.spares with
  | [] =>
    if k.degraded.contains chan then s.setStack rank k
    else (s.setStack rank { k with degraded := sput k.degraded chan }).logChannel 0x32 rank chan (k.physical chan)
  | p :: _ =>
    ((s.setStack rank { k with repair := some (chan, p), repairNs := s.nowNs }).logChannel 0x30 rank chan (k.physical chan)).ownerEvent 3

/-- A channel fails: it is repaired; one that stays in service without a spare loses its field (R261, R451, Table 17.1). -/
def State.channelFails (s : State) (rank chan : Nat) : State :=
  if (s.stack rank).degraded.contains chan then
    match s.siteOf rank with
    | some n => s.loseField n
    | none => s
  else s.startRepair rank chan

/-! ### Retrain (R259, R377) -/

/-- The first rank of a rank's weight group (R245). -/
def groupBase (rank : Nat) : Nat := rank / 15 * 15

/-- Another stack of the weight group retrains the same logical channel. -/
def State.groupRetrains (s : State) (rank chan : Nat) : Bool :=
  (List.range 15).any fun i => (s.stack (groupBase rank + i)).retraining.contains chan

/-- A scheduled retrain may start: in a quiet leg, after the outgoing context's last unit, with 4 µs of the leg left, the
stack's first in this leg, and of a channel that no other stack of the weight group has retrained in it (R377). -/
def State.retrainSlot (s : State) (rank chan : Nat) : Bool :=
  s.quietLeg && !s.sched.switching && decide (s.sched.legNs + 4000 ≤ s.legLen) &&
    s.sched.retrained.all fun e => e.1 != rank && !(groupBase e.1 == groupBase rank && e.2 == chan)

/-- CHANNEL_RETRAIN_START. -/
def execChannelRetrainStart (rank : Fin 75) (chan : Fin 64) (scheduled : Bool) (s : State) : Out :=
  .next (
    let k := s.stack rank
    if k.mode = .critical || k.retraining.contains chan || s.groupRetrains rank chan ||
        (s.siteOf rank).isNone || (scheduled && !s.retrainSlot rank chan) then s
    else
      let t := s.setStack rank { k with
        retraining := sput k.retraining chan
        retrains := wrap32 (k.retrains + 1) }
      if scheduled then { t with sched := { t.sched with retrained := t.sched.retrained ++ [(rank.val, chan.val)] } } else t)

/-- CHANNEL_RETRAIN_END: held requests go on; after the third failure in a row the channel is repaired (R261). -/
def execChannelRetrainEnd (rank : Fin 75) (chan : Fin 64) (passed : Bool) (holdNs : Nat) (s : State) : Out :=
  .next (
    let k := s.stack rank
    if !k.retraining.contains chan then s else
    let n := if passed then 0 else tget k.failed chan 0 + 1
    let t := s.setStack rank { k with
      retraining := k.retraining.filter fun c => c != chan
      holdMax := max k.holdMax (min holdNs 4000)
      failed := tput k.failed chan (if n = 3 then 0 else n) 0 }
    if n = 3 then t.channelFails rank chan else t)

/-! ### Repair (R261, R262) -/

/-- CHANNEL_REPAIR_START. -/
def execChannelRepairStart (rank : Fin 75) (chan : Fin 64) (s : State) : Out :=
  .next (if (s.siteOf rank).isNone then s else s.startRepair rank chan)

/-- Granules of a channel: 1.5 GiB of 256 bytes (R261). -/
def channelGranules : Nat := 6291456

/-- A granule that the old channel no longer gives: in the working tier the spare holds poison, in the weight partition the
granule is rebuilt from its stripe (R262). -/
def State.carryGranule (s : State) (rank addr : Nat) : State :=
  let key := stackKey rank addr
  let k := s.stack rank
  if s.isWeight key then s.setStack rank { k with recon := sat32 (k.recon + 1) }
  else
    iter 4 (fun j t => if t.storePoisoned (key + 64 * j) then t else (t.poisonWord (key + 64 * j)).addSat 0x600114 1)
      (s.setStack rank { k with uncorrected := sat32 (k.uncorrected + 1) })

/-- The granules of a repair that were uncorrectable, and those not copied when the old channel stopped answering, which is
after `answered` granules in ascending channel address (R261, R262). -/
def carriedGranules (bad : List Nat) (answered : Nat) : List Nat :=
  bad.filter (fun i => decide (i < min answered channelGranules)) ++ List.range' answered (channelGranules - answered)

/-- Granules copied by the repair in progress: at least what the floor of 16 GB/s gives, one granule in 16 ns, and never
more than all (R253, R261). How far the copy runs ahead of its floor is open. -/
def State.repairDone (s : State) (k : Stack) : Nat :=
  let least := min channelGranules ((s.nowNs - k.repairNs) / 16)
  if k.repair.isSome then least + (Config.freeWord 0x3034 s.draws).toNat % (channelGranules + 1 - least) else 0

/-- CHANNEL_REPAIR_END: what the old channel did not give is carried under R262, the spare stands in the remap entry, the
old channel is retired, and the next repair that waits starts. -/
def execChannelRepairEnd (rank : Fin 75) (chan : RepairedChannel) (s : State) : Out :=
  .next (
    let k := s.stack rank
    match k.repair with
    | none => s
    | some (c, p) =>
      if c ≠ chan.chan.val then s else
      let t := (carriedGranules chan.bad chan.answered).foldl (fun t i => t.carryGranule rank (granuleAt chan.chan i)) s
      let t := t.setStack rank { t.stack rank with
        repair := none
        remap := tput k.remap chan.chan p chan.chan
        retired := sput k.retired (k.physical chan.chan) }
      let t := ((t.logChannel 0x31 rank chan.chan p).ownerEvent 3).ownerEvent 4
      match k.repairsDue with
      | d :: _ => t.startRepair rank d
      | [] => t)

/-! ### The symbol code (R258, R446) -/

/-- The store key of a codeword of a rank's stack. Where a frame's slot stands in a stack is not stated (R241), so an address
from 2^37 on names byte `addr - 2^37` of the frame area, 2^28 bytes to each slot. -/
def wordKey (rank addr : Nat) : Nat :=
  if addr < 137438953472 then stackKey rank (addr / 64 * 64)
  else
    let o := addr - 137438953472
    frameKey (o / 268435456 * 75 + rank) (o % 268435456 / 64 * 64)

/-- One corrected error of a channel: it is counted, and a channel with more than 4,096 of them in 24 h of powered time is
repaired (R261). -/
def State.correctOne (s : State) (rank chan : Nat) : State :=
  let k := s.stack rank
  let now := s.module.lifeSeconds
  let recent := (chan, now) :: k.errors.filter fun e => decide (now < e.2 + 86400)
  let t := s.setStack rank { k with corrected := sat32 (k.corrected + 1), errors := recent }
  if 4096 < (recent.filter fun e => e.1 == chan).length then
    (t.setStack rank { t.stack rank with errors := recent.filter fun e => e.1 != chan }).startRepair rank chan
  else t

/-- A read of a 64-byte codeword finds symbols wrong: one is corrected and counted; more poison a working-tier codeword,
which is counted, while a weight granule is rebuilt and counted; and the channel is repaired. A codeword of the poison
pattern reads as poison only (R446, R447). -/
def State.symbolFault (s : State) (rank addr symbols : Nat) : State :=
  let key := wordKey rank addr
  let k := s.stack rank
  if symbols = 0 ∨ s.storePoisoned key then s
  else if symbols = 1 then s.correctOne rank (channelOf addr)
  else if s.isWeight key then (s.setStack rank { k with recon := sat32 (k.recon + 1) }).startRepair rank (channelOf addr)
  else
    let t := (s.setStack rank { k with uncorrected := sat32 (k.uncorrected + 1) }).poisonWord key
    (t.addSat 0x600114 1).startRepair rank (channelOf addr)

/-- PATROL_SCRUB: a granule of 256 bytes is read; `symbols` are the wrong symbols of its worst codeword, taken as its
first. -/
def execPatrolScrub (rank : Fin 75) (granule : Nat) (symbols : Nat) (s : State) : Out :=
  .next (if (s.siteOf rank).isNone ∨ (402653184 ≤ granule ∧ granule < 536870912) then s else s.symbolFault rank (granule * 256) symbols)

/-! ### Thermal states (R263, R264) -/

/-- The state a reading leads to (Table 9.8). -/
def stackNext (m : StackMode) (c : Nat) : StackMode :=
  match m with
  | .normal => if 98 ≤ c then .critical else if 90 ≤ c then .hot else .normal
  | .hot => if 98 ≤ c then .critical else if c < 87 then .normal else .hot
  | .critical => if c < 95 then .hot else .critical
  | .stopped => if c < 95 then .hot else .stopped

/-- The code of a stack thermal state (Table 9.8). -/
def stackCode : StackMode → Nat
  | .normal => 0
  | .hot => 1
  | .critical => 2
  | .stopped => 3

/-- A change of a stack's thermal state: recorded, with owner event [2]; entering CRITICAL stops the field's cores, and
leaving CRITICAL or STOPPED lets the held writes land. -/
def State.enterStack (s : State) (rank : Nat) (m : StackMode) : State :=
  let k := s.stack rank
  if k.mode = m then s else
  let t := (s.setStack rank { k with mode := m }).log 0x50 0 1 (s.siteAt rank) (stackCode m + (k.celsius % 256) * 256)
  let t := t.ownerEvent 2
  if m = .critical then
    let t := t.dropField (t.siteAt rank)
    { t with rel := { t.rel with criticals := t.rel.criticals + 1 } }
  else if m = .stopped then t.dropHeld rank 0x030A
  else if k.mode = .critical ∨ k.mode = .stopped then t.applyHeld rank
  else t

/-- STACK_CRITICAL_TIMEOUT: 50 ms in CRITICAL have passed. -/
def execStackCriticalTimeout (rank : Fin 75) (s : State) : Out :=
  .next (if (s.stack rank).mode = .critical then s.enterStack rank .stopped else s)

end Sys2Proof.Machine
end

