-- ==== Sys2Proof/Machine/Reliability.lean ====
section
/-!
DEFINITION. Detected faults and their actions (R446, R454), field substitution (R456, R457), the service logbook's requests
(R460, R463), the trim table (R464, R514) and the grade at lease return (R465).
-/

namespace Sys2Proof.Machine

open Sys2Proof

/-! ### Reserves (R445, R465) -/

/-- The least of a list of numbers; `d` for none. -/
def leastOf (d : Nat) (l : List Nat) : Nat := l.foldl min d

/-- Sites in service. -/
def State.activeSites (s : State) : List Nat := (List.range 81).filter fun n => (s.site n).use == .active

/-- The minimum of spare cores left over active fields. -/
def State.coreReserve (s : State) : Nat := leastOf 96 (s.activeSites.map s.sparesLeft)

/-- The minimum of spare channels left over active stacks. -/
def State.channelReserve (s : State) : Nat :=
  leastOf 8 (((List.range 75).filter fun r => (s.siteOf r).isSome).map fun r => (s.stack r).sparesLeft)

/-- The minimum of spare lanes left over links and directions. -/
def State.laneReserve (s : State) : Nat :=
  leastOf 2 ((List.range 36).flatMap fun n => [(s.link n).txSpares.length, (s.link n).rxSpares.length])

/-- RL_RESERVE (Table 17.9). -/
def State.rlReserve (s : State) : Nat :=
  s.spareSites.length + s.coreReserve * 16 + 2048 * s.channelReserve + 32768 * s.laneReserve

/-- A share in percent, to the nearest (R465's example). -/
def percent (n d : Nat) : Nat := (200 * n + d) / (2 * d)

/-- The four shares in percent: core, field, channel, lane. -/
def State.shares (s : State) : List Nat :=
  [percent s.coreReserve 96, percent s.spareSites.length 6, percent s.channelReserve 8, percent s.laneReserve 2]

/-- The grade of the smallest share n / d (Table 17.8). -/
def gradeOf (fractions : List (Nat × Nat)) : Nat :=
  if fractions.all fun f => decide (3 * f.2 ≤ 4 * f.1) then 0
  else if fractions.all fun f => decide (f.2 ≤ 2 * f.1) then 1
  else if fractions.all fun f => decide (f.2 ≤ 4 * f.1) then 2
  else 3

/-- The module's grade. -/
def State.gradeNow (s : State) : Nat :=
  gradeOf [(s.coreReserve, 96), (s.spareSites.length, 6), (s.channelReserve, 8), (s.laneReserve, 2)]

/-! ### Detection and action (R446, R454) -/

/-- The command that a ring works for: its first, where it has not ended. -/
def State.ringCmd (s : State) (cx ring : Nat) : Option Cmd := s.headCmd cx ring fun c => !c.finished && c.refusal == 0

/-- A command that met a fault of the module completes with a status, its context faults, and an interrupting event is
recorded (R446, R459). -/
def State.faultCmd (s : State) (cx ring status : Nat) : State :=
  match s.ringCmd cx ring with
  | some c =>
    let id : CmdId := ⟨cx, ring, c.index⟩
    (if c.issued then s.stopCmd id c status else s.finish id status 0).interrupt status false
  | none => s

/-- A failed path of a site's ports: the sixteenth within 24 h loses the site (R451). -/
def State.pathFailed (s : State) (site : Nat) : State :=
  let x := s.site site
  let l := (s.module.lifeSeconds :: x.pathFails).filter fun t => decide (s.module.lifeSeconds < t + 86400)
  let t := s.setSite site { x with pathFails := l }
  if 16 ≤ l.length then t.loseField site else t

/-- Parity on a transfer: up to three resends, each counted; where the last fails too, the path has failed and the command
completes with 0x0B02 (Table 17.2). -/
def State.pathFault (s : State) (site cx ring failures : Nat) : State :=
  let t := s.addSat 0x60011C (min failures 3)
  if failures < 4 then t else (t.faultCmd cx ring 0x0B02).pathFailed site

/-- A command checksum that differs at a hop: up to three resends from the dispatcher, then 0x0B04 (R454). -/
def State.checksumFault (s : State) (cx ring failures : Nat) : State :=
  let t := s.addSat 0x600124 (min failures 4)
  if failures < 4 then t else t.faultCmd cx ring 0x0B04

/-- A heat-cache unit with wrong parity is invalidated and refetched (Table 17.2). -/
def State.heatFault (s : State) (rank unit : Nat) : State :=
  let l := tget s.tiers.heat rank []
  if l.any fun u => u.unit == unit then
    ({ s with tiers := { s.tiers with heat := tput s.tiers.heat rank (l.filter fun u => u.unit != unit) [] } } : State).addSat
      0x600120 1
  else s

/-- An infield line is poisoned by a fault, unless it reads as poison already (Table 17.2). -/
def State.lineFault (s : State) (rank line : Nat) : State :=
  if 786432 ≤ line ∨ s.memory.poisonLines.contains (786432 * rank + line) then s else s.poisonLine rank line

/-- A media engine's state with wrong parity: the frame in work completes with 0x0B06. The engine's self-test is taken to
pass, so it serves on, unless this is its second loss within 30 days of powered time: then it is retired (R446, R450). -/
def State.mediaFault (s : State) (eng : Nat) : State :=
  let g := s.engine eng
  if g.retired then s else
  let now := s.module.lifeSeconds
  let again := match g.lostAt with
    | some t => decide (now < t + days30)
    | none => false
  let t := s.setEngine eng { g with running := none, lostAt := some now, retired := again }
  let t := match g.running with
    | some f => t.finish f.cmd 0x0B06 0
    | none => t
  (t.log 0x10 0x0B06 6 eng 0).log (if again then 0x12 else 0x11) 0 6 eng 0

/-- A host port interface fault: the port goes down as an interrupting event (R454, R459). -/
def State.portFault (s : State) (p : Nat) : State :=
  if s.portUp p then (s.portDown p).interrupt 0 true else s

/-- A fault of a link interface: a link in use retrains (R273, R454). -/
def State.linkFault (s : State) (n : Nat) : State := if s.linkUp n then s.linkRetrain n else s

/-- PARITY_FAULT: each fault has the action of Table 17.2 for its place. -/
def execParityFault (place : FaultPlace) (s : State) : Out :=
  .next (
    match place with
    | .path site cx ring failures => s.pathFault site cx ring failures
    | .heatCache rank unit => s.heatFault rank unit
    | .stackWord rank addr symbols => s.symbolFault rank addr symbols
    | .infieldLine rank line => s.lineFault rank line
    | .engineState rank line lines => iter lines (fun i t => t.lineFault rank (line + i)) s
    | .core site core => s.loseCore site core
    | .controller site => s.loseField site
    | .media eng => s.mediaFault eng
    | .linkState link => s.linkFault link
    | .hostPort port => s.portFault port
    | .checksum cx ring failures => s.checksumFault cx ring failures)

/-- FIELD_LOST. -/
def execFieldLost (site : Fin 81) (s : State) : Out := .next (s.loseField site)

/-- HEARTBEAT_MISS: a unit that missed three heartbeats is lost under its rule of Table 17.2 (R454). -/
def execHeartbeatMiss (unit : BeatUnit) (s : State) : Out :=
  .next (
    match unit with
    | .fieldController site => s.loseField site
    | .lapCounter site => s.loseField site
    | .link link => s.linkFault link
    | .hostPort port => s.portFault port
    | .media eng => s.mediaFault eng)

/-! ### Field substitution (R456, R457) -/

/-- A request for planned substitution; it waits while an activation is under way (R488). -/
def State.askPlanned (s : State) (site : Nat) : State :=
  if s.activationDue then { s with fw := { s.fw with heldSubst := some site } } else s.startPlanned site

/-- A write of RL_SUBST: bit 7 starts a planned substitution of the site named. -/
def State.substWrite (s : State) (v : Nat) : State := if bit v 7 then s.askPlanned (bits v 6 0) else s

/-- PLANNED_SUBST_START. -/
def execPlannedSubstStart (w : Writer) (v : Word) (s : State) : Out :=
  .next (s.guarded w 0x600104 v.toNat fun t => t.substWrite v.toNat)

/-- SUBST_DRAIN: the mirror is complete; the fields drain, running kernels are withdrawn, the spare takes the old field's
rank with its bytes and its controller's state, and the heat sheet goes on from its position (R456, Table 17.3). -/
def execSubstDrain (s : State) : Out :=
  .next (
    if s.rel.subst ≠ .mirror then s else
    let t := (s.withdraw.applyHeld s.rel.moving).retireSite s.rel.oldSite
    (t.takeRank s.rel.oldSite s.rel.newSite s.rel.moving true).endSubst 0)

/-- UNPLANNED_SUBST_DONE: the spare takes the lost rank (R457, Table 17.4). -/
def execUnplannedSubstDone (s : State) : Out :=
  .next (
    if s.rel.subst ≠ .unplanned then s
    else (s.takeRank s.rel.oldSite s.rel.newSite s.rel.moving false).endSubst 0)

/-- WEIGHT_REBUILD_DONE. -/
def execWeightRebuildDone (rank : Fin 75) (s : State) : Out :=
  .next (if (s.siteOf rank).isNone then s else s.setStack rank { s.stack rank with weightMissing := false })

/-! ### The logbook's requests (R460, R463, R465) -/

/-- LB_MARK0 to LB_MARK7 as one number. -/
def State.markBytes (s : State) : Nat := (List.range 8).foldl (fun a i => a + s.reg (0x700100 + 4 * i) * 2 ^ (32 * i)) 0

/-- A LEASE_MARK record with the owner's bytes. -/
def State.leaseMark (s : State) : State := s.log 0xA0 0 0 0 s.markBytes

/-! ### The trim table (R464, R514) -/

/-- A word of a trim set in which the listed words differ from another. -/
def trimIn (t : Tab (Option Word)) (old : Nat → Word) (n : Nat) : Word := (tget t n none).getD (old n)

/-- A word of the trim table as the factory and the service actions made it: a substitution changes the structural region
(R10, R464). -/
def State.serviceTrim (s : State) (n : Nat) : Word :=
  if n < 4096 ∧ s.rel.moves ≠ [] then Config.structuralTrim s.rel.moves n else Config.factoryTrim n

/-- A word of the set in effect, of the set in the boot store, and of the staging copy. -/
def State.trimNow (s : State) (n : Nat) : Word := trimIn s.rel.trim s.serviceTrim n
def State.trimStored (s : State) (n : Nat) : Word := trimIn s.rel.stored s.serviceTrim n
def State.trimStaged (s : State) (n : Nat) : Word := trimIn s.rel.staging s.trimStored n

/-- The bytes of words `lo` to `hi - 1` of a set. -/
def trimBytes (f : Nat → Word) (lo hi : Nat) : List Byte :=
  (List.range (hi - lo)).flatMap fun i => toBytes 4 (f (lo + i)).toNat

/-- SHA-256 of a set: TM_HASH of the one in effect. -/
def trimHash (f : Nat → Word) : Nat := ofBytes (sha256 (trimBytes f 0 16384))

/-- Whether a calibration word of a set lies outside the limit table (R514). -/
def trimOutside (f : Nat → Word) : Bool :=
  (List.range 12288).any fun i =>
    let n := 4096 + i
    let l := Config.limits n
    decide (f n < l.1) || decide (l.2 < f n)

/-- TM_PROV's last refusal. -/
def State.provStatus (s : State) (st : Nat) : State := { s with rel := { s.rel with provStatus := st } }

/-- A write of TM_DATA to word `n` (R464). -/
def State.trimWrite (s : State) (w : Writer) (n v : Nat) : State :=
  if s.package.isSome then (s.cfgErr w 1 0x600008).provStatus 0x0B12
  else if n < 4096 then s.provStatus 0x0B12
  else { s with rel := { s.rel with staging := tput s.rel.staging n (some (BitVec.ofNat 32 v)) none } }

/-- The word TM_SEL selects for a writer. -/
def State.trimSel (s : State) (w : Writer) : Nat := s.reg (portKey (writerNo w) 0x600004) % 16384

/-- TM_DATA_WRITE. -/
def execTmDataWrite (w : Writer) (v : Word) (s : State) : Out :=
  .next (s.guarded w 0x600008 v.toNat fun t => t.trimWrite w (t.trimSel w) v.toNat)

/-- The staging copy written to the boot store, where every word lies within the limit table (R464, R514). -/
def State.trimCommit (s : State) : State :=
  if trimOutside s.trimStaged then s.provStatus 0x0D05 else
  let hash := trimHash s.trimStaged
  let merged := s.rel.staging.foldl (fun t e => tput t e.1 e.2 none) s.rel.stored
  ({ s with rel := { s.rel with
      stored := merged
      staging := []
      storedOrigin := 1
      provWrites := s.rel.provWrites + 1 } } : State).log 0x80 0 0 0 hash

/-- TM_COMMIT. -/
def execTmCommit (w : Writer) (v : Word) (s : State) : Out :=
  .next (s.guarded w 0x60000C v.toNat fun t => if flag v 0 then t.trimCommit else t)

/-- A GRADE record (R465). -/
def State.gradeRecord (s : State) : State :=
  let p := s.shares
  s.log 0xA1 0 0 0 (s.gradeNow + nth p 0 0 * 4 + nth p 1 0 * 2 ^ 9 + 2 ^ 16 * nth p 2 0 + 2 ^ 23 * nth p 3 0
    + 2 ^ 32 * (s.module.lifeSeconds / 3600 % 2 ^ 32) + 2 ^ 64 * (s.rel.events % 2 ^ 32) + 2 ^ 96 * (s.rel.criticals % 2 ^ 32)
    + 2 ^ 128 * (trimHash s.trimNow % 2 ^ 128))

/-- LEASE_MARK. -/
def execLeaseMark (w : Writer) (s : State) : Out := .next (s.guarded w 0x700120 1 State.leaseMark)

/-- CHECKPOINT_REQUEST. -/
def execCheckpointRequest (w : Writer) (s : State) : Out := .next (s.guarded w 0x700120 2 State.checkpoint)

/-- GRADE. -/
def execGrade (w : Writer) (s : State) : Out := .next (s.guarded w 0x700120 4 State.gradeRecord)

/-- Corrected symbol errors of every stack. -/
def State.correctedAll (s : State) : Nat := sumNat ((List.range 75).map fun r => (s.stack r).corrected)

/-- USAGE_RECORD: the figures of Table 17.7, with the energy, the HOT seconds and the highest inlet the module measured. -/
def execUsageRecord (milliKwh : BitVec 32) (hotSeconds : BitVec 32) (inlet : BitVec 16) (s : State) : Out :=
  .next (s.log 0x02 0 0 0 (milliKwh.toNat + 2 ^ 32 * hotSeconds.toNat + 2 ^ 64 * (s.rel.criticals % 2 ^ 32)
    + 2 ^ 96 * (s.rel.events % 2 ^ 32) + 2 ^ 128 * inlet.toNat + 2 ^ 160 * (s.correctedAll % 2 ^ 32)))

/-- RL_EVENTS_READ: FAULT_N is released (R506). -/
def execRlEventsRead (w : Writer) (s : State) : Out :=
  .next (if s.reaches w then { s with module := { s.module with faultLow := false } } else s)

end Sys2Proof.Machine
end

