-- ==== Sys2Proof/Machine/Reset.lean ====
section
/-!
DEFINITION. The module reset (R511): every unit returns to its reset state, and the module is in MARKS. Boot store, fuses,
key store and life_s keep their values; so do what the trim table's structural region holds (sites, ranks, cores and
channels) and the readings of the sensors.
-/

namespace Sys2Proof.Machine

open Sys2Proof

/-- A site after a reset: its place in the active map, and its sensors. -/
def Site.afterReset (x : Site) : Site :=
  { x with steps := 0, sinceStep := 10, coolSamples := 0, stopped := false, chgStall := 0, opdStall := 0, pathFails := [] }

/-- A core site after a reset: every core site passes the self-test or was retired before. -/
def CoreSite.afterReset (x : CoreSite) : CoreSite :=
  match x.use with
  | .lost => { x with use := .spare }
  | _ => x

/-- A stack after a reset: its channels and its sensors. -/
def Stack.afterReset (k : Stack) : Stack :=
  { Stack.empty with celsius := k.celsius, degraded := k.degraded, remap := k.remap, retired := k.retired, errors := k.errors }

/-- A sensor that reads 45 °C or more (R502). -/
def State.hot45 (s : State) : Bool :=
  s.sites.any (fun e => decide (45 ≤ e.2.junction)) || s.tiers.stackTab.any fun e => decide (45 ≤ e.2.celsius)

/-- A host port in MARKS and SET: held in reset (R2, R512). -/
def HostPort.inMarks : HostPort := { HostPort.empty with mode := .inReset }

/-- The reliability state after a reset. -/
def Reliability.afterReset (r : Reliability) : Reliability :=
  { r with
    subst := .idle, oldSite := 0, newSite := 0, moving := 0, status := 0, waiting := []
    trim := r.stored, provOrigin := r.storedOrigin, provStatus := 0 }

/-- The firmware state after a reset: what the boot store, the fuses and the key store hold. -/
def Firmware.afterReset (f : Firmware) : Firmware :=
  { State.reset.fw with
    mode := if f.uncommitted then .activated else .idle
    active := f.active, trial := f.trial, service := f.service, uncommitted := f.uncommitted
    target := 1 - f.active, booting := f.active
    slots := f.slots, fuses := f.fuses, serial := f.serial, keyGen := f.keyGen, sigUsed := f.sigUsed
    pendingKey := f.pendingKey, pendingSig := f.pendingSig, cert := f.cert, wipeCount := f.wipeCount, lastWipe := f.lastWipe }

/-- The module part after a reset, in MARKS with a status. A module that leaves TRIPPED hot is held (R502). -/
def Module.afterReset (m : Module) (status : Nat) (hot : Bool) : Module :=
  { State.reset.module with
    phase := .marks, dies := m.dies, resetLow := true, busInRange := m.busInRange, railsOn := false
    holdHot := (m.phase == .tripped || m.holdHot) && hot
    status := status, busOut := m.busOut, coolOut := m.coolOut, outsideAt := m.outsideAt, faultLow := m.faultLow
    lifeSeconds := m.lifeSeconds, lifeNs := m.lifeNs, bootCount := m.bootCount + 1, siteEpoch := m.siteEpoch }

/-- The module resets, with a status to show in MO_STATE. -/
def State.moduleReset (s : State) (status : Nat) : State :=
  { State.reset with
    pending := s.pending
    module := s.module.afterReset status s.hot45
    sites := s.sites.map fun e => (e.1, e.2.afterReset)
    tiles := { State.reset.tiles with coreSites := s.tiles.coreSites.map fun e => (e.1, e.2.afterReset) }
    tiers := { State.reset.tiers with stackTab := s.tiers.stackTab.map fun e => (e.1, e.2.afterReset) }
    hosts := { ports := (List.range s.module.dies).map fun n => (n, HostPort.inMarks), ctxs := [], outbox := s.hosts.outbox, reads := s.hosts.reads }
    rel := s.rel.afterReset
    fw := s.fw.afterReset
    draws := s.draws }

/-- RESET_ASSERT: RST_N goes low, or another source resets the module. -/
def execResetAssert (s : State) : Out := .next (s.moduleReset 0)

/-- The reset key (R510, R516). -/
def resetKey : Nat := 0x0D0DA5A5

/-- A write of MO_RESET. -/
def State.resetWrite (s : State) (v : Nat) : State := if v = resetKey then s.moduleReset 0 else s

/-- MO_RESET. -/
def execMoReset (w : Writer) (v : Word) (s : State) : Out := .next (s.guarded w 0x102C v.toNat fun t => t.resetWrite v.toNat)

/-- A write of MO_CLEAR: the highest input power counts from here on. -/
def State.clearPeak (s : State) (v : Nat) : State :=
  if bit v 0 then { s.setReg 0x100C (s.draws + 1) with draws := s.draws + 1 } else s

/-- MO_CLEAR. -/
def execMoClear (w : Writer) (v : Word) (s : State) : Out := .next (s.guarded w 0x1028 v.toNat fun t => t.clearPeak v.toNat)

/-- REF_CLOCK_LOSS: the MGC forces a module reset, an interrupting event (R459, R503). -/
def execRefClockLoss (s : State) : Out := .next ((s.interrupt 0x0D04 true).moduleReset 0x0D04)

end Sys2Proof.Machine
end

