-- ==== Sys2Proof/Machine/Firmware.lean ====
section
/-!
DEFINITION. Delivery and activation of firmware (R480 to R488), the identity certificate (R472 to R474) and attestation
reports (R489).
-/

namespace Sys2Proof.Machine

open Sys2Proof

/-! ### The piece buffer and the session (R480) -/

/-- Bytes of FU_BUF. -/
def State.fuBuf (s : State) (off n : Nat) : List Byte := (List.range n).map fun i => tget s.fw.buffer (off + i) 0

/-- A word written into FU_BUF. -/
def State.fuBufWrite (s : State) (off v : Nat) : State :=
  { s with fw := { s.fw with buffer := putBytes s.fw.buffer off (toBytes 4 v) } }

/-- A delivery session is held by the other party (R480). -/
def State.fuOther (s : State) (w : Writer) : Bool :=
  match s.fw.holder with
  | some h => h != w
  | none => false

/-- The session's holder delivers: a slot is being received or was verified. -/
def State.fuMine (s : State) (w : Writer) : Bool :=
  s.fw.holder == some w && (s.fw.mode == .receiving || s.fw.mode == .verified)

/-- A refused piece: its status, and FU_BAD (R481). -/
def State.fuRefuse (s : State) (st : Nat) : State := (s.addSat 0x78001C 1).fuStatus st

/-- FU_CTRL open: the session writes the slot that did not boot; in recovery the slot that FU_CTRL[4] names (R480, R513). -/
def State.fuOpen (s : State) (w : Writer) (v : Nat) : State :=
  if s.fuOther w ∨ s.fw.mode = .armed ∨ s.fw.mode = .activating ∨ s.fw.loading then s.fuStatus 0x0C01 else
  let slot := if s.module.recovery then bits v 4 4 else 1 - s.fw.active
  let t : State := { s with fw := { s.fw with holder := some w, target := slot, status := 0 } }
  (t.setReg 0x78001C 0).fuMode .receiving

/-- FU_OPEN. -/
def execFuOpen (w : Writer) (v : Word) (s : State) : Out :=
  .next (s.guarded w 0x780000 v.toNat fun t => if fld v 3 0 = 1 then t.fuOpen w v.toNat else t)

/-! ### Pieces (R481 to R483) -/

/-- A piece stored in the slot being delivered. -/
def State.storePiece (s : State) (idx : Nat) (l : List Byte) : State :=
  let f := s.fwSlot s.fw.target
  s.setFwSlot s.fw.target { f with bytes := putBytes f.bytes (65536 * idx) l, received := sput f.received idx }

/-- With the last piece stored, the root signature decides: VERIFIED, or the image is discarded with 0x0C09 (R483). -/
def State.verifyImage (s : State) : State :=
  let f := s.fwSlot s.fw.target
  if f.received.length ≠ hdPieces f.header then s
  else if f.signed then ((s.setFwSlot s.fw.target { f with verified := true }).fuMode .verified)
  else (s.setFwSlot s.fw.target FwSlot.empty).fuStatus 0x0C09

/-- The status of piece 0 (R481, R482); `none` where it is stored already. -/
def State.pieceZero (s : State) (f : FwSlot) (l : List Byte) : Option Nat :=
  if f.factory || f.received.contains 0 then
    if !f.factory && sha256 (l.take 4096) == sha256 (f.read 0 4096) then none else some 0x0C08
  else
    let h := headerStatus s.fw.fuses s.fw.serial (l.take 4096)
    some (if h ≠ 0 then h else manifestStatus l)

/-- The status of a later piece (R481); `none` where it is stored already. -/
def FwSlot.pieceNext (f : FwSlot) (idx : Nat) (l : List Byte) : Option Nat :=
  let t := hdTables f.header
  if !f.received.contains 0 || decide (hdPieces f.header ≤ idx) then some 0x0C07
  else if f.received.contains idx then none
  else if t < idx ∧ !f.received.contains (1 + (idx - 1 - t) / 2048) then some 0x0C07
  else some (if f.pieceOk idx l then 0 else 0x0C06)

/-- FU_CTRL put. -/
def State.fuPut (s : State) (w : Writer) (v : Nat) : State :=
  if !s.fuMine w then s.fuStatus 0x0C01 else
  let idx := bits v 28 16
  let l := s.fuBuf 0 65536
  let f := s.fwSlot s.fw.target
  match (if idx = 0 then s.pieceZero f l else f.pieceNext idx l) with
  | none => (s.fuStatus 0).verifyImage
  | some 0 => ((s.storePiece idx l).fuStatus 0).verifyImage
  | some st => s.fuRefuse st

/-- FU_PUT. -/
def execFuPut (w : Writer) (v : Word) (s : State) : Out :=
  .next (s.guarded w 0x780000 v.toNat fun t => if fld v 3 0 = 2 then t.fuPut w v.toNat else t)

/-- FU_CTRL discard empties the slot being delivered (R482). -/
def State.fuDiscard (s : State) (w : Writer) : State :=
  if !s.fuMine w then s.fuStatus 0x0C01
  else ((s.setFwSlot s.fw.target FwSlot.empty).fuMode .receiving).fuStatus 0

/-- FU_DISCARD. -/
def execFuDiscard (w : Writer) (v : Word) (s : State) : Out :=
  .next (s.guarded w 0x780000 v.toNat fun t => if fld v 3 0 = 3 then t.fuDiscard w else t)

/-! ### Arm (R484, R487) -/

/-- Whether a slot may be armed: verified and not below the fuses, and not the active one, unless a recovery boot's session
delivered it (R484, R513). -/
def State.armable (s : State) (n : Nat) : Bool :=
  let f := s.fwSlot n
  (n != s.fw.active || (s.module.recovery && s.fw.mode == .verified && s.fw.target == n)) && f.verified &&
    decide (s.fw.fuses ≤ hdSecurity f.header)

/-- Whether quiescent mode is not possible for a slot (R484). -/
def State.quiescentBad (s : State) (n : Nat) : Bool :=
  let f := s.fwSlot n
  hdKind f.header == 1 || s.module.recovery || !s.keepsAlv n ||
    mfFormat f.manifest != mfFormat (s.fwSlot s.fw.active).manifest ||
    (s.changed n).any fun c => c.1 == 5 || c.1 == 6 || !c.2

/-- FU_CTRL arm. A slot already armed in reset mode: the module resets (R487). -/
def State.fuArm (s : State) (w : Writer) (v : Nat) : State :=
  let n := bits v 4 4
  let q := bit (s.reg 0x78000C) 0
  if s.fuOther w then s.fuStatus 0x0C01
  else if s.fw.mode = .armed ∧ !s.fw.quiescent then s.moduleReset 0
  else if s.fw.loading ∨ !s.armable n ∨ (q && s.quiescentBad n) then s.fuStatus 0x0C0A
  else { s with fw := { s.fw with loading := true, armedSlot := n, quiescent := q, status := 0 } }

/-- FU_ARM. -/
def execFuArm (w : Writer) (v : Word) (s : State) : Out :=
  .next (s.guarded w 0x780000 v.toNat fun t => if fld v 3 0 = 4 then t.fuArm w v.toNat else t)

/-- ARM_LOAD_DONE: the state is ARMED; in reset mode the boot state record names the slot as trial (R484, R487). -/
def execArmLoadDone (s : State) : Out :=
  .next (
    if !s.fw.loading then s else
    let t : State := { s with fw := { s.fw with loading := false } }
    let t : State := if s.fw.quiescent then t else
      { t with fw := { t.fw with trial := some s.fw.armedSlot, service := hdKind (s.fwSlot s.fw.armedSlot).header == 1 } }
    t.fuMode .armed)

/-! ### Commit (R487) -/

/-- FU_CTRL commit: fuses are blown up to the active image's security_version, and the mark is cleared. -/
def State.fuCommit (s : State) (w : Writer) : State :=
  if s.fuOther w then s.fuStatus 0x0C01
  else if !s.fw.uncommitted then s.fuStatus 0x0C0D
  else
    ({ s with fw := { s.fw with
        fuses := max s.fw.fuses (hdSecurity (s.fwSlot s.fw.active).header)
        uncommitted := false
        status := 0 } } : State).fuMode .idle

/-- FU_COMMIT. -/
def execFuCommit (w : Writer) (v : Word) (s : State) : Out :=
  .next (s.guarded w 0x780000 v.toNat fun t => if fld v 3 0 = 9 then t.fuCommit w else t)

/-! ### The identity certificate (R472, R474) -/

def certKey (c : Nat) : Nat := bits c 735 256
def certGeneration (c : Nat) : Nat := bits c 207 192
def certSerial (c : Nat) : Nat := bits c 191 64
def certStepping (c : Nat) : Nat := bits c 55 48

/-- Whether a certificate for the pending key is accepted: body of 256 bytes and root signature (R474). -/
def State.certOk (s : State) (body sig : List Byte) : Bool :=
  let c := ofBytes body
  s.fw.pendingKey && Config.hssVerify Config.rootKey ([0x55, 0x5A, 0x49, 0x43] ++ sha256 body) sig &&
    certSerial c == s.fw.serial.toNat && certStepping c == 0xB1 && certKey c == ofBytes (Config.identityKey (s.fw.keyGen + 1)) &&
    certGeneration c == s.fw.keyGen + 1

/-- FU_CTRL install certificate: from acceptance on the new key signs, its budget starts anew, and a SIG_BUDGET record and a
CHECKPOINT follow (R474). -/
def State.installCert (s : State) (w : Writer) : State :=
  let body := s.fuBuf 0 256
  let sig := s.fuBuf 256 3604
  if s.fuOther w then s.fuStatus 0x0C01
  else if !s.certOk body sig then s.fuStatus 0x0C13
  else
    let t : State := { s with fw := { s.fw with
      keyGen := s.fw.keyGen + 1, pendingKey := false, pendingSig := [], sigUsed := 0, cert := body ++ sig, status := 0 } }
    (t.log 0x92 0 0 0 (t.fw.keyGen % 65536 + 4 * 2 ^ 48)).checkpoint

/-- FU_INSTALL_CERT. -/
def execFuInstallCert (w : Writer) (v : Word) (s : State) : Out :=
  .next (s.guarded w 0x780000 v.toNat fun t => if fld v 3 0 = 8 then t.installCert w else t)

/-- A write of FU_CTRL: its command (R494). -/
def State.fuCtrl (s : State) (w : Writer) (v : Nat) : State :=
  match bits v 3 0 with
  | 1 => s.fuOpen w v
  | 2 => s.fuPut w v
  | 3 => s.fuDiscard w
  | 4 => s.fuArm w v
  | 8 => s.installCert w
  | 9 => s.fuCommit w
  | _ => s

/-! ### Attestation (R489) -/

/-- The active map: bit n for site Fn (R10). -/
def State.activeMap (s : State) : Nat :=
  ((List.range 81).filter fun n => (s.mapRank n).isSome).foldl (fun a n => a + 2 ^ n) 0

/-- TM_PROV[15:0]. -/
def State.provWord (s : State) : Nat := s.rel.provOrigin % 4 + (s.rel.provWrites % 16384) * 4

/-- SHA-256 of the last logbook record, and its sequence; zero for an empty book. -/
def State.lastHash (s : State) : Nat :=
  match s.rel.book.getLast? with
  | some r => ofBytes (sha256 (toBytes 128 r.toNat))
  | none => 0

/-- The four ALVs of the active firmware (R88). -/
def State.alvWord (s : State) : Nat := (s.alvs.zipIdx).foldl (fun a p => a + p.1 * 2 ^ (16 * p.2)) 0

/-- The body of a report (Table 18.7). -/
def State.atBody (s : State) (party nonce : Nat) : List Byte :=
  let f := s.fwSlot s.fw.active
  toBytes 512 (
    0x54415A55 + 1 * 2 ^ 32 + 0xB1 * 2 ^ 48 + 2 ^ 56 * (s.module.dies % 8) + 2 ^ 59 * party + 2 ^ 64 * s.fw.serial.toNat
    + 2 ^ 192 * (s.fw.keyGen % 65536) + 2 ^ 224 * hdVersion f.header + 2 ^ 256 * (s.fw.fuses % 256) + 2 ^ 264 * s.fw.active
    + 2 ^ 265 * b2n s.package.isSome + 2 ^ 288 * s.alvWord + 2 ^ 352 * mfMediaLib f.manifest
    + 2 ^ 384 * (s.module.siteEpoch % 2 ^ 32) + 2 ^ 416 * (s.fw.wipeCount % 2 ^ 32) + 2 ^ 448 * (s.module.lifeSeconds % 2 ^ 64)
    + 2 ^ 512 * nonce + 2 ^ 768 * ofBytes (sha256 (f.read 0 4096)) + 2 ^ 1024 * trimHash s.trimNow + 2 ^ 1280 * s.provWord
    + 2 ^ 1312 * s.activeMap + 2 ^ 1408 * (s.rlReserve % 2 ^ 17) + 2 ^ 1472 * s.packageId
    + 2 ^ 1536 * (s.rel.book.length - 1) + 2 ^ 1600 * s.lastHash + 2 ^ 1856 * (s.fw.sigUsed % 2 ^ 32))

/-- The nonce of a party. -/
def State.nonce (s : State) (party : Nat) : Nat :=
  (List.range 8).foldl (fun a i => a + s.reg (portKey party (0x780100 + 4 * i)) * 2 ^ (32 * i)) 0

/-- AT_STATE of a party: its last status and whether a report is ready. -/
def State.atSet (s : State) (party st : Nat) (ready : Bool) : State :=
  { s with fw := { s.fw with
      atStatus := tput s.fw.atStatus party st 0
      atReady := if ready then sput s.fw.atReady party else s.fw.atReady.filter fun p => p != party } }

/-- A report for a requester; in the reserve of the identity budget it is refused with 0x0C10 (R473, R489). -/
def State.attestNow (s : State) (party : Nat) : State :=
  if sigReserve ≤ s.fw.sigUsed then s.atSet party 0x0C10 false else
  let body := s.atBody party (s.nonce party)
  match s.sign ([0x55, 0x5A, 0x41, 0x54] ++ sha256 body) with
  | (t, some sig) =>
    { t with fw := { t.fw with
      atReport := tput t.fw.atReport party (body ++ sig) []
      atServed := (t.lifeTime :: t.fw.atServed).take 4 } }.atSet party 0 true
  | (t, none) => t.atSet party 0x0C10 false

/-- Fewer than four reports were made within the last second (R473). -/
def State.attestRoom (s : State) : Bool :=
  decide ((s.fw.atServed.filter fun t => decide (s.lifeTime < t + 1000000000)).length < 4)

/-- A request: refused at once in the reserve, served where no earlier one waits and the rate has room, and else waiting
(R473). -/
def State.attest (s : State) (party : Nat) : State :=
  if sigReserve ≤ s.fw.sigUsed ∨ (s.fw.atWaiting = [] ∧ s.attestRoom) then s.attestNow party
  else if s.fw.atWaiting.contains party then s
  else { s with fw := { s.fw with
    atWaiting := s.fw.atWaiting ++ [party], atReady := s.fw.atReady.filter fun p => p != party } }

/-- The first request that waits is served as soon as the rate has room. -/
def State.attestTick (s : State) : State :=
  match s.fw.atWaiting with
  | p :: r => if s.attestRoom then ({ s with fw := { s.fw with atWaiting := r } } : State).attestNow p else s
  | [] => s

/-- ATTESTATION_REQUEST. -/
def execAttestationRequest (w : Writer) (v : Word) (s : State) : Out :=
  .next (s.guarded w 0x780120 v.toNat fun t => if flag v 0 then t.attest (writerNo w) else t)

end Sys2Proof.Machine
end

