-- ==== Sys2Proof/Machine/Wipe.lean ====
section
/-!
DEFINITION. The attested wipe (R490 to R492), quiescent activation (R485, R486) and the requests that wait for its end
(R488).
-/

namespace Sys2Proof.Machine

open Sys2Proof

/-! ### The wipe (R490 to R492) -/

/-- Whether R490 refuses a wipe. -/
def State.wipeBad (s : State) : Bool :=
  s.package.isSome || ((List.range 16).any fun cx => (s.ctx cx).mode != .free) || (s.media.streams.any fun p => p.2.isOpen) ||
    ((List.range 2).any fun p => (s.po p).mode != .idle && (s.po p).mode != .hold) || s.rel.subst != .idle ||
    s.fw.mode == .activating || s.repairing

/-- Registers that a wipe returns to their reset values: sequence sets, context windows, landing entries, link stream sets and
context sets (R491 step 4). -/
def wipedReg (k : Nat) : Bool :=
  let o := k % 67108864
  (decide (0x4000 ≤ o) && decide (o < 0x4200)) || (decide (0x3100 ≤ o) && decide (o < 0x3200) && o % 16 == 12) ||
    (decide (0x204000 ≤ o) && decide (o < 0x205000)) || (decide (0x230000 ≤ o) && decide (o < 0x232000)) ||
    (decide (0x310000 ≤ o) && decide (o < 0x320000))

/-- Steps 2 to 4: stacks, infields, caches and units zeroed, registers reset. -/
def State.wipeState (s : State) : State :=
  { s with
    memory := State.reset.memory
    tiles := { State.reset.tiles with coreSites := s.tiles.coreSites }
    tiers := { s.tiers with
      entries := [], pages := [], used := [], heldWrites := [], heat := [], heatReads := [], heatClock := 0, frees := []
      stackTab := s.tiers.stackTab.map fun e => (e.1, { e.2 with weightMissing := false }) }
    kv := State.reset.kv
    attn := State.reset.attn
    links := { s.links with
      groups := [], streams := [], bulks := [], landings := [], dones := [], stagingUsed := [], assemblyUsed := [] }
    hosts := { s.hosts with ctxs := [] }
    media := { s.media with
      streams := [], waiting := []
      ports := s.media.ports.map fun e => (e.1, { e.2 with slate := none }) }
    regs := { s.regs with vals := s.regs.vals.filter fun e => !wipedReg e.1 } }

/-- Stacks by site that have served a rank, as bits; the others are never used. -/
def State.servedMap (s : State) : Nat :=
  ((List.range 81).filter fun n => (s.site n).served).foldl (fun a n => a + 2 ^ n) 0

/-- How many stacks have served a rank. -/
def State.servedCount (s : State) : Nat := ((List.range 81).filter fun n => (s.site n).served).length

/-- The body of the wipe report (Table 18.8). Every stack is taken to answer and every granule to verify (DESIGN CHOICE, the
log's entry 47). -/
def State.wipeBody (s : State) : List Byte :=
  let served := s.servedMap
  let prev := match s.fw.lastWipe with
    | some r => ofBytes (sha256 (toBytes 128 r.toNat))
    | none => 0
  toBytes 256 (0x50575A55 + 2 ^ 32 * (s.fw.wipeCount % 2 ^ 32) + 2 ^ 64 * s.fw.serial.toNat
    + 2 ^ 192 * (s.module.lifeSeconds % 2 ^ 64) + 2 ^ 256 * (s.rel.book.length % 2 ^ 64) + 2 ^ 320 * served
    + 2 ^ 448 * (2 ^ 81 - 1 - served) + 2 ^ 768 * prev)

/-- Step 6: the report is signed and the WIPE record written (R491, Table 18.9). -/
def State.wipeReport (s : State) : State :=
  let n := s.fw.wipeCount + 1
  let t : State := { s with fw := { s.fw with wipeCount := n } }
  let body := t.wipeBody
  let hash := sha256 body
  let (t, sig) := t.sign ([0x55, 0x5A, 0x57, 0x50] ++ hash)
  let at_ := t.rel.book.length
  let t := t.log 0x91 0 0 0 (n % 2 ^ 32 + 2 ^ 32 * s.servedCount + 2 ^ 256 * ofBytes hash)
  { t with fw := { t.fw with
      wipeReport := body ++ sig.getD [], wipeState := 2, wipeStatus := 0, lastWipe := t.rel.book[at_]? } }

/-- WP_CMD start. -/
def State.wipe (s : State) : State :=
  if s.wipeBad then { s with fw := { s.fw with wipeStatus := 0x0C20 } } else s.wipeState.wipeReport

/-- A request for a wipe; it waits while an activation is under way (R488). -/
def State.askWipe (s : State) : State :=
  if s.activationDue then { s with fw := { s.fw with heldWipe := true } } else s.wipe

/-- WIPE_START. -/
def execWipeStart (w : Writer) (v : Word) (s : State) : Out :=
  .next (s.guarded w 0x780200 v.toNat fun t => if flag v 0 then t.askWipe else t)

/-! ### Activation (R485, R486, R488) -/

/-- The first repair that waits on each stack starts (R488). -/
def State.resumeRepairs (s : State) : State :=
  iter 75 (fun r t => match (t.stack r).repairsDue with
    | c :: _ => if (t.stack r).repair.isSome then t else t.startRepair r c
    | [] => t) s

/-- The requests that waited for the end of an activation go on (R488). -/
def State.resumeHeld (s : State) : State :=
  if s.activationDue then s else
  let t := match s.fw.heldSubst with
    | some n => ({ s with fw := { s.fw with heldSubst := none } } : State).startPlanned n
    | none => s
  let t := if t.fw.heldWipe then ({ t with fw := { t.fw with heldWipe := false } } : State).wipe else t
  t.resumeRepairs

/-- Every unit has changed program store and passed its self-check: the slot is active and uncommitted (R486). -/
def State.activate (s : State) : State :=
  let old := s.fw.active
  let t : State := { s with fw := { s.fw with
    active := s.fw.armedSlot, uncommitted := true, holder := none, target := old, booting := s.fw.armedSlot, status := 0 } }
  (t.logActivate t.fw.active old true true false 0).fuMode .activated

/-- QUIESCENT_ACTIVATION: in the quiet leg the fields stop as at an edge, and the change is kept or undone. -/
def execQuiescentActivation (passed : Bool) (s : State) : Out :=
  .next (
    if !s.activationDue then s else
    let t := s.withdraw
    (if passed then t.activate else t.undoActivation).resumeHeld)

end Sys2Proof.Machine
end

