-- ==== Sys2Proof/Machine/Boot.lean ====
section
/-!
DEFINITION. From MARKS to GO (R506 to R514): straps, secure boot, the service image, recovery boot; power, coolant and the
junction sensors (R497 to R502); the MGC's own events and the contacts (R454, R506).
-/

namespace Sys2Proof.Machine

open Sys2Proof

/-! ### Service images (R479) -/

/-- The bytes of a component of an image, by its ID. -/
def FwSlot.component (f : FwSlot) (id : Nat) : Option (Nat × List Byte) :=
  match (mfEntries f.manifest).find? fun e => ceId e == id with
  | some e => some (ceHash e, f.read (65536 * (1 + hdTables f.header + ceFirst e)) (ceLength e))
  | none => none

/-- factory_cal_hash of the identity certificate; the factory's own words where the factory's certificate stands (R472). -/
def State.factoryCalHash (s : State) : Nat :=
  if s.fw.cert = [] then ofBytes (sha256 (trimBytes Config.factoryTrim 4096 16384)) else bits (ofBytes (s.fw.cert.take 256)) 1023 768

/-- Every component of a service image passes its check: its own hash, the factory's calibration, the end of the book. -/
def State.serviceOk (s : State) (f : FwSlot) : Bool :=
  (match f.component 0x80 with
  | some (h, l) => ofBytes (sha256 l) == h && h == s.factoryCalHash && l.length == 49152
  | none => true) &&
  (match f.component 0x81 with
  | some (_, l) => ofBytes l == s.lastHash && l.length == 32
  | none => true)

/-- TRIM_RESTORE: the calibration region is written over; it takes effect at the next reset (R479). -/
def State.trimRestore (s : State) (l : List Byte) : State :=
  let words := (List.range 12288).foldl (fun t i =>
    tput t (4096 + i) (some (BitVec.ofNat 32 (ofBytes ((l.drop (4 * i)).take 4)))) none) s.rel.stored
  let t : State := { s with rel := { s.rel with stored := words, storedOrigin := 2, provOrigin := 2 } }
  t.log 0x81 0 0 0 (trimHash t.trimStored)

/-- BOOK_OPEN: a new book begins with a record that names the end of the old one (R462, R479). -/
def State.bookOpen (s : State) : State :=
  let last := s.lastHash
  let t : State := { s with rel := { s.rel with
    book := [], bookNumber := s.rel.bookNumber + 1, signatures := [], sinceCheckpoint := 0 } }
  t.log 0xF1 0 0 0 last

/-- KEY_RENEW: a new key is pending, and the old key signs it (R474). -/
def State.keyRenew (s : State) : State :=
  match s.sign ([0x55, 0x5A, 0x4B, 0x52] ++ sha256 (Config.identityKey (s.fw.keyGen + 1))) with
  | (t, sig) => { t with fw := { t.fw with pendingKey := true, pendingSig := sig.getD [] } }

/-- A service image runs once: all its components, or none with 0x0C0F. Its slot is then empty and its flag clear. -/
def State.runService (s : State) (n : Nat) : State :=
  let f := s.fwSlot n
  let ok := s.serviceOk f
  let t := if ok then
      let t := match f.component 0x80 with
        | some (_, l) => s.trimRestore l
        | none => s
      let t := if (f.component 0x81).isSome then t.bookOpen else t
      if (f.component 0x82).isSome then t.keyRenew else t
    else s.fuStatus 0x0C0F
  let t := t.logActivate n t.fw.active false ok true (if ok then 0 else 0x0C0F)
  let t := t.setFwSlot n FwSlot.empty
  { t with fw := { t.fw with trial := none, service := false } }

/-! ### SET (R478, R507, R508, R512, R513) -/

/-- A stop in SET with a status (R508). -/
def State.setFail (s : State) (st : Nat) : State :=
  { s with module := { s.module with phase := .set, setCode := 0xE, status := st } }

/-- The slot that boots: a pending trial, else the active one, else the other (R478, R487); a failing trial leaves 0x0C0C. -/
def State.slotCheck (s : State) : State :=
  let loads := fun (t : State) (n : Nat) =>
    ({ t with
      fw := { t.fw with booting := n }
      module := { t.module with setCode := 5, railsOn := true } } : State)
  match s.fw.trial with
  | some n =>
    if s.slotPasses n then loads s n else
    let t := { s with fw := { s.fw with trial := none, service := false } }.fuStatus 0x0C0C
    if t.slotPasses (1 - n) then loads t (1 - n) else t.setFail 0x0C0E
  | none =>
    let a := s.fw.active
    if s.slotPasses a then loads s a
    else if s.slotPasses (1 - a) then loads s (1 - a)
    else s.setFail 0x0C0E

/-- The service image that the boot state record names runs, where it passes the slot check. -/
def State.servicePhase (s : State) : State :=
  match s.fw.trial with
  | some n => if s.fw.service && s.slotPasses n then s.runService n else s
  | none => s

/-- Recovery boot: GO with the wafer rails off and the host ports in reset (R513). -/
def State.recoveryBoot (s : State) : State :=
  { s with module := { s.module with phase := .go, setCode := 7, recovery := true, railsOn := false } }

/-- SET begins: straps, calibration words, service image and slots are checked in turn. -/
def State.beginSet (s : State) : State :=
  let s : State := { s with module := { s.module with phase := .set, setCode := 1 } }
  if fld s.module.straps 15 10 ≠ 0 ∨ s.module.dies ≤ s.ownerPort then s.setFail 0x0D02
  else if flag s.module.straps 4 then s.recoveryBoot
  else
    let bad := trimOutside s.trimNow
    let t := s.servicePhase
    if bad then t.setFail 0x0D05 else t.slotCheck

/-- MARKS ends where RST_N is high, the bus has been in range for 20 ms and no sensor holds the module (R502, R511). -/
def State.leaveMarks (s : State) : State :=
  if s.module.phase = .marks ∧ !s.module.resetLow ∧ s.module.busInRange ∧ !s.module.holdHot then s.beginSet else s

/-- RESET_RELEASE: the straps are sampled (R507). -/
def execResetRelease (straps : BitVec 16) (s : State) : Out :=
  .next (
    if s.module.phase ≠ .marks ∨ !s.module.resetLow then s else
    ({ s with module := { s.module with straps := straps, resetLow := false } } : State).leaveMarks)

/-- BUS_IN_RANGE: the bus has been in range for 20 ms. -/
def execBusInRange (s : State) : Out :=
  .next (({ s with module := { s.module with busInRange := true, busOut := false } } : State).leaveMarks)

/-- A site that fails bring-up is replaced by the lowest spare, where one is left (R512). -/
def State.badSite (s : State) (site : Nat) : State :=
  let x := s.site site
  match x.rank with
  | some r =>
    let t := s.retireSite site
    match t.spareSites with
    | n :: _ => t.takeRank site n r false
    | [] => t.setMissing site r
  | none => if x.use = .spare then s.retireSite site else s

/-- Ranks that no field held at the reset take spares, as far as they go (R457, R512). -/
def State.fillRanks (s : State) : State :=
  s.rel.missing.foldl (fun t p => match t.spareSites with
    | n :: _ => t.takeRank p.2 n p.1 false
    | [] => t) s

/-- The ports with a die have trained (R512). -/
def State.portsUp (s : State) : State :=
  { s with
    hosts := { s.hosts with ports := (List.range s.module.dies).map fun n => (n, HostPort.empty.trained (s.draws + n)) }
    draws := s.draws + 4 }

/-- The slot whose firmware reached GO: a trial becomes active and uncommitted, with an FW_ACTIVATE record (R487). -/
def State.bootedSlot (s : State) : State :=
  let old := s.fw.active
  let b := s.fw.booting
  if s.fw.trial = some b then
    let t : State := { s with fw := { s.fw with active := b, trial := none, uncommitted := true, target := 1 - b } }
    (t.logActivate b old false true false 0).fuMode .activated
  else { s with fw := { s.fw with active := b, target := 1 - b } }

/-- SET_COMPLETE: bad sites are replaced, the BOOT record is written, and the module is in GO. -/
def execSetComplete (badSites : List (Fin 81)) (s : State) : Out :=
  .next (
    if s.module.phase ≠ .set ∨ s.module.setCode ≠ 5 then s else
    let t := badSites.foldl (fun u n => u.badSite n) s.fillRanks
    let t := t.portsUp.bootedSlot
    let t := t.log 1 0 0 0 (hdVersion (t.fwSlot t.fw.active).header + 2 ^ 32 * t.module.siteEpoch)
    { t with module := { t.module with phase := .go, setCode := 6 } })

/-- A trial boot that does not reach GO: the ROM boots the previous active slot again, with 0x0C0C (R487). -/
def State.rollBack (s : State) : State :=
  ({ s with fw := { s.fw with trial := none, service := false } } : State).slotCheck.fuStatus 0x0C0C

/-- SET_LIMIT_EXPIRY: a trial rolls back; another slot stops in SET with 0x0D06. -/
def execSetLimitExpiry (s : State) : Out :=
  .next (
    if s.module.phase ≠ .set ∨ s.module.setCode ≠ 5 then s
    else if s.fw.trial = some s.fw.booting then s.rollBack
    else s.setFail 0x0D06)

/-- SET_STATUS_ALTERNATE: after a failure the contacts show the other byte of the status (R508). -/
def execSetStatusAlternate (s : State) : Out :=
  .next (
    let c := s.module.setCode
    if s.module.phase = .set ∧ (c = 0xE ∨ c = 0xF) then
      { s with module := { s.module with setCode := if c = 0xE then 0xF else 0xE } }
    else s)

/-! ### The MGC (R454, R506, R509) -/

/-- MGC_WATCHDOG: the MGC alone is reset and writes a record; before GO a trial boot rolls back (R454, R487). The record's
cause has no stated values: a free one. -/
def execMgcWatchdog (s : State) : Out :=
  .next (
    if s.module.phase = .marks then s else
    let t : State := if s.module.phase = .set ∧ s.module.setCode = 5 ∧ s.fw.trial = some s.fw.booting then s.rollBack else s
    let t := t.log 0x70 0 0 0 (Config.freeByte t.draws).toNat
    { t with draws := t.draws + 1, module := { t.module with response := none } })

/-- MGC_HEARTBEAT_TOGGLE: HEARTBEAT toggles while the firmware runs. -/
def execMgcHeartbeatToggle (s : State) : Out :=
  .next (
    if s.module.phase = .go ∨ s.module.phase = .tripped then
      { s with module := { s.module with heartbeat := !s.module.heartbeat } }
    else s)

/-- I3C_ADDRESS_ASSIGN: a dynamic address by ENTDAA, or by SETDASA from the static address 0x40 + ADDR (R509). -/
def execI3cAddressAssign (_setdasa : Bool) (addr : BitVec 7) (s : State) : Out :=
  .next (
    if s.module.phase = .go ∨ s.module.phase = .tripped then
      { s with module := { s.module with i3cAddr := some addr } }
    else s)

/-! ### Power and coolant (R497, R499, R500) -/

/-- The bus or the coolant is seen inside or outside its limits. -/
def State.sawLimits (s : State) (bus cool : Bool) : State :=
  let out := bus || cool
  { s with module := { s.module with
      busOut := bus, coolOut := cool
      outsideAt := if out || s.module.busOut || s.module.coolOut then some s.lifeTime else s.module.outsideAt } }

/-- BUS_VOLTAGE_EVENT: the bus stood at a voltage for a time. Below 48 V or above 60 V it is flagged, a dip of at most 1 ms
no lower than 40 V is ridden through, and beyond R497's limits the module takes a power fault. -/
def execBusVoltageEvent (centivolts : Nat) (microseconds : Nat) (s : State) : Out :=
  .next (
    let out := decide (centivolts < 4800) || decide (6000 < centivolts)
    let t := s.sawLimits out s.module.coolOut
    let t : State := { t with module := { t.module with busInRange := t.module.busInRange && !out } }
    let t := t.setReg 0x1008 (min 65535 centivolts)
    let t := if centivolts < 4800 then t.moEvent 0 else t
    let t := if 6000 < centivolts then t.moEvent 1 else t
    let t := if centivolts < 4800 ∧ 4000 ≤ centivolts ∧ microseconds ≤ 1000 then t.moEvent 6 else t
    if (centivolts < 4600 ∧ 1000 < microseconds) ∨ 6200 < centivolts then t.powerFault else t)

/-- POWER_FAULT: a fault of a field's VF or a stack's VD loses that field, of any other rail it is a power fault (R499). -/
def execPowerFault (rail : Fin 8) (site : Fin 81) (s : State) : Out :=
  .next (
    if !s.module.railsOn then s
    else if rail.val = 0 ∨ rail.val = 2 then s.loseField site
    else s.powerFault)

/-- COOLANT_INLET_SAMPLE. -/
def execCoolantInletSample (logicIn : BitVec 10) (stackIn : BitVec 10) (logicOut : BitVec 10) (stackOut : BitVec 10)
    (s : State) : Out :=
  .next (
    let a := logicIn.toNat
    let b := stackIn.toNat
    let out := decide (350 < a) || decide (350 < b) || decide (a < 150) || decide (b < 150)
    let t := s.sawLimits s.module.busOut out
    let t := (t.setReg 0x1018 (a + 65536 * b)).setReg 0x101C (logicOut.toNat + 65536 * stackOut.toNat)
    let t := if 350 < a then t.moEvent 2 else t
    if 350 < b then t.moEvent 3 else t)

/-! ### The sensors (R263, R501, R502) -/

/-- A module held hot in MARKS goes on once every sensor reads below 45 °C (R502). -/
def State.coolDown (s : State) : State :=
  if s.module.holdHot && !s.hot45 then ({ s with module := { s.module with holdHot := false } } : State).leaveMarks else s

/-- A field's clock steps (R501). -/
def State.stepField (s : State) (n c : Nat) : State :=
  let x := s.site n
  let cool := if c < 92 then x.coolSamples + 1 else 0
  if 100 ≤ c ∧ x.steps < 4 ∧ 10 ≤ x.sinceStep then
    (s.setSite n { x with steps := x.steps + 1, sinceStep := 0, coolSamples := 0 }).moEvent 4
  else if 100 ≤ cool ∧ 0 < x.steps then
    s.setSite n { x with steps := x.steps - 1, sinceStep := 0, coolSamples := 0 }
  else s.setSite n { x with sinceStep := min 10 (x.sinceStep + 1), coolSamples := cool }

/-- A field at 600 MHz stops its cores at 110 °C, and takes them into service again below 100 °C (R140, R142, R501). -/
def State.stopField (s : State) (n c : Nat) : State :=
  let x := s.site n
  if x.steps = 4 ∧ 110 ≤ c ∧ !x.stopped then ((s.setSite n { x with stopped := true }).dropField n).moEvent 5
  else if x.stopped ∧ c < 100 then s.setSite n { x with stopped := false }
  else s

/-- FIELD_THERMAL_SAMPLE: the highest junction reading of a field, every 100 µs. At 115 °C the module trips (R502). -/
def execFieldThermalSample (site : Fin 81) (celsius : Nat) (s : State) : Out :=
  .next (
    let t := s.setSite site { s.site site with junction := celsius }
    if t.module.holdHot then t.coolDown
    else if (t.site site).use ≠ .active ∨ !t.module.railsOn then t
    else if 115 ≤ celsius then t.thermalTrip site 0 celsius
    else (t.stopField site celsius).stepField site celsius)

/-- STACK_THERMAL_SAMPLE: the highest reading of a stack's sensors, every 10 µs. At 105 °C the module trips (R502). -/
def execStackThermalSample (rank : Fin 75) (celsius : Nat) (s : State) : Out :=
  .next (
    let k := s.stack rank
    let t := s.setStack rank { k with celsius := celsius }
    if t.module.holdHot then t.coolDown
    else if (s.siteOf rank).isNone || !s.module.railsOn then t
    else if 105 ≤ celsius then t.thermalTrip (t.siteAt rank) (stackCode (stackNext k.mode celsius)) celsius
    else t.enterStack rank (stackNext k.mode celsius))

/-! ### Contacts (Table 19.5) -/

/-- The module is available (R458): every rank has a field, the MGC answers and every port with a die is up. -/
def State.available (s : State) : Bool :=
  s.module.phase == .go && !s.module.recovery && s.rel.missing.isEmpty && (List.range s.module.dies).all s.portUp

/-- A stack is HOT or worse, or a field has stepped. -/
def State.thermal (s : State) : Bool :=
  (s.tiers.stackTab.any fun e => e.2.mode != .normal) || s.sites.any fun e => decide (0 < e.2.steps)

/-- The level the module gives contact MXnn; none where it does not drive it. -/
def State.contact (s : State) (n : Nat) : Option Bool :=
  let m := s.module
  let low := fun (b : Bool) => if b then some false else none
  match m.phase with
  | .marks => none
  | .set =>
    let data := if m.setCode = 0xE then bits m.status 15 8 else bits m.status 7 0
    if 2 ≤ n ∧ n ≤ 5 then some (bit m.setCode (n - 2))
    else if n = 6 then some (s.fw.booting == 1)
    else if 8 ≤ n ∧ n ≤ 15 ∧ (m.setCode = 0xE ∨ m.setCode = 0xF) then some (bit data (n - 8))
    else none
  | _ =>
    if n = 2 then low (s.reg 0x1024 != 0 || s.reg 0x48 &&& s.reg 0x4C != 0)
    else if n = 3 then some s.available
    else if n = 4 then low s.thermal
    else if n = 5 then low (m.phase == .tripped)
    else if n = 6 then low m.faultLow
    else if n = 7 then some m.heartbeat
    else if n = 8 then some (s.fw.mode == .activating)
    else if 9 ≤ n ∧ n ≤ 15 then some false
    else none

end Sys2Proof.Machine
end

