-- ==== Sys2Proof/Machine/RegFile.lean ====
section
/-!
DEFINITION. Reads of every register of the map (R425 to R427), block by block: what a party reads at an offset.
-/

namespace Sys2Proof.Machine

open Sys2Proof

/-- No time has passed since power came on: HP_SELF, HP_STATE, TR_FREE, TR_STACK_STATE and SC_NOW still read the value of the
Reset column (the log's entry 63). -/
def State.unstarted (s : State) : Bool := s.module.lifeSeconds == 0 && s.module.lifeNs == 0

/-! ### Codes of states, as the register tables number them -/

def lcCode : LcMode → Nat
  | .free => 0
  | .serving => 1
  | .exhausted => 2
  | .cancelling => 3

def linkCode3 : LinkMode → Nat
  | .disabled => 0
  | .training => 1
  | .up => 2
  | .retrain => 3
  | .degraded => 4
  | .down => 5
  | .loopback => 6

def groupCode : GroupMode → Nat
  | .free => 0
  | .forming => 1
  | .active => 2
  | .broken => 3
  | .freeing => 4

def portCode : PortMode → Nat
  | .noDie => 0
  | .inReset => 1
  | .training => 2
  | .up => 3
  | .degraded => 4
  | .down => 5

def cxCode : CxMode → Nat
  | .free => 0
  | .assigned => 1
  | .ready => 2
  | .faulted => 3
  | .stopping => 4

def poCode : PoMode → Nat
  | .idle => 0
  | .hold => 1
  | .armed => 2
  | .running => 3
  | .runOut => 4

def clockCode : PoClock → Nat
  | .unlocked => 0
  | .locked => 1
  | .holdover => 2

def siteCode : SiteUse → Nat
  | .active => 0
  | .spare => 1
  | .out => 2

def setCode2 : SetMode → Nat
  | .closed => 0
  | .opened => 1
  | .hold => 2

def substCode : SubstMode → Nat
  | .idle => 0
  | .mirror => 1
  | .drain => 2
  | .unplanned => 3

def fuCode : FuMode → Nat
  | .idle => 0
  | .receiving => 1
  | .verified => 2
  | .armed => 3
  | .activating => 4
  | .activated => 5

def phaseCode : Phase → Nat
  | .marks => 0
  | .set => 1
  | .go => 2
  | .tripped => 3

/-! ### Blocks -/

/-- A selector's value for a party (R427). -/
def State.sel (s : State) (p off : Nat) : Nat := s.reg (portKey p off)

/-- The field clock of a site in MHz. -/
def State.clockOf (s : State) (n : Nat) : Nat := 800 - 50 * (s.site n).steps

/-- The highest field junction, its site, and how many fields have stepped: MO_JUNCT. -/
def State.junctWord (s : State) : Nat :=
  let top := (List.range 81).foldl (fun b n => if (s.site b).junction < (s.site n).junction then n else b) 0
  (s.site top).junction % 256 + top * 256 + 65536 * ((List.range 81).filter fun n => decide (0 < (s.site n).steps)).length

/-- Global and module registers (Tables 16.3, 19.10). -/
def State.readGlobal (s : State) (p o : Nat) : Nat :=
  match o with
  | 0x00 => 0x03005A55
  | 0x04 => 0xB1 + s.module.dies * 256
  | 0x08 => s.alvWord % 2 ^ 32
  | 0x0C => s.alvWord / 2 ^ 32 % 2 ^ 32
  | 0x10 => hdVersion (s.fwSlot s.fw.active).header
  | 0x14 => s.module.siteEpoch
  | 0x18 => bits s.activeMap 31 0
  | 0x1C => bits s.activeMap 63 32
  | 0x20 => bits s.activeMap 80 64
  | 0x24 => s.sel p o
  | 0x28 => (s.mapSite (s.sel p 0x24)).getD 0
  | 0x2C => s.sel p o
  | 0x30 =>
    let n := s.sel p 0x2C
    let x := s.site n
    if 81 ≤ n then 0 else
    (s.mapRank n).getD 127 + siteCode x.use * 128 + s.clockOf n * 512 +
      (match x.rank with | some r => stackCode (s.stack r).mode | none => 0) * 2 ^ 19
  | 0x34 => s.packageId % 2 ^ 32
  | 0x38 => s.packageId / 2 ^ 32 % 2 ^ 32
  | 0x3C => b2n s.package.isSome + 65536 * s.alv
  | 0x40 => s.sel p o
  | 0x44 => s.sel p o
  | 0x1000 => phaseCode s.module.phase + b2n s.module.recovery * 4 + 65536 * s.module.status
  | 0x1004 =>
    b2n (flag s.module.straps 0) + fld s.module.straps 3 2 * 2 + b2n (flag s.module.straps 4) * 8 + fld s.module.straps 9 5 * 16
  | 0x1008 => s.reg o % 65536 + 65536 * ((Config.sensed 1 s.draws).toNat % 65536)
  | 0x100C =>
    let now := (Config.sensed 2 s.draws).toNat % 65536
    now + 65536 * max now ((Config.sensed 3 (s.reg o)).toNat % 65536)
  | 0x1010 => s.sel p o
  | 0x1014 => (Config.railReading (s.sel p 0x1010) s.draws).toNat
  | 0x1020 => s.junctWord
  | _ => s.reg o

/-- Guard-rail registers (Table 4.3). -/
def State.readGuard (s : State) (p o : Nat) : Nat :=
  let slot := s.sel p 0x2010
  let mon := fun (w : Nat) => tget s.rails.moduleMon (slot * 3 + w) 0
  match o with
  | 0x2000 => if s.package.isNone then 0 else 65536 * s.fallbackCap + s.recipes.length
  | 0x2004 =>
    ((List.range s.recipes.length).filter fun i => s.recipeBit 0x2200 i).length + 65536 * s.rails.counted.length
  | 0x2010 => slot
  | 0x2014 => mon 0
  | 0x2018 => mon 1
  | 0x201C => mon 2
  | 0x2020 => 0
  | _ => if 0x2100 ≤ o then s.reg o % 2 ^ (s.recipes.length - 32 * (o % 0x100 / 4)) else s.reg o

/-- The physical channel a logical one maps to, on the stack of the rank selected. -/
def State.readStack (s : State) (p o : Nat) : Nat :=
  let r := s.sel p 0x3018
  let k := s.stack r
  if 75 ≤ r then 0 else
  match o with
  | 0x301C =>
    if s.unstarted then 0 else
    stackCode k.mode + k.celsius % 256 * 256 + 2 ^ 16 * k.sparesLeft + 2 ^ 20 * b2n (!k.degraded.isEmpty)
      + 2 ^ 21 * b2n k.repair.isSome + 2 ^ 22 * ((k.repair.map Prod.fst).getD 0)
  | 0x3020 => k.corrected
  | 0x3024 => k.uncorrected
  | 0x3028 => k.retrains
  | 0x3030 => k.physical (s.sel p 0x302C)
  | 0x3034 => s.repairDone k
  | 0x3038 => k.recon
  | 0x303C => k.holdMax
  | _ => 0

/-- Pages free in the working tier of every stack. -/
def State.freeAllPages (s : State) : Nat := sumNat ((List.range 75).map s.freePages)

/-- Tier registers (Table 9.9). -/
def State.readTiers (s : State) (p o : Nat) : Nat :=
  match o with
  | 0x3000 => s.weightGib / 8 + s.heatMib * 64 + 64 * 65536
  | 0x3008 => s.usedOf 16
  | 0x300C => if s.unstarted then 0 else s.freeAllPages
  | 0x3018 => s.sel p o
  | 0x302C => s.sel p o
  | 0x3040 => 0
  | 0x3044 => s.pkWin
  | _ =>
    if 0x301C ≤ o ∧ o ≤ 0x303C then s.readStack p o
    else if 0x3100 ≤ o ∧ o < 0x3200 ∧ o % 16 = 4 then s.usedOf ((o - 0x3100) / 16)
    else s.reg o

/-- Sequence and frame registers (Table 7.5). -/
def State.readSeqs (s : State) (p o : Nat) : Nat :=
  let n := (o - 0x4000) / 64
  if o < 0x4200 then
    match o % 64 with
    | 0x1C => (s.seq n).last
    | 0x20 => s.seqLow n
    | 0x24 => (s.seq n).reclaim.length
    | 0x28 => (s.seq n).frames
    | 0x2C => (s.seq n).copies
    | _ => s.reg o
  else if o = 0x4200 then s.frameUnits
  else if o = 0x4204 then s.kv.shares.length
  else if o = 0x4208 then s.sel p o
  else
    let c := s.shareOf (s.sel p 0x4208)
    c.map % 65536 + 65536 * (c.hold % 65536)

/-- Commit-set registers (Table 16.5). -/
def State.readCsets (s : State) (o : Nat) : Nat :=
  let c := s.cset ((o - 0x10000) / 16)
  match o % 16 with
  | 8 => c.openGen + 65536 * c.closeGen
  | 12 => setCode2 c.mode + b2n c.pending.isSome * 4 + 65536 * c.status
  | _ => 0

/-- Field blocks of one site (Tables 16.4, 5.4, 11.10, 6.11, 8.4). FD_STATE[12] shows that the field's cores are stopped, by
their temperature (R501) or by the stack's (R263). The block of a site that holds no rank reads zero but for
FD_STATE (R425). -/
def State.readField (s : State) (p off : Nat) : Nat :=
  let n := (off - 0x100000) / 4096
  let b := siteBase n
  let x := s.site n
  match x.rank with
  | none =>
    if off % 4096 = 0 then siteCode x.use + (s.mapRank n).getD 127 * 4 + x.steps * 512 + 4096 * b2n x.stopped else 0
  | some r =>
    let i := s.sel p (b + 0x400)
    let l := s.lap r i
    let a := s.sel p (b + 0x480)
    match off % 4096 with
    | 0x000 => siteCode x.use + r * 4 + x.steps * 512 + 4096 * b2n (s.computeStopped r)
    | 0x004 => s.clockOf n
    | 0x008 => s.coresInService n % 4096 + 65536 * s.sparesLeft n
    | 0x00C => x.chgStall
    | 0x010 => x.opdStall
    | 0x014 => 0
    | 0x400 => i
    | 0x404 => lcCode l.mode + 65536 * l.cx
    | 0x408 => l.next
    | 0x40C => l.stop
    | 0x410 => l.done
    | 0x414 => l.retry.length
    | 0x418 => l.handOut
    | 0x41C => l.handIn
    | 0x420 => l.returned
    | 0x424 => l.boundM
    | 0x428 => l.boundN
    | 0x42C => l.boundK
    | 0x430 => l.boundB
    | 0x440 => match s.kernel i with
      | some k => match s.cmd? k.cmd with
        | some c => c.arrived.length
        | none => 0
      | none => s.attnArrived i
    | 0x480 => a
    | 0x484 =>
      if 128 ≤ bits a 14 3 then 0 else
      (List.range 32).foldl (fun acc j =>
        acc + b2n (s.tiles.arrival.contains (32768 * r + 4096 * bits a 2 0 + bits a 14 3 * 32 + j)) * 2 ^ j) 0
    | 0x488 => 0
    | 0x610 => 0
    | _ => s.reg off

/-- A set of lanes as bits. -/
def laneBits (l : List Nat) : Nat := l.foldl (fun a n => a ||| 2 ^ n) 0

/-- LK_UP: the links that are up, as bits. -/
def State.upBits (s : State) : Nat := ((List.range 36).filter s.linkUp).foldl (fun a n => a + 2 ^ n) 0

/-- Link registers, landing entries and routes (Table 10.10). -/
def State.readLinks (s : State) (o : Nat) : Nat :=
  let n := (o - 0x201000) / 256
  let l := s.link n
  let credit := fun (k : Nat) => tget l.credits k 0
  if o = 0x200004 then s.upBits % 2 ^ 32
  else if o = 0x200008 then s.upBits / 2 ^ 32
  else if 0x201000 ≤ o ∧ o < 0x203400 then
    match o % 256 with
    | 0x04 => linkCode3 l.mode + laneBits l.txLanes * 8 + 2 ^ 13 * laneBits l.rxLanes
        + 2 ^ 23 * (if l.txLanes = [] then 0 else min l.txSpares.length l.rxSpares.length) + 2 ^ 27 * (l.status % 32)
    | 0x08 => match l.peer with
      | some (m, i) => m + 4096 * i + 2 ^ 31
      | none => 0
    | 0x28 => credit 0 + credit 2 * 64
    | 0x2C => credit 4 + 1024 * credit 5 + 2 ^ 20 * credit 6 + 2 ^ 25 * credit 7
    | 0x34 => 0
    | _ => s.reg o
  else s.reg o

/-- Collective registers (Table 11.9); another port's context reads FREE (R319). -/
def State.readColl (s : State) (p o : Nat) : Nat :=
  let i := s.sel p 0x220000
  let g := if s.cxPort (bits i 3 0) = p then s.group (bits i 3 0) (bits i 9 4) else Group.empty
  match o with
  | 0x220000 => i
  | 0x220004 => groupCode g.mode + b2n g.pinned * 8 + b2n g.packed * 16 + 65536 * (g.self % 4096)
  | 0x220008 => g.gid
  | 0x22000C => g.gen
  | 0x220010 => g.members.length % 8192 + 65536 * g.kids.length
  | 0x220014 => match g.parent with
    | some (m, l) => g.moduleOf m % 4096 + 4096 * l + 2 ^ 31
    | none => 0
  | 0x220018 => wrap32 g.completed
  | 0x22001C => sat32 g.drop
  | 0x220020 => sat32 g.lastNs
  | 0x220024 => match g.slowMember with
    | some m => m % 4096 + 2 ^ 31
    | none => 0
  | 0x220028 => wrap32 g.slowWait
  | 0x22002C => wrap32 g.slowRepeat
  | 0x220030 => wrap32 g.localWait
  | 0x220034 => min 65535 (g.childWait / 64) + 65536 * g.childLink
  | 0x220038 => g.abort + 65536 * (g.abortMember % 4096)
  | 0x220104 => s.sel p o
  | 0x220108 => if 36 ≤ s.sel p 0x220104 then 0 else 4194304 - tget s.links.stagingUsed (s.sel p 0x220104) 0
  | _ => s.reg o

/-- Link stream registers (Table 12.3). -/
def State.readStreams (s : State) (p o : Nat) : Nat :=
  let n := (o - 0x230000) / 32
  let x := s.stream n
  if o = 0x232004 then s.sel p o
  else if o = 0x232008 then
    (if 36 ≤ s.sel p 0x232004 then 0 else 8388608 - tget s.links.assemblyUsed (s.sel p 0x232004) 0)
  else if o = 0x232000 then s.reg o
  else
    match o % 32 with
    | 0x0C => b2n x.bound + x.iface * 2 + b2n x.errValid * 128 + b2n (!(s.streamRuns n).isEmpty) * 256 + 65536 * x.refusal
    | 0x10 => match (s.streamRuns n).head? with
      | some p => p.2.emitted
      | none => 0
    | 0x14 => wrap32 x.tiles
    | 0x18 => sat32 x.waitNs
    | 0x1C => 0
    | _ => s.reg o

/-- HP_CX_MASK of a port (R347, R350). -/
def State.cxMask (s : State) (q : Nat) : Nat :=
  ((List.range 16).filter fun n => s.cxPort n == q).foldl (fun a n => a + 2 ^ n) 0

/-- One context's registers (Table 13.10). -/
def State.readCx (s : State) (p o : Nat) : Nat :=
  let n := (o - 0x310000) / 4096
  let x := o % 4096
  let c := s.ctx n
  if s.cxPort n ≠ p then 0 else
  match x with
  | 0x00 => 0
  | 0x04 => cxCode c.mode + c.port * 16 + 65536 * c.status
  | 0x20 => c.flags % 2 ^ 32
  | 0x24 => c.flags / 2 ^ 32
  | 0x28 => s.sel p o
  | 0x2C => tget c.sems (s.sel p (ctxBase n + 0x28)) 0
  | _ =>
    if 0x40 ≤ x ∧ x < 0xC0 ∧ x % 32 = 0x0C then (s.ring n ((x - 0x40) / 32)).fetched
    else if 0x40 ≤ x ∧ x < 0xC0 ∧ x % 32 = 0x10 then (s.ring n ((x - 0x40) / 32)).done
    else s.reg o

/-- Host-port and context registers (Table 13.10). -/
def State.readHost (s : State) (p o : Nat) : Nat :=
  if s.unstarted && (o == 0x300000 || (o % 256 == 0 && decide (0x300100 ≤ o) && decide (o < 0x300500))) then 0
  else if o = 0x300000 then p + b2n (p == s.ownerPort) * 4
  else if o = 0x300004 then s.ownerPort
  else if o < 0x300500 then
    let q := (o - 0x300100) / 256
    let h := s.port q
    match o % 256 with
    | 0x00 => portCode h.mode + h.lanesRepaired * 256
    | 0x04 => s.cxMask q
    | 0x0C => h.cycles % 2 ^ 32
    | 0x10 => h.cycles / 2 ^ 32 % 2 ^ 32
    | _ => s.reg o
  else if o < 0x320000 then s.readCx p o
  else if o < 0x321000 then s.sel p o
  else 0

/-- Heat-sheet registers (Table 14.9). -/
def State.readHeat (s : State) (o : Nat) : Nat :=
  match o with
  | 0x40000C => sumNat (s.legs.map fun e => bits e 16 0)
  | 0x400010 => if s.unstarted then 0 else match s.sched.holder with
    | some c => s.sched.leg % 64 + c * 256
    | none => s.sched.leg % 64 + 4096
  | 0x400018 => s.sched.heats
  | 0x40001C => 12
  | 0x400020 => 0
  | _ =>
    let n := (o - 0x400200) / 16
    if 0x400200 ≤ o ∧ o < 0x400300 ∧ o % 16 = 4 then wrap32 (tget s.sched.debit n 0)
    else if 0x400200 ≤ o ∧ o < 0x400300 ∧ o % 16 = 8 then wrap32 (tget s.sched.overrun n 0)
    else if 0x400200 ≤ o ∧ o < 0x400300 ∧ o % 16 = 12 then tget s.sched.late n 0
    else s.reg o

/-- Media registers (Table 15.9). -/
def State.readMedia (s : State) (p o : Nat) : Nat :=
  let m := s.mstream (s.sel p 0x500008)
  let e := s.sel p 0x500024
  match o with
  | 0x500000 => 0x108 + 65536 * s.mediaLib
  | 0x500008 => s.sel p o
  | 0x50000C =>
    if !m.isOpen then 0 else
    1 + b2n (srLive m.record) * 2 + m.engine.getD 0 * 4 + m.cx * 128 + 2 ^ 11 * srCodec m.record
      + 2 ^ 13 * b2n (srDecode m.record) + 2 ^ 14 * srPort m.record
  | 0x500010 => m.frames
  | 0x500014 => m.concealed
  | 0x500018 => m.emergency
  | 0x50001C => m.fill
  | 0x500020 => m.hintsBad
  | 0x500024 => e
  | 0x500028 =>
    if 24 ≤ e then 0 else
    let l := s.liveLoad e (s.liveOn e)
    l.1 * 65536 / l.2
  | 0x50002C => wrap32 ((s.engine e).cycles / 1024)
  | 0x500030 => (s.engine e).late
  | _ => s.reg o

/-- Playout registers (Table 15.10). -/
def State.readPlayout (s : State) (o : Nat) : Nat :=
  let q := s.po ((o - 0x580000) / 4096)
  match o % 4096 with
  | 0x40 => poCode q.mode + clockCode q.clock * 8 + b2n q.slate.isSome * 32 + b2n (q.showing == .slate) * 64 + 65536 * q.status
  | 0x28 => s.clampReg o (s.reg o)
  | 0x44 => q.queue.length
  | 0x48 => wrap32 q.freeSeq
  | 0x60 => 0
  | _ => s.reg o

/-- Trim and reliability registers (Table 17.9). -/
def State.readTrim (s : State) (p o : Nat) : Nat :=
  match o with
  | 0x600000 => s.provWord + 65536 * s.rel.provStatus
  | 0x600004 => s.sel p o
  | 0x600008 => (s.trimStaged (s.sel p 0x600004 % 16384)).toNat
  | 0x60000C => 0
  | 0x600104 => 0
  | 0x600108 => substCode s.rel.subst + s.rel.oldSite * 4 + s.rel.newSite * 512 + 65536 * s.rel.status
  | 0x60010C => s.rlReserve
  | 0x600110 => wrap32 s.rel.events
  | 0x600128 => s.module.lifeSeconds % 2 ^ 32
  | 0x60012C => s.module.lifeSeconds / 2 ^ 32
  | _ => if 0x600010 ≤ o ∧ o ≤ 0x60002C then trimHash s.trimNow >>> (8 * (o - 0x600010)) % 2 ^ 32 else s.reg o

/-- Word i of a byte list. -/
def wordAt (l : List Byte) (i : Nat) : Nat := ofBytes ((l.drop (4 * i)).take 4)

/-- Logbook registers (Table 17.10). -/
def State.readBook (s : State) (p o : Nat) : Nat :=
  let n := s.rel.book.length
  let slot := s.sel p 0x700010
  if o = 0x700000 then
    b2n (decide (bookSize * 9 ≤ n * 10)) * 2 + b2n (decide (bookSize ≤ n)) * 4 + 65536 * (s.rel.bookNumber % 65536)
  else if o = 0x700004 then n % 2 ^ 32
  else if o = 0x700008 then n / 2 ^ 32
  else if o = 0x70000C then s.sel p o
  else if o = 0x700010 then slot
  else if 0x700080 ≤ o ∧ o < 0x700100 then
    match s.rel.book[s.sel p 0x70000C]? with
    | some r => r.toNat >>> (8 * (o - 0x700080)) % 2 ^ 32
    | none => 0
  else if 0x701000 ≤ o then
    match s.rel.signatures.reverse.find? fun g => g.1 == slot with
    | some g => wordAt g.2 ((o - 0x701000) / 4)
    | none => 0
  else if o = 0x700120 then 0
  else s.reg o

/-- The version of a slot's image; zero where it holds no verified image. -/
def State.slotVersion (s : State) (n : Nat) : Nat :=
  if (s.fwSlot n).verified then hdVersion (s.fwSlot n).header else 0

/-- ID_CERT: the certificate, and from byte 0xF00 on the pending key and its signature, as far as the window goes (R494). -/
def State.certWindow (s : State) : List Byte :=
  let c := s.fw.cert.take 3840
  c ++ List.replicate (3840 - c.length) 0 ++
    (if s.fw.pendingKey then Config.identityKey (s.fw.keyGen + 1) ++ s.fw.pendingSig else [])

/-- Update, attestation and wipe registers (Table 18.10). -/
def State.readUpdate (s : State) (p o : Nat) : Nat :=
  match o with
  | 0x780000 => 0
  | 0x780004 => fuCode s.fw.mode + b2n (s.fw.holder == some .tool) * 8 + s.fw.active * 16 + b2n s.fw.uncommitted * 32
      + 65536 * s.fw.status
  | 0x780008 =>
    let f := s.fwSlot s.fw.target
    f.received.length + 65536 * (if f.received.contains 0 then hdPieces f.header else 0)
  | 0x780010 => s.fw.fuses
  | 0x780014 => s.slotVersion 0
  | 0x780018 => s.slotVersion 1
  | 0x780120 => 0
  | 0x780124 => b2n (s.fw.atWaiting.contains p) + b2n (s.fw.atReady.contains p) * 2 + 65536 * tget s.fw.atStatus p 0
  | 0x780128 => wrap32 s.fw.sigUsed
  | 0x78012C => s.fw.keyGen % 65536 + 65536 * b2n s.fw.pendingKey
  | 0x780200 => 0
  | 0x780204 => s.fw.wipeState + 65536 * s.fw.wipeStatus
  | 0x780208 => wrap32 s.fw.wipeCount
  | _ =>
    if 0x780100 ≤ o ∧ o < 0x780120 then s.sel p o
    else if 0x784000 ≤ o ∧ o < 0x785000 then wordAt (tget s.fw.atReport p []) ((o - 0x784000) / 4)
    else if 0x785000 ≤ o ∧ o < 0x786000 then wordAt s.certWindow ((o - 0x785000) / 4)
    else if 0x786000 ≤ o ∧ o < 0x787000 then wordAt s.fw.wipeReport ((o - 0x786000) / 4)
    else if 0x790000 ≤ o then ofBytes (s.fuBuf (o - 0x790000) 4)
    else s.reg o

/-- What a party (0 to 3: a host port, 4: the service tool) reads at an offset; zero where no register is (R426). -/
def State.regRead (s : State) (p off : Nat) : Nat :=
  if (regInfo off).isNone then 0
  else if off < 0x2000 then s.readGlobal p off
  else if off < 0x3000 then s.readGuard p off
  else if off < 0x4000 then s.readTiers p off
  else if off < 0x10000 then s.readSeqs p off
  else if off < 0x100000 then s.readCsets off
  else if off < 0x200000 then s.readField p off
  else if off < 0x220000 then s.readLinks off
  else if off < 0x230000 then s.readColl p off
  else if off < 0x300000 then s.readStreams p off
  else if off < 0x400000 then s.readHost p off
  else if off < 0x500000 then s.readHeat off
  else if off < 0x580000 then s.readMedia p off
  else if off < 0x600000 then s.readPlayout off
  else if off < 0x700000 then s.readTrim p off
  else if off < 0x780000 then s.readBook p off
  else s.readUpdate p off

end Sys2Proof.Machine
end

