-- ==== Sys2Proof/Machine/RegWrite.lean ====
section
/-!
DEFINITION. Register accesses (R426 to R431, R440 to R442, R510): writes of every register of the map, reads with their
latches, commit sets, and the management commands of the service tool.
-/

namespace Sys2Proof.Machine

open Sys2Proof

/-! ### Rows with an effect of their own -/

/-- CS_OPEN. -/
def execCsOpen (w : Writer) (cset : Fin 320) (g : BitVec 16) (s : State) : Out :=
  .next (s.guarded w (0x10000 + 16 * cset.val) g.toNat fun t => t.csetOpen w cset g.toNat)

/-- CS_CLOSE. -/
def execCsClose (w : Writer) (cset : Fin 320) (g : BitVec 16) (s : State) : Out :=
  .next (s.guarded w (0x10004 + 16 * cset.val) g.toNat fun t => t.csetClose w cset g.toNat)

/-- The bits of GL_CFG_ERR written with 1 clear; with the last of them GL_CFG_ADDR returns to zero (Table 16.3). -/
def State.clearCfgErr (s : State) (p v : Nat) : State :=
  let left := clearBits (s.reg (portKey p 0x40)) v
  let t := s.setReg (portKey p 0x40) left
  if left = 0 then t.setReg (portKey p 0x44) 0 else t

/-- GL_CFG_ERR_WRITE: each port writes its own (R440). -/
def execGlCfgErrWrite (w : Writer) (v : Word) (s : State) : Out :=
  .next (s.guarded w 0x40 v.toNat fun t => t.clearCfgErr (writerNo w) v.toNat)

/-- GL_OWNER_EVENT_WRITE (R440, R441). -/
def execGlOwnerEventWrite (w : Writer) (v : Word) (s : State) : Out :=
  .next (s.guarded w 0x48 v.toNat fun t => t.setReg 0x48 (clearBits (t.reg 0x48) v.toNat))

/-- FD_STALL_CLEAR of a site (R442); the block of a site that holds no rank has nothing to clear. -/
def execFdStallClear (w : Writer) (site : Fin 81) (v : Word) (s : State) : Out :=
  .next (s.guarded w (siteBase site.val + 0x14) v.toNat fun t =>
    if flag v 0 then t.setSite site { t.site site with chgStall := 0, opdStall := 0 } else t)

/-! ### A write of any register -/

/-- The state a row leaves, `s` where it stops. -/
def outState (s : State) : Out → State
  | .next t => t
  | _ => s

/-- A row that names a unit below `n`: the state it leaves, `s` for a number past the last unit. -/
def unitRow (n : Nat) (s : State) (i : Nat) (f : Fin n → Out) : State :=
  if h : i < n then outState s (f ⟨i, h⟩) else s

/-- A write of LB_CMD: each bit set is a request, the lowest first (R463). -/
def State.bookWrite (s : State) (w : Writer) (v : Nat) : State :=
  let t := if bit v 0 then outState s (execLeaseMark w s) else s
  let t := if bit v 1 then outState t (execCheckpointRequest w t) else t
  if bit v 2 then outState t (execGrade w t) else t

/-- A write of CX_CMD: stop, then start; the doorbell line that a start reads is not part of the write, so its bytes are
free (R351). -/
def State.cxWrite (s : State) (w : Writer) (n v : Nat) : State :=
  let t := if bit v 1 then unitRow 16 s n fun c => execCxStop w c s else s
  if bit v 0 then
    let line := BitVec.ofNat 512 (ofBytes (freeBytes t.draws 64))
    unitRow 16 { t with draws := t.draws + 64 } n fun c => execCxStart w c line false { t with draws := t.draws + 64 }
  else t

/-- A write of SQ_CTRL: enable or disable. -/
def State.seqWrite (s : State) (w : Writer) (n : Nat) (v : Word) : State :=
  unitRow 8 s n fun q => if flag v 0 then execSequenceEnable w q v s else execSequenceDisable w q v s

/-- Registers below the field blocks whose writes have rows of their own. -/
def State.rowLow (s : State) (w : Writer) (off : Nat) (v : Word) : Option State :=
  if off = 0x40 then some (outState s (execGlCfgErrWrite w v s))
  else if off = 0x48 then some (outState s (execGlOwnerEventWrite w v s))
  else if off = 0x1028 then some (outState s (execMoClear w v s))
  else if off = 0x102C then some (outState s (execMoReset w v s))
  else if off = 0x200C then some (outState s (execGrFirstWrite w v s))
  else if off = 0x2020 then some (outState s (execGrMonClear w v s))
  else if off = 0x2024 then some (outState s (execGrUntrackedWrite w v s))
  else if off = 0x3040 then some (outState s (execTrErrClear w v s))
  else if 0x4000 ≤ off ∧ off < 0x4200 ∧ off % 64 = 0 then some (s.seqWrite w ((off - 0x4000) / 64) v)
  else if 0x10000 ≤ off ∧ off < 0x100000 ∧ off % 16 = 0 then
    some (unitRow 320 s ((off - 0x10000) / 16) fun n => execCsOpen w n (v.setWidth 16) s)
  else if 0x10000 ≤ off ∧ off < 0x100000 ∧ off % 16 = 4 then
    some (unitRow 320 s ((off - 0x10000) / 16) fun n => execCsClose w n (v.setWidth 16) s)
  else none

/-- The same in the field blocks, links, streams and contexts. -/
def State.rowMid (s : State) (w : Writer) (off : Nat) (v : Word) : Option State :=
  let site := (off - 0x100000) / 4096
  let x := off % 4096
  if off < 0x100000 then none
  else if off < 0x200000 then
    (if x = 0x014 then some (unitRow 81 s site fun n => execFdStallClear w n v s)
    else if x = 0x488 then some (unitRow 81 s site fun n => execAbClear w n v s)
    else if x = 0x60C then some (unitRow 81 s site fun n => execEgFirstWrite w n v s)
    else if x = 0x610 then some (unitRow 81 s site fun n => execEgClear w n v s)
    else none)
  else if 0x201000 ≤ off ∧ off < 0x203400 ∧ off % 256 = 0x34 then
    some (unitRow 36 s ((off - 0x201000) / 256) fun n => execLkErrClear w n v s)
  else if 0x230000 ≤ off ∧ off < 0x232000 ∧ off % 32 = 0 then
    some (unitRow 256 s ((off - 0x230000) / 32) fun n => execStreamBind w n v s)
  else if 0x230000 ≤ off ∧ off < 0x232000 ∧ off % 32 = 0x1C then
    some (unitRow 256 s ((off - 0x230000) / 32) fun n => execStArm w n v s)
  else if 0x300100 ≤ off ∧ off < 0x300500 ∧ off % 256 = 4 then
    some (unitRow 4 s ((off - 0x300100) / 256) fun p => execHpCxMaskWrite w p v s)
  else if 0x310000 ≤ off ∧ off < 0x320000 ∧ x = 0 then
    some (s.guarded w off v.toNat fun t => t.cxWrite w ((off - 0x310000) / 4096) v.toNat)
  else none

/-- The same from the heat sheet on. -/
def State.rowHigh (s : State) (w : Writer) (off : Nat) (v : Word) : Option State :=
  if off = 0x400020 then some (outState s (execScClear w v s))
  else if 0x580000 ≤ off ∧ off < 0x582000 ∧ off % 4096 = 0x60 then
    some (unitRow 2 s ((off - 0x580000) / 4096) fun p => execPoClear w p v s)
  else if off = 0x600008 then some (outState s (execTmDataWrite w v s))
  else if off = 0x60000C then some (outState s (execTmCommit w v s))
  else if off = 0x600104 then some (outState s (execPlannedSubstStart w v s))
  else if off = 0x700120 then some (s.guarded w off v.toNat fun t => t.bookWrite w v.toNat)
  else if off = 0x780000 then some (s.guarded w off v.toNat fun t => t.fuCtrl w v.toNat)
  else if off = 0x780120 then some (outState s (execAttestationRequest w v s))
  else if off = 0x780200 then some (outState s (execWipeStart w v s))
  else none

/-- The idle condition of an RWI register (each block's table). -/
def State.rwiIdle (s : State) (off : Nat) : Bool :=
  if off = 0x3004 then s.package.isNone
  else if off < 0x4000 then (s.outstandingOf ((off - 0x3100) / 16)).isEmpty
  else if off < 0x10000 then (s.seq ((off - 0x4000) / 64)).pinned.isEmpty
  else if off = 0x200000 then (List.range 36).all fun n => (s.link n).mode == .disabled
  else if off < 0x300000 then s.streamIdle ((off - 0x230000) / 32)
  else if off < 0x400000 then (s.ctx ((off - 0x310000) / 4096)).mode == .assigned
  else if off = 0x400004 then (List.range 16).all fun n => (s.ctx n).mode != .ready
  else if off = 0x500004 then
    (List.range 64).all fun n => !((s.mstream n).isOpen && srLive (s.mstream n).record)
  else if 0x580000 ≤ off ∧ off < 0x582000 then
    (s.po ((off - 0x580000) / 4096)).mode == .idle || (s.po ((off - 0x580000) / 4096)).mode == .hold
  else true

/-- An RWI value taken; that of PO_CFG counts as a commit of its port's registers (R438). -/
def State.rwiSet (s : State) (off v : Nat) : State :=
  let t := s.setReg off (s.clampReg off v)
  if 0x580000 ≤ off ∧ off < 0x582000 then (t.poCommit ((off - 0x580000) / 4096) []).1 else t

/-- A W1C register: the bits written with 1 clear. CX_FLAGS stands in its context (R82). -/
def State.w1cSet (s : State) (off v : Nat) : State :=
  let n := (off - 0x310000) / 4096
  if 0x310000 ≤ off ∧ off < 0x320000 ∧ off % 4096 = 0x20 then
    s.setCtx n { s.ctx n with flags := (s.ctx n).flags &&& (2 ^ 64 - 1 - v) }
  else if 0x310000 ≤ off ∧ off < 0x320000 ∧ off % 4096 = 0x24 then
    s.setCtx n { s.ctx n with flags := (s.ctx n).flags &&& (2 ^ 64 - 1 - 2 ^ 32 * v) }
  else s.setReg off (clearBits (s.reg off) v)

/-- A permitted write of a register with no row of its own, by its access code (R7, R430, R433). -/
def State.plainWrite (s : State) (w : Writer) (off v : Nat) (i : RegInfo) : State :=
  let v := v &&& i.mask
  match i.acc with
  | .ro | .wo => s
  | .rw =>
    if 0x790000 ≤ off then s.fuBufWrite (off - 0x790000) v
    else s.setReg (if i.perPort then portKey (writerNo w) off else off) (s.clampReg off v)
  | .rws n => s.shadowWrite w n off v
  | .rwi => s.whenIdle w off (s.rwiIdle off) fun t => t.rwiSet off v
  | .w1c => s.w1cSet off v

/-- One 32-bit write (R426, R428). -/
def State.regWrite (s : State) (w : Writer) (off v : Nat) : State :=
  let word : Word := BitVec.ofNat 32 v
  match regInfo off with
  | none => if s.reaches w then s.cfgErr w 4 off else s
  | some i =>
    if i.acc = .ro then s else
    match ((s.rowLow w off word).or (s.rowMid w off word)).or (s.rowHigh w off word) with
    | some t => t
    | none => s.guarded w off v fun t => t.plainWrite w off v i

/-- REGISTER_WRITE: an aligned write of 32 or 64 bits; any other access has no effect but 0x0A05 (R426). -/
def execRegisterWrite (w : Writer) (off : BitVec 26) (size : Nat) (data : DWord) (s : State) : Out :=
  let o := off.toNat
  let v := data.toNat
  .next (
    if size = 4 ∧ o % 4 = 0 then s.regWrite w o (v % 2 ^ 32)
    else if size = 8 ∧ o % 8 = 0 then (s.regWrite w o (v % 2 ^ 32)).regWrite w (o + 4) (v / 2 ^ 32)
    else if s.reaches w then s.cfgErr w 4 o else s)

/-! ### Reads (R426) -/

/-- Whether the register at an offset is named _LO; its _HI lies 4 above. -/
def isLo (off : Nat) : Bool :=
  off == 0x34 || off == 0x200004 || off == 0x600128 || off == 0x700004 ||
  (decide (0x4000 ≤ off) && decide (off < 0x4200) && (off % 64 == 0x04 || off % 64 == 0x10)) ||
  (decide (0x204000 ≤ off) && decide (off < 0x205000) && off % 16 == 4) ||
  (decide (0x208000 ≤ off) && decide (off < 0x210000) && off % 8 == 0) ||
  (decide (0x230000 ≤ off) && decide (off < 0x232000) && off % 32 == 4) ||
  (decide (0x300100 ≤ off) && decide (off < 0x300500) && off % 256 == 0x0C) ||
  (decide (0x310000 ≤ off) && decide (off < 0x320000) &&
    (off % 4096 == 0x08 || off % 4096 == 0x18 || off % 4096 == 0x20 ||
      (decide (0x40 ≤ off % 4096) && decide (off % 4096 < 0xC0) && off % 32 == 0))) ||
  (decide (0x580000 ≤ off) && decide (off < 0x582000) && (off % 4096 == 0x08 || off % 4096 == 0x10))

/-- The latch of a party's _HI register. -/
def latchKey (p off : Nat) : Nat := 67108864 * p + off

def State.setLatch (s : State) (k : Nat) (v : Option Nat) : State :=
  { s with regs := { s.regs with latches := tput s.regs.latches k v none } }

/-- What a read returns, and the state after it: a latched _HI is used up, a _LO latches its _HI (R426), and a read of
RL_EVENTS releases FAULT_N (R506). -/
def State.readWord (s : State) (p off : Nat) : Nat × State :=
  match tget s.regs.latches (latchKey p off) none with
  | some v => (v, s.setLatch (latchKey p off) none)
  | none =>
    let v := s.regRead p off
    if isLo off then (v, s.setLatch (latchKey p (off + 4)) (some (s.regRead p (off + 4))))
    else if off = 0x600110 then (v, { s with module := { s.module with faultLow := false } })
    else if off = 0x1008 ∨ off = 0x100C ∨ off = 0x1014 ∨ off = 0x3034 then (v, { s with draws := s.draws + 1 })
    else (v, s)

/-- REGISTER_READ_LO. -/
def execRegisterReadLo (port : Fin 4) (off : BitVec 26) (s : State) : Out :=
  .next (if s.reaches (.port port) ∧ isLo off.toNat then (s.readWord port off.toNat).2 else s)

/-! ### Management commands (R510, R513) -/

/-- A response: its status, and the data of a READ. -/
def State.respond (s : State) (status : Nat) (data : List Byte) : State :=
  { s with module := { s.module with response := some (status, data) } }

/-- The offsets of a request's words. -/
def reqWords (off length : Nat) : List Nat := (List.range (length / 4)).map fun i => off + 4 * i

/-- A length and an offset that R510 allows. -/
def reqOk (off length : Nat) : Bool :=
  decide (4 ≤ length) && decide (length ≤ 1024) && length % 4 == 0 && off % 4 == 0

/-- What the service tool may read: the global block and the module registers, the trim, logbook and update windows. -/
def toolReads (off : Nat) : Bool := decide (off < 0x2000) || (decide (0x600000 ≤ off) && decide (off < 0x800000))

/-- Words read in ascending order. -/
def State.readWords (s : State) (offs : List Nat) : List Byte × State :=
  offs.foldl (fun (a : List Byte × State) o =>
    let r := a.2.readWord 4 o
    (a.1 ++ toBytes 4 r.1, r.2)) ([], s)

/-- MCTP_READ. -/
def execMctpRead (off : Word) (length : BitVec 16) (s : State) : Out :=
  let ws := reqWords off.toNat length.toNat
  .next (
    if !s.reaches .tool then s
    else if !reqOk off.toNat length.toNat then s.respond 0x0A05 []
    else if !(ws.all toolReads) then s.respond 0x0A04 []
    else
      let r := s.readWords ws
      r.2.respond 0 r.1)

/-- The words of a byte list written in ascending order. -/
def State.writeWords (s : State) (off : Nat) (data : List Byte) : State :=
  (List.range (data.length / 4)).foldl (fun t i => t.regWrite .tool (off + 4 * i) (wordAt data i)) s

/-- MCTP_WRITE: a request with a word that the tool may not write, writes nothing. -/
def execMctpWrite (off : Word) (length : BitVec 16) (data : List Byte) (s : State) : Out :=
  if data.length ≠ length.toNat then .fault (.illFormed "MCTP_WRITE") else
  .next (
    if !s.reaches .tool then s
    else if !reqOk off.toNat length.toNat then s.respond 0x0A05 []
    else if !((reqWords off.toNat length.toNat).all s.toolWrites) then s.respond 0x0A04 []
    else (s.respond 0 []).writeWords off.toNat data)

/-- MCTP_RESET. -/
def execMctpReset (off : Word) (s : State) : Out :=
  .next (
    if !s.reaches .tool then s
    else if off.toNat = resetKey then (s.respond 0 []).moduleReset 0
    else s.respond 0x0A05 [])

/-- MCTP_STATE. -/
def execMctpState (s : State) : Out :=
  .next (if s.reaches .tool then s.respond 0 (toBytes 4 (s.regRead 4 0x1000)) else s)

end Sys2Proof.Machine
end

