-- ==== Sys2Proof/Machine/Clock.lean ====
section
/-!
DEFINITION. What a nanosecond without a command does: the clocks of the module move.
-/

namespace Sys2Proof.Machine

open Sys2Proof

/-- A port cycle counter runs at 1 GHz from its port's reset (R368). -/
def State.portTick (s : State) (p : Nat) : State :=
  let h := s.port p
  match h.mode with
  | .noDie | .inReset => s
  | _ => s.setPort p { h with cycles := h.cycles + 1 }

/-- Powered time (R466). -/
def State.lifeTick (s : State) : State :=
  let n := s.module.lifeNs + 1
  if n = 1000000000 then
    { s with module := { s.module with lifeNs := 0, lifeSeconds := s.module.lifeSeconds + 1 } }
  else { s with module := { s.module with lifeNs := n } }

/-- The time a playout port has spent in run-out (R420). -/
def State.runOutTick (s : State) (p : Nat) : State :=
  let q := s.po p
  if q.mode = .runOut then s.setPo p { q with runOutNs := q.runOutNs + 1 } else s

/-- Whether something waits for the end of an activation (R488). -/
def State.held (s : State) : Bool :=
  s.fw.heldSubst.isSome || s.fw.heldWipe || (List.range 75).any fun r => !(s.stack r).repairsDue.isEmpty

/-- One nanosecond passes with no command waiting. The heat sheet runs in GO, and stops while an activation is under way
(R485). -/
def State.tick (s : State) : State :=
  let t := iter 2 (fun p u => u.runOutTick p) (iter 4 (fun p u => u.portTick p) s.lifeTick.idleCounters.attestTick)
  let t := if t.module.phase = .go ∧ t.activationDue = false then t.schedTick else t
  if t.held then t.resumeHeld else t

end Sys2Proof.Machine
end

