-- ==== Sys2Proof/Machine/Pooling.lean ====
section
/-!
DEFINITION. POOL (R230): windowed pooling over the taps of a window record, its input staged as for a kernel (R220 to R223).
-/

namespace Sys2Proof.Machine

open Sys2Proof

/-- A window and its input extents at issue. -/
structure PoolAt where
  w : Nat
  fmt : Nat
  inD : Nat
  inH : Nat
  inW : Nat
  rows : Nat
  deriving DecidableEq, Repr

def PoolAt.od (p : PoolAt) : Nat := winOD p.w p.inD
def PoolAt.oh (p : PoolAt) : Nat := winOH p.w p.inH
def PoolAt.ow (p : PoolAt) : Nat := winOW p.w p.inW

/-- The rows of a rank: the first and one above the last (R148). -/
def PoolAt.range (p : PoolAt) (rank : Nat) : Nat × Nat := (p.rows * rank / 75, p.rows * (rank + 1) / 75)

/-- The output positions that exist. -/
def PoolAt.positions (p : PoolAt) : Nat := p.od * p.oh * p.ow

/-- The input stripe of a rank (R220). -/
def PoolAt.stripe (p : PoolAt) (rank : Nat) : Nat × Nat :=
  slicesFor p.w p.inD p.inH p.inW (p.range rank).1 (min p.positions (p.range rank).2)

/-- Positions of one input slice. -/
def PoolAt.slicePos (p : PoolAt) : Nat := if winAxisH p.w then p.inD * p.inW else p.inH * p.inW

/-- Staged byte address of channel c of an input position (R221). -/
def PoolAt.stagedAt (p : PoolAt) (rank d h w c : Nat) : Nat :=
  let (sl, pos) := if winAxisH p.w then (h, d * p.inW + w) else (d, h * p.inW + w)
  winLine p.w * 128 + (sl - (p.stripe rank).1) * sliceBytes p.w p.fmt p.inD p.inH p.inW +
    (pos * winCin p.w + c) * winElem p.fmt

/-- Where a tap of output position g lies: an input position, or none outside the image (R216). -/
def PoolAt.tap (p : PoolAt) (g t : Nat) : Option (Nat × Nat × Nat) :=
  let x := p.w
  if p.positions ≤ g then none else
  let fd := t / (winFH x * winFW x)
  let fh := t % (winFH x * winFW x) / winFW x
  let fw := t % winFW x
  let (pd, ph, pw) :=
    if winAxisH x then (g / p.ow % p.od, g / (p.ow * p.od), g % p.ow) else (g / (p.ow * p.oh), g / p.ow % p.oh, g % p.ow)
  let d : Int := (pd * winSD x + fd * winDD x : Nat) - (winPDlo x : Int)
  let h : Int := (ph * winSH x + fh * winDH x : Nat) - (winPHlo x : Int)
  let w : Int := (pw * winSW x + fw * winDW x : Nat) - (winPWlo x : Int)
  if d < 0 ∨ (p.inD : Int) ≤ d ∨ h < 0 ∨ (p.inH : Int) ≤ h ∨ w < 0 ∨ (p.inW : Int) ≤ w then none
  else some (d.toNat, h.toNat, w.toNat)

def PoolAt.taps (p : PoolAt) : Nat := winFD p.w * winFH p.w * winFW p.w

/-- The reduction of a position's tap values; the pad value stands for a tap outside the image (Table 8.3). -/
def poolReduce (mode : Nat) (pad : Num) (taps : List (Option Num)) : Nat × Nat :=
  let inside := taps.filterMap id
  let all := taps.map fun t => t.getD pad
  let avg := fun (l : List Num) =>
    let z := treeSum (fun _ => .rne) 20 (l.map code32) 1
    let y := toF32 .rne ((ofF32 z.1).div (Num.ofNat' l.length))
    (y.1, z.2 ||| y.2)
  if mode = 0 then (if inside.isEmpty then toF32 .rne pad else toF32 .rne (numAt inside (maxPos inside)))
  else if mode = 1 then (if inside.isEmpty then toF32 .rne pad else avg inside)
  else if mode = 2 then avg all
  else treeSum (fun _ => .rne) 20 (all.map code32) 1

/-- A row of POOL: one output position. -/
def poolRow (p : PoolAt) : RowFn := fun s seed x rank row =>
  let taps := (List.range p.taps).map (p.tap row)
  let pad := elemVal p.fmt (if fmtBits p.fmt = 8 then winPad p.w % 256 else winPad p.w)
  let e := winElem p.fmt
  let reads := taps.filterMap fun t => t.map fun q => (rank, p.stagedAt rank q.1 q.2.1 q.2.2 0, winCin p.w * e)
  outRow x row reads (egLen x) fun c =>
    let z := poolReduce (egTwo x) pad (taps.map fun t => t.map fun q =>
      elemVal p.fmt (s.infNat rank (p.stagedAt rank q.1 q.2.1 q.2.2 c) e))
    let y := egConv seed x row c (ofF32 z.1)
    (y.1, z.2 ||| y.2)

/-- The kernel record under which POOL's input is staged: its window, its format, its command and its producer. -/
def PoolAt.source (p : PoolAt) (id : CmdId) (producer : Option Kernel) : Kernel :=
  let word := 2 * 2 ^ 60 + 2 ^ 51 * p.fmt
  ⟨id, ⟨1, [word], [], 0, [], [], p.w, 0⟩, [word], none, false, p.positions, 0, 0, 1, p.inD, p.inH, p.inW,
    producer.map Kernel.cmd, false, 0, [], [], []⟩

/-- Whether a rank's stripe exceeds the staging area (R223). -/
def PoolAt.over (p : PoolAt) : Bool :=
  (List.range 75).any fun r => stripeOver p.w p.fmt p.inD p.inH p.inW ((p.stripe r).2 - (p.stripe r).1)

/-- The checks that a kernel's load would make of POOL's window record with its engine record, in order; 0 where all pass
(R213, R218, R223, R230). The record comes with the command (the log's entry 30). -/
def State.poolLoadStatus (s : State) (cx : Nat) (x : Line) (p : PoolAt) : Nat :=
  let w := p.w
  let out := ((s.engineExtents x (egMaxRows x) 0).map Extent.area)
  let most : PoolAt := { p with inD := winMaxD w, inH := winMaxH w, inW := winMaxW w, rows := egMaxRows x }
  if winBad w p.fmt || winS2c w != 1 || winC2s w != 1 then 0x0160
  else if egLen x ≠ winCin w then 0x0251
  else if most.over || out.any fun o => latticeMeet (stageLattice w) o then 0x0163
  else if !s.latticeOk cx true (stageLattice w) then 0x0142
  else 0

/-- The status of POOL's window at the issued extents; 0 where it passes (R223, R227). -/
def poolIssueStatus (p : PoolAt) (id : CmdId) (q : Option Kernel) : Nat :=
  let w := p.w
  if winMaxD w < p.inD ∨ winMaxH w < p.inH ∨ winMaxW w < p.inW then 0x0165
  else if p.over then 0x0166
  else if winChained w && producerBad q (p.source id q) then 0x0164
  else if winChained w && stageOnProducer w q then 0x0163
  else 0

/-- One slice of a rank's stripe staged. -/
def poolStage (p : PoolAt) (k : Kernel) (acc : State × Nat) (q : Nat × Nat) : State × Nat :=
  if acc.2 ≠ 0 then acc else
  let s := acc.1
  match s.sliceSource k q.2 with
  | (0, l) =>
    let t := s.stageSlice k q.1 q.2
      (winLine p.w * 128 + (q.2 - (p.stripe q.1).1) * sliceBytes p.w p.fmt p.inD p.inH p.inW) l
    (t.addWrap (siteBase (t.siteAt q.1) + 0x700) (if l.isEmpty then 0 else 1), 0)
  | (st, _) => (s, st)

/-- POOL's work: stage every rank's stripe, then run its rows. -/
def poolWork (w : Nat) (s : State) (id : CmdId) (c : Cmd) : State :=
  let x := c.ext
  let src := fun (k : Nat) => s.shape id.cx k
  let p : PoolAt := ⟨w, egFmtA x, src (winSrcD w), src (winSrcH w), src (winSrcW w), src (egRows x)⟩
  let producer := s.kernelBefore id.cx none
  if s.poolLoadStatus id.cx x p ≠ 0 then s.finish id (s.poolLoadStatus id.cx x p) 0
  else if egMaxRows x < p.rows then s.finish id 0x0257 0
  else if poolIssueStatus p id producer ≠ 0 then s.finish id (poolIssueStatus p id producer) 0
  else
    let slices := (List.range 75).flatMap fun r =>
      (List.range ((p.stripe r).2 - (p.stripe r).1)).map fun i => (r, (p.stripe r).1 + i)
    match slices.foldl (poolStage p (p.source id producer)) (s.windowStart p.stripe, 0) with
    | (t, 0) => t.runCount id c (poolRow p) p.rows
    | (t, st) =>
      ((rowParts p.rows).foldl (fun u q => u.infHavoc q.1 (egAtOut x q.2) (egLen x * fmtBytes (egFmtOut x))) t).finish id st 0

/-- The working-tier source of POOL's window, for pins (R188). -/
def poolPins (w cx : Nat) (s : State) (_ : Cmd) : List Nat :=
  if winChained w then [] else
  s.pinsOf cx [(winVa w, winMaxD w * winMaxH w * winMaxW w * winPosBytes w)]

/-- POOL. -/
def execPool (cx : Fin 16) (window : Line) (s : State) : Out :=
  .next (s.issueHead cx 0 (wantEngine 0x210) (poolPins window.toNat cx) fun t id c =>
    if opNamed (egOp c.ext) then poolWork window.toNat t id c
    else t.finish id (if opKnown (egOp c.ext) then 0x0256 else 0x0250) 0)

end Sys2Proof.Machine
end

