-- ==== Sys2Proof/Machine/Hurdle.lean ====
section
/-!
DEFINITION. The hurdle at which a kernel, an engine command and an attention command end (R138, R148, R208).
-/

namespace Sys2Proof.Machine

open Sys2Proof

/-- Whether a rank's part of a kernel is done: its counter is exhausted, its retry list and claim table hold nothing, and
every stage C sum of its range has been written (R138). -/
def State.rankDone (s : State) (i : Nat) (k : Kernel) (rank : Nat) : Bool :=
  let l := s.lap rank i
  let (a, b) := k.range rank
  decide (l.stop ≤ l.next) && l.retry.isEmpty && l.held.isEmpty &&
    (!k.split || (List.range (b - a)).all fun j => k.summed.contains (a + j))

/-- The command whose hurdle a rank arrives at: the first of the command ring, or the chained one behind it. -/
def State.hurdleCmd (s : State) (cx : Nat) (chained : Bool) : Option (CmdId × Cmd) :=
  let c := if chained then (s.ring cx 0).cmds[1]? else (s.ring cx 0).cmds[0]?
  c.map fun c => (⟨cx, 0, c.index⟩, c)

/-- Whether a rank may arrive at a command's hurdle. -/
def State.mayArrive (s : State) (id : CmdId) (c : Cmd) (rank : Nat) : Bool :=
  match s.kernelOf id with
  | some (i, k) => !k.cancelled && s.rankDone i k rank
  | none => if c.kind = 4 then s.attnRankDone id c rank else c.kind == 3 && c.worked

/-- HURDLE_ARRIVAL: a field arrives; when all 75 have, the command completes, a kernel with the status it has earned. -/
def execHurdleArrival (cx : Fin 16) (chained : Bool) (rank : Fin 75) (s : State) : Out :=
  .next (
    match s.hurdleCmd cx chained with
    | none => s
    | some (id, c) =>
      if !c.issued || c.finished || c.arrived.contains rank.val || !s.mayArrive id c rank then s else
      let t := s.modCmd id fun d => { d with arrived := sput d.arrived rank.val }
      if c.arrived.length + 1 < 75 then t else
      match s.kernelOf id with
      | some (i, k) => t.endKernel i k k.status
      | none =>
        let t := if c.kind = 4 then t.closeAttention id c else t
        if t.writesDue id then t.modCmd id fun d => { d with worked := true } else t.finish id c.status c.result)

end Sys2Proof.Machine
end

