-- ==== Sys2Proof/Machine/Special.lean ====
section
/-!
DEFINITION. The special-function engine: library routines and package micro-programs element by element (R162 to R167,
R520), ROW_STATS (R168) and ROW_LSE.
-/

namespace Sys2Proof.Machine

open Sys2Proof

/-! ### Library routines (R164, R166, R520) -/

/-- A row of a library routine: the routine named by the op, on each element. -/
def routineRow : RowFn := fun s seed x rank row =>
  let a := s.rowA x rank row
  outRow x row [readA x rank row] (egLen x) fun e =>
    let z := libRoutine s.alv (egOp x) (code32 (numAt a e))
    let y := egConv seed x row e (ofF32 z.1)
    (y.1, z.2 ||| y.2)

/-- EXP. -/
def execExp (cx : Fin 16) (s : State) : Out := .next (s.engineRun cx 0x100 routineRow)
/-- EXP2. -/
def execExp2 (cx : Fin 16) (s : State) : Out := .next (s.engineRun cx 0x101 routineRow)
/-- LOG. -/
def execLog (cx : Fin 16) (s : State) : Out := .next (s.engineRun cx 0x102 routineRow)
/-- LOG2. -/
def execLog2 (cx : Fin 16) (s : State) : Out := .next (s.engineRun cx 0x103 routineRow)
/-- RECIPROCAL. -/
def execReciprocal (cx : Fin 16) (s : State) : Out := .next (s.engineRun cx 0x104 routineRow)
/-- RSQRT. -/
def execRsqrt (cx : Fin 16) (s : State) : Out := .next (s.engineRun cx 0x105 routineRow)
/-- SQRT. -/
def execSqrt (cx : Fin 16) (s : State) : Out := .next (s.engineRun cx 0x106 routineRow)
/-- TANH. -/
def execTanh (cx : Fin 16) (s : State) : Out := .next (s.engineRun cx 0x107 routineRow)
/-- SIGMOID. -/
def execSigmoid (cx : Fin 16) (s : State) : Out := .next (s.engineRun cx 0x108 routineRow)
/-- ERF. -/
def execErf (cx : Fin 16) (s : State) : Out := .next (s.engineRun cx 0x109 routineRow)
/-- GELU_TANH. -/
def execGeluTanh (cx : Fin 16) (s : State) : Out := .next (s.engineRun cx 0x10A routineRow)
/-- GELU_ERF. -/
def execGeluErf (cx : Fin 16) (s : State) : Out := .next (s.engineRun cx 0x10B routineRow)
/-- SILU. -/
def execSilu (cx : Fin 16) (s : State) : Out := .next (s.engineRun cx 0x10C routineRow)
/-- SOFTPLUS. -/
def execSoftplus (cx : Fin 16) (s : State) : Out := .next (s.engineRun cx 0x10D routineRow)
/-- SIN. -/
def execSin (cx : Fin 16) (s : State) : Out := .next (s.engineRun cx 0x10E routineRow)
/-- COS. -/
def execCos (cx : Fin 16) (s : State) : Out := .next (s.engineRun cx 0x10F routineRow)

/-! ### Micro-programs (R162) -/

/-- The working registers of a micro-program, and the sign its last binade split took off. -/
structure Micro where
  w : List Num
  neg : Bool
  deriving DecidableEq, Repr

/-- A value as a triple for a free step, and back. -/
def numTriple : Num → Bool × Nat × Int
  | .fin n m e => (n, m, e)
  | .inf n => (n, 1, 4096)
  | .nan => (false, 1, 8192)

/-- A free step's value, in FP32X. -/
def ofTriple (t : Bool × Nat × Int) : Num := roundX (.fin t.1 t.2.1 t.2.2)

/-- The integer nearest a finite value, ties to even. -/
def nearest : Num → Num
  | .fin n m e =>
    if 0 ≤ e then .fin n m e else
    let d := (-e).toNat
    let t := m >>> d
    let rem := m % 2 ^ d
    .fin n (if 2 ^ d < 2 * rem ∨ (2 * rem = 2 ^ d ∧ t % 2 = 1) then t + 1 else t) 0
  | v => v

/-- The integer a finite value holds, its fraction dropped. -/
def floorInt : Num → Int
  | .fin n m e =>
    let t : Nat := if 0 ≤ e then m <<< e.toNat else m >>> (-e).toNat
    if n then -(t : Int) else t
  | _ => 0

/-- |v| = 2^n · m with m in [1, 2): n and m. Zero, an infinity and NaN have no such split. -/
def splitBinade : Num → Num × Num
  | .fin _ m e => if m = 0 then (Num.zero, Num.zero) else (Num.ofInt (magExp m e), .fin false m (-(Nat.log2 m : Int)))
  | v => (v, v.abs)

/-- The top five fraction bits of m in [1, 2). -/
def topBits (v : Num) : Nat :=
  match v with
  | .fin _ m _ => if m = 0 then 0 else (m <<< 5 >>> Nat.log2 m) % 32
  | _ => 0

/-- A table entry as a value. -/
def microT (t : List Nat) (i : Nat) : Num := ofF32 (nth t (i % 1024) 0)

/-- One micro-program step. TABLE's coefficient j of segment s stands at T[imm + 8s + j] (DEDUCED, the log's entry 72). -/
def microStep1 (t : List Nat) (s : Micro) (w : Nat) : Micro :=
  let k := bits w 31 28
  let v := bits w 27 24
  let d := bits w 23 20
  let a := numAt s.w (bits w 19 16)
  let b := numAt s.w (bits w 15 12)
  let i := bits w 11 0
  let put := fun (x : Num) => { s with w := s.w.set d x }
  let put2 := fun (x y : Num) => { s with w := (s.w.set d x).set ((d + 1) % 16) y }
  if k = 1 then
    (if v = 0 then { put2 (splitBinade a).1 (splitBinade a).2 with neg := a.isNeg }
    else if v = 1 then
      let n := roundX (nearest (a.mul (microT t i)))
      put2 n (subX (subX a (mulX n (microT t (i + 1)))) (mulX n (microT t (i + 2))))
    else put (clampBetween a (microT t i) (microT t (i + 1))))
  else if k = 2 then
    let seg := if v = 0 then topBits a else (floorInt a % 32).toNat
    { s with w := s.w.take 8 ++ (List.range 8).map fun j => microT t (i + 8 * seg + j) }
  else if k = 3 then
    put ((List.range i).foldl (fun p j => fmaX p a (numAt s.w (9 + j))) (numAt s.w 8))
  else if k = 4 then
    (if v = 0 then put (roundX (a.scale (floorInt b)))
    else if v = 1 then put (fmaX b (microT t i) a)
    else if v = 2 then put (if s.neg then a.neg else a)
    else if v = 3 then put (subX (.fin false 1 0) a)
    else put (if a.isNan || b.isNan then .nan else ofTriple (Config.microStep v (numTriple a) (numTriple b))))
  else if k = 5 then
    put (if v = 0 then addX a b else if v = 1 then subX a b else if v = 2 then mulX a b else fmaX a b (numAt s.w 15))
  else
    let x := numAt s.w 0
    put (if !x.isNan && !(x.lt (microT t i)) && !((microT t (i + 1)).lt x) then a else b)

/-- A micro-program on one FP32 argument: its result and flags. -/
def microRun (prog : List Byte) (arg : Nat) : Nat × Nat :=
  let x := ofF32 arg
  if x.isNan then (nan32, flNan) else
  let t := numbers 4 1024 (prog.drop 128)
  let e := ((microSteps prog).getD []).foldl (microStep1 t) ⟨x :: List.replicate 15 Num.zero, false⟩
  toF32 .rne (numAt e.w 0)

/-- A row of MICRO. -/
def microRow : RowFn := fun s seed x rank row =>
  let prog := (s.microProg (egRoutine x - 0x4000)).getD []
  let a := s.rowA x rank row
  outRow x row [readA x rank row] (egLen x) fun e =>
    let z := microRun prog (code32 (numAt a e))
    let y := egConv seed x row e (ofF32 z.1)
    (y.1, z.2 ||| y.2)

/-- MICRO. -/
def execMicro (cx : Fin 16) (s : State) : Out := .next (s.engineRun cx 0x182 microRow)

/-! ### ROW_STATS (R168) and ROW_LSE -/

/-- A Welford state: count, mean, and the sum of squared differences. -/
abbrev Welford := Nat × Num × Num

/-- One element more. -/
def welfordUpdate (w : Welford) (x : Num) : Welford :=
  let n := w.1 + 1
  let mean := w.2.1
  let delta := subX x mean
  let nm := clampBetween (addX mean (divX delta (Num.ofNat' n))) mean x
  (n, nm, addX w.2.2 (mulX delta (subX x nm)))

/-- Two states merged, the first before the second in the row. -/
def welfordMerge (a b : Welford) : Welford :=
  let n := a.1 + b.1
  let d := subX b.2.1 a.2.1
  let mean := clampBetween (addX a.2.1 (mulX d (divX (Num.ofNat' b.1) (Num.ofNat' n)))) a.2.1 b.2.1
  (n, mean, addX (addX a.2.2 b.2.2) (mulX (mulX d d) (divX (Num.ofNat' (a.1 * b.1)) (Num.ofNat' n))))

/-- The chunks of 32 positions of a row, as Welford states. -/
def welfordChunks (l : List Num) : List Welford :=
  (List.range (cdiv l.length 32)).map fun j =>
    ((l.drop (32 * j)).take 32).foldl welfordUpdate (0, Num.zero, Num.zero)

/-- mean, variance and rstd of a row of finite values, each with its flags. -/
def rowStats (alv eps : Nat) (unbiased : Bool) (l : List Num) : (Nat × Nat) × (Nat × Nat) × (Nat × Nat) :=
  let (n, mean, m2) := treeMerge (0, Num.zero, Num.zero) welfordMerge 64 (welfordChunks l)
  let var := divX m2 (Num.ofNat' (if unbiased && decide (1 < n) then n - 1 else n))
  let e := toF32 .rne (addX var (ofF32 eps))
  let r := libRoutine alv 0x105 e.1
  (toF32 .rne mean, toF32 .rne var, (r.1, e.2 ||| r.2))

/-- A row of ROW_STATS: mean to OUT, variance to B, rstd to C. A row of no elements has no stated statistics. -/
def statsRow : RowFn := fun s _ x rank row =>
  let a := s.rowA x rank row
  let writes := fun (p q r : List Byte) => [(egAtOut x row, p), (egAtB x row, q), (egAtC x row, r)]
  if a.isEmpty then
    { EngRow.plain [] (writes (freeBytes s.draws 4) (freeBytes (s.draws + 4) 4) (freeBytes (s.draws + 8) 4)) 0 with drawn := 12 }
  else
    let z := if a.any fun v => v.isNan || v.isInf then ((nan32, flNan), (nan32, flNan), (nan32, flNan))
      else rowStats s.alv (egParA x) (egBit17 x) a
    EngRow.plain [readA x rank row] (writes (toBytes 4 z.1.1) (toBytes 4 z.2.1.1) (toBytes 4 z.2.2.1))
      (z.1.2 ||| z.2.1.2 ||| z.2.2.2)

/-- ROW_STATS. -/
def execRowStats (cx : Fin 16) (s : State) : Out := .next (s.engineRun cx 0x180 statsRow)

/-- A row of ROW_LSE: a NaN gives NaN (R152); the value itself is free, the same for the same row and ALV. -/
def lseRow : RowFn := fun s seed x rank row =>
  let a := s.rowA x rank row
  outRow x row [readA x rank row] 1 fun _ =>
    let z := if a.any Num.isNan then nan32 else (Config.rowLse s.alv (a.map code32)).toNat
    egConv seed x row 0 (ofF32 z)

/-- ROW_LSE. -/
def execRowLse (cx : Fin 16) (s : State) : Out := .next (s.engineRun cx 0x181 lseRow)

end Sys2Proof.Machine
end

