-- ==== Sys2Proof/Machine/Dispatch.lean ====
section
/-!
DEFINITION. One arm per command: each is one direct call of that command's meaning.
-/

namespace Sys2Proof.Machine

open Sys2Proof

/-- The effect of a command on everything but the queue. -/
def exec (i : Instr) (s : State) : Host.Outcome State Fault Refusal :=
  match i with
  | .claim site core => Sys2Proof.Machine.execClaim site core s
  | .loadA site core => Sys2Proof.Machine.execLoadA site core s
  | .loadB site core => Sys2Proof.Machine.execLoadB site core s
  | .mma site core => Sys2Proof.Machine.execMma site core s
  | .changeover site core opdWait => Sys2Proof.Machine.execChangeover site core opdWait s
  | .bankToggle site core lost => Sys2Proof.Machine.execBankToggle site core lost s
  | .drain site core => Sys2Proof.Machine.execDrain site core s
  | .shadowCopy site core => Sys2Proof.Machine.execShadowCopy site core s
  | .fence site core => Sys2Proof.Machine.execFence site core s
  | .tileComplete site core => Sys2Proof.Machine.execTileComplete site core s
  | .coreIdle site core => Sys2Proof.Machine.execCoreIdle site core s
  | .stepBoundary cx ring => Sys2Proof.Machine.execStepBoundary cx ring s
  | .grMonClear w v => Sys2Proof.Machine.execGrMonClear w v s
  | .grFirstWrite w v => Sys2Proof.Machine.execGrFirstWrite w v s
  | .grUntrackedWrite w v => Sys2Proof.Machine.execGrUntrackedWrite w v s
  | .runKernel cx => Sys2Proof.Machine.execRunKernel cx s
  | .loadKernel cx => Sys2Proof.Machine.execLoadKernel cx s
  | .lapCounterFreed cx => Sys2Proof.Machine.execLapCounterFreed cx s
  | .stageCSum counter tile => Sys2Proof.Machine.execStageCSum counter tile s
  | .hurdleArrival cx chained rank => Sys2Proof.Machine.execHurdleArrival cx chained rank s
  | .coreLost site core => Sys2Proof.Machine.execCoreLost site core s
  | .coreHangTimeout site core => Sys2Proof.Machine.execCoreHangTimeout site core s
  | .coreEnterService site core => Sys2Proof.Machine.execCoreEnterService site core s
  | .dispatchDecode cx ring line ext failed mismatches => Sys2Proof.Machine.execDispatchDecode cx ring line ext failed mismatches s
  | .chain cx => Sys2Proof.Machine.execChain cx s
  | .add cx => Sys2Proof.Machine.execAdd cx s
  | .sub cx => Sys2Proof.Machine.execSub cx s
  | .mul cx => Sys2Proof.Machine.execMul cx s
  | .fma cx => Sys2Proof.Machine.execFma cx s
  | .max cx => Sys2Proof.Machine.execMax cx s
  | .min cx => Sys2Proof.Machine.execMin cx s
  | .convert cx => Sys2Proof.Machine.execConvert cx s
  | .quantMx cx => Sys2Proof.Machine.execQuantMx cx s
  | .dequantMx cx => Sys2Proof.Machine.execDequantMx cx s
  | .treeSum cx => Sys2Proof.Machine.execTreeSum cx s
  | .rowSum cx => Sys2Proof.Machine.execRowSum cx s
  | .rowMax cx => Sys2Proof.Machine.execRowMax cx s
  | .argmax cx => Sys2Proof.Machine.execArgmax cx s
  | .softmaxMerge cx => Sys2Proof.Machine.execSoftmaxMerge cx s
  | .normApply cx => Sys2Proof.Machine.execNormApply cx s
  | .pool cx window => Sys2Proof.Machine.execPool cx window s
  | .exp cx => Sys2Proof.Machine.execExp cx s
  | .exp2 cx => Sys2Proof.Machine.execExp2 cx s
  | .log cx => Sys2Proof.Machine.execLog cx s
  | .log2 cx => Sys2Proof.Machine.execLog2 cx s
  | .reciprocal cx => Sys2Proof.Machine.execReciprocal cx s
  | .rsqrt cx => Sys2Proof.Machine.execRsqrt cx s
  | .sqrt cx => Sys2Proof.Machine.execSqrt cx s
  | .tanh cx => Sys2Proof.Machine.execTanh cx s
  | .sigmoid cx => Sys2Proof.Machine.execSigmoid cx s
  | .erf cx => Sys2Proof.Machine.execErf cx s
  | .geluTanh cx => Sys2Proof.Machine.execGeluTanh cx s
  | .geluErf cx => Sys2Proof.Machine.execGeluErf cx s
  | .silu cx => Sys2Proof.Machine.execSilu cx s
  | .softplus cx => Sys2Proof.Machine.execSoftplus cx s
  | .sin cx => Sys2Proof.Machine.execSin cx s
  | .cos cx => Sys2Proof.Machine.execCos cx s
  | .rowStats cx => Sys2Proof.Machine.execRowStats cx s
  | .rowLse cx => Sys2Proof.Machine.execRowLse cx s
  | .micro cx => Sys2Proof.Machine.execMicro cx s
  | .gather cx => Sys2Proof.Machine.execGather cx s
  | .scatter cx => Sys2Proof.Machine.execScatter cx s
  | .sort cx => Sys2Proof.Machine.execSort cx s
  | .topk cx => Sys2Proof.Machine.execTopk cx s
  | .segmentReduce cx => Sys2Proof.Machine.execSegmentReduce cx s
  | .setPad cx => Sys2Proof.Machine.execSetPad cx s
  | .adjExpand cx => Sys2Proof.Machine.execAdjExpand cx s
  | .egFirstWrite w site v => Sys2Proof.Machine.execEgFirstWrite w site v s
  | .egClear w site v => Sys2Proof.Machine.execEgClear w site v s
  | .attention cx => Sys2Proof.Machine.execAttention cx s
  | .spanForm cx claim span => Sys2Proof.Machine.execSpanForm cx claim span s
  | .spanMerge cx claim => Sys2Proof.Machine.execSpanMerge cx claim s
  | .sequenceEnable w seq v => Sys2Proof.Machine.execSequenceEnable w seq v s
  | .sequenceDisable w seq v => Sys2Proof.Machine.execSequenceDisable w seq v s
  | .share cx => Sys2Proof.Machine.execShare cx s
  | .pageFree cx => Sys2Proof.Machine.execPageFree cx s
  | .shareCountUpdate rank => Sys2Proof.Machine.execShareCountUpdate rank s
  | .cowCopyDone seq page => Sys2Proof.Machine.execCowCopyDone seq page s
  | .reclaim seq => Sys2Proof.Machine.execReclaim seq s
  | .sliceStage counter rank bandWait => Sys2Proof.Machine.execSliceStage counter rank bandWait s
  | .gatedClaim site core gateWait => Sys2Proof.Machine.execGatedClaim site core gateWait s
  | .chainedKernelIssue cx => Sys2Proof.Machine.execChainedKernelIssue cx s
  | .fill cx ring => Sys2Proof.Machine.execFill cx ring s
  | .spill cx ring => Sys2Proof.Machine.execSpill cx ring s
  | .copy cx ring => Sys2Proof.Machine.execCopy cx ring s
  | .map cx ring => Sys2Proof.Machine.execMap cx ring s
  | .unmap cx ring => Sys2Proof.Machine.execUnmap cx ring s
  | .unmapFree cx => Sys2Proof.Machine.execUnmapFree cx s
  | .wmap cx ring => Sys2Proof.Machine.execWmap cx ring s
  | .wload cx ring => Sys2Proof.Machine.execWload cx ring s
  | .heatDecay => Sys2Proof.Machine.execHeatDecay s
  | .channelRetrainStart rank chan scheduled => Sys2Proof.Machine.execChannelRetrainStart rank chan scheduled s
  | .channelRetrainEnd rank chan passed holdNs => Sys2Proof.Machine.execChannelRetrainEnd rank chan passed holdNs s
  | .channelRepairStart rank chan => Sys2Proof.Machine.execChannelRepairStart rank chan s
  | .channelRepairEnd rank chan => Sys2Proof.Machine.execChannelRepairEnd rank chan s
  | .patrolScrub rank granule symbols => Sys2Proof.Machine.execPatrolScrub rank granule symbols s
  | .stackThermalSample rank celsius => Sys2Proof.Machine.execStackThermalSample rank celsius s
  | .stackCriticalTimeout rank => Sys2Proof.Machine.execStackCriticalTimeout rank s
  | .trErrClear w v => Sys2Proof.Machine.execTrErrClear w v s
  | .linkTrainingStart link => Sys2Proof.Machine.execLinkTrainingStart link s
  | .linkTrainingEnd link txMask rxMask peer peerLink => Sys2Proof.Machine.execLinkTrainingEnd link txMask rxMask peer peerLink s
  | .linkTrainingRetry link => Sys2Proof.Machine.execLinkTrainingRetry link s
  | .laneSpare link lane why => Sys2Proof.Machine.execLaneSpare link lane why s
  | .linkRetrain link => Sys2Proof.Machine.execLinkRetrain link s
  | .batonSlot link => Sys2Proof.Machine.execBatonSlot link s
  | .replayTimeout link => Sys2Proof.Machine.execReplayTimeout link s
  | .idleBaton link baton => Sys2Proof.Machine.execIdleBaton link baton s
  | .nakBaton link baton => Sys2Proof.Machine.execNakBaton link baton s
  | .bulkBaton link baton => Sys2Proof.Machine.execBulkBaton link baton s
  | .doneBaton link baton => Sys2Proof.Machine.execDoneBaton link baton s
  | .unreachBaton link baton => Sys2Proof.Machine.execUnreachBaton link baton s
  | .reduceBaton link baton => Sys2Proof.Machine.execReduceBaton link baton s
  | .bcastBaton link baton => Sys2Proof.Machine.execBcastBaton link baton s
  | .sprintBaton link baton => Sys2Proof.Machine.execSprintBaton link baton s
  | .mgmtBaton link baton => Sys2Proof.Machine.execMgmtBaton link baton s
  | .adderSum cx group grants localNs childNs => Sys2Proof.Machine.execAdderSum cx group grants localNs childNs s
  | .lkErrClear w link v => Sys2Proof.Machine.execLkErrClear w link v s
  | .form cx => Sys2Proof.Machine.execForm cx s
  | .reform cx => Sys2Proof.Machine.execReform cx s
  | .groupFree cx => Sys2Proof.Machine.execGroupFree cx s
  | .reduce cx => Sys2Proof.Machine.execReduce cx s
  | .bcast cx => Sys2Proof.Machine.execBcast cx s
  | .sprint cx => Sys2Proof.Machine.execSprint cx s
  | .collectiveTimeout cx group => Sys2Proof.Machine.execCollectiveTimeout cx group s
  | .abClear w site v => Sys2Proof.Machine.execAbClear w site v s
  | .streamBind w st v => Sys2Proof.Machine.execStreamBind w st v s
  | .stArm w st v => Sys2Proof.Machine.execStArm w st v s
  | .doorbellSnoop cx => Sys2Proof.Machine.execDoorbellSnoop cx s
  | .doorbellPoll cx => Sys2Proof.Machine.execDoorbellPoll cx s
  | .doorbellReadDone cx line failed => Sys2Proof.Machine.execDoorbellReadDone cx line failed s
  | .nop cx ring => Sys2Proof.Machine.execNop cx ring s
  | .semSignal cx ring => Sys2Proof.Machine.execSemSignal cx ring s
  | .semWait cx ring => Sys2Proof.Machine.execSemWait cx ring s
  | .hostCopy cx data failed => Sys2Proof.Machine.execHostCopy cx data failed s
  | .bulkSend cx => Sys2Proof.Machine.execBulkSend cx s
  | .admitPackage cx data failed => Sys2Proof.Machine.execAdmit cx data failed s
  | .evict cx => Sys2Proof.Machine.execEvict cx s
  | .completionAck cx ring => Sys2Proof.Machine.execCompletionAck cx ring s
  | .irqCoalesceTimer cx ring => Sys2Proof.Machine.execIrqCoalesceTimer cx ring s
  | .hostPortDown port => Sys2Proof.Machine.execHostPortDown port s
  | .hostPortDegraded port => Sys2Proof.Machine.execHostPortDegraded port s
  | .hpCxMaskWrite w port v => Sys2Proof.Machine.execHpCxMaskWrite w port v s
  | .cxStart w cx line failed => Sys2Proof.Machine.execCxStart w cx line failed s
  | .cxStop w cx => Sys2Proof.Machine.execCxStop w cx s
  | .legEdge => Sys2Proof.Machine.execLegEdge s
  | .sharedQuantumExpiry => Sys2Proof.Machine.execSharedQuantumExpiry s
  | .contextSwitch overrunNs lateNs => Sys2Proof.Machine.execContextSwitch overrunNs lateNs s
  | .durationExpiry cx ring => Sys2Proof.Machine.execDurationExpiry cx ring s
  | .teardown cx => Sys2Proof.Machine.execTeardown cx s
  | .scClear w v => Sys2Proof.Machine.execScClear w v s
  | .streamOpen cx => Sys2Proof.Machine.execStreamOpen cx s
  | .streamClose cx => Sys2Proof.Machine.execStreamClose cx s
  | .encode cx => Sys2Proof.Machine.execEncode cx s
  | .decode cx => Sys2Proof.Machine.execDecode cx s
  | .playStart cx => Sys2Proof.Machine.execPlayStart cx s
  | .playStop cx => Sys2Proof.Machine.execPlayStop cx s
  | .playQueue cx => Sys2Proof.Machine.execPlayQueue cx s
  | .slate cx => Sys2Proof.Machine.execSlate cx s
  | .mediaFrameStart eng => Sys2Proof.Machine.execMediaFrameStart eng s
  | .mediaFrameEnd eng => Sys2Proof.Machine.execMediaFrameEnd eng s
  | .playoutFrameTake po => Sys2Proof.Machine.execPlayoutFrameTake po s
  | .playoutPacketSend po => Sys2Proof.Machine.execPlayoutPacketSend po s
  | .ptpSync po offset settled newMaster => Sys2Proof.Machine.execPtpSync po offset settled newMaster s
  | .ptpSyncLoss po => Sys2Proof.Machine.execPtpSyncLoss po s
  | .runOutLimit po => Sys2Proof.Machine.execRunOutLimit po s
  | .poClear w po v => Sys2Proof.Machine.execPoClear w po v s
  | .csOpen w cset g => Sys2Proof.Machine.execCsOpen w cset g s
  | .csClose w cset g => Sys2Proof.Machine.execCsClose w cset g s
  | .registerWrite w off size data => Sys2Proof.Machine.execRegisterWrite w off size data s
  | .registerReadLo port off => Sys2Proof.Machine.execRegisterReadLo port off s
  | .glCfgErrWrite w v => Sys2Proof.Machine.execGlCfgErrWrite w v s
  | .glOwnerEventWrite w v => Sys2Proof.Machine.execGlOwnerEventWrite w v s
  | .fdStallClear w site v => Sys2Proof.Machine.execFdStallClear w site v s
  | .parityFault place => Sys2Proof.Machine.execParityFault place s
  | .coreRetest site core passed => Sys2Proof.Machine.execCoreRetest site core passed s
  | .fieldLost site => Sys2Proof.Machine.execFieldLost site s
  | .heartbeatMiss unit => Sys2Proof.Machine.execHeartbeatMiss unit s
  | .mgcWatchdog => Sys2Proof.Machine.execMgcWatchdog s
  | .plannedSubstStart w v => Sys2Proof.Machine.execPlannedSubstStart w v s
  | .substDrain => Sys2Proof.Machine.execSubstDrain s
  | .unplannedSubstDone => Sys2Proof.Machine.execUnplannedSubstDone s
  | .weightRebuildDone rank => Sys2Proof.Machine.execWeightRebuildDone rank s
  | .leaseMark w => Sys2Proof.Machine.execLeaseMark w s
  | .checkpointRequest w => Sys2Proof.Machine.execCheckpointRequest w s
  | .grade w => Sys2Proof.Machine.execGrade w s
  | .usageRecord milliKwh hotSeconds inlet => Sys2Proof.Machine.execUsageRecord milliKwh hotSeconds inlet s
  | .tmDataWrite w v => Sys2Proof.Machine.execTmDataWrite w v s
  | .tmCommit w v => Sys2Proof.Machine.execTmCommit w v s
  | .fuOpen w v => Sys2Proof.Machine.execFuOpen w v s
  | .fuPut w v => Sys2Proof.Machine.execFuPut w v s
  | .fuDiscard w v => Sys2Proof.Machine.execFuDiscard w v s
  | .fuArm w v => Sys2Proof.Machine.execFuArm w v s
  | .armLoadDone => Sys2Proof.Machine.execArmLoadDone s
  | .quiescentActivation passed => Sys2Proof.Machine.execQuiescentActivation passed s
  | .fuInstallCert w v => Sys2Proof.Machine.execFuInstallCert w v s
  | .fuCommit w v => Sys2Proof.Machine.execFuCommit w v s
  | .attestationRequest w v => Sys2Proof.Machine.execAttestationRequest w v s
  | .wipeStart w v => Sys2Proof.Machine.execWipeStart w v s
  | .resetAssert => Sys2Proof.Machine.execResetAssert s
  | .resetRelease straps => Sys2Proof.Machine.execResetRelease straps s
  | .setComplete badSites => Sys2Proof.Machine.execSetComplete badSites s
  | .setLimitExpiry => Sys2Proof.Machine.execSetLimitExpiry s
  | .setStatusAlternate => Sys2Proof.Machine.execSetStatusAlternate s
  | .busVoltageEvent centivolts microseconds => Sys2Proof.Machine.execBusVoltageEvent centivolts microseconds s
  | .powerFault rail site => Sys2Proof.Machine.execPowerFault rail site s
  | .fieldThermalSample site celsius => Sys2Proof.Machine.execFieldThermalSample site celsius s
  | .refClockLoss => Sys2Proof.Machine.execRefClockLoss s
  | .moReset w v => Sys2Proof.Machine.execMoReset w v s
  | .moClear w v => Sys2Proof.Machine.execMoClear w v s
  | .mctpRead off length => Sys2Proof.Machine.execMctpRead off length s
  | .mctpWrite off length data => Sys2Proof.Machine.execMctpWrite off length data s
  | .mctpReset off => Sys2Proof.Machine.execMctpReset off s
  | .mctpState => Sys2Proof.Machine.execMctpState s
  | .i3cAddressAssign setdasa addr => Sys2Proof.Machine.execI3cAddressAssign setdasa addr s
  | .mgcHeartbeatToggle => Sys2Proof.Machine.execMgcHeartbeatToggle s
  | .batonCrcFailure link baton => Sys2Proof.Machine.execBatonCrcFailure link baton s
  | .malformedBaton link baton => Sys2Proof.Machine.execMalformedBaton link baton s
  | .rlEventsRead w => Sys2Proof.Machine.execRlEventsRead w s
  | .coolantInletSample logicIn stackIn logicOut stackOut => Sys2Proof.Machine.execCoolantInletSample logicIn stackIn logicOut stackOut s
  | .busInRange => Sys2Proof.Machine.execBusInRange s
  | .hostPortUp port => Sys2Proof.Machine.execHostPortUp port s

end Sys2Proof.Machine
end

