-- ==== Sys2Proof/Safety.lean ====
section
/-!
DEFINITION. What counts as a safe run: it never stops.
-/

namespace Sys2Proof.Safety

open Sys2Proof

/-- A step answers a next state. -/
def Runs (s : Machine.State) : Prop := ∃ t, Machine.step s = .next t

/-- The parts of the state that a command may write, the queue apart. -/
inductive Part where
  | module
  | sites
  | tiles
  | package
  | rails
  | memory
  | tiers
  | kv
  | attn
  | links
  | hosts
  | sched
  | media
  | regs
  | rel
  | fw
  | draws
  deriving DecidableEq, Repr

/-- Two states are the same in a part. -/
def sameIn (p : Part) (s t : Machine.State) : Prop :=
  match p with
  | .module => t.module = s.module
  | .sites => t.sites = s.sites
  | .tiles => t.tiles = s.tiles
  | .package => t.package = s.package
  | .rails => t.rails = s.rails
  | .memory => t.memory = s.memory
  | .tiers => t.tiers = s.tiers
  | .kv => t.kv = s.kv
  | .attn => t.attn = s.attn
  | .links => t.links = s.links
  | .hosts => t.hosts = s.hosts
  | .sched => t.sched = s.sched
  | .media => t.media = s.media
  | .regs => t.regs = s.regs
  | .rel => t.rel = s.rel
  | .fw => t.fw = s.fw
  | .draws => t.draws = s.draws

/-- The writer reaches the registers and may write `v` at `off` (R428, R510). -/
def permits (s : Machine.State) (w : Writer) (off v : Nat) : Bool :=
  s.reaches w && match w with
    | .tool => s.toolWrites off
    | .port _ => match Machine.regInfo off with
      | some i => s.mayWrite w i.right v
      | none => false

/-- The register write that a command row stands for: who writes what at which offset (Table 16.1); none for a row that is
no register write, and for a row of SQ_CTRL whose value has the other row's enable bit. -/
def writtenAt : Instr → Option (Writer × Nat × Nat)
  | .grMonClear w v => some (w, 0x2020, v.toNat)
  | .grFirstWrite w v => some (w, 0x200C, v.toNat)
  | .grUntrackedWrite w v => some (w, 0x2024, v.toNat)
  | .trErrClear w v => some (w, 0x3040, v.toNat)
  | .egFirstWrite w site v => some (w, Machine.siteBase site + 0x60C, v.toNat)
  | .egClear w site v => some (w, Machine.siteBase site + 0x610, v.toNat)
  | .abClear w site v => some (w, Machine.siteBase site + 0x488, v.toNat)
  | .fdStallClear w site v => some (w, Machine.siteBase site + 0x14, v.toNat)
  | .lkErrClear w link v => some (w, Machine.linkBase link + 0x34, v.toNat)
  | .streamBind w st v => some (w, Machine.streamBase st, v.toNat)
  | .stArm w st v => some (w, Machine.streamBase st + 0x1C, v.toNat)
  | .hpCxMaskWrite w port v => some (w, 0x300104 + 0x100 * port, v.toNat)
  | .cxStart w cx _ _ => some (w, Machine.ctxBase cx, 1)
  | .cxStop w cx => some (w, Machine.ctxBase cx, 2)
  | .scClear w v => some (w, 0x400020, v.toNat)
  | .poClear w po v => some (w, Machine.poBase po + 0x60, v.toNat)
  | .csOpen w n g => some (w, 0x10000 + 16 * n, g.toNat)
  | .csClose w n g => some (w, 0x10004 + 16 * n, g.toNat)
  | .glCfgErrWrite w v => some (w, 0x40, v.toNat)
  | .glOwnerEventWrite w v => some (w, 0x48, v.toNat)
  | .plannedSubstStart w v => some (w, 0x600104, v.toNat)
  | .leaseMark w => some (w, 0x700120, 1)
  | .checkpointRequest w => some (w, 0x700120, 2)
  | .grade w => some (w, 0x700120, 4)
  | .tmDataWrite w v => some (w, 0x600008, v.toNat)
  | .tmCommit w v => some (w, 0x60000C, v.toNat)
  | .fuOpen w v | .fuPut w v | .fuDiscard w v | .fuArm w v | .fuInstallCert w v | .fuCommit w v =>
    some (w, 0x780000, v.toNat)
  | .attestationRequest w v => some (w, 0x780120, v.toNat)
  | .wipeStart w v => some (w, 0x780200, v.toNat)
  | .moReset w v => some (w, 0x102C, v.toNat)
  | .moClear w v => some (w, 0x1028, v.toNat)
  | .sequenceEnable w seq v => if Machine.flag v 0 then some (w, Machine.seqBase seq, v.toNat) else none
  | .sequenceDisable w seq v => if Machine.flag v 0 then none else some (w, Machine.seqBase seq, v.toNat)
  | _ => none

/-- `t` is `s` but for the register keys of `e`, which hold the values beside them. -/
def regsBecome (e : List (Nat × Nat)) (s t : Machine.State) : Prop :=
  (∀ k, t.reg k = (e.lookup k).getD (s.reg k)) ∧ t = { s with regs := { s.regs with vals := t.regs.vals } }

/-- The head of a ring is the command `c`, which `want` accepts and which may issue now: the ring rules of R357 and R436
hold, its context holds the fields (R378), a package is resident or not needed (R367), and no rank is missing that it
needs (R452). -/
def issues (s : Machine.State) (cx r : Nat) (want : Machine.Cmd → Bool) (pins : List Nat) (c : Machine.Cmd) : Bool :=
  s.headCmd cx r want == some c && s.ringRules cx r c pins && s.served cx r &&
    (s.package.isSome || Machine.kindFree c.kind) && (s.rel.missing.isEmpty || !Machine.kindFields c.kind)

/-- The head of a ring is the command `c`, and its work runs on `b`: it issues now, or it has issued, its work has waited and
is tried again. -/
def works (s b : Machine.State) (cx r : Nat) (want : Machine.Cmd → Bool) (pins : List Nat) (c : Machine.Cmd) : Prop :=
  (issues s cx r want pins c = true ∧ b = s.markIssued ⟨cx, r, c.index⟩ pins) ∨
  (s.headCmd cx r (fun d => want d && d.issued) = some c ∧ c.finished = false ∧ c.worked = false ∧ s.served cx r = true ∧ b = s)

/-- A command as its issue leaves it (R80, R188, R368). -/
def stamped (s : Machine.State) (cx : Nat) (pins : List Nat) (c : Machine.Cmd) : Machine.Cmd :=
  { c with
    issued := true
    waitsCounter := false
    issueStamp := (s.port (s.ctx cx).port).cycles
    seed := s.cxSeed cx
    pins := (s.pinAll pins).2 }

/-- The vector-engine commands: the command of a context, its operation number, what a row of it does (Table 6.3). -/
def vectorRows : List ((Fin 16 → Instr) × Nat × Machine.RowFn) :=
  [(.chain, 0x200, Machine.chainRow),
   (.add, 0x201, Machine.binRow (Machine.f32Add .rne)),
   (.sub, 0x202, Machine.binRow Machine.f32Sub),
   (.mul, 0x203, Machine.binRow Machine.f32Mul),
   (.fma, 0x204, Machine.fmaRow),
   (.max, 0x205, Machine.binRow Machine.max32),
   (.min, 0x206, Machine.binRow Machine.min32),
   (.convert, 0x207, Machine.convertRow),
   (.quantMx, 0x208, Machine.quantRow),
   (.dequantMx, 0x209, Machine.dequantRow),
   (.treeSum, 0x20A, Machine.treeRow),
   (.rowSum, 0x20B, Machine.sumRow),
   (.rowMax, 0x20C, Machine.maxRow),
   (.argmax, 0x20D, Machine.argmaxRow),
   (.softmaxMerge, 0x20E, Machine.softmaxRow),
   (.normApply, 0x20F, Machine.normRow)]

/-- The commands of the library routines (Table 6.6). -/
def routineRows : List ((Fin 16 → Instr) × Nat × Machine.RowFn) :=
  [(.exp, 0x100, Machine.routineRow),
   (.exp2, 0x101, Machine.routineRow),
   (.log, 0x102, Machine.routineRow),
   (.log2, 0x103, Machine.routineRow),
   (.reciprocal, 0x104, Machine.routineRow),
   (.rsqrt, 0x105, Machine.routineRow),
   (.sqrt, 0x106, Machine.routineRow),
   (.tanh, 0x107, Machine.routineRow),
   (.sigmoid, 0x108, Machine.routineRow),
   (.erf, 0x109, Machine.routineRow),
   (.geluTanh, 0x10A, Machine.routineRow),
   (.geluErf, 0x10B, Machine.routineRow),
   (.silu, 0x10C, Machine.routineRow),
   (.softplus, 0x10D, Machine.routineRow),
   (.sin, 0x10E, Machine.routineRow),
   (.cos, 0x10F, Machine.routineRow)]

/-- The other special-function commands and the gather-scatter commands (Tables 6.8 and 6.9). -/
def otherRows : List ((Fin 16 → Instr) × Nat × Machine.RowFn) :=
  [(.rowStats, 0x180, Machine.statsRow),
   (.rowLse, 0x181, Machine.lseRow),
   (.micro, 0x182, Machine.microRow),
   (.gather, 0x280, Machine.gatherRow),
   (.scatter, 0x281, Machine.scatterRow),
   (.sort, 0x282, Machine.sortRow),
   (.topk, 0x283, Machine.topkRow),
   (.segmentReduce, 0x284, Machine.segmentRow),
   (.setPad, 0x285, Machine.setPadRow),
   (.adjExpand, 0x286, Machine.adjRow)]

/-- The engine commands but for POOL. -/
def engineRows : List ((Fin 16 → Instr) × Nat × Machine.RowFn) := vectorRows ++ routineRows ++ otherRows

/-- The parts of the state that a command may write (its chapter); every other part it leaves as it is. -/
def touches : Instr → List Part
  | .claim _ _ | .abClear _ _ _ => [.tiles, .regs]
  | .loadA _ _ | .loadB _ _ | .mma _ _ => [.module, .tiles, .kv, .hosts, .regs, .rel, .fw]
  | .changeover _ _ _ | .bankToggle _ _ _ => [.sites, .tiles]
  | .drain _ _ | .stageCSum _ _ => [.module, .tiles, .memory, .kv, .links, .hosts, .regs, .rel, .fw]
  | .shadowCopy _ _ | .fence _ _ | .coreIdle _ _ => [.tiles]
  | .tileComplete _ _ => [.tiles, .links, .hosts, .regs]
  | .stepBoundary _ _ => [.module, .rails, .kv, .hosts, .regs, .rel, .fw]
  | .grMonClear _ _ => [.rails, .regs]
  | .grFirstWrite _ _ | .grUntrackedWrite _ _ | .egFirstWrite _ _ _ | .egClear _ _ _ | .lkErrClear _ _ _
  | .poClear _ _ _ | .csOpen _ _ _ | .glCfgErrWrite _ _ | .glOwnerEventWrite _ _ => [.regs]
  | .runKernel _ | .lapCounterFreed _ | .chainedKernelIssue _
      => [.module, .tiles, .rails, .kv, .hosts, .regs, .rel, .fw]
  | .loadKernel _ | .share _ | .pageFree _ | .unmap _ _ | .wmap _ _
      => [.module, .tiers, .kv, .hosts, .regs, .rel, .fw]
  | .hurdleArrival _ _ _ => [.module, .tiles, .kv, .attn, .hosts, .regs, .rel, .fw]
  | .coreLost _ _ | .coreHangTimeout _ _ => [.tiles, .attn, .hosts, .regs, .rel, .fw]
  | .coreEnterService _ _ | .coreRetest _ _ _ => [.tiles, .hosts, .regs, .rel, .fw]
  | .dispatchDecode _ _ _ _ _ _ => [.module, .tiers, .kv, .hosts, .sched, .regs, .rel, .fw]
  | .chain _ | .add _ | .sub _ | .mul _ | .fma _ | .max _ | .min _ | .convert _ | .quantMx _ | .dequantMx _
  | .treeSum _ | .rowSum _ | .rowMax _ | .argmax _ | .softmaxMerge _ | .normApply _ | .exp _ | .exp2 _ | .log _
  | .log2 _ | .reciprocal _ | .rsqrt _ | .sqrt _ | .tanh _ | .sigmoid _ | .erf _ | .geluTanh _ | .geluErf _ | .silu _
  | .softplus _ | .sin _ | .cos _ | .rowStats _ | .rowLse _ | .micro _ | .gather _ | .scatter _ | .sort _ | .topk _
  | .segmentReduce _ | .setPad _ | .adjExpand _ => [.module, .rails, .memory, .kv, .hosts, .regs, .rel, .fw, .draws]
  | .pool _ _ => [.module, .rails, .memory, .tiers, .kv, .hosts, .regs, .rel, .fw, .draws]
  | .attention _ => [.module, .tiles, .memory, .kv, .attn, .hosts, .regs, .rel, .fw, .draws]
  | .spanForm _ _ _ | .spanMerge _ _
      => [.module, .tiles, .memory, .tiers, .kv, .attn, .hosts, .regs, .rel, .fw, .draws]
  | .sequenceEnable _ _ _ => [.kv, .regs]
  | .sequenceDisable _ _ _ | .reclaim _ => [.tiers, .kv, .regs]
  | .shareCountUpdate _ => [.kv]
  | .cowCopyDone _ _ | .linkTrainingStart _ | .linkTrainingEnd _ _ _ _ _ | .linkRetrain _ | .batonSlot _
  | .idleBaton _ _ | .nakBaton _ _ | .bulkBaton _ _ | .doneBaton _ _ | .unreachBaton _ _ | .reduceBaton _ _
  | .mgmtBaton _ _ | .adderSum _ _ _ _ _ | .reduce _ | .bcast _ | .sprint _ | .collectiveTimeout _ _
  | .malformedBaton _ _ => [.module, .memory, .tiers, .kv, .links, .hosts, .regs, .rel, .fw, .draws]
  | .sliceStage _ _ _ => [.module, .tiles, .memory, .tiers, .kv, .hosts, .regs, .rel, .fw, .draws]
  | .gatedClaim _ _ _ => [.tiles, .links, .regs]
  | .fill _ _ | .spill _ _ | .copy _ _ | .wload _ _ | .hostCopy _ _ _
      => [.module, .memory, .tiers, .kv, .hosts, .regs, .rel, .fw, .draws]
  | .map _ _ => [.module, .memory, .tiers, .kv, .hosts, .regs, .rel, .fw]
  | .unmapFree _ | .heatDecay | .weightRebuildDone _ => [.tiers]
  | .channelRetrainStart _ _ _ => [.tiers, .sched]
  | .channelRetrainEnd _ _ _ _ | .fieldLost _ | .substDrain
      => [.module, .sites, .tiles, .memory, .tiers, .kv, .attn, .links, .hosts, .regs, .rel, .fw, .draws]
  | .channelRepairStart _ _ => [.tiers, .hosts, .regs, .rel, .fw]
  | .channelRepairEnd _ _ | .patrolScrub _ _ _ => [.memory, .tiers, .hosts, .regs, .rel, .fw]
  | .stackThermalSample _ _
      => [.module, .tiles, .memory, .tiers, .kv, .attn, .links, .hosts, .sched, .media, .regs, .rel, .fw, .draws]
  | .stackCriticalTimeout _
      => [.module, .tiles, .memory, .tiers, .kv, .attn, .links, .hosts, .regs, .rel, .fw, .draws]
  | .trErrClear _ _ => [.tiers, .regs]
  | .linkTrainingRetry _ | .replayTimeout _ => [.links]
  | .laneSpare _ _ _ => [.links, .hosts, .regs, .rel, .fw]
  | .bcastBaton _ _ | .sprintBaton _ _
      => [.module, .tiles, .memory, .tiers, .kv, .links, .hosts, .regs, .rel, .fw, .draws]
  | .form _ | .reform _ | .groupFree _ => [.module, .kv, .links, .hosts, .regs, .rel, .fw]
  | .streamBind _ _ _ | .stArm _ _ _ | .batonCrcFailure _ _ => [.links, .regs]
  | .doorbellSnoop _ | .doorbellPoll _ | .irqCoalesceTimer _ _ => [.hosts]
  | .doorbellReadDone _ _ _ | .hostPortDegraded _ | .hpCxMaskWrite _ _ _ | .cxStart _ _ _ _ | .cxStop _ _
      => [.hosts, .regs]
  | .nop _ _ | .semSignal _ _ | .semWait _ _ => [.module, .kv, .hosts, .regs, .rel, .fw]
  | .bulkSend _ => [.module, .tiers, .kv, .links, .hosts, .regs, .rel, .fw]
  | .admitPackage _ _ _ => [.module, .package, .rails, .memory, .tiers, .kv, .hosts, .regs, .rel, .fw]
  | .evict _ => [.module, .tiles, .package, .tiers, .kv, .hosts, .regs, .rel, .fw]
  | .completionAck _ _ => [.hosts, .sched]
  | .hostPortDown _ | .playStop _ | .playoutFrameTake _ | .playoutPacketSend _ | .runOutLimit _ | .csClose _ _ _
      => [.module, .memory, .tiers, .kv, .links, .hosts, .media, .regs, .rel, .fw, .draws]
  | .legEdge | .busVoltageEvent _ _
      => [.module, .memory, .tiers, .kv, .links, .hosts, .sched, .media, .regs, .rel, .fw, .draws]
  | .sharedQuantumExpiry => [.sched]
  | .contextSwitch _ _ => [.tiles, .attn, .hosts, .sched, .regs]
  | .durationExpiry _ _
      => [.module, .tiles, .memory, .tiers, .kv, .attn, .links, .hosts, .media, .regs, .rel, .fw, .draws]
  | .teardown _
      => [.module, .tiles, .rails, .memory, .tiers, .kv, .attn, .links, .hosts, .sched, .media, .regs, .rel, .fw, .draws]
  | .scClear _ _ => [.sched, .regs]
  | .streamOpen _ | .mediaFrameEnd _ => [.module, .memory, .tiers, .kv, .hosts, .media, .regs, .rel, .fw, .draws]
  | .streamClose _ | .encode _ | .decode _ | .playStart _ | .playQueue _
      => [.module, .kv, .hosts, .media, .regs, .rel, .fw]
  | .slate _ => [.module, .tiers, .kv, .hosts, .media, .regs, .rel, .fw]
  | .mediaFrameStart _ | .ptpSyncLoss _ => [.media]
  | .ptpSync _ _ _ _ => [.media, .regs]
  | .registerWrite _ _ _ _ | .mctpWrite _ _ _
      => [.module, .sites, .tiles, .package, .rails, .memory, .tiers, .kv, .attn, .links, .hosts, .sched, .media, .regs, .rel, .fw, .draws]
  | .registerReadLo _ _ | .mctpRead _ _ => [.module, .regs, .draws]
  | .fdStallClear _ _ _ => [.sites, .regs]
  | .parityFault _ | .heartbeatMiss _
      => [.module, .sites, .tiles, .memory, .tiers, .kv, .attn, .links, .hosts, .media, .regs, .rel, .fw, .draws]
  | .mgcWatchdog => [.module, .hosts, .regs, .rel, .fw, .draws]
  | .plannedSubstStart _ _ => [.regs, .rel, .fw]
  | .unplannedSubstDone => [.module, .sites, .tiles, .tiers, .attn, .hosts, .regs, .rel, .fw]
  | .leaseMark _ | .checkpointRequest _ | .grade _ | .usageRecord _ _ _ | .tmCommit _ _ | .fuInstallCert _ _
  | .attestationRequest _ _ => [.hosts, .regs, .rel, .fw]
  | .tmDataWrite _ _ => [.regs, .rel]
  | .fuOpen _ _ | .fuPut _ _ | .fuDiscard _ _ | .armLoadDone | .fuCommit _ _ => [.hosts, .regs, .fw]
  | .fuArm _ _ | .resetAssert | .refClockLoss | .moReset _ _ | .mctpReset _
      => [.module, .sites, .tiles, .package, .rails, .memory, .tiers, .kv, .attn, .links, .hosts, .sched, .media, .regs, .rel, .fw]
  | .quiescentActivation _ | .wipeStart _ _
      => [.tiles, .memory, .tiers, .kv, .attn, .links, .hosts, .media, .regs, .rel, .fw]
  | .resetRelease _ | .busInRange => [.module, .hosts, .regs, .rel, .fw]
  | .setComplete _ => [.module, .sites, .tiles, .tiers, .attn, .hosts, .regs, .rel, .fw, .draws]
  | .setLimitExpiry => [.module, .fw]
  | .setStatusAlternate | .mctpState | .i3cAddressAssign _ _ | .mgcHeartbeatToggle | .rlEventsRead _ => [.module]
  | .powerFault _ _ | .fieldThermalSample _ _
      => [.module, .sites, .tiles, .memory, .tiers, .kv, .attn, .links, .hosts, .sched, .media, .regs, .rel, .fw, .draws]
  | .moClear _ _ => [.regs, .draws]
  | .coolantInletSample _ _ _ _ => [.module, .regs]
  | .hostPortUp _ => [.hosts, .regs, .draws]

end Sys2Proof.Safety
end

