-- ==== Sys2Proof/WellFormed.lean ====
section
/-!
DEFINITION. Which commands are commands of the table at all: the operands fit the row. A word from a link belongs to
exactly one of the baton rows (R274, R275).
-/

namespace Sys2Proof

open Sys2Proof.Machine

/-- The operands fit the command's row. -/
def Instr.wf : Instr → Bool
  | .idleBaton _ b => batonIs 0 b
  | .nakBaton _ b => batonIs 1 b
  | .bulkBaton _ b => batonIs 2 b
  | .doneBaton _ b => batonIs 3 b
  | .unreachBaton _ b => batonIs 4 b
  | .reduceBaton _ b => batonIs 5 b
  | .bcastBaton _ b => batonIs 6 b
  | .sprintBaton _ b => batonIs 7 b
  | .mgmtBaton _ b => batonIs 8 b
  | .batonCrcFailure _ b => !crcGood b.baton
  | .malformedBaton _ b => crcGood b && malformed b
  | .mctpWrite _ length data => data.length == length.toNat
  | _ => true

end Sys2Proof
end

