-- ==== Sys2Proof/Certificates/Slice0/Obligations.lean ====
section
/-!
DEFINITION. The statements for the provers, family by family.
-/

open Sys2Proof Sys2Proof.Machine Sys2Proof.Safety

/-! ### The queue and the machine as a whole -/

/-- A step takes the command at the front of the queue and runs it on the state with the queue's rest. -/
def Obligations.FrontCommandRuns : Prop :=
  ∀ (s : State) (c : Instr) (rest : List Instr), s.pending = c :: rest → step s = exec c { s with pending := rest }

/-- On an empty queue a nanosecond passes (the model's choice, the log's entry 3): a step answers the state one tick on;
outside GO with nothing held back, the counters of cancelled kernels are free in it, the powered time is one nanosecond on, and
the ports' cycle counters and the run-out clocks are all that has moved beside them. -/
def Obligations.IdleStepTicks : Prop :=
  ∀ s : State, s.pending = [] →
    step s = .next s.tick ∧
    (s.module.phase ≠ .go → s.held = false →
      s.tick = iter 2 (fun p u => u.runOutTick p) (iter 4 (fun p u => u.portTick p) s.lifeTick.idleCounters) ∧
      1000000000 * s.tick.module.lifeSeconds + s.tick.module.lifeNs =
        1000000000 * s.module.lifeSeconds + s.module.lifeNs +  1)

/-- Every command whose operands fit its row answers a next state, in every state; one whose operands do not fit it stops
as ill formed, under its own name. -/
def Obligations.WellFormedCommandsRun : Prop :=
  ∀ (i : Instr) (s : State), (i.wf = true → ∃ t, exec i s = .next t) ∧ (i.wf = false → ∃ m, exec i s = .fault (.illFormed m))

/-- The machine right after reset: the bytes are in canonical form, no command waits, no package is resident, every register
holds its reset value, MO_STATE reads GO and RL_CTRL 1, contexts and groups are FREE, sequences and links disabled, playout
ports IDLE, no substitution is in progress, F00 to F74 hold ranks 0 to 74 and F75 to F80 are spare, core sites 0 to 3999 serve
and the rest are spare (the phase GO and the site and core places are the model's choice, the log's entry 20). -/
def Obligations.ResetLeavesTheModuleIdle : Prop :=
  State.reset.memory.wf ∧ State.reset.pending = [] ∧ State.reset.package = none ∧
  (∀ k, State.reset.reg k = regReset (k % 67108864)) ∧ State.reset.regRead 0 0x1000 = 2 ∧
  State.reset.reg 0x600100 = 1 ∧
  (∀ cx, (State.reset.ctx cx).mode = .free) ∧ (∀ cx n, (State.reset.group cx n).mode = .free) ∧
  (∀ q, (State.reset.seq q).enabled = false) ∧ (∀ n, (State.reset.link n).mode = .disabled) ∧
  (∀ p, (State.reset.po p).mode = .idle) ∧ State.reset.rel.subst = .idle ∧
  (∀ n, (State.reset.site n).use = if n < 75 then .active else .spare) ∧
  (∀ n, n < 75 → (State.reset.site n).rank = some n) ∧
  (∀ n k, k < 4096 → n < 81 → (State.reset.coreSite n k).use = if k < 4000 then .inService else .spare)

/-- Every step keeps the canonical form of the bytes: rising addresses, and no entry equal to what an unlisted one reads. -/
def Obligations.BytesStayCanonical : Prop :=
  ∀ s t : State, s.memory.wf → step s = .next t → t.memory.wf

/-- No step takes a record out of a logbook, puts one before another or changes one: a step that stays in the same book only
appends; and none lowers the fuse count or changes the serial number and the number of host ports. -/
def Obligations.LogbookAndFusesOnlyGrow : Prop :=
  ∀ s t : State, step s = .next t →
    s.rel.bookNumber ≤ t.rel.bookNumber ∧ (t.rel.bookNumber = s.rel.bookNumber → s.rel.book <+: t.rel.book) ∧
    s.fw.fuses ≤ t.fw.fuses ∧ t.fw.serial = s.fw.serial ∧ t.module.dies = s.module.dies

/-- A command writes no part of the state but those that `touches` lists for it; every other part is unchanged, all bytes of
memory among them where it lists no memory; and no command adds to the queue or takes from it (it is first in, first out). -/
def Obligations.CommandsStayInTheirParts : Prop :=
  ∀ (i : Instr) (s t : State), exec i s = .next t → t.pending = s.pending ∧ ∀ p, p ∉ touches i → sameIn p s t

/-! ### Registers (chapter 16) -/

/-- A register write without the right to it changes nothing but the writing port's GL_CFG_ERR and GL_CFG_ADDR; the service
tool's changes nothing, and so does any write of a party that does not reach the registers. -/
def Obligations.RightlessWritesAreIgnored : Prop :=
  (∀ (i : Instr) (s : State) (w : Writer) (off v : Nat), writtenAt i = some (w, off, v) →
    permits s w off v = false →
    exec i s = .next (if s.reaches w then s.cfgErr w 3 off else s) ∧ (∀ t, exec i s = .next t → ∀ k,
      (∀ p, w ≠ .port p ∨ (k ≠ portKey p 0x40 ∧ k ≠ portKey p 0x44)) → t.reg k = s.reg k)) ∧
  (∀ (s : State) (w : Writer) (off : BitVec 26) (d : DWord) (i : RegInfo), regInfo off.toNat = some i → i.acc ≠ .ro →
    off.toNat % 4 = 0 → permits s w off.toNat (d.toNat % 2 ^ 32) = false →
    exec (.registerWrite w off 4 d) s = .next (if s.reaches w then s.cfgErr w 3 off.toNat else s))

/-- Clear registers, first traces and event bits: a permitted write of 1 to a clear register
clears the counters its table names and nothing else; 0xFFFF sets a first-trace field to 0xFFFF, any other value leaves it;
event bits written with 1 clear, and with the last bit of GL_CFG_ERR GL_CFG_ADDR returns to zero. -/
def Obligations.ClearWritesClear : Prop :=
  (∀ (s : State) (w : Writer) (v : Word),
     (permits s w 0x2020 v.toNat →
       exec (.grMonClear w v) s = .next (if flag v 0 then { s with rails := { s.rails with moduleMon := [] } } else s)) ∧
     (permits s w 0x2024 v.toNat → ∃ t, exec (.grUntrackedWrite w v) s = .next t ∧
       regsBecome (if flag v 0 then [(0x2024, 0)] else []) s t) ∧
     (permits s w 0x3040 v.toNat → ∃ t, exec (.trErrClear w v) s = .next t ∧
       t = { s with tiers := { s.tiers with stackTab := t.tiers.stackTab } } ∧
       ∀ r, t.stack r = if flag v 0 ∧ r < 75 then
         { s.stack r with corrected := 0, uncorrected := 0, recon := 0, holdMax := 0 } else s.stack r) ∧
     (permits s w 0x400020 v.toNat → exec (.scClear w v) s =
       .next (if flag v 0 then { s with sched := { s.sched with overrun := [], late := [] } } else s)) ∧
     (∀ site : Fin 81, permits s w (siteBase site + 0x14) v.toNat → ∃ t, exec (.fdStallClear w site v) s = .next t ∧
       t = { s with sites := t.sites } ∧
       ∀ n, t.site n = if flag v 0 ∧ n = site.val then { s.site n with chgStall := 0, opdStall := 0 } else s.site n) ∧
     (∀ site : Fin 81, permits s w (siteBase site + 0x610) v.toNat → ∃ t, exec (.egClear w site v) s = .next t ∧
       regsBecome (if flag v 0 then
         [(siteBase site + 0x608, 0), (siteBase site + 0x604, 0), (siteBase site + 0x600, 0)] else []) s t) ∧
     (∀ link : Fin 36, permits s w (linkBase link + 0x34) v.toNat → ∃ t, exec (.lkErrClear w link v) s = .next t ∧
       regsBecome (if flag v 0 then [(linkBase link + 0x24, 0), (linkBase link + 0x20, 0), (linkBase link + 0x1C, 0),
         (linkBase link + 0x18, 0), (linkBase link + 0x14, 0)] else []) s t) ∧
     (∀ po : Fin 2, permits s w (poBase po + 0x60) v.toNat → ∃ t, exec (.poClear w po v) s = .next t ∧
       regsBecome (if flag v 0 then [(poBase po + 0x58, 0), (poBase po + 0x54, 0), (poBase po + 0x50, 0)] else []) s t)) ∧
  (∀ (s : State) (w : Writer) (v : Word),
     (permits s w 0x200C v.toNat → s.reg 0x200C < 2 ^ 32 → ∃ t, exec (.grFirstWrite w v) s = .next t ∧
       (∀ k, k ≠ 0x200C → t.reg k = s.reg k) ∧ t = { s with regs := { s.regs with vals := t.regs.vals } } ∧
       bits (t.reg 0x200C) 15 0 = (if fld v 15 0 = 0xFFFF then 0xFFFF else bits (s.reg 0x200C) 15 0) ∧
       bits (t.reg 0x200C) 31 16 = (if fld v 31 16 = 0xFFFF then 0xFFFF else bits (s.reg 0x200C) 31 16)) ∧
     (∀ site : Fin 81, permits s w (siteBase site + 0x60C) v.toNat → ∃ t, exec (.egFirstWrite w site v) s = .next t ∧
       regsBecome (if fld v 15 0 = 0xFFFF then [(siteBase site + 0x60C, 0xFFFF)] else []) s t)) ∧
  (∀ (s : State) (w : Writer) (v : Word),
     (permits s w 0x48 v.toNat → ∃ t, exec (.glOwnerEventWrite w v) s = .next t ∧
       regsBecome [(0x48, clearBits (s.reg 0x48) v.toNat)] s t) ∧
     (permits s w 0x40 v.toNat → ∃ t, exec (.glCfgErrWrite w v) s = .next t ∧
       regsBecome (if clearBits (s.reg (portKey (writerNo w) 0x40)) v.toNat = 0 then
           [(portKey (writerNo w) 0x44, 0), (portKey (writerNo w) 0x40, 0)]
         else [(portKey (writerNo w) 0x40, clearBits (s.reg (portKey (writerNo w) 0x40)) v.toNat)]) s t) ∧
     ∀ (old m n : Nat), old < 2 ^ 32 → n < 32 → bit (clearBits old m) n = (bit old n && !bit m n))

/-- REGISTER_WRITE of 32 bits at an aligned offset that has no row of its own, and of 64 bits: an undefined offset and a misaligned or odd-sized write set 0x0A05 alone; a read-only register ignores it; an RW
register takes the writable bits, clamped; a W1C register loses the bits written with 1; an RWI register takes a value
only while idle, else 0x0A02; an RWS register's value goes into the shadow while its set is OPEN, else 0x0A03. -/
def Obligations.RegisterWritesFollowAccessCodes : Prop :=
  ∀ (s : State) (w : Writer) (off : BitVec 26) (d : DWord),
    (s.reaches w → regInfo off.toNat = none → off.toNat % 4 = 0 → exec (.registerWrite w off 4 d) s = .next (s.cfgErr w 4 off.toNat)) ∧
    (∀ size : Nat, s.reaches w → ¬(size = 4 ∧ off.toNat % 4 = 0) → ¬(size = 8 ∧ off.toNat % 8 = 0) →
      exec (.registerWrite w off size d) s = .next (s.cfgErr w 4 off.toNat)) ∧
    (∀ i, regInfo off.toNat = some i → i.acc = .ro → off.toNat % 4 = 0 → exec (.registerWrite w off 4 d) s = .next s) ∧
    (∀ i, regInfo off.toNat = some i → off.toNat % 4 = 0 → off.toNat < 0x790000 →
      permits s w off.toNat (d.toNat % 2 ^ 32) →
      s.rowLow w off.toNat (BitVec.ofNat 32 (d.toNat % 2 ^ 32)) = none →
      s.rowMid w off.toNat (BitVec.ofNat 32 (d.toNat % 2 ^ 32)) = none →
      s.rowHigh w off.toNat (BitVec.ofNat 32 (d.toNat % 2 ^ 32)) = none →
      (i.acc = .rw → ∃ t, exec (.registerWrite w off 4 d) s = .next t ∧
        regsBecome [(if i.perPort then portKey (writerNo w) off.toNat else off.toNat,
          s.clampReg off.toNat (d.toNat % 2 ^ 32 &&& i.mask))] s t) ∧
      (i.acc = .w1c → ¬(0x310000 ≤ off.toNat ∧ off.toNat < 0x320000) → ∃ t, exec (.registerWrite w off 4 d) s = .next t ∧
        regsBecome [(off.toNat, clearBits (s.reg off.toNat) (d.toNat % 2 ^ 32 &&& i.mask))] s t) ∧
      (i.acc = .rwi → ¬(0x580000 ≤ off.toNat ∧ off.toNat < 0x582000) → ∃ t, exec (.registerWrite w off 4 d) s = .next t ∧
        (s.rwiIdle off.toNat = true → regsBecome [(off.toNat, s.clampReg off.toNat (d.toNat % 2 ^ 32 &&& i.mask))] s t) ∧
        (s.rwiIdle off.toNat = false → t = s.cfgErr w 1 off.toNat)) ∧
      (∀ n, i.acc = .rws n → ∃ t, exec (.registerWrite w off 4 d) s = .next t ∧
        ((s.cset n).mode = .opened → t = s.setCset n { s.cset n with
          shadow := ((s.cset n).shadow.filter fun e => e.1 != off.toNat) ++ [(off.toNat, d.toNat % 2 ^ 32 &&& i.mask)] }) ∧
        ((s.cset n).mode ≠ .opened → t = s.cfgErr w 2 off.toNat))) ∧
    (off.toNat % 8 = 0 → off.toNat + 4 < 2 ^ 26 → ∃ t, exec (.registerWrite w off 4 (d &&& 0xFFFFFFFF#64)) s = .next t ∧
      exec (.registerWrite w off 8 d) s = exec (.registerWrite w (off + 4#26) 4 (d >>> 32)) t)

/-- CS_OPEN and CS_CLOSE: a set opens under a generation that is not its last closed one, its shadow the
pending copy; it closes under the generation it was opened with, its values then wait for the commit point or meet it at once;
a close that does not fit puts the set in HOLD with 0x0A01 and raises owner event 7; a context's set takes effect whole,
clamped. -/
def Obligations.CommitSetsCommitWhole : Prop :=
  (∀ (s : State) (w : Writer) (n : Fin 320) (g : BitVec 16),
     (permits s w (0x10000 + 16 * n) g.toNat →
       exec (.csOpen w n g) s = .next (if g.toNat = (s.cset n).closeGen then s.cfgErr w 2 (0x10000 + 16 * n)
         else s.setCset n { s.cset n with openGen := g.toNat, mode := .opened, shadow := (s.cset n).pending.getD [] })) ∧
     (permits s w (0x10004 + 16 * n) g.toNat → ∃ t, exec (.csClose w n g) s = .next t ∧
       ((s.cset n).mode = .opened → g.toNat = (s.cset n).openGen → s.commitsNow n = false →
         t = s.setCset n { s.cset n with closeGen := g.toNat, mode := .closed, status := 0,
                                         pending := some (s.cset n).shadow, shadow := [], closer := writerNo w }) ∧
       (¬((s.cset n).mode = .opened ∧ g.toNat = (s.cset n).openGen) → n.val ≠ 4 → n.val ≠ 5 →
         t = ((s.setCset n { s.cset n with closeGen := g.toNat, mode := .hold, status := 0x0A01 }).cfgErr w 0
           (0x10004 + 16 * n)).ownerEvent 7))) ∧
  (∀ (s : State) (w : Writer) (n : Fin 320) (g : BitVec 16), 16 ≤ n.val → n.val < 32 →
     permits s w (0x10004 + 16 * n) g.toNat → (s.cset n).mode = .opened → g.toNat = (s.cset n).openGen →
     ((s.cset n).shadow.map Prod.fst).Nodup →
     (∀ e ∈ (s.cset n).shadow, 0x310000 ≤ e.1 ∧ e.1 < 0x320000) →
     ∃ t, exec (.csClose w n g) s = .next t ∧ (t.cset n).mode = .closed ∧ (t.cset n).pending = none ∧
       (∀ e ∈ (s.cset n).shadow, t.reg e.1 = s.clampReg e.1 e.2) ∧
       (∀ k, (∀ e ∈ (s.cset n).shadow, e.1 ≠ k) → t.reg k = s.reg k) ∧
       (∀ m, m ≠ n.val → t.cset m = s.cset m) ∧ sameIn .memory s t ∧ sameIn .hosts s t)

/-- REGISTER_READ_LO: a read of a register named _LO latches its _HI for the reading port, or uses up a value
latched for itself; a read of any other register, or by a port that does not reach the registers, latches nothing; a read of
a latched _HI answers the latched value and uses it up. -/
def Obligations.LowReadsLatchTheirHigh : Prop :=
  ∀ (s : State) (p : Fin 4) (off : BitVec 26),
    (s.reaches (.port p) → isLo off.toNat →
      exec (.registerReadLo p off) s = .next
        (match tget s.regs.latches (latchKey p off.toNat) none with
        | some _ => s.setLatch (latchKey p off.toNat) none
        | none => s.setLatch (latchKey p (off.toNat + 4)) (some (s.regRead p (off.toNat + 4))))) ∧
    (isLo off.toNat = false ∨ s.reaches (.port p) = false → exec (.registerReadLo p off) s = .next s) ∧
    (∀ v : Nat, tget s.regs.latches (latchKey p (off.toNat + 4)) none = some v → s.readWord p (off.toNat + 4) =
      (v, s.setLatch (latchKey p (off.toNat + 4)) none))

/-- The service tool's commands: a READ of the global block and the module registers, the trim, logbook and
update windows answers its words, a WRITE of registers that the tool may write writes them in ascending order, another is
0x0A04 and writes nothing, a request with a length or an offset outside R510 is 0x0A05; RESET with the key resets the
module, STATE answers MO_STATE. -/
def Obligations.ToolCommandsAnswer : Prop :=
  ∀ (s : State) (off : Word) (len : BitVec 16) (data : List Byte),
    (s.reaches .tool = false → exec (.mctpRead off len) s = .next s ∧ exec (.mctpReset off) s = .next s ∧
      exec .mctpState s = .next s ∧ (data.length = len.toNat → exec (.mctpWrite off len data) s = .next s)) ∧
    (s.reaches .tool →
    (reqOk off.toNat len.toNat → (reqWords off.toNat len.toNat).all toolReads →
      exec (.mctpRead off len) s =
        .next ((s.readWords (reqWords off.toNat len.toNat)).2.respond 0 (s.readWords (reqWords off.toNat len.toNat)).1)) ∧
    (reqOk off.toNat len.toNat = false → exec (.mctpRead off len) s = .next (s.respond 0x0A05 [])) ∧
    (data.length = len.toNat → reqOk off.toNat len.toNat → (reqWords off.toNat len.toNat).all s.toolWrites →
      exec (.mctpWrite off len data) s = .next ((List.range (data.length / 4)).foldl
        (fun t i => t.regWrite .tool (off.toNat + 4 * i) (wordAt data i)) (s.respond 0 []))) ∧
    (data.length = len.toNat → reqOk off.toNat len.toNat → (reqWords off.toNat len.toNat).all s.toolWrites = false →
      exec (.mctpWrite off len data) s = .next { s with module := { s.module with response := some (0x0A04, []) } }) ∧
    (off.toNat = 0x0D0DA5A5 → ∃ t, exec (.mctpReset off) s = .next t ∧ t.module.phase = .marks ∧
      t.module.bootCount = s.module.bootCount + 1 ∧ t.memory = State.reset.memory ∧ t.regs = State.reset.regs) ∧
    (off.toNat ≠ 0x0D0DA5A5 → exec (.mctpReset off) s = .next (s.respond 0x0A05 [])) ∧
    exec .mctpState s = .next (s.respond 0 (toBytes 4 (s.regRead 4 0x1000))))

/-! ### Contexts, rings and ports (chapter 13) -/

/-- HP_CX_MASK and CX_CMD: at a port that has a die a context whose bit is set becomes ASSIGNED where it was FREE, and one
whose bit is cleared leaves its port; start takes an ASSIGNED context whose setup is sound to READY with its rings at the
doorbell line's indices, or to FAULTED with 0x0610 where the line cannot be read, and leaves 0x0611 where the setup is not
sound; stop takes a READY or FAULTED one to STOPPING. -/
def Obligations.ContextsAreAssignedAndStarted : Prop :=
  (∀ (s : State) (w : Writer) (p : Fin 4) (v : Word), permits s w (0x300104 + 0x100 * p) v.toNat →
     ∃ t, exec (.hpCxMaskWrite w p v) s = .next t ∧ t = { s with hosts := { s.hosts with ctxs := t.hosts.ctxs } } ∧
       ∀ n : Nat, n < 16 → t.ctx n =
         if flag v n = true ∧ (s.ctx n).mode = .free ∧ p.val < s.module.dies then
           { s.ctx n with mode := .assigned, port := p }
         else if flag v n = false ∧ (s.ctx n).mode = .assigned ∧ (s.ctx n).port = p.val then
           { s.ctx n with mode := .free, port := 0 }
         else s.ctx n) ∧
  (∀ (s : State) (w : Writer) (cx : Fin 16) (line : Line),
     (permits s w (ctxBase cx) 1 → (s.ctx cx).mode = .assigned →
       (s.startOk cx → (∃ t, exec (.cxStart w cx line false) s = .next t ∧
         t = { s with hosts := { s.hosts with
           ctxs := t.hosts.ctxs, reads := s.hosts.reads ++ [⟨(s.ctx cx).port, s.doorbellAddr cx, 64, true⟩] } } ∧
         (t.ctx cx).mode = .ready ∧ (t.ctx cx).status = 0 ∧
         (∀ r, r < 4 → t.ring cx r = { Ring.empty with
           producer := doorbellIndex line r, fetched := doorbellIndex line r, done := doorbellIndex line r }) ∧
         ∀ n, n ≠ cx.val → t.ctx n = s.ctx n) ∧
         ∃ t, exec (.cxStart w cx line true) s = .next t ∧ (t.ctx cx).mode = .faulted ∧ (t.ctx cx).status = 0x0610) ∧
       (s.startOk cx = false → ∀ failed, exec (.cxStart w cx line failed) s =
         .next (s.setCtx cx { s.ctx cx with status := 0x0611 }))) ∧
     (permits s w (ctxBase cx) 2 → ((s.ctx cx).mode = .ready ∨ (s.ctx cx).mode = .faulted) →
       exec (.cxStop w cx) s = .next (s.setCtx cx { s.ctx cx with mode := .stopping })))

/-- TEARDOWN: for a STOPPING context that holds the fields, and for which no media engine works, its commands are stopped and
the context is emptied, which leaves it ASSIGNED, with no command decoded, no kernel slot and no semaphore; a context in
another state, or one that does not hold the fields, is not touched. -/
def Obligations.TeardownEmptiesContext : Prop :=
  ∀ (s : State) (cx : Fin 16),
    ((s.ctx cx).mode = .stopping → s.holds cx = true →
      (∀ e, e < 24 → ∀ f, (s.engine e).running = some f → f.cmd.cx ≠ cx.val) →
      ∃ t, exec (.teardown cx) s = .next t ∧
        t = ((((s.stopAll cx).clearCx cx).runOutOf cx).reschedule false)) ∧
    ((s.ctx cx).mode ≠ .stopping ∨ s.holds cx = false → exec (.teardown cx) s = .next s) ∧
    (((s.clearCx cx).ctx cx).mode = .assigned ∧ ((s.clearCx cx).ctx cx).slots = [] ∧ ((s.clearCx cx).ctx cx).sems = [] ∧
      ∀ r, r < 4 → ((s.clearCx cx).ring cx r).cmds = [])

/-- The doorbell line and DISPATCH_DECODE: a snoop has the line read again, and so does the poll period; a line that has been
read moves the producer indices, or faults the context where one is out of range or the line did not arrive; a slot that the
producer index has passed is fetched and decoded behind the others, with the run time a discarded command of that slot had;
one that does not arrive faults the context. -/
def Obligations.DoorbellsReachTheDispatcher : Prop :=
  (∀ (s : State) (cx : Fin 16) (line : Line), (s.ctx cx).mode = .ready →
     ((s.ctx cx).doorbellReading = true → exec (.doorbellSnoop cx) s = .next (s.setCtx cx { s.ctx cx with doorbellAgain := true })) ∧
     ((s.ctx cx).doorbellReading = false → (s.ctx cx).doorbellHeld = true → exec (.doorbellSnoop cx) s =
       .next ((s.setCtx cx { s.ctx cx with doorbellHeld := false, doorbellReading := true }).readDoorbell cx)) ∧
     ((s.ctx cx).doorbellReading = false → (s.ctx cx).doorbellHeld = false → exec (.doorbellSnoop cx) s = .next s) ∧
     ((s.ctx cx).doorbellReading = false → s.reg (ctxBase cx + 0x10) ≠ 0 → exec (.doorbellPoll cx) s =
       .next ((s.setCtx cx { s.ctx cx with doorbellReading := true }).readDoorbell cx)) ∧
     ((s.ctx cx).doorbellReading = true → (∀ r, r < 4 → s.producerBad cx line r = false) →
       ∃ t, exec (.doorbellReadDone cx line false) s = .next t ∧
         t = { s with hosts := { s.hosts with
           ctxs := t.hosts.ctxs
           reads := s.hosts.reads ++
             (if (s.ctx cx).doorbellAgain then [⟨(s.ctx cx).port, s.doorbellAddr cx, 64, true⟩] else []) } } ∧
         (t.ctx cx).mode = .ready ∧
         (t.ctx cx).doorbellReading = (s.ctx cx).doorbellAgain ∧ (t.ctx cx).doorbellHeld = !(s.ctx cx).doorbellAgain ∧
         (∀ r, r < 4 → t.ring cx r = { s.ring cx r with producer := doorbellIndex line r }) ∧
         ∀ n, n ≠ cx.val → t.ctx n = s.ctx n) ∧
     ((s.ctx cx).doorbellReading = true → (∃ r, r < 4 ∧ s.producerBad cx line r = true) →
       ∃ t, exec (.doorbellReadDone cx line false) s = .next t ∧ (t.ctx cx).mode = .faulted ∧ (t.ctx cx).status = 0x060F ∧
         ∀ r, t.ring cx r = s.ring cx r) ∧
     ((s.ctx cx).doorbellReading = true → ∃ t, exec (.doorbellReadDone cx line true) s = .next t ∧
       (t.ctx cx).mode = .faulted ∧ (t.ctx cx).status = 0x0610)) ∧
  (∀ (s : State) (cx : Fin 16) (ring : Fin 4) (line ext : Line) (m : Nat),
     (s.ctx cx).mode = .ready → s.portUp (s.ctx cx).port →
     ((s.ring cx ring).cmds.filter fun c => !c.issued).length < 8 →
     let q := s.ring cx ring
     let d := wrap32 (q.producer + 4294967296 - q.fetched)
     (d ≠ 0 → exec (.dispatchDecode cx ring line ext true m) s =
       .next ((s.fetchSlots cx ring q.fetched 1).faultCx cx 0x0610)) ∧
     (d ≠ 0 → kindSlots (fld line 7 0) ≤ d → ∃ t u : State, exec (.dispatchDecode cx ring line ext false m) s = .next t ∧
       t = ((if s.decodeStatus cx ring line ext m = 0 then u.prefetch cx line else u).settle cx ring).reschedule false ∧
       u.reg 0x600124 = sat32 (s.reg 0x600124 + m) ∧
       u.ring cx ring = { q with
         fetched := wrap32 (q.fetched + kindSlots (fld line 7 0))
         cmds := q.cmds ++ [{ Cmd.make q.fetched line ext (s.decodeStatus cx ring line ext m) with
           runNs := tget q.ranNs q.fetched 0 }]
         ranNs := tput q.ranNs q.fetched 0 0 } ∧
       (∀ k, k ≠ 0x600124 → u.reg k = s.reg k) ∧ (∀ n, n ≠ cx.val → u.ctx n = s.ctx n)) ∧
     (d < kindSlots (fld line 7 0) → exec (.dispatchDecode cx ring line ext false m) s = .next s) ∧
     (d = 0 → ∀ failed, exec (.dispatchDecode cx ring line ext failed m) s = .next s))

/-- Completion records: they leave a ring in slot order however far it settles, the oldest is
acknowledged and RING_DONE moves over its slots, and the interrupt is sent by its count or its timer. -/
def Obligations.CompletionsLeaveInOrder : Prop :=
  (∀ (s : State) (cx : Fin 16) (ring : Fin 4),
     (∀ a rest, (s.ring cx ring).written = a :: rest → ∃ t u : State, exec (.completionAck cx ring) s = .next t ∧
       t = u.reschedule false ∧ (u.ring cx ring).written = rest ∧
       (u.ring cx ring).done = wrap32 (a.index + a.slots) ∧
       (u.port (s.ctx cx).port).msix = (if a.irq || (bit (s.ringIrq cx ring) 0 &&
           decide (bits (s.ringIrq cx ring) 15 8 ≤ (s.ring cx ring).coalesced + 1)) then
         (4 * cx.val + ring.val) :: (s.port (s.ctx cx).port).msix else (s.port (s.ctx cx).port).msix)) ∧
     ((s.ring cx ring).written = [] → exec (.completionAck cx ring) s = .next s) ∧
     (bit (s.ringIrq cx ring) 0 → (s.ring cx ring).coalesced ≠ 0 → ∃ t, exec (.irqCoalesceTimer cx ring) s = .next t ∧
       (t.ring cx ring).coalesced = 0 ∧ (t.port (s.ctx cx).port).msix = (4 * cx.val + ring.val) :: (s.port (s.ctx cx).port).msix ∧
       t = { s with hosts := t.hosts })) ∧
  (∀ (s : State) (cx r : Nat), ∃ n, ((s.settle cx r).ring cx r).cmds = (s.ring cx r).cmds.drop n ∧
     ∃ l : List Completion, ((s.settle cx r).ring cx r).written = (s.ring cx r).written ++ l ∧
       (l = [] ∨ l.map Completion.index = ((s.ring cx r).cmds.take n).map Cmd.index))

/-- The host ports' links: an UP port falls to DEGRADED and keeps its contexts, a port that has traffic or
trains goes DOWN and its contexts are to be torn down, a DOWN or DEGRADED port comes UP; each raises HP_EVENT[2]. -/
def Obligations.HostPortsChangeState : Prop :=
  ∀ (s : State) (p : Fin 4),
    ((s.port p).mode = .up → ∃ t, exec (.hostPortDegraded p) s = .next t ∧ (t.port p).mode = .degraded ∧
      t.hosts.ctxs = s.hosts.ctxs ∧ bit (t.reg (0x300108 + 0x100 * p)) 2 = true) ∧
    ((s.port p).mode = .up ∨ (s.port p).mode = .degraded ∨ (s.port p).mode = .training →
      ∃ t, exec (.hostPortDown p) s = .next t ∧
        t = iter 16 (fun cx u => if u.cxPort cx = p.val then u.losePort cx else u)
          ((s.setPort p { s.port p with mode := .down }).hpEvent p 2)) ∧
    ((s.port p).mode = .down ∨ (s.port p).mode = .degraded ∨ (s.port p).mode = .training →
      ∃ t, exec (.hostPortUp p) s = .next t ∧ (t.port p).mode = .up ∧ t.hosts.ctxs = s.hosts.ctxs ∧
        bit (t.reg (0x300108 + 0x100 * p)) 2 = true)

/-- NOP, SEM_SIGNAL and SEM_WAIT: they issue at the head of their ring and complete with success;
SEM_SIGNAL adds its value to the context's semaphore modulo 2^32, SEM_WAIT issues once the semaphore has reached its
threshold and returns its value. -/
def Obligations.SemaphoresCount : Prop :=
  ∀ (s : State) (cx : Fin 16) (ring : Fin 4) (c : Cmd),
    let id : CmdId := ⟨cx, ring, c.index⟩
    let t := s.markIssued id []
    (issues s cx ring (wantKind 0x00) [] c → exec (.nop cx ring) s = .next (t.finish id 0 0)) ∧
    (issues s cx ring (wantKind 0x06) [] c → ∃ u : State, exec (.semSignal cx ring) s = .next (u.finish id 0 0) ∧
      u = { t with hosts := { t.hosts with ctxs := u.hosts.ctxs } } ∧ (∀ n, n ≠ cx.val → u.ctx n = t.ctx n) ∧
      ∀ i, u.sem cx i = if i = fld c.desc 195 192 then wrap32 (t.sem cx i + fld c.desc 255 224) else t.sem cx i) ∧
    (issues s cx ring (fun d => wantKind 0x07 d && s.semMet cx d) [] c →
      exec (.semWait cx ring) s = .next (t.finish id 0 (t.sem cx (fld c.desc 195 192))))

/-! ### Kernels, cores and tiles (chapters 2 and 5) -/

/-- LOAD_KERNEL, RUN_KERNEL, LAP_COUNTER_FREED and CHAINED_KERNEL_ISSUE: a sound image that is read without poison stands in
its slot, one that is not sound ends with its check's status, one that cannot be read with that status; a kernel at the head
of its ring whose slot is loaded and whose counter is free starts, if its issue checks pass, with its counters at every
rank's share, and ends with their status if not; one whose counter is held waits and then starts the same way; one whose slot
is empty ends with 0x0607; a chained kernel starts so behind its running producer. -/
def Obligations.KernelsLoadAndIssue : Prop :=
  (∀ (s : State) (cx : Fin 16) (c : Cmd),
     let va := fld c.desc 303 256
     let pins := s.pinsOf cx [(va, 1024)]
     let id : CmdId := ⟨cx, 0, c.index⟩
     let t := s.markIssued id pins
     let u := t.noteRead id (t.isLive cx) va 1024
     issues s cx 0 (wantKind 1) pins c →
     (∀ l, t.cvaRead id va 1024 = (0, l) → anyPoison l = false →
       (u.loadChecks cx (unmark l) (KImage.parse (unmark l)) = 0 → ∃ v : State,
         exec (.loadKernel cx) s = .next (v.finish id 0 0) ∧ v = u.setSlot cx (fld c.desc 197 192) (some (KImage.parse (unmark l))) ∧
         v.slot cx (fld c.desc 197 192) = some (KImage.parse (unmark l))) ∧
       (u.loadChecks cx (unmark l) (KImage.parse (unmark l)) ≠ 0 → exec (.loadKernel cx) s =
         .next (u.finish id (u.loadChecks cx (unmark l) (KImage.parse (unmark l))) 0))) ∧
     (∀ l, t.cvaRead id va 1024 = (0, l) → anyPoison l = true → exec (.loadKernel cx) s = .next (u.consumePoison id)) ∧
     (∀ st l, t.cvaRead id va 1024 = (st, l) → st ≠ 0 → exec (.loadKernel cx) s = .next (t.finish id st 0))) ∧
  (∀ (s : State) (cx : Fin 16) (c : Cmd) (img : KImage),
     let id : CmdId := ⟨cx, 0, c.index⟩
     let t := s.markIssued id (runPins cx s c)
     let at_ := fun (waits : Bool) => issues s cx 0 (fun d => wantKind 2 d && (d.waitsCounter == waits)) (runPins cx s c) c
     let wait := s.modCmd id fun d => { d with waitsCounter := true }
     let starts := fun (row : Instr) (q : Option Kernel) =>
       let k := t.kernelAt id img (if img.windowed && winChained img.window then q.map Kernel.cmd else none)
       let i := claimCounter (wordOf k.prog 1)
       (issueStatus k q = 0 → ∃ u : State, exec row s = .next u ∧ u.kernel i = some k ∧
         ∀ r, r < 75 → (u.lap r i).cx = cx ∧ (u.lap r i).next = k.tiles * r / 75 * k.parts ∧
           (u.lap r i).stop = k.tiles * (r + 1) / 75 * k.parts ∧ (u.lap r i).held = [] ∧ (u.lap r i).retry = []) ∧
       (issueStatus k q ≠ 0 → exec row s = .next (t.refuseKernel id (issueStatus k q)))
     (s.slot cx (fld c.desc 197 192) = none → at_ false →
       exec (.runKernel cx) s = .next ((s.markIssued id []).refuseKernel id 0x0607)) ∧
     (s.slot cx (fld c.desc 197 192) = some img →
       (at_ false → s.counterHeld img = false → starts (.runKernel cx) (t.kernelBefore cx none)) ∧
       (at_ false → s.counterHeld img = true → exec (.runKernel cx) s = .next wait) ∧
       (at_ true → s.counterHeld img = false → starts (.lapCounterFreed cx) (t.kernelBefore cx none)) ∧
       (at_ true → s.counterHeld img = true → exec (.lapCounterFreed cx) s = .next wait) ∧
       (∀ a rest j k, (s.ring cx 0).cmds = a :: c :: rest → s.kernelOf ⟨cx, 0, a.index⟩ = some (j, k) → a.issued → a.finished = false →
         wantKind 2 c → s.chainedSlot cx c → s.ringRules cx 0 c (runPins cx s c) → s.served cx 0 → s.rel.missing = [] →
         (s.counterHeld img = false → starts (.chainedKernelIssue cx) (t.kernel j)) ∧
         (s.counterHeld img = true → exec (.chainedKernelIssue cx) s = .next wait)))) ∧
  (∀ (s : State) (i : Nat) (k : Kernel) (r : Nat), i < 256 → r < 75 →
     let l := (s.takeCounters i k).lap r i
     l.next = k.tiles * r / 75 * k.parts ∧ l.stop = k.tiles * (r + 1) / 75 * k.parts ∧ l.cx = k.cmd.cx ∧
     l.done = 0 ∧ l.retry = [] ∧ l.held = [] ∧ l.handOut = 0 ∧ l.handIn = 0 ∧ l.returned = 0 ∧
     (l.mode = if l.next < l.stop then .serving else .exhausted) ∧
     l.boundM = k.boundM ∧ l.boundN = k.boundN ∧ l.boundK = k.boundK ∧ l.boundB = k.boundB)

/-- CLAIM, GATED_CLAIM and CORE_IDLE: each tile lies in the share of exactly one rank; a core that may claim takes the tile
that the counters offer it, waits where that tile is closed, and without one stops, or takes the chained kernel's program; a
waiting core takes the tile once one is offered, and its wait is counted; a tile taken is entered in the claim table of its
rank's counter and no longer on offer, a returned one first. -/
def Obligations.CoresClaimTiles : Prop :=
  (∀ (k : Kernel) (t : Nat), t < k.tiles →
     ∃ r, r < 75 ∧ k.owner t = r ∧ (k.range r).1 ≤ t ∧ t < (k.range r).2 ∧
       ∀ q, q < 75 → (k.range q).1 ≤ t → t < (k.range q).2 → q = r) ∧
  (∀ (s : State) (site : Fin 81) (core : Fin 4096) (i : Nat) (k : Kernel) (own : Nat),
     s.coreKernel (s.core site core) = some (i, k) → s.rankOf site = some own →
     (s.claimReady site core →
       (∀ r n, (s.findTile k i own).1 = some (r, n) → exec (.claim site core) s = .next (s.takeTile k i site core own r n)) ∧
       (s.findTile k i own = (none, true) → exec (.claim site core) s =
         .next ((s.setCore site core { s.core site core with gateWait := true }).waitBegins k)) ∧
       (s.findTile k i own = (none, false) → exec (.claim site core) s = .next ((s.noTile i site core).waitBegins k))) ∧
     (∀ wait, (s.core site core).gateWait → s.coreRuns site core → s.sched.switching = false → s.sched.halted = false →
       (∀ r n, (s.findTile k i own).1 = some (r, n) → exec (.gatedClaim site core wait) s =
         .next (((drainsOf k.prog).filter drainLink).foldl
           (fun u w => u.streamWaited (drainStream w) (1000 * wait / s.fieldMhz site))
           ((s.takeTile k i site core own r n).addSat (siteBase site + 0x708) wait))) ∧
       (s.findTile k i own = (none, true) → s.producerCounter k = none → exec (.gatedClaim site core wait) s = .next s)) ∧
     ((s.core site core).stopped → (s.core site core).passes = [] →
       (∀ j, s.chainedTo i = some j → exec (.coreIdle site core) s =
         .next (s.setCore site core { Core.empty with kern := some j })) ∧
       (s.chainedTo i = none → exec (.coreIdle site core) s =
         .next (s.setCore site core { s.core site core with stopped := true, gateWait := false })))) ∧
  (∀ (s : State) (k : Kernel) (i own r n : Nat) (site : Fin 81) (core : Fin 4096), i < 256 →
     s.serve k r (s.lap r i) (r != own) = .tile n →
     let l := s.lap r i
     let t := s.takeTile k i site core own r n
     (t.lap r i).held = l.held ++ [⟨n, site, core⟩] ∧
     (∀ rest, l.retry = n :: rest → (t.lap r i).retry = rest ∧ (t.lap r i).next = l.next ∧ (t.lap r i).stop = l.stop) ∧
     (l.retry = [] → (t.lap r i).retry = [] ∧ (n = if r = own then l.next else l.stop - 1) ∧
       (t.lap r i).stop - (t.lap r i).next + 1 = l.stop - l.next) ∧
     (r ≠ own → (t.lap r i).handOut = wrap32 (l.handOut + 1) ∧ (t.lap own i).handIn = wrap32 ((s.lap own i).handIn + 1)) ∧
     (t.core site core).passes = (s.core site core).passes ++ [{ k.pass i r n with issued := 1 }] ∧
     t = { s with tiles := t.tiles })

/-- LOAD_A, LOAD_B, MMA, CHANGEOVER and FENCE: the word that a core's program has next runs where it may run: a load reads
as many of its slabs as its ring holds, or keeps those of the last load where it names the same and asks for reuse; MMA reads
its slabs and adds the pass's block sums into the compute bank; CHANGEOVER swaps the banks or leaves the toggle due; FENCE
lets the sequencer go on once what it waits for has ended; poison among the operands ends the kernel. -/
def Obligations.CoreWordsRun : Prop :=
  ∀ (s : State) (site : Fin 81) (core : Fin 4096) (i : Nat) (k : Kernel) (j : Nat) (p : Pass) (w : Nat),
    let c := s.core site core
    let ready := fun (op : Nat) => s.coreKernel c = some (i, k) ∧ s.coreRuns site core = true ∧
      passFor k.prog op none 0 c.passes = some (j, p, w)
    let keys := fun (isB : Bool) => (List.range p.kLen).map (k.slabKey p w isB)
    let slots := fun (isB : Bool) => ringSlots w (s.slabSize k w isB)
    let fill := fun (isB : Bool) (g : OperandRing) => s.fillSlabs k p w isB g.next 0 (min p.kLen (slots isB)) c.sram
    let next := { p with issued := p.issued + 1 }
    (ready 2 → loadReuse w = false ∨ keys false ≠ c.ringA.keys →
      ((fill false c.ringA).2 = false → exec (.loadA site core) s = .next (s.putCore site core k.prog
        { c with
          passes := c.passes.set j { next with slotA := c.ringA.next, inA := min p.kLen (slots false) }
          sram := (fill false c.ringA).1
          ringA := ⟨(c.ringA.next + p.kLen) % slots false, keys false, c.ringA.next⟩ })) ∧
      ((fill false c.ringA).2 = true → exec (.loadA site core) s = .next (s.poisonKernel i k))) ∧
    (ready 2 → loadReuse w = true → keys false = c.ringA.keys → exec (.loadA site core) s = .next (s.putCore site core k.prog
      { c with passes := c.passes.set j { next with slotA := c.ringA.first, inA := p.kLen } })) ∧
    (ready 3 → loadReuse w = false ∨ keys true ≠ c.ringB.keys →
      ((fill true c.ringB).2 = false → exec (.loadB site core) s = .next (s.putCore site core k.prog
        { c with
          passes := c.passes.set j { next with slotB := c.ringB.next, inB := min p.kLen (slots true) }
          sram := (fill true c.ringB).1
          ringB := ⟨(c.ringB.next + p.kLen) % slots true, keys true, c.ringB.next⟩ })) ∧
      ((fill true c.ringB).2 = true → exec (.loadB site core) s = .next (s.poisonKernel i k))) ∧
    (ready 3 → loadReuse w = true → keys true = c.ringB.keys → exec (.loadB site core) s = .next (s.putCore site core k.prog
      { c with passes := c.passes.set j { next with slotB := c.ringB.first, inB := p.kLen } })) ∧
    (let a := s.passSlabs k p false c.sram
     let b := s.passSlabs k p true a.2.1
     (ready 4 → c.toggleDue = false → a.2.2 = false → b.2.2 = false → ∀ bank fl,
       runPass k (s.sideOf k.image k.wide) p (a.1.zip b.1) (if c.computeB then c.bankB else c.bankA) = (bank, fl) →
       exec (.mma site core) s = .next ((s.putCore site core k.prog
         { c with
           passes := c.passes.set j { next with ran := true, inA := p.kLen, inB := p.kLen }
           sram := b.2.1
           blocks := passBlocks k (s.sideOf k.image k.wide) (a.1.zip b.1) c.blocks
           bankA := if c.computeB then c.bankA else bank
           bankB := if c.computeB then bank else c.bankB }).raise k.cmd fl)) ∧
     (ready 4 → c.toggleDue = false → a.2.2 = true ∨ b.2.2 = true → exec (.mma site core) s = .next (s.poisonKernel i k)) ∧
     (ready 4 → c.toggleDue = true → exec (.mma site core) s = .next s)) ∧
    (ready 5 → ∀ wait, exec (.changeover site core wait) s =
      .next ((s.putCore site core k.prog (if drainFull c then { setPass c j next with toggleDue := true }
        else toggle (setPass c j next))).setSite site
          { s.site site with opdStall := sat32 ((s.site site).opdStall + wait) })) ∧
    (ready 7 → (bit w 59 = false ∨ loadsOpen k.prog c = false) → (bit w 58 = false ∨ drainsOpen k.prog c = false) →
      exec (.fence site core) s = .next (s.putCore site core k.prog (setPass c j next))) ∧
    (ready 7 → ((bit w 59 = true ∧ loadsOpen k.prog c = true) ∨ (bit w 58 = true ∧ drainsOpen k.prog c = true)) →
      exec (.fence site core) s = .next s)

/-- BANK_TOGGLE, SHADOW_COPY, DRAIN and TILE_COMPLETE: the toggle takes place once the drain bank is empty; the accumulated
words pass to the shadow; a DRAIN word writes its pass's tile through the epilogue, or sends it to its link stream once that
takes it whole; and once the last DRAIN of the oldest unposted pass has run, its tile is posted to the counter whose claim
table holds it, its link tiles being accepted in the same act. -/
def Obligations.TilesDrainAndPost : Prop :=
  (∀ (s : State) (site : Fin 81) (core : Fin 4096) (i : Nat) (k : Kernel),
     let c := s.core site core
     s.coreKernel c = some (i, k) → s.coreRuns site core = true →
     (∀ lost, c.toggleDue = true → drainFull c = false → exec (.bankToggle site core lost) s =
       .next ((s.putCore site core k.prog (toggle c)).setSite site
         { s.site site with chgStall := sat32 ((s.site site).chgStall + lost) })) ∧
     (∀ lost, c.toggleDue = false ∨ drainFull c = true → exec (.bankToggle site core lost) s = .next s) ∧
     (toggle c).computeB = !c.computeB ∧ (toggle c).toggleDue = false ∧
     (∀ p, c.passes.find? (fun p => p.changed && !p.shadowed) = some p → shadowFree k.prog c → 0 < drainsIssued k.prog p →
       ∃ t, exec (.shadowCopy site core) s = .next t ∧ t = { s with tiles := t.tiles } ∧
         (t.core site core).shadow = (if c.computeB then c.bankA else c.bankB).filter (fun e => inTile k e.1) ∧
         (if c.computeB then (t.core site core).bankA else (t.core site core).bankB) =
           (if c.computeB then c.bankA else c.bankB).filter (fun e => !inTile k e.1) ∧
         (if c.computeB then (t.core site core).bankB else (t.core site core).bankA) =
           (if c.computeB then c.bankB else c.bankA))) ∧
  (∀ (s : State) (site : Fin 81) (core : Fin 4096) (i : Nat) (k : Kernel) (j : Nat) (p : Pass),
     let c := s.core site core
     let w := nth (drainsOf k.prog) p.drained 0
     let last := (drainsOf k.prog).length ≤ p.drained + 1
     let value := fun r x => tget c.shadow (r * 64 + x) 0
     let due := fun (q : Pass) => q.shadowed && !q.posted && decide ((drainsOf k.prog).length ≤ q.drained)
     let after := fun (sent : List (Nat × List (Nat × Nat))) => { c with
       passes := c.passes.set j { p with drained := p.drained + 1, sent := sent }
       shadow := if last then [] else c.shadow }
     s.coreKernel c = some (i, k) → s.coreRuns site core = true → c.passes[j]? = some p →
     (c.passes.findIdx? (fun q => q.shadowed && decide (q.drained < drainsIssued k.prog q)) = some j → p.ran = true →
       (s.vectorsPoisoned k w p.rank p.tileM p.tileN = true → exec (.drain site core) s = .next (s.poisonKernel i k)) ∧
       (s.vectorsPoisoned k w p.rank p.tileM p.tileN = false → drainLink w = false → ∀ t fl,
         s.drainTile k w p.rank p.tileM p.tileN p.tileB (p.claim % k.parts) p.mValid p.nValid
           (match s.cmd? k.cmd with | some d => d.seed | none => 0) value = (t, fl) →
         exec (.drain site core) s = .next ((t.putCore site core k.prog (after p.sent)).raise k.cmd fl)) ∧
       (s.vectorsPoisoned k w p.rank p.tileM p.tileN = false → drainLink w = true →
         (s.tileSendable k [w] p.tileM p.tileN p.tileB = false → exec (.drain site core) s = .next s) ∧
         (s.tileSendable k [w] p.tileM p.tileN p.tileB = true → ∀ l fl,
           s.linkTile k w p.rank p.tileM p.tileN p.tileB p.mValid p.nValid value = (l, fl) →
           let u := (s.putCore site core k.prog (after (p.sent ++ [(drainStream w, l)]))).raise k.cmd fl
           exec (.drain site core) s = .next (if last then u.complete site core else u)))) ∧
     (c.passes.findIdx? due = some j →
       (p.sent.any (fun d => !s.tileRoom d.1 d.2) = true → exec (.tileComplete site core) s = .next s) ∧
       (p.sent.any (fun d => !s.tileRoom d.1 d.2) = false →
         exec (.tileComplete site core) s = .next (((s.acceptSent p).putCore site core k.prog
           (setPass c j { p with posted := true, sent := [] })).post i k site core p))) ∧
     ((s.lap p.rank p.counter).held.any (fun h => h.claim == p.claim && h.site == site.val && h.core == core.val) →
       ((s.post i k site core p).lap p.rank p.counter).done = (s.lap p.rank p.counter).done + 1 ∧
       ((s.post i k site core p).lap p.rank p.counter).held = (s.lap p.rank p.counter).held.filter
         (fun h => !(h.claim == p.claim && h.site == site.val && h.core == core.val))))

/-- STAGE_C_SUM, SLICE_STAGE and HURDLE_ARRIVAL: with its partials posted a tile's sums are drained, or handed to the link
stream that finds it sendable, and the tile counts as summed; the next input slice of a rank's stripe is staged into its
infield and counted; a field that is done arrives, and the last arrival ends the command. -/
def Obligations.FieldsFinishKernels : Prop :=
  (∀ (s : State) (i : Fin 256) (tile wait : Nat) (k : Kernel), s.kernel i = some k →
    let rd := recReduce k.image.counter
    let q := k.place tile
    let rank := k.owner tile
    let mv := min k.m (k.boundM - q.1 * k.m)
    let nv := min k.n (k.boundN - q.2.1 * k.n)
    let seed := match s.cmd? k.cmd with | some d => d.seed | none => 0
    let sums := fun r c => s.stageSum k rank q.1 q.2.1 q.2.2 seed r c
    let fl := (List.range mv).foldl (fun a r => (List.range nv).foldl (fun b c => b ||| (sums r c).2) a) 0
    let done := fun (t : State) (f : Nat) =>
      ((t.setKernel i (some { k with summed := sput k.summed tile })).tileDone k rank tile).raise k.cmd (fl ||| f)
    let poisoned := s.partsPoisoned k rank q.1 q.2.1 q.2.2 mv nv || s.vectorsPoisoned k rd rank q.1 q.2.1
    k.split → tile < k.tiles → k.summed.contains tile = false → k.cancelled = false → s.holds k.cmd.cx →
    (∀ p, p < k.parts → k.posted.contains (tile, p)) → s.tileSendable k [rd] q.1 q.2.1 q.2.2 = true →
    (poisoned = true → exec (.stageCSum i ⟨tile, wait⟩) s = .next (s.poisonKernel i k)) ∧
    (poisoned = false → drainLink rd = false → ∀ t f,
      s.drainTile k rd rank q.1 q.2.1 q.2.2 0 mv nv seed (fun r c => (sums r c).1) = (t, f) →
      exec (.stageCSum i ⟨tile, wait⟩) s = .next (done t f)) ∧
    (poisoned = false → drainLink rd = true → ∀ l f,
      s.linkTile k rd rank q.1 q.2.1 q.2.2 mv nv (fun r c => (sums r c).1) = (l, f) →
      exec (.stageCSum i ⟨tile, wait⟩) s =
        .next (done ((s.deliver (drainStream rd) l).streamWaited (drainStream rd) wait) f))) ∧
  (∀ (s : State) (i : Fin 256) (rank : Fin 75) (wait sl st : Nat) (k : Kernel) (l : List (Nat × Marked)), s.kernel i = some k →
    k.nextSlice rank = some sl → k.image.windowed → k.cancelled = false → s.holds k.cmd.cx → s.sliceReady k sl →
    s.sliceSource k sl = (st, l) →
    let lo := (stripeOf k.image k.boundM k.boundN k.inD k.inH k.inW rank).1 * rawPer k.image.window
    let at_ := winLine k.image.window * 128 + (sl - lo) *
      sliceBytes k.image.window (loadFmt (wordOf k.prog 2)) k.inD k.inH k.inW
    let base := siteBase (s.siteAt rank)
    (st = 0 → exec (.sliceStage i rank wait) s = .next ((((s.stageSlice k rank sl at_ l).setKernel i
      (some { k with staged := sput k.staged (65536 * rank.val + sl) })).addWrap (base + 0x700)
        (if l.isEmpty then 0 else 1)).addSat (base + 0x70C) wait)) ∧
    (st ≠ 0 → exec (.sliceStage i rank wait) s = .next (s.cancelKernel i k st))) ∧
  (∀ (s : State) (cx : Fin 16) (chained : Bool) (rank : Fin 75) (id : CmdId) (c : Cmd),
    s.hurdleCmd cx chained = some (id, c) → c.issued → c.finished = false → c.arrived.contains rank.val = false →
    s.mayArrive id c rank →
    let t := s.modCmd id fun d => { d with arrived := sput d.arrived rank.val }
    let u := if c.kind = 4 then t.closeAttention id c else t
    (c.arrived.length < 74 → exec (.hurdleArrival cx chained rank) s = .next t) ∧
    (74 ≤ c.arrived.length → (∀ i k, s.kernelOf id = some (i, k) →
        exec (.hurdleArrival cx chained rank) s = .next (t.endKernel i k k.status)) ∧
      (s.kernelOf id = none → u.writesDue id = false →
        exec (.hurdleArrival cx chained rank) s = .next (u.finish id c.status c.result)) ∧
      (s.kernelOf id = none → u.writesDue id = true →
        exec (.hurdleArrival cx chained rank) s = .next (u.modCmd id fun d => { d with worked := true }))))

/-- Cores lost and back: a core that is lost while it serves leaves service and holds no pass any more, retired where it was
lost within the last 30 days of powered time; one that hangs with a claim is lost likewise; the lowest spare enters service,
empty, where fewer than 4,000 serve; a lost core that passes its self-test is a spare again, one that fails is retired. -/
def Obligations.CoresComeAndGo : Prop :=
  ∀ (s : State) (site : Fin 81) (core : Fin 4096),
    ((s.coreSite site core).use = .inService → ∃ t,
      exec (.coreLost site core) s = .next t ∧
      (t.coreSite site core).use =
        (if ∃ b, (s.coreSite site core).lostAt = some b ∧ s.module.lifeSeconds < b + 2592000 then .retired else .lost) ∧
      (t.coreSite site core).lostAt = some s.module.lifeSeconds ∧ (t.core site core).passes = [] ∧
      ((s.core site core).passes ≠ [] → exec (.coreHangTimeout site core) s = .next t)) ∧
    ((List.range 4096).find? (fun k => (s.coreSite site k).use == .spare) = some core.val → s.coresInService site < 4000 →
      ∃ t, exec (.coreEnterService site core) s = .next t ∧ (t.coreSite site core).use = .inService ∧
        t.core site core = Core.empty) ∧
    ((s.coreSite site core).use = .lost →
      (∃ t, exec (.coreRetest site core true) s = .next t ∧ (t.coreSite site core).use = .spare) ∧
      (∃ t, exec (.coreRetest site core false) s = .next t ∧ (t.coreSite site core).use = .retired))

/-- STEP_BOUNDARY: at the head of its ring, the step_end command of the recipe context that has ended has its boundary
applied before its record is written, a refused request leaving bit 31 in its flags. At a boundary the fields' monitor counts
are added to the module's and none is left; with the recipe's set CLOSED a record whose request is clear is narrow, one whose
request is set is wide or refused, and a refusal is reported only where one was refused; with the set not CLOSED no register
changes. -/
def Obligations.StepBoundariesApply : Prop :=
  ∀ (s : State) (cx : Fin 16) (ring : Fin 4) (c : Cmd),
    (s.headCmd cx ring (fun d => (d.finished || (d.refusal != 0 && (s.ctx cx).mode == .ready)) && s.boundaryDue cx d) = some c →
      exec (.stepBoundary cx ring) s = .next ((s.boundary.1.modCmd ⟨cx, ring, c.index⟩ fun d => { d with
        bounded := true, flags := d.flags ||| (if s.boundary.2 then 2 ^ 31 else 0) }).settle cx ring)) ∧
    s.boundary.1.rails.fieldMon = [] ∧
    s.boundary.1.rails.moduleMon = s.rails.fieldMon.foldl
      (fun m p => tput m (p.1 % 1539) (sat32 (tget m (p.1 % 1539) 0 + p.2)) 0) s.rails.moduleMon ∧
    (s.setClosed 0 = false → s.boundary.2 = false ∧ ∀ k, s.boundary.1.reg k = s.reg k) ∧
    (s.setClosed 0 = true → s.recipes.length ≤ 512 → ∀ i, i < s.recipes.length →
      (s.recipeBit 0x2100 i = false → s.boundary.1.recipeBit 0x2200 i = false) ∧
      (s.recipeBit 0x2100 i = true → s.boundary.1.recipeBit 0x2200 i = true ∨
        (s.boundary.1.recipeBit 0x2300 i = true ∧ s.boundary.2 = true)))

/-! ### Arithmetic and engines (chapters 3, 6 and 8) -/

/-- The engine commands but for POOL (CHAIN, ADD, SUB, MUL, FMA, MAX, MIN, CONVERT, QUANT_MX, DEQUANT_MX, TREE_SUM, ROW_SUM,
ROW_MAX, ARGMAX, SOFTMAX_MERGE, NORM_APPLY, the sixteen library routines, ROW_STATS, ROW_LSE, MICRO, GATHER, SCATTER, SORT,
TOPK, SEGMENT_REDUCE, SET_PAD, ADJ_EXPAND): one that issues runs its rows over the ranks, and what ends it then is its hurdle;
a row count above max_rows runs no row and completes it with 0x0257; a row that reads poison ends it; a record with an
operation number that names none completes with 0x0250, or 0x0256 among the routine numbers. -/
def Obligations.EngineCommandsRunRows : Prop :=
  ∀ e ∈ engineRows, ∀ (s : State) (cx : Fin 16) (c : Cmd), issues s cx 0 (wantEngine e.2.1) [] c →
    let id : CmdId := ⟨cx, 0, c.index⟩
    let t := s.markIssued id []
    let n := t.shape cx (egRows c.ext)
    (egOp c.ext = e.2.1 →
      (egMaxRows c.ext < n → exec (e.1 cx) s = .next (t.finish id 0x0257 0)) ∧
      (n ≤ egMaxRows c.ext → ∀ u : State, (rowParts n).foldl (runRow e.2.2 id (s.cxSeed cx) c.ext) (t, false) = (u, false) →
        exec (e.1 cx) s = .next (u.modCmd id fun d => { d with worked := true, progress := n })) ∧
      (n ≤ egMaxRows c.ext → ∀ u : State, (rowParts n).foldl (runRow e.2.2 id (s.cxSeed cx) c.ext) (t, false) = (u, true) →
        exec (e.1 cx) s = .next (u.consumePoison id))) ∧
    (opNamed (egOp c.ext) = false →
      exec (e.1 cx) s = .next (t.finish id (if opKnown (egOp c.ext) then 0x0256 else 0x0250) 0))

/-- The rows of an engine command: the ranks divide them, each row runs once in the rank that R115 gives it, and a row that
reads no poison writes its own ranges and no other byte of any infield or stack. -/
def Obligations.EngineRowsStayInPlace : Prop :=
  (∀ n : Nat, (rowParts n).map Prod.snd = List.range n ∧
     ∀ p ∈ rowParts n, p.1 < 75 ∧ n * p.1 / 75 ≤ p.2 ∧ p.2 < n * (p.1 + 1) / 75) ∧
  (∀ (f : RowFn) (id : CmdId) (seed : Nat) (x : Line) (s : State) (rank row : Nat),
     let w := f s seed x rank row
     let t := (runRow f id seed x (s, false) (rank, row)).1
     rank < 75 → (∀ e ∈ w.writes, e.1 + e.2.length ≤ 100663296) →
     (w.reads.any (fun r => s.infPoisoned r.1 r.2.1 r.2.2) → runRow f id seed x (s, false) (rank, row) = (s, true)) ∧
     (w.reads.any (fun r => s.infPoisoned r.1 r.2.1 r.2.2) = false →
       (∀ q a, q < 75 → a < 100663296 → (q ≠ rank ∨ ∀ e ∈ w.writes, a < e.1 ∨ e.1 + e.2.length ≤ a) →
         t.infByte q a = s.infByte q a) ∧
       t.memory.store = s.memory.store ∧
       (∀ e, w.writes = [e] → t.infRead rank e.1 e.2.length = e.2)))

/-- POOL: a window record that fails the checks of a load completes with their status, too many rows with 0x0257, one that
fails the checks of an issue with theirs; else every rank's stripe is staged, and its rows run as those of any engine
command; where a slice cannot be staged the command ends with that status and its output rows are undefined. -/
def Obligations.PoolStagesAndRuns : Prop :=
  ∀ (s : State) (cx : Fin 16) (win : Line) (c : Cmd),
    let pins := poolPins win.toNat cx s c
    let id : CmdId := ⟨cx, 0, c.index⟩
    let t := s.markIssued id pins
    let x := c.ext
    let p : PoolAt := ⟨win.toNat, egFmtA x, t.shape cx (winSrcD win.toNat), t.shape cx (winSrcH win.toNat),
      t.shape cx (winSrcW win.toNat), t.shape cx (egRows x)⟩
    let q := t.kernelBefore cx none
    let slices := (List.range 75).flatMap fun r =>
      (List.range ((p.stripe r).2 - (p.stripe r).1)).map fun i => (r, (p.stripe r).1 + i)
    issues s cx 0 (wantEngine 0x210) pins c → egOp x = 0x210 →
    (t.poolLoadStatus cx x p ≠ 0 → exec (.pool cx win) s = .next (t.finish id (t.poolLoadStatus cx x p) 0)) ∧
    (t.poolLoadStatus cx x p = 0 → egMaxRows x < p.rows → exec (.pool cx win) s = .next (t.finish id 0x0257 0)) ∧
    (t.poolLoadStatus cx x p = 0 → p.rows ≤ egMaxRows x → poolIssueStatus p id q ≠ 0 →
      exec (.pool cx win) s = .next (t.finish id (poolIssueStatus p id q) 0)) ∧
    (t.poolLoadStatus cx x p = 0 → p.rows ≤ egMaxRows x → poolIssueStatus p id q = 0 → ∀ (u : State) (st : Nat),
      slices.foldl (poolStage p (p.source id q)) (t.windowStart p.stripe, 0) = (u, st) →
      (st = 0 → ∀ (v : State) (bad : Bool),
        (rowParts p.rows).foldl (runRow (poolRow p) id (s.cxSeed cx) x) (u, false) = (v, bad) →
        exec (.pool cx win) s = .next (if bad then v.consumePoison id
          else v.modCmd id fun d => { d with worked := true, progress := p.rows })) ∧
      (st ≠ 0 → exec (.pool cx win) s = .next (((rowParts p.rows).foldl
        (fun v r => v.infHavoc r.1 (egAtOut x r.2) (egLen x * fmtBytes (egFmtOut x))) u).finish id st 0)))

/-- Every value that an FP32, BF16, FP16, E4M3 or E5M2 code stands for converts back to that code, in either rounding mode
and without a flag, a NaN apart, which becomes its format's canonical one. -/
def Obligations.FormatsRoundTrip : Prop :=
  ∀ (r : Rounding) (fmt c : Nat) (f : Fmt), fmtOf fmt = some f → fmt ≤ 4 → c < 2 ^ (1 + f.eb + f.fb) →
    ((f.decode c).isNan = false → convOut r fmt (f.decode c) = (c, 0)) ∧
    ((f.decode c).isNan = true → (convOut r fmt (f.decode c)).2 = flNan ∧
      f.decode (convOut r fmt (f.decode c)).1 = .nan ∧ ∀ d, (f.decode d).isNan = true →
        convOut r fmt (f.decode d) = convOut r fmt (f.decode c))

/-- Rounding to nearest: the rounded magnitude lies within half a unit of the exact one, a tie goes to the even one, and
nothing is lost where the spacing divides it; stochastic rounding answers one of the two neighbours. -/
def Obligations.RoundingIsNearest : Prop :=
  ∀ (p m : Nat) (qmin e : Int), 0 < m → 0 < p →
    let q := max qmin (e + (Nat.log2 m : Int) + 1 - (p : Int))
    (∀ r : Rounding, (roundMag r p qmin m e).2 = q ∧ (roundMag r p qmin m e).1 ≤ 2 ^ p) ∧
    (∀ r : Rounding, q ≤ e → (roundMag r p qmin m e).1 = m * 2 ^ (e - q).toNat) ∧
    (e < q → ∀ d : Nat, (d : Int) = q - e →
      2 * ((roundMag .rne p qmin m e).1 * 2 ^ d) ≤ 2 * m + 2 ^ d ∧ 2 * m ≤ 2 * ((roundMag .rne p qmin m e).1 * 2 ^ d) + 2 ^ d ∧
      (2 * ((roundMag .rne p qmin m e).1 * 2 ^ d) = 2 * m + 2 ^ d ∨
        2 * m = 2 * ((roundMag .rne p qmin m e).1 * 2 ^ d) + 2 ^ d → (roundMag .rne p qmin m e).1 % 2 = 0) ∧
      (∀ r24, r24 < 2 ^ 24 → (roundMag (.sr r24) p qmin m e).1 * 2 ^ d < m + 2 ^ d ∧
        m < (roundMag (.sr r24) p qmin m e).1 * 2 ^ d + 2 ^ d))

/-- FP32 addition, MAX and MIN: addition is commutative, +0 is neutral but to −0, a NaN among the operands gives
the canonical NaN; of two numbers MAX and MIN give the greater and the lesser. -/
def Obligations.AdditionAndOrderFollowTheirRules : Prop :=
  (∀ (r : Rounding) (a b : Nat), f32Add r a b = f32Add r b a ∧ (f32Add r a b).1 < 2 ^ 32 ∧
     ((ofF32 a).isNan ∨ (ofF32 b).isNan → f32Add r a b = (0x7FC00000, flNan)) ∧
     (∀ n, ofF32 a = .inf n → ofF32 b = .inf (!n) → f32Add r a b = (0x7FC00000, flNan)) ∧
     (∀ n, ofF32 a = .inf n → ∀ m k e, ofF32 b = .fin m k e → f32Add r a b = (if n then 0xFF800000 else 0x7F800000, 0)) ∧
     (a < 2 ^ 32 → (ofF32 a).isNan = false → a ≠ 0x80000000 → f32Add r a 0 = (a, 0))) ∧
  (∀ a b : Nat, a < 2 ^ 32 → b < 2 ^ 32 →
     ((ofF32 a).isNan ∨ (ofF32 b).isNan → max32 a b = (0x7FC00000, flNan) ∧ min32 a b = (0x7FC00000, flNan)) ∧
     ((ofF32 a).isNan = false → (ofF32 b).isNan = false →
       ((max32 a b).1 = a ∨ (max32 a b).1 = b) ∧ ((min32 a b).1 = a ∨ (min32 a b).1 = b) ∧
       (max32 a b).2 = 0 ∧ (min32 a b).2 = 0 ∧
       (ofF32 (max32 a b).1).lt (ofF32 a) = false ∧ (ofF32 (max32 a b).1).lt (ofF32 b) = false ∧
       (ofF32 a).lt (ofF32 (min32 a b).1) = false ∧ (ofF32 b).lt (ofF32 (min32 a b).1) = false ∧
       max32 a b = max32 b a ∧ min32 a b = min32 b a) ∧
     max32 0x80000000 0 = (0, 0) ∧ min32 0x80000000 0 = (0x80000000, 0))

/-! ### Tiers, KV pages and attention (chapters 7 and 9) -/

/-- FILL, SPILL, COPY, MAP, UNMAP, WMAP and WLOAD: a tier command that issues, or that has issued and waits, moves its rows, one
after the other, or changes its pages' entries, and completes with success, or with the status of the first that failed, its
outputs then undefined; a SPILL or COPY waits where a page it writes is freeing and due; MAP and UNMAP of the package window and
WMAP by another than the owner end with 0x0309, a WMAP past the weight partition with 0x0306, an unsound WLOAD with 0x0307; a
record that is not sound is 0x0301, one whose lines its context may not use 0x0308, and neither moves anything. -/
def Obligations.TierCommandsMove : Prop :=
  ∀ (s b : State) (cx : Fin 16) (ring : Fin 4) (c : Cmd),
    let x := c.ext
    let id : CmdId := ⟨cx, ring, c.index⟩
    let at_ := fun (op : Nat) => works s b cx ring (wantTier op) (tierPins cx s c) c
    let sound := fun (op : Nat) => at_ op ∧ b.tierBad x = false ∧ ((op = 1 ∨ op = 2) → b.tierLinesBad cx x = false)
    let allowed := b.inPackageWindow (tierA x) (tierPages x) = false ∨ b.ownerCx cx = true
    let fits := tierB x / 2097152 + tierPages x ≤ 65 * b.weightGib * 512
    let n := tierRows x * tierBytes x
    let loads := tierB x % 53248 = 0 ∧ n % 53248 = 0 ∧ tierB x + n ≤ 1073741824 * (65 * b.weightGib) ∧ b.ownerCx cx = true ∧
      (∀ d ∈ b.outstanding, d = id) ∧ tierOne x = true
    (sound 1 → ∀ (u : State) (st : Nat), (tierParts x).foldl (fillRow id x) (b, 0) = (u, st) →
      exec (.fill cx ring) s = .next (if st = 0 then u.endWork id 0 0
        else ((tierParts x).foldl (fun v p => v.infHavoc p.1 (tierInf x p.2) (tierBytes x)) u).finish id st 0)) ∧
    (sound 2 → (∀ p ∈ tierParts x, b.writeWaits id (tierVa x (tierA x) p) (tierBytes x) = false) → ∀ (u : State) (st : Nat),
      (tierParts x).foldl (spillRow id x) (b, 0) = (u, st) → exec (.spill cx ring) s = .next (if st = 0 then u.endWork id 0 0
        else ((tierParts x).foldl (fun v p => v.cvaHavoc id (tierVa x (tierA x) p) (tierBytes x)) u).finish id st 0)) ∧
    (sound 2 → (∃ p ∈ tierParts x, b.writeWaits id (tierVa x (tierA x) p) (tierBytes x) = true) →
      exec (.spill cx ring) s = .next b) ∧
    (sound 3 → (∀ p ∈ tierParts x, b.writeWaits id (tierVa x (tierB x) p) (tierBytes x) = false) → ∀ (u : State) (st : Nat),
      (tierParts x).foldl (copyRow id x) (b, 0) = (u, st) → exec (.copy cx ring) s = .next (if st = 0 then u.endWork id 0 0
        else ((tierParts x).foldl (fun v p => v.cvaHavoc id (tierVa x (tierB x) p) (tierBytes x)) u).finish id st 0)) ∧
    (sound 3 → (∃ p ∈ tierParts x, b.writeWaits id (tierVa x (tierB x) p) (tierBytes x) = true) →
      exec (.copy cx ring) s = .next b) ∧
    (sound 4 → allowed → ∀ (u : State) (st : Nat), (List.range (tierPages x)).foldl (mapPage id x) (b, 0) = (u, st) →
      exec (.map cx ring) s = .next (u.finish id st 0)) ∧
    (sound 5 → allowed → ∀ (u : State) (st : Nat) (l : List (Nat × Nat)),
      (List.range (tierPages x)).foldl (unmapPage id x) (b, 0, []) = (u, st, l) →
      exec (.unmap cx ring) s = .next (State.finish { u with tiers := { u.tiers with
        frees := u.tiers.frees ++ (pendingFree b id l cx ++ pendingFree b id l 16) } } id st 0)) ∧
    (¬allowed → (sound 4 → exec (.map cx ring) s = .next (b.finish id 0x0309 0)) ∧
      (sound 5 → exec (.unmap cx ring) s = .next (b.finish id 0x0309 0))) ∧
    (sound 6 → b.ownerCx cx = true → fits → ∀ (u : State) (st : Nat),
      (List.range (tierPages x)).foldl (wmapPage x) (b, 0) = (u, st) → exec (.wmap cx ring) s = .next (u.finish id st 0)) ∧
    (sound 6 → b.ownerCx cx = true → ¬fits → exec (.wmap cx ring) s = .next (b.finish id 0x0306 0)) ∧
    (sound 6 → b.ownerCx cx = false → exec (.wmap cx ring) s = .next (b.finish id 0x0309 0)) ∧
    (sound 7 → loads → ∀ l, wloadRead b id x = (0, l) →
      exec (.wload cx ring) s = .next (((List.range (n / 53248)).foldl (wloadStripe id l (tierB x / 53248))
        (b.noteReads id (b.isLive cx) ((List.range (tierRows x)).map fun i =>
          (tierA x + i * tierStride x, tierBytes x)))).endWork id 0 0)) ∧
    (sound 7 → loads → ∀ (st : Nat) (l : Marked), st ≠ 0 → wloadRead b id x = (st, l) →
      exec (.wload cx ring) s =
        .next (((List.range (n / 53248)).foldl (wloadSpoil (tierB x / 53248)) b).finish id st 0)) ∧
    (sound 7 → ¬loads → exec (.wload cx ring) s = .next (b.finish id 0x0307 0)) ∧
    (∀ (op : Nat) (row : Instr), (op, row) ∈ [(1, Instr.fill cx ring), (2, Instr.spill cx ring), (3, Instr.copy cx ring),
        (4, Instr.map cx ring), (5, Instr.unmap cx ring), (6, Instr.wmap cx ring), (7, Instr.wload cx ring)] → at_ op →
      (b.tierBad x = true → exec row s = .next (b.finish id 0x0301 0)) ∧
      (b.tierBad x = false → op ≤ 2 → b.tierLinesBad cx x = true → exec row s = .next (b.finish id 0x0308 0)))

/-- Tier rows, UNMAP_FREE and HEAT_DECAY: a row of a FILL lands in the infield line R237 gives it and
changes no other byte; MAP sets a page's entry, or refuses a mapped one with 0x0306, UNMAP clears it, and a page outside the
windows is 0x0302; frees that wait for no outstanding command take effect; the read counters halve. -/
def Obligations.TierUnitsKeepCount : Prop :=
  (∀ (s : State) (id : CmdId) (x : Line),
     (∀ (p : Nat × Nat) (l : Marked), s.cvaRead id (tierVa x (tierA x) p) (tierBytes x) = (0, l) →
       let u := (fillRow id x (s, 0) p).1
       (fillRow id x (s, 0) p).2 = 0 ∧ u.infRead p.1 (tierInf x p.2) l.length = unmark l ∧
       ∀ q a, infKey q a < infKey p.1 (tierInf x p.2) ∨ infKey p.1 (tierInf x p.2) + l.length ≤ infKey q a →
         u.infByte q a = s.infByte q a) ∧
     (∀ i tab, s.space id.cx (tierPage x i) = .table tab →
       let k := entryKey tab (tierPage x i)
       (bit (s.entry k) 63 = true → mapPage id x (s, 0) i = (s, 0x0306)) ∧
       (bit (s.entry k) 63 = false → tierPlacement x = 0 →
         (mapPage id x (s, 0) i).2 = 0 ∧ (mapPage id x (s, 0) i).1.entry k = 2 ^ 63 + 2 ^ 62 * b2n (tierWriteOk x) ∧
         ∀ j, j ≠ k → (mapPage id x (s, 0) i).1.entry j = s.entry j) ∧
       (bit (s.entry k) 63 = false → tierPlacement x ≠ 0 → s.quotaOk tab 32 = true → ∀ (t : State) (page : Nat),
         s.takePage ((tierRank x + i) % 75) = some (t, page) →
         (mapPage id x (s, 0) i).2 = 0 ∧
         (mapPage id x (s, 0) i).1.entry k =
           2 ^ 63 + 2 ^ 62 * b2n (tierWriteOk x) + 2 ^ 61 + 2 ^ 57 + 2 ^ 50 * ((tierRank x + i) % 75) + page) ∧
       (∀ l, (unmapPage id x (s, 0, l) i).2.1 = 0 ∧ (bit (s.entry k) 63 = true → (unmapPage id x (s, 0, l) i).1.entry k = 0) ∧
         ∀ j, j ≠ k → (unmapPage id x (s, 0, l) i).1.entry j = s.entry j)) ∧
     (∀ i, (∀ tab, s.space id.cx (tierPage x i) ≠ .table tab) → mapPage id x (s, 0) i = (s, 0x0302) ∧
       ∀ l, unmapPage id x (s, 0, l) i = (s, 0x0302, l))) ∧
  ((∀ (s : State) (cx : Fin 16), ∃ t u : State, exec (.unmapFree cx) s = .next t ∧
     u = { s with tiers := { s.tiers with frees := s.tiers.frees.filter fun f => !(f.cx == cx.val && s.freeReady f) } } ∧
     t = (s.tiers.frees.filter fun f => f.cx == cx.val && s.freeReady f).foldl State.freeAll u ∧
     t.tiers.frees = u.tiers.frees ∧ ∀ k, t.entry k = s.entry k) ∧
   (∀ s : State, (s.tiers.heatReads.map Prod.fst).Nodup → ∃ t, exec .heatDecay s = .next t ∧
     t = { s with tiers := { s.tiers with heatReads := t.tiers.heatReads } } ∧
     ∀ k, tget t.tiers.heatReads k 0 = tget s.tiers.heatReads k 0 / 2))

/-- P and Q of a stripe: P is the exclusive or of the 13 data units, Q the sum of g^j · D_j with g = 0x02 modulo
x^8 + x^4 + x^3 + x^2 + 1, and whichever two units of a stripe are missing, the other 13 fix them. -/
def Obligations.TwoMissingUnitsAreFixed : Prop :=
  (∀ b : Byte, (gfDouble b).toNat = if 128 ≤ b.toNat then (2 * b.toNat) ^^^ 0x11D else 2 * b.toNat) ∧
  (∀ d : List Byte, d.length = 13 →
    parityP d = ((List.range 13).map fun j => nth d j 0).foldl (· ^^^ ·) 0 ∧
    parityQ d = ((List.range 13).map fun j => gfDouble^[j] (nth d j 0)).foldl (· ^^^ ·) 0) ∧
  (∀ (d e : List Byte) (i j : Nat), d.length = 13 → e.length = 13 → i < 13 → j < 13 →
    (∀ k, k ≠ i → k ≠ j → nth d k 0 = nth e k 0) →
    (parityP d = parityP e → parityQ d = parityQ e → d = e) ∧
    (i = j → parityP d = parityP e → d = e) ∧ (i = j → parityQ d = parityQ e → d = e))

/-- SQ_CTRL: a sequence that is not enabled and that no command pins is enabled where its region fits, and stays disabled, its
enable bit clear, where it does not; an enabled one takes the write where its region still fits; a write while commands pin it,
or that enables it while it is being disabled, is 0x0A02; enable written clear frees its pages, and the sequence is disabled,
its register as written, once none waits to be reclaimed; one that is not enabled just takes the write. -/
def Obligations.SequencesEnableAndDisable : Prop :=
  ∀ (s : State) (w : Writer) (seq : Fin 8) (v : Word), permits s w (seqBase seq) v.toNat →
    let word := s.clampReg (seqBase seq) (v.toNat % 65536 - v.toNat % 16 + v.toNat % 4)
    let t := s.setReg (seqBase seq) word
    (flag v 0 = true → (s.seq seq).pinned = [] → (s.seq seq).disabling = false →
      ((s.seq seq).enabled = false → t.regionBad seq = false → exec (.sequenceEnable w seq v) s =
        .next (t.setSeq seq { s.seq seq with enabled := true, disabling := false, copies := 0 })) ∧
      ((s.seq seq).enabled = false → t.regionBad seq = true → ∃ u : State, exec (.sequenceEnable w seq v) s = .next u ∧
        (u.seq seq).enabled = false ∧ bit (u.reg (seqBase seq)) 0 = false ∧ ∀ k, k ≠ seqBase seq → u.reg k = s.reg k) ∧
      ((s.seq seq).enabled = true →
        exec (.sequenceEnable w seq v) s = .next (if t.regionBad seq then s else t))) ∧
    ((s.seq seq).pinned ≠ [] ∨ (s.seq seq).disabling = true → flag v 0 = true →
      exec (.sequenceEnable w seq v) s = .next (s.cfgErr w 1 (seqBase seq))) ∧
    ((s.seq seq).pinned ≠ [] → flag v 0 = false → exec (.sequenceDisable w seq v) s = .next (s.cfgErr w 1 (seqBase seq))) ∧
    (flag v 0 = false → (s.seq seq).pinned = [] →
      ((s.seq seq).enabled = false → exec (.sequenceDisable w seq v) s = .next t) ∧
      ((s.seq seq).enabled = true → ∃ u : State, exec (.sequenceDisable w seq v) s = .next u ∧
        ((u.seq seq).reclaim = [] → (u.seq seq).enabled = false ∧ u.reg (seqBase seq) = word) ∧
        ((u.seq seq).reclaim ≠ [] → (u.seq seq).enabled = true ∧ (u.seq seq).disabling = true ∧
          (u.seq seq).later = some word))) ∧
    (flag v 0 = false → exec (.sequenceEnable w seq v) s = .next s) ∧
    (flag v 0 = true → exec (.sequenceDisable w seq v) s = .next s)

/-- SHARE, FREE, RECLAIM, SHARE_COUNT_UPDATE and COW_COPY_DONE: page by page a SHARE gives a page that is
not backed the frame of the source's; a FREE marks its pages, and goes on where it stopped; a freeing entry is cleared once
every earlier command has released its pin; the oldest update of a rank changes its frame's counts; at the end of a copy
on write the entry names the new frame. -/
def Obligations.PagesAreSharedAndFreed : Prop :=
  (∀ (s : State) (cx : Fin 16) (c : Cmd),
    let id : CmdId := ⟨cx, 0, c.index⟩
    let t := s.markIssued id (pagePins s c)
    (issues s cx 0 (wantPage 2) (pagePins s c) c →
      (t.cxPort (t.seqCx (pageSrcSeq c.desc)) ≠ t.cxPort cx → exec (.share cx) s = .next (t.finish id 0x0337 0)) ∧
      (t.cxPort (t.seqCx (pageSrcSeq c.desc)) = t.cxPort cx → ∀ (u : State) (st : Nat),
        (pageList c.desc).foldl (sharePage c.desc) (t, 0) = (u, st) → exec (.share cx) s = .next (u.finish id st 0))) ∧
    (∀ b : State, works s b cx 0 (wantPage 1) (pagePins s c) c → ∀ (u : State) (n : Nat),
      freePages (pageSeq c.desc) (b.issueOf id (pageSeq c.desc)) ((pageList c.desc).drop c.progress) c.desc (b, c.progress) =
        (u, n) →
      ((pageList c.desc).length ≤ n → exec (.pageFree cx) s = .next (u.finish id 0 0)) ∧
      (n < (pageList c.desc).length → exec (.pageFree cx) s = .next (u.modCmd id fun d => { d with progress := n })))) ∧
  (∀ (s : State) (d : Line) (p : Nat × Nat) (i j : Nat), s.kv.updates = [] →
    s.pageIndex (pageSeq d) (pageLayer d + p.1) (pageFirst d + p.2) = some i →
    s.pageIndex (pageSrcSeq d) (pageSrcLayer d + p.1) (pageSrcPage d + p.2) = some j →
    kvValid (s.kvEntry (pageSeq d) i) = false → kvValid (s.kvEntry (pageSrcSeq d) j) = true →
    kvFreeing (s.kvEntry (pageSrcSeq d) j) = false → (s.shareOf (kvFrame (s.kvEntry (pageSrcSeq d) j))).map ≠ 0xFFFF →
    s.quotaOk (s.seqCx (pageSeq d)) s.frameUnits = true →
    let u := (sharePage d (s, 0) p).1
    (sharePage d (s, 0) p).2 = 0 ∧
    u.kvEntry (pageSeq d) i = kvWord (pageWrite d) (kvFrame (s.kvEntry (pageSrcSeq d) j)) ∧
    (∀ k, k ≠ kvKey (pageSeq d) i → tget u.kv.table k 0 = tget s.kv.table k 0) ∧
    (u.seq (pageSeq d)).frames = (s.seq (pageSeq d)).frames + 1 ∧
    u.kv.updates = [⟨kvFrame (s.kvEntry (pageSrcSeq d) j), 1, 0⟩]) ∧
  (∀ (s : State) (seq : Fin 8),
    (∀ i, (s.seq seq).reclaim.find? (fun i => !before (s.seqLow seq) (kvFree (s.kvEntry seq i))) = some i →
      ∃ t, exec (.reclaim seq) s = .next t ∧ t.kvEntry seq i = 0 ∧ (t.seq seq).reclaim = (s.seq seq).reclaim.erase i ∧
        (t.seq seq).frames = (s.seq seq).frames - 1 ∧
        t.kv.updates = s.kv.updates ++ [⟨kvFrame (s.kvEntry seq i), 0, -1⟩] ∧
        ∀ k, k ≠ kvKey seq i → tget t.kv.table k 0 = tget s.kv.table k 0) ∧
    ((∀ i ∈ (s.seq seq).reclaim, before (s.seqLow seq) (kvFree (s.kvEntry seq i)) = true) →
      exec (.reclaim seq) s = .next s)) ∧
  (∀ (s : State) (rank : Fin 75) (a b : List ShareUpdate) (u : ShareUpdate), s.kv.updates = a ++ u :: b →
    (∀ v ∈ a, v.frame % 75 ≠ rank) → u.frame % 75 = rank → ∃ t, exec (.shareCountUpdate rank) s = .next t ∧
      t = { s with kv := { s.kv with updates := a ++ b, shares := t.kv.shares } } ∧
      ∀ f, t.shareOf f = if f = u.frame then
        ⟨((s.shareOf f).map + u.map).toNat, ((s.shareOf f).hold + u.hold).toNat⟩ else s.shareOf f) ∧
  (∀ (s : State) (seq : Fin 8) (page : Nat) (c : Cow), s.cowOn seq page = some c → ∃ t, exec (.cowCopyDone seq page) s = .next t ∧
    t.kvEntry seq page = kvWord true c.dst ∧ (t.seq seq).copies = wrap32 ((s.seq seq).copies + 1) ∧ c ∉ t.kv.cows ∧
    ∀ k, k ≠ kvKey seq page → tget t.kv.table k 0 = tget s.kv.table k 0)

/-- ATTENTION, SPAN_FORM and SPAN_MERGE: an attention command that issues has a claim for every query block and head and takes
its lap counter in every rank for that rank's share of them, and with no claim its work is done; too many blocks are 0x0263, a
layer its sequences lack 0x0265; a claim is worked on by the core that holds it, or by one that takes it, and waits while none
can; a span of a claim is formed once, its rows' states kept, one that names a sequence outside the mask leaves 0x0262, and one
whose data cannot be read ends the command; once every span is formed the claim's rows are written and its states dropped, or
its output is undefined where a span was outside the mask, and it waits where a page it writes is freeing and due. -/
def Obligations.AttentionFormsAndMerges : Prop :=
  (∀ (s : State) (cx : Fin 16) (c : Cmd),
    let x := c.ext
    let id : CmdId := ⟨cx, 0, c.index⟩
    let t := s.markIssued id (attnPins cx s c)
    let n := t.shape cx (atBlocks x) * atHeads x
    issues s cx 0 (fun d => wantKind 0x04 d && s.attnFree d) (attnPins cx s c) c →
    (atMaxBlocks x < t.shape cx (atBlocks x) → exec (.attention cx) s = .next (t.finish id 0x0263 0)) ∧
    (t.shape cx (atBlocks x) ≤ atMaxBlocks x → (∀ q ∈ atSeqs x, t.seqLayers q = 1 ∨ atLayer x < t.seqLayers q) →
      (0 < n → ∃ u : State, exec (.attention cx) s = .next u ∧ u.attn.states = s.attn.states ∧
        u.attn.claims = s.attn.claims ++ (List.range n).map (fun k =>
          ⟨id, k, t.shape cx (atBlocks x), (List.range 8).map fun q => t.reg (seqBase q + 0x18), false, [], false⟩) ∧
        ∀ r, r < 75 → u.lap r (atCounter x) = { s.lap r (atCounter x) with
          mode := if n * r / 75 < n * (r + 1) / 75 then .serving else .exhausted
          cx := cx, next := n * r / 75, stop := n * (r + 1) / 75, done := 0, retry := [], held := []
          handOut := 0, handIn := 0, returned := 0 }) ∧
      (n = 0 → exec (.attention cx) s = .next (t.modCmd id fun d => { d with worked := true }))) ∧
    (t.shape cx (atBlocks x) ≤ atMaxBlocks x → (∃ q ∈ atSeqs x, t.seqLayers q ≠ 1 ∧ t.seqLayers q ≤ atLayer x) →
      exec (.attention cx) s = .next (t.finish id 0x0265 0))) ∧
  (∀ (s : State) (cx : Fin 16) (claim span : Nat) (a : AttnClaim) (c : Cmd),
    s.attnClaim cx claim = some (a, c) → s.holds cx = true → a.merged = false →
    let x := c.ext
    let r := claimRank (attnCount c a) a.claim
    let l := s.lap r (attnIndex c)
    let ranges := (List.range (s.spanValid x a)).flatMap fun i =>
      (atOutAt x (claim / atHeads x) (claim % atHeads x) i, atHd x * fmtBytes (atOutFmt x)) ::
        (if atLseEn x then [(atLseAt x (claim / atHeads x) (claim % atHeads x) i, 4)] else [])
    (l.held.any (fun h => h.claim == a.claim) = true → s.attnTake a c = some s) ∧
    (l.held.any (fun h => h.claim == a.claim) = false →
      (s.attnCore r = none → s.attnTake a c = none) ∧
      (∀ p : Nat × Nat × Nat, s.attnCore r = some p → ∃ u : State, s.attnTake a c = some u ∧
        (u.lap r (attnIndex c)).held = l.held ++ [⟨a.claim, p.2.1, p.2.2⟩] ∧
        (u.lap r (attnIndex c)).retry = l.retry.erase a.claim ∧ u.memory = s.memory)) ∧
    (s.attnTake a c = none → exec (.spanForm cx claim span) s = .next s ∧ exec (.spanMerge cx claim) s = .next s) ∧
    (∀ u : State, s.attnTake a c = some u →
      (a.formed.contains span = false → span < s.spanCount x a →
        let formed := fun (v : State) => v.modClaim a.cmd claim fun y => { y with formed := sput y.formed span }
        (bit (atMask x) (u.spanAt x a span).1 = false → exec (.spanForm cx claim span) s =
          .next (formed (u.modCmd a.cmd fun d => { d with status := if d.status = 0 then 0x0262 else d.status }))) ∧
        (bit (atMask x) (u.spanAt x a span).1 = true → ∀ (st : Nat) (poison : Bool) (states : List SpanState) (fl : Nat),
          u.formStates a x span = (st, poison, states, fl) →
          (poison = false → st = 0 → let v := (formed u).noteReads a.cmd true (u.spanReads a x span)
            exec (.spanForm cx claim span) s =
              .next (State.raise { v with attn := { v.attn with states := v.attn.states ++ states } } a.cmd fl)) ∧
          (poison = true → exec (.spanForm cx claim span) s = .next ((u.endAttention a.cmd c).consumePoison a.cmd)) ∧
          (poison = false → st ≠ 0 → exec (.spanForm cx claim span) s =
            .next ((u.endAttention a.cmd c).finish a.cmd st 0)))) ∧
      (s.spanCount x a ≤ a.formed.length → ranges.any (fun p => s.writeWaits a.cmd p.1 p.2) = false →
        let ends := fun (v : State) => State.attnDone (State.attnGive (State.modClaim { v with attn := { v.attn with
            states := v.attn.states.filter fun p => !(p.cmd == a.cmd && p.claim == claim) } } a.cmd claim
          fun y => { y with merged := true }) a c) a.cmd
        (u.claimSound x a = true → ∀ (v : State) (st : Nat), (List.range (s.spanValid x a)).foldl
            (State.writeRow x a (claimRank (a.blocks * atHeads x) claim)) (u, 0) = (v, st) →
          exec (.spanMerge cx claim) s =
            .next (if st = 0 then ends v else (v.endAttention a.cmd c).finish a.cmd st 0)) ∧
        (u.claimSound x a = false → exec (.spanMerge cx claim) s =
          .next (ends (ranges.foldl (fun v p => v.cvaHavoc a.cmd p.1 p.2) u))))) ∧
    (ranges.any (fun p => s.writeWaits a.cmd p.1 p.2) = true → exec (.spanMerge cx claim) s = .next s))

/-! ### Stacks (chapter 9) -/

/-- Stack channels: a channel that no other stack of its weight group retrains starts its retrain, a scheduled one only where
its slot allows; a retrain ends, and the third failure in a row starts a repair, or loses the field of a channel that stays in
service without a spare; a repair takes the lowest spare or leaves the channel degraded, waits while another runs, and ends with
the spare in its place and the granules carried that the old channel did not give; the patrol counts one corrected symbol,
whose channel is repaired past 4,096 in a day, and at more poisons the word or counts the weight granule as rebuilt, and starts
the repair. -/
def Obligations.ChannelsAreKeptInService : Prop :=
  (∀ (s : State) (rank : Fin 75) (chan : Fin 64),
     let k := s.stack rank
     (k.mode ≠ .critical → k.retraining.contains chan.val = false → s.groupRetrains rank chan = false →
       (s.siteOf rank).isSome → ∃ t, exec (.channelRetrainStart rank chan false) s = .next t ∧
         t = s.setStack rank { k with retraining := sput k.retraining chan, retrains := wrap32 (k.retrains + 1) } ∧
         (s.retrainSlot rank chan = true → exec (.channelRetrainStart rank chan true) s =
           .next { t with sched := { t.sched with retrained := t.sched.retrained ++ [(rank.val, chan.val)] } }) ∧
         (s.retrainSlot rank chan = false → exec (.channelRetrainStart rank chan true) s = .next s)) ∧
     (k.retraining.contains chan.val = true → ∀ holdNs,
       let done := fun (n : Nat) => s.setStack rank { k with
         retraining := k.retraining.filter fun c => c != chan.val
         holdMax := max k.holdMax (min holdNs 4000)
         failed := tput k.failed chan n 0 }
       exec (.channelRetrainEnd rank chan true holdNs) s = .next (done 0) ∧
       (tget k.failed chan 0 ≠ 2 → exec (.channelRetrainEnd rank chan false holdNs) s =
         .next (done (tget k.failed chan 0 + 1))) ∧
       (tget k.failed chan 0 = 2 → exec (.channelRetrainEnd rank chan false holdNs) s =
         .next ((done 0).channelFails rank chan))) ∧
     (k.degraded.contains chan.val = false → s.channelFails rank chan = s.startRepair rank chan) ∧
     (∀ n, k.degraded.contains chan.val = true → s.siteOf rank = some n → s.channelFails rank chan = s.loseField n)) ∧
  (∀ (s : State) (rank : Fin 75) (chan : Fin 64), (s.siteOf rank).isSome →
     let k := s.stack rank
     (∀ p r, k.repair = none → s.activationDue = false → k.spares = p :: r →
       ∃ t, exec (.channelRepairStart rank chan) s = .next t ∧ (t.stack rank).repair = some (chan.val, p) ∧
         (t.stack rank).remap = k.remap ∧ bit (t.reg 0x48) 3 = true) ∧
     (k.repair = none → s.activationDue = false → k.spares = [] →
       ∃ t, exec (.channelRepairStart rank chan) s = .next t ∧ (t.stack rank).degraded.contains chan.val = true ∧
         (t.stack rank).remap = k.remap ∧ (t.stack rank).repair = none) ∧
     (k.repair.isSome ∨ s.activationDue = true → exec (.channelRepairStart rank chan) s =
       .next (s.setStack rank { k with repairsDue := sput k.repairsDue chan })) ∧
     (∀ p bad answered, k.repair = some (chan.val, p) →
       ∃ t, exec (.channelRepairEnd rank ⟨chan, bad, answered⟩) s = .next (match k.repairsDue with
           | d :: _ => t.startRepair rank d
           | [] => t) ∧
         (t.stack rank).repair = none ∧ (t.stack rank).physical chan = p ∧
         (t.stack rank).retired.contains (k.physical chan) = true ∧
         (∀ c, c ≠ chan.val → (t.stack rank).physical c = k.physical c) ∧
         bit (t.reg 0x48) 4 = true ∧ (∀ r, r ≠ rank.val → t.stack r = s.stack r) ∧
         (bad = [] → channelGranules ≤ answered → t.memory = s.memory)) ∧
     (∀ addr, addr % 64 = 0 →
       (s.isWeight (stackKey rank addr) = true → s.carryGranule rank addr = s.setStack rank { k with recon := sat32 (k.recon + 1) }) ∧
       (s.isWeight (stackKey rank addr) = false → ∀ j, j < 4 →
         (s.carryGranule rank addr).storePoisoned (stackKey rank addr + 64 * j) = true))) ∧
  (∀ (s : State) (rank : Fin 75) (g n : Nat), (s.siteOf rank).isSome → (g < 402653184 ∨ 536870912 ≤ g) →
     let key := wordKey rank (g * 256)
     let chan := channelOf (g * 256)
     let k := s.stack rank
     (s.storePoisoned key = false →
       (let recent := (chan, s.module.lifeSeconds) :: k.errors.filter fun e => decide (s.module.lifeSeconds < e.2 + 86400)
        let one := fun (l : List (Nat × Nat)) => s.setStack rank { k with corrected := sat32 (k.corrected + 1), errors := l }
        ((recent.filter fun e => e.1 == chan).length ≤ 4096 → exec (.patrolScrub rank g 1) s = .next (one recent)) ∧
        (4096 < (recent.filter fun e => e.1 == chan).length → exec (.patrolScrub rank g 1) s =
          .next ((one (recent.filter fun e => e.1 != chan)).startRepair rank chan))) ∧
       (2 ≤ n → s.isWeight key = false → exec (.patrolScrub rank g n) s =
         .next (State.startRepair ((State.poisonWord (s.setStack rank
           { k with uncorrected := sat32 (k.uncorrected + 1) }) key).addSat 0x600114 1) rank chan)) ∧
       (2 ≤ n → s.isWeight key = true → exec (.patrolScrub rank g n) s =
         .next ((s.setStack rank { k with recon := sat32 (k.recon + 1) }).startRepair rank chan))) ∧
     exec (.patrolScrub rank g 0) s = .next s ∧
     (s.storePoisoned key = true → exec (.patrolScrub rank g n) s = .next s))

/-- Temperatures: a stack's state follows its highest reading with the hysteresis of R263, a HOT one
is signalled, and a stack that stays CRITICAL is stopped; a reading of 105 °C of a stack or 115 °C of a field trips the
module; below that a field's clock steps down at 100 °C, and back up after a hundred samples below 92 °C. -/
def Obligations.TemperaturesAreActedOn : Prop :=
  ∀ (s : State), s.module.holdHot = false → s.module.railsOn = true →
    (∀ (rank : Fin 75) (c : Nat), (s.siteOf rank).isSome →
      let k := s.stack rank
      let t := s.setStack rank { k with celsius := c }
      (c < 105 → exec (.stackThermalSample rank c) s = .next (t.enterStack rank (stackNext k.mode c))) ∧
      (105 ≤ c → ∃ u : State, exec (.stackThermalSample rank c) s = .next u ∧ u.module.phase = .tripped) ∧
      (stackNext k.mode c = k.mode → c < 105 → exec (.stackThermalSample rank c) s = .next t) ∧
      (stackNext k.mode c = .hot → k.mode = .normal → c < 105 → ∃ u : State,
        exec (.stackThermalSample rank c) s = .next u ∧ (u.stack rank).mode = .hot ∧ bit (u.reg 0x48) 2 = true) ∧
      (k.mode = .critical → ∃ u : State, exec (.stackCriticalTimeout rank) s = .next u ∧
        (u.stack rank).mode = .stopped ∧ ∀ h ∈ u.tiers.heldWrites, h.rank ≠ rank.val)) ∧
    (∀ (n : Fin 81) (c : Nat), (s.site n).use = .active →
      let x := s.site n
      (115 ≤ c → ∃ u : State, exec (.fieldThermalSample n c) s = .next u ∧ u.module.phase = .tripped) ∧
      (100 ≤ c → c < 110 → x.steps < 4 → 10 ≤ x.sinceStep → ∃ u : State, exec (.fieldThermalSample n c) s = .next u ∧
        u.site n = { x with junction := c, steps := x.steps + 1, sinceStep := 0, coolSamples := 0 }) ∧
      (c < 92 → 99 ≤ x.coolSamples → 0 < x.steps → ∃ u : State, exec (.fieldThermalSample n c) s = .next u ∧
        (u.site n).steps = x.steps - 1) ∧
      (92 ≤ c → c < 100 → x.stopped = false → ∃ u : State, exec (.fieldThermalSample n c) s = .next u ∧
        (u.site n).steps = x.steps ∧ (u.site n).junction = c))

/-! ### Relay links (chapter 10) -/

/-- LINK_TRAINING_START, LINK_TRAINING_RETRY, LINK_TRAINING_END, LINK_RETRAIN and LANE_SPARE: a link that is enabled, with the
module's ID set, trains; an attempt whose directions pass four lanes or more brings it UP, or DEGRADED with fewer than eight,
with full credits and its peer known; the third failure in a row and a peer with this module's ID or none put it DOWN; a retrain
keeps the replay buffer; a lane that the peer names, or that loses lock, or whose corrected symbols pass their bound, gives its
place to a spare, and without one the direction falls to four lanes, the failing one not among them. -/
def Obligations.LinksTrain : Prop :=
  ∀ (s : State) (n : Fin 36),
    let l := s.link n
    (bit (s.reg (linkBase n)) 0 = true → bit (s.reg (linkBase n)) 1 = false → s.moduleId ≠ 0xFFF →
      (l.mode = .disabled → exec (.linkTrainingStart n) s = .next (s.setLink n (Link.fresh .training 0))) ∧
      (l.mode = .up ∨ l.mode = .degraded ∨ l.mode = .retrain → exec (.linkTrainingStart n) s =
        .next (s.linkLeave n fun _ => Link.fresh .training 0))) ∧
    (l.mode = .training → l.waiting = true →
      exec (.linkTrainingRetry n) s = .next (s.setLink n { l with waiting := false })) ∧
    (∀ (tx rx : BitVec 10) (peer : BitVec 12) (pl : Fin 36), l.mode = .retrain ∨ (l.mode = .training ∧ l.waiting = false) →
      (4 ≤ (lanesOf tx).length → 4 ≤ (lanesOf rx).length → peer.toNat ≠ s.moduleId → peer.toNat ≠ 0xFFF →
        ∃ t, exec (.linkTrainingEnd n tx rx peer pl) s = .next t ∧
          (t.link n).mode = (if 8 ≤ (lanesOf tx).length ∧ 8 ≤ (lanesOf rx).length then .up else .degraded) ∧
          (t.link n).peer = some (peer.toNat, pl.val) ∧ (t.link n).failures = 0 ∧
          (t.link n).txLanes = (lanesOf tx).take (if 8 ≤ (lanesOf tx).length then 8 else 4) ∧
          (t.link n).rxLanes = (lanesOf rx).take (if 8 ≤ (lanesOf rx).length then 8 else 4) ∧
          (t.link n).txSpares = (lanesOf tx).drop 8 ∧ (t.link n).rxSpares = (lanesOf rx).drop 8 ∧
          (t.link n).credits = [(0, 32), (2, 1024), (4, 768), (5, 768), (6, 16), (7, 16)] ∧
          (t.link n).replay = l.replay ∧ (t.link n).resend = l.replay.length ∧ ∀ m, m ≠ n.val → t.link m = s.link m) ∧
      ((lanesOf tx).length < 4 ∨ (lanesOf rx).length < 4 →
        (l.failures < 2 → exec (.linkTrainingEnd n tx rx peer pl) s =
          .next (s.setLink n { l with failures := l.failures + 1, waiting := l.mode == .training })) ∧
        (2 ≤ l.failures → ∃ t, exec (.linkTrainingEnd n tx rx peer pl) s = .next t ∧ (t.link n).mode = .down ∧
          bit (t.reg 0x48) 1 = true)) ∧
      (4 ≤ (lanesOf tx).length → 4 ≤ (lanesOf rx).length → peer.toNat = s.moduleId ∨ peer.toNat = 0xFFF →
        ∃ t, exec (.linkTrainingEnd n tx rx peer pl) s = .next t ∧ (t.link n).mode = .down ∧ (t.link n).status = 6)) ∧
    (s.linkUp n = true → exec (.linkRetrain n) s = .next ((s.linkLeave n fun l => { l with
      mode := .retrain, failures := 0, waiting := false }).addWrap (linkBase n + 0x30) 1)) ∧
    (∀ lane : Fin 10,
      exec (.laneSpare n lane .named) s = .next (s.spareLane n true lane) ∧
      exec (.laneSpare n lane .lockLost) s = .next (s.spareLane n false lane) ∧
      (∀ ms, s.linkUp n = true → let t := s.addSat (linkBase n + 0x1C) (sumNat ms)
        (ratioOver ms = true → exec (.laneSpare n lane (.counts ms)) s = .next (t.spareLane n false lane)) ∧
        (ratioOver ms = false → exec (.laneSpare n lane (.counts ms)) s = .next t)) ∧
      (s.linkUp n = true → ∀ tx : Bool,
        let lanes := fun (k : Link) => if tx then k.txLanes else k.rxLanes
        let spares := if tx then l.txSpares else l.rxSpares
        (lanes l).length = 8 → (lanes l).contains lane.val = true →
        (∀ p rest, spares = p :: rest →
          lanes ((s.spareLane n tx lane).link n) = (lanes l).map (fun x => if x = lane.val then p else x) ∧
          ((s.spareLane n tx lane).link n).mode = l.mode ∧
          (tx = true → ((s.spareLane n tx lane).link n).txSpares = rest) ∧
          (tx = false → ((s.spareLane n tx lane).link n).rxSpares = rest ∧
            ((s.spareLane n tx lane).link n).spareDue = some lane.val) ∧
          bit ((s.spareLane n tx lane).reg 0x48) 4 = true) ∧
        (spares = [] → ((s.spareLane n tx lane).link n).mode = .degraded ∧
          (lanes ((s.spareLane n tx lane).link n)).length = 4 ∧
          ((lanes l).Nodup → lane.val ∉ lanes ((s.spareLane n tx lane).link n)))))

/-- BATON_SLOT, REPLAY_TIMEOUT, IDLE_BATON, NAK_BATON, BATON_CRC_FAILURE and MALFORMED_BATON: a slot sends what the link picks,
and its senders then queue more; a sequenced baton takes the next number, a credit and a place in the replay buffer; a replayed
one counts, and one replayed seven times before starts a retrain; acknowledgements free that place; a baton with the expected
number is accepted, any other leaves the sequence; a bad CRC is counted and asks once for the expected number; a malformed
baton is accepted into the sequence and counted. -/
def Obligations.BatonsKeepTheirSequence : Prop :=
  ∀ (s : State) (n : Fin 36) (b : BatonWord),
    let l := s.link n
    let wc := bits (s.reg 0x20000C) 7 0
    let wb := bits (s.reg 0x20000C) 15 8
    let t := s.setLink n (l.slot wc wb)
    (s.linkFlows n = true →
      (∀ q, l.pick wc = .sprint q ∨ l.pick wc = .mgmt q ∨ l.pick wc = .collective q ∨ l.pick wc = .bulk q →
        exec (.batonSlot n) s = .next ((t.addWrap (linkBase n + 0x0C) 1).refill n) ∧
        (t.link n).nextSeq = (l.nextSeq + 1) % 4096 ∧
        ((t.link n).replay.map Replay.seq) = l.replay.map Replay.seq ++ [l.nextSeq] ∧
        (∀ k, tget (t.link n).credits k 0 = tget l.credits k 0 - (if k = batVc q * 2 + batClass q then 1 else 0))) ∧
      (l.pick wc = .idle ∨ l.pick wc = .nak → exec (.batonSlot n) s = .next (t.refill n) ∧
        (t.link n).replay = l.replay ∧ (t.link n).nextSeq = l.nextSeq ∧ (t.link n).credits = l.credits ∧
        (l.pick wc = .nak → (t.link n).nakDue = false)) ∧
      (l.pick wc = .resend → (t.link n).resend = l.resend - 1 ∧ (t.link n).nextSeq = l.nextSeq ∧
        ((t.link n).replay.map Replay.baton) = l.replay.map Replay.baton ∧
        let u := t.addSat (linkBase n + 0x14) 1
        ((t.link n).replay.all (fun r => decide (r.replays < 8)) = true → exec (.batonSlot n) s = .next u) ∧
        ((t.link n).replay.all (fun r => decide (r.replays < 8)) = false → exec (.batonSlot n) s =
          .next ((u.setLink n { t.link n with replay := (t.link n).replay.map fun r => { r with replays := 0 } }).linkRetrain n)))) ∧
    (s.linkFlows n = true → l.replay ≠ [] →
      exec (.replayTimeout n) s = .next (s.setLink n { l with resend := l.replay.length })) ∧
    (batonIs 0 b = true → s.arrives n b = true →
      exec (.idleBaton n b) s = .next ((s.setLink n (l.hear b)).checkReduces n)) ∧
    (batonIs 1 b = true → s.arrives n b = true → exec (.nakBaton n b) s =
      .next ((s.setLink n { l.hear b with resend := (l.hear b).replay.length }).checkReduces n)) ∧
    (∀ a q r, l.replay = q ++ r → q.getLast?.map Replay.seq = some a → (∀ x ∈ q.dropLast, x.seq ≠ a) →
      (l.acked a).replay = r) ∧
    (∀ codewords, crcGood b = false → s.arrives n b = true → ∃ t, exec (.batonCrcFailure n ⟨b, codewords⟩) s = .next t ∧
      t.reg (linkBase n + 0x18) = sat32 (s.reg (linkBase n + 0x18) + 1) ∧
      t.reg (linkBase n + 0x20) = sat32 (s.reg (linkBase n + 0x20) + codewords) ∧
      t.link n = (if l.nakSent then l else { l with nakDue := true, nakSent := true })) ∧
    (crcGood b = true → malformed b = true → s.arrives n b = true →
      (batKind b ≤ 1 → exec (.malformedBaton n b) s = .next (s.addSat (linkBase n + 0x24) 1)) ∧
      (1 < batKind b → batSeq b = l.expect →
        exec (.malformedBaton n b) s = .next ((s.accept n b).1.addSat (linkBase n + 0x24) 1)) ∧
      (1 < batKind b → batSeq b ≠ l.expect →
        exec (.malformedBaton n b) s = .next (s.setLink n { l with ackDue := true }))) ∧
    (s.arrives n b = true → batSeq b = l.expect →
      let k := batVc b * 2 + batClass b
      s.accept n b = (((s.setLink n { l.hear b with
        expect := (l.expect + 1) % 4096, nakSent := false, ackDue := true
        creditDue := tput (l.hear b).creditDue k (tget (l.hear b).creditDue k 0 + 1) 0 }).addWrap (linkBase n + 0x10) 1).checkReduces
          n, true)) ∧
    (s.arrives n b = true → batSeq b ≠ l.expect → s.accept n b = (s.setLink n { l with ackDue := true }, false))

/-- BULK_SEND, BULK_BATON, DONE_BATON, UNREACH_BATON and MGMT_BATON: a transfer with a usable link stands in its list and its
batons are queued, 64 at most unsent, while its context holds the fields, its command waiting, and one without a link is
0x0401; a baton for another module is forwarded with one hop fewer, or discarded; one for this module lands, ends the transfer
it names with its status, or is kept for the management controller; DONE goes back once every baton has arrived. -/
def Obligations.RoutedBatonsArrive : Prop :=
  (∀ (s : State) (cx : Fin 16) (c : Cmd),
    let id : CmdId := ⟨cx, 1, c.index⟩
    let t := s.markIssued id (s.pinsFor cx c)
    let dst := fld c.desc 203 192
    let tag := fld c.desc 223 208
    let l := t.routeLinks dst
    issues s cx 1 (wantKind 0x12) (s.pinsFor cx c) c →
    (l = [] → exec (.bulkSend cx) s = .next (t.finish id 0x0401 0)) ∧
    (l ≠ [] → exec (.bulkSend cx) s = .next (State.bulkFill { t with links := { t.links with
      bulks := t.links.bulks ++ [⟨id, dst, tag, nth l ((dst + tag) % l.length) 0, fld c.desc 303 256, fld c.desc 351 320, 0⟩] } }
        id))) ∧
  (∀ (s : State) (id : CmdId) (b : Bulk), s.links.bulks.find? (fun x => x.cmd == id) = some b →
    let n := min 256 (b.len - 256 * b.next)
    (s.sched.holder ≠ some id.cx → s.bulkFill id = s) ∧
    (s.sched.holder = some id.cx → s.bulkFill id = iter 64 (fun _ t => t.bulkStep id) s) ∧
    (b.len ≤ 256 * b.next ∨ 64 ≤ s.bulkUnsent b → s.bulkStep id = s) ∧
    (256 * b.next < b.len → s.bulkUnsent b < 64 →
      (∀ st l, st ≠ 0 → s.cvaRead id (b.va + 256 * b.next) n = (st, l) → s.bulkStep id = (s.dropBulk b).finish id st 0) ∧
      (∀ l, s.cvaRead id (b.va + 256 * b.next) n = (0, l) →
        let t := s.noteRead id (s.isLive id.cx) (b.va + 256 * b.next) n
        let sent := t.routeNew 2 b.dst b.tag b.next n (b.len ≤ 256 * b.next + 256) (unmark l)
        (anyPoison l = true → s.bulkStep id = (s.dropBulk b).consumePoison id) ∧
        (anyPoison l = false → sent = none → s.bulkStep id = ((s.dropBulk b).addSat 0x200014 1).finish id 0x0402 0) ∧
        (∀ u link, anyPoison l = false → sent = some (u, link) → s.bulkStep id = { u with links := { u.links with
          bulks := u.links.bulks.map fun x => if x.cmd = id then { x with link := link, next := x.next + 1 } else x } })))) ∧
  (∀ (s : State) (n : Fin 36) (b : BatonWord), s.arrives n b = true → batSeq b = (s.link n).expect →
    let t := (s.accept n b).1
    (batDst b = t.moduleId →
      (batonIs 2 b = true → exec (.bulkBaton n b) s = .next (t.bulkHere b)) ∧
      (batonIs 3 b = true → exec (.doneBaton n b) s = .next (t.bulkEnd (fun k => k.dst == batSrc b && k.tag == batTag b)
        (if bits (batDetail b) 7 0 = 0 then 0 else 0x0400 + bits (batDetail b) 7 0))) ∧
      (batonIs 4 b = true → exec (.unreachBaton n b) s =
        .next (t.bulkEnd (fun k => k.tag == batTag b) (bits (batDetail b) 15 0))) ∧
      (batonIs 8 b = true → exec (.mgmtBaton n b) s =
        .next { t with links := { t.links with mgmtIn := t.links.mgmtIn ++ [b] } })) ∧
    (batDst b ≠ t.moduleId →
      (batonIs 2 b = true → exec (.bulkBaton n b) s = .next (t.forward n b)) ∧
      (batonIs 3 b = true → exec (.doneBaton n b) s = .next (t.forward n b)) ∧
      (batonIs 4 b = true → exec (.unreachBaton n b) s = .next (t.forward n b)) ∧
      (batonIs 8 b = true → exec (.mgmtBaton n b) s = .next (t.forward n b)) ∧
      (batHops b ≤ 1 → t.forward n b = t.discard b) ∧
      (1 < batHops b → ∀ u link, t.route (some n.val) (setBat b 67 62 (batHops b - 1)) = some (u, link) → t.forward n b = u) ∧
      (1 < batHops b → t.route (some n.val) (setBat b 67 62 (batHops b - 1)) = none → t.forward n b = t.discard b))) ∧
  (∀ (s u : State) (b : BatonWord) (st : Nat), (s.landStart b).land b = (u, st) →
    let v := if st = 0x03 then u.addSat 0x200014 1 else u
    let l := v.landing (batSrc b) (batTag b)
    let m : Landing := ⟨l.count + 1, if batLast b then batOffset b + 1 else l.total, if l.status = 0 then st else l.status,
      max l.top (batOffset b + 1)⟩
    let cleared := v.setLanding (batSrc b) (batTag b) ⟨0, 0, 0, 0⟩
    let done := fun (t : State) => t.sendDone (bits (t.reg (landBase (batTag b % 256))) 4 1) (batSrc b) (batTag b) m.status
    (m.total = 0 ∨ m.count < m.total → s.bulkHere b = v.setLanding (batSrc b) (batTag b) m) ∧
    (m.total ≠ 0 → m.total ≤ m.count → m.status = 0 → s.bulkHere b = done cleared) ∧
    (m.total ≠ 0 → m.total ≤ m.count → m.status ≠ 0 → s.bulkHere b = done (cleared.landHavoc (batTag b) m.top)))

/-! ### Groups and collective commands (chapter 11) -/

/-- FORM, REFORM, GROUP_FREE and COLLECTIVE_TIMEOUT: a sound record that meets the limits takes its table entry, with its gid,
generation and members; every refusal of a record comes in its order, with its status, and a reserved op is 0x0501; a freed
group's entry is empty; a member that is missing for longer than the timeout breaks the group with 0x0508. -/
def Obligations.GroupsFormAndBreak : Prop :=
  (∀ (s : State) (cx : Fin 16) (c : Cmd) (op : Nat) (row : Instr),
    (op, row) ∈ [(1, Instr.reduce cx), (2, Instr.bcast cx), (3, Instr.sprint cx), (0x10, Instr.form cx), (0x11, Instr.reform cx),
      (0x12, Instr.groupFree cx)] →
    issues s cx 2 (fun d => wantKind 0x20 d && (collOp d.ext == op || !collNamed (collOp d.ext))) (collPins cx s c) c →
    let x := c.ext
    let id : CmdId := ⟨cx, 2, c.index⟩
    let t := s.markIssued id (collPins cx s c)
    let gi := collGroup x
    let g := t.group cx gi
    let ends := fun (st : Nat) => exec row s = .next (t.finish id st 0)
    (collNamed (collOp x) = false → ends 0x0501) ∧
    (collOp x = op → 0x10 ≤ op → formBad x = true → ends 0x0501) ∧
    (collOp x = op → op = 0x12 → formBad x = false → ∃ u : State, exec row s = .next (u.finish id 0 0) ∧
      u.group cx gi = Group.empty ∧ ∀ k, k ≠ gi → k < 64 → u.group cx k = t.group cx k) ∧
    (∀ again : Bool, op = (if again then 0x11 else 0x10) → collOp x = op → formBad x = false →
      let frozen := again = true ∧ (g.pinned = true ∨ (g.mode ≠ .active ∧ g.mode ≠ .broken))
      (frozen → ends 0x0506) ∧
      (∀ (st st2 : Nat) (head body : Marked), ¬frozen → t.cvaRead id (collSrcVa x) 64 = (st, head) →
        let h := ofBytes (unmark head)
        let ms := membersOf (min (grpMembers h) 4096) (unmark body)
        let stale := again = true ∧ (grpGen h ≠ wrap32 (g.gen + 1) ∨ ms = g.members)
        t.cvaRead id (collSrcVa x + 64) (8 * min (grpMembers h) 4096) = (st2, body) →
        (st = 0x030A ∨ (st = 0 ∧ st2 = 0x030A) → ends 0x030A) ∧
        (¬(st = 0x030A ∨ (st = 0 ∧ st2 = 0x030A)) → (st ≠ 0 ∨ st2 ≠ 0) → ends 0x050A) ∧
        (st = 0 → st2 = 0 →
          ((anyPoison head || anyPoison body) = true → exec row s = .next (t.consumePoison id)) ∧
          (anyPoison head = false → anyPoison body = false →
            (stale → ends 0x0506) ∧
            (¬stale → recordBad t.moduleId h (unmark body) ms = true ∨ t.treePlace ms = none → ends 0x0503) ∧
            (¬stale → recordBad t.moduleId h (unmark body) ms = false →
              ∀ (self : Nat) (kids : List (Nat × Nat)) (iface need : Nat),
              t.treePlace ms = some (self, kids) → stagingOf ms self kids (grpWindow h) = (iface, need) →
              let full := (again = false ∧ g.mode ≠ .free) ∨ (grpPinned h = true ∧ 4 ≤ t.pinnedGroups cx gi)
              let back := if again = true ∧ g.iface = iface then g.staged else 0
              let past := 4194304 < tget t.links.stagingUsed iface 0 - back + need
              let base := if again = true then (t.unbindGroup cx gi).returnStaging cx gi else t
              (full → ends 0x050C) ∧ (¬full → t.gidHeld cx gi (grpGid h) = true → ends 0x050F) ∧
              (¬full → t.gidHeld cx gi (grpGid h) = false → (past → ends 0x0504) ∧
                (¬past → ∃ u : State, exec row s = .next u ∧
                  u = base.startForm id cx gi h ms self kids iface need (sha256 (unmark head ++ unmark body)) ∧
                  (u.group cx gi).gid = grpGid h ∧ (u.group cx gi).members = ms ∧ (u.group cx gi).gen = grpGen h ∧
                  ((u.group cx gi).mode = .forming ∨ (u.group cx gi).mode = .active)))))))) ) ∧
  (∀ (s : State) (cx : Fin 16) (gi : Fin 64),
    ((s.group cx gi).live = false ∨ (s.group cx gi).missing = none → exec (.collectiveTimeout cx gi) s = .next s) ∧
    (∀ m, (s.group cx gi).live = true → (s.group cx gi).missing = some m →
      ∃ t, exec (.collectiveTimeout cx gi) s = .next t ∧ (t.group cx gi).mode = .broken ∧ (t.group cx gi).abort = 0x0508 ∧
        (t.group cx gi).abortMember = m))

/-- REDUCE, BCAST, SPRINT, ADDER_SUM and their batons: at issue the refusals come in their order; a command of an ACTIVE group
becomes its next message, and a broadcast's origin queues its batons; a sum leaves once its inputs and its grant are there, and
waits till then; an accepted tree baton reaches the live group it names, and one that its message does not take, or that it has
already, breaks the group with 0x0509. -/
def Obligations.CollectivesStartAndArrive : Prop :=
  ((∀ (s : State) (cx : Fin 16) (c : Cmd) (op : Nat) (row : Fin 16 → Instr),
     (op, row) ∈ [(1, Instr.reduce), (2, Instr.bcast), (3, Instr.sprint)] →
     let x := c.ext
     let id : CmdId := ⟨cx, 2, c.index⟩
     let t := s.markIssued id (collPins cx s c)
     let gi := collGroup x
     let g := t.group cx gi
     let own := min (t.shape cx (collLen x)) (collCap x)
     let d := stamped s cx (collPins cx s c) c
     let u := (t.startMessage id d).1
     let m := (t.startMessage id d).2
     issues s cx 2 (fun d => wantKind 0x20 d && (collOp d.ext == op || !collNamed (collOp d.ext))) (collPins cx s c) c →
     collOp x = op →
     (collBad g x = true → exec (row cx) s = .next (t.finish id 0x0501 0)) ∧
     (collBad g x = false → t.collOutside id g x own = true → exec (row cx) s = .next (t.finish id 0x050A 0)) ∧
     (collBad g x = false → t.collOutside id g x own = false → t.errorRefused id x = true →
       exec (row cx) s = .next (t.finish id 0x0411 0)) ∧
     (collBad g x = false → t.collOutside id g x own = false → t.errorRefused id x = false →
       (g.mode ≠ .active → exec (row cx) s = .next (t.finish id 0x0502 0)) ∧
       (g.mode = .active → (u.group cx gi).issued = wrap32 (g.issued + 1) ∧ (u.group cx gi).msgs = g.msgs ++ [m] ∧
         m.number = g.issued ∧ m.cap = collCap x ∧ m.emitted = 0 ∧
         (op = 1 → (u.group cx gi).reduceBatons m ≠ 0 → exec (row cx) s = .next u) ∧
         (op = 1 → (u.group cx gi).reduceBatons m = 0 → exec (row cx) s =
           .next ((u.endMessage cx gi m (u.reduceStatus m) (g.self == 0)).finish id (u.reduceStatus m)
             (((u.cmd? id).map Cmd.result).getD 0))) ∧
         (op ≠ 1 → g.self ≠ m.origin → exec (row cx) s = .next (u.castStep cx gi m.number)) ∧
         (op = 2 → g.self = m.origin → exec (row cx) s = .next ((u.castFill cx gi).castStep cx gi m.number)) ∧
         (op = 3 → g.self = m.origin →
           exec (row cx) s = .next ((u.castStep1 cx gi m.number x 0).castStep cx gi m.number))))) ∧
   (∀ (s : State) (cx : Fin 16) (gi : Fin 64) (grants localNs : Nat) (childNs : List Nat) (m : Message) (c : Cmd),
     let g := s.group cx gi
     let t := s.modMsg cx gi m.number fun y => { y with granted := y.granted + grants }
     let u := if g.reduceBatons m ≤ m.emitted then t
       else t.takeWindow cx gi c.ext { m with granted := m.granted + grants }
     g.msgs.find? (fun m => m.op == 1) = some m → s.cmd? m.cmd = some c →
     ∀ (n : Message) (d : Cmd), (u.group cx gi).msgs.find? (fun m => m.op == 1) = some n → u.cmd? n.cmd = some d →
       let k := u.group cx gi
       let e := linkEntries n.fmt k.packed
       let local_ := localPart d.ext n n.emitted (n.emitted * e) (min e (n.cap - n.emitted * e))
       (k.mode ≠ .active ∨ k.reduceBatons n ≤ n.emitted ∨ k.mayEmit n = false ∨ childParts k n n.emitted = none ∨ local_ = none →
         exec (.adderSum cx gi grants localNs childNs) s = .next u) ∧
       (∀ (kids : List BatonWord) (st : Nat) (bad : Bool) (l : List Nat), k.mode = .active → n.emitted < k.reduceBatons n →
         k.mayEmit n = true → childParts k n n.emitted = some kids → local_ = some (st, bad, l) →
         (st = 0 → bad = false → exec (.adderSum cx gi grants localNs childNs) s =
           .next (u.sumOffset cx gi d.ext n kids l (localNs :: childNs))) ∧
         (st = 0 → bad = true → exec (.adderSum cx gi grants localNs childNs) s = .next ((u.notePoison cx).failCmd n.cmd 0x0B01)) ∧
         (st ≠ 0 → exec (.adderSum cx gi grants localNs childNs) s = .next (u.failCmd n.cmd st))))) ∧
  (∀ (s : State) (n : Fin 36) (b : BatonWord), s.arrives n b = true → batSeq b = (s.link n).expect →
    let t := (s.accept n b).1
    let lost := fun (gen : Nat) => ∀ cx gi, t.findGroup (batTag b) gen = some (cx, gi) → (t.group cx gi).across n = none
    (∀ cx gi member : Nat,
      let reach := fun (gen : Nat) => t.findGroup (batTag b) gen = some (cx, gi) ∧ (t.group cx gi).across n = some member
      (batonIs 5 b = true → reach (redGen b) →
        (∀ m, (t.group cx gi).msgFor (redMsg b) = some m →
          let again := m.takes b = false ∨ (∃ i ∈ m.inputs, i.1 = member ∧ i.2.1 = batOffset b)
          (¬again → exec (.reduceBaton n b) s =
            .next (t.modMsg cx gi m.number fun y => { y with inputs := y.inputs ++ [(member, batOffset b, b)] })) ∧
          (again → exec (.reduceBaton n b) s = .next (t.abortGroup cx gi 0x0509 member))) ∧
        ((t.group cx gi).msgFor (redMsg b) = none →
          ((t.group cx gi).earlyHas (redMsg b) (some member) b = false →
            exec (.reduceBaton n b) s = .next (t.keepEarly cx gi (redMsg b) member b)) ∧
          ((t.group cx gi).earlyHas (redMsg b) (some member) b = true →
            exec (.reduceBaton n b) s = .next (t.abortGroup cx gi 0x0509 member)))) ∧
      (batonIs 6 b = true → reach (bcGen b) → exec (.bcastBaton n b) s = .next (t.castArrive cx gi n member (bcMsg b) b)) ∧
      (batonIs 7 b = true → reach (sprGen b) →
        (sprControl b = 0 → exec (.sprintBaton n b) s = .next (t.castArrive cx gi n member (sprMsg b) b)) ∧
        (sprControl b = 1 → exec (.sprintBaton n b) s = .next (t.formUp cx gi member b)) ∧
        (sprControl b = 2 → exec (.sprintBaton n b) s = .next (t.goDown cx gi member)) ∧
        (sprControl b = 3 → exec (.sprintBaton n b) s = .next (t.ackUp cx gi member b)) ∧
        (4 ≤ sprControl b → exec (.sprintBaton n b) s = .next (t.breakGroup cx gi
          (bits (ofBytes (batPayload b)) 15 0) (bits (ofBytes (batPayload b)) 27 16) 0x0505 (some (n.val, b)))))) ∧
    (batonIs 5 b = true → lost (redGen b) → exec (.reduceBaton n b) s = .next t.stale) ∧
    (batonIs 6 b = true → lost (bcGen b) → exec (.bcastBaton n b) s = .next t.stale) ∧
    (batonIs 7 b = true → lost (sprGen b) → exec (.sprintBaton n b) s = .next t.stale))

/-- ST_CTRL, ST_ARM and AB_CLEAR: a stream that no command names is bound to an ACTIVE group with room
for its assembly, refused with 0x10 without it, and unbound with its enable bit clear; ST_ARM marks its error memory
valid; AB_CLEAR clears the arrival bitmaps it selects, and their counts, and no other. -/
def Obligations.StreamsBindAndBitmapsClear : Prop :=
  (∀ (s : State) (w : Writer) (st : Fin 256) (v : Word), permits s w (streamBase st) v.toNat →
    let t := s.unbindStream st
    let x := t.clampReg (streamBase st) (v.toNat &&& 0x3FF0FFF)
    (s.streamIdle st = false → exec (.streamBind w st v) s = .next (s.cfgErr w 1 (streamBase st))) ∧
    (s.streamIdle st = true →
      (bit x 0 = false → exec (.streamBind w st v) s = .next (t.setReg (streamBase st) x)) ∧
      (bit x 0 = true → t.bindOk (bits x 4 1) (bits x 10 5) (bits x 25 16) = true → ∃ u : State,
        exec (.streamBind w st v) s = .next u ∧ (u.stream st).bound = true ∧ (u.stream st).errValid = false ∧
        u.reg (streamBase st) = x ∧ ∀ k, k ≠ st.val → u.stream k = s.stream k) ∧
      (bit x 0 = true → t.bindOk (bits x 4 1) (bits x 10 5) (bits x 25 16) = false → ∃ u : State,
        exec (.streamBind w st v) s = .next u ∧ (u.stream st).bound = false ∧ (u.stream st).refusal = 0x10 ∧
        bit (u.reg (streamBase st)) 0 = false))) ∧
  (∀ (s : State) (w : Writer) (st : Fin 256) (v : Word), permits s w (streamBase st + 0x1C) v.toNat →
    exec (.stArm w st v) s = .next (if flag v 0 then s.setStream st { s.stream st with errValid := true } else s)) ∧
  (∀ (s : State) (w : Writer) (site : Fin 81) (v : Word) (r : Nat), permits s w (siteBase site + 0x488) v.toNat →
    s.rankOf site = some r → ∃ t, exec (.abClear w site v) s = .next t ∧
      t = { s with tiles := { s.tiles with arrival := t.tiles.arrival, chunks := t.tiles.chunks } } ∧
      ∀ b k, b < 8 → k < 4096 →
        (t.tiles.arrival.contains (4096 * (8 * r + b) + k) = (s.tiles.arrival.contains (4096 * (8 * r + b) + k) && !flag v b)))

/-! ### Hosts, packages and the heat sheet (chapters 13 and 14) -/

/-- HOST_COPY, ADMIT and EVICT: bytes from the host land in the context's memory, or leave its destination undefined where they
cannot; bytes to the host leave in order, the poisoned lines marked; a failed access is 0x060D; the owner host's ADMIT makes a
sound package resident, with the guard rails reset, waits while it has not read enough of the head, and refuses each unsound
one with its status; its EVICT takes the package away once no other context runs a command. -/
def Obligations.HostsMoveDataAndPackages : Prop :=
  (∀ (s b : State) (cx : Fin 16) (data : List Byte) (c : Cmd),
    let id : CmdId := ⟨cx, 1, c.index⟩
    let va := fld c.desc 303 256
    let addr := fld c.desc 383 320
    let n := fld c.desc 415 384
    let r := b.hostRead cx addr n false
    works s b cx 1 (wantKind 0x11) (s.pinsFor cx c) c →
    exec (.hostCopy cx data true) s = .next (r.finish id 0x060D 0) ∧
    (flag c.desc 192 = false →
      (data.length ≠ n ∨ b.writeWaits id va n = true → exec (.hostCopy cx data false) s = .next b) ∧
      (data.length = n → b.writeWaits id va n = false → ∀ (u : State) (st : Nat),
        r.cvaWrite id (va / 2097152 % 75) va (clean data) = (u, st) → exec (.hostCopy cx data false) s =
          .next (if st = 0 then u.endWork id 0 n else (u.cvaHavoc id va n).finish id st 0))) ∧
    (flag c.desc 192 = true → ∀ (st : Nat) (l : Marked), b.cvaRead id va n = (st, l) →
      let t := b.noteRead id (b.isLive cx) va n
      let u : State := { t with hosts := { t.hosts with outbox := t.hosts.outbox ++ hostLines (t.ctx cx).port addr l } }
      (st = 0 → anyPoison l = false → exec (.hostCopy cx data false) s = .next (u.finish id 0 n)) ∧
      (st = 0 → anyPoison l = true → exec (.hostCopy cx data false) s = .next ((u.notePoison cx).finish id 0x0B01 n)) ∧
      (st ≠ 0 → exec (.hostCopy cx data false) s = .next (b.finish id st 0)))) ∧
  (∀ (s b : State) (cx : Fin 16) (data : List Byte) (c : Cmd),
    let id : CmdId := ⟨cx, 1, c.index⟩
    let addr := fld c.desc 255 192
    let h := ofBytes (data.take 128)
    let head := data.take (pkHeadBytes h)
    let p := Package.parse h head
    let r := b.hostRead cx addr (pkHeadBytes h) false
    let bad := b.package.isSome || headerBad h || (pkTables h).any (fun e => !tableFits h e)
    works s b cx 1 (wantKind 0x13) [] c →
    (b.ownerCx cx = false → ∀ f, exec (.admitPackage cx data f) s = .next (b.finish id 0x0609 0)) ∧
    (b.ownerCx cx = true → bookSize ≤ b.rel.book.length → ∀ f, exec (.admitPackage cx data f) s = .next (b.finish id 0x0B11 0)) ∧
    (b.ownerCx cx = true → b.rel.book.length < bookSize → sigBudget ≤ b.fw.sigUsed → ∀ f,
      exec (.admitPackage cx data f) s = .next (b.finish id 0x0C12 0)) ∧
    (b.ownerCx cx = true → b.rel.book.length < bookSize → b.fw.sigUsed < sigBudget →
      exec (.admitPackage cx data true) s = .next ((b.hostRead cx addr 128 false).finish id 0x060D 0) ∧
      (data.length < 128 → exec (.admitPackage cx data false) s = .next b) ∧
      (128 ≤ data.length → bad = true →
        exec (.admitPackage cx data false) s = .next ((b.hostRead cx addr 128 false).finish id 0x060B 0)) ∧
      (128 ≤ data.length → bad = false → data.length < pkHeadBytes h → exec (.admitPackage cx data false) s = .next b) ∧
      (128 ≤ data.length → bad = false → pkHeadBytes h ≤ data.length →
        (ofBytes (sha256 (head.drop 128)) ≠ bits h 1023 768 → exec (.admitPackage cx data false) s = .next (r.finish id 0x060B 0)) ∧
        (ofBytes (sha256 (head.drop 128)) = bits h 1023 768 →
          (r.admitChecks p ≠ 0 → exec (.admitPackage cx data false) s = .next (r.finish id (r.admitChecks p) 0)) ∧
          (r.admitChecks p = 0 → ∃ u : State, exec (.admitPackage cx data false) s = .next (u.finish id 0 0) ∧
            u.package = some p ∧ u.rails = ⟨[], [], [], [], false⟩ ∧ u.tiers.heat = [] ∧
            (∀ k, 0x2000 ≤ k → k < 0x3000 → u.reg k = regReset k)))))) ∧
  (∀ (s b : State) (cx : Fin 16) (c : Cmd),
    let id : CmdId := ⟨cx, 1, c.index⟩
    works s b cx 1 (wantKind 0x14) [] c →
    (b.ownerCx cx = false → exec (.evict cx) s = .next (b.finish id 0x0609 0)) ∧
    (b.ownerCx cx = true → (∃ q, q < 8 ∧ (b.seq q).enabled = true) → exec (.evict cx) s = .next (b.finish id 0x060C 0)) ∧
    (b.ownerCx cx = true → (∀ q, q < 8 → (b.seq q).enabled = false) →
      ((∃ i ∈ b.outstanding, i.cx ≠ cx.val) → exec (.evict cx) s = .next b) ∧
      ((∀ i ∈ b.outstanding, i.cx = cx.val) →
        ∃ u : State, exec (.evict cx) s = .next (u.finish id 0 0) ∧ u.package = none ∧ (∀ n, n < 16 → (u.ctx n).slots = []))))

/-- LEG_EDGE, SHARED_QUANTUM_EXPIRY, CONTEXT_SWITCH and DURATION_EXPIRY: a leg that has run its length gives way to the next
one, the last to the first, with a heat counted while the sheet is enabled; where another context should hold the fields a
switch begins; after the overrun and t_sw, and once the links hold no baton of the outgoing context, the switch ends and the
incoming context holds them, if it still should; a command that has run its declared duration is stopped with its status, or
runs on where it has none. -/
def Obligations.SheetTurns : Prop :=
  (∀ s : State, s.sched.halted = false → s.legLen ≤ s.sched.legNs → ∃ t, exec .legEdge s = .next t ∧
    t.sched.legNs = s.sched.legNs - s.legLen ∧ t.sched.spent = [] ∧ t.sched.fresh = [] ∧ t.sched.retrained = [] ∧
    t.sched.leg = (if s.sched.leg + 1 < s.legs.length then s.sched.leg + 1 else 0) ∧
    (s.sched.leg + 1 < s.legs.length → t.sched.heats = s.sched.heats ∧ ∀ k, t.reg k = s.reg k) ∧
    (s.legs.length ≤ s.sched.leg + 1 → bit (s.reg 0x400000) 0 = true → (s.cset 3).pending = none →
      t.sched.heats = wrap32 (s.sched.heats + 1))) ∧
  (∀ s : State, s.sched.halted = true ∨ s.sched.legNs < s.legLen → exec .legEdge s = .next s) ∧
  (∀ s : State, ∃ t, exec .sharedQuantumExpiry s = .next t ∧
    (s.sched.switching = true ∨ s.wantHolder true = s.sched.holder → t = s) ∧
    (s.sched.switching = false → s.wantHolder true ≠ s.sched.holder → t.sched.switching = true ∧
      t.sched.outgoing = s.sched.holder ∧ t.sched.incoming = s.wantHolder true ∧ t.sched.holder = none)) ∧
  (∀ (s : State) (ovr late : Nat),
    let v := if s.sched.outgoing.isSome then ovr else 0
    let wait := v + (if s.sched.incoming.isSome then 12000 else 0)
    let base := match s.sched.outgoing with
      | some c => s.saveOut c v late
      | none => s
    (s.sched.switching = true → wait ≤ s.sched.servedNs → s.sched.outgoing.any s.unsent = false →
      ∃ t u : State, exec (.contextSwitch ovr late) s = .next t ∧ t = u.reschedule false ∧ u.sched.switching = false ∧
        u.sched.holder = (if base.wantHolder false = s.sched.incoming then s.sched.incoming else none) ∧
        ∀ c, s.sched.outgoing = some c →
          tget u.sched.overrun c 0 = max (tget s.sched.overrun c 0) ovr ∧
          tget u.sched.late c 0 = sat32 (tget s.sched.late c 0 + late) ∧
          tget u.sched.debit c 0 = tget s.sched.debit c 0 + (if s.classOf c = 0 then 0 else ovr)) ∧
    (s.sched.switching = false ∨ s.sched.servedNs < wait ∨ s.sched.outgoing.any s.unsent = true →
      exec (.contextSwitch ovr late) s = .next s)) ∧
  (∀ (s : State) (cx : Fin 16) (ring : Fin 4),
    (s.expired cx ring = none → exec (.durationExpiry cx ring) s = .next s) ∧
    ∀ c, s.expired cx ring = some c →
      let id : CmdId := ⟨cx, ring, c.index⟩
      (c.issued = false → s.waitStatus id c ≠ 0 → exec (.durationExpiry cx ring) s = .next (s.finish id (s.waitStatus id c) 0)) ∧
      (c.issued = true → s.workStatus id c ≠ 0 → exec (.durationExpiry cx ring) s = .next (s.stopCmd id c (s.workStatus id c))) ∧
      ((if c.issued then s.workStatus id c else s.waitStatus id c) = 0 → exec (.durationExpiry cx ring) s = .next s))

/-! ### Media engines and playout (chapter 15) -/

/-- STREAM_OPEN, STREAM_CLOSE, ENCODE, DECODE, MEDIA_FRAME_START and MEDIA_FRAME_DONE: a sound record opens its free slot, a
live one on an engine with room; the holder closes it; a frame whose record and ranges fit waits for an engine; each check
refuses with its own status; a free engine starts the frame that is due first, and is free again after it, its cycles, at most
the bound of the stream, counted; a frame that waits for a reclaim or a copy does not end yet. -/
def Obligations.MediaStreamsWork : Prop :=
  (∀ (s : State) (cx : Fin 16) (c : Cmd),
    let x := c.ext
    let id : CmdId := ⟨cx, 3, c.index⟩
    let t := s.markIssued id (mediaPins cx s c)
    (issues s cx 3 (wantKind 0x30) (mediaPins cx s c) c →
      let ends := fun (st : Nat) => exec (.streamOpen cx) s = .next (t.finish id st 0)
      let opens := fun (e : Option Nat) => exec (.streamOpen cx) s = .next
        ((State.setMstream (t.cvaHavoc id (srPoolVa x) (srPoolBytes x)) (srSlot x) (MStream.start cx x e)).finish id 0 0)
      (streamBad x = true → ends 0x0801) ∧
      (streamBad x = false → streamOutside x = true → ends 0x0802) ∧
      (streamBad x = false → streamOutside x = false →
        ((t.mstream (srSlot x)).isOpen = true → ends 0x0803) ∧
        ((t.mstream (srSlot x)).isOpen = false →
          (poolShort x = true ∨ t.mappedOk id true (srPoolVa x) (srPoolBytes x) ≠ 0 → ends 0x0805) ∧
          (poolShort x = false → t.mappedOk id true (srPoolVa x) (srPoolBytes x) = 0 →
            (srLive x = false → opens none) ∧ (∀ e, srLive x = true → t.bindEngine x = some e → opens (some e)) ∧
            (srLive x = true → t.bindEngine x = none → ends 0x0804))))) ∧
    (issues s cx 3 (wantKind 0x31) (mediaPins cx s c) c →
      let n := fld c.desc 197 192
      let p := srPort (t.mstream n).record
      (t.streamHeld cx n = true → (p = 0 ∨ t.poQuiet (p - 1) = true) →
        exec (.streamClose cx) s = .next ((t.setMstream n MStream.empty).finish id 0 0)) ∧
      (t.streamHeld cx n = false → exec (.streamClose cx) s = .next (t.finish id 0x0803 0)) ∧
      (t.streamHeld cx n = true → p ≠ 0 → t.poQuiet (p - 1) = false →
        exec (.streamClose cx) s = .next (t.finish id 0x0905 0))) ∧
    (∀ enc : Bool, issues s cx 3 (wantKind (if enc then 0x32 else 0x33)) (mediaPins cx s c) c →
      let m := (t.mstream (frStream x)).record
      let row := if enc then Instr.encode cx else Instr.decode cx
      let st := firstStatus [t.rangesBad id enc [(frBitsVa x, frBitsBytes x)], t.rangesBad id (!enc) (sfRows (frSurface x)),
        t.rangesBad id false (if enc then hintRows m x else [])]
      (t.streamHeld cx (frStream x) = false → exec row s = .next (t.finish id 0x0803 0)) ∧
      (t.streamHeld cx (frStream x) = true → frameBad m x enc = true → exec row s = .next (t.finish id 0x0801 0)) ∧
      (t.streamHeld cx (frStream x) = true → frameBad m x enc = false →
        (st ≠ 0 → exec row s = .next (t.finish id st 0)) ∧
        (st = 0 → exec row s = .next { t with media := { t.media with
          waiting := t.media.waiting ++ [⟨id, frStream x, t.nowNs, false, false, none⟩] } })))) ∧
  (∀ (s : State) (eng : Fin 24),
    ((s.engine eng).running.isSome ∨ (s.engine eng).retired = true ∨ s.nextFrame eng = none →
      exec (.mediaFrameStart eng) s = .next s) ∧
    ∀ f : MFrame, (s.engine eng).running = none → (s.engine eng).retired = false → s.nextFrame eng = some f →
      ∃ t, exec (.mediaFrameStart eng) s = .next t ∧ ((t.engine eng).running.map MFrame.cmd) = some f.cmd ∧
        (∀ g ∈ t.media.waiting, g.cmd ≠ f.cmd) ∧ ∀ n, n ≠ eng.val → t.engine n = s.engine n) ∧
  (∀ (s : State) (eng : Fin 24), ((s.engine eng).running = none → exec (.mediaFrameEnd eng) s = .next s) ∧
    ∀ f : MFrame, (s.engine eng).running = some f →
      let n := s.frameCycles f
      let t := s.freeEngine eng f n
      n ≤ srFrameNs (s.mstream f.slot).record ∧ (t.engine eng).running = none ∧
      (t.engine eng).cycles = (s.engine eng).cycles + n ∧
      (s.cmd? f.cmd = none → exec (.mediaFrameEnd eng) s = .next t) ∧
      ∀ c : Cmd, s.cmd? f.cmd = some c →
        let u := t.noteReads f.cmd true (s.frameReads f c)
        ((∃ r ∈ s.frameWrites f c, s.writeWaits f.cmd r.1 r.2 = true) → exec (.mediaFrameEnd eng) s = .next s) ∧
        ((∀ r ∈ s.frameWrites f c, s.writeWaits f.cmd r.1 r.2 = false) →
          (∀ p, f.slate = some p → exec (.mediaFrameEnd eng) s = .next (u.slateDone f c p)) ∧
          (f.slate = none → srDecode (s.mstream f.slot).record = true →
            exec (.mediaFrameEnd eng) s = .next (u.decodeDone f c)) ∧
          (f.slate = none → srDecode (s.mstream f.slot).record = false →
            exec (.mediaFrameEnd eng) s = .next (u.encodeDone f c))))

/-- PLAY_START, PLAY_STOP, PLAY_QUEUE, SLATE, PLAYOUT_FRAME_TAKE, PLAYOUT_PACKET_SEND, RUN_OUT_LIMIT, PTP_SYNC and
PTP_SYNC_LOSS: the port's owner arms an idle port that has a slate, queues surfaces of its raster, at most 8, stores the slate
or has it coded, and stops the port; at an alignment point the port sends its queue's head, else a repeat, else the slate, and
after the slate its repeats; each packet is counted, and its sequence number is free after the frame's last; the clock is
locked once settled, and in holdover after a loss or a change of master. -/
def Obligations.PlayoutPortsRun : Prop :=
  (∀ (s : State) (cx : Fin 16) (c : Cmd),
    let id : CmdId := ⟨cx, 3, c.index⟩
    let t := s.markIssued id (mediaPins cx s c)
    let p := cmdPort c
    let q := t.po p
    let v := fld c.ext 255 0
    (issues s cx 3 (wantKind 0x34) (mediaPins cx s c) c →
      (t.poOwner p ≠ cx → exec (.playStart cx) s = .next (t.finish id 0x0903 0)) ∧
      (t.poOwner p = cx → t.setClosed (4 + p) = true → q.mode = .idle → q.slate.isSome = true →
        exec (.playStart cx) s = .next ((t.setPo p { q with mode := .armed }).finish id 0 0)) ∧
      (t.poOwner p = cx → (t.setClosed (4 + p) = false ∨ q.mode ≠ .idle ∨ q.slate = none) →
        exec (.playStart cx) s = .next (t.finish id 0x0902 0))) ∧
    (issues s cx 3 (wantKind 0x35) (mediaPins cx s c) c →
      (t.poOwner p ≠ cx → exec (.playStop cx) s = .next (t.finish id 0x0903 0)) ∧
      (t.poOwner p = cx → exec (.playStop cx) s = .next (t.runOut p (some id)) ∧
        (q.mode = .idle ∨ q.mode = .hold → t.runOut p (some id) = t.finish id 0 0) ∧
        (q.mode = .armed ∨ q.mode = .running → t.runOut p (some id) = (t.setPo p { q with
          mode := .runOut, stop := some id, runOutNs := 0
          ending := !t.poCompressed p || q.showing == .slate || q.showing == .nothing }).poEnd p))) ∧
    (∀ b : State, works s b cx 3 (wantKind 0x36) (mediaPins cx s c) c →
      let q := b.po p
      let st := b.rangesBad id false (sfRows v)
      let mine := b.poOwner p = cx ∧ b.poCompressed p = false ∧ (q.mode = .armed ∨ q.mode = .running)
      (¬mine → exec (.playQueue cx) s = .next (b.finish id 0x0903 0)) ∧
      (mine → b.poSurfaceOk p v = false → exec (.playQueue cx) s = .next (b.finish id 0x0904 0)) ∧
      (mine → b.poSurfaceOk p v = true → st ≠ 0 → exec (.playQueue cx) s = .next (b.finish id st 0)) ∧
      (mine → b.poSurfaceOk p v = true → st = 0 →
        (q.queue.length < 8 → exec (.playQueue cx) s = .next ((b.setPo p { q with
          queue := q.queue ++ [⟨q.nextSeq, v, [], false, false, 0, 0⟩], nextSeq := wrap32 (q.nextSeq + 1) }).finish id 0 q.nextSeq)) ∧
        (8 ≤ q.queue.length → exec (.playQueue cx) s = .next b))) ∧
    (issues s cx 3 (wantKind 0x37) (mediaPins cx s c) c →
      let m := (t.mstream (t.poSlot p)).record
      let suits := surfaceBad v = false ∧ sfLayout v = b2n (srTenBit m) ∧ sfWidth v = srWidth m ∧ sfHeight v = srHeight m
      let st := t.rangesBad id false (sfRows v)
      (t.poOwner p ≠ cx → exec (.slate cx) s = .next (t.finish id 0x0903 0)) ∧
      (t.poOwner p = cx → t.poCompressed p = true →
        (t.streamHeld cx (t.poSlot p) = false → exec (.slate cx) s = .next (t.finish id 0x0803 0)) ∧
        (t.streamHeld cx (t.poSlot p) = true → ¬suits → exec (.slate cx) s = .next (t.finish id 0x0801 0)) ∧
        (t.streamHeld cx (t.poSlot p) = true → suits → st ≠ 0 → exec (.slate cx) s = .next (t.finish id st 0)) ∧
        (t.streamHeld cx (t.poSlot p) = true → suits → st = 0 → exec (.slate cx) s =
          .next { t with media := { t.media with
            waiting := t.media.waiting ++ [⟨id, t.poSlot p, t.nowNs, false, false, some p⟩] } })) ∧
      (t.poOwner p = cx → t.poCompressed p = false →
        (t.poSurfaceOk p v = false → exec (.slate cx) s = .next (t.finish id 0x0904 0)) ∧
        (∀ (st : Nat) (l : Marked), t.poSurfaceOk p v = true → t.readRanges id (sfRows v) = (st, l) →
          (st = 0 → anyPoison l = false → exec (.slate cx) s = .next (((t.noteReads id true (sfRows v)).setPo p { q with
            slate := some ⟨0, 0, unmark l, false, true, 0, 0⟩ }).finish id 0 0)) ∧
          (st = 0 → anyPoison l = true → exec (.slate cx) s = .next (t.consumePoison id)) ∧
          (st ≠ 0 → exec (.slate cx) s = .next (t.finish id (mediaStatus st) 0)))))) ∧
  (∀ (s : State) (po : Fin 2) (k : Nat),
    let t := if s.poQuiet po then s else s.commitPoint (4 + po)
    let q := t.po po
    (q.mode = .armed → q.clock = .locked → q.queue ≠ [] →
      exec (.playoutFrameTake ⟨po, k⟩) s = .next ((t.setPo po { q with mode := .running }).poSend po k)) ∧
    (q.mode = .running ∨ (q.mode = .runOut ∧ q.ending = false) → exec (.playoutFrameTake ⟨po, k⟩) s = .next (t.poSend po k)) ∧
    (q.mode = .idle ∨ q.mode = .hold ∨ (q.mode = .armed ∧ (q.clock ≠ .locked ∨ q.queue = [])) ∨
        (q.mode = .runOut ∧ q.ending = true) →
      exec (.playoutFrameTake ⟨po, k⟩) s = .next t)) ∧
  (∀ (s : State) (po k : Nat), po < 2 → (s.po po).entering = none →
    (∀ f r, (s.po po).queue = f :: r → ((s.poSend po k).po po).queue = r ∧ ((s.poSend po k).po po).last = some f ∧
      ((s.poSend po k).po po).showing = .real ∧ ((s.poSend po k).po po).repeats = 0 ∧
      (s.poSend po k).reg (poBase po + 0x4C) = wrap32 (s.reg (poBase po + 0x4C) + 1)) ∧
    ((s.po po).queue = [] → (s.po po).showing ≠ .slate → (s.po po).repeats < s.poRepeatMax po →
      ((s.poSend po k).po po).showing = .repeated ∧ ((s.poSend po k).po po).repeats = (s.po po).repeats + 1 ∧
      (s.poSend po k).reg (poBase po + 0x50) = sat32 (s.reg (poBase po + 0x50) + 1)) ∧
    ((s.po po).queue = [] → ((s.po po).showing ≠ .slate ∧ s.poRepeatMax po ≤ (s.po po).repeats) ∨
        ((s.po po).showing = .slate ∧ 15 ≤ (s.po po).sinceSlate) →
      ((s.poSend po k).po po).showing = .slate ∧ ((s.poSend po k).po po).sinceSlate = 0 ∧
      (s.poSend po k).reg (poBase po + 0x54) = sat32 (s.reg (poBase po + 0x54) + 1)) ∧
    ((s.po po).queue = [] → (s.po po).showing = .slate → (s.po po).sinceSlate < 15 →
      ((s.poSend po k).po po).showing = .slate ∧ ((s.poSend po k).po po).sinceSlate = (s.po po).sinceSlate + 1 ∧
      (s.poSend po k).reg (poBase po + 0x50) = sat32 (s.reg (poBase po + 0x50) + 1))) ∧
  (∀ (s : State) (po : Fin 2),
    let q := s.po po
    let late := 2000000000 * (s.poRate po).1 ≤ q.runOutNs * (s.poRate po).1 + 1000000000 * (s.poRate po).2
    (q.packets = [] → exec (.playoutPacketSend po) s = .next s) ∧
    (∀ k rest, q.packets = k :: rest → exec (.playoutPacketSend po) s = .next ((s.setPo po { q with
      packets := rest, wire := some k, packetsSent := wrap32 (q.packetsSent + 1)
      freeSeq := if k.last then k.seq else q.freeSeq }).poEnd po)) ∧
    (q.mode = .runOut → late → exec (.runOutLimit po) s = .next ((s.setPo po { q with ending := true }).poEnd po)) ∧
    (q.mode ≠ .runOut ∨ ¬late → exec (.runOutLimit po) s = .next s) ∧
    (q.mode = .runOut → q.ending = true → q.packets = [] → (s.cset (4 + po)).pending = none →
      ((s.poEnd po).po po).mode = .idle ∧ ((s.poEnd po).po po).queue = []) ∧
    (q.mode ≠ .runOut ∨ q.ending = false ∨ q.packets ≠ [] → s.poEnd po = s) ∧
    (∀ (off : Word) (settled newMaster : Bool), exec (.ptpSync po off settled newMaster) s =
      .next ((s.setReg (poBase po + 0x5C) off.toNat).setPo po { q with clock :=
        if newMaster then .holdover else if settled then .locked
        else if q.clock = .holdover then .holdover else .unlocked })) ∧
    exec (.ptpSyncLoss po) s = .next (s.setPo po { q with clock := .holdover }))

/-! ### Faults, spares and the logbook (chapter 17) -/

/-- PARITY_FAULT and HEARTBEAT_MISS act as Table 17.2 and R454 say for their place: a resend is counted, a path or checksum
whose last resend fails completes the ring's command with 0x0B02 or 0x0B04, a heat-cache unit is dropped, a line or codeword
is poisoned, a core, a field, a port or a media frame is lost, a link retrains. -/
def Obligations.FaultsActAtTheirPlace : Prop :=
  (∀ (s : State) (site : Fin 81) (cx : Fin 16) (ring : Fin 4) (n : Nat),
    (n < 4 → exec (.parityFault (.path site cx ring n)) s = .next (s.addSat 0x60011C (min n 3))) ∧
    (4 ≤ n → exec (.parityFault (.path site cx ring n)) s =
      .next (((s.addSat 0x60011C 3).faultCmd cx ring 0x0B02).pathFailed site)) ∧
    (n < 4 → exec (.parityFault (.checksum cx ring n)) s = .next (s.addSat 0x600124 n)) ∧
    (4 ≤ n → exec (.parityFault (.checksum cx ring n)) s = .next ((s.addSat 0x600124 4).faultCmd cx ring 0x0B04))) ∧
  (∀ (s : State) (rank : Fin 75) (unit line : Nat),
    ((∃ u ∈ tget s.tiers.heat rank [], u.unit = unit) → ∃ t, exec (.parityFault (.heatCache rank unit)) s = .next t ∧
      t.reg 0x600120 = sat32 (s.reg 0x600120 + 1) ∧ (∀ u ∈ tget t.tiers.heat rank [], u.unit ≠ unit) ∧ t.memory = s.memory) ∧
    ((∀ u ∈ tget s.tiers.heat rank [], u.unit ≠ unit) → exec (.parityFault (.heatCache rank unit)) s = .next s) ∧
    (line < 786432 → 786432 * rank + line ∉ s.memory.poisonLines → ∃ t, exec (.parityFault (.infieldLine rank line)) s = .next t ∧
      (∀ m, m ∈ t.memory.poisonLines ↔ m = 786432 * rank + line ∨ m ∈ s.memory.poisonLines) ∧
      t.memory.infield = s.memory.infield ∧ t.memory.store = s.memory.store ∧
      t.reg 0x600114 = sat32 (s.reg 0x600114 + 1)) ∧
    (∀ lines, exec (.parityFault (.engineState rank line lines)) s =
      .next (iter lines (fun i t => t.lineFault rank (line + i)) s)) ∧
    (∀ addr symbols, exec (.parityFault (.stackWord rank addr symbols)) s = .next (s.symbolFault rank addr symbols))) ∧
  (∀ (s : State) (site : Fin 81) (core : Fin 4096) (eng : Fin 24) (link : Fin 36) (p : Fin 4),
    exec (.parityFault (.core site core)) s = exec (.coreLost site core) s ∧
    exec (.parityFault (.controller site)) s = exec (.fieldLost site) s ∧
    exec (.heartbeatMiss (.fieldController site)) s = exec (.fieldLost site) s ∧
    exec (.heartbeatMiss (.lapCounter site)) s = exec (.fieldLost site) s ∧
    exec (.parityFault (.linkState link)) s = exec (.linkRetrain link) s ∧
    exec (.heartbeatMiss (.link link)) s = exec (.linkRetrain link) s ∧
    exec (.parityFault (.hostPort p)) s = exec (.heartbeatMiss (.hostPort p)) s ∧
    exec (.parityFault (.hostPort p)) s = .next (if s.portUp p then (s.portDown p).interrupt 0 true else s) ∧
    exec (.parityFault (.media eng)) s = exec (.heartbeatMiss (.media eng)) s ∧
    (∀ f, (s.engine eng).running = some f → (s.engine eng).retired = false → ∃ t, exec (.parityFault (.media eng)) s = .next t ∧
      (t.engine eng).running = none ∧ (t.engine eng).lostAt = some s.module.lifeSeconds))

/-- FIELD_LOST: a site that holds a rank leaves service with it; every kernel ends, every READY context faults (with 0x0B03
where no kernel ran), every sequence is disabled, the rank's infield lines read as poison, the package stays, an interrupting
event is recorded, and where RL_CTRL[0] is set substitution begins with the lowest spare site, or waits for the one in progress;
an activation under way is undone first; the loss of a spare site takes it out of the reserve. -/
def Obligations.LostFieldsTakeTheirRank : Prop :=
  (∀ (s : State) (site : Fin 81) (r : Nat), (s.site site).use = .active → (s.site site).rank = some r →
    s.activationDue = false → ∃ t, exec (.fieldLost site) s = .next t ∧
      (t.site site).use = .out ∧ (t.site site).rank = none ∧ (∀ n, n ≠ site.val → t.site n = s.site n) ∧
      (r, site.val) ∈ t.rel.missing ∧ (∀ n, t.kernel n = none) ∧ (∀ q, q < 8 → (t.seq q).enabled = false) ∧
      (∀ cx, cx < 16 → (s.ctx cx).mode = .ready → (t.ctx cx).mode = .faulted ∧
        ((∀ n, s.kernel n = none) → (t.ctx cx).status = 0x0B03)) ∧
      (∀ l, l < 786432 → 786432 * r + l ∈ t.memory.poisonLines) ∧ t.package = s.package ∧
      s.rel.events < t.rel.events ∧ t.module.faultLow = true ∧
      (bit (s.reg 0x600100) 0 = false → ¬(s.rel.subst = .mirror ∧ s.rel.oldSite = site) → t.rel.subst = s.rel.subst) ∧
      (s.rel.subst = .mirror → s.rel.oldSite = site → t.rel.subst = .unplanned) ∧
      (bit (s.reg 0x600100) 0 = true → s.rel.subst = .idle → ∀ n, s.spareSites.head? = some n →
        t.rel.subst = .unplanned ∧ t.rel.oldSite = site ∧ t.rel.newSite = n ∧ t.rel.moving = r) ∧
      (bit (s.reg 0x600100) 0 = true → s.rel.subst ≠ .idle → ¬(s.rel.subst = .mirror ∧ s.rel.oldSite = site) →
        t.rel.subst = s.rel.subst ∧ t.rel.waiting = s.rel.waiting ++ [(r, site.val)])) ∧
  (∀ (s : State) (site : Fin 81) (r : Nat), (s.site site).use = .active → (s.site site).rank = some r → s.activationDue = true →
    exec (.fieldLost site) s =
      .next ((((s.undoActivation.takeDown site r).logLoss site).interrupt 0x0B03 true).substAfter site r)) ∧
  (∀ (s : State) (site : Fin 81), (s.site site).use = .spare → ∃ t, exec (.fieldLost site) s = .next t ∧
    (t.site site).use = .out ∧ t.memory = s.memory ∧ t.rel.events = s.rel.events ∧ (∀ n, n ≠ site.val → t.site n = s.site n)) ∧
  (∀ (s : State) (site : Fin 81), (s.site site).use = .out → exec (.fieldLost site) s = .next s)

/-- PLANNED_SUBST_START, SUBST_DRAIN, UNPLANNED_SUBST_DONE and WEIGHT_REBUILD_DONE: a planned substitution begins its mirror
with the lowest spare site or is refused with 0x0B10; at its end, as at an unplanned one's, the spare holds the rank with a stack
of its own, the site epoch has risen, and none is in progress, unless a loss that waited has its own begin; a planned one
changes no byte. -/
def Obligations.SubstitutionsMoveRanks : Prop :=
  (∀ (s : State) (w : Writer) (v : Word), permits s w 0x600104 v.toNat →
    let n := bits v.toNat 6 0
    (flag v 7 = false → exec (.plannedSubstStart w v) s = .next s) ∧
    (flag v 7 = true → s.activationDue = true →
      exec (.plannedSubstStart w v) s = .next { s with fw := { s.fw with heldSubst := some n } }) ∧
    (flag v 7 = true → s.activationDue = false →
      (∀ m r, s.spareSites.head? = some m → (s.site n).rank = some r → s.rel.subst = .idle → n < 81 →
        exec (.plannedSubstStart w v) s = .next { s with rel := { s.rel with
          subst := .mirror, oldSite := n, newSite := m, moving := r, status := 0 } }) ∧
      (s.spareSites = [] ∨ (s.site n).rank = none ∨ s.rel.subst ≠ .idle →
        exec (.plannedSubstStart w v) s = .next { s with rel := { s.rel with status := 0x0B10 } }))) ∧
  (∀ s : State,
    (s.rel.subst = .mirror → exec .substDrain s = .next ((((s.withdraw.applyHeld s.rel.moving).retireSite
      s.rel.oldSite).takeRank s.rel.oldSite s.rel.newSite s.rel.moving true).endSubst 0)) ∧
    (s.rel.subst = .unplanned → exec .unplannedSubstDone s =
      .next ((s.takeRank s.rel.oldSite s.rel.newSite s.rel.moving false).endSubst 0)) ∧
    ∀ r l st, s.rel.waiting = r :: l →
      s.endSubst st = ({ s with rel := { s.rel with subst := .idle, status := st } } : State).beginUnplanned r.2 r.1) ∧
  (∀ s : State, s.rel.waiting = [] → s.rel.oldSite ≠ s.rel.newSite →
    (s.rel.subst = .mirror → s.tiers.heldWrites = [] → ∃ t, exec .substDrain s = .next t ∧
      (t.site s.rel.newSite).use = .active ∧ (t.site s.rel.newSite).rank = some s.rel.moving ∧
      (t.site s.rel.oldSite).use = .out ∧ (t.site s.rel.oldSite).rank = none ∧
      t.module.siteEpoch = wrap32 (s.module.siteEpoch + 1) ∧ t.rel.subst = .idle ∧ t.rel.status = 0 ∧
      t.rel.moves = s.rel.moves ++ [(s.rel.oldSite, s.rel.newSite, s.rel.moving)] ∧
      t.memory = s.memory ∧ t.stack s.rel.moving = Stack.empty ∧ t.sched = s.sched ∧
      (∀ n, n ≠ s.rel.oldSite → n ≠ s.rel.newSite → t.site n = s.site n)) ∧
    (s.rel.subst = .unplanned → ∃ t, exec .unplannedSubstDone s = .next t ∧
      (t.site s.rel.newSite).use = .active ∧ (t.site s.rel.newSite).rank = some s.rel.moving ∧
      (∀ p ∈ t.rel.missing, p.1 ≠ s.rel.moving) ∧ t.module.siteEpoch = wrap32 (s.module.siteEpoch + 1) ∧ t.rel.subst = .idle ∧
      t.memory = s.memory ∧ (t.stack s.rel.moving).weightMissing = (s.weightGib != 0) ∧
      (∀ n, n ≠ s.rel.newSite → t.site n = s.site n))) ∧
  (∀ s : State, (s.rel.subst ≠ .mirror → exec .substDrain s = .next s) ∧
    (s.rel.subst ≠ .unplanned → exec .unplannedSubstDone s = .next s)) ∧
  (∀ (s : State) (r : Fin 75), (s.siteOf r).isSome → ∃ t, exec (.weightRebuildDone r) s = .next t ∧
    t.stack r = { s.stack r with weightMissing := false } ∧ (∀ q, q ≠ r.val → t.stack q = s.stack q) ∧ t.memory = s.memory)

/-- The logbook's requests: LEASE_MARK, CHECKPOINT_REQUEST, GRADE and USAGE_RECORD append a record of
Table 17.6's layout, a marking one with a signed checkpoint after it; a full book takes none. RL_EVENTS_READ releases FAULT_N
(R506). -/
def Obligations.LogbookRecordsAreAppended : Prop :=
  (∀ (s : State) (w : Writer), s.rel.book.length + 1 < bookSize → s.fw.sigUsed < sigBudget →
    (permits s w 0x700120 1 → ∃ (t : State) (ck : BitVec 1024) (l : List (BitVec 1024)), exec (.leaseMark w) s = .next t ∧
      t.rel.book = s.rel.book ++ BitVec.ofNat 1024 (recordOf s 0xA0 0 0 0 s.markBytes) :: ck :: l ∧
      fld ck 63 48 = 0xF0 ∧ t.fw.sigUsed = s.fw.sigUsed + 1 ∧ t.rel.signatures.length = s.rel.signatures.length + 1) ∧
    (permits s w 0x700120 4 → ∃ (t : State) (rec ck : BitVec 1024) (l : List (BitVec 1024)), exec (.grade w) s = .next t ∧
      t.rel.book = s.rel.book ++ rec :: ck :: l ∧ fld rec 63 48 = 0xA1 ∧ fld rec 257 256 = s.gradeNow ∧
      fld ck 63 48 = 0xF0 ∧ t.fw.sigUsed = s.fw.sigUsed + 1) ∧
    (permits s w 0x700120 2 → ∃ (t : State) (ck : BitVec 1024) (l : List (BitVec 1024)), exec (.checkpointRequest w) s = .next t ∧
      t.rel.book = s.rel.book ++ ck :: l ∧ fld ck 63 48 = 0xF0 ∧ fld ck 271 256 = s.rel.signatures.length % 16384 ∧
      t.fw.sigUsed = s.fw.sigUsed + 1)) ∧
  (∀ (s : State) (kwh hot : BitVec 32) (inlet : BitVec 16), s.rel.book.length < bookSize → ∃ (t : State) (l : List (BitVec 1024)),
    exec (.usageRecord kwh hot inlet) s = .next t ∧
    t.rel.book = s.rel.book ++ BitVec.ofNat 1024 (recordOf s 2 0 0 0 (kwh.toNat + 2 ^ 32 * hot.toNat +
      2 ^ 64 * (s.rel.criticals % 2 ^ 32) + 2 ^ 96 * (s.rel.events % 2 ^ 32) + 2 ^ 128 * inlet.toNat +
      2 ^ 160 * (s.correctedAll % 2 ^ 32))) :: l) ∧
  (∀ (s : State) (w : Writer) (kwh hot : BitVec 32) (inlet : BitVec 16), bookSize ≤ s.rel.book.length →
    (permits s w 0x700120 1 → ∃ t, exec (.leaseMark w) s = .next t ∧ t.rel.book = s.rel.book) ∧
    ∃ t, exec (.usageRecord kwh hot inlet) s = .next t ∧ t.rel.book = s.rel.book) ∧
  (∀ (s : State) (ty status kind unit data : Nat), ty < 65536 → status < 65536 → kind < 256 → unit < 2 ^ 24 →
    s.rel.book.length < 2 ^ 64 →
    let r := BitVec.ofNat 1024 (recordOf s ty status kind unit data)
    fld r 15 0 = 0x424C ∧ fld r 31 16 = 0 ∧ fld r 47 32 = status ∧ fld r 63 48 = ty ∧ fld r 87 64 = unit ∧ fld r 95 88 = kind ∧
    fld r 127 96 = s.module.bootCount % 2 ^ 32 ∧ fld r 191 128 = s.module.lifeSeconds % 2 ^ 64 ∧
    fld r 255 192 = s.rel.book.length ∧ fld r 767 256 = data % 2 ^ 512 ∧
    (∀ p, s.rel.book.getLast? = some p → fld r 1023 768 = ofBytes (sha256 (toBytes 128 p.toNat))) ∧
    (s.rel.book = [] → fld r 1023 768 = 0)) ∧
  (∀ (s : State) (w : Writer), s.reaches w → exec (.rlEventsRead w) s =
    .next { s with module := { s.module with faultLow := false } })

/-- TM_DATA_WRITE and TM_COMMIT: a calibration word written while no package is resident stands in the staging
copy; a structural word, or any word beside a package, is refused with 0x0B12; a commit writes the staging copy to the boot
store, counts it and logs it, and leaves the set in effect, and one outside the limit table is refused with 0x0D05. -/
def Obligations.TrimWordsAreStaged : Prop :=
  (∀ (s : State) (w : Writer) (v : Word), permits s w 0x600008 v.toNat →
    (s.package.isSome → exec (.tmDataWrite w v) s = .next ((s.cfgErr w 1 0x600008).provStatus 0x0B12)) ∧
    (s.package = none → s.trimSel w < 4096 →
      exec (.tmDataWrite w v) s = .next { s with rel := { s.rel with provStatus := 0x0B12 } }) ∧
    (s.package = none → 4096 ≤ s.trimSel w → ∃ t, exec (.tmDataWrite w v) s = .next t ∧
      (∀ n, t.trimStaged n = if n = s.trimSel w then v else s.trimStaged n) ∧ (∀ n, t.trimNow n = s.trimNow n) ∧
      (∀ n, t.trimStored n = s.trimStored n))) ∧
  (∀ (s : State) (w : Writer) (v : Word), permits s w 0x60000C v.toNat →
    (flag v 0 = false → exec (.tmCommit w v) s = .next s) ∧
    (flag v 0 = true → trimOutside s.trimStaged = true →
      exec (.tmCommit w v) s = .next { s with rel := { s.rel with provStatus := 0x0D05 } }) ∧
    (flag v 0 = true → trimOutside s.trimStaged = false → tabWf s.rel.staging none → ∃ t, exec (.tmCommit w v) s = .next t ∧
      (∀ n, t.trimStored n = s.trimStaged n) ∧ (∀ n, t.trimNow n = s.trimNow n) ∧ t.rel.staging = [] ∧
      t.rel.storedOrigin = 1 ∧ t.rel.provWrites = s.rel.provWrites + 1 ∧
      (s.rel.book.length < bookSize → ∃ l, t.rel.book = s.rel.book ++
        BitVec.ofNat 1024 (recordOf s 0x80 0 0 0 (trimHash s.trimStaged)) :: l)))

/-! ### Firmware, identity and the wipe (chapter 18) -/

/-- FU_CTRL's commands and the activation: a session belongs to one party; a piece is checked and stored,
an image is verified once whole; a slot arms where it may; activation makes the armed slot the active one or is undone;
commit blows fuses up to the active image's version; a certificate that fits renews the key. -/
def Obligations.FirmwareIsDelivered : Prop :=
  (∀ (s : State) (w : Writer) (v : Word), permits s w 0x780000 v.toNat →
    let refuse : Nat → Out := fun st => .next { s with fw := { s.fw with status := st } }
    let n := bits v.toNat 4 4
    (fld v 3 0 = 1 →
      (s.fuOther w = true ∨ s.fw.mode = .armed ∨ s.fw.mode = .activating → exec (.fuOpen w v) s = refuse 0x0C01) ∧
      (s.fuOther w = false → s.fw.mode ≠ .armed → s.fw.mode ≠ .activating → s.fw.loading = false →
        ∃ t, exec (.fuOpen w v) s = .next t ∧ t.fw.holder = some w ∧ t.fw.mode = .receiving ∧ t.fw.status = 0 ∧
          t.fw.target = (if s.module.recovery then n else 1 - s.fw.active) ∧ t.reg 0x78001C = 0 ∧ t.fw.slots = s.fw.slots)) ∧
    (fld v 3 0 = 3 →
      (s.fuMine w = false → exec (.fuDiscard w v) s = refuse 0x0C01) ∧
      (s.fuMine w = true → ∃ t, exec (.fuDiscard w v) s = .next t ∧ t.fwSlot s.fw.target = FwSlot.empty ∧
        t.fw.mode = .receiving ∧ t.fw.status = 0 ∧ ∀ m, m ≠ s.fw.target → t.fwSlot m = s.fwSlot m)) ∧
    (fld v 3 0 = 4 →
      (s.fuOther w = true → exec (.fuArm w v) s = refuse 0x0C01) ∧
      (s.fuOther w = false → s.fw.mode ≠ .armed → (s.fw.loading = true ∨ s.armable n = false) →
        exec (.fuArm w v) s = refuse 0x0C0A) ∧
      (s.fuOther w = false → s.fw.mode ≠ .armed → s.fw.loading = false → s.armable n = true →
        (bit (s.reg 0x78000C) 0 = true → s.quiescentBad n = true → exec (.fuArm w v) s = refuse 0x0C0A) ∧
        ((bit (s.reg 0x78000C) 0 = true → s.quiescentBad n = false) → exec (.fuArm w v) s = .next { s with fw := { s.fw with
          loading := true, armedSlot := n, quiescent := bit (s.reg 0x78000C) 0, status := 0 } }))) ∧
    (fld v 3 0 = 9 →
      (s.fuOther w = true → exec (.fuCommit w v) s = refuse 0x0C01) ∧
      (s.fuOther w = false → s.fw.uncommitted = false → exec (.fuCommit w v) s = refuse 0x0C0D) ∧
      (s.fuOther w = false → s.fw.uncommitted = true → ∃ t, exec (.fuCommit w v) s = .next t ∧
        t.fw.fuses = max s.fw.fuses (hdSecurity (s.fwSlot s.fw.active).header) ∧ t.fw.uncommitted = false ∧ t.fw.mode = .idle ∧
        t.fw.slots = s.fw.slots)) ∧
    (fld v 3 0 = 8 →
      (s.fuOther w = true → exec (.fuInstallCert w v) s = refuse 0x0C01) ∧
      (s.fuOther w = false → s.certOk (s.fuBuf 0 256) (s.fuBuf 256 3604) = false →
        exec (.fuInstallCert w v) s = refuse 0x0C13) ∧
      (s.fuOther w = false → s.certOk (s.fuBuf 0 256) (s.fuBuf 256 3604) = true → ∃ t, exec (.fuInstallCert w v) s = .next t ∧
        t.fw.keyGen = s.fw.keyGen + 1 ∧ t.fw.pendingKey = false ∧ t.fw.cert = s.fuBuf 0 256 ++ s.fuBuf 256 3604))) ∧
  (∀ (s : State) (w : Writer) (v : Word), permits s w 0x780000 v.toNat → fld v 3 0 = 2 →
    let i := bits v.toNat 28 16
    let l := s.fuBuf 0 65536
    let f := s.fwSlot s.fw.target
    let t := s.storePiece i l
    let bad : Nat → Out := fun st => .next ((s.addSat 0x78001C 1).fuStatus st)
    (s.fuMine w = false → exec (.fuPut w v) s = .next (s.fuStatus 0x0C01)) ∧
    (s.fuMine w = true → i ≠ 0 → (0 ∉ f.received ∨ hdPieces f.header ≤ i) → exec (.fuPut w v) s = bad 0x0C07) ∧
    (s.fuMine w = true → i ≠ 0 → 0 ∈ f.received → i < hdPieces f.header → i ∉ f.received →
      (hdTables f.header < i ∧ 1 + (i - 1 - hdTables f.header) / 2048 ∉ f.received → exec (.fuPut w v) s = bad 0x0C07) ∧
      (¬(hdTables f.header < i ∧ 1 + (i - 1 - hdTables f.header) / 2048 ∉ f.received) →
        (f.pieceOk i l = false → exec (.fuPut w v) s = bad 0x0C06) ∧
        (f.pieceOk i l = true → (t.fwSlot s.fw.target).received.length ≠ hdPieces (t.fwSlot s.fw.target).header →
          exec (.fuPut w v) s = .next (t.fuStatus 0)) ∧
        (f.pieceOk i l = true → (t.fwSlot s.fw.target).received.length = hdPieces (t.fwSlot s.fw.target).header →
          ∃ u, exec (.fuPut w v) s = .next u ∧
            ((t.fwSlot s.fw.target).signed = true → u.fw.mode = .verified ∧ u.fw.status = 0 ∧
              u.fwSlot s.fw.target = { t.fwSlot s.fw.target with verified := true }) ∧
            ((t.fwSlot s.fw.target).signed = false → u.fw.status = 0x0C09 ∧ u.fwSlot s.fw.target = FwSlot.empty)))) ∧
    (s.fuMine w = true → i = 0 → f.factory = false → 0 ∉ f.received →
      headerStatus s.fw.fuses s.fw.serial (l.take 4096) ≠ 0 →
      exec (.fuPut w v) s = bad (headerStatus s.fw.fuses s.fw.serial (l.take 4096)))) ∧
  (∀ s : State, (s.fw.loading = false → exec .armLoadDone s = .next s) ∧
    (s.fw.loading = true → ∃ t, exec .armLoadDone s = .next t ∧ t.fw.loading = false ∧ t.fw.mode = .armed ∧
      (s.fw.quiescent = false → t.fw.trial = some s.fw.armedSlot) ∧ (s.fw.quiescent = true → t.fw.trial = s.fw.trial))) ∧
  (∀ s : State, (∀ b, s.activationDue = false → exec (.quiescentActivation b) s = .next s) ∧
    (s.activationDue = true → s.fw.heldSubst = none → s.fw.heldWipe = false →
      (∃ t, exec (.quiescentActivation true) s = .next t ∧ t.fw.active = s.fw.armedSlot ∧ t.fw.uncommitted = true ∧
        t.fw.mode = .activated ∧ t.fw.holder = none) ∧
      (∃ t, exec (.quiescentActivation false) s = .next t ∧ t.fw.active = s.fw.active ∧ t.fw.mode = .verified ∧
        t.fw.status = 0x0C0B)))

/-- ATTESTATION_REQUEST and WIPE_START: a party's report is its nonce's body and an identity signature,
and spends one; in the reserve it is refused with 0x0C10, and beyond four reports in a second it waits. A wipe that R490 does not refuse with 0x0C20 leaves no byte, no
sequence, no context and no group, returns R491's registers to their reset values, and leaves every other register but
GL_OWNER_EVENT, the trim table, the firmware, the fuses and the key. -/
def Obligations.ReportsAndWipes : Prop :=
  (∀ (s : State) (w : Writer) (v : Word), permits s w 0x780120 v.toNat →
    let p := writerNo w
    let body := s.atBody p (s.nonce p)
    (flag v 0 = false → exec (.attestationRequest w v) s = .next s) ∧
    (flag v 0 = true → sigReserve ≤ s.fw.sigUsed → ∃ t, exec (.attestationRequest w v) s = .next t ∧
      tget t.fw.atStatus p 0 = 0x0C10 ∧ p ∉ t.fw.atReady ∧ t.fw.sigUsed = s.fw.sigUsed) ∧
    (flag v 0 = true → s.fw.sigUsed < sigReserve → p ∉ s.fw.atWaiting → (s.fw.atWaiting ≠ [] ∨ s.attestRoom = false) →
      exec (.attestationRequest w v) s = .next { s with fw := { s.fw with
        atWaiting := s.fw.atWaiting ++ [p], atReady := s.fw.atReady.filter fun q => q != p } }) ∧
    (flag v 0 = true → s.fw.sigUsed < sigReserve → s.fw.atWaiting = [] → s.attestRoom = true →
      ∃ t, exec (.attestationRequest w v) s = .next t ∧ tget t.fw.atStatus p 0 = 0 ∧ p ∈ t.fw.atReady ∧ t.fw.sigUsed = s.fw.sigUsed + 1 ∧
      tget t.fw.atReport p [] =
        body ++ Config.hssSign s.fw.keyGen s.fw.sigUsed ([0x55, 0x5A, 0x41, 0x54] ++ sha256 body) ∧
      ∀ q, q ≠ p → tget t.fw.atReport q [] = tget s.fw.atReport q [])) ∧
  (∀ (s : State) (w : Writer) (v : Word), permits s w 0x780200 v.toNat →
    (flag v 0 = false → exec (.wipeStart w v) s = .next s) ∧
    (flag v 0 = true → s.activationDue = true →
      exec (.wipeStart w v) s = .next { s with fw := { s.fw with heldWipe := true } }) ∧
    (flag v 0 = true → s.activationDue = false → s.wipeBad = true →
      exec (.wipeStart w v) s = .next { s with fw := { s.fw with wipeStatus := 0x0C20 } }) ∧
    (flag v 0 = true → s.activationDue = false → s.wipeBad = false → ∃ t, exec (.wipeStart w v) s = .next t ∧
      t.memory = State.reset.memory ∧ t.kv = State.reset.kv ∧ t.hosts.ctxs = [] ∧ t.links.groups = [] ∧
      (∀ k, wipedReg k = true → t.reg k = regReset (k % 67108864)) ∧
      (∀ k, wipedReg k = false → k ≠ 0x48 → t.reg k = s.reg k) ∧
      t.fw.wipeState = 2 ∧ t.fw.wipeStatus = 0 ∧ t.fw.wipeCount = s.fw.wipeCount + 1 ∧
      t.fw.slots = s.fw.slots ∧ t.fw.fuses = s.fw.fuses ∧ t.fw.keyGen = s.fw.keyGen ∧ t.fw.cert = s.fw.cert ∧
      t.rel.trim = s.rel.trim ∧ t.rel.stored = s.rel.stored ∧ t.sched = s.sched))

/-! ### Power, reset and start-up (chapter 19) -/

/-- From a reset to GO: RESET_ASSERT, MO_RESET and REF_CLOCK_LOSS put every unit
in its reset state and keep the boot store, the fuses, the key store and life_s; RESET_RELEASE samples the straps and SET
begins once the bus is in range and no sensor holds the module; its stops carry 0x0D02, 0x0D05, 0x0D06 or 0x0C0E; RECOVERY
goes to GO with the rails off; SET_COMPLETE enters GO with the ports up and a BOOT record; a failing trial rolls back. -/
def Obligations.ModuleResetsAndStarts : Prop :=
  ((∀ s : State, exec .resetAssert s = .next (s.moduleReset 0) ∧
     exec .refClockLoss s = .next ((s.interrupt 0x0D04 true).moduleReset 0x0D04)) ∧
   (∀ (s : State) (w : Writer) (v : Word), permits s w 0x102C v.toNat →
     exec (.moReset w v) s = .next (if v.toNat = 0x0D0DA5A5 then s.moduleReset 0 else s)) ∧
   (∀ (s : State) (st : Nat),
     let t := s.moduleReset st
     t.module.phase = .marks ∧ t.module.resetLow = true ∧ t.module.status = st ∧
     t.module.bootCount = s.module.bootCount + 1 ∧ t.module.lifeSeconds = s.module.lifeSeconds ∧ t.module.lifeNs = s.module.lifeNs ∧
     t.package = none ∧ t.memory = State.reset.memory ∧ t.regs = State.reset.regs ∧ t.kv = State.reset.kv ∧
     t.links = State.reset.links ∧ t.sched = State.reset.sched ∧ t.media = State.reset.media ∧ t.rails = State.reset.rails ∧
     t.hosts.ctxs = [] ∧ (∀ p, p < s.module.dies → (t.port p).mode = .inReset) ∧
     (∀ n, t.fwSlot n = s.fwSlot n) ∧ t.fw.fuses = s.fw.fuses ∧ t.fw.serial = s.fw.serial ∧ t.fw.keyGen = s.fw.keyGen ∧
     t.fw.sigUsed = s.fw.sigUsed ∧ t.fw.cert = s.fw.cert ∧ t.fw.trial = s.fw.trial ∧ t.fw.active = s.fw.active ∧
     t.rel.book = s.rel.book ∧ t.rel.signatures = s.rel.signatures ∧ t.rel.stored = s.rel.stored ∧ t.rel.trim = s.rel.stored)) ∧
  ((∀ (s : State) (straps : BitVec 16),
     let u : State := { s with module := { s.module with straps := straps, resetLow := false } }
     let stop : Nat → Out := fun st => .next
       { u with module := { u.module with phase := .set, setCode := 0xE, status := st } }
     (s.module.phase ≠ .marks ∨ s.module.resetLow = false → exec (.resetRelease straps) s = .next s) ∧
     (s.module.phase = .marks → s.module.resetLow = true →
       (s.module.busInRange = false ∨ s.module.holdHot = true → exec (.resetRelease straps) s = .next u) ∧
       (s.module.busInRange = true → s.module.holdHot = false →
         (fld straps 15 10 ≠ 0 ∨ s.module.dies ≤ fld straps 3 2 → exec (.resetRelease straps) s = stop 0x0D02) ∧
         (fld straps 15 10 = 0 → fld straps 3 2 < s.module.dies →
           (flag straps 4 = true → exec (.resetRelease straps) s = .next { u with module := { u.module with
             phase := .go, setCode := 7, recovery := true, railsOn := false } }) ∧
           (flag straps 4 = false → s.fw.trial = none →
             (trimOutside s.trimNow = true → exec (.resetRelease straps) s = stop 0x0D05) ∧
             (trimOutside s.trimNow = false →
               (s.slotPasses s.fw.active = true → exec (.resetRelease straps) s = .next { u with
                 fw := { u.fw with booting := s.fw.active }
                 module := { u.module with phase := .set, setCode := 5, railsOn := true } }) ∧
               (s.slotPasses s.fw.active = false → s.slotPasses (1 - s.fw.active) = false →
                 exec (.resetRelease straps) s = stop 0x0C0E))))))) ∧
   (∀ s : State, ∃ t, exec .busInRange s = .next t ∧
     (s.module.phase ≠ .marks ∨ s.module.resetLow = true ∨ s.module.holdHot = true →
       t = { s with module := { s.module with busInRange := true, busOut := false } }) ∧
     (s.module.phase = .marks → s.module.resetLow = false → s.module.holdHot = false → t.module.phase ≠ .marks)) ∧
   (∀ s : State, s.module.phase = .set → s.module.setCode = 5 →
     (s.rel.missing = [] → s.fw.trial = none → s.rel.book.length < bookSize → s.rel.sinceCheckpoint < 1023 →
       ∃ t, exec (.setComplete []) s = .next t ∧ t.module.phase = .go ∧ t.module.setCode = 6 ∧ t.fw.active = s.fw.booting ∧
         (∀ p, p < s.module.dies → (t.port p).mode = .up ∧ (t.port p).cycles = 0) ∧
         t.rel.book = s.rel.book ++ [BitVec.ofNat 1024 (recordOf s 1 0 0 0
           (hdVersion (s.fwSlot s.fw.booting).header + 2 ^ 32 * s.module.siteEpoch))]) ∧
     (s.fw.trial ≠ some s.fw.booting → exec .setLimitExpiry s =
       .next { s with module := { s.module with setCode := 0xE, status := 0x0D06 } }) ∧
     (s.fw.trial = some s.fw.booting → s.slotPasses s.fw.active = true → ∃ t, exec .setLimitExpiry s = .next t ∧
       t.fw.trial = none ∧ t.fw.booting = s.fw.active ∧ t.fw.status = 0x0C0C ∧ t.module.phase = .set ∧ t.module.setCode = 5)) ∧
   (∀ s : State, s.module.phase ≠ .set ∨ s.module.setCode ≠ 5 →
     exec .setLimitExpiry s = .next s ∧ ∀ l, exec (.setComplete l) s = .next s) ∧
   (∀ s : State, ∃ t, exec .setStatusAlternate s = .next t ∧
     t = { s with module := { s.module with setCode := t.module.setCode } } ∧
     t.module.setCode = if s.module.phase = .set then
       (if s.module.setCode = 0xE then 0xF else if s.module.setCode = 0xF then 0xE else s.module.setCode) else s.module.setCode))

/-- The bus, the rails, the coolant and the MGC's own events: what the bus and the
inlets stood at is shown and flagged in MO_EVENT; beyond R497's limits the module trips with 0x0D01, and so it does at a
fault of any rail but a field's or a stack's own, which loses the field; MO_CLEAR starts the peak anew (its value is open); the
watchdog's reset is logged; HEARTBEAT toggles, and an I3C address is taken, while firmware runs. -/
def Obligations.PowerAndContacts : Prop :=
  (∀ (s : State) (cv us : Nat),
    let out := decide (cv < 4800) || decide (6000 < cv)
    (¬((cv < 4600 ∧ 1000 < us) ∨ 6200 < cv) → ∃ t, exec (.busVoltageEvent cv us) s = .next t ∧
      t = { s with module := t.module, regs := { s.regs with vals := t.regs.vals } } ∧
      t.module = { s.module with
        busOut := out, busInRange := s.module.busInRange && !out, outsideAt := t.module.outsideAt } ∧
      (∀ k, t.reg k = if k = 0x1008 then min 65535 cv
        else if k = 0x1024 then s.reg 0x1024 ||| (if cv < 4800 then 1 else 0) ||| (if 6000 < cv then 2 else 0) |||
          (if cv < 4800 ∧ 4000 ≤ cv ∧ us ≤ 1000 then 64 else 0)
        else s.reg k)) ∧
    ((cv < 4600 ∧ 1000 < us) ∨ 6200 < cv → s.module.railsOn = true → ∃ t, exec (.busVoltageEvent cv us) s = .next t ∧
      t.module.phase = .tripped ∧ t.module.railsOn = false ∧ t.module.status = 0x0D01 ∧ t.memory = State.reset.memory ∧
      ∀ p, p < 4 → t.portUp p = false)) ∧
  (∀ (s : State) (rail : Fin 8) (site : Fin 81),
    (s.module.railsOn = false → exec (.powerFault rail site) s = .next s) ∧
    (s.module.railsOn = true → rail.val = 0 ∨ rail.val = 2 → exec (.powerFault rail site) s = exec (.fieldLost site) s) ∧
    (s.module.railsOn = true → rail.val ≠ 0 → rail.val ≠ 2 → ∃ t, exec (.powerFault rail site) s = .next t ∧
      t.module.phase = .tripped ∧ t.module.railsOn = false ∧ t.module.status = 0x0D01 ∧ t.memory = State.reset.memory ∧
      ∀ p, p < 4 → t.portUp p = false)) ∧
  (∀ (s : State) (a b c d : BitVec 10), ∃ t, exec (.coolantInletSample a b c d) s = .next t ∧
    t = { s with module := t.module, regs := { s.regs with vals := t.regs.vals } } ∧
    t.module.phase = s.module.phase ∧ t.module.coolOut = decide (350 < a.toNat ∨ 350 < b.toNat ∨ a.toNat < 150 ∨ b.toNat < 150) ∧
    (∀ k, t.reg k = if k = 0x1018 then a.toNat + 65536 * b.toNat else if k = 0x101C then c.toNat + 65536 * d.toNat
      else if k = 0x1024 then s.reg 0x1024 ||| (if 350 < a.toNat then 4 else 0) ||| (if 350 < b.toNat then 8 else 0)
      else s.reg k)) ∧
  (∀ (s : State) (w : Writer) (v : Word), permits s w 0x1028 v.toNat →
    (flag v 0 = false → exec (.moClear w v) s = .next s) ∧
    (flag v 0 = true → ∃ t, exec (.moClear w v) s = .next t ∧ t.module = s.module ∧ ∀ k, k ≠ 0x100C → t.reg k = s.reg k)) ∧
  (∀ s : State, (s.module.phase = .marks → exec .mgcWatchdog s = .next s) ∧
    (s.module.phase = .go ∨ s.module.phase = .tripped → s.rel.book.length < bookSize → s.rel.sinceCheckpoint < 1023 →
      ∃ (t : State) (c : Nat), c < 256 ∧ exec .mgcWatchdog s = .next t ∧ t.module = { s.module with response := none } ∧
        t.rel.book = s.rel.book ++ [BitVec.ofNat 1024 (recordOf s 0x70 0 0 0 c)])) ∧
  (∀ (s : State) (b : Bool) (a : BitVec 7),
    (s.module.phase = .go ∨ s.module.phase = .tripped →
      exec .mgcHeartbeatToggle s = .next { s with module := { s.module with heartbeat := !s.module.heartbeat } } ∧
      exec (.i3cAddressAssign b a) s = .next { s with module := { s.module with i3cAddr := some a } }) ∧
    (s.module.phase = .marks ∨ s.module.phase = .set →
      exec .mgcHeartbeatToggle s = .next s ∧ exec (.i3cAddressAssign b a) s = .next s))

/-- Where commands complete with their own effect, one command at a time. CHAIN, ADD, SUB, MUL, FMA, MAX, MIN, CONVERT, QUANT_MX,
DEQUANT_MX, TREE_SUM, ROW_SUM, ROW_MAX, ARGMAX, SOFTMAX_MERGE, NORM_APPLY, EXP, EXP2, LOG, LOG2, RECIPROCAL, RSQRT, SQRT, TANH,
SIGMOID, ERF, GELU_TANH, GELU_ERF, SILU, SOFTPLUS, SIN, COS, ROW_STATS, ROW_LSE, MICRO, GATHER, SCATTER, SORT, TOPK,
SEGMENT_REDUCE, SET_PAD and ADJ_EXPAND run every row where none reads poison; CLAIM takes the tile that is on offer, CORE_IDLE
leaves a core without a pass empty for the chained kernel or stopped; STEP_BOUNDARY applies its requests; LOAD_KERNEL fills its
slot; RUN_KERNEL and LAP_COUNTER_FREED start the slot's kernel; STAGE_C_SUM has its tile summed; HEARTBEAT_MISS has a link in use
retrain and a host port in use go down. -/
def Obligations.CommandsComplete : Prop :=
  (∀ cx : Fin 16, engineRows.map (fun e => (e.1 cx, e.2.1)) =
    [(.chain cx, 0x200), (.add cx, 0x201), (.sub cx, 0x202), (.mul cx, 0x203), (.fma cx, 0x204), (.max cx, 0x205),
     (.min cx, 0x206), (.convert cx, 0x207), (.quantMx cx, 0x208), (.dequantMx cx, 0x209), (.treeSum cx, 0x20A),
     (.rowSum cx, 0x20B), (.rowMax cx, 0x20C), (.argmax cx, 0x20D), (.softmaxMerge cx, 0x20E), (.normApply cx, 0x20F),
     (.exp cx, 0x100), (.exp2 cx, 0x101), (.log cx, 0x102), (.log2 cx, 0x103), (.reciprocal cx, 0x104), (.rsqrt cx, 0x105),
     (.sqrt cx, 0x106), (.tanh cx, 0x107), (.sigmoid cx, 0x108), (.erf cx, 0x109), (.geluTanh cx, 0x10A), (.geluErf cx, 0x10B),
     (.silu cx, 0x10C), (.softplus cx, 0x10D), (.sin cx, 0x10E), (.cos cx, 0x10F), (.rowStats cx, 0x180), (.rowLse cx, 0x181),
     (.micro cx, 0x182), (.gather cx, 0x280), (.scatter cx, 0x281), (.sort cx, 0x282), (.topk cx, 0x283),
     (.segmentReduce cx, 0x284), (.setPad cx, 0x285), (.adjExpand cx, 0x286)]) ∧
  (∀ e ∈ engineRows, ∀ (s : State) (cx : Fin 16) (c : Cmd), issues s cx 0 (wantEngine e.2.1) [] c → egOp c.ext = e.2.1 →
    let id : CmdId := ⟨cx, 0, c.index⟩
    let n := (s.markIssued id []).shape cx (egRows c.ext)
    let r := (rowParts n).foldl (runRow e.2.2 id (s.cxSeed cx) c.ext) (s.markIssued id [], false)
    n ≤ egMaxRows c.ext → r.2 = false → ∃ t, exec (e.1 cx) s = .next t ∧ t.memory = r.1.memory ∧
      (t.cmd? id).map (fun d => (d.worked, d.progress)) = some (true, n)) ∧
  (∀ (s : State) (site : Fin 81) (core : Fin 4096) (i : Nat) (k : Kernel) (own : Nat),
    s.coreKernel (s.core site core) = some (i, k) → s.rankOf site = some own → i < 256 →
    (∀ r n, s.claimReady site core = true → (s.findTile k i own).1 = some (r, n) → ∃ t, exec (.claim site core) s = .next t ∧
      (t.core site core).passes = (s.core site core).passes ++ [{ k.pass i r n with issued := 1 }]) ∧
    ((s.core site core).stopped = true → (s.core site core).passes = [] → ∃ t, exec (.coreIdle site core) s = .next t ∧
      (t.core site core).passes = [] ∧
      ((∃ j, s.chainedTo i = some j) ∨ ((t.core site core).stopped = true ∧ (t.core site core).gateWait = false)))) ∧
  (∀ (s : State) (cx : Fin 16) (ring : Fin 4) (c : Cmd),
    s.headCmd cx ring (fun d => (d.finished || (d.refusal != 0 && (s.ctx cx).mode == .ready)) && s.boundaryDue cx d) = some c →
      ∃ t u : State, exec (.stepBoundary cx ring) s = .next (t.settle cx ring) ∧ u = s.boundary.1 ∧ t.rails = u.rails ∧
        t.regs = u.regs ∧ t.rails.fieldMon = []) ∧
  (∀ (s : State) (cx : Fin 16) (c : Cmd) (l : Marked),
    let va := fld c.desc 303 256
    let id : CmdId := ⟨cx, 0, c.index⟩
    let t := s.markIssued id (s.pinsOf cx [(va, 1024)])
    issues s cx 0 (wantKind 1) (s.pinsOf cx [(va, 1024)]) c → t.cvaRead id va 1024 = (0, l) → anyPoison l = false →
    (t.noteRead id (t.isLive cx) va 1024).loadChecks cx (unmark l) (KImage.parse (unmark l)) = 0 →
      ∃ u : State, exec (.loadKernel cx) s = .next (u.finish id 0 0) ∧
        u.slot cx (fld c.desc 197 192) = some (KImage.parse (unmark l))) ∧
  (∀ (s : State) (cx : Fin 16) (c : Cmd) (img : KImage) (waits : Bool),
    let id : CmdId := ⟨cx, 0, c.index⟩
    let t := s.markIssued id (runPins cx s c)
    let q := t.kernelBefore cx none
    let k := t.kernelAt id img (if img.windowed && winChained img.window then q.map Kernel.cmd else none)
    issues s cx 0 (fun d => wantKind 2 d && (d.waitsCounter == waits)) (runPins cx s c) c →
    s.slot cx (fld c.desc 197 192) = some img → s.counterHeld img = false → issueStatus k q = 0 →
      ∃ u : State, exec (if waits then .lapCounterFreed cx else .runKernel cx) s = .next u ∧
        u.kernel (claimCounter (wordOf k.prog 1)) = some k) ∧
  (∀ (s : State) (i : Fin 256) (tile wait : Nat) (k : Kernel), s.kernel i = some k →
    let rd := recReduce k.image.counter
    let q := k.place tile
    let rank := k.owner tile
    k.split → tile < k.tiles → k.summed.contains tile = false → k.cancelled = false → s.holds k.cmd.cx →
    (∀ p, p < k.parts → k.posted.contains (tile, p)) → s.tileSendable k [rd] q.1 q.2.1 q.2.2 = true →
    (s.partsPoisoned k rank q.1 q.2.1 q.2.2 (min k.m (k.boundM - q.1 * k.m)) (min k.n (k.boundN - q.2.1 * k.n)) ||
      s.vectorsPoisoned k rd rank q.1 q.2.1) = false →
      ∃ t, exec (.stageCSum i ⟨tile, wait⟩) s = .next t ∧ ∃ f, t.kernel i = some f ∧ f.summed.contains tile = true) ∧
  (∀ (s : State) (n : Fin 36) (p : Fin 4) (site : Fin 81) (eng : Fin 24),
    (s.linkUp n = true → exec (.heartbeatMiss (.link n)) s = .next (s.linkRetrain n)) ∧
    (s.portUp p = true → exec (.heartbeatMiss (.hostPort p)) s = .next ((s.portDown p).interrupt 0 true)) ∧
    exec (.heartbeatMiss (.fieldController site)) s = .next (s.loseField site) ∧
    exec (.heartbeatMiss (.lapCounter site)) s = .next (s.loseField site) ∧
    exec (.heartbeatMiss (.media eng)) s = .next (s.mediaFault eng))
end

