-- ==== Sys2Proof/Laws/Hash.lean ====
section
/-!
SUPPORT. The lengths of digests and of numbers as bytes.
-/

namespace Sys2Proof.Machine

open Sys2Proof

/-- A number has as many bytes as were asked for. -/
@[simp] theorem length_toBytes (n v : Nat) : (toBytes n v).length = n := by
  induction n generalizing v with
  | zero => rfl
  | succ n ih => simp [toBytes, ih]

/-- Four words have 16 bytes. -/
@[simp] theorem Quad.length_bytes (q : Quad) : q.bytes.length = 16 := by simp [Quad.bytes, beBytes]

/-- A digest has 32 bytes. -/
theorem sha256_length (l : List Byte) : (sha256 l).length = 32 := by simp [sha256]

end Sys2Proof.Machine
end

