-- ==== Sys2Proof/Laws/Tables.lean ====
section
/-!
SUPPORT. The sparse table and the rising list: what a read after a write gives, and that every operation keeps the
canonical form.
-/

namespace Sys2Proof.Machine

open Sys2Proof

/-! ### Reads after writes, in every table -/

theorem tget_none {α : Type} (t : Tab α) (k : Nat) (d : α) (h : ∀ p ∈ t, p.1 ≠ k) : tget t k d = d := by
  induction t with
  | nil => rfl
  | cons p r ih =>
    obtain ⟨j, v⟩ := p
    have hj : j ≠ k := h (j, v) (by simp)
    simp only [tget, if_neg hj]
    exact ih fun q hq => h q (by simp [hq])

theorem tget_filter {α : Type} (t : Tab α) (k i : Nat) (d : α) (hi : i ≠ k) :
    tget (t.filter fun p => p.1 != k) i d = tget t i d := by
  induction t with
  | nil => rfl
  | cons p r ih =>
    obtain ⟨j, v⟩ := p
    by_cases hj : j = k
    · simp [tget, hj, Ne.symm hi, ih]
    · simp [tget, hj, ih]

theorem tget_tins_same {α : Type} (t : Tab α) (k : Nat) (v d : α) : tget (tins t k v) k d = v := by
  induction t with
  | nil => simp [tins, tget]
  | cons p r ih =>
    obtain ⟨j, w⟩ := p
    by_cases h : j < k
    · simp [tins, h, tget, Nat.ne_of_lt h, ih]
    · simp [tins, h, tget]

theorem tget_tins_other {α : Type} (t : Tab α) (k i : Nat) (v d : α) (hi : i ≠ k) :
    tget (tins t k v) i d = tget t i d := by
  induction t with
  | nil => simp [tins, tget, Ne.symm hi]
  | cons p r ih =>
    obtain ⟨j, w⟩ := p
    by_cases h : j < k
    · simp [tins, h, tget, ih]
    · simp [tins, h, tget, Ne.symm hi]

/-- The written key reads the value written. -/
@[simp] theorem tget_tput_same {α : Type} [DecidableEq α] (t : Tab α) (k : Nat) (v d : α) :
    tget (tput t k v d) k d = v := by
  unfold tput
  by_cases h : v = d
  · simp only [h, if_true]
    exact tget_none _ k d fun p hp => by simpa using (List.mem_filter.mp hp).2
  · simp only [h, if_false]
    exact tget_tins_same _ k v d

/-- Every other key reads as before. -/
theorem tget_tput_other {α : Type} [DecidableEq α] (t : Tab α) (k i : Nat) (v d e : α) (hi : i ≠ k) :
    tget (tput t k v d) i e = tget t i e := by
  unfold tput
  by_cases h : v = d
  · simp only [h, if_true]
    exact tget_filter t k i e hi
  · simp only [h, if_false]
    rw [tget_tins_other _ k i v e hi, tget_filter t k i e hi]

/-- A write and a read in one. -/
theorem tget_tput {α : Type} [DecidableEq α] (t : Tab α) (k i : Nat) (v d : α) :
    tget (tput t k v d) i d = if i = k then v else tget t i d := by
  by_cases h : i = k
  · subst h; simp
  · simp [h, tget_tput_other t k i v d d h]

/-! ### The canonical form -/

theorem mem_tins {α : Type} (t : Tab α) (k : Nat) (v : α) : ∀ q ∈ tins t k v, q = (k, v) ∨ q ∈ t := by
  induction t with
  | nil => simp [tins]
  | cons p r ih =>
    intro q
    by_cases h : p.1 < k
    · simp only [tins, h, if_true, List.mem_cons]
      rintro (rfl | hq)
      · exact .inr (.inl rfl)
      · rcases ih q hq with e | e
        · exact .inl e
        · exact .inr (.inr e)
    · simp only [tins, h, if_false, List.mem_cons]
      tauto

theorem tabWf_tins {α : Type} (t : Tab α) (k : Nat) (v d : α) (h : tabWf t d) (hv : v ≠ d) (hk : ∀ p ∈ t, p.1 ≠ k) :
    tabWf (tins t k v) d := by
  induction t with
  | nil => simp [tins, tabWf, hv]
  | cons p r ih =>
    obtain ⟨j, w⟩ := p
    have hp := h.1
    simp only [List.map_cons, List.pairwise_cons] at hp
    have hr : tabWf r d := ⟨hp.2, fun q hq => h.2 q (by simp [hq])⟩
    have hj : j ≠ k := hk (j, w) (by simp)
    by_cases hlt : j < k
    · simp only [tins, hlt, if_true]
      have hi := ih hr fun q hq => hk q (by simp [hq])
      refine ⟨?_, fun q hq => ?_⟩
      · simp only [List.map_cons, List.pairwise_cons]
        refine ⟨fun a ha => ?_, hi.1⟩
        obtain ⟨q, hq, rfl⟩ := List.mem_map.mp ha
        rcases mem_tins r k v q hq with rfl | e
        · exact hlt
        · exact hp.1 _ (List.mem_map_of_mem e)
      · simp only [List.mem_cons] at hq
        rcases hq with rfl | hq
        · exact h.2 (j, w) (by simp)
        · exact hi.2 q hq
    · simp only [tins, hlt, if_false]
      refine ⟨?_, fun q hq => ?_⟩
      · simp only [List.map_cons, List.pairwise_cons, List.mem_cons]
        refine ⟨?_, hp.1, hp.2⟩
        rintro a (rfl | ha)
        · omega
        · have := hp.1 a ha; omega
      · simp only [List.mem_cons] at hq
        rcases hq with rfl | hq
        · exact hv
        · exact h.2 q (by simpa using hq)

/-- A table without some of its entries is canonical. -/
theorem tabWf_filter {α : Type} (t : Tab α) (d : α) (p : Nat × α → Bool) (h : tabWf t d) : tabWf (t.filter p) d :=
  ⟨List.Pairwise.sublist (List.Sublist.map _ List.filter_sublist) h.1, fun q hq => h.2 q (List.mem_of_mem_filter hq)⟩

/-- A write keeps the canonical form. -/
theorem tabWf_tput {α : Type} [DecidableEq α] (t : Tab α) (k : Nat) (v d : α) (h : tabWf t d) : tabWf (tput t k v d) d := by
  unfold tput
  by_cases hv : v = d
  · simp only [hv, if_true]
    exact tabWf_filter t d _ h
  · simp only [hv, if_false]
    exact tabWf_tins _ k v d (tabWf_filter t d _ h) hv fun p hp => by simpa using (List.mem_filter.mp hp).2

theorem tabWf_tdrop {α : Type} (t : Tab α) (d : α) (lo hi : Nat) (h : tabWf t d) : tabWf (tdrop t lo hi) d :=
  tabWf_filter t d _ h

theorem mem_sput (l : List Nat) (k a : Nat) : a ∈ sput l k ↔ a = k ∨ a ∈ l := by
  induction l with
  | nil => simp [sput]
  | cons j r ih =>
    simp only [sput]
    split_ifs with h1 h2
    · simp only [List.mem_cons, ih]; tauto
    · subst h2; simp
    · simp only [List.mem_cons]

/-- An insertion keeps a rising list rising. -/
theorem setWf_sput (l : List Nat) (k : Nat) (h : setWf l) : setWf (sput l k) := by
  induction l with
  | nil => simp [sput, setWf]
  | cons j r ih =>
    simp only [setWf, List.pairwise_cons] at h
    have hr : setWf (sput r k) := ih h.2
    simp only [sput]
    split_ifs with h1 h2
    · simp only [setWf, List.pairwise_cons]
      refine ⟨fun a ha => ?_, hr⟩
      rcases (mem_sput r k a).mp ha with rfl | ha
      · exact h1
      · exact h.1 a ha
    · simp only [setWf, List.pairwise_cons]; exact h
    · simp only [setWf, List.pairwise_cons, List.mem_cons]
      refine ⟨?_, h⟩
      rintro a (rfl | ha)
      · omega
      · have := h.1 a ha; omega

theorem setWf_sunion (a b : List Nat) (h : setWf a) : setWf (sunion a b) := by
  unfold sunion
  induction b generalizing a with
  | nil => exact h
  | cons k r ih => exact ih _ (setWf_sput a k h)

theorem setWf_filter (l : List Nat) (p : Nat → Bool) (h : setWf l) : setWf (l.filter p) :=
  List.Pairwise.sublist List.filter_sublist h

/-! ### Loops -/

/-- What every turn keeps, a loop keeps. -/
theorem foldl_keeps {σ β : Type} (P : σ → Prop) (l : List β) (f : σ → β → σ) (s : σ) (h : P s)
    (hf : ∀ u b, P u → P (f u b)) : P (l.foldl f s) := by
  induction l generalizing s with
  | nil => exact h
  | cons a r ih => exact ih _ (hf s a h)

theorem iter_keeps {σ : Type} (P : σ → Prop) (n : Nat) (f : Nat → σ → σ) (s : σ) (h : P s)
    (hf : ∀ i u, P u → P (f i u)) : P (iter n f s) := foldl_keeps P _ _ s h fun u b hu => hf b u hu

/-- A part of the state that no turn changes, a loop does not change. -/
theorem foldl_same {σ β γ : Type} (g : σ → γ) (l : List β) (f : σ → β → σ) (s : σ) (hf : ∀ u b, g (f u b) = g u) :
    g (l.foldl f s) = g s := foldl_keeps (fun u => g u = g s) l f s rfl fun u b hu => (hf u b).trans hu

theorem iter_same {σ γ : Type} (g : σ → γ) (n : Nat) (f : Nat → σ → σ) (s : σ) (hf : ∀ i u, g (f i u) = g u) :
    g (iter n f s) = g s := foldl_same g _ _ s fun u b => hf b u

end Sys2Proof.Machine
end

