-- ==== Sys2Proof/Laws/State.lean ====
section
/-!
SUPPORT. What each update of the state leaves alone, and what a read of a unit gives after its update.
-/

namespace Sys2Proof.Machine

open Sys2Proof

/-! ### `State.setReg` -/

@[simp] theorem State.setReg_pending (s : State) (k v : Nat) : (s.setReg k v).pending = s.pending := rfl
@[simp] theorem State.setReg_module (s : State) (k v : Nat) : (s.setReg k v).module = s.module := rfl
@[simp] theorem State.setReg_sites (s : State) (k v : Nat) : (s.setReg k v).sites = s.sites := rfl
@[simp] theorem State.setReg_tiles (s : State) (k v : Nat) : (s.setReg k v).tiles = s.tiles := rfl
@[simp] theorem State.setReg_package (s : State) (k v : Nat) : (s.setReg k v).package = s.package := rfl
@[simp] theorem State.setReg_rails (s : State) (k v : Nat) : (s.setReg k v).rails = s.rails := rfl
@[simp] theorem State.setReg_memory (s : State) (k v : Nat) : (s.setReg k v).memory = s.memory := rfl
@[simp] theorem State.setReg_tiers (s : State) (k v : Nat) : (s.setReg k v).tiers = s.tiers := rfl
@[simp] theorem State.setReg_kv (s : State) (k v : Nat) : (s.setReg k v).kv = s.kv := rfl
@[simp] theorem State.setReg_attn (s : State) (k v : Nat) : (s.setReg k v).attn = s.attn := rfl
@[simp] theorem State.setReg_links (s : State) (k v : Nat) : (s.setReg k v).links = s.links := rfl
@[simp] theorem State.setReg_hosts (s : State) (k v : Nat) : (s.setReg k v).hosts = s.hosts := rfl
@[simp] theorem State.setReg_sched (s : State) (k v : Nat) : (s.setReg k v).sched = s.sched := rfl
@[simp] theorem State.setReg_media (s : State) (k v : Nat) : (s.setReg k v).media = s.media := rfl
@[simp] theorem State.setReg_rel (s : State) (k v : Nat) : (s.setReg k v).rel = s.rel := rfl
@[simp] theorem State.setReg_fw (s : State) (k v : Nat) : (s.setReg k v).fw = s.fw := rfl
@[simp] theorem State.setReg_draws (s : State) (k v : Nat) : (s.setReg k v).draws = s.draws := rfl

/-! ### `State.setSite` -/

@[simp] theorem State.setSite_pending (s : State) (n : Nat) (v : Site) : (s.setSite n v).pending = s.pending := rfl
@[simp] theorem State.setSite_module (s : State) (n : Nat) (v : Site) : (s.setSite n v).module = s.module := rfl
@[simp] theorem State.setSite_tiles (s : State) (n : Nat) (v : Site) : (s.setSite n v).tiles = s.tiles := rfl
@[simp] theorem State.setSite_package (s : State) (n : Nat) (v : Site) : (s.setSite n v).package = s.package := rfl
@[simp] theorem State.setSite_rails (s : State) (n : Nat) (v : Site) : (s.setSite n v).rails = s.rails := rfl
@[simp] theorem State.setSite_memory (s : State) (n : Nat) (v : Site) : (s.setSite n v).memory = s.memory := rfl
@[simp] theorem State.setSite_tiers (s : State) (n : Nat) (v : Site) : (s.setSite n v).tiers = s.tiers := rfl
@[simp] theorem State.setSite_kv (s : State) (n : Nat) (v : Site) : (s.setSite n v).kv = s.kv := rfl
@[simp] theorem State.setSite_attn (s : State) (n : Nat) (v : Site) : (s.setSite n v).attn = s.attn := rfl
@[simp] theorem State.setSite_links (s : State) (n : Nat) (v : Site) : (s.setSite n v).links = s.links := rfl
@[simp] theorem State.setSite_hosts (s : State) (n : Nat) (v : Site) : (s.setSite n v).hosts = s.hosts := rfl
@[simp] theorem State.setSite_sched (s : State) (n : Nat) (v : Site) : (s.setSite n v).sched = s.sched := rfl
@[simp] theorem State.setSite_media (s : State) (n : Nat) (v : Site) : (s.setSite n v).media = s.media := rfl
@[simp] theorem State.setSite_regs (s : State) (n : Nat) (v : Site) : (s.setSite n v).regs = s.regs := rfl
@[simp] theorem State.setSite_rel (s : State) (n : Nat) (v : Site) : (s.setSite n v).rel = s.rel := rfl
@[simp] theorem State.setSite_fw (s : State) (n : Nat) (v : Site) : (s.setSite n v).fw = s.fw := rfl
@[simp] theorem State.setSite_draws (s : State) (n : Nat) (v : Site) : (s.setSite n v).draws = s.draws := rfl

/-! ### `State.setPort` -/

@[simp] theorem State.setPort_pending (s : State) (p : Nat) (v : HostPort) : (s.setPort p v).pending = s.pending := rfl
@[simp] theorem State.setPort_module (s : State) (p : Nat) (v : HostPort) : (s.setPort p v).module = s.module := rfl
@[simp] theorem State.setPort_sites (s : State) (p : Nat) (v : HostPort) : (s.setPort p v).sites = s.sites := rfl
@[simp] theorem State.setPort_tiles (s : State) (p : Nat) (v : HostPort) : (s.setPort p v).tiles = s.tiles := rfl
@[simp] theorem State.setPort_package (s : State) (p : Nat) (v : HostPort) : (s.setPort p v).package = s.package := rfl
@[simp] theorem State.setPort_rails (s : State) (p : Nat) (v : HostPort) : (s.setPort p v).rails = s.rails := rfl
@[simp] theorem State.setPort_memory (s : State) (p : Nat) (v : HostPort) : (s.setPort p v).memory = s.memory := rfl
@[simp] theorem State.setPort_tiers (s : State) (p : Nat) (v : HostPort) : (s.setPort p v).tiers = s.tiers := rfl
@[simp] theorem State.setPort_kv (s : State) (p : Nat) (v : HostPort) : (s.setPort p v).kv = s.kv := rfl
@[simp] theorem State.setPort_attn (s : State) (p : Nat) (v : HostPort) : (s.setPort p v).attn = s.attn := rfl
@[simp] theorem State.setPort_links (s : State) (p : Nat) (v : HostPort) : (s.setPort p v).links = s.links := rfl
@[simp] theorem State.setPort_sched (s : State) (p : Nat) (v : HostPort) : (s.setPort p v).sched = s.sched := rfl
@[simp] theorem State.setPort_media (s : State) (p : Nat) (v : HostPort) : (s.setPort p v).media = s.media := rfl
@[simp] theorem State.setPort_regs (s : State) (p : Nat) (v : HostPort) : (s.setPort p v).regs = s.regs := rfl
@[simp] theorem State.setPort_rel (s : State) (p : Nat) (v : HostPort) : (s.setPort p v).rel = s.rel := rfl
@[simp] theorem State.setPort_fw (s : State) (p : Nat) (v : HostPort) : (s.setPort p v).fw = s.fw := rfl
@[simp] theorem State.setPort_draws (s : State) (p : Nat) (v : HostPort) : (s.setPort p v).draws = s.draws := rfl

/-! ### `State.setCtx` -/

@[simp] theorem State.setCtx_pending (s : State) (n : Nat) (v : Ctx) : (s.setCtx n v).pending = s.pending := rfl
@[simp] theorem State.setCtx_module (s : State) (n : Nat) (v : Ctx) : (s.setCtx n v).module = s.module := rfl
@[simp] theorem State.setCtx_sites (s : State) (n : Nat) (v : Ctx) : (s.setCtx n v).sites = s.sites := rfl
@[simp] theorem State.setCtx_tiles (s : State) (n : Nat) (v : Ctx) : (s.setCtx n v).tiles = s.tiles := rfl
@[simp] theorem State.setCtx_package (s : State) (n : Nat) (v : Ctx) : (s.setCtx n v).package = s.package := rfl
@[simp] theorem State.setCtx_rails (s : State) (n : Nat) (v : Ctx) : (s.setCtx n v).rails = s.rails := rfl
@[simp] theorem State.setCtx_memory (s : State) (n : Nat) (v : Ctx) : (s.setCtx n v).memory = s.memory := rfl
@[simp] theorem State.setCtx_tiers (s : State) (n : Nat) (v : Ctx) : (s.setCtx n v).tiers = s.tiers := rfl
@[simp] theorem State.setCtx_kv (s : State) (n : Nat) (v : Ctx) : (s.setCtx n v).kv = s.kv := rfl
@[simp] theorem State.setCtx_attn (s : State) (n : Nat) (v : Ctx) : (s.setCtx n v).attn = s.attn := rfl
@[simp] theorem State.setCtx_links (s : State) (n : Nat) (v : Ctx) : (s.setCtx n v).links = s.links := rfl
@[simp] theorem State.setCtx_sched (s : State) (n : Nat) (v : Ctx) : (s.setCtx n v).sched = s.sched := rfl
@[simp] theorem State.setCtx_media (s : State) (n : Nat) (v : Ctx) : (s.setCtx n v).media = s.media := rfl
@[simp] theorem State.setCtx_regs (s : State) (n : Nat) (v : Ctx) : (s.setCtx n v).regs = s.regs := rfl
@[simp] theorem State.setCtx_rel (s : State) (n : Nat) (v : Ctx) : (s.setCtx n v).rel = s.rel := rfl
@[simp] theorem State.setCtx_fw (s : State) (n : Nat) (v : Ctx) : (s.setCtx n v).fw = s.fw := rfl
@[simp] theorem State.setCtx_draws (s : State) (n : Nat) (v : Ctx) : (s.setCtx n v).draws = s.draws := rfl

/-! ### `State.setRing` -/

@[simp] theorem State.setRing_pending (s : State) (cx r : Nat) (v : Ring) : (s.setRing cx r v).pending = s.pending := rfl
@[simp] theorem State.setRing_module (s : State) (cx r : Nat) (v : Ring) : (s.setRing cx r v).module = s.module := rfl
@[simp] theorem State.setRing_sites (s : State) (cx r : Nat) (v : Ring) : (s.setRing cx r v).sites = s.sites := rfl
@[simp] theorem State.setRing_tiles (s : State) (cx r : Nat) (v : Ring) : (s.setRing cx r v).tiles = s.tiles := rfl
@[simp] theorem State.setRing_package (s : State) (cx r : Nat) (v : Ring) : (s.setRing cx r v).package = s.package := rfl
@[simp] theorem State.setRing_rails (s : State) (cx r : Nat) (v : Ring) : (s.setRing cx r v).rails = s.rails := rfl
@[simp] theorem State.setRing_memory (s : State) (cx r : Nat) (v : Ring) : (s.setRing cx r v).memory = s.memory := rfl
@[simp] theorem State.setRing_tiers (s : State) (cx r : Nat) (v : Ring) : (s.setRing cx r v).tiers = s.tiers := rfl
@[simp] theorem State.setRing_kv (s : State) (cx r : Nat) (v : Ring) : (s.setRing cx r v).kv = s.kv := rfl
@[simp] theorem State.setRing_attn (s : State) (cx r : Nat) (v : Ring) : (s.setRing cx r v).attn = s.attn := rfl
@[simp] theorem State.setRing_links (s : State) (cx r : Nat) (v : Ring) : (s.setRing cx r v).links = s.links := rfl
@[simp] theorem State.setRing_sched (s : State) (cx r : Nat) (v : Ring) : (s.setRing cx r v).sched = s.sched := rfl
@[simp] theorem State.setRing_media (s : State) (cx r : Nat) (v : Ring) : (s.setRing cx r v).media = s.media := rfl
@[simp] theorem State.setRing_regs (s : State) (cx r : Nat) (v : Ring) : (s.setRing cx r v).regs = s.regs := rfl
@[simp] theorem State.setRing_rel (s : State) (cx r : Nat) (v : Ring) : (s.setRing cx r v).rel = s.rel := rfl
@[simp] theorem State.setRing_fw (s : State) (cx r : Nat) (v : Ring) : (s.setRing cx r v).fw = s.fw := rfl
@[simp] theorem State.setRing_draws (s : State) (cx r : Nat) (v : Ring) : (s.setRing cx r v).draws = s.draws := rfl

/-! ### `State.setStack` -/

@[simp] theorem State.setStack_pending (s : State) (n : Nat) (v : Stack) : (s.setStack n v).pending = s.pending := rfl
@[simp] theorem State.setStack_module (s : State) (n : Nat) (v : Stack) : (s.setStack n v).module = s.module := rfl
@[simp] theorem State.setStack_sites (s : State) (n : Nat) (v : Stack) : (s.setStack n v).sites = s.sites := rfl
@[simp] theorem State.setStack_tiles (s : State) (n : Nat) (v : Stack) : (s.setStack n v).tiles = s.tiles := rfl
@[simp] theorem State.setStack_package (s : State) (n : Nat) (v : Stack) : (s.setStack n v).package = s.package := rfl
@[simp] theorem State.setStack_rails (s : State) (n : Nat) (v : Stack) : (s.setStack n v).rails = s.rails := rfl
@[simp] theorem State.setStack_memory (s : State) (n : Nat) (v : Stack) : (s.setStack n v).memory = s.memory := rfl
@[simp] theorem State.setStack_kv (s : State) (n : Nat) (v : Stack) : (s.setStack n v).kv = s.kv := rfl
@[simp] theorem State.setStack_attn (s : State) (n : Nat) (v : Stack) : (s.setStack n v).attn = s.attn := rfl
@[simp] theorem State.setStack_links (s : State) (n : Nat) (v : Stack) : (s.setStack n v).links = s.links := rfl
@[simp] theorem State.setStack_hosts (s : State) (n : Nat) (v : Stack) : (s.setStack n v).hosts = s.hosts := rfl
@[simp] theorem State.setStack_sched (s : State) (n : Nat) (v : Stack) : (s.setStack n v).sched = s.sched := rfl
@[simp] theorem State.setStack_media (s : State) (n : Nat) (v : Stack) : (s.setStack n v).media = s.media := rfl
@[simp] theorem State.setStack_regs (s : State) (n : Nat) (v : Stack) : (s.setStack n v).regs = s.regs := rfl
@[simp] theorem State.setStack_rel (s : State) (n : Nat) (v : Stack) : (s.setStack n v).rel = s.rel := rfl
@[simp] theorem State.setStack_fw (s : State) (n : Nat) (v : Stack) : (s.setStack n v).fw = s.fw := rfl
@[simp] theorem State.setStack_draws (s : State) (n : Nat) (v : Stack) : (s.setStack n v).draws = s.draws := rfl

/-! ### `State.setLink` -/

@[simp] theorem State.setLink_pending (s : State) (n : Nat) (v : Link) : (s.setLink n v).pending = s.pending := rfl
@[simp] theorem State.setLink_module (s : State) (n : Nat) (v : Link) : (s.setLink n v).module = s.module := rfl
@[simp] theorem State.setLink_sites (s : State) (n : Nat) (v : Link) : (s.setLink n v).sites = s.sites := rfl
@[simp] theorem State.setLink_tiles (s : State) (n : Nat) (v : Link) : (s.setLink n v).tiles = s.tiles := rfl
@[simp] theorem State.setLink_package (s : State) (n : Nat) (v : Link) : (s.setLink n v).package = s.package := rfl
@[simp] theorem State.setLink_rails (s : State) (n : Nat) (v : Link) : (s.setLink n v).rails = s.rails := rfl
@[simp] theorem State.setLink_memory (s : State) (n : Nat) (v : Link) : (s.setLink n v).memory = s.memory := rfl
@[simp] theorem State.setLink_tiers (s : State) (n : Nat) (v : Link) : (s.setLink n v).tiers = s.tiers := rfl
@[simp] theorem State.setLink_kv (s : State) (n : Nat) (v : Link) : (s.setLink n v).kv = s.kv := rfl
@[simp] theorem State.setLink_attn (s : State) (n : Nat) (v : Link) : (s.setLink n v).attn = s.attn := rfl
@[simp] theorem State.setLink_hosts (s : State) (n : Nat) (v : Link) : (s.setLink n v).hosts = s.hosts := rfl
@[simp] theorem State.setLink_sched (s : State) (n : Nat) (v : Link) : (s.setLink n v).sched = s.sched := rfl
@[simp] theorem State.setLink_media (s : State) (n : Nat) (v : Link) : (s.setLink n v).media = s.media := rfl
@[simp] theorem State.setLink_regs (s : State) (n : Nat) (v : Link) : (s.setLink n v).regs = s.regs := rfl
@[simp] theorem State.setLink_rel (s : State) (n : Nat) (v : Link) : (s.setLink n v).rel = s.rel := rfl
@[simp] theorem State.setLink_fw (s : State) (n : Nat) (v : Link) : (s.setLink n v).fw = s.fw := rfl
@[simp] theorem State.setLink_draws (s : State) (n : Nat) (v : Link) : (s.setLink n v).draws = s.draws := rfl

/-! ### `State.setGroup` -/

@[simp] theorem State.setGroup_pending (s : State) (cx g : Nat) (v : Group) : (s.setGroup cx g v).pending = s.pending := rfl
@[simp] theorem State.setGroup_module (s : State) (cx g : Nat) (v : Group) : (s.setGroup cx g v).module = s.module := rfl
@[simp] theorem State.setGroup_sites (s : State) (cx g : Nat) (v : Group) : (s.setGroup cx g v).sites = s.sites := rfl
@[simp] theorem State.setGroup_tiles (s : State) (cx g : Nat) (v : Group) : (s.setGroup cx g v).tiles = s.tiles := rfl
@[simp] theorem State.setGroup_package (s : State) (cx g : Nat) (v : Group) : (s.setGroup cx g v).package = s.package := rfl
@[simp] theorem State.setGroup_rails (s : State) (cx g : Nat) (v : Group) : (s.setGroup cx g v).rails = s.rails := rfl
@[simp] theorem State.setGroup_memory (s : State) (cx g : Nat) (v : Group) : (s.setGroup cx g v).memory = s.memory := rfl
@[simp] theorem State.setGroup_tiers (s : State) (cx g : Nat) (v : Group) : (s.setGroup cx g v).tiers = s.tiers := rfl
@[simp] theorem State.setGroup_kv (s : State) (cx g : Nat) (v : Group) : (s.setGroup cx g v).kv = s.kv := rfl
@[simp] theorem State.setGroup_attn (s : State) (cx g : Nat) (v : Group) : (s.setGroup cx g v).attn = s.attn := rfl
@[simp] theorem State.setGroup_hosts (s : State) (cx g : Nat) (v : Group) : (s.setGroup cx g v).hosts = s.hosts := rfl
@[simp] theorem State.setGroup_sched (s : State) (cx g : Nat) (v : Group) : (s.setGroup cx g v).sched = s.sched := rfl
@[simp] theorem State.setGroup_media (s : State) (cx g : Nat) (v : Group) : (s.setGroup cx g v).media = s.media := rfl
@[simp] theorem State.setGroup_regs (s : State) (cx g : Nat) (v : Group) : (s.setGroup cx g v).regs = s.regs := rfl
@[simp] theorem State.setGroup_rel (s : State) (cx g : Nat) (v : Group) : (s.setGroup cx g v).rel = s.rel := rfl
@[simp] theorem State.setGroup_fw (s : State) (cx g : Nat) (v : Group) : (s.setGroup cx g v).fw = s.fw := rfl
@[simp] theorem State.setGroup_draws (s : State) (cx g : Nat) (v : Group) : (s.setGroup cx g v).draws = s.draws := rfl

/-! ### `State.setStream` -/

@[simp] theorem State.setStream_pending (s : State) (n : Nat) (v : Stream) : (s.setStream n v).pending = s.pending := rfl
@[simp] theorem State.setStream_module (s : State) (n : Nat) (v : Stream) : (s.setStream n v).module = s.module := rfl
@[simp] theorem State.setStream_sites (s : State) (n : Nat) (v : Stream) : (s.setStream n v).sites = s.sites := rfl
@[simp] theorem State.setStream_tiles (s : State) (n : Nat) (v : Stream) : (s.setStream n v).tiles = s.tiles := rfl
@[simp] theorem State.setStream_package (s : State) (n : Nat) (v : Stream) : (s.setStream n v).package = s.package := rfl
@[simp] theorem State.setStream_rails (s : State) (n : Nat) (v : Stream) : (s.setStream n v).rails = s.rails := rfl
@[simp] theorem State.setStream_memory (s : State) (n : Nat) (v : Stream) : (s.setStream n v).memory = s.memory := rfl
@[simp] theorem State.setStream_tiers (s : State) (n : Nat) (v : Stream) : (s.setStream n v).tiers = s.tiers := rfl
@[simp] theorem State.setStream_kv (s : State) (n : Nat) (v : Stream) : (s.setStream n v).kv = s.kv := rfl
@[simp] theorem State.setStream_attn (s : State) (n : Nat) (v : Stream) : (s.setStream n v).attn = s.attn := rfl
@[simp] theorem State.setStream_hosts (s : State) (n : Nat) (v : Stream) : (s.setStream n v).hosts = s.hosts := rfl
@[simp] theorem State.setStream_sched (s : State) (n : Nat) (v : Stream) : (s.setStream n v).sched = s.sched := rfl
@[simp] theorem State.setStream_media (s : State) (n : Nat) (v : Stream) : (s.setStream n v).media = s.media := rfl
@[simp] theorem State.setStream_regs (s : State) (n : Nat) (v : Stream) : (s.setStream n v).regs = s.regs := rfl
@[simp] theorem State.setStream_rel (s : State) (n : Nat) (v : Stream) : (s.setStream n v).rel = s.rel := rfl
@[simp] theorem State.setStream_fw (s : State) (n : Nat) (v : Stream) : (s.setStream n v).fw = s.fw := rfl
@[simp] theorem State.setStream_draws (s : State) (n : Nat) (v : Stream) : (s.setStream n v).draws = s.draws := rfl

/-! ### `State.setSeq` -/

@[simp] theorem State.setSeq_pending (s : State) (n : Nat) (v : Sequence) : (s.setSeq n v).pending = s.pending := rfl
@[simp] theorem State.setSeq_module (s : State) (n : Nat) (v : Sequence) : (s.setSeq n v).module = s.module := rfl
@[simp] theorem State.setSeq_sites (s : State) (n : Nat) (v : Sequence) : (s.setSeq n v).sites = s.sites := rfl
@[simp] theorem State.setSeq_tiles (s : State) (n : Nat) (v : Sequence) : (s.setSeq n v).tiles = s.tiles := rfl
@[simp] theorem State.setSeq_package (s : State) (n : Nat) (v : Sequence) : (s.setSeq n v).package = s.package := rfl
@[simp] theorem State.setSeq_rails (s : State) (n : Nat) (v : Sequence) : (s.setSeq n v).rails = s.rails := rfl
@[simp] theorem State.setSeq_memory (s : State) (n : Nat) (v : Sequence) : (s.setSeq n v).memory = s.memory := rfl
@[simp] theorem State.setSeq_tiers (s : State) (n : Nat) (v : Sequence) : (s.setSeq n v).tiers = s.tiers := rfl
@[simp] theorem State.setSeq_attn (s : State) (n : Nat) (v : Sequence) : (s.setSeq n v).attn = s.attn := rfl
@[simp] theorem State.setSeq_links (s : State) (n : Nat) (v : Sequence) : (s.setSeq n v).links = s.links := rfl
@[simp] theorem State.setSeq_hosts (s : State) (n : Nat) (v : Sequence) : (s.setSeq n v).hosts = s.hosts := rfl
@[simp] theorem State.setSeq_sched (s : State) (n : Nat) (v : Sequence) : (s.setSeq n v).sched = s.sched := rfl
@[simp] theorem State.setSeq_media (s : State) (n : Nat) (v : Sequence) : (s.setSeq n v).media = s.media := rfl
@[simp] theorem State.setSeq_regs (s : State) (n : Nat) (v : Sequence) : (s.setSeq n v).regs = s.regs := rfl
@[simp] theorem State.setSeq_rel (s : State) (n : Nat) (v : Sequence) : (s.setSeq n v).rel = s.rel := rfl
@[simp] theorem State.setSeq_fw (s : State) (n : Nat) (v : Sequence) : (s.setSeq n v).fw = s.fw := rfl
@[simp] theorem State.setSeq_draws (s : State) (n : Nat) (v : Sequence) : (s.setSeq n v).draws = s.draws := rfl

/-! ### `State.setLap` -/

@[simp] theorem State.setLap_pending (s : State) (r i : Nat) (v : LapCounter) : (s.setLap r i v).pending = s.pending := rfl
@[simp] theorem State.setLap_module (s : State) (r i : Nat) (v : LapCounter) : (s.setLap r i v).module = s.module := rfl
@[simp] theorem State.setLap_sites (s : State) (r i : Nat) (v : LapCounter) : (s.setLap r i v).sites = s.sites := rfl
@[simp] theorem State.setLap_package (s : State) (r i : Nat) (v : LapCounter) : (s.setLap r i v).package = s.package := rfl
@[simp] theorem State.setLap_rails (s : State) (r i : Nat) (v : LapCounter) : (s.setLap r i v).rails = s.rails := rfl
@[simp] theorem State.setLap_memory (s : State) (r i : Nat) (v : LapCounter) : (s.setLap r i v).memory = s.memory := rfl
@[simp] theorem State.setLap_tiers (s : State) (r i : Nat) (v : LapCounter) : (s.setLap r i v).tiers = s.tiers := rfl
@[simp] theorem State.setLap_kv (s : State) (r i : Nat) (v : LapCounter) : (s.setLap r i v).kv = s.kv := rfl
@[simp] theorem State.setLap_attn (s : State) (r i : Nat) (v : LapCounter) : (s.setLap r i v).attn = s.attn := rfl
@[simp] theorem State.setLap_links (s : State) (r i : Nat) (v : LapCounter) : (s.setLap r i v).links = s.links := rfl
@[simp] theorem State.setLap_hosts (s : State) (r i : Nat) (v : LapCounter) : (s.setLap r i v).hosts = s.hosts := rfl
@[simp] theorem State.setLap_sched (s : State) (r i : Nat) (v : LapCounter) : (s.setLap r i v).sched = s.sched := rfl
@[simp] theorem State.setLap_media (s : State) (r i : Nat) (v : LapCounter) : (s.setLap r i v).media = s.media := rfl
@[simp] theorem State.setLap_regs (s : State) (r i : Nat) (v : LapCounter) : (s.setLap r i v).regs = s.regs := rfl
@[simp] theorem State.setLap_rel (s : State) (r i : Nat) (v : LapCounter) : (s.setLap r i v).rel = s.rel := rfl
@[simp] theorem State.setLap_fw (s : State) (r i : Nat) (v : LapCounter) : (s.setLap r i v).fw = s.fw := rfl
@[simp] theorem State.setLap_draws (s : State) (r i : Nat) (v : LapCounter) : (s.setLap r i v).draws = s.draws := rfl

/-! ### `State.setCore` -/

@[simp] theorem State.setCore_pending (s : State) (t c : Nat) (v : Core) : (s.setCore t c v).pending = s.pending := rfl
@[simp] theorem State.setCore_module (s : State) (t c : Nat) (v : Core) : (s.setCore t c v).module = s.module := rfl
@[simp] theorem State.setCore_sites (s : State) (t c : Nat) (v : Core) : (s.setCore t c v).sites = s.sites := rfl
@[simp] theorem State.setCore_package (s : State) (t c : Nat) (v : Core) : (s.setCore t c v).package = s.package := rfl
@[simp] theorem State.setCore_rails (s : State) (t c : Nat) (v : Core) : (s.setCore t c v).rails = s.rails := rfl
@[simp] theorem State.setCore_memory (s : State) (t c : Nat) (v : Core) : (s.setCore t c v).memory = s.memory := rfl
@[simp] theorem State.setCore_tiers (s : State) (t c : Nat) (v : Core) : (s.setCore t c v).tiers = s.tiers := rfl
@[simp] theorem State.setCore_kv (s : State) (t c : Nat) (v : Core) : (s.setCore t c v).kv = s.kv := rfl
@[simp] theorem State.setCore_attn (s : State) (t c : Nat) (v : Core) : (s.setCore t c v).attn = s.attn := rfl
@[simp] theorem State.setCore_links (s : State) (t c : Nat) (v : Core) : (s.setCore t c v).links = s.links := rfl
@[simp] theorem State.setCore_hosts (s : State) (t c : Nat) (v : Core) : (s.setCore t c v).hosts = s.hosts := rfl
@[simp] theorem State.setCore_sched (s : State) (t c : Nat) (v : Core) : (s.setCore t c v).sched = s.sched := rfl
@[simp] theorem State.setCore_media (s : State) (t c : Nat) (v : Core) : (s.setCore t c v).media = s.media := rfl
@[simp] theorem State.setCore_regs (s : State) (t c : Nat) (v : Core) : (s.setCore t c v).regs = s.regs := rfl
@[simp] theorem State.setCore_rel (s : State) (t c : Nat) (v : Core) : (s.setCore t c v).rel = s.rel := rfl
@[simp] theorem State.setCore_fw (s : State) (t c : Nat) (v : Core) : (s.setCore t c v).fw = s.fw := rfl
@[simp] theorem State.setCore_draws (s : State) (t c : Nat) (v : Core) : (s.setCore t c v).draws = s.draws := rfl

/-! ### `State.setCoreSite` -/

@[simp] theorem State.setCoreSite_pending (s : State) (t c : Nat) (v : CoreSite) : (s.setCoreSite t c v).pending = s.pending := rfl
@[simp] theorem State.setCoreSite_module (s : State) (t c : Nat) (v : CoreSite) : (s.setCoreSite t c v).module = s.module := rfl
@[simp] theorem State.setCoreSite_sites (s : State) (t c : Nat) (v : CoreSite) : (s.setCoreSite t c v).sites = s.sites := rfl
@[simp] theorem State.setCoreSite_package (s : State) (t c : Nat) (v : CoreSite) : (s.setCoreSite t c v).package = s.package := rfl
@[simp] theorem State.setCoreSite_rails (s : State) (t c : Nat) (v : CoreSite) : (s.setCoreSite t c v).rails = s.rails := rfl
@[simp] theorem State.setCoreSite_memory (s : State) (t c : Nat) (v : CoreSite) : (s.setCoreSite t c v).memory = s.memory := rfl
@[simp] theorem State.setCoreSite_tiers (s : State) (t c : Nat) (v : CoreSite) : (s.setCoreSite t c v).tiers = s.tiers := rfl
@[simp] theorem State.setCoreSite_kv (s : State) (t c : Nat) (v : CoreSite) : (s.setCoreSite t c v).kv = s.kv := rfl
@[simp] theorem State.setCoreSite_attn (s : State) (t c : Nat) (v : CoreSite) : (s.setCoreSite t c v).attn = s.attn := rfl
@[simp] theorem State.setCoreSite_links (s : State) (t c : Nat) (v : CoreSite) : (s.setCoreSite t c v).links = s.links := rfl
@[simp] theorem State.setCoreSite_hosts (s : State) (t c : Nat) (v : CoreSite) : (s.setCoreSite t c v).hosts = s.hosts := rfl
@[simp] theorem State.setCoreSite_sched (s : State) (t c : Nat) (v : CoreSite) : (s.setCoreSite t c v).sched = s.sched := rfl
@[simp] theorem State.setCoreSite_media (s : State) (t c : Nat) (v : CoreSite) : (s.setCoreSite t c v).media = s.media := rfl
@[simp] theorem State.setCoreSite_regs (s : State) (t c : Nat) (v : CoreSite) : (s.setCoreSite t c v).regs = s.regs := rfl
@[simp] theorem State.setCoreSite_rel (s : State) (t c : Nat) (v : CoreSite) : (s.setCoreSite t c v).rel = s.rel := rfl
@[simp] theorem State.setCoreSite_fw (s : State) (t c : Nat) (v : CoreSite) : (s.setCoreSite t c v).fw = s.fw := rfl
@[simp] theorem State.setCoreSite_draws (s : State) (t c : Nat) (v : CoreSite) : (s.setCoreSite t c v).draws = s.draws := rfl

/-! ### `State.setKernel` -/

@[simp] theorem State.setKernel_pending (s : State) (i : Nat) (v : Option Kernel) : (s.setKernel i v).pending = s.pending := rfl
@[simp] theorem State.setKernel_module (s : State) (i : Nat) (v : Option Kernel) : (s.setKernel i v).module = s.module := rfl
@[simp] theorem State.setKernel_sites (s : State) (i : Nat) (v : Option Kernel) : (s.setKernel i v).sites = s.sites := rfl
@[simp] theorem State.setKernel_package (s : State) (i : Nat) (v : Option Kernel) : (s.setKernel i v).package = s.package := rfl
@[simp] theorem State.setKernel_rails (s : State) (i : Nat) (v : Option Kernel) : (s.setKernel i v).rails = s.rails := rfl
@[simp] theorem State.setKernel_memory (s : State) (i : Nat) (v : Option Kernel) : (s.setKernel i v).memory = s.memory := rfl
@[simp] theorem State.setKernel_tiers (s : State) (i : Nat) (v : Option Kernel) : (s.setKernel i v).tiers = s.tiers := rfl
@[simp] theorem State.setKernel_kv (s : State) (i : Nat) (v : Option Kernel) : (s.setKernel i v).kv = s.kv := rfl
@[simp] theorem State.setKernel_attn (s : State) (i : Nat) (v : Option Kernel) : (s.setKernel i v).attn = s.attn := rfl
@[simp] theorem State.setKernel_links (s : State) (i : Nat) (v : Option Kernel) : (s.setKernel i v).links = s.links := rfl
@[simp] theorem State.setKernel_hosts (s : State) (i : Nat) (v : Option Kernel) : (s.setKernel i v).hosts = s.hosts := rfl
@[simp] theorem State.setKernel_sched (s : State) (i : Nat) (v : Option Kernel) : (s.setKernel i v).sched = s.sched := rfl
@[simp] theorem State.setKernel_media (s : State) (i : Nat) (v : Option Kernel) : (s.setKernel i v).media = s.media := rfl
@[simp] theorem State.setKernel_regs (s : State) (i : Nat) (v : Option Kernel) : (s.setKernel i v).regs = s.regs := rfl
@[simp] theorem State.setKernel_rel (s : State) (i : Nat) (v : Option Kernel) : (s.setKernel i v).rel = s.rel := rfl
@[simp] theorem State.setKernel_fw (s : State) (i : Nat) (v : Option Kernel) : (s.setKernel i v).fw = s.fw := rfl
@[simp] theorem State.setKernel_draws (s : State) (i : Nat) (v : Option Kernel) : (s.setKernel i v).draws = s.draws := rfl

/-! ### `State.setPo` -/

@[simp] theorem State.setPo_pending (s : State) (p : Nat) (v : Playout) : (s.setPo p v).pending = s.pending := rfl
@[simp] theorem State.setPo_module (s : State) (p : Nat) (v : Playout) : (s.setPo p v).module = s.module := rfl
@[simp] theorem State.setPo_sites (s : State) (p : Nat) (v : Playout) : (s.setPo p v).sites = s.sites := rfl
@[simp] theorem State.setPo_tiles (s : State) (p : Nat) (v : Playout) : (s.setPo p v).tiles = s.tiles := rfl
@[simp] theorem State.setPo_package (s : State) (p : Nat) (v : Playout) : (s.setPo p v).package = s.package := rfl
@[simp] theorem State.setPo_rails (s : State) (p : Nat) (v : Playout) : (s.setPo p v).rails = s.rails := rfl
@[simp] theorem State.setPo_memory (s : State) (p : Nat) (v : Playout) : (s.setPo p v).memory = s.memory := rfl
@[simp] theorem State.setPo_tiers (s : State) (p : Nat) (v : Playout) : (s.setPo p v).tiers = s.tiers := rfl
@[simp] theorem State.setPo_kv (s : State) (p : Nat) (v : Playout) : (s.setPo p v).kv = s.kv := rfl
@[simp] theorem State.setPo_attn (s : State) (p : Nat) (v : Playout) : (s.setPo p v).attn = s.attn := rfl
@[simp] theorem State.setPo_links (s : State) (p : Nat) (v : Playout) : (s.setPo p v).links = s.links := rfl
@[simp] theorem State.setPo_hosts (s : State) (p : Nat) (v : Playout) : (s.setPo p v).hosts = s.hosts := rfl
@[simp] theorem State.setPo_sched (s : State) (p : Nat) (v : Playout) : (s.setPo p v).sched = s.sched := rfl
@[simp] theorem State.setPo_regs (s : State) (p : Nat) (v : Playout) : (s.setPo p v).regs = s.regs := rfl
@[simp] theorem State.setPo_rel (s : State) (p : Nat) (v : Playout) : (s.setPo p v).rel = s.rel := rfl
@[simp] theorem State.setPo_fw (s : State) (p : Nat) (v : Playout) : (s.setPo p v).fw = s.fw := rfl
@[simp] theorem State.setPo_draws (s : State) (p : Nat) (v : Playout) : (s.setPo p v).draws = s.draws := rfl

/-! ### `State.setMstream` -/

@[simp] theorem State.setMstream_pending (s : State) (n : Nat) (v : MStream) : (s.setMstream n v).pending = s.pending := rfl
@[simp] theorem State.setMstream_module (s : State) (n : Nat) (v : MStream) : (s.setMstream n v).module = s.module := rfl
@[simp] theorem State.setMstream_sites (s : State) (n : Nat) (v : MStream) : (s.setMstream n v).sites = s.sites := rfl
@[simp] theorem State.setMstream_tiles (s : State) (n : Nat) (v : MStream) : (s.setMstream n v).tiles = s.tiles := rfl
@[simp] theorem State.setMstream_package (s : State) (n : Nat) (v : MStream) : (s.setMstream n v).package = s.package := rfl
@[simp] theorem State.setMstream_rails (s : State) (n : Nat) (v : MStream) : (s.setMstream n v).rails = s.rails := rfl
@[simp] theorem State.setMstream_memory (s : State) (n : Nat) (v : MStream) : (s.setMstream n v).memory = s.memory := rfl
@[simp] theorem State.setMstream_tiers (s : State) (n : Nat) (v : MStream) : (s.setMstream n v).tiers = s.tiers := rfl
@[simp] theorem State.setMstream_kv (s : State) (n : Nat) (v : MStream) : (s.setMstream n v).kv = s.kv := rfl
@[simp] theorem State.setMstream_attn (s : State) (n : Nat) (v : MStream) : (s.setMstream n v).attn = s.attn := rfl
@[simp] theorem State.setMstream_links (s : State) (n : Nat) (v : MStream) : (s.setMstream n v).links = s.links := rfl
@[simp] theorem State.setMstream_hosts (s : State) (n : Nat) (v : MStream) : (s.setMstream n v).hosts = s.hosts := rfl
@[simp] theorem State.setMstream_sched (s : State) (n : Nat) (v : MStream) : (s.setMstream n v).sched = s.sched := rfl
@[simp] theorem State.setMstream_regs (s : State) (n : Nat) (v : MStream) : (s.setMstream n v).regs = s.regs := rfl
@[simp] theorem State.setMstream_rel (s : State) (n : Nat) (v : MStream) : (s.setMstream n v).rel = s.rel := rfl
@[simp] theorem State.setMstream_fw (s : State) (n : Nat) (v : MStream) : (s.setMstream n v).fw = s.fw := rfl
@[simp] theorem State.setMstream_draws (s : State) (n : Nat) (v : MStream) : (s.setMstream n v).draws = s.draws := rfl

/-! ### `State.setEngine` -/

@[simp] theorem State.setEngine_pending (s : State) (n : Nat) (v : MEngine) : (s.setEngine n v).pending = s.pending := rfl
@[simp] theorem State.setEngine_module (s : State) (n : Nat) (v : MEngine) : (s.setEngine n v).module = s.module := rfl
@[simp] theorem State.setEngine_sites (s : State) (n : Nat) (v : MEngine) : (s.setEngine n v).sites = s.sites := rfl
@[simp] theorem State.setEngine_tiles (s : State) (n : Nat) (v : MEngine) : (s.setEngine n v).tiles = s.tiles := rfl
@[simp] theorem State.setEngine_package (s : State) (n : Nat) (v : MEngine) : (s.setEngine n v).package = s.package := rfl
@[simp] theorem State.setEngine_rails (s : State) (n : Nat) (v : MEngine) : (s.setEngine n v).rails = s.rails := rfl
@[simp] theorem State.setEngine_memory (s : State) (n : Nat) (v : MEngine) : (s.setEngine n v).memory = s.memory := rfl
@[simp] theorem State.setEngine_tiers (s : State) (n : Nat) (v : MEngine) : (s.setEngine n v).tiers = s.tiers := rfl
@[simp] theorem State.setEngine_kv (s : State) (n : Nat) (v : MEngine) : (s.setEngine n v).kv = s.kv := rfl
@[simp] theorem State.setEngine_attn (s : State) (n : Nat) (v : MEngine) : (s.setEngine n v).attn = s.attn := rfl
@[simp] theorem State.setEngine_links (s : State) (n : Nat) (v : MEngine) : (s.setEngine n v).links = s.links := rfl
@[simp] theorem State.setEngine_hosts (s : State) (n : Nat) (v : MEngine) : (s.setEngine n v).hosts = s.hosts := rfl
@[simp] theorem State.setEngine_sched (s : State) (n : Nat) (v : MEngine) : (s.setEngine n v).sched = s.sched := rfl
@[simp] theorem State.setEngine_regs (s : State) (n : Nat) (v : MEngine) : (s.setEngine n v).regs = s.regs := rfl
@[simp] theorem State.setEngine_rel (s : State) (n : Nat) (v : MEngine) : (s.setEngine n v).rel = s.rel := rfl
@[simp] theorem State.setEngine_fw (s : State) (n : Nat) (v : MEngine) : (s.setEngine n v).fw = s.fw := rfl
@[simp] theorem State.setEngine_draws (s : State) (n : Nat) (v : MEngine) : (s.setEngine n v).draws = s.draws := rfl

/-! ### Counting and setting bits of a register -/

@[simp] theorem State.addSat_pending (s : State) (k v : Nat) : (s.addSat k v).pending = s.pending := rfl
@[simp] theorem State.addSat_module (s : State) (k v : Nat) : (s.addSat k v).module = s.module := rfl
@[simp] theorem State.addSat_sites (s : State) (k v : Nat) : (s.addSat k v).sites = s.sites := rfl
@[simp] theorem State.addSat_tiles (s : State) (k v : Nat) : (s.addSat k v).tiles = s.tiles := rfl
@[simp] theorem State.addSat_package (s : State) (k v : Nat) : (s.addSat k v).package = s.package := rfl
@[simp] theorem State.addSat_rails (s : State) (k v : Nat) : (s.addSat k v).rails = s.rails := rfl
@[simp] theorem State.addSat_memory (s : State) (k v : Nat) : (s.addSat k v).memory = s.memory := rfl
@[simp] theorem State.addSat_tiers (s : State) (k v : Nat) : (s.addSat k v).tiers = s.tiers := rfl
@[simp] theorem State.addSat_kv (s : State) (k v : Nat) : (s.addSat k v).kv = s.kv := rfl
@[simp] theorem State.addSat_attn (s : State) (k v : Nat) : (s.addSat k v).attn = s.attn := rfl
@[simp] theorem State.addSat_links (s : State) (k v : Nat) : (s.addSat k v).links = s.links := rfl
@[simp] theorem State.addSat_hosts (s : State) (k v : Nat) : (s.addSat k v).hosts = s.hosts := rfl
@[simp] theorem State.addSat_sched (s : State) (k v : Nat) : (s.addSat k v).sched = s.sched := rfl
@[simp] theorem State.addSat_media (s : State) (k v : Nat) : (s.addSat k v).media = s.media := rfl
@[simp] theorem State.addSat_rel (s : State) (k v : Nat) : (s.addSat k v).rel = s.rel := rfl
@[simp] theorem State.addSat_fw (s : State) (k v : Nat) : (s.addSat k v).fw = s.fw := rfl
@[simp] theorem State.addSat_draws (s : State) (k v : Nat) : (s.addSat k v).draws = s.draws := rfl
@[simp] theorem State.addWrap_pending (s : State) (k v : Nat) : (s.addWrap k v).pending = s.pending := rfl
@[simp] theorem State.addWrap_module (s : State) (k v : Nat) : (s.addWrap k v).module = s.module := rfl
@[simp] theorem State.addWrap_sites (s : State) (k v : Nat) : (s.addWrap k v).sites = s.sites := rfl
@[simp] theorem State.addWrap_tiles (s : State) (k v : Nat) : (s.addWrap k v).tiles = s.tiles := rfl
@[simp] theorem State.addWrap_package (s : State) (k v : Nat) : (s.addWrap k v).package = s.package := rfl
@[simp] theorem State.addWrap_rails (s : State) (k v : Nat) : (s.addWrap k v).rails = s.rails := rfl
@[simp] theorem State.addWrap_memory (s : State) (k v : Nat) : (s.addWrap k v).memory = s.memory := rfl
@[simp] theorem State.addWrap_tiers (s : State) (k v : Nat) : (s.addWrap k v).tiers = s.tiers := rfl
@[simp] theorem State.addWrap_kv (s : State) (k v : Nat) : (s.addWrap k v).kv = s.kv := rfl
@[simp] theorem State.addWrap_attn (s : State) (k v : Nat) : (s.addWrap k v).attn = s.attn := rfl
@[simp] theorem State.addWrap_links (s : State) (k v : Nat) : (s.addWrap k v).links = s.links := rfl
@[simp] theorem State.addWrap_hosts (s : State) (k v : Nat) : (s.addWrap k v).hosts = s.hosts := rfl
@[simp] theorem State.addWrap_sched (s : State) (k v : Nat) : (s.addWrap k v).sched = s.sched := rfl
@[simp] theorem State.addWrap_media (s : State) (k v : Nat) : (s.addWrap k v).media = s.media := rfl
@[simp] theorem State.addWrap_rel (s : State) (k v : Nat) : (s.addWrap k v).rel = s.rel := rfl
@[simp] theorem State.addWrap_fw (s : State) (k v : Nat) : (s.addWrap k v).fw = s.fw := rfl
@[simp] theorem State.addWrap_draws (s : State) (k v : Nat) : (s.addWrap k v).draws = s.draws := rfl
@[simp] theorem State.orReg_pending (s : State) (k v : Nat) : (s.orReg k v).pending = s.pending := rfl
@[simp] theorem State.orReg_module (s : State) (k v : Nat) : (s.orReg k v).module = s.module := rfl
@[simp] theorem State.orReg_sites (s : State) (k v : Nat) : (s.orReg k v).sites = s.sites := rfl
@[simp] theorem State.orReg_tiles (s : State) (k v : Nat) : (s.orReg k v).tiles = s.tiles := rfl
@[simp] theorem State.orReg_package (s : State) (k v : Nat) : (s.orReg k v).package = s.package := rfl
@[simp] theorem State.orReg_rails (s : State) (k v : Nat) : (s.orReg k v).rails = s.rails := rfl
@[simp] theorem State.orReg_memory (s : State) (k v : Nat) : (s.orReg k v).memory = s.memory := rfl
@[simp] theorem State.orReg_tiers (s : State) (k v : Nat) : (s.orReg k v).tiers = s.tiers := rfl
@[simp] theorem State.orReg_kv (s : State) (k v : Nat) : (s.orReg k v).kv = s.kv := rfl
@[simp] theorem State.orReg_attn (s : State) (k v : Nat) : (s.orReg k v).attn = s.attn := rfl
@[simp] theorem State.orReg_links (s : State) (k v : Nat) : (s.orReg k v).links = s.links := rfl
@[simp] theorem State.orReg_hosts (s : State) (k v : Nat) : (s.orReg k v).hosts = s.hosts := rfl
@[simp] theorem State.orReg_sched (s : State) (k v : Nat) : (s.orReg k v).sched = s.sched := rfl
@[simp] theorem State.orReg_media (s : State) (k v : Nat) : (s.orReg k v).media = s.media := rfl
@[simp] theorem State.orReg_rel (s : State) (k v : Nat) : (s.orReg k v).rel = s.rel := rfl
@[simp] theorem State.orReg_fw (s : State) (k v : Nat) : (s.orReg k v).fw = s.fw := rfl
@[simp] theorem State.orReg_draws (s : State) (k v : Nat) : (s.orReg k v).draws = s.draws := rfl

/-! ### Reads of a unit after its update -/

@[simp] theorem State.reg_setReg_same (s : State) (k v : Nat) : (s.setReg k v).reg k = v := by
  simp [State.reg, State.setReg]

theorem State.reg_setReg_other (s : State) (k v i : Nat) (h : i ≠ k) : (s.setReg k v).reg i = s.reg i := by
  simp [State.reg, State.setReg, tget_tput_other _ _ _ _ _ _ h]

theorem State.reg_setReg (s : State) (k v i : Nat) : (s.setReg k v).reg i = if i = k then v else s.reg i := by
  by_cases h : i = k
  · subst h; simp
  · simp [h, State.reg_setReg_other s k v i h]

@[simp] theorem State.site_setSite_same (s : State) (n : Nat) (v : Site) : (s.setSite n v).site n = v := by
  simp [State.site, State.setSite]

theorem State.site_setSite_other (s : State) (n i : Nat) (v : Site) (h : i ≠ n) : (s.setSite n v).site i = s.site i := by
  simp [State.site, State.setSite, tget_tput_other _ _ _ _ _ _ h]

@[simp] theorem State.port_setPort_same (s : State) (n : Nat) (v : HostPort) : (s.setPort n v).port n = v := by
  simp [State.port, State.setPort]

theorem State.port_setPort_other (s : State) (n i : Nat) (v : HostPort) (h : i ≠ n) : (s.setPort n v).port i = s.port i := by
  simp [State.port, State.setPort, tget_tput_other _ _ _ _ _ _ h]

@[simp] theorem State.ctx_setCtx_same (s : State) (n : Nat) (v : Ctx) : (s.setCtx n v).ctx n = v := by
  simp [State.ctx, State.setCtx]

theorem State.ctx_setCtx_other (s : State) (n i : Nat) (v : Ctx) (h : i ≠ n) : (s.setCtx n v).ctx i = s.ctx i := by
  simp [State.ctx, State.setCtx, tget_tput_other _ _ _ _ _ _ h]

@[simp] theorem State.stack_setStack_same (s : State) (n : Nat) (v : Stack) : (s.setStack n v).stack n = v := by
  simp [State.stack, State.setStack]

theorem State.stack_setStack_other (s : State) (n i : Nat) (v : Stack) (h : i ≠ n) : (s.setStack n v).stack i = s.stack i := by
  simp [State.stack, State.setStack, tget_tput_other _ _ _ _ _ _ h]

@[simp] theorem State.link_setLink_same (s : State) (n : Nat) (v : Link) : (s.setLink n v).link n = v := by
  simp [State.link, State.setLink]

theorem State.link_setLink_other (s : State) (n i : Nat) (v : Link) (h : i ≠ n) : (s.setLink n v).link i = s.link i := by
  simp [State.link, State.setLink, tget_tput_other _ _ _ _ _ _ h]

@[simp] theorem State.stream_setStream_same (s : State) (n : Nat) (v : Stream) : (s.setStream n v).stream n = v := by
  simp [State.stream, State.setStream]

theorem State.stream_setStream_other (s : State) (n i : Nat) (v : Stream) (h : i ≠ n) : (s.setStream n v).stream i = s.stream i := by
  simp [State.stream, State.setStream, tget_tput_other _ _ _ _ _ _ h]

@[simp] theorem State.seq_setSeq_same (s : State) (n : Nat) (v : Sequence) : (s.setSeq n v).seq n = v := by
  simp [State.seq, State.setSeq]

theorem State.seq_setSeq_other (s : State) (n i : Nat) (v : Sequence) (h : i ≠ n) : (s.setSeq n v).seq i = s.seq i := by
  simp [State.seq, State.setSeq, tget_tput_other _ _ _ _ _ _ h]

@[simp] theorem State.kernel_setKernel_same (s : State) (n : Nat) (v : Option Kernel) : (s.setKernel n v).kernel n = v := by
  simp [State.kernel, State.setKernel]

theorem State.kernel_setKernel_other (s : State) (n i : Nat) (v : Option Kernel) (h : i ≠ n) : (s.setKernel n v).kernel i = s.kernel i := by
  simp [State.kernel, State.setKernel, tget_tput_other _ _ _ _ _ _ h]

@[simp] theorem State.po_setPo_same (s : State) (n : Nat) (v : Playout) : (s.setPo n v).po n = v := by
  simp [State.po, State.setPo]

theorem State.po_setPo_other (s : State) (n i : Nat) (v : Playout) (h : i ≠ n) : (s.setPo n v).po i = s.po i := by
  simp [State.po, State.setPo, tget_tput_other _ _ _ _ _ _ h]

@[simp] theorem State.mstream_setMstream_same (s : State) (n : Nat) (v : MStream) : (s.setMstream n v).mstream n = v := by
  simp [State.mstream, State.setMstream]

theorem State.mstream_setMstream_other (s : State) (n i : Nat) (v : MStream) (h : i ≠ n) : (s.setMstream n v).mstream i = s.mstream i := by
  simp [State.mstream, State.setMstream, tget_tput_other _ _ _ _ _ _ h]

@[simp] theorem State.engine_setEngine_same (s : State) (n : Nat) (v : MEngine) : (s.setEngine n v).engine n = v := by
  simp [State.engine, State.setEngine]

theorem State.engine_setEngine_other (s : State) (n i : Nat) (v : MEngine) (h : i ≠ n) : (s.setEngine n v).engine i = s.engine i := by
  simp [State.engine, State.setEngine, tget_tput_other _ _ _ _ _ _ h]

@[simp] theorem State.ring_setRing_same (s : State) (cx r : Nat) (v : Ring) : (s.setRing cx r v).ring cx r = v := by
  simp [State.ring, State.setRing]

theorem State.ring_setRing_other (s : State) (cx r j q : Nat) (v : Ring) (h : j ≠ cx ∨ q ≠ r) :
    (s.setRing cx r v).ring j q = s.ring j q := by
  by_cases hj : j = cx
  · subst hj
    have hq : q ≠ r := by tauto
    simp [State.ring, State.setRing, tget_tput_other _ _ _ _ _ _ hq]
  · simp [State.ring, State.setRing, State.ctx_setCtx_other s cx j _ hj]

end Sys2Proof.Machine
end

