-- ==== Sys2Proof/Laws/Memory.lean ====
section
/-!
SUPPORT. Every operation over the bytes keeps the canonical form, and what a read gives after a write.
-/

namespace Sys2Proof.Machine

open Sys2Proof

theorem putBytes_wf (t : List Host.Cell) (k : Nat) (l : List Byte) (h : tabWf t (0 : Byte)) :
    tabWf (putBytes t k l) (0 : Byte) := by
  induction l generalizing t k with
  | nil => exact h
  | cons b r ih => exact ih _ _ (tabWf_tput t k b 0 h)

/-- A byte outside the write reads as before. -/
theorem tget_putBytes_other (t : List Host.Cell) (k i : Nat) (l : List Byte) (h : i < k ∨ k + l.length ≤ i) :
    tget (putBytes t k l) i (0 : Byte) = tget t i 0 := by
  induction l generalizing t k with
  | nil => rfl
  | cons b r ih =>
    simp only [List.length_cons] at h
    simp only [putBytes]
    rw [ih _ _ (by omega), tget_tput_other _ _ _ _ _ _ (by omega)]

/-- A byte inside the write reads what was written. -/
theorem tget_putBytes_same (t : List Host.Cell) (k : Nat) (l : List Byte) (i : Nat) (h : i < l.length) :
    tget (putBytes t k l) (k + i) (0 : Byte) = l.getD i 0 := by
  induction l generalizing t k i with
  | nil => simp at h
  | cons b r ih =>
    simp only [putBytes]
    cases i with
    | zero =>
      rw [Nat.add_zero, tget_putBytes_other _ _ _ _ (by omega)]
      simp
    | succ j =>
      have e : k + (j + 1) = (k + 1) + j := by omega
      rw [e, ih _ _ _ (by simpa using h)]
      simp

theorem clearMarks_wf (l : List Nat) (a b c d : Nat) (h : setWf l) : setWf (clearMarks l a b c d) := setWf_filter l _ h

theorem State.infWrite_wf (s : State) (r a : Nat) (l : List Byte) (h : s.memory.wf) : (s.infWrite r a l).memory.wf := by
  obtain ⟨h1, h2, h3, h4, h5, h6⟩ := h
  unfold State.infWrite
  split_ifs
  · exact ⟨h1, h2, h3, h4, h5, h6⟩
  · exact ⟨putBytes_wf _ _ _ h1, h2, clearMarks_wf _ _ _ _ _ h3, h4, h5, h6⟩

theorem State.poisonLine_wf (s : State) (r l : Nat) (h : s.memory.wf) : (s.poisonLine r l).memory.wf := by
  obtain ⟨h1, h2, h3, h4, h5, h6⟩ := h
  have h := setWf_sput s.memory.poisonLines (786432 * r + l) h3
  rw [State.poisonLine, State.addSat_memory]
  exact ⟨h1, h2, h, h4, h5, h6⟩

theorem State.firstWrite_wf (s : State) (k : Nat) (h : s.memory.wf) : (s.firstWrite k).memory.wf := by
  obtain ⟨h1, h2, h3, h4, h5, h6⟩ := h
  have h7 := setWf_sunion s.memory.poisonWords (unitMarks (k / 65536)) h4
  have h8 := setWf_sput s.memory.unitsWritten (k / 65536) h6
  unfold State.firstWrite
  split_ifs
  · generalize unitMarks (k / 65536) = m at h7
    exact ⟨h1, h2, h3, h7, h5, h8⟩
  · exact ⟨h1, h2, h3, h4, h5, h6⟩

theorem State.storeWrite_wf (s : State) (k : Nat) (l : List Byte) (h : s.memory.wf) : (s.storeWrite k l).memory.wf := by
  unfold State.storeWrite
  split_ifs
  · exact h
  · obtain ⟨h1, h2, h3, h4, h5, h6⟩ :=
      State.firstWrite_wf _ (k + l.length - 1) (State.firstWrite_wf s k h)
    exact ⟨h1, putBytes_wf _ _ _ h2, h3, clearMarks_wf _ _ _ _ _ h4, h5, h6⟩

theorem State.poisonWord_wf (s : State) (k : Nat) (h : s.memory.wf) : (s.poisonWord k).memory.wf := by
  obtain ⟨h1, h2, h3, h4, h5, h6⟩ := h
  exact ⟨h1, h2, h3, setWf_sput _ _ h4, h5, h6⟩

theorem State.markLine_wf (s : State) (m : Nat) (h : s.memory.wf) : (s.markLine m).memory.wf := by
  obtain ⟨h1, h2, h3, h4, h5, h6⟩ := h
  exact ⟨h1, h2, setWf_sput _ _ h3, h4, h5, h6⟩

theorem State.infHavoc_wf (s : State) (r a n : Nat) (h : s.memory.wf) : (s.infHavoc r a n).memory.wf :=
  State.infWrite_wf s r a _ h

theorem State.storeHavoc_wf (s : State) (k n : Nat) (h : s.memory.wf) : (s.storeHavoc k n).memory.wf :=
  State.storeWrite_wf s k _ h

theorem State.storeClear_wf (s : State) (k n : Nat) (h : s.memory.wf) : (s.storeClear k n).memory.wf := by
  obtain ⟨h1, h2, h3, h4, h5, h6⟩ := h
  exact ⟨h1, tabWf_tdrop _ _ _ _ h2, h3, setWf_filter _ _ h4, h5, h6⟩

theorem zeroAlloc_wf (a r : Nat) (s : State) (h : s.memory.wf) : (zeroAlloc a r s).memory.wf := by
  obtain ⟨h1, h2, h3, h4, h5, h6⟩ := h
  exact ⟨tabWf_tdrop _ _ _ _ h1, h2, setWf_filter _ _ h3, h4, h5, h6⟩

theorem State.poisonInfield_wf (s : State) (r : Nat) (h : s.memory.wf) : (s.poisonInfield r).memory.wf := by
  obtain ⟨h1, h2, h3, h4, h5, h6⟩ := h
  refine ⟨tabWf_tdrop _ _ _ _ h1, h2, ?_, h4, h5, h6⟩
  simp only [State.poisonInfield, setWf]
  refine List.pairwise_append.mpr ⟨List.pairwise_append.mpr ⟨setWf_filter _ _ h3, ?_, ?_⟩, setWf_filter _ _ h3, ?_⟩
  · rw [List.pairwise_map]
    exact List.Pairwise.imp (fun h => by omega) List.pairwise_lt_range
  · intro a ha b hb
    simp only [List.mem_filter, decide_eq_true_eq] at ha
    obtain ⟨i, _, rfl⟩ := List.mem_map.mp hb
    omega
  · intro a ha b hb
    simp only [List.mem_filter, decide_eq_true_eq] at hb
    rcases List.mem_append.mp ha with ha | ha
    · simp only [List.mem_filter, decide_eq_true_eq] at ha; omega
    · obtain ⟨i, hi, rfl⟩ := List.mem_map.mp ha
      have := List.mem_range.mp hi
      omega

/-- The memory at reset is in canonical form. -/
theorem reset_memory_wf : State.reset.memory.wf := by
  refine ⟨?_, ?_, ?_, ?_, ?_, ?_⟩ <;> simp [State.reset, tabWf, setWf]

/-! ### Reads -/

/-- An infield byte outside the write reads as before. -/
theorem State.infByte_infWrite_other (s : State) (r a : Nat) (l : List Byte) (q b : Nat)
    (h : infKey q b < infKey r a ∨ infKey r a + l.length ≤ infKey q b) : (s.infWrite r a l).infByte q b = s.infByte q b := by
  unfold State.infWrite
  split_ifs
  · rfl
  · exact tget_putBytes_other _ _ _ _ h

/-- An infield byte inside the write reads what was written. -/
theorem State.infByte_infWrite_same (s : State) (r a : Nat) (l : List Byte) (i : Nat) (h : i < l.length) :
    (s.infWrite r a l).infByte r (a + i) = l.getD i 0 := by
  have hl : l ≠ [] := by rintro rfl; simp at h
  have e : infKey r (a + i) = infKey r a + i := by simp [infKey, Nat.add_assoc]
  simp only [State.infWrite, hl, if_false, State.infByte, e]
  exact tget_putBytes_same _ _ _ _ h

theorem State.firstWrite_store (s : State) (k : Nat) : (s.firstWrite k).memory.store = s.memory.store := by
  unfold State.firstWrite; split_ifs <;> rfl

/-- A store byte outside the write reads as before. -/
theorem State.storeByte_storeWrite_other (s : State) (k : Nat) (l : List Byte) (i : Nat)
    (h : i < k ∨ k + l.length ≤ i) : (s.storeWrite k l).storeByte i = s.storeByte i := by
  unfold State.storeWrite
  split_ifs
  · rfl
  · simp only [State.storeByte]
    rw [tget_putBytes_other _ _ _ _ h, State.firstWrite_store, State.firstWrite_store]

/-- A store byte inside the write reads what was written. -/
theorem State.storeByte_storeWrite_same (s : State) (k : Nat) (l : List Byte) (i : Nat) (h : i < l.length) :
    (s.storeWrite k l).storeByte (k + i) = l.getD i 0 := by
  have hl : l ≠ [] := by rintro rfl; simp at h
  simp only [State.storeWrite, hl, if_false, State.storeByte]
  exact tget_putBytes_same _ _ _ _ h

end Sys2Proof.Machine
end

