-- ==== Sys2Proof/Laws/Keeps.lean ====
section
/-!
SUPPORT. What no command does to the state: `Keeps P s t` says that the parts outside `P` are the same, and that whatever
`P` holds the queue is the same, the bytes keep their canonical form, the dies and the serial number are the same, and
neither the fuse count nor the logbook loses anything. Each operation of the model keeps it for the parts it writes; the
files beside this one say so, operation by operation.
-/

namespace Sys2Proof.Machine

open Sys2Proof Sys2Proof.Safety

/-- `t` keeps of `s` the parts outside `P`, and what no command changes or takes away. -/
structure Keeps (P : List Part) (s t : State) : Prop where
  parts : ∀ p, p ∉ P → sameIn p s t
  pending : t.pending = s.pending
  bytes : s.memory.wf → t.memory.wf
  dies : t.module.dies = s.module.dies
  serial : t.fw.serial = s.fw.serial
  fuses : s.fw.fuses ≤ t.fw.fuses
  number : s.rel.bookNumber ≤ t.rel.bookNumber
  book : t.rel.bookNumber = s.rel.bookNumber → s.rel.book <+: t.rel.book

theorem sameIn_refl (p : Part) (s : State) : sameIn p s s := by cases p <;> rfl

theorem sameIn_trans {p : Part} {s t u : State} (h : sameIn p s t) (g : sameIn p t u) : sameIn p s u := by
  cases p <;> exact Eq.trans g h

theorem Keeps.refl {P : List Part} (s : State) : Keeps P s s :=
  ⟨fun p _ => sameIn_refl p s, rfl, id, rfl, rfl, le_refl _, le_refl _, fun _ => List.prefix_refl _⟩

theorem Keeps.trans {P : List Part} {s t u : State} (h : Keeps P s t) (g : Keeps P t u) : Keeps P s u :=
  ⟨fun p m => sameIn_trans (h.parts p m) (g.parts p m), g.pending.trans h.pending, fun m => g.bytes (h.bytes m),
    g.dies.trans h.dies, g.serial.trans h.serial, h.fuses.trans g.fuses, h.number.trans g.number, fun e =>
      have a := h.number
      have b := g.number
      (h.book (by omega)).trans (g.book (by omega))⟩

/-- More parts may change. -/
theorem Keeps.mono {P Q : List Part} {s t : State} (h : Keeps P s t) (m : ∀ p, p ∈ P → p ∈ Q) : Keeps Q s t :=
  ⟨fun p n => h.parts p fun i => n (m p i), h.pending, h.bytes, h.dies, h.serial, h.fuses, h.number, h.book⟩

/-- An update of any part but the queue, where what no command changes is kept. -/
theorem Keeps.put {P : List Part} {s u : State} (h : Keeps P s u)
    (module : Module)
    (sites : Tab Site)
    (tiles : Tiles)
    (package : Option Package)
    (rails : Rails)
    (memory : Memory)
    (tiers : Tiers)
    (kv : Kv)
    (attn : Attn)
    (links : Links)
    (hosts : Hosts)
    (sched : Sched)
    (media : Media)
    (regs : Regs)
    (rel : Reliability)
    (fw : Firmware)
    (draws : Nat)
    (hd : module.dies = u.module.dies) (hm : u.memory.wf → memory.wf) (hs : fw.serial = u.fw.serial) (hf : u.fw.fuses ≤ fw.fuses)
    (hn : u.rel.bookNumber ≤ rel.bookNumber) (hb : rel.bookNumber = u.rel.bookNumber → u.rel.book <+: rel.book)
    (cmodule : module = u.module ∨ Part.module ∈ P := by first | exact .inr (by assumption) | exact .inl rfl)
    (csites : sites = u.sites ∨ Part.sites ∈ P := by first | exact .inr (by assumption) | exact .inl rfl)
    (ctiles : tiles = u.tiles ∨ Part.tiles ∈ P := by first | exact .inr (by assumption) | exact .inl rfl)
    (cpackage : package = u.package ∨ Part.package ∈ P := by first | exact .inr (by assumption) | exact .inl rfl)
    (crails : rails = u.rails ∨ Part.rails ∈ P := by first | exact .inr (by assumption) | exact .inl rfl)
    (cmemory : memory = u.memory ∨ Part.memory ∈ P := by first | exact .inr (by assumption) | exact .inl rfl)
    (ctiers : tiers = u.tiers ∨ Part.tiers ∈ P := by first | exact .inr (by assumption) | exact .inl rfl)
    (ckv : kv = u.kv ∨ Part.kv ∈ P := by first | exact .inr (by assumption) | exact .inl rfl)
    (cattn : attn = u.attn ∨ Part.attn ∈ P := by first | exact .inr (by assumption) | exact .inl rfl)
    (clinks : links = u.links ∨ Part.links ∈ P := by first | exact .inr (by assumption) | exact .inl rfl)
    (chosts : hosts = u.hosts ∨ Part.hosts ∈ P := by first | exact .inr (by assumption) | exact .inl rfl)
    (csched : sched = u.sched ∨ Part.sched ∈ P := by first | exact .inr (by assumption) | exact .inl rfl)
    (cmedia : media = u.media ∨ Part.media ∈ P := by first | exact .inr (by assumption) | exact .inl rfl)
    (cregs : regs = u.regs ∨ Part.regs ∈ P := by first | exact .inr (by assumption) | exact .inl rfl)
    (crel : rel = u.rel ∨ Part.rel ∈ P := by first | exact .inr (by assumption) | exact .inl rfl)
    (cfw : fw = u.fw ∨ Part.fw ∈ P := by first | exact .inr (by assumption) | exact .inl rfl)
    (cdraws : draws = u.draws ∨ Part.draws ∈ P := by first | exact .inr (by assumption) | exact .inl rfl) :
    Keeps P s (State.mk u.pending module sites tiles package rails memory tiers kv attn links hosts sched media regs rel fw draws) := by
  refine h.trans ⟨?_, rfl, hm, hd, hs, hf, hn, hb⟩
  intro p m
  cases p
  · exact cmodule.resolve_right m
  · exact csites.resolve_right m
  · exact ctiles.resolve_right m
  · exact cpackage.resolve_right m
  · exact crails.resolve_right m
  · exact cmemory.resolve_right m
  · exact ctiers.resolve_right m
  · exact ckv.resolve_right m
  · exact cattn.resolve_right m
  · exact clinks.resolve_right m
  · exact chosts.resolve_right m
  · exact csched.resolve_right m
  · exact cmedia.resolve_right m
  · exact cregs.resolve_right m
  · exact crel.resolve_right m
  · exact cfw.resolve_right m
  · exact cdraws.resolve_right m

/-- An update of parts about which nothing more is said. -/
theorem Keeps.free {P : List Part} {s u : State} (h : Keeps P s u)
    (sites : Tab Site)
    (tiles : Tiles)
    (package : Option Package)
    (rails : Rails)
    (tiers : Tiers)
    (kv : Kv)
    (attn : Attn)
    (links : Links)
    (hosts : Hosts)
    (sched : Sched)
    (media : Media)
    (regs : Regs)
    (draws : Nat)
    (csites : sites = u.sites ∨ Part.sites ∈ P := by first | exact .inr (by assumption) | exact .inl rfl)
    (ctiles : tiles = u.tiles ∨ Part.tiles ∈ P := by first | exact .inr (by assumption) | exact .inl rfl)
    (cpackage : package = u.package ∨ Part.package ∈ P := by first | exact .inr (by assumption) | exact .inl rfl)
    (crails : rails = u.rails ∨ Part.rails ∈ P := by first | exact .inr (by assumption) | exact .inl rfl)
    (ctiers : tiers = u.tiers ∨ Part.tiers ∈ P := by first | exact .inr (by assumption) | exact .inl rfl)
    (ckv : kv = u.kv ∨ Part.kv ∈ P := by first | exact .inr (by assumption) | exact .inl rfl)
    (cattn : attn = u.attn ∨ Part.attn ∈ P := by first | exact .inr (by assumption) | exact .inl rfl)
    (clinks : links = u.links ∨ Part.links ∈ P := by first | exact .inr (by assumption) | exact .inl rfl)
    (chosts : hosts = u.hosts ∨ Part.hosts ∈ P := by first | exact .inr (by assumption) | exact .inl rfl)
    (csched : sched = u.sched ∨ Part.sched ∈ P := by first | exact .inr (by assumption) | exact .inl rfl)
    (cmedia : media = u.media ∨ Part.media ∈ P := by first | exact .inr (by assumption) | exact .inl rfl)
    (cregs : regs = u.regs ∨ Part.regs ∈ P := by first | exact .inr (by assumption) | exact .inl rfl)
    (cdraws : draws = u.draws ∨ Part.draws ∈ P := by first | exact .inr (by assumption) | exact .inl rfl) :
    Keeps P s (State.mk u.pending u.module sites tiles package rails u.memory tiers kv attn links hosts sched media regs u.rel u.fw draws) :=
  h.put u.module sites tiles package rails u.memory tiers kv attn links hosts sched media regs u.rel u.fw draws rfl id rfl (le_refl _) (le_refl _)
    (fun _ => List.prefix_refl _) (cmodule := .inl rfl) (cmemory := .inl rfl) (crel := .inl rfl) (cfw := .inl rfl)
    (csites := csites) (ctiles := ctiles) (cpackage := cpackage) (crails := crails) (ctiers := ctiers) (ckv := ckv) (cattn := cattn) (clinks := clinks) (chosts := chosts) (csched := csched) (cmedia := cmedia) (cregs := cregs) (cdraws := cdraws)

/-- An update of the parts of which more is said, that leaves it as it is. -/
theorem Keeps.upd {P : List Part} {s u : State} (h : Keeps P s u)
    (module : Module)
    (sites : Tab Site)
    (tiles : Tiles)
    (package : Option Package)
    (rails : Rails)
    (memory : Memory)
    (tiers : Tiers)
    (kv : Kv)
    (attn : Attn)
    (links : Links)
    (hosts : Hosts)
    (sched : Sched)
    (media : Media)
    (regs : Regs)
    (rel : Reliability)
    (fw : Firmware)
    (draws : Nat)
    (hd : module.dies = u.module.dies) (hm : u.memory.wf → memory.wf) (hs : fw.serial = u.fw.serial) (hf : fw.fuses = u.fw.fuses)
    (hn : rel.bookNumber = u.rel.bookNumber) (hb : rel.book = u.rel.book)
    (cmodule : module = u.module ∨ Part.module ∈ P := by first | exact .inr (by assumption) | exact .inl rfl)
    (csites : sites = u.sites ∨ Part.sites ∈ P := by first | exact .inr (by assumption) | exact .inl rfl)
    (ctiles : tiles = u.tiles ∨ Part.tiles ∈ P := by first | exact .inr (by assumption) | exact .inl rfl)
    (cpackage : package = u.package ∨ Part.package ∈ P := by first | exact .inr (by assumption) | exact .inl rfl)
    (crails : rails = u.rails ∨ Part.rails ∈ P := by first | exact .inr (by assumption) | exact .inl rfl)
    (cmemory : memory = u.memory ∨ Part.memory ∈ P := by first | exact .inr (by assumption) | exact .inl rfl)
    (ctiers : tiers = u.tiers ∨ Part.tiers ∈ P := by first | exact .inr (by assumption) | exact .inl rfl)
    (ckv : kv = u.kv ∨ Part.kv ∈ P := by first | exact .inr (by assumption) | exact .inl rfl)
    (cattn : attn = u.attn ∨ Part.attn ∈ P := by first | exact .inr (by assumption) | exact .inl rfl)
    (clinks : links = u.links ∨ Part.links ∈ P := by first | exact .inr (by assumption) | exact .inl rfl)
    (chosts : hosts = u.hosts ∨ Part.hosts ∈ P := by first | exact .inr (by assumption) | exact .inl rfl)
    (csched : sched = u.sched ∨ Part.sched ∈ P := by first | exact .inr (by assumption) | exact .inl rfl)
    (cmedia : media = u.media ∨ Part.media ∈ P := by first | exact .inr (by assumption) | exact .inl rfl)
    (cregs : regs = u.regs ∨ Part.regs ∈ P := by first | exact .inr (by assumption) | exact .inl rfl)
    (crel : rel = u.rel ∨ Part.rel ∈ P := by first | exact .inr (by assumption) | exact .inl rfl)
    (cfw : fw = u.fw ∨ Part.fw ∈ P := by first | exact .inr (by assumption) | exact .inl rfl)
    (cdraws : draws = u.draws ∨ Part.draws ∈ P := by first | exact .inr (by assumption) | exact .inl rfl) :
    Keeps P s (State.mk u.pending module sites tiles package rails memory tiers kv attn links hosts sched media regs rel fw draws) :=
  h.put module sites tiles package rails memory tiers kv attn links hosts sched media regs rel fw draws hd hm hs hf.ge hn.ge (fun _ => by rw [hb])
    (cmodule := cmodule) (csites := csites) (ctiles := ctiles) (cpackage := cpackage) (crails := crails) (cmemory := cmemory) (ctiers := ctiers) (ckv := ckv) (cattn := cattn) (clinks := clinks) (chosts := chosts) (csched := csched) (cmedia := cmedia) (cregs := cregs) (crel := crel) (cfw := cfw) (cdraws := cdraws)

/-- An operation over the bytes alone. -/
theorem Keeps.store {P : List Part} {s u t : State} (h : Keeps P s u) (hm : u.memory.wf → t.memory.wf)
    (ht : t = { u with memory := t.memory }) (m : Part.memory ∈ P := by assumption) : Keeps P s t := by
  rw [ht]
  exact h.put _ _ _ _ _ _ _ _ _ _ _ _ _ _ _ _ _ rfl hm rfl (le_refl _) (le_refl _) (fun _ => List.prefix_refl _)

/-- A loop over a list, of states and of pairs of a state and more. -/
theorem Keeps.foldl {P : List Part} {s a : State} {β : Type} (l : List β) (f : State → β → State) (hf : ∀ u b, Keeps P s u → Keeps P s (f u b))
    (h : Keeps P s a) : Keeps P s (l.foldl f a) := foldl_keeps (Keeps P s) l f a h fun u b => hf u b

theorem Keeps.foldlFst {P : List Part} {s : State} {α β : Type} (l : List β) (f : State × α → β → State × α) (a : State × α)
    (hf : ∀ u b, Keeps P s u.1 → Keeps P s (f u b).1) (h : Keeps P s a.1) : Keeps P s (l.foldl f a).1 :=
  foldl_keeps (fun u => Keeps P s u.1) l f a h fun u b => hf u b

theorem Keeps.foldlSnd {P : List Part} {s : State} {α β : Type} (l : List β) (f : α × State → β → α × State) (a : α × State)
    (hf : ∀ u b, Keeps P s u.2 → Keeps P s (f u b).2) (h : Keeps P s a.2) : Keeps P s (l.foldl f a).2 :=
  foldl_keeps (fun u => Keeps P s u.2) l f a h fun u b => hf u b

theorem Keeps.iter {P : List Part} {s a : State} (n : Nat) (f : Nat → State → State) (hf : ∀ i u, Keeps P s u → Keeps P s (f i u))
    (h : Keeps P s a) : Keeps P s (iter n f a) := iter_keeps (Keeps P s) n f a h fun i u => hf i u

theorem Keeps.ofFst {P : List Part} {s t : State} {α : Type} {p : State × α} {x : α} (e : p = (t, x)) (h : Keeps P s p.1) : Keeps P s t := by
  subst e; exact h

/-- A choice, of a state and of an operation that may not apply. -/
theorem Keeps.ite {P : List Part} {s a b : State} {c : Prop} [Decidable c] (h : Keeps P s a) (g : Keeps P s b) : Keeps P s (if c then a else b) := by
  split
  · exact h
  · exact g

theorem Keeps.optIte {P : List Part} {s : State} {a b : Option State} {c : Prop} [Decidable c] (h : ∀ u, a = some u → Keeps P s u)
    (g : ∀ u, b = some u → Keeps P s u) : ∀ u, (if c then a else b) = some u → Keeps P s u := by
  split
  · exact h
  · exact g

theorem Keeps.optSome {P : List Part} {s a : State} (h : Keeps P s a) : ∀ u, some a = some u → Keeps P s u := by
  intro u e
  cases e
  exact h

theorem Keeps.optNone {P : List Part} {s : State} : ∀ u, (none : Option State) = some u → Keeps P s u := fun _ e => by cases e

theorem Keeps.ofSome {P : List Part} {s t : State} {o : Option State} (e : o = some t) (h : ∀ u, o = some u → Keeps P s u) : Keeps P s t := h t e

end Sys2Proof.Machine
end

