-- ==== Sys2Proof/Laws/KeepsMemory.lean ====
section
/-!
SUPPORT. The parts of the state that each operation may write, and that every operation keeps the bytes canonical, the logbook
growing and the fuses blown (`Keeps`): registers, host ports, the bytes, the links' queues, commit sets, tiers and page tables.
-/



namespace Sys2Proof.Machine

open Sys2Proof Sys2Proof.Safety

set_option linter.all false
set_option Elab.async false

theorem State.setPort_keeps {P : List Part} {s₀ : State} (a0 : State) (a1 : ℕ) (a2 : HostPort) (h0 : Keeps P s₀ a0)
    (chosts : Part.hosts ∈ P := by assumption) : Keeps P s₀ (State.setPort a0 a1 a2) := by
  unfold State.setPort
  repeat' (first
      | with_reducible assumption | dsimp only
      | (fail_if_no_progress with_reducible refine Keeps.free ?_ _ _ _ _ _ _ _ _ _ _ _ _ _))

theorem State.msix_keeps {P : List Part} {s₀ : State} (a0 : State) (a1 : ℕ) (a2 : ℕ) (h0 : Keeps P s₀ a0)
    (chosts : Part.hosts ∈ P := by assumption) : Keeps P s₀ (State.msix a0 a1 a2) := by
  unfold State.msix
  repeat' (first
      | with_reducible assumption | with_reducible apply State.setPort_keeps)

theorem State.setReg_keeps {P : List Part} {s₀ : State} (a0 : State) (a1 : ℕ) (a2 : ℕ) (h0 : Keeps P s₀ a0)
    (cregs : Part.regs ∈ P := by assumption) : Keeps P s₀ (State.setReg a0 a1 a2) := by
  unfold State.setReg
  repeat' (first
      | with_reducible assumption | dsimp only
      | (fail_if_no_progress with_reducible refine Keeps.free ?_ _ _ _ _ _ _ _ _ _ _ _ _ _))

theorem State.orReg_keeps {P : List Part} {s₀ : State} (a0 : State) (a1 : ℕ) (a2 : ℕ) (h0 : Keeps P s₀ a0)
    (cregs : Part.regs ∈ P := by assumption) : Keeps P s₀ (State.orReg a0 a1 a2) := by
  unfold State.orReg
  repeat' (first
      | with_reducible assumption | with_reducible apply State.setReg_keeps)

theorem State.hpEvent_keeps {P : List Part} {s₀ : State} (a0 : State) (a1 : ℕ) (a2 : ℕ) (h0 : Keeps P s₀ a0)
    (chosts : Part.hosts ∈ P := by assumption) (cregs : Part.regs ∈ P := by assumption) : Keeps P s₀
    (State.hpEvent a0 a1 a2) := by
  unfold State.hpEvent
  repeat' (first
      | with_reducible assumption | with_reducible apply State.msix_keeps | with_reducible apply State.orReg_keeps)

theorem State.hpEventAll_keeps {P : List Part} {s₀ : State} (a0 : State) (a1 : ℕ) (h0 : Keeps P s₀ a0)
    (chosts : Part.hosts ∈ P := by assumption) (cregs : Part.regs ∈ P := by assumption) : Keeps P s₀
    (State.hpEventAll a0 a1) := by
  unfold State.hpEventAll
  repeat' (first
      | with_reducible assumption | with_reducible apply State.hpEvent_keeps | with_reducible apply Keeps.iter
      | intro _)

theorem State.setKernel_keeps {P : List Part} {s₀ : State} (a0 : State) (a1 : ℕ) (a2 : Option Kernel) (h0
    : Keeps P s₀ a0) (ctiles : Part.tiles ∈ P := by assumption) : Keeps P s₀ (State.setKernel a0 a1 a2) := by
  unfold State.setKernel
  repeat' (first
      | with_reducible assumption | dsimp only
      | (fail_if_no_progress with_reducible refine Keeps.free ?_ _ _ _ _ _ _ _ _ _ _ _ _ _))

theorem State.setPo_keeps {P : List Part} {s₀ : State} (a0 : State) (a1 : ℕ) (a2 : Playout) (h0 : Keeps P s₀ a0)
    (cmedia : Part.media ∈ P := by assumption) : Keeps P s₀ (State.setPo a0 a1 a2) := by
  unfold State.setPo
  repeat' (first
      | with_reducible assumption | dsimp only
      | (fail_if_no_progress with_reducible refine Keeps.free ?_ _ _ _ _ _ _ _ _ _ _ _ _ _))

theorem State.poisonWord_keeps {P : List Part} {s₀ : State} (a0 : State) (a1 : ℕ) (h0 : Keeps P s₀ a0)
    (cmemory : Part.memory ∈ P := by assumption) : Keeps P s₀ (State.poisonWord a0 a1) := by
  exact Keeps.store h0 (State.poisonWord_wf _ _) rfl

theorem State.setSeq_keeps {P : List Part} {s₀ : State} (a0 : State) (a1 : ℕ) (a2 : Sequence) (h0 : Keeps P s₀ a0)
    (ckv : Part.kv ∈ P := by assumption) : Keeps P s₀ (State.setSeq a0 a1 a2) := by
  unfold State.setSeq
  repeat' (first
      | with_reducible assumption | dsimp only
      | (fail_if_no_progress with_reducible refine Keeps.free ?_ _ _ _ _ _ _ _ _ _ _ _ _ _))

theorem State.setLink_keeps {P : List Part} {s₀ : State} (a0 : State) (a1 : ℕ) (a2 : Link) (h0 : Keeps P s₀ a0)
    (clinks : Part.links ∈ P := by assumption) : Keeps P s₀ (State.setLink a0 a1 a2) := by
  unfold State.setLink
  repeat' (first
      | with_reducible assumption | dsimp only
      | (fail_if_no_progress with_reducible refine Keeps.free ?_ _ _ _ _ _ _ _ _ _ _ _ _ _))

theorem State.setCoreSite_keeps {P : List Part} {s₀ : State} (a0 : State) (a1 : ℕ) (a2 : ℕ) (a3 : CoreSite) (h0
    : Keeps P s₀ a0) (ctiles : Part.tiles ∈ P := by assumption) : Keeps P s₀ (State.setCoreSite a0 a1 a2 a3) := by
  unfold State.setCoreSite
  repeat' (first
      | with_reducible assumption | dsimp only
      | (fail_if_no_progress with_reducible refine Keeps.free ?_ _ _ _ _ _ _ _ _ _ _ _ _ _))

theorem State.moEvent_keeps {P : List Part} {s₀ : State} (a0 : State) (a1 : ℕ) (h0 : Keeps P s₀ a0)
    (cregs : Part.regs ∈ P := by assumption) : Keeps P s₀ (State.moEvent a0 a1) := by
  unfold State.moEvent
  repeat' (first
      | with_reducible assumption | with_reducible apply State.orReg_keeps)

theorem State.setStream_keeps {P : List Part} {s₀ : State} (a0 : State) (a1 : ℕ) (a2 : Stream) (h0 : Keeps P s₀ a0)
    (clinks : Part.links ∈ P := by assumption) : Keeps P s₀ (State.setStream a0 a1 a2) := by
  unfold State.setStream
  repeat' (first
      | with_reducible assumption | dsimp only
      | (fail_if_no_progress with_reducible refine Keeps.free ?_ _ _ _ _ _ _ _ _ _ _ _ _ _))

theorem State.firstWrite_keeps {P : List Part} {s₀ : State} (a0 : State) (a1 : ℕ) (h0 : Keeps P s₀ a0)
    (cmemory : Part.memory ∈ P := by assumption) : Keeps P s₀ (State.firstWrite a0 a1) := by
  refine Keeps.store h0 (State.firstWrite_wf _ _) ?_ <;> (unfold State.firstWrite; split_ifs <;> rfl)

theorem State.ownerEvent_keeps {P : List Part} {s₀ : State} (a0 : State) (a1 : ℕ) (h0 : Keeps P s₀ a0)
    (chosts : Part.hosts ∈ P := by assumption) (cregs : Part.regs ∈ P := by assumption) : Keeps P s₀
    (State.ownerEvent a0 a1) := by
  unfold State.ownerEvent
  repeat' (first
      | with_reducible assumption | with_reducible apply State.setReg_keeps | with_reducible apply State.msix_keeps
      | split | dsimp only)

theorem State.appendRecord_keeps {P : List Part} {s₀ : State} (a0 : State) (a1 : ℕ) (a2 : ℕ) (a3 : ℕ) (a4 : ℕ)
    (a5 : ℕ) (h0 : Keeps P s₀ a0) (chosts : Part.hosts ∈ P := by assumption) (cregs : Part.regs ∈ P := by assumption)
    (crel : Part.rel ∈ P := by assumption) : Keeps P s₀ (State.appendRecord a0 a1 a2 a3 a4 a5) := by
  unfold State.appendRecord
  split
  · exact State.ownerEvent_keeps _ _ h0
  · refine State.ownerEvent_keeps _ _ (h0.put _ _ _ _ _ _ _ _ _ _ _ _ _ _ _ _ _ rfl id rfl (le_refl _) (le_refl _) fun _ => ?_)
    exact List.prefix_append _ _

theorem State.sign_keeps {P : List Part} {s₀ : State} (a0 : State) (a1 : List Byte) (h0 : Keeps P s₀ a0)
    (chosts : Part.hosts ∈ P := by assumption) (cregs : Part.regs ∈ P := by assumption)
    (crel : Part.rel ∈ P := by assumption) (cfw : Part.fw ∈ P := by assumption) : Keeps P s₀
    (State.sign a0 a1).1 := by
  unfold State.sign
  repeat' (first
      | with_reducible assumption | with_reducible apply State.appendRecord_keeps | split | intro _ | dsimp only
      | (fail_if_no_progress with_reducible refine Keeps.upd ?_ _ _ _ _ _ _ _ _ _ _ _ _ _ _ _ _ _ ?_ ?_ ?_ ?_ ?_ ?_))

theorem State.checkpoint_keeps {P : List Part} {s₀ : State} (a0 : State) (h0 : Keeps P s₀ a0)
    (chosts : Part.hosts ∈ P := by assumption) (cregs : Part.regs ∈ P := by assumption)
    (crel : Part.rel ∈ P := by assumption) (cfw : Part.fw ∈ P := by assumption) : Keeps P s₀
    (State.checkpoint a0) := by
  unfold State.checkpoint
  repeat' (first
      | with_reducible assumption | with_reducible apply State.appendRecord_keeps
      | with_reducible apply State.sign_keeps
      | (with_reducible refine Keeps.ofFst (by with_reducible assumption) ?_) | split | intro _ | dsimp only
      | (fail_if_no_progress with_reducible refine Keeps.upd ?_ _ _ _ _ _ _ _ _ _ _ _ _ _ _ _ _ _ ?_ ?_ ?_ ?_ ?_ ?_))

theorem State.addWrap_keeps {P : List Part} {s₀ : State} (a0 : State) (a1 : ℕ) (a2 : ℕ) (h0 : Keeps P s₀ a0)
    (cregs : Part.regs ∈ P := by assumption) : Keeps P s₀ (State.addWrap a0 a1 a2) := by
  unfold State.addWrap
  repeat' (first
      | with_reducible assumption | with_reducible apply State.setReg_keeps)

theorem State.cfgErr_keeps {P : List Part} {s₀ : State} (a0 : State) (a1 : Writer) (a2 : ℕ) (a3 : ℕ) (h0
    : Keeps P s₀ a0) (cregs : Part.regs ∈ P := by assumption) : Keeps P s₀ (State.cfgErr a0 a1 a2 a3) := by
  unfold State.cfgErr
  repeat' (first
      | with_reducible assumption | with_reducible apply State.setReg_keeps | with_reducible apply State.orReg_keeps
      | split)

theorem State.setSite_keeps {P : List Part} {s₀ : State} (a0 : State) (a1 : ℕ) (a2 : Site) (h0 : Keeps P s₀ a0)
    (csites : Part.sites ∈ P := by assumption) : Keeps P s₀ (State.setSite a0 a1 a2) := by
  unfold State.setSite
  repeat' (first
      | with_reducible assumption
      | (fail_if_no_progress with_reducible refine Keeps.free ?_ _ _ _ _ _ _ _ _ _ _ _ _ _))

theorem State.infWrite_keeps {P : List Part} {s₀ : State} (a0 : State) (a1 : ℕ) (a2 : ℕ) (a3 : List Byte) (h0
    : Keeps P s₀ a0) (cmemory : Part.memory ∈ P := by assumption) : Keeps P s₀ (State.infWrite a0 a1 a2 a3) := by
  refine Keeps.store h0 (State.infWrite_wf _ _ _ _) ?_ <;> (unfold State.infWrite; split_ifs <;> rfl)

theorem State.infHavoc_keeps {P : List Part} {s₀ : State} (a0 : State) (a1 : ℕ) (a2 : ℕ) (a3 : ℕ) (h0 : Keeps P s₀ a0)
    (cmemory : Part.memory ∈ P := by assumption) (cdraws : Part.draws ∈ P := by assumption) : Keeps P s₀
    (State.infHavoc a0 a1 a2 a3) := by
  unfold State.infHavoc
  repeat' (first
      | with_reducible assumption | with_reducible apply State.infWrite_keeps | dsimp only
      | (fail_if_no_progress with_reducible refine Keeps.free ?_ _ _ _ _ _ _ _ _ _ _ _ _ _))

theorem State.storeWrite_keeps {P : List Part} {s₀ : State} (a0 : State) (a1 : ℕ) (a2 : List Byte) (h0
    : Keeps P s₀ a0) (cmemory : Part.memory ∈ P := by assumption) : Keeps P s₀ (State.storeWrite a0 a1 a2) := by
  unfold State.storeWrite
  split_ifs
  · exact h0
  · refine Keeps.store (State.firstWrite_keeps _ (a1 + a2.length - 1) (State.firstWrite_keeps a0 a1 h0)) ?_ rfl
    rintro ⟨h1, h2, h3, h4, h5, h6⟩
    exact ⟨h1, putBytes_wf _ _ _ h2, h3, clearMarks_wf _ _ _ _ _ h4, h5, h6⟩

theorem State.storeHavoc_keeps {P : List Part} {s₀ : State} (a0 : State) (a1 : ℕ) (a2 : ℕ) (h0 : Keeps P s₀ a0)
    (cmemory : Part.memory ∈ P := by assumption) (cdraws : Part.draws ∈ P := by assumption) : Keeps P s₀
    (State.storeHavoc a0 a1 a2) := by
  unfold State.storeHavoc
  repeat' (first
      | with_reducible assumption | with_reducible apply State.storeWrite_keeps | dsimp only
      | (fail_if_no_progress with_reducible refine Keeps.free ?_ _ _ _ _ _ _ _ _ _ _ _ _ _))

theorem State.markLine_keeps {P : List Part} {s₀ : State} (a0 : State) (a1 : ℕ) (h0 : Keeps P s₀ a0)
    (cmemory : Part.memory ∈ P := by assumption) : Keeps P s₀ (State.markLine a0 a1) := by
  exact Keeps.store h0 (State.markLine_wf _ _) rfl

theorem State.setMstream_keeps {P : List Part} {s₀ : State} (a0 : State) (a1 : ℕ) (a2 : MStream) (h0 : Keeps P s₀ a0)
    (cmedia : Part.media ∈ P := by assumption) : Keeps P s₀ (State.setMstream a0 a1 a2) := by
  unfold State.setMstream
  repeat' (first
      | with_reducible assumption | dsimp only
      | (fail_if_no_progress with_reducible refine Keeps.free ?_ _ _ _ _ _ _ _ _ _ _ _ _ _))

theorem State.setStack_keeps {P : List Part} {s₀ : State} (a0 : State) (a1 : ℕ) (a2 : Stack) (h0 : Keeps P s₀ a0)
    (ctiers : Part.tiers ∈ P := by assumption) : Keeps P s₀ (State.setStack a0 a1 a2) := by
  unfold State.setStack
  repeat' (first
      | with_reducible assumption | dsimp only
      | (fail_if_no_progress with_reducible refine Keeps.free ?_ _ _ _ _ _ _ _ _ _ _ _ _ _))

theorem State.addSat_keeps {P : List Part} {s₀ : State} (a0 : State) (a1 : ℕ) (a2 : ℕ) (h0 : Keeps P s₀ a0)
    (cregs : Part.regs ∈ P := by assumption) : Keeps P s₀ (State.addSat a0 a1 a2) := by
  unfold State.addSat
  repeat' (first
      | with_reducible assumption | with_reducible apply State.setReg_keeps)

theorem State.setGroup_keeps {P : List Part} {s₀ : State} (a0 : State) (a1 : ℕ) (a2 : ℕ) (a3 : Group) (h0
    : Keeps P s₀ a0) (clinks : Part.links ∈ P := by assumption) : Keeps P s₀ (State.setGroup a0 a1 a2 a3) := by
  unfold State.setGroup
  repeat' (first
      | with_reducible assumption | dsimp only
      | (fail_if_no_progress with_reducible refine Keeps.free ?_ _ _ _ _ _ _ _ _ _ _ _ _ _))

theorem State.setCtx_keeps {P : List Part} {s₀ : State} (a0 : State) (a1 : ℕ) (a2 : Ctx) (h0 : Keeps P s₀ a0)
    (chosts : Part.hosts ∈ P := by assumption) : Keeps P s₀ (State.setCtx a0 a1 a2) := by
  unfold State.setCtx
  repeat' (first
      | with_reducible assumption | dsimp only
      | (fail_if_no_progress with_reducible refine Keeps.free ?_ _ _ _ _ _ _ _ _ _ _ _ _ _))

theorem State.setRing_keeps {P : List Part} {s₀ : State} (a0 : State) (a1 : ℕ) (a2 : ℕ) (a3 : Ring) (h0
    : Keeps P s₀ a0) (chosts : Part.hosts ∈ P := by assumption) : Keeps P s₀ (State.setRing a0 a1 a2 a3) := by
  unfold State.setRing
  repeat' (first
      | with_reducible assumption | with_reducible apply State.setCtx_keeps)

theorem State.setEngine_keeps {P : List Part} {s₀ : State} (a0 : State) (a1 : ℕ) (a2 : MEngine) (h0 : Keeps P s₀ a0)
    (cmedia : Part.media ∈ P := by assumption) : Keeps P s₀ (State.setEngine a0 a1 a2) := by
  unfold State.setEngine
  repeat' (first
      | with_reducible assumption | dsimp only
      | (fail_if_no_progress with_reducible refine Keeps.free ?_ _ _ _ _ _ _ _ _ _ _ _ _ _))

theorem State.setCore_keeps {P : List Part} {s₀ : State} (a0 : State) (a1 : ℕ) (a2 : ℕ) (a3 : Core) (h0
    : Keeps P s₀ a0) (ctiles : Part.tiles ∈ P := by assumption) : Keeps P s₀ (State.setCore a0 a1 a2 a3) := by
  unfold State.setCore
  repeat' (first
      | with_reducible assumption | dsimp only
      | (fail_if_no_progress with_reducible refine Keeps.free ?_ _ _ _ _ _ _ _ _ _ _ _ _ _))

theorem State.log_keeps {P : List Part} {s₀ : State} (a0 : State) (a1 : ℕ) (a2 : ℕ) (a3 : ℕ) (a4 : ℕ) (a5 : ℕ) (h0
    : Keeps P s₀ a0) (chosts : Part.hosts ∈ P := by assumption) (cregs : Part.regs ∈ P := by assumption)
    (crel : Part.rel ∈ P := by assumption) (cfw : Part.fw ∈ P := by assumption) : Keeps P s₀
    (State.log a0 a1 a2 a3 a4 a5) := by
  unfold State.log
  repeat' (first
      | with_reducible assumption | with_reducible apply State.appendRecord_keeps
      | with_reducible apply State.checkpoint_keeps | split | dsimp only)

theorem State.setLap_keeps {P : List Part} {s₀ : State} (a0 : State) (a1 : ℕ) (a2 : ℕ) (a3 : LapCounter) (h0
    : Keeps P s₀ a0) (ctiles : Part.tiles ∈ P := by assumption) : Keeps P s₀ (State.setLap a0 a1 a2 a3) := by
  unfold State.setLap
  repeat' (first
      | with_reducible assumption | dsimp only
      | (fail_if_no_progress with_reducible refine Keeps.free ?_ _ _ _ _ _ _ _ _ _ _ _ _ _))

theorem State.interrupt_keeps {P : List Part} {s₀ : State} (a0 : State) (a1 : ℕ) (a2 : Bool) (h0 : Keeps P s₀ a0)
    (cmodule : Part.module ∈ P := by assumption) (chosts : Part.hosts ∈ P := by assumption)
    (cregs : Part.regs ∈ P := by assumption) (crel : Part.rel ∈ P := by assumption)
    (cfw : Part.fw ∈ P := by assumption) : Keeps P s₀ (State.interrupt a0 a1 a2) := by
  unfold State.interrupt
  repeat' (first
      | with_reducible assumption | with_reducible apply State.log_keeps | intro _ | dsimp only
      | (fail_if_no_progress with_reducible refine Keeps.upd ?_ _ _ _ _ _ _ _ _ _ _ _ _ _ _ _ _ _ ?_ ?_ ?_ ?_ ?_ ?_))

theorem State.poisonLine_keeps {P : List Part} {s₀ : State} (a0 : State) (a1 : ℕ) (a2 : ℕ) (h0 : Keeps P s₀ a0)
    (cmemory : Part.memory ∈ P := by assumption) (cregs : Part.regs ∈ P := by assumption) : Keeps P s₀
    (State.poisonLine a0 a1 a2) := by
  unfold State.poisonLine
  exact State.addSat_keeps _ _ _ (h0.store (fun ⟨h1, h2, h3, h4, h5, h6⟩ => ⟨h1, h2, setWf_sput _ _ h3, h4, h5, h6⟩) rfl)

theorem State.modCmd_keeps {P : List Part} {s₀ : State} (a0 : State) (a1 : CmdId) (a2 : (Cmd → Cmd)) (h0
    : Keeps P s₀ a0) (chosts : Part.hosts ∈ P := by assumption) : Keeps P s₀ (State.modCmd a0 a1 a2) := by
  unfold State.modCmd
  repeat' (first
      | with_reducible assumption | with_reducible apply State.setRing_keeps)

theorem State.raise_keeps {P : List Part} {s₀ : State} (a0 : State) (a1 : CmdId) (a2 : ℕ) (h0 : Keeps P s₀ a0)
    (chosts : Part.hosts ∈ P := by assumption) : Keeps P s₀ (State.raise a0 a1 a2) := by
  unfold State.raise
  repeat' (first
      | with_reducible assumption | with_reducible apply State.modCmd_keeps | split)

theorem State.faultCx_keeps {P : List Part} {s₀ : State} (a0 : State) (a1 : ℕ) (a2 : ℕ) (h0 : Keeps P s₀ a0)
    (chosts : Part.hosts ∈ P := by assumption) (cregs : Part.regs ∈ P := by assumption) : Keeps P s₀
    (State.faultCx a0 a1 a2) := by
  unfold State.faultCx
  repeat' (first
      | with_reducible assumption | with_reducible apply State.hpEvent_keeps
      | with_reducible apply State.setCtx_keeps | split | dsimp only)

theorem State.writeRecord_keeps {P : List Part} {s₀ : State} (a0 : State) (a1 : ℕ) (a2 : ℕ) (a3 : Cmd) (h0
    : Keeps P s₀ a0) (cmodule : Part.module ∈ P := by assumption) (ckv : Part.kv ∈ P := by assumption)
    (chosts : Part.hosts ∈ P := by assumption) (cregs : Part.regs ∈ P := by assumption)
    (crel : Part.rel ∈ P := by assumption) (cfw : Part.fw ∈ P := by assumption) : Keeps P s₀
    (State.writeRecord a0 a1 a2 a3) := by
  unfold State.writeRecord
  repeat' (first
      | with_reducible assumption | with_reducible apply State.setRing_keeps
      | with_reducible apply State.setCtx_keeps | with_reducible apply State.setSeq_keeps
      | with_reducible apply State.interrupt_keeps | with_reducible apply State.faultCx_keeps
      | with_reducible apply Keeps.foldl | split | intro _)

theorem State.flush_keeps {P : List Part} {s₀ : State} (a0 : ℕ) (a1 : ℕ) (a2 : ℕ) (a3 : State) (h3 : Keeps P s₀ a3)
    (cmodule : Part.module ∈ P := by assumption) (ckv : Part.kv ∈ P := by assumption)
    (chosts : Part.hosts ∈ P := by assumption) (cregs : Part.regs ∈ P := by assumption)
    (crel : Part.rel ∈ P := by assumption) (cfw : Part.fw ∈ P := by assumption) : Keeps P s₀
    (State.flush a0 a1 a2 a3) := by
  induction a2 generalizing a3 with
  | zero => exact h3
  | succ n ih =>
    unfold State.flush
    split
    · exact h3
    · split_ifs
      · exact ih _ (State.writeRecord_keeps _ _ _ _ h3)
      · exact h3

theorem State.setCset_keeps {P : List Part} {s₀ : State} (a0 : State) (a1 : ℕ) (a2 : CommitSet) (h0 : Keeps P s₀ a0)
    (cregs : Part.regs ∈ P := by assumption) : Keeps P s₀ (State.setCset a0 a1 a2) := by
  unfold State.setCset
  repeat' (first
      | with_reducible assumption | dsimp only
      | (fail_if_no_progress with_reducible refine Keeps.free ?_ _ _ _ _ _ _ _ _ _ _ _ _ _))

theorem State.notePoison_keeps {P : List Part} {s₀ : State} (a0 : State) (a1 : ℕ) (h0 : Keeps P s₀ a0)
    (cmodule : Part.module ∈ P := by assumption) (chosts : Part.hosts ∈ P := by assumption)
    (cregs : Part.regs ∈ P := by assumption) (crel : Part.rel ∈ P := by assumption)
    (cfw : Part.fw ∈ P := by assumption) : Keeps P s₀ (State.notePoison a0 a1) := by
  unfold State.notePoison
  repeat' (first
      | with_reducible assumption | with_reducible apply State.interrupt_keeps
      | with_reducible apply State.log_keeps | with_reducible apply State.addSat_keeps)

theorem State.settle_keeps {P : List Part} {s₀ : State} (a0 : State) (a1 : ℕ) (a2 : ℕ) (h0 : Keeps P s₀ a0)
    (cmodule : Part.module ∈ P := by assumption) (ckv : Part.kv ∈ P := by assumption)
    (chosts : Part.hosts ∈ P := by assumption) (cregs : Part.regs ∈ P := by assumption)
    (crel : Part.rel ∈ P := by assumption) (cfw : Part.fw ∈ P := by assumption) : Keeps P s₀
    (State.settle a0 a1 a2) := by
  unfold State.settle
  repeat' (first
      | with_reducible assumption | with_reducible apply State.flush_keeps)

theorem State.finish_keeps {P : List Part} {s₀ : State} (a0 : State) (a1 : CmdId) (a2 : ℕ) (a3 : ℕ) (h0
    : Keeps P s₀ a0) (cmodule : Part.module ∈ P := by assumption) (ckv : Part.kv ∈ P := by assumption)
    (chosts : Part.hosts ∈ P := by assumption) (cregs : Part.regs ∈ P := by assumption)
    (crel : Part.rel ∈ P := by assumption) (cfw : Part.fw ∈ P := by assumption) : Keeps P s₀
    (State.finish a0 a1 a2 a3) := by
  unfold State.finish
  repeat' (first
      | with_reducible assumption | with_reducible apply State.modCmd_keeps
      | with_reducible apply State.settle_keeps | with_reducible apply State.faultCx_keeps | split)

theorem State.pinAll_keeps {P : List Part} {s₀ : State} (a0 : State) (a1 : List ℕ) (h0 : Keeps P s₀ a0)
    (ckv : Part.kv ∈ P := by assumption) : Keeps P s₀ (State.pinAll a0 a1).1 := by
  unfold State.pinAll
  repeat' (first
      | with_reducible assumption | with_reducible apply State.setSeq_keeps | with_reducible apply Keeps.foldlFst
      | split | intro _)

theorem State.markIssued_keeps {P : List Part} {s₀ : State} (a0 : State) (a1 : CmdId) (a2 : List ℕ) (h0
    : Keeps P s₀ a0) (ckv : Part.kv ∈ P := by assumption) (chosts : Part.hosts ∈ P := by assumption) : Keeps P s₀
    (State.markIssued a0 a1 a2) := by
  unfold State.markIssued
  repeat' (first
      | with_reducible assumption | with_reducible apply State.modCmd_keeps
      | with_reducible apply State.pinAll_keeps)

theorem State.issueHead_keeps {P : List Part} {s₀ : State} (a0 : State) (a1 : ℕ) (a2 : ℕ) (a3 : (Cmd → Bool)) (a4 :
    (State → Cmd → List ℕ)) (a5 : (State → CmdId → Cmd → State)) (h0 : Keeps P s₀ a0) (h5 : ∀ (u0 : State)
    (u1 : CmdId) (u2 : Cmd), Keeps P s₀ u0 → Keeps P s₀ (a5 u0 u1 u2)) (cmodule : Part.module ∈ P := by assumption)
    (ckv : Part.kv ∈ P := by assumption) (chosts : Part.hosts ∈ P := by assumption)
    (cregs : Part.regs ∈ P := by assumption) (crel : Part.rel ∈ P := by assumption)
    (cfw : Part.fw ∈ P := by assumption) : Keeps P s₀ (State.issueHead a0 a1 a2 a3 a4 a5) := by
  unfold State.issueHead
  repeat' (first
      | with_reducible assumption | with_reducible apply h5 | with_reducible apply State.finish_keeps
      | with_reducible apply State.markIssued_keeps | split | dsimp only)

theorem State.issueOrRun_keeps {P : List Part} {s₀ : State} (a0 : State) (a1 : ℕ) (a2 : ℕ) (a3 : (Cmd → Bool)) (a4 :
    (State → Cmd → List ℕ)) (a5 : (State → CmdId → Cmd → State)) (h0 : Keeps P s₀ a0) (h5 : ∀ (u0 : State)
    (u1 : CmdId) (u2 : Cmd), Keeps P s₀ u0 → Keeps P s₀ (a5 u0 u1 u2)) (cmodule : Part.module ∈ P := by assumption)
    (ckv : Part.kv ∈ P := by assumption) (chosts : Part.hosts ∈ P := by assumption)
    (cregs : Part.regs ∈ P := by assumption) (crel : Part.rel ∈ P := by assumption)
    (cfw : Part.fw ∈ P := by assumption) : Keeps P s₀ (State.issueOrRun a0 a1 a2 a3 a4 a5) := by
  unfold State.issueOrRun
  repeat' (first
      | with_reducible assumption | with_reducible apply h5 | with_reducible apply State.issueHead_keeps | split)

theorem State.consumePoison_keeps {P : List Part} {s₀ : State} (a0 : State) (a1 : CmdId) (h0 : Keeps P s₀ a0)
    (cmodule : Part.module ∈ P := by assumption) (ckv : Part.kv ∈ P := by assumption)
    (chosts : Part.hosts ∈ P := by assumption) (cregs : Part.regs ∈ P := by assumption)
    (crel : Part.rel ∈ P := by assumption) (cfw : Part.fw ∈ P := by assumption) : Keeps P s₀
    (State.consumePoison a0 a1) := by
  unfold State.consumePoison
  repeat' (first
      | with_reducible assumption | with_reducible apply State.finish_keeps
      | with_reducible apply State.notePoison_keeps)

theorem State.hostRead_keeps {P : List Part} {s₀ : State} (a0 : State) (a1 : ℕ) (a2 : ℕ) (a3 : ℕ) (a4 : Bool) (h0
    : Keeps P s₀ a0) (chosts : Part.hosts ∈ P := by assumption) : Keeps P s₀ (State.hostRead a0 a1 a2 a3 a4) := by
  unfold State.hostRead
  repeat' (first
      | with_reducible assumption | dsimp only
      | (fail_if_no_progress with_reducible refine Keeps.free ?_ _ _ _ _ _ _ _ _ _ _ _ _ _))

theorem State.guarded_keeps {P : List Part} {s₀ : State} (a0 : State) (a1 : Writer) (a2 : ℕ) (a3 : ℕ) (a4 :
    (State → State)) (h0 : Keeps P s₀ a0) (h4 : ∀ (u0 : State), Keeps P s₀ u0 → Keeps P s₀ (a4 u0))
    (cregs : Part.regs ∈ P := by assumption) : Keeps P s₀ (State.guarded a0 a1 a2 a3 a4) := by
  unfold State.guarded
  repeat' (first
      | with_reducible assumption | with_reducible apply h4 | with_reducible apply State.cfgErr_keeps | split)

theorem State.storeClear_keeps {P : List Part} {s₀ : State} (a0 : State) (a1 : ℕ) (a2 : ℕ) (h0 : Keeps P s₀ a0)
    (cmemory : Part.memory ∈ P := by assumption) : Keeps P s₀ (State.storeClear a0 a1 a2) := by
  exact Keeps.store h0 (State.storeClear_wf _ _ _) rfl

theorem State.takePage_keeps {P : List Part} {s₀ : State} (a0 : State) (a1 : ℕ) (h0 : Keeps P s₀ a0)
    (cmemory : Part.memory ∈ P := by assumption) (ctiers : Part.tiers ∈ P := by assumption)
    : ∀ u, State.takePage a0 a1 = some u → Keeps P s₀ u.1 := by
  intro u e
  unfold State.takePage at e
  try dsimp only at e
  (repeat' split at e) <;> cases e
  all_goals
  repeat' (first
      | with_reducible assumption | with_reducible apply State.storeClear_keeps | dsimp only
      | (fail_if_no_progress with_reducible refine Keeps.free ?_ _ _ _ _ _ _ _ _ _ _ _ _ _))
theorem State.takePage_keepsE {P : List Part} {s₀ t : State} {x : ℕ} {a0 : State} {a1 : ℕ}
    (e : State.takePage a0 a1 = some (t, x)) (h0 : Keeps P s₀ a0) (cmemory : Part.memory ∈ P := by assumption)
    (ctiers : Part.tiers ∈ P := by assumption) : Keeps P s₀ t := (State.takePage_keeps a0 a1 h0) _ e

theorem State.takePageFrom_keeps {P : List Part} {s₀ : State} (a0 : State) (a1 : ℕ) (h0 : Keeps P s₀ a0)
    (cmemory : Part.memory ∈ P := by assumption) (ctiers : Part.tiers ∈ P := by assumption)
    : ∀ u, State.takePageFrom a0 a1 = some u → Keeps P s₀ u.1 := by
  intro u e
  unfold State.takePageFrom at e
  try dsimp only at e
  (repeat' split at e) <;> cases e
  all_goals
  repeat' (first
      | with_reducible assumption | (with_reducible refine State.takePage_keepsE (by with_reducible assumption) ?_))
theorem State.takePageFrom_keepsE {P : List Part} {s₀ t : State} {x : ℕ × ℕ} {a0 : State} {a1 : ℕ}
    (e : State.takePageFrom a0 a1 = some (t, x)) (h0 : Keeps P s₀ a0) (cmemory : Part.memory ∈ P := by assumption)
    (ctiers : Part.tiers ∈ P := by assumption) : Keeps P s₀ t := (State.takePageFrom_keeps a0 a1 h0) _ e

theorem State.infWriteMarked_keeps {P : List Part} {s₀ : State} (a0 : State) (a1 : ℕ) (a2 : ℕ) (a3 : Marked) (h0
    : Keeps P s₀ a0) (cmemory : Part.memory ∈ P := by assumption) : Keeps P s₀
    (State.infWriteMarked a0 a1 a2 a3) := by
  unfold State.infWriteMarked
  repeat' (first
      | with_reducible assumption | with_reducible apply State.infWrite_keeps
      | with_reducible apply State.markLine_keeps | with_reducible apply Keeps.foldl | split | intro _)

theorem State.heatPlace_keeps {P : List Part} {s₀ : State} (a0 : State) (a1 : ℕ) (a2 : ℕ) (a3 : ℕ) (a4 : Bool) (h0
    : Keeps P s₀ a0) (ctiers : Part.tiers ∈ P := by assumption) : Keeps P s₀ (State.heatPlace a0 a1 a2 a3 a4) := by
  unfold State.heatPlace
  repeat' (first
      | with_reducible assumption | split | dsimp only
      | (fail_if_no_progress with_reducible refine Keeps.free ?_ _ _ _ _ _ _ _ _ _ _ _ _ _))

theorem State.storeWriteMarked_keeps {P : List Part} {s₀ : State} (a0 : State) (a1 : ℕ) (a2 : Marked) (h0
    : Keeps P s₀ a0) (cmemory : Part.memory ∈ P := by assumption) : Keeps P s₀ (State.storeWriteMarked a0 a1 a2) := by
  unfold State.storeWriteMarked
  repeat' (first
      | with_reducible assumption | with_reducible apply State.storeWrite_keeps
      | with_reducible apply State.poisonWord_keeps | with_reducible apply Keeps.foldl | split | intro _)

theorem State.stackWrite_keeps {P : List Part} {s₀ : State} (a0 : State) (a1 : CmdId) (a2 : ℕ) (a3 : Marked) (h0
    : Keeps P s₀ a0) (cmemory : Part.memory ∈ P := by assumption) (ctiers : Part.tiers ∈ P := by assumption)
    : Keeps P s₀ (State.stackWrite a0 a1 a2 a3) := by
  unfold State.stackWrite
  repeat' (first
      | with_reducible assumption | with_reducible apply State.storeWriteMarked_keeps | split | dsimp only
      | (fail_if_no_progress with_reducible refine Keeps.free ?_ _ _ _ _ _ _ _ _ _ _ _ _ _))

theorem State.landSpoils_keeps {P : List Part} {s₀ : State} (a0 : State) (a1 : ℕ) (a2 : ℕ) (a3 : ℕ) (a4 : ℕ) (h0
    : Keeps P s₀ a0) (cmemory : Part.memory ∈ P := by assumption) (ctiers : Part.tiers ∈ P := by assumption)
    : Keeps P s₀ (State.landSpoils a0 a1 a2 a3 a4) := by
  unfold State.landSpoils
  repeat' (first
      | with_reducible assumption | with_reducible apply State.storeWrite_keeps | with_reducible apply Keeps.foldl
      | intro _ | dsimp only | (fail_if_no_progress with_reducible refine Keeps.free ?_ _ _ _ _ _ _ _ _ _ _ _ _ _))

theorem State.setEntry_keeps {P : List Part} {s₀ : State} (a0 : State) (a1 : ℕ) (a2 : ℕ) (h0 : Keeps P s₀ a0)
    (ctiers : Part.tiers ∈ P := by assumption) : Keeps P s₀ (State.setEntry a0 a1 a2) := by
  unfold State.setEntry
  repeat' (first
      | with_reducible assumption | dsimp only
      | (fail_if_no_progress with_reducible refine Keeps.free ?_ _ _ _ _ _ _ _ _ _ _ _ _ _))

theorem State.setUsed_keeps {P : List Part} {s₀ : State} (a0 : State) (a1 : ℕ) (a2 : ℕ) (h0 : Keeps P s₀ a0)
    (ctiers : Part.tiers ∈ P := by assumption) : Keeps P s₀ (State.setUsed a0 a1 a2) := by
  unfold State.setUsed
  repeat' (first
      | with_reducible assumption | dsimp only
      | (fail_if_no_progress with_reducible refine Keeps.free ?_ _ _ _ _ _ _ _ _ _ _ _ _ _))

theorem State.charge_keeps {P : List Part} {s₀ : State} (a0 : State) (a1 : ℕ) (a2 : ℕ) (h0 : Keeps P s₀ a0)
    (ctiers : Part.tiers ∈ P := by assumption) : Keeps P s₀ (State.charge a0 a1 a2) := by
  unfold State.charge
  repeat' (first
      | with_reducible assumption | with_reducible apply State.setUsed_keeps)

theorem State.tableWrite_keeps {P : List Part} {s₀ : State} (a0 : State) (a1 : CmdId) (a2 : ℕ) (a3 : ℕ) (a4 : ℕ)
    (a5 : Marked) (h0 : Keeps P s₀ a0) (cmemory : Part.memory ∈ P := by assumption)
    (ctiers : Part.tiers ∈ P := by assumption) : Keeps P s₀ (State.tableWrite a0 a1 a2 a3 a4 a5).1 := by
  unfold State.tableWrite
  repeat' (first
      | with_reducible assumption | with_reducible apply State.stackWrite_keeps
      | with_reducible apply State.landSpoils_keeps | with_reducible apply State.setEntry_keeps
      | with_reducible apply State.charge_keeps
      | (with_reducible refine State.takePageFrom_keepsE (by with_reducible assumption) ?_) | split | dsimp only)

theorem State.setShare_keeps {P : List Part} {s₀ : State} (a0 : State) (a1 : ℕ) (a2 : Share) (h0 : Keeps P s₀ a0)
    (ckv : Part.kv ∈ P := by assumption) : Keeps P s₀ (State.setShare a0 a1 a2) := by
  unfold State.setShare
  repeat' (first
      | with_reducible assumption | dsimp only
      | (fail_if_no_progress with_reducible refine Keeps.free ?_ _ _ _ _ _ _ _ _ _ _ _ _ _))

theorem State.applyShare_keeps {P : List Part} {s₀ : State} (a0 : State) (a1 : ShareUpdate) (h0 : Keeps P s₀ a0)
    (ckv : Part.kv ∈ P := by assumption) : Keeps P s₀ (State.applyShare a0 a1) := by
  unfold State.applyShare
  repeat' (first
      | with_reducible assumption | with_reducible apply State.setShare_keeps)

theorem State.drainShares_keeps {P : List Part} {s₀ : State} (a0 : State) (h0 : Keeps P s₀ a0)
    (ckv : Part.kv ∈ P := by assumption) : Keeps P s₀ (State.drainShares a0) := by
  unfold State.drainShares
  repeat' (first
      | with_reducible assumption | with_reducible apply State.applyShare_keeps | with_reducible apply Keeps.foldl
      | intro _ | dsimp only | (fail_if_no_progress with_reducible refine Keeps.free ?_ _ _ _ _ _ _ _ _ _ _ _ _ _))

theorem State.backFrame_keeps {P : List Part} {s₀ : State} (a0 : State) (a1 : ℕ) (a2 : ℕ) (a3 : ℕ) (h0
    : Keeps P s₀ a0) (cmemory : Part.memory ∈ P := by assumption) (ctiers : Part.tiers ∈ P := by assumption)
    (ckv : Part.kv ∈ P := by assumption) : ∀ u, State.backFrame a0 a1 a2 a3 = some u → Keeps P s₀ u.1 := by
  intro u e
  unfold State.backFrame at e
  try dsimp only at e
  (repeat' split at e) <;> cases e
  all_goals
  repeat' (first
      | with_reducible assumption | with_reducible apply State.drainShares_keeps
      | with_reducible apply State.storeClear_keeps | with_reducible apply State.charge_keeps
      | with_reducible apply State.setSeq_keeps)
theorem State.backFrame_keepsE {P : List Part} {s₀ t : State} {x : ℕ} {a0 : State} {a1 : ℕ} {a2 : ℕ} {a3 : ℕ}
    (e : State.backFrame a0 a1 a2 a3 = some (t, x)) (h0 : Keeps P s₀ a0) (cmemory : Part.memory ∈ P := by assumption)
    (ctiers : Part.tiers ∈ P := by assumption) (ckv : Part.kv ∈ P := by assumption) : Keeps P s₀ t :=
    (State.backFrame_keeps a0 a1 a2 a3 h0) _ e

theorem State.setKvEntry_keeps {P : List Part} {s₀ : State} (a0 : State) (a1 : ℕ) (a2 : ℕ) (a3 : ℕ) (h0
    : Keeps P s₀ a0) (ckv : Part.kv ∈ P := by assumption) : Keeps P s₀ (State.setKvEntry a0 a1 a2 a3) := by
  unfold State.setKvEntry
  repeat' (first
      | with_reducible assumption | dsimp only
      | (fail_if_no_progress with_reducible refine Keeps.free ?_ _ _ _ _ _ _ _ _ _ _ _ _ _))

theorem State.kvWrite_keeps {P : List Part} {s₀ : State} (a0 : State) (a1 : CmdId) (a2 : ℕ) (a3 : ℕ) (a4 : ℕ)
    (a5 : Marked) (h0 : Keeps P s₀ a0) (cmemory : Part.memory ∈ P := by assumption)
    (ctiers : Part.tiers ∈ P := by assumption) (ckv : Part.kv ∈ P := by assumption) : Keeps P s₀
    (State.kvWrite a0 a1 a2 a3 a4 a5).1 := by
  unfold State.kvWrite
  repeat' (first
      | with_reducible assumption | with_reducible apply State.setKvEntry_keeps
      | with_reducible apply State.setShare_keeps | with_reducible apply State.stackWrite_keeps
      | with_reducible apply State.drainShares_keeps
      | (with_reducible refine State.backFrame_keepsE (by with_reducible assumption) ?_) | split | dsimp only
      | (fail_if_no_progress with_reducible refine Keeps.free ?_ _ _ _ _ _ _ _ _ _ _ _ _ _))

theorem State.writeAt_keeps {P : List Part} {s₀ : State} (a0 : State) (a1 : CmdId) (a2 : ℕ) (a3 : ℕ) (a4 : Marked)
    (a5 : Space) (h0 : Keeps P s₀ a0) (cmemory : Part.memory ∈ P := by assumption)
    (ctiers : Part.tiers ∈ P := by assumption) (ckv : Part.kv ∈ P := by assumption) : Keeps P s₀
    (State.writeAt a0 a1 a2 a3 a4 a5).1 := by
  cases a5 with
  | outside => exact h0
  | table tab => exact State.tableWrite_keeps _ _ _ _ _ _ h0
  | region q o => exact State.kvWrite_keeps _ _ _ _ _ _ h0

theorem State.pieceWrite_keeps {P : List Part} {s₀ : State} (a0 : State) (a1 : CmdId) (a2 : ℕ) (a3 : ℕ) (a4 : Marked)
    (h0 : Keeps P s₀ a0) (cmemory : Part.memory ∈ P := by assumption) (ctiers : Part.tiers ∈ P := by assumption)
    (ckv : Part.kv ∈ P := by assumption) : Keeps P s₀ (State.pieceWrite a0 a1 a2 a3 a4).1 := by
  unfold State.pieceWrite
  repeat' (first
      | with_reducible assumption | with_reducible apply State.writeAt_keeps)

theorem State.credit_keeps {P : List Part} {s₀ : State} (a0 : State) (a1 : ℕ) (a2 : ℕ) (h0 : Keeps P s₀ a0)
    (ctiers : Part.tiers ∈ P := by assumption) : Keeps P s₀ (State.credit a0 a1 a2) := by
  unfold State.credit
  repeat' (first
      | with_reducible assumption | with_reducible apply State.setUsed_keeps)

theorem State.freePage_keeps {P : List Part} {s₀ : State} (a0 : State) (a1 : ℕ) (h0 : Keeps P s₀ a0)
    (ctiers : Part.tiers ∈ P := by assumption) : Keeps P s₀ (State.freePage a0 a1) := by
  unfold State.freePage
  repeat' (first
      | with_reducible assumption | dsimp only
      | (fail_if_no_progress with_reducible refine Keeps.free ?_ _ _ _ _ _ _ _ _ _ _ _ _ _))

theorem State.heatRead_keeps {P : List Part} {s₀ : State} (a0 : State) (a1 : ℕ) (a2 : ℕ) (a3 : ℕ) (a4 : Bool) (h0
    : Keeps P s₀ a0) (ctiers : Part.tiers ∈ P := by assumption) : Keeps P s₀ (State.heatRead a0 a1 a2 a3 a4) := by
  unfold State.heatRead
  repeat' (first
      | with_reducible assumption | with_reducible apply State.heatPlace_keeps | split | dsimp only
      | (fail_if_no_progress with_reducible refine Keeps.free ?_ _ _ _ _ _ _ _ _ _ _ _ _ _))

theorem State.havocPiece_keeps {P : List Part} {s₀ : State} (a0 : State) (a1 : CmdId) (a2 : ℕ) (a3 : ℕ) (h0
    : Keeps P s₀ a0) (cmemory : Part.memory ∈ P := by assumption) (ctiers : Part.tiers ∈ P := by assumption)
    (ckv : Part.kv ∈ P := by assumption) (cdraws : Part.draws ∈ P := by assumption) : Keeps P s₀
    (State.havocPiece a0 a1 a2 a3) := by
  unfold State.havocPiece
  repeat' (first
      | with_reducible assumption | with_reducible apply State.storeHavoc_keeps | split | dsimp only
      | (fail_if_no_progress with_reducible refine Keeps.free ?_ _ _ _ _ _ _ _ _ _ _ _ _ _))

theorem State.cvaWrite_keeps {P : List Part} {s₀ : State} (a0 : State) (a1 : CmdId) (a2 : ℕ) (a3 : ℕ) (a4 : Marked)
    (h0 : Keeps P s₀ a0) (cmemory : Part.memory ∈ P := by assumption) (ctiers : Part.tiers ∈ P := by assumption)
    (ckv : Part.kv ∈ P := by assumption) : Keeps P s₀ (State.cvaWrite a0 a1 a2 a3 a4).1 := by
  unfold State.cvaWrite
  repeat' (first
      | with_reducible assumption | with_reducible apply State.pieceWrite_keeps
      | with_reducible apply Keeps.foldlFst | split | intro _)

theorem State.noteStack_keeps {P : List Part} {s₀ : State} (a0 : State) (a1 : ℕ) (a2 : Bool) (a3 : ℕ) (a4 : ℕ) (h0
    : Keeps P s₀ a0) (ctiers : Part.tiers ∈ P := by assumption) : Keeps P s₀ (State.noteStack a0 a1 a2 a3 a4) := by
  unfold State.noteStack
  repeat' (first
      | with_reducible assumption | with_reducible apply State.setStack_keeps
      | with_reducible apply State.heatRead_keeps | split)

theorem State.keepFrame_keeps {P : List Part} {s₀ : State} (a0 : State) (a1 : CmdId) (a2 : ℕ) (h0 : Keeps P s₀ a0)
    (chosts : Part.hosts ∈ P := by assumption) : Keeps P s₀ (State.keepFrame a0 a1 a2) := by
  unfold State.keepFrame
  repeat' (first
      | with_reducible assumption | with_reducible apply State.modCmd_keeps | split)

theorem State.pushShare_keeps {P : List Part} {s₀ : State} (a0 : State) (a1 : ℕ) (a2 : ℤ) (a3 : ℤ) (h0
    : Keeps P s₀ a0) (ckv : Part.kv ∈ P := by assumption) : Keeps P s₀ (State.pushShare a0 a1 a2 a3) := by
  unfold State.pushShare
  repeat' (first
      | with_reducible assumption | dsimp only
      | (fail_if_no_progress with_reducible refine Keeps.free ?_ _ _ _ _ _ _ _ _ _ _ _ _ _))

theorem State.endWork_keeps {P : List Part} {s₀ : State} (a0 : State) (a1 : CmdId) (a2 : ℕ) (a3 : ℕ) (h0
    : Keeps P s₀ a0) (cmodule : Part.module ∈ P := by assumption) (ckv : Part.kv ∈ P := by assumption)
    (chosts : Part.hosts ∈ P := by assumption) (cregs : Part.regs ∈ P := by assumption)
    (crel : Part.rel ∈ P := by assumption) (cfw : Part.fw ∈ P := by assumption) : Keeps P s₀
    (State.endWork a0 a1 a2 a3) := by
  unfold State.endWork
  repeat' (first
      | with_reducible assumption | with_reducible apply State.modCmd_keeps
      | with_reducible apply State.finish_keeps | split)

theorem State.noteRead_keeps {P : List Part} {s₀ : State} (a0 : State) (a1 : CmdId) (a2 : Bool) (a3 : ℕ) (a4 : ℕ) (h0
    : Keeps P s₀ a0) (ctiers : Part.tiers ∈ P := by assumption) (chosts : Part.hosts ∈ P := by assumption)
    : Keeps P s₀ (State.noteRead a0 a1 a2 a3 a4) := by
  unfold State.noteRead
  repeat' (first
      | with_reducible assumption | with_reducible apply State.keepFrame_keeps
      | with_reducible apply State.noteStack_keeps | with_reducible apply Keeps.foldl | split | intro _ | dsimp only)

theorem State.noteReads_keeps {P : List Part} {s₀ : State} (a0 : State) (a1 : CmdId) (a2 : Bool) (a3 : List (ℕ × ℕ))
    (h0 : Keeps P s₀ a0) (ctiers : Part.tiers ∈ P := by assumption) (chosts : Part.hosts ∈ P := by assumption)
    : Keeps P s₀ (State.noteReads a0 a1 a2 a3) := by
  unfold State.noteReads
  repeat' (first
      | with_reducible assumption | with_reducible apply State.noteRead_keeps | with_reducible apply Keeps.foldl
      | intro _)

theorem State.checkWork_keeps {P : List Part} {s₀ : State} (a0 : State) (a1 : CmdId) (h0 : Keeps P s₀ a0)
    (cmodule : Part.module ∈ P := by assumption) (ckv : Part.kv ∈ P := by assumption)
    (chosts : Part.hosts ∈ P := by assumption) (cregs : Part.regs ∈ P := by assumption)
    (crel : Part.rel ∈ P := by assumption) (cfw : Part.fw ∈ P := by assumption) : Keeps P s₀
    (State.checkWork a0 a1) := by
  unfold State.checkWork
  repeat' (first
      | with_reducible assumption | with_reducible apply State.finish_keeps | split | dsimp only)

theorem State.cvaHavoc_keeps {P : List Part} {s₀ : State} (a0 : State) (a1 : CmdId) (a2 : ℕ) (a3 : ℕ) (h0
    : Keeps P s₀ a0) (cmemory : Part.memory ∈ P := by assumption) (ctiers : Part.tiers ∈ P := by assumption)
    (ckv : Part.kv ∈ P := by assumption) (cdraws : Part.draws ∈ P := by assumption) : Keeps P s₀
    (State.cvaHavoc a0 a1 a2 a3) := by
  unfold State.cvaHavoc
  repeat' (first
      | with_reducible assumption | with_reducible apply State.havocPiece_keeps | with_reducible apply Keeps.foldl
      | split | intro _)

theorem State.sendOn_keeps {P : List Part} {s₀ : State} (a0 : State) (a1 : ℕ) (a2 : BatonWord) (h0 : Keeps P s₀ a0)
    (clinks : Part.links ∈ P := by assumption) : Keeps P s₀ (State.sendOn a0 a1 a2) := by
  unfold State.sendOn
  repeat' (first
      | with_reducible assumption | with_reducible apply State.setLink_keeps)

theorem State.control_keeps {P : List Part} {s₀ : State} (a0 : State) (a1 : Group) (a2 : ℕ × ℕ) (a3 : ℕ) (a4 : ℕ)
    (a5 : List Byte) (h0 : Keeps P s₀ a0) (clinks : Part.links ∈ P := by assumption) : Keeps P s₀
    (State.control a0 a1 a2 a3 a4 a5) := by
  unfold State.control
  repeat' (first
      | with_reducible assumption | with_reducible apply State.sendOn_keeps)

theorem State.spoilError_keeps {P : List Part} {s₀ : State} (a0 : State) (a1 : Message) (a2 : ℕ) (h0 : Keeps P s₀ a0)
    (cmemory : Part.memory ∈ P := by assumption) (ctiers : Part.tiers ∈ P := by assumption)
    (ckv : Part.kv ∈ P := by assumption) (clinks : Part.links ∈ P := by assumption)
    (cdraws : Part.draws ∈ P := by assumption) : Keeps P s₀ (State.spoilError a0 a1 a2) := by
  unfold State.spoilError
  repeat' (first
      | with_reducible assumption | with_reducible apply State.cvaHavoc_keeps
      | with_reducible apply State.setStream_keeps | split)

theorem State.endMessage_keeps {P : List Part} {s₀ : State} (a0 : State) (a1 : ℕ) (a2 : ℕ) (a3 : Message) (a4 : ℕ)
    (a5 : Bool) (h0 : Keeps P s₀ a0) (cmemory : Part.memory ∈ P := by assumption)
    (ctiers : Part.tiers ∈ P := by assumption) (ckv : Part.kv ∈ P := by assumption)
    (clinks : Part.links ∈ P := by assumption) (cdraws : Part.draws ∈ P := by assumption) : Keeps P s₀
    (State.endMessage a0 a1 a2 a3 a4 a5) := by
  unfold State.endMessage
  repeat' (first
      | with_reducible assumption | with_reducible apply State.spoilError_keeps
      | with_reducible apply State.setGroup_keeps)

theorem State.endGroup_keeps {P : List Part} {s₀ : State} (a0 : State) (a1 : ℕ) (a2 : ℕ) (a3 : ℕ) (h0 : Keeps P s₀ a0)
    (cmodule : Part.module ∈ P := by assumption) (cmemory : Part.memory ∈ P := by assumption)
    (ctiers : Part.tiers ∈ P := by assumption) (ckv : Part.kv ∈ P := by assumption)
    (clinks : Part.links ∈ P := by assumption) (chosts : Part.hosts ∈ P := by assumption)
    (cregs : Part.regs ∈ P := by assumption) (crel : Part.rel ∈ P := by assumption)
    (cfw : Part.fw ∈ P := by assumption) (cdraws : Part.draws ∈ P := by assumption) : Keeps P s₀
    (State.endGroup a0 a1 a2 a3) := by
  unfold State.endGroup
  repeat' (first
      | with_reducible assumption | with_reducible apply State.finish_keeps
      | with_reducible apply State.endMessage_keeps | with_reducible apply State.setGroup_keeps
      | with_reducible apply Keeps.foldl | split | intro _ | dsimp only)

theorem State.breakGroup_keeps {P : List Part} {s₀ : State} (a0 : State) (a1 : ℕ) (a2 : ℕ) (a3 : ℕ) (a4 : ℕ) (a5 : ℕ)
    (a6 : Option (ℕ × BatonWord)) (h0 : Keeps P s₀ a0) (cmodule : Part.module ∈ P := by assumption)
    (cmemory : Part.memory ∈ P := by assumption) (ctiers : Part.tiers ∈ P := by assumption)
    (ckv : Part.kv ∈ P := by assumption) (clinks : Part.links ∈ P := by assumption)
    (chosts : Part.hosts ∈ P := by assumption) (cregs : Part.regs ∈ P := by assumption)
    (crel : Part.rel ∈ P := by assumption) (cfw : Part.fw ∈ P := by assumption)
    (cdraws : Part.draws ∈ P := by assumption) : Keeps P s₀ (State.breakGroup a0 a1 a2 a3 a4 a5 a6) := by
  unfold State.breakGroup
  repeat' (first
      | with_reducible assumption | with_reducible apply State.sendOn_keeps
      | with_reducible apply State.control_keeps | with_reducible apply State.setGroup_keeps
      | with_reducible apply State.endGroup_keeps | with_reducible apply Keeps.foldl | split | intro _ | dsimp only)

theorem State.abortGroup_keeps {P : List Part} {s₀ : State} (a0 : State) (a1 : ℕ) (a2 : ℕ) (a3 : ℕ) (a4 : ℕ) (h0
    : Keeps P s₀ a0) (cmodule : Part.module ∈ P := by assumption) (cmemory : Part.memory ∈ P := by assumption)
    (ctiers : Part.tiers ∈ P := by assumption) (ckv : Part.kv ∈ P := by assumption)
    (clinks : Part.links ∈ P := by assumption) (chosts : Part.hosts ∈ P := by assumption)
    (cregs : Part.regs ∈ P := by assumption) (crel : Part.rel ∈ P := by assumption)
    (cfw : Part.fw ∈ P := by assumption) (cdraws : Part.draws ∈ P := by assumption) : Keeps P s₀
    (State.abortGroup a0 a1 a2 a3 a4) := by
  unfold State.abortGroup
  repeat' (first
      | with_reducible assumption | with_reducible apply State.breakGroup_keeps)

theorem State.linkLost_keeps {P : List Part} {s₀ : State} (a0 : State) (a1 : ℕ) (h0 : Keeps P s₀ a0)
    (cmodule : Part.module ∈ P := by assumption) (cmemory : Part.memory ∈ P := by assumption)
    (ctiers : Part.tiers ∈ P := by assumption) (ckv : Part.kv ∈ P := by assumption)
    (clinks : Part.links ∈ P := by assumption) (chosts : Part.hosts ∈ P := by assumption)
    (cregs : Part.regs ∈ P := by assumption) (crel : Part.rel ∈ P := by assumption)
    (cfw : Part.fw ∈ P := by assumption) (cdraws : Part.draws ∈ P := by assumption) : Keeps P s₀
    (State.linkLost a0 a1) := by
  unfold State.linkLost
  repeat' (first
      | with_reducible assumption | with_reducible apply State.abortGroup_keeps
      | with_reducible apply State.finish_keeps | with_reducible apply Keeps.foldl | split | intro _ | dsimp only
      | (fail_if_no_progress with_reducible refine Keeps.free ?_ _ _ _ _ _ _ _ _ _ _ _ _ _))

theorem State.route_keeps {P : List Part} {s₀ : State} (a0 : State) (a1 : Option ℕ) (a2 : BatonWord) (h0
    : Keeps P s₀ a0) (clinks : Part.links ∈ P := by assumption)
    : ∀ u, State.route a0 a1 a2 = some u → Keeps P s₀ u.1 := by
  intro u e
  unfold State.route at e
  try dsimp only at e
  (repeat' split at e) <;> cases e
  all_goals
  repeat' (first
      | with_reducible assumption | with_reducible apply State.sendOn_keeps)
theorem State.route_keepsE {P : List Part} {s₀ t : State} {x : ℕ} {a0 : State} {a1 : Option ℕ} {a2 : BatonWord}
    (e : State.route a0 a1 a2 = some (t, x)) (h0 : Keeps P s₀ a0) (clinks : Part.links ∈ P := by assumption)
    : Keeps P s₀ t := (State.route_keeps a0 a1 a2 h0) _ e

theorem State.unbindStream_keeps {P : List Part} {s₀ : State} (a0 : State) (a1 : ℕ) (h0 : Keeps P s₀ a0)
    (clinks : Part.links ∈ P := by assumption) (cregs : Part.regs ∈ P := by assumption) : Keeps P s₀
    (State.unbindStream a0 a1) := by
  unfold State.unbindStream
  repeat' (first
      | with_reducible assumption | with_reducible apply State.setReg_keeps
      | with_reducible apply State.setStream_keeps | split | dsimp only
      | (fail_if_no_progress with_reducible refine Keeps.free ?_ _ _ _ _ _ _ _ _ _ _ _ _ _))

theorem State.unbindGroup_keeps {P : List Part} {s₀ : State} (a0 : State) (a1 : ℕ) (a2 : ℕ) (h0 : Keeps P s₀ a0)
    (clinks : Part.links ∈ P := by assumption) (cregs : Part.regs ∈ P := by assumption) : Keeps P s₀
    (State.unbindGroup a0 a1 a2) := by
  unfold State.unbindGroup
  repeat' (first
      | with_reducible assumption | with_reducible apply State.unbindStream_keeps | with_reducible apply Keeps.iter
      | split | intro _)

theorem State.orDiscard_keeps {P : List Part} {s₀ : State} (a0 : State) (a1 : Option (State × Nat)) (h0
    : Keeps P s₀ a0) (h1 : ∀ p, a1 = some p → Keeps P s₀ p.1) (cregs : Part.regs ∈ P := by assumption) : Keeps P s₀
    (State.orDiscard a0 a1) := by
  cases a1 with
  | none => exact State.addSat_keeps _ _ _ h0
  | some p => exact h1 p rfl
theorem State.dropBulk_keeps {P : List Part} {s₀ : State} (a0 : State) (a1 : Bulk) (h0 : Keeps P s₀ a0)
    (clinks : Part.links ∈ P := by assumption) : Keeps P s₀ (State.dropBulk a0 a1) := by
  unfold State.dropBulk
  repeat' (first
      | with_reducible assumption | dsimp only
      | (fail_if_no_progress with_reducible refine Keeps.free ?_ _ _ _ _ _ _ _ _ _ _ _ _ _))

theorem State.bulkSent_keeps {P : List Part} {s₀ : State} (a0 : State) (a1 : CmdId) (a2 : Bulk) (a3 : Option
    (State × Nat)) (h0 : Keeps P s₀ a0) (h3 : ∀ p, a3 = some p → Keeps P s₀ p.1)
    (cmodule : Part.module ∈ P := by assumption) (ckv : Part.kv ∈ P := by assumption)
    (clinks : Part.links ∈ P := by assumption) (chosts : Part.hosts ∈ P := by assumption)
    (cregs : Part.regs ∈ P := by assumption) (crel : Part.rel ∈ P := by assumption)
    (cfw : Part.fw ∈ P := by assumption) : Keeps P s₀ (State.bulkSent a0 a1 a2 a3) := by
  cases a3 with
  | none => unfold State.bulkSent; exact State.finish_keeps _ _ _ _ (State.addSat_keeps _ _ _ (State.dropBulk_keeps _ _ h0))
  | some p => unfold State.bulkSent; with_reducible refine Keeps.free ?_ _ _ _ _ _ _ _ _ _ _ _ _ _; exact h3 p rfl
theorem State.routeNew_keeps {P : List Part} {s₀ : State} (a0 : State) (a1 : ℕ) (a2 : ℕ) (a3 : ℕ) (a4 : ℕ) (a5 : ℕ)
    (a6 : Bool) (a7 : List Byte) (h0 : Keeps P s₀ a0) (clinks : Part.links ∈ P := by assumption)
    : ∀ u, State.routeNew a0 a1 a2 a3 a4 a5 a6 a7 = some u → Keeps P s₀ u.1 := by
  intro u e
  exact (State.route_keeps _ _ _ h0) u e
theorem State.routeNew_keepsE {P : List Part} {s₀ t : State} {x : ℕ} {a0 : State} {a1 : ℕ} {a2 : ℕ} {a3 : ℕ} {a4 : ℕ} {a5 : ℕ} {a6 : Bool} {a7 : List Byte}
    (e : State.routeNew a0 a1 a2 a3 a4 a5 a6 a7 = some (t, x)) (h0 : Keeps P s₀ a0)
    (clinks : Part.links ∈ P := by assumption) : Keeps P s₀ t := (State.routeNew_keeps a0 a1 a2 a3 a4 a5 a6 a7 h0) _ e

theorem State.bulkStep_keeps {P : List Part} {s₀ : State} (a0 : State) (a1 : CmdId) (h0 : Keeps P s₀ a0)
    (cmodule : Part.module ∈ P := by assumption) (ctiers : Part.tiers ∈ P := by assumption)
    (ckv : Part.kv ∈ P := by assumption) (clinks : Part.links ∈ P := by assumption)
    (chosts : Part.hosts ∈ P := by assumption) (cregs : Part.regs ∈ P := by assumption)
    (crel : Part.rel ∈ P := by assumption) (cfw : Part.fw ∈ P := by assumption) : Keeps P s₀
    (State.bulkStep a0 a1) := by
  unfold State.bulkStep
  split
  · exact h0
  · dsimp only
    split
    · exact h0
    split
    · split
      · exact State.consumePoison_keeps _ _ (State.dropBulk_keeps _ _ h0)
      · exact State.bulkSent_keeps _ _ _ _ h0 (State.routeNew_keeps _ _ _ _ _ _ _ _ (State.noteRead_keeps _ _ _ _ _ h0))
    · exact State.finish_keeps _ _ _ _ (State.dropBulk_keeps _ _ h0)

theorem State.bulkFill_keeps {P : List Part} {s₀ : State} (a0 : State) (a1 : CmdId) (h0 : Keeps P s₀ a0)
    (cmodule : Part.module ∈ P := by assumption) (ctiers : Part.tiers ∈ P := by assumption)
    (ckv : Part.kv ∈ P := by assumption) (clinks : Part.links ∈ P := by assumption)
    (chosts : Part.hosts ∈ P := by assumption) (cregs : Part.regs ∈ P := by assumption)
    (crel : Part.rel ∈ P := by assumption) (cfw : Part.fw ∈ P := by assumption) : Keeps P s₀
    (State.bulkFill a0 a1) := by
  unfold State.bulkFill
  repeat' (first
      | with_reducible assumption | with_reducible apply State.bulkStep_keeps | with_reducible apply Keeps.iter
      | split | intro _)

theorem State.routeReply_keeps {P : List Part} {s₀ : State} (a0 : State) (a1 : ℕ) (a2 : ℕ) (a3 : ℕ) (a4 : ℕ) (h0
    : Keeps P s₀ a0) (clinks : Part.links ∈ P := by assumption) (cregs : Part.regs ∈ P := by assumption) : Keeps P s₀
    (State.routeReply a0 a1 a2 a3 a4) := by
  exact State.orDiscard_keeps _ _ h0 (State.routeNew_keeps _ _ _ _ _ _ _ _ h0)

theorem State.workDone_keeps {P : List Part} {s₀ : State} (a0 : State) (a1 : CmdId) (h0 : Keeps P s₀ a0)
    (cmodule : Part.module ∈ P := by assumption) (cmemory : Part.memory ∈ P := by assumption)
    (ctiers : Part.tiers ∈ P := by assumption) (ckv : Part.kv ∈ P := by assumption)
    (clinks : Part.links ∈ P := by assumption) (chosts : Part.hosts ∈ P := by assumption)
    (cregs : Part.regs ∈ P := by assumption) (crel : Part.rel ∈ P := by assumption)
    (cfw : Part.fw ∈ P := by assumption) (cdraws : Part.draws ∈ P := by assumption) : Keeps P s₀
    (State.workDone a0 a1) := by
  unfold State.workDone
  repeat' (first
      | with_reducible assumption | with_reducible apply State.finish_keeps
      | with_reducible apply State.endMessage_keeps | with_reducible apply State.checkWork_keeps | split)

theorem State.failCmd_keeps {P : List Part} {s₀ : State} (a0 : State) (a1 : CmdId) (a2 : ℕ) (h0 : Keeps P s₀ a0)
    (cmodule : Part.module ∈ P := by assumption) (cmemory : Part.memory ∈ P := by assumption)
    (ctiers : Part.tiers ∈ P := by assumption) (ckv : Part.kv ∈ P := by assumption)
    (clinks : Part.links ∈ P := by assumption) (chosts : Part.hosts ∈ P := by assumption)
    (cregs : Part.regs ∈ P := by assumption) (crel : Part.rel ∈ P := by assumption)
    (cfw : Part.fw ∈ P := by assumption) (cdraws : Part.draws ∈ P := by assumption) : Keeps P s₀
    (State.failCmd a0 a1 a2) := by
  unfold State.failCmd
  repeat' (first
      | with_reducible assumption | with_reducible apply State.abortGroup_keeps
      | with_reducible apply State.finish_keeps | split | dsimp only)

theorem State.donesGo_keeps {P : List Part} {s₀ : State} (a0 : State) (a1 : ℕ) (h0 : Keeps P s₀ a0)
    (clinks : Part.links ∈ P := by assumption) (cregs : Part.regs ∈ P := by assumption) : Keeps P s₀
    (State.donesGo a0 a1) := by
  unfold State.donesGo
  repeat' (first
      | with_reducible assumption | with_reducible apply State.routeReply_keeps | with_reducible apply Keeps.foldl
      | split | intro _ | dsimp only
      | (fail_if_no_progress with_reducible refine Keeps.free ?_ _ _ _ _ _ _ _ _ _ _ _ _ _))

theorem State.collNote_keeps {P : List Part} {s₀ : State} (a0 : State) (a1 : CmdId) (a2 : Line) (a3 : ℕ) (a4 : ℕ) (h0
    : Keeps P s₀ a0) (ctiers : Part.tiers ∈ P := by assumption) (chosts : Part.hosts ∈ P := by assumption)
    : Keeps P s₀ (State.collNote a0 a1 a2 a3 a4) := by
  unfold State.collNote
  repeat' (first
      | with_reducible assumption | with_reducible apply State.noteRead_keeps | split)

theorem State.modMsg_keeps {P : List Part} {s₀ : State} (a0 : State) (a1 : ℕ) (a2 : ℕ) (a3 : ℕ) (a4 :
    (Message → Message)) (h0 : Keeps P s₀ a0) (clinks : Part.links ∈ P := by assumption) : Keeps P s₀
    (State.modMsg a0 a1 a2 a3 a4) := by
  unfold State.modMsg
  repeat' (first
      | with_reducible assumption | with_reducible apply State.setGroup_keeps)

theorem State.castStep1_keeps {P : List Part} {s₀ : State} (a0 : State) (a1 : ℕ) (a2 : ℕ) (a3 : ℕ) (a4 : Line)
    (a5 : ℕ) (h0 : Keeps P s₀ a0) (cmodule : Part.module ∈ P := by assumption)
    (cmemory : Part.memory ∈ P := by assumption) (ctiers : Part.tiers ∈ P := by assumption)
    (ckv : Part.kv ∈ P := by assumption) (clinks : Part.links ∈ P := by assumption)
    (chosts : Part.hosts ∈ P := by assumption) (cregs : Part.regs ∈ P := by assumption)
    (crel : Part.rel ∈ P := by assumption) (cfw : Part.fw ∈ P := by assumption)
    (cdraws : Part.draws ∈ P := by assumption) : Keeps P s₀ (State.castStep1 a0 a1 a2 a3 a4 a5) := by
  unfold State.castStep1
  repeat' (first
      | with_reducible assumption | with_reducible apply State.failCmd_keeps
      | with_reducible apply State.notePoison_keeps | with_reducible apply State.sendOn_keeps
      | with_reducible apply State.collNote_keeps | with_reducible apply State.modMsg_keeps
      | with_reducible apply Keeps.foldl | split | intro _ | dsimp only)

theorem State.linkLeave_keeps {P : List Part} {s₀ : State} (a0 : State) (a1 : ℕ) (a2 : (Link → Link)) (h0
    : Keeps P s₀ a0) (cmodule : Part.module ∈ P := by assumption) (cmemory : Part.memory ∈ P := by assumption)
    (ctiers : Part.tiers ∈ P := by assumption) (ckv : Part.kv ∈ P := by assumption)
    (clinks : Part.links ∈ P := by assumption) (chosts : Part.hosts ∈ P := by assumption)
    (cregs : Part.regs ∈ P := by assumption) (crel : Part.rel ∈ P := by assumption)
    (cfw : Part.fw ∈ P := by assumption) (cdraws : Part.draws ∈ P := by assumption) : Keeps P s₀
    (State.linkLeave a0 a1 a2) := by
  unfold State.linkLeave
  repeat' (first
      | with_reducible assumption | with_reducible apply State.setLink_keeps
      | with_reducible apply State.linkLost_keeps | split | dsimp only)

theorem State.linkRetrain_keeps {P : List Part} {s₀ : State} (a0 : State) (a1 : ℕ) (h0 : Keeps P s₀ a0)
    (cmodule : Part.module ∈ P := by assumption) (cmemory : Part.memory ∈ P := by assumption)
    (ctiers : Part.tiers ∈ P := by assumption) (ckv : Part.kv ∈ P := by assumption)
    (clinks : Part.links ∈ P := by assumption) (chosts : Part.hosts ∈ P := by assumption)
    (cregs : Part.regs ∈ P := by assumption) (crel : Part.rel ∈ P := by assumption)
    (cfw : Part.fw ∈ P := by assumption) (cdraws : Part.draws ∈ P := by assumption) : Keeps P s₀
    (State.linkRetrain a0 a1) := by
  unfold State.linkRetrain
  repeat' (first
      | with_reducible assumption | with_reducible apply State.addWrap_keeps
      | with_reducible apply State.linkLeave_keeps)

theorem State.castFill_keeps {P : List Part} {s₀ : State} (a0 : State) (a1 : ℕ) (a2 : ℕ) (h0 : Keeps P s₀ a0)
    (cmodule : Part.module ∈ P := by assumption) (cmemory : Part.memory ∈ P := by assumption)
    (ctiers : Part.tiers ∈ P := by assumption) (ckv : Part.kv ∈ P := by assumption)
    (clinks : Part.links ∈ P := by assumption) (chosts : Part.hosts ∈ P := by assumption)
    (cregs : Part.regs ∈ P := by assumption) (crel : Part.rel ∈ P := by assumption)
    (cfw : Part.fw ∈ P := by assumption) (cdraws : Part.draws ∈ P := by assumption) : Keeps P s₀
    (State.castFill a0 a1 a2) := by
  unfold State.castFill
  repeat' (first
      | with_reducible assumption | with_reducible apply State.castStep1_keeps | with_reducible apply Keeps.iter
      | split | intro _ | dsimp only)

theorem State.linkDown_keeps {P : List Part} {s₀ : State} (a0 : State) (a1 : ℕ) (a2 : ℕ) (h0 : Keeps P s₀ a0)
    (cmodule : Part.module ∈ P := by assumption) (cmemory : Part.memory ∈ P := by assumption)
    (ctiers : Part.tiers ∈ P := by assumption) (ckv : Part.kv ∈ P := by assumption)
    (clinks : Part.links ∈ P := by assumption) (chosts : Part.hosts ∈ P := by assumption)
    (cregs : Part.regs ∈ P := by assumption) (crel : Part.rel ∈ P := by assumption)
    (cfw : Part.fw ∈ P := by assumption) (cdraws : Part.draws ∈ P := by assumption) : Keeps P s₀
    (State.linkDown a0 a1 a2) := by
  unfold State.linkDown
  repeat' (first
      | with_reducible assumption | with_reducible apply State.ownerEvent_keeps
      | with_reducible apply State.linkLeave_keeps)

theorem State.returnStaging_keeps {P : List Part} {s₀ : State} (a0 : State) (a1 : ℕ) (a2 : ℕ) (h0 : Keeps P s₀ a0)
    (clinks : Part.links ∈ P := by assumption) : Keeps P s₀ (State.returnStaging a0 a1 a2) := by
  unfold State.returnStaging
  repeat' (first
      | with_reducible assumption | with_reducible apply State.setGroup_keeps | dsimp only
      | (fail_if_no_progress with_reducible refine Keeps.free ?_ _ _ _ _ _ _ _ _ _ _ _ _ _))

theorem State.refill_keeps {P : List Part} {s₀ : State} (a0 : State) (a1 : ℕ) (h0 : Keeps P s₀ a0)
    (cmodule : Part.module ∈ P := by assumption) (cmemory : Part.memory ∈ P := by assumption)
    (ctiers : Part.tiers ∈ P := by assumption) (ckv : Part.kv ∈ P := by assumption)
    (clinks : Part.links ∈ P := by assumption) (chosts : Part.hosts ∈ P := by assumption)
    (cregs : Part.regs ∈ P := by assumption) (crel : Part.rel ∈ P := by assumption)
    (cfw : Part.fw ∈ P := by assumption) (cdraws : Part.draws ∈ P := by assumption) : Keeps P s₀
    (State.refill a0 a1) := by
  unfold State.refill
  repeat' (first
      | with_reducible assumption | with_reducible apply State.bulkFill_keeps
      | with_reducible apply State.castFill_keeps | with_reducible apply Keeps.foldl | split | intro _)

theorem State.poHold_keeps {P : List Part} {s₀ : State} (a0 : State) (a1 : ℕ) (a2 : ℕ) (h0 : Keeps P s₀ a0)
    (chosts : Part.hosts ∈ P := by assumption) (cmedia : Part.media ∈ P := by assumption)
    (cregs : Part.regs ∈ P := by assumption) : Keeps P s₀ (State.poHold a0 a1 a2) := by
  unfold State.poHold
  repeat' (first
      | with_reducible assumption | with_reducible apply State.ownerEvent_keeps
      | with_reducible apply State.setPo_keeps)

theorem State.csetOpen_keeps {P : List Part} {s₀ : State} (a0 : State) (a1 : Writer) (a2 : ℕ) (a3 : ℕ) (h0
    : Keeps P s₀ a0) (cregs : Part.regs ∈ P := by assumption) : Keeps P s₀ (State.csetOpen a0 a1 a2 a3) := by
  unfold State.csetOpen
  repeat' (first
      | with_reducible assumption | with_reducible apply State.cfgErr_keeps
      | with_reducible apply State.setCset_keeps | split | dsimp only)

theorem State.poReclamp_keeps {P : List Part} {s₀ : State} (a0 : State) (a1 : ℕ) (h0 : Keeps P s₀ a0)
    (cregs : Part.regs ∈ P := by assumption) : Keeps P s₀ (State.poReclamp a0 a1) := by
  unfold State.poReclamp
  repeat' (first
      | with_reducible assumption | with_reducible apply State.setReg_keeps)

theorem State.applyVals_keeps {P : List Part} {s₀ : State} (a0 : State) (a1 : List (ℕ × ℕ)) (h0 : Keeps P s₀ a0)
    (cregs : Part.regs ∈ P := by assumption) : Keeps P s₀ (State.applyVals a0 a1) := by
  unfold State.applyVals
  repeat' (first
      | with_reducible assumption | with_reducible apply State.setReg_keeps | with_reducible apply Keeps.foldl
      | intro _)

theorem State.poCommit_keeps {P : List Part} {s₀ : State} (a0 : State) (a1 : ℕ) (a2 : List (ℕ × ℕ)) (h0
    : Keeps P s₀ a0) (chosts : Part.hosts ∈ P := by assumption) (cmedia : Part.media ∈ P := by assumption)
    (cregs : Part.regs ∈ P := by assumption) : Keeps P s₀ (State.poCommit a0 a1 a2).1 := by
  unfold State.poCommit
  repeat' (first
      | with_reducible assumption | with_reducible apply State.poReclamp_keeps
      | with_reducible apply State.applyVals_keeps | with_reducible apply State.setPo_keeps
      | with_reducible apply State.poHold_keeps | split | dsimp only)

theorem State.linkCtrl_keeps {P : List Part} {s₀ : State} (a0 : State) (a1 : ℕ) (h0 : Keeps P s₀ a0)
    (cmodule : Part.module ∈ P := by assumption) (cmemory : Part.memory ∈ P := by assumption)
    (ctiers : Part.tiers ∈ P := by assumption) (ckv : Part.kv ∈ P := by assumption)
    (clinks : Part.links ∈ P := by assumption) (chosts : Part.hosts ∈ P := by assumption)
    (cregs : Part.regs ∈ P := by assumption) (crel : Part.rel ∈ P := by assumption)
    (cfw : Part.fw ∈ P := by assumption) (cdraws : Part.draws ∈ P := by assumption) : Keeps P s₀
    (State.linkCtrl a0 a1) := by
  unfold State.linkCtrl
  repeat' (first
      | with_reducible assumption | with_reducible apply State.linkLeave_keeps
      | with_reducible apply State.setLink_keeps | split | dsimp only)

theorem State.csetStatus_keeps {P : List Part} {s₀ : State} (a0 : State) (a1 : ℕ) (a2 : ℕ) (h0 : Keeps P s₀ a0)
    (cregs : Part.regs ∈ P := by assumption) : Keeps P s₀ (State.csetStatus a0 a1 a2) := by
  unfold State.csetStatus
  repeat' (first
      | with_reducible assumption | with_reducible apply State.setCset_keeps)

theorem State.shadowWrite_keeps {P : List Part} {s₀ : State} (a0 : State) (a1 : Writer) (a2 : ℕ) (a3 : ℕ) (a4 : ℕ) (h0
    : Keeps P s₀ a0) (cregs : Part.regs ∈ P := by assumption) : Keeps P s₀ (State.shadowWrite a0 a1 a2 a3 a4) := by
  unfold State.shadowWrite
  repeat' (first
      | with_reducible assumption | with_reducible apply State.setCset_keeps
      | with_reducible apply State.cfgErr_keeps | split | dsimp only)

theorem State.applySet_keeps {P : List Part} {s₀ : State} (a0 : State) (a1 : ℕ) (a2 : List (ℕ × ℕ)) (h0
    : Keeps P s₀ a0) (cmodule : Part.module ∈ P := by assumption) (cmemory : Part.memory ∈ P := by assumption)
    (ctiers : Part.tiers ∈ P := by assumption) (ckv : Part.kv ∈ P := by assumption)
    (clinks : Part.links ∈ P := by assumption) (chosts : Part.hosts ∈ P := by assumption)
    (cmedia : Part.media ∈ P := by assumption) (cregs : Part.regs ∈ P := by assumption)
    (crel : Part.rel ∈ P := by assumption) (cfw : Part.fw ∈ P := by assumption)
    (cdraws : Part.draws ∈ P := by assumption) : Keeps P s₀ (State.applySet a0 a1 a2) := by
  unfold State.applySet
  repeat' (first
      | with_reducible assumption | with_reducible apply State.csetStatus_keeps
      | with_reducible apply State.orReg_keeps | with_reducible apply State.applyVals_keeps
      | with_reducible apply State.linkCtrl_keeps | with_reducible apply State.ownerEvent_keeps
      | with_reducible apply State.setReg_keeps | with_reducible apply State.cfgErr_keeps
      | with_reducible apply State.poCommit_keeps | with_reducible apply Keeps.iter
      | (with_reducible refine Keeps.ofFst (by with_reducible assumption) ?_) | split | intro _ | dsimp only)

theorem State.commitPoint_keeps {P : List Part} {s₀ : State} (a0 : State) (a1 : ℕ) (h0 : Keeps P s₀ a0)
    (cmodule : Part.module ∈ P := by assumption) (cmemory : Part.memory ∈ P := by assumption)
    (ctiers : Part.tiers ∈ P := by assumption) (ckv : Part.kv ∈ P := by assumption)
    (clinks : Part.links ∈ P := by assumption) (chosts : Part.hosts ∈ P := by assumption)
    (cmedia : Part.media ∈ P := by assumption) (cregs : Part.regs ∈ P := by assumption)
    (crel : Part.rel ∈ P := by assumption) (cfw : Part.fw ∈ P := by assumption)
    (cdraws : Part.draws ∈ P := by assumption) : Keeps P s₀ (State.commitPoint a0 a1) := by
  unfold State.commitPoint
  repeat' (first
      | with_reducible assumption | with_reducible apply State.applySet_keeps
      | with_reducible apply State.setCset_keeps | split | dsimp only)

theorem State.csetClose_keeps {P : List Part} {s₀ : State} (a0 : State) (a1 : Writer) (a2 : ℕ) (a3 : ℕ) (h0
    : Keeps P s₀ a0) (cmodule : Part.module ∈ P := by assumption) (cmemory : Part.memory ∈ P := by assumption)
    (ctiers : Part.tiers ∈ P := by assumption) (ckv : Part.kv ∈ P := by assumption)
    (clinks : Part.links ∈ P := by assumption) (chosts : Part.hosts ∈ P := by assumption)
    (cmedia : Part.media ∈ P := by assumption) (cregs : Part.regs ∈ P := by assumption)
    (crel : Part.rel ∈ P := by assumption) (cfw : Part.fw ∈ P := by assumption)
    (cdraws : Part.draws ∈ P := by assumption) : Keeps P s₀ (State.csetClose a0 a1 a2 a3) := by
  unfold State.csetClose
  repeat' (first
      | with_reducible assumption | with_reducible apply State.setCset_keeps
      | with_reducible apply State.commitPoint_keeps | with_reducible apply State.ownerEvent_keeps
      | with_reducible apply State.cfgErr_keeps | with_reducible apply State.poHold_keeps | split | dsimp only)

theorem clearStack_keeps {P : List Part} {s₀ : State} (a0 : ℕ) (a1 : State) (h1 : Keeps P s₀ a1)
    (ctiers : Part.tiers ∈ P := by assumption) : Keeps P s₀ (clearStack a0 a1) := by
  unfold clearStack
  repeat' (first
      | with_reducible assumption | with_reducible apply State.setStack_keeps)

theorem execTrErrClear_keeps {P : List Part} {s₀ : State} (a0 : Writer) (a1 : Word) (a2 : State) (h2 : Keeps P s₀ a2)
    (ctiers : Part.tiers ∈ P := by assumption) (cregs : Part.regs ∈ P := by assumption)
    : ∀ u, execTrErrClear a0 a1 a2 = .next u → Keeps P s₀ u := by
  intro u e
  unfold execTrErrClear at e
  (repeat' split at e) <;> cases e
  all_goals
  repeat' (first
      | with_reducible assumption | with_reducible apply State.guarded_keeps | with_reducible apply clearStack_keeps
      | with_reducible apply Keeps.iter | intro _)

theorem State.tierRun_keeps {P : List Part} {s₀ : State} (a0 : State) (a1 : ℕ) (a2 : ℕ) (a3 : ℕ) (a4 :
    (State → CmdId → Line → State)) (h0 : Keeps P s₀ a0) (h4 : ∀ (u0 : State) (u1 : CmdId)
    (u2 : Line), Keeps P s₀ u0 → Keeps P s₀ (a4 u0 u1 u2)) (cmodule : Part.module ∈ P := by assumption)
    (ckv : Part.kv ∈ P := by assumption) (chosts : Part.hosts ∈ P := by assumption)
    (cregs : Part.regs ∈ P := by assumption) (crel : Part.rel ∈ P := by assumption)
    (cfw : Part.fw ∈ P := by assumption) : Keeps P s₀ (State.tierRun a0 a1 a2 a3 a4) := by
  unfold State.tierRun
  repeat' (first
      | with_reducible assumption | with_reducible apply h4 | with_reducible apply State.issueOrRun_keeps
      | with_reducible apply State.finish_keeps | split | intro _)

theorem wloadStripe_keeps {P : List Part} {s₀ : State} (a0 : CmdId) (a1 : Marked) (a2 : ℕ) (a3 : State) (a4 : ℕ) (h3
    : Keeps P s₀ a3) (cmemory : Part.memory ∈ P := by assumption) (ctiers : Part.tiers ∈ P := by assumption)
    : Keeps P s₀ (wloadStripe a0 a1 a2 a3 a4) := by
  unfold wloadStripe
  repeat' (first
      | with_reducible assumption | with_reducible apply State.stackWrite_keeps | with_reducible apply Keeps.foldl
      | intro _)

theorem wloadSpoil_keeps {P : List Part} {s₀ : State} (a0 : ℕ) (a1 : State) (a2 : ℕ) (h1 : Keeps P s₀ a1)
    (cmemory : Part.memory ∈ P := by assumption) (cdraws : Part.draws ∈ P := by assumption) : Keeps P s₀
    (wloadSpoil a0 a1 a2) := by
  unfold wloadSpoil
  repeat' (first
      | with_reducible assumption | with_reducible apply State.storeHavoc_keeps | with_reducible apply Keeps.foldl
      | intro _)

theorem wloadWork_keeps {P : List Part} {s₀ : State} (a0 : State) (a1 : CmdId) (a2 : Line) (h0 : Keeps P s₀ a0)
    (cmodule : Part.module ∈ P := by assumption) (cmemory : Part.memory ∈ P := by assumption)
    (ctiers : Part.tiers ∈ P := by assumption) (ckv : Part.kv ∈ P := by assumption)
    (chosts : Part.hosts ∈ P := by assumption) (cregs : Part.regs ∈ P := by assumption)
    (crel : Part.rel ∈ P := by assumption) (cfw : Part.fw ∈ P := by assumption)
    (cdraws : Part.draws ∈ P := by assumption) : Keeps P s₀ (wloadWork a0 a1 a2) := by
  unfold wloadWork
  repeat' (first
      | with_reducible assumption | with_reducible apply State.finish_keeps
      | with_reducible apply State.noteReads_keeps | with_reducible apply State.endWork_keeps
      | with_reducible apply wloadStripe_keeps | with_reducible apply wloadSpoil_keeps
      | with_reducible apply Keeps.foldl | split | intro _ | dsimp only)

theorem execWload_keeps {P : List Part} {s₀ : State} (a0 : Fin 16) (a1 : Fin 4) (a2 : State) (h2 : Keeps P s₀ a2)
    (cmodule : Part.module ∈ P := by assumption) (cmemory : Part.memory ∈ P := by assumption)
    (ctiers : Part.tiers ∈ P := by assumption) (ckv : Part.kv ∈ P := by assumption)
    (chosts : Part.hosts ∈ P := by assumption) (cregs : Part.regs ∈ P := by assumption)
    (crel : Part.rel ∈ P := by assumption) (cfw : Part.fw ∈ P := by assumption)
    (cdraws : Part.draws ∈ P := by assumption) : ∀ u, execWload a0 a1 a2 = .next u → Keeps P s₀ u := by
  intro u e
  unfold execWload at e
  (repeat' split at e) <;> cases e
  all_goals
  repeat' (first
      | with_reducible assumption | with_reducible apply State.tierRun_keeps | with_reducible apply wloadWork_keeps
      | intro _)

theorem wmapPage_keeps {P : List Part} {s₀ : State} (a0 : Line) (a1 : State × ℕ) (a2 : ℕ) (h1 : Keeps P s₀ a1.1)
    (ctiers : Part.tiers ∈ P := by assumption) : Keeps P s₀ (wmapPage a0 a1 a2).1 := by
  unfold wmapPage
  repeat' (first
      | with_reducible assumption | with_reducible apply State.setEntry_keeps | split | dsimp only)

theorem wmapWork_keeps {P : List Part} {s₀ : State} (a0 : State) (a1 : CmdId) (a2 : Line) (h0 : Keeps P s₀ a0)
    (cmodule : Part.module ∈ P := by assumption) (ctiers : Part.tiers ∈ P := by assumption)
    (ckv : Part.kv ∈ P := by assumption) (chosts : Part.hosts ∈ P := by assumption)
    (cregs : Part.regs ∈ P := by assumption) (crel : Part.rel ∈ P := by assumption)
    (cfw : Part.fw ∈ P := by assumption) : Keeps P s₀ (wmapWork a0 a1 a2) := by
  unfold wmapWork
  repeat' (first
      | with_reducible assumption | with_reducible apply State.finish_keeps | with_reducible apply wmapPage_keeps
      | with_reducible apply Keeps.foldlFst | split | intro _)

theorem execHeatDecay_keeps {P : List Part} {s₀ : State} (a0 : State) (h0 : Keeps P s₀ a0)
    (ctiers : Part.tiers ∈ P := by assumption) : ∀ u, execHeatDecay a0 = .next u → Keeps P s₀ u := by
  intro u e
  unfold execHeatDecay at e
  (repeat' split at e) <;> cases e
  all_goals
  repeat' (first
      | with_reducible assumption | dsimp only
      | (fail_if_no_progress with_reducible refine Keeps.free ?_ _ _ _ _ _ _ _ _ _ _ _ _ _))

theorem mapPage_keeps {P : List Part} {s₀ : State} (a0 : CmdId) (a1 : Line) (a2 : State × ℕ) (a3 : ℕ) (h2
    : Keeps P s₀ a2.1) (cmemory : Part.memory ∈ P := by assumption) (ctiers : Part.tiers ∈ P := by assumption)
    : Keeps P s₀ (mapPage a0 a1 a2 a3).1 := by
  unfold mapPage
  repeat' (first
      | with_reducible assumption | with_reducible apply State.setEntry_keeps
      | with_reducible apply State.charge_keeps
      | (with_reducible refine State.takePage_keepsE (by with_reducible assumption) ?_) | split | dsimp only)

theorem mapWork_keeps {P : List Part} {s₀ : State} (a0 : State) (a1 : CmdId) (a2 : Line) (h0 : Keeps P s₀ a0)
    (cmodule : Part.module ∈ P := by assumption) (cmemory : Part.memory ∈ P := by assumption)
    (ctiers : Part.tiers ∈ P := by assumption) (ckv : Part.kv ∈ P := by assumption)
    (chosts : Part.hosts ∈ P := by assumption) (cregs : Part.regs ∈ P := by assumption)
    (crel : Part.rel ∈ P := by assumption) (cfw : Part.fw ∈ P := by assumption) : Keeps P s₀ (mapWork a0 a1 a2) := by
  unfold mapWork
  repeat' (first
      | with_reducible assumption | with_reducible apply State.finish_keeps | with_reducible apply mapPage_keeps
      | with_reducible apply Keeps.foldlFst | split | intro _)

theorem State.dropSpoils_keeps {P : List Part} {s₀ : State} (a0 : State) (a1 : ℕ) (a2 : ℕ) (h0 : Keeps P s₀ a0)
    (ctiers : Part.tiers ∈ P := by assumption) : Keeps P s₀ (State.dropSpoils a0 a1 a2) := by
  unfold State.dropSpoils
  repeat' (first
      | with_reducible assumption | dsimp only
      | (fail_if_no_progress with_reducible refine Keeps.free ?_ _ _ _ _ _ _ _ _ _ _ _ _ _))

theorem unmapPage_keeps {P : List Part} {s₀ : State} (a0 : CmdId) (a1 : Line) (a2 : State × ℕ × List (ℕ × ℕ)) (a3 : ℕ)
    (h2 : Keeps P s₀ a2.1) (ctiers : Part.tiers ∈ P := by assumption) : Keeps P s₀ (unmapPage a0 a1 a2 a3).1 := by
  unfold unmapPage
  repeat' (first
      | with_reducible assumption | with_reducible apply State.dropSpoils_keeps
      | with_reducible apply State.setEntry_keeps | split | dsimp only)

theorem unmapWork_keeps {P : List Part} {s₀ : State} (a0 : State) (a1 : CmdId) (a2 : Line) (h0 : Keeps P s₀ a0)
    (cmodule : Part.module ∈ P := by assumption) (ctiers : Part.tiers ∈ P := by assumption)
    (ckv : Part.kv ∈ P := by assumption) (chosts : Part.hosts ∈ P := by assumption)
    (cregs : Part.regs ∈ P := by assumption) (crel : Part.rel ∈ P := by assumption)
    (cfw : Part.fw ∈ P := by assumption) : Keeps P s₀ (unmapWork a0 a1 a2) := by
  unfold unmapWork
  repeat' (first
      | with_reducible assumption | with_reducible apply State.finish_keeps | with_reducible apply unmapPage_keeps
      | with_reducible apply Keeps.foldlFst | split | intro _ | dsimp only
      | (fail_if_no_progress with_reducible refine Keeps.free ?_ _ _ _ _ _ _ _ _ _ _ _ _ _))

theorem State.freeAll_keeps {P : List Part} {s₀ : State} (a0 : State) (a1 : PendingFree) (h0 : Keeps P s₀ a0)
    (ctiers : Part.tiers ∈ P := by assumption) : Keeps P s₀ (State.freeAll a0 a1) := by
  unfold State.freeAll
  repeat' (first
      | with_reducible assumption | with_reducible apply State.credit_keeps
      | with_reducible apply State.freePage_keeps | with_reducible apply Keeps.foldl | intro _)

theorem execUnmapFree_keeps {P : List Part} {s₀ : State} (a0 : Fin 16) (a1 : State) (h1 : Keeps P s₀ a1)
    (ctiers : Part.tiers ∈ P := by assumption) : ∀ u, execUnmapFree a0 a1 = .next u → Keeps P s₀ u := by
  intro u e
  unfold execUnmapFree at e
  (repeat' split at e) <;> cases e
  all_goals
  repeat' (first
      | with_reducible assumption | with_reducible apply State.freeAll_keeps | with_reducible apply Keeps.foldl
      | intro _ | dsimp only | (fail_if_no_progress with_reducible refine Keeps.free ?_ _ _ _ _ _ _ _ _ _ _ _ _ _))

theorem spillRow_keeps {P : List Part} {s₀ : State} (a0 : CmdId) (a1 : Line) (a2 : State × ℕ) (a3 : ℕ × ℕ) (h2
    : Keeps P s₀ a2.1) (cmemory : Part.memory ∈ P := by assumption) (ctiers : Part.tiers ∈ P := by assumption)
    (ckv : Part.kv ∈ P := by assumption) : Keeps P s₀ (spillRow a0 a1 a2 a3).1 := by
  unfold spillRow
  repeat' (first
      | with_reducible assumption | with_reducible apply State.cvaWrite_keeps | split)

theorem spillWork_keeps {P : List Part} {s₀ : State} (a0 : State) (a1 : CmdId) (a2 : Line) (h0 : Keeps P s₀ a0)
    (cmodule : Part.module ∈ P := by assumption) (cmemory : Part.memory ∈ P := by assumption)
    (ctiers : Part.tiers ∈ P := by assumption) (ckv : Part.kv ∈ P := by assumption)
    (chosts : Part.hosts ∈ P := by assumption) (cregs : Part.regs ∈ P := by assumption)
    (crel : Part.rel ∈ P := by assumption) (cfw : Part.fw ∈ P := by assumption)
    (cdraws : Part.draws ∈ P := by assumption) : Keeps P s₀ (spillWork a0 a1 a2) := by
  unfold spillWork
  repeat' (first
      | with_reducible assumption | with_reducible apply State.endWork_keeps
      | with_reducible apply State.finish_keeps | with_reducible apply State.cvaHavoc_keeps
      | with_reducible apply spillRow_keeps | with_reducible apply Keeps.foldl | with_reducible apply Keeps.foldlFst
      | (with_reducible refine Keeps.ofFst (by with_reducible assumption) ?_) | split | intro _)

theorem execSpill_keeps {P : List Part} {s₀ : State} (a0 : Fin 16) (a1 : Fin 4) (a2 : State) (h2 : Keeps P s₀ a2)
    (cmodule : Part.module ∈ P := by assumption) (cmemory : Part.memory ∈ P := by assumption)
    (ctiers : Part.tiers ∈ P := by assumption) (ckv : Part.kv ∈ P := by assumption)
    (chosts : Part.hosts ∈ P := by assumption) (cregs : Part.regs ∈ P := by assumption)
    (crel : Part.rel ∈ P := by assumption) (cfw : Part.fw ∈ P := by assumption)
    (cdraws : Part.draws ∈ P := by assumption) : ∀ u, execSpill a0 a1 a2 = .next u → Keeps P s₀ u := by
  intro u e
  unfold execSpill at e
  (repeat' split at e) <;> cases e
  all_goals
  repeat' (first
      | with_reducible assumption | with_reducible apply State.tierRun_keeps | with_reducible apply spillWork_keeps
      | intro _)

theorem execMap_keeps {P : List Part} {s₀ : State} (a0 : Fin 16) (a1 : Fin 4) (a2 : State) (h2 : Keeps P s₀ a2)
    (cmodule : Part.module ∈ P := by assumption) (cmemory : Part.memory ∈ P := by assumption)
    (ctiers : Part.tiers ∈ P := by assumption) (ckv : Part.kv ∈ P := by assumption)
    (chosts : Part.hosts ∈ P := by assumption) (cregs : Part.regs ∈ P := by assumption)
    (crel : Part.rel ∈ P := by assumption) (cfw : Part.fw ∈ P := by assumption)
    : ∀ u, execMap a0 a1 a2 = .next u → Keeps P s₀ u := by
  intro u e
  unfold execMap at e
  (repeat' split at e) <;> cases e
  all_goals
  repeat' (first
      | with_reducible assumption | with_reducible apply State.tierRun_keeps | with_reducible apply mapWork_keeps
      | intro _)

theorem fillRow_keeps {P : List Part} {s₀ : State} (a0 : CmdId) (a1 : Line) (a2 : State × ℕ) (a3 : ℕ × ℕ) (h2
    : Keeps P s₀ a2.1) (cmemory : Part.memory ∈ P := by assumption) (ctiers : Part.tiers ∈ P := by assumption)
    (chosts : Part.hosts ∈ P := by assumption) : Keeps P s₀ (fillRow a0 a1 a2 a3).1 := by
  unfold fillRow
  repeat' (first
      | with_reducible assumption | with_reducible apply State.infWriteMarked_keeps
      | with_reducible apply State.noteRead_keeps | split | dsimp only)

theorem fillWork_keeps {P : List Part} {s₀ : State} (a0 : State) (a1 : CmdId) (a2 : Line) (h0 : Keeps P s₀ a0)
    (cmodule : Part.module ∈ P := by assumption) (cmemory : Part.memory ∈ P := by assumption)
    (ctiers : Part.tiers ∈ P := by assumption) (ckv : Part.kv ∈ P := by assumption)
    (chosts : Part.hosts ∈ P := by assumption) (cregs : Part.regs ∈ P := by assumption)
    (crel : Part.rel ∈ P := by assumption) (cfw : Part.fw ∈ P := by assumption)
    (cdraws : Part.draws ∈ P := by assumption) : Keeps P s₀ (fillWork a0 a1 a2) := by
  unfold fillWork
  repeat' (first
      | with_reducible assumption | with_reducible apply State.endWork_keeps
      | with_reducible apply State.finish_keeps | with_reducible apply State.infHavoc_keeps
      | with_reducible apply fillRow_keeps | with_reducible apply Keeps.foldl | with_reducible apply Keeps.foldlFst
      | (with_reducible refine Keeps.ofFst (by with_reducible assumption) ?_) | split | intro _)

theorem copyRow_keeps {P : List Part} {s₀ : State} (a0 : CmdId) (a1 : Line) (a2 : State × ℕ) (a3 : ℕ × ℕ) (h2
    : Keeps P s₀ a2.1) (cmemory : Part.memory ∈ P := by assumption) (ctiers : Part.tiers ∈ P := by assumption)
    (ckv : Part.kv ∈ P := by assumption) (chosts : Part.hosts ∈ P := by assumption) : Keeps P s₀
    (copyRow a0 a1 a2 a3).1 := by
  unfold copyRow
  repeat' (first
      | with_reducible assumption | with_reducible apply State.noteRead_keeps
      | with_reducible apply State.cvaWrite_keeps | split | dsimp only)

theorem execWmap_keeps {P : List Part} {s₀ : State} (a0 : Fin 16) (a1 : Fin 4) (a2 : State) (h2 : Keeps P s₀ a2)
    (cmodule : Part.module ∈ P := by assumption) (ctiers : Part.tiers ∈ P := by assumption)
    (ckv : Part.kv ∈ P := by assumption) (chosts : Part.hosts ∈ P := by assumption)
    (cregs : Part.regs ∈ P := by assumption) (crel : Part.rel ∈ P := by assumption)
    (cfw : Part.fw ∈ P := by assumption) : ∀ u, execWmap a0 a1 a2 = .next u → Keeps P s₀ u := by
  intro u e
  unfold execWmap at e
  (repeat' split at e) <;> cases e
  all_goals
  repeat' (first
      | with_reducible assumption | with_reducible apply State.tierRun_keeps | with_reducible apply wmapWork_keeps
      | intro _)

theorem copyWork_keeps {P : List Part} {s₀ : State} (a0 : State) (a1 : CmdId) (a2 : Line) (h0 : Keeps P s₀ a0)
    (cmodule : Part.module ∈ P := by assumption) (cmemory : Part.memory ∈ P := by assumption)
    (ctiers : Part.tiers ∈ P := by assumption) (ckv : Part.kv ∈ P := by assumption)
    (chosts : Part.hosts ∈ P := by assumption) (cregs : Part.regs ∈ P := by assumption)
    (crel : Part.rel ∈ P := by assumption) (cfw : Part.fw ∈ P := by assumption)
    (cdraws : Part.draws ∈ P := by assumption) : Keeps P s₀ (copyWork a0 a1 a2) := by
  unfold copyWork
  repeat' (first
      | with_reducible assumption | with_reducible apply State.endWork_keeps
      | with_reducible apply State.finish_keeps | with_reducible apply State.cvaHavoc_keeps
      | with_reducible apply copyRow_keeps | with_reducible apply Keeps.foldl | with_reducible apply Keeps.foldlFst
      | (with_reducible refine Keeps.ofFst (by with_reducible assumption) ?_) | split | intro _)

theorem execCopy_keeps {P : List Part} {s₀ : State} (a0 : Fin 16) (a1 : Fin 4) (a2 : State) (h2 : Keeps P s₀ a2)
    (cmodule : Part.module ∈ P := by assumption) (cmemory : Part.memory ∈ P := by assumption)
    (ctiers : Part.tiers ∈ P := by assumption) (ckv : Part.kv ∈ P := by assumption)
    (chosts : Part.hosts ∈ P := by assumption) (cregs : Part.regs ∈ P := by assumption)
    (crel : Part.rel ∈ P := by assumption) (cfw : Part.fw ∈ P := by assumption)
    (cdraws : Part.draws ∈ P := by assumption) : ∀ u, execCopy a0 a1 a2 = .next u → Keeps P s₀ u := by
  intro u e
  unfold execCopy at e
  (repeat' split at e) <;> cases e
  all_goals
  repeat' (first
      | with_reducible assumption | with_reducible apply State.tierRun_keeps | with_reducible apply copyWork_keeps
      | intro _)

theorem execFill_keeps {P : List Part} {s₀ : State} (a0 : Fin 16) (a1 : Fin 4) (a2 : State) (h2 : Keeps P s₀ a2)
    (cmodule : Part.module ∈ P := by assumption) (cmemory : Part.memory ∈ P := by assumption)
    (ctiers : Part.tiers ∈ P := by assumption) (ckv : Part.kv ∈ P := by assumption)
    (chosts : Part.hosts ∈ P := by assumption) (cregs : Part.regs ∈ P := by assumption)
    (crel : Part.rel ∈ P := by assumption) (cfw : Part.fw ∈ P := by assumption)
    (cdraws : Part.draws ∈ P := by assumption) : ∀ u, execFill a0 a1 a2 = .next u → Keeps P s₀ u := by
  intro u e
  unfold execFill at e
  (repeat' split at e) <;> cases e
  all_goals
  repeat' (first
      | with_reducible assumption | with_reducible apply State.tierRun_keeps | with_reducible apply fillWork_keeps
      | intro _)

theorem execUnmap_keeps {P : List Part} {s₀ : State} (a0 : Fin 16) (a1 : Fin 4) (a2 : State) (h2 : Keeps P s₀ a2)
    (cmodule : Part.module ∈ P := by assumption) (ctiers : Part.tiers ∈ P := by assumption)
    (ckv : Part.kv ∈ P := by assumption) (chosts : Part.hosts ∈ P := by assumption)
    (cregs : Part.regs ∈ P := by assumption) (crel : Part.rel ∈ P := by assumption)
    (cfw : Part.fw ∈ P := by assumption) : ∀ u, execUnmap a0 a1 a2 = .next u → Keeps P s₀ u := by
  intro u e
  unfold execUnmap at e
  (repeat' split at e) <;> cases e
  all_goals
  repeat' (first
      | with_reducible assumption | with_reducible apply State.tierRun_keeps | with_reducible apply unmapWork_keeps
      | intro _)

theorem sharePage_keeps {P : List Part} {s₀ : State} (a0 : Line) (a1 : State × ℕ) (a2 : ℕ × ℕ) (h1 : Keeps P s₀ a1.1)
    (ctiers : Part.tiers ∈ P := by assumption) (ckv : Part.kv ∈ P := by assumption) : Keeps P s₀
    (sharePage a0 a1 a2).1 := by
  unfold sharePage
  repeat' (first
      | with_reducible assumption | with_reducible apply State.drainShares_keeps
      | with_reducible apply State.pushShare_keeps | with_reducible apply State.charge_keeps
      | with_reducible apply State.setSeq_keeps | with_reducible apply State.setKvEntry_keeps | split | dsimp only)

theorem State.enableSeq_keeps {P : List Part} {s₀ : State} (a0 : State) (a1 : ℕ) (a2 : ℕ) (h0 : Keeps P s₀ a0)
    (ckv : Part.kv ∈ P := by assumption) (cregs : Part.regs ∈ P := by assumption) : Keeps P s₀
    (State.enableSeq a0 a1 a2) := by
  unfold State.enableSeq
  repeat' (first
      | with_reducible assumption | with_reducible apply State.setReg_keeps
      | with_reducible apply State.setSeq_keeps | split | dsimp only)

theorem State.reclaimEntry_keeps {P : List Part} {s₀ : State} (a0 : State) (a1 : ℕ) (a2 : ℕ) (h0 : Keeps P s₀ a0)
    (ctiers : Part.tiers ∈ P := by assumption) (ckv : Part.kv ∈ P := by assumption) : Keeps P s₀
    (State.reclaimEntry a0 a1 a2) := by
  unfold State.reclaimEntry
  repeat' (first
      | with_reducible assumption | with_reducible apply State.credit_keeps
      | with_reducible apply State.setKvEntry_keeps | with_reducible apply State.pushShare_keeps
      | with_reducible apply State.setSeq_keeps)

theorem State.freeEntry_keeps {P : List Part} {s₀ : State} (a0 : State) (a1 : ℕ) (a2 : ℕ) (a3 : ℕ) (h0
    : Keeps P s₀ a0) (ctiers : Part.tiers ∈ P := by assumption) (ckv : Part.kv ∈ P := by assumption) : Keeps P s₀
    (State.freeEntry a0 a1 a2 a3) := by
  unfold State.freeEntry
  repeat' (first
      | with_reducible assumption | with_reducible apply State.setKvEntry_keeps
      | with_reducible apply State.pushShare_keeps | with_reducible apply State.setSeq_keeps
      | with_reducible apply State.reclaimEntry_keeps | split | dsimp only)

theorem State.copyFrame_keeps {P : List Part} {s₀ : State} (a0 : State) (a1 : ℕ) (a2 : ℕ) (h0 : Keeps P s₀ a0)
    (cmemory : Part.memory ∈ P := by assumption) : Keeps P s₀ (State.copyFrame a0 a1 a2) := by
  unfold State.copyFrame
  repeat' (first
      | with_reducible assumption | with_reducible apply State.storeWriteMarked_keeps)

theorem execCowCopyDone_keeps {P : List Part} {s₀ : State} (a0 : Fin 8) (a1 : ℕ) (a2 : State) (h2 : Keeps P s₀ a2)
    (cmodule : Part.module ∈ P := by assumption) (cmemory : Part.memory ∈ P := by assumption)
    (ctiers : Part.tiers ∈ P := by assumption) (ckv : Part.kv ∈ P := by assumption)
    (clinks : Part.links ∈ P := by assumption) (chosts : Part.hosts ∈ P := by assumption)
    (cregs : Part.regs ∈ P := by assumption) (crel : Part.rel ∈ P := by assumption)
    (cfw : Part.fw ∈ P := by assumption) (cdraws : Part.draws ∈ P := by assumption)
    : ∀ u, execCowCopyDone a0 a1 a2 = .next u → Keeps P s₀ u := by
  intro u e
  unfold execCowCopyDone at e
  (repeat' split at e) <;> cases e
  all_goals
  repeat' (first
      | with_reducible assumption | with_reducible apply State.copyFrame_keeps
      | with_reducible apply State.noteStack_keeps | with_reducible apply State.modCmd_keeps
      | with_reducible apply State.setKvEntry_keeps | with_reducible apply State.credit_keeps
      | with_reducible apply State.pushShare_keeps | with_reducible apply State.setSeq_keeps
      | with_reducible apply State.stackWrite_keeps | with_reducible apply State.donesGo_keeps
      | with_reducible apply State.workDone_keeps | with_reducible apply Keeps.foldl
      | with_reducible apply Keeps.iter | intro _ | dsimp only
      | (fail_if_no_progress with_reducible refine Keeps.free ?_ _ _ _ _ _ _ _ _ _ _ _ _ _))

theorem State.whenIdle_keeps {P : List Part} {s₀ : State} (a0 : State) (a1 : Writer) (a2 : ℕ) (a3 : Bool) (a4 :
    (State → State)) (h0 : Keeps P s₀ a0) (h4 : ∀ (u0 : State), Keeps P s₀ u0 → Keeps P s₀ (a4 u0))
    (cregs : Part.regs ∈ P := by assumption) : Keeps P s₀ (State.whenIdle a0 a1 a2 a3 a4) := by
  unfold State.whenIdle
  repeat' (first
      | with_reducible assumption | with_reducible apply h4 | with_reducible apply State.cfgErr_keeps | split)

theorem execSequenceEnable_keeps {P : List Part} {s₀ : State} (a0 : Writer) (a1 : Fin 8) (a2 : Word) (a3 : State) (h3
    : Keeps P s₀ a3) (ckv : Part.kv ∈ P := by assumption) (cregs : Part.regs ∈ P := by assumption)
    : ∀ u, execSequenceEnable a0 a1 a2 a3 = .next u → Keeps P s₀ u := by
  intro u e
  unfold execSequenceEnable at e
  (repeat' split at e) <;> cases e
  all_goals
  repeat' (first
      | with_reducible assumption | with_reducible apply State.guarded_keeps
      | with_reducible apply State.whenIdle_keeps | with_reducible apply State.enableSeq_keeps | intro _)

theorem State.settleSeq_keeps {P : List Part} {s₀ : State} (a0 : State) (a1 : ℕ) (h0 : Keeps P s₀ a0)
    (ckv : Part.kv ∈ P := by assumption) (cregs : Part.regs ∈ P := by assumption) : Keeps P s₀
    (State.settleSeq a0 a1) := by
  unfold State.settleSeq
  repeat' (first
      | with_reducible assumption | with_reducible apply State.setReg_keeps
      | with_reducible apply State.setSeq_keeps | split | dsimp only)

theorem execReclaim_keeps {P : List Part} {s₀ : State} (a0 : Fin 8) (a1 : State) (h1 : Keeps P s₀ a1)
    (ctiers : Part.tiers ∈ P := by assumption) (ckv : Part.kv ∈ P := by assumption)
    (cregs : Part.regs ∈ P := by assumption) : ∀ u, execReclaim a0 a1 = .next u → Keeps P s₀ u := by
  intro u e
  unfold execReclaim at e
  (repeat' split at e) <;> cases e
  all_goals
  repeat' (first
      | with_reducible assumption | with_reducible apply State.settleSeq_keeps
      | with_reducible apply State.reclaimEntry_keeps)

theorem freePages_keeps {P : List Part} {s₀ : State} (a0 : ℕ) (a1 : ℕ) (a2 : List (ℕ × ℕ)) (a3 : Line)
    (a4 : State × ℕ) (h4 : Keeps P s₀ a4.1) (ctiers : Part.tiers ∈ P := by assumption)
    (ckv : Part.kv ∈ P := by assumption) : Keeps P s₀ (freePages a0 a1 a2 a3 a4).1 := by
  induction a2 generalizing a4 with
  | nil => exact h4
  | cons p r ih =>
    rw [freePages]
    split
    · exact h4
    · split
      · exact ih _ h4
      · exact ih _ (State.freeEntry_keeps _ _ _ _ h4)

theorem shareWork_keeps {P : List Part} {s₀ : State} (a0 : State) (a1 : CmdId) (a2 : Cmd) (h0 : Keeps P s₀ a0)
    (cmodule : Part.module ∈ P := by assumption) (ctiers : Part.tiers ∈ P := by assumption)
    (ckv : Part.kv ∈ P := by assumption) (chosts : Part.hosts ∈ P := by assumption)
    (cregs : Part.regs ∈ P := by assumption) (crel : Part.rel ∈ P := by assumption)
    (cfw : Part.fw ∈ P := by assumption) : Keeps P s₀ (shareWork a0 a1 a2) := by
  unfold shareWork
  repeat' (first
      | with_reducible assumption | with_reducible apply State.finish_keeps | with_reducible apply sharePage_keeps
      | with_reducible apply Keeps.foldlFst | split | intro _)

theorem execShare_keeps {P : List Part} {s₀ : State} (a0 : Fin 16) (a1 : State) (h1 : Keeps P s₀ a1)
    (cmodule : Part.module ∈ P := by assumption) (ctiers : Part.tiers ∈ P := by assumption)
    (ckv : Part.kv ∈ P := by assumption) (chosts : Part.hosts ∈ P := by assumption)
    (cregs : Part.regs ∈ P := by assumption) (crel : Part.rel ∈ P := by assumption)
    (cfw : Part.fw ∈ P := by assumption) : ∀ u, execShare a0 a1 = .next u → Keeps P s₀ u := by
  intro u e
  unfold execShare at e
  (repeat' split at e) <;> cases e
  all_goals
  repeat' (first
      | with_reducible assumption | with_reducible apply State.issueHead_keeps
      | with_reducible apply shareWork_keeps | intro _)

theorem execShareCountUpdate_keeps {P : List Part} {s₀ : State} (a0 : Fin 75) (a1 : State) (h1 : Keeps P s₀ a1)
    (ckv : Part.kv ∈ P := by assumption) : ∀ u, execShareCountUpdate a0 a1 = .next u → Keeps P s₀ u := by
  intro u e
  unfold execShareCountUpdate at e
  (repeat' split at e) <;> cases e
  all_goals
  repeat' (first
      | with_reducible assumption | with_reducible apply State.applyShare_keeps | dsimp only
      | (fail_if_no_progress with_reducible refine Keeps.free ?_ _ _ _ _ _ _ _ _ _ _ _ _ _))

theorem freeWork_keeps {P : List Part} {s₀ : State} (a0 : State) (a1 : CmdId) (a2 : Cmd) (h0 : Keeps P s₀ a0)
    (cmodule : Part.module ∈ P := by assumption) (ctiers : Part.tiers ∈ P := by assumption)
    (ckv : Part.kv ∈ P := by assumption) (chosts : Part.hosts ∈ P := by assumption)
    (cregs : Part.regs ∈ P := by assumption) (crel : Part.rel ∈ P := by assumption)
    (cfw : Part.fw ∈ P := by assumption) : Keeps P s₀ (freeWork a0 a1 a2) := by
  unfold freeWork
  repeat' (first
      | with_reducible assumption | with_reducible apply State.modCmd_keeps
      | with_reducible apply State.finish_keeps | with_reducible apply freePages_keeps | split | dsimp only)

theorem execPageFree_keeps {P : List Part} {s₀ : State} (a0 : Fin 16) (a1 : State) (h1 : Keeps P s₀ a1)
    (cmodule : Part.module ∈ P := by assumption) (ctiers : Part.tiers ∈ P := by assumption)
    (ckv : Part.kv ∈ P := by assumption) (chosts : Part.hosts ∈ P := by assumption)
    (cregs : Part.regs ∈ P := by assumption) (crel : Part.rel ∈ P := by assumption)
    (cfw : Part.fw ∈ P := by assumption) : ∀ u, execPageFree a0 a1 = .next u → Keeps P s₀ u := by
  intro u e
  unfold execPageFree at e
  (repeat' split at e) <;> cases e
  all_goals
  repeat' (first
      | with_reducible assumption | with_reducible apply State.issueOrRun_keeps
      | with_reducible apply freeWork_keeps | intro _)

theorem State.disableSeq_keeps {P : List Part} {s₀ : State} (a0 : State) (a1 : ℕ) (a2 : Option ℕ) (h0 : Keeps P s₀ a0)
    (ctiers : Part.tiers ∈ P := by assumption) (ckv : Part.kv ∈ P := by assumption)
    (cregs : Part.regs ∈ P := by assumption) : Keeps P s₀ (State.disableSeq a0 a1 a2) := by
  unfold State.disableSeq
  repeat' (first
      | with_reducible assumption | with_reducible apply State.freeEntry_keeps
      | with_reducible apply State.settleSeq_keeps | with_reducible apply State.setSeq_keeps
      | with_reducible apply Keeps.iter | split | intro _)

theorem execSequenceDisable_keeps {P : List Part} {s₀ : State} (a0 : Writer) (a1 : Fin 8) (a2 : Word) (a3 : State) (h3
    : Keeps P s₀ a3) (ctiers : Part.tiers ∈ P := by assumption) (ckv : Part.kv ∈ P := by assumption)
    (cregs : Part.regs ∈ P := by assumption) : ∀ u, execSequenceDisable a0 a1 a2 a3 = .next u → Keeps P s₀ u := by
  intro u e
  unfold execSequenceDisable at e
  (repeat' split at e) <;> cases e
  all_goals
  repeat' (first
      | with_reducible assumption | with_reducible apply State.guarded_keeps
      | with_reducible apply State.whenIdle_keeps | with_reducible apply State.disableSeq_keeps
      | with_reducible apply State.setReg_keeps | split | intro _)

theorem deliverEntry_keeps {P : List Part} {s₀ : State} (a0 : ℕ) (a1 : ℕ) (a2 : ℕ) (a3 : State) (a4 : ℕ × ℕ) (h3
    : Keeps P s₀ a3) (clinks : Part.links ∈ P := by assumption) (chosts : Part.hosts ∈ P := by assumption)
    (cregs : Part.regs ∈ P := by assumption) : Keeps P s₀ (deliverEntry a0 a1 a2 a3 a4) := by
  unfold deliverEntry
  repeat' (first
      | with_reducible assumption | with_reducible apply State.modCmd_keeps
      | with_reducible apply State.setGroup_keeps | with_reducible apply State.modMsg_keeps
      | with_reducible apply State.addSat_keeps | split | dsimp only)

theorem State.streamWaited_keeps {P : List Part} {s₀ : State} (a0 : State) (a1 : ℕ) (a2 : ℕ) (h0 : Keeps P s₀ a0)
    (clinks : Part.links ∈ P := by assumption) : Keeps P s₀ (State.streamWaited a0 a1 a2) := by
  unfold State.streamWaited
  repeat' (first
      | with_reducible assumption | with_reducible apply State.setStream_keeps)

theorem State.deliver_keeps {P : List Part} {s₀ : State} (a0 : State) (a1 : ℕ) (a2 : List (ℕ × ℕ)) (h0
    : Keeps P s₀ a0) (clinks : Part.links ∈ P := by assumption) (chosts : Part.hosts ∈ P := by assumption)
    (cregs : Part.regs ∈ P := by assumption) : Keeps P s₀ (State.deliver a0 a1 a2) := by
  unfold State.deliver
  repeat' (first
      | with_reducible assumption | with_reducible apply deliverEntry_keeps
      | with_reducible apply State.setStream_keeps | with_reducible apply Keeps.foldl | split | intro _)

end Sys2Proof.Machine
end

