-- ==== Sys2Proof/Laws/KeepsCompute.lean ====
section
/-!
SUPPORT. The parts of the state that each operation may write, and that every operation keeps the bytes canonical, the logbook
growing and the fuses blown (`Keeps`): kernels, cores, engines, attention and the guard rails.
-/



namespace Sys2Proof.Machine

open Sys2Proof Sys2Proof.Safety

set_option linter.all false
set_option Elab.async false

theorem State.setSlot_keeps {P : List Part} {s₀ : State} (a0 : State) (a1 : ℕ) (a2 : ℕ) (a3 : Option KImage) (h0
    : Keeps P s₀ a0) (chosts : Part.hosts ∈ P := by assumption) : Keeps P s₀ (State.setSlot a0 a1 a2 a3) := by
  unfold State.setSlot
  repeat' (first
      | with_reducible assumption | with_reducible apply State.setCtx_keeps)

theorem loadWork_keeps {P : List Part} {s₀ : State} (a0 : State) (a1 : CmdId) (a2 : Cmd) (h0 : Keeps P s₀ a0)
    (cmodule : Part.module ∈ P := by assumption) (ctiers : Part.tiers ∈ P := by assumption)
    (ckv : Part.kv ∈ P := by assumption) (chosts : Part.hosts ∈ P := by assumption)
    (cregs : Part.regs ∈ P := by assumption) (crel : Part.rel ∈ P := by assumption)
    (cfw : Part.fw ∈ P := by assumption) : Keeps P s₀ (loadWork a0 a1 a2) := by
  unfold loadWork
  repeat' (first
      | with_reducible assumption | with_reducible apply State.noteRead_keeps
      | with_reducible apply State.consumePoison_keeps | with_reducible apply State.finish_keeps
      | with_reducible apply State.setSlot_keeps | split | dsimp only)

theorem execLoadKernel_keeps {P : List Part} {s₀ : State} (a0 : Fin 16) (a1 : State) (h1 : Keeps P s₀ a1)
    (cmodule : Part.module ∈ P := by assumption) (ctiers : Part.tiers ∈ P := by assumption)
    (ckv : Part.kv ∈ P := by assumption) (chosts : Part.hosts ∈ P := by assumption)
    (cregs : Part.regs ∈ P := by assumption) (crel : Part.rel ∈ P := by assumption)
    (cfw : Part.fw ∈ P := by assumption) : ∀ u, execLoadKernel a0 a1 = .next u → Keeps P s₀ u := by
  intro u e
  unfold execLoadKernel at e
  (repeat' split at e) <;> cases e
  all_goals
  repeat' (first
      | with_reducible assumption | with_reducible apply State.issueHead_keeps | with_reducible apply loadWork_keeps
      | intro _)

theorem State.idleCounters_keeps {P : List Part} {s₀ : State} (a0 : State) (h0 : Keeps P s₀ a0)
    (ctiles : Part.tiles ∈ P := by assumption) : Keeps P s₀ (State.idleCounters a0) := by
  unfold State.idleCounters
  repeat' (first
      | with_reducible assumption | dsimp only
      | (fail_if_no_progress with_reducible refine Keeps.free ?_ _ _ _ _ _ _ _ _ _ _ _ _ _))

theorem State.windowStart_keeps {P : List Part} {s₀ : State} (a0 : State) (a1 : (ℕ → ℕ × ℕ)) (h0 : Keeps P s₀ a0)
    (cregs : Part.regs ∈ P := by assumption) : Keeps P s₀ (State.windowStart a0 a1) := by
  unfold State.windowStart
  repeat' (first
      | with_reducible assumption | with_reducible apply State.setReg_keeps | with_reducible apply Keeps.iter
      | split | intro _)

theorem State.attnGive_keeps {P : List Part} {s₀ : State} (a0 : State) (a1 : AttnClaim) (a2 : Cmd) (h0
    : Keeps P s₀ a0) (ctiles : Part.tiles ∈ P := by assumption) : Keeps P s₀ (State.attnGive a0 a1 a2) := by
  unfold State.attnGive
  repeat' (first
      | with_reducible assumption | with_reducible apply State.setLap_keeps)

theorem State.attnTake_keeps {P : List Part} {s₀ : State} (a0 : State) (a1 : AttnClaim) (a2 : Cmd) (h0
    : Keeps P s₀ a0) (ctiles : Part.tiles ∈ P := by assumption) (cattn : Part.attn ∈ P := by assumption)
    : ∀ u, State.attnTake a0 a1 a2 = some u → Keeps P s₀ u := by
  intro u e
  unfold State.attnTake at e
  dsimp only at e
  split at e
  · cases e; exact h0
  · obtain ⟨p, _, rfl⟩ := Option.map_eq_some_iff.mp e
    repeat' (first
        | with_reducible assumption | with_reducible apply State.setLap_keeps | split
        | (fail_if_no_progress with_reducible refine Keeps.free ?_ _ _ _ _ _ _ _ _ _ _ _ _ _))
theorem State.attnTake_keepsE {P : List Part} {s₀ t : State} {a0 : State} {a1 : AttnClaim} {a2 : Cmd}
    (e : State.attnTake a0 a1 a2 = some t) (h0 : Keeps P s₀ a0) (ctiles : Part.tiles ∈ P := by assumption)
    (cattn : Part.attn ∈ P := by assumption) : Keeps P s₀ t := (State.attnTake_keeps a0 a1 a2 h0) _ e

theorem State.notePrior_keeps {P : List Part} {s₀ : State} (a0 : State) (a1 : ℕ) (a2 : Option Kernel) (h0
    : Keeps P s₀ a0) (ctiles : Part.tiles ∈ P := by assumption) : Keeps P s₀ (State.notePrior a0 a1 a2) := by
  unfold State.notePrior
  repeat' (first
      | with_reducible assumption | dsimp only
      | (fail_if_no_progress with_reducible refine Keeps.free ?_ _ _ _ _ _ _ _ _ _ _ _ _ _))

theorem State.retireCore_keeps {P : List Part} {s₀ : State} (a0 : State) (a1 : ℕ) (a2 : ℕ) (h0 : Keeps P s₀ a0)
    (ctiles : Part.tiles ∈ P := by assumption) (chosts : Part.hosts ∈ P := by assumption)
    (cregs : Part.regs ∈ P := by assumption) (crel : Part.rel ∈ P := by assumption)
    (cfw : Part.fw ∈ P := by assumption) : Keeps P s₀ (State.retireCore a0 a1 a2) := by
  unfold State.retireCore
  repeat' (first
      | with_reducible assumption | with_reducible apply State.setCoreSite_keeps
      | with_reducible apply State.ownerEvent_keeps | with_reducible apply State.log_keeps)

theorem execCoreRetest_keeps {P : List Part} {s₀ : State} (a0 : Fin 81) (a1 : Fin 4096) (a2 : Bool) (a3 : State) (h3
    : Keeps P s₀ a3) (ctiles : Part.tiles ∈ P := by assumption) (chosts : Part.hosts ∈ P := by assumption)
    (cregs : Part.regs ∈ P := by assumption) (crel : Part.rel ∈ P := by assumption)
    (cfw : Part.fw ∈ P := by assumption) : ∀ u, execCoreRetest a0 a1 a2 a3 = .next u → Keeps P s₀ u := by
  intro u e
  unfold execCoreRetest at e
  (repeat' split at e) <;> cases e
  all_goals
  repeat' (first
      | with_reducible assumption | with_reducible apply State.setCoreSite_keeps
      | with_reducible apply State.log_keeps | with_reducible apply State.retireCore_keeps)

theorem State.takeCounters_keeps {P : List Part} {s₀ : State} (a0 : State) (a1 : ℕ) (a2 : Kernel) (h0 : Keeps P s₀ a0)
    (ctiles : Part.tiles ∈ P := by assumption) : Keeps P s₀ (State.takeCounters a0 a1 a2) := by
  unfold State.takeCounters
  repeat' (first
      | with_reducible assumption | with_reducible apply State.setLap_keeps | with_reducible apply Keeps.iter
      | intro _)

theorem State.noteWide_keeps {P : List Part} {s₀ : State} (a0 : State) (a1 : Kernel) (h0 : Keeps P s₀ a0)
    (crails : Part.rails ∈ P := by assumption) : Keeps P s₀ (State.noteWide a0 a1) := by
  unfold State.noteWide
  repeat' (first
      | with_reducible assumption | split | dsimp only
      | (fail_if_no_progress with_reducible refine Keeps.free ?_ _ _ _ _ _ _ _ _ _ _ _ _ _))

theorem State.returnAttn_keeps {P : List Part} {s₀ : State} (a0 : State) (a1 : (Held → Bool)) (a2 : Bool) (h0
    : Keeps P s₀ a0) (ctiles : Part.tiles ∈ P := by assumption) (cattn : Part.attn ∈ P := by assumption) : Keeps P s₀
    (State.returnAttn a0 a1 a2) := by
  unfold State.returnAttn
  repeat' (first
      | with_reducible assumption | with_reducible apply State.setLap_keeps | with_reducible apply Keeps.foldl
      | split | intro _ | dsimp only
      | (fail_if_no_progress with_reducible refine Keeps.free ?_ _ _ _ _ _ _ _ _ _ _ _ _ _))

theorem State.returnCore_keeps {P : List Part} {s₀ : State} (a0 : State) (a1 : ℕ) (h0 : Keeps P s₀ a0)
    (ctiles : Part.tiles ∈ P := by assumption) (cregs : Part.regs ∈ P := by assumption) : Keeps P s₀
    (State.returnCore a0 a1) := by
  unfold State.returnCore
  repeat' (first
      | with_reducible assumption | with_reducible apply State.addWrap_keeps
      | with_reducible apply State.setCore_keeps | split)

theorem State.returnClaim_keeps {P : List Part} {s₀ : State} (a0 : State) (a1 : ℕ) (a2 : ℕ) (a3 : Bool) (a4 : Pass)
    (h0 : Keeps P s₀ a0) (ctiles : Part.tiles ∈ P := by assumption) (cregs : Part.regs ∈ P := by assumption)
    : Keeps P s₀ (State.returnClaim a0 a1 a2 a3 a4) := by
  unfold State.returnClaim
  repeat' (first
      | with_reducible assumption | with_reducible apply State.returnCore_keeps
      | with_reducible apply State.setLap_keeps | split | dsimp only)

theorem State.dropCore_keeps {P : List Part} {s₀ : State} (a0 : State) (a1 : ℕ) (a2 : ℕ) (a3 : Bool) (h0
    : Keeps P s₀ a0) (ctiles : Part.tiles ∈ P := by assumption) (cattn : Part.attn ∈ P := by assumption)
    (cregs : Part.regs ∈ P := by assumption) : Keeps P s₀ (State.dropCore a0 a1 a2 a3) := by
  unfold State.dropCore
  repeat' (first
      | with_reducible assumption | with_reducible apply State.returnAttn_keeps
      | with_reducible apply State.returnClaim_keeps | with_reducible apply State.setCore_keeps
      | with_reducible apply Keeps.foldl | intro _)

theorem State.withdraw_keeps {P : List Part} {s₀ : State} (a0 : State) (h0 : Keeps P s₀ a0)
    (ctiles : Part.tiles ∈ P := by assumption) (cattn : Part.attn ∈ P := by assumption)
    (cregs : Part.regs ∈ P := by assumption) : Keeps P s₀ (State.withdraw a0) := by
  unfold State.withdraw
  repeat' (first
      | with_reducible assumption | with_reducible apply State.returnAttn_keeps
      | with_reducible apply State.dropCore_keeps | with_reducible apply Keeps.foldl | intro _)

theorem latticeFold_keeps {P : List Part} {s₀ : State} (f : State → Nat → State) (hf
    : ∀ u n, Keeps P s₀ u → Keeps P s₀ (f u n)) :
    ∀ (l : List (Nat × Nat)) (n : Nat) (s : State), Keeps P s₀ s → Keeps P s₀ (latticeFold f l n s)
  | [], n, s, h => hf s n h
  | _ :: r, _, _, h => Keeps.iter _ _ (fun _ _ hu => latticeFold_keeps f hf r _ _ hu) h
theorem State.havocOutputs_keeps {P : List Part} {s₀ : State} (a0 : State) (a1 : Kernel) (h0 : Keeps P s₀ a0)
    (cmemory : Part.memory ∈ P := by assumption) (cdraws : Part.draws ∈ P := by assumption) : Keeps P s₀
    (State.havocOutputs a0 a1) := by
  unfold State.havocOutputs
  refine Keeps.foldl _ _ ?_ h0
  intro w u hu
  refine Keeps.iter _ _ ?_ hu
  intro i v hv
  exact latticeFold_keeps _ (fun t n ht => State.infHavoc_keeps _ _ _ _ ht) _ _ _ hv
theorem State.wake_keeps {P : List Part} {s₀ : State} (a0 : State) (a1 : ℕ) (h0 : Keeps P s₀ a0)
    (ctiles : Part.tiles ∈ P := by assumption) : Keeps P s₀ (State.wake a0 a1) := by
  unfold State.wake
  repeat' (first
      | with_reducible assumption | dsimp only
      | (fail_if_no_progress with_reducible refine Keeps.free ?_ _ _ _ _ _ _ _ _ _ _ _ _ _))

theorem State.wakeAll_keeps {P : List Part} {s₀ : State} (a0 : State) (h0 : Keeps P s₀ a0)
    (ctiles : Part.tiles ∈ P := by assumption) (cregs : Part.regs ∈ P := by assumption) : Keeps P s₀
    (State.wakeAll a0) := by
  unfold State.wakeAll
  repeat' (first
      | with_reducible assumption | with_reducible apply State.returnCore_keeps
      | with_reducible apply State.wake_keeps | with_reducible apply Keeps.foldl | intro _)

theorem State.dropField_keeps {P : List Part} {s₀ : State} (a0 : State) (a1 : ℕ) (h0 : Keeps P s₀ a0)
    (ctiles : Part.tiles ∈ P := by assumption) (cattn : Part.attn ∈ P := by assumption)
    (cregs : Part.regs ∈ P := by assumption) : Keeps P s₀ (State.dropField a0 a1) := by
  unfold State.dropField
  repeat' (first
      | with_reducible assumption | with_reducible apply State.wakeAll_keeps
      | with_reducible apply State.returnAttn_keeps | with_reducible apply State.dropCore_keeps
      | with_reducible apply Keeps.foldl | intro _)

theorem State.refuseKernel_keeps {P : List Part} {s₀ : State} (a0 : State) (a1 : CmdId) (a2 : ℕ) (h0 : Keeps P s₀ a0)
    (cmodule : Part.module ∈ P := by assumption) (ctiles : Part.tiles ∈ P := by assumption)
    (ckv : Part.kv ∈ P := by assumption) (chosts : Part.hosts ∈ P := by assumption)
    (cregs : Part.regs ∈ P := by assumption) (crel : Part.rel ∈ P := by assumption)
    (cfw : Part.fw ∈ P := by assumption) : Keeps P s₀ (State.refuseKernel a0 a1 a2) := by
  unfold State.refuseKernel
  repeat' (first
      | with_reducible assumption | with_reducible apply State.finish_keeps
      | with_reducible apply State.notePrior_keeps)

theorem State.zeroBands_keeps {P : List Part} {s₀ : State} (a0 : State) (a1 : Kernel) (h0 : Keeps P s₀ a0)
    (ctiles : Part.tiles ∈ P := by assumption) : Keeps P s₀ (State.zeroBands a0 a1) := by
  unfold State.zeroBands
  repeat' (first
      | with_reducible assumption | split | dsimp only
      | (fail_if_no_progress with_reducible refine Keeps.free ?_ _ _ _ _ _ _ _ _ _ _ _ _ _))

theorem State.windowRegs_keeps {P : List Part} {s₀ : State} (a0 : State) (a1 : Kernel) (h0 : Keeps P s₀ a0)
    (cregs : Part.regs ∈ P := by assumption) : Keeps P s₀ (State.windowRegs a0 a1) := by
  unfold State.windowRegs
  repeat' (first
      | with_reducible assumption | with_reducible apply State.windowStart_keeps | split)

theorem State.startKernel_keeps {P : List Part} {s₀ : State} (a0 : State) (a1 : CmdId) (a2 : KImage) (a3 : Option ℕ)
    (h0 : Keeps P s₀ a0) (cmodule : Part.module ∈ P := by assumption) (ctiles : Part.tiles ∈ P := by assumption)
    (crails : Part.rails ∈ P := by assumption) (ckv : Part.kv ∈ P := by assumption)
    (chosts : Part.hosts ∈ P := by assumption) (cregs : Part.regs ∈ P := by assumption)
    (crel : Part.rel ∈ P := by assumption) (cfw : Part.fw ∈ P := by assumption) : Keeps P s₀
    (State.startKernel a0 a1 a2 a3) := by
  unfold State.startKernel
  repeat' (first
      | with_reducible assumption | with_reducible apply State.refuseKernel_keeps
      | with_reducible apply State.zeroBands_keeps | with_reducible apply State.setKernel_keeps
      | with_reducible apply State.takeCounters_keeps | with_reducible apply State.raise_keeps
      | with_reducible apply State.noteWide_keeps | with_reducible apply State.windowRegs_keeps | split | dsimp only
      | (fail_if_no_progress with_reducible refine Keeps.free ?_ _ _ _ _ _ _ _ _ _ _ _ _ _))

theorem State.runSlot_keeps {P : List Part} {s₀ : State} (a0 : State) (a1 : CmdId) (a2 : Cmd) (a3 : List ℕ)
    (a4 : Option ℕ) (h0 : Keeps P s₀ a0) (cmodule : Part.module ∈ P := by assumption)
    (ctiles : Part.tiles ∈ P := by assumption) (crails : Part.rails ∈ P := by assumption)
    (ckv : Part.kv ∈ P := by assumption) (chosts : Part.hosts ∈ P := by assumption)
    (cregs : Part.regs ∈ P := by assumption) (crel : Part.rel ∈ P := by assumption)
    (cfw : Part.fw ∈ P := by assumption) : Keeps P s₀ (State.runSlot a0 a1 a2 a3 a4) := by
  unfold State.runSlot
  repeat' (first
      | with_reducible assumption | with_reducible apply State.refuseKernel_keeps
      | with_reducible apply State.markIssued_keeps | with_reducible apply State.modCmd_keeps
      | with_reducible apply State.startKernel_keeps | split)

theorem State.runHead_keeps {P : List Part} {s₀ : State} (a0 : State) (a1 : ℕ) (a2 : (Cmd → Bool)) (h0
    : Keeps P s₀ a0) (cmodule : Part.module ∈ P := by assumption) (ctiles : Part.tiles ∈ P := by assumption)
    (crails : Part.rails ∈ P := by assumption) (ckv : Part.kv ∈ P := by assumption)
    (chosts : Part.hosts ∈ P := by assumption) (cregs : Part.regs ∈ P := by assumption)
    (crel : Part.rel ∈ P := by assumption) (cfw : Part.fw ∈ P := by assumption) : Keeps P s₀
    (State.runHead a0 a1 a2) := by
  unfold State.runHead
  repeat' (first
      | with_reducible assumption | with_reducible apply State.finish_keeps
      | with_reducible apply State.markIssued_keeps | with_reducible apply State.runSlot_keeps | split)

theorem State.takeTile_keeps {P : List Part} {s₀ : State} (a0 : State) (a1 : Kernel) (a2 : ℕ) (a3 : ℕ) (a4 : ℕ)
    (a5 : ℕ) (a6 : ℕ) (a7 : ℕ) (h0 : Keeps P s₀ a0) (ctiles : Part.tiles ∈ P := by assumption) : Keeps P s₀
    (State.takeTile a0 a1 a2 a3 a4 a5 a6 a7) := by
  unfold State.takeTile
  repeat' (first
      | with_reducible assumption | with_reducible apply State.setLap_keeps
      | with_reducible apply State.setCore_keeps | split)

theorem State.waitBegins_keeps {P : List Part} {s₀ : State} (a0 : State) (a1 : Kernel) (h0 : Keeps P s₀ a0)
    (ctiles : Part.tiles ∈ P := by assumption) (cregs : Part.regs ∈ P := by assumption) : Keeps P s₀
    (State.waitBegins a0 a1) := by
  unfold State.waitBegins
  repeat' (first
      | with_reducible assumption | with_reducible apply State.returnCore_keeps | split)

theorem State.noTile_keeps {P : List Part} {s₀ : State} (a0 : State) (a1 : ℕ) (a2 : ℕ) (a3 : ℕ) (h0 : Keeps P s₀ a0)
    (ctiles : Part.tiles ∈ P := by assumption) : Keeps P s₀ (State.noTile a0 a1 a2 a3) := by
  unfold State.noTile
  repeat' (first
      | with_reducible assumption | with_reducible apply State.setCore_keeps | split | dsimp only)

theorem State.claim_keeps {P : List Part} {s₀ : State} (a0 : State) (a1 : ℕ) (a2 : ℕ) (h0 : Keeps P s₀ a0)
    (ctiles : Part.tiles ∈ P := by assumption) (cregs : Part.regs ∈ P := by assumption) : Keeps P s₀
    (State.claim a0 a1 a2) := by
  unfold State.claim
  repeat' (first
      | with_reducible assumption | with_reducible apply State.takeTile_keeps
      | with_reducible apply State.waitBegins_keeps | with_reducible apply State.setCore_keeps
      | with_reducible apply State.noTile_keeps | split)

theorem execClaim_keeps {P : List Part} {s₀ : State} (a0 : Fin 81) (a1 : Fin 4096) (a2 : State) (h2 : Keeps P s₀ a2)
    (ctiles : Part.tiles ∈ P := by assumption) (cregs : Part.regs ∈ P := by assumption)
    : ∀ u, execClaim a0 a1 a2 = .next u → Keeps P s₀ u := by
  intro u e
  unfold execClaim at e
  (repeat' split at e) <;> cases e
  all_goals
  repeat' (first
      | with_reducible assumption | with_reducible apply State.claim_keeps)

theorem execCoreIdle_keeps {P : List Part} {s₀ : State} (a0 : Fin 81) (a1 : Fin 4096) (a2 : State) (h2
    : Keeps P s₀ a2) (ctiles : Part.tiles ∈ P := by assumption)
    : ∀ u, execCoreIdle a0 a1 a2 = .next u → Keeps P s₀ u := by
  intro u e
  unfold execCoreIdle at e
  (repeat' split at e) <;> cases e
  all_goals
  repeat' (first
      | with_reducible assumption | with_reducible apply State.noTile_keeps | split | dsimp only)

theorem execGatedClaim_keeps {P : List Part} {s₀ : State} (a0 : Fin 81) (a1 : Fin 4096) (a2 : ℕ) (a3 : State) (h3
    : Keeps P s₀ a3) (ctiles : Part.tiles ∈ P := by assumption) (clinks : Part.links ∈ P := by assumption)
    (cregs : Part.regs ∈ P := by assumption) : ∀ u, execGatedClaim a0 a1 a2 a3 = .next u → Keeps P s₀ u := by
  intro u e
  unfold execGatedClaim at e
  (repeat' split at e) <;> cases e
  all_goals
  repeat' (first
      | with_reducible assumption | with_reducible apply State.claim_keeps | with_reducible apply State.addSat_keeps
      | with_reducible apply State.streamWaited_keeps | with_reducible apply Keeps.foldl | split | intro _
      | dsimp only)

theorem State.loseCore_keeps {P : List Part} {s₀ : State} (a0 : State) (a1 : ℕ) (a2 : ℕ) (h0 : Keeps P s₀ a0)
    (ctiles : Part.tiles ∈ P := by assumption) (cattn : Part.attn ∈ P := by assumption)
    (chosts : Part.hosts ∈ P := by assumption) (cregs : Part.regs ∈ P := by assumption)
    (crel : Part.rel ∈ P := by assumption) (cfw : Part.fw ∈ P := by assumption) : Keeps P s₀
    (State.loseCore a0 a1 a2) := by
  unfold State.loseCore
  repeat' (first
      | with_reducible assumption | with_reducible apply State.wakeAll_keeps
      | with_reducible apply State.setCoreSite_keeps | with_reducible apply State.dropCore_keeps
      | with_reducible apply State.log_keeps | with_reducible apply State.retireCore_keeps | split | dsimp only)

theorem execCoreLost_keeps {P : List Part} {s₀ : State} (a0 : Fin 81) (a1 : Fin 4096) (a2 : State) (h2
    : Keeps P s₀ a2) (ctiles : Part.tiles ∈ P := by assumption) (cattn : Part.attn ∈ P := by assumption)
    (chosts : Part.hosts ∈ P := by assumption) (cregs : Part.regs ∈ P := by assumption)
    (crel : Part.rel ∈ P := by assumption) (cfw : Part.fw ∈ P := by assumption)
    : ∀ u, execCoreLost a0 a1 a2 = .next u → Keeps P s₀ u := by
  intro u e
  unfold execCoreLost at e
  (repeat' split at e) <;> cases e
  all_goals
  repeat' (first
      | with_reducible assumption | with_reducible apply State.loseCore_keeps)

theorem State.clearBitmap_keeps {P : List Part} {s₀ : State} (a0 : State) (a1 : ℕ) (a2 : ℕ) (h0 : Keeps P s₀ a0)
    (ctiles : Part.tiles ∈ P := by assumption) : Keeps P s₀ (State.clearBitmap a0 a1 a2) := by
  unfold State.clearBitmap
  repeat' (first
      | with_reducible assumption | dsimp only
      | (fail_if_no_progress with_reducible refine Keeps.free ?_ _ _ _ _ _ _ _ _ _ _ _ _ _))

theorem State.endWith_keeps {P : List Part} {s₀ : State} (a0 : State) (a1 : ℕ) (a2 : Kernel) (a3 :
    (LapCounter → LapCounter)) (a4 : ℕ) (h0 : Keeps P s₀ a0) (cmodule : Part.module ∈ P := by assumption)
    (ctiles : Part.tiles ∈ P := by assumption) (ckv : Part.kv ∈ P := by assumption)
    (chosts : Part.hosts ∈ P := by assumption) (cregs : Part.regs ∈ P := by assumption)
    (crel : Part.rel ∈ P := by assumption) (cfw : Part.fw ∈ P := by assumption) : Keeps P s₀
    (State.endWith a0 a1 a2 a3 a4) := by
  unfold State.endWith
  repeat' (first
      | with_reducible assumption | with_reducible apply State.setLap_keeps
      | with_reducible apply State.clearBitmap_keeps | with_reducible apply State.finish_keeps
      | with_reducible apply State.notePrior_keeps | with_reducible apply State.setKernel_keeps
      | with_reducible apply Keeps.iter | split | intro _ | dsimp only
      | (fail_if_no_progress with_reducible refine Keeps.free ?_ _ _ _ _ _ _ _ _ _ _ _ _ _))

theorem State.endKernel_keeps {P : List Part} {s₀ : State} (a0 : State) (a1 : ℕ) (a2 : Kernel) (a3 : ℕ) (h0
    : Keeps P s₀ a0) (cmodule : Part.module ∈ P := by assumption) (ctiles : Part.tiles ∈ P := by assumption)
    (ckv : Part.kv ∈ P := by assumption) (chosts : Part.hosts ∈ P := by assumption)
    (cregs : Part.regs ∈ P := by assumption) (crel : Part.rel ∈ P := by assumption)
    (cfw : Part.fw ∈ P := by assumption) : Keeps P s₀ (State.endKernel a0 a1 a2 a3) := by
  unfold State.endKernel
  repeat' (first
      | with_reducible assumption | with_reducible apply State.endWith_keeps)

theorem execLapCounterFreed_keeps {P : List Part} {s₀ : State} (a0 : Fin 16) (a1 : State) (h1 : Keeps P s₀ a1)
    (cmodule : Part.module ∈ P := by assumption) (ctiles : Part.tiles ∈ P := by assumption)
    (crails : Part.rails ∈ P := by assumption) (ckv : Part.kv ∈ P := by assumption)
    (chosts : Part.hosts ∈ P := by assumption) (cregs : Part.regs ∈ P := by assumption)
    (crel : Part.rel ∈ P := by assumption) (cfw : Part.fw ∈ P := by assumption)
    : ∀ u, execLapCounterFreed a0 a1 = .next u → Keeps P s₀ u := by
  intro u e
  unfold execLapCounterFreed at e
  (repeat' split at e) <;> cases e
  all_goals
  repeat' (first
      | with_reducible assumption | with_reducible apply State.runHead_keeps)

theorem execRunKernel_keeps {P : List Part} {s₀ : State} (a0 : Fin 16) (a1 : State) (h1 : Keeps P s₀ a1)
    (cmodule : Part.module ∈ P := by assumption) (ctiles : Part.tiles ∈ P := by assumption)
    (crails : Part.rails ∈ P := by assumption) (ckv : Part.kv ∈ P := by assumption)
    (chosts : Part.hosts ∈ P := by assumption) (cregs : Part.regs ∈ P := by assumption)
    (crel : Part.rel ∈ P := by assumption) (cfw : Part.fw ∈ P := by assumption)
    : ∀ u, execRunKernel a0 a1 = .next u → Keeps P s₀ u := by
  intro u e
  unfold execRunKernel at e
  (repeat' split at e) <;> cases e
  all_goals
  repeat' (first
      | with_reducible assumption | with_reducible apply State.runHead_keeps)

theorem execCoreHangTimeout_keeps {P : List Part} {s₀ : State} (a0 : Fin 81) (a1 : Fin 4096) (a2 : State) (h2
    : Keeps P s₀ a2) (ctiles : Part.tiles ∈ P := by assumption) (cattn : Part.attn ∈ P := by assumption)
    (chosts : Part.hosts ∈ P := by assumption) (cregs : Part.regs ∈ P := by assumption)
    (crel : Part.rel ∈ P := by assumption) (cfw : Part.fw ∈ P := by assumption)
    : ∀ u, execCoreHangTimeout a0 a1 a2 = .next u → Keeps P s₀ u := by
  intro u e
  unfold execCoreHangTimeout at e
  (repeat' split at e) <;> cases e
  all_goals
  repeat' (first
      | with_reducible assumption | with_reducible apply State.loseCore_keeps)

theorem execChainedKernelIssue_keeps {P : List Part} {s₀ : State} (a0 : Fin 16) (a1 : State) (h1 : Keeps P s₀ a1)
    (cmodule : Part.module ∈ P := by assumption) (ctiles : Part.tiles ∈ P := by assumption)
    (crails : Part.rails ∈ P := by assumption) (ckv : Part.kv ∈ P := by assumption)
    (chosts : Part.hosts ∈ P := by assumption) (cregs : Part.regs ∈ P := by assumption)
    (crel : Part.rel ∈ P := by assumption) (cfw : Part.fw ∈ P := by assumption)
    : ∀ u, execChainedKernelIssue a0 a1 = .next u → Keeps P s₀ u := by
  intro u e
  unfold execChainedKernelIssue at e
  (repeat' split at e) <;> cases e
  all_goals
  repeat' (first
      | with_reducible assumption | with_reducible apply State.runSlot_keeps)

theorem State.cancelKernel_keeps {P : List Part} {s₀ : State} (a0 : State) (a1 : ℕ) (a2 : Kernel) (a3 : ℕ) (h0
    : Keeps P s₀ a0) (cmodule : Part.module ∈ P := by assumption) (ctiles : Part.tiles ∈ P := by assumption)
    (cmemory : Part.memory ∈ P := by assumption) (ckv : Part.kv ∈ P := by assumption)
    (chosts : Part.hosts ∈ P := by assumption) (cregs : Part.regs ∈ P := by assumption)
    (crel : Part.rel ∈ P := by assumption) (cfw : Part.fw ∈ P := by assumption)
    (cdraws : Part.draws ∈ P := by assumption) : Keeps P s₀ (State.cancelKernel a0 a1 a2 a3) := by
  unfold State.cancelKernel
  repeat' (first
      | with_reducible assumption | with_reducible apply State.endWith_keeps
      | with_reducible apply State.havocOutputs_keeps)

theorem execCoreEnterService_keeps {P : List Part} {s₀ : State} (a0 : Fin 81) (a1 : Fin 4096) (a2 : State) (h2
    : Keeps P s₀ a2) (ctiles : Part.tiles ∈ P := by assumption) (chosts : Part.hosts ∈ P := by assumption)
    (cregs : Part.regs ∈ P := by assumption) (crel : Part.rel ∈ P := by assumption)
    (cfw : Part.fw ∈ P := by assumption) : ∀ u, execCoreEnterService a0 a1 a2 = .next u → Keeps P s₀ u := by
  intro u e
  unfold execCoreEnterService at e
  (repeat' split at e) <;> cases e
  all_goals
  repeat' (first
      | with_reducible assumption | with_reducible apply State.setCore_keeps
      | with_reducible apply State.setCoreSite_keeps | with_reducible apply State.log_keeps)

theorem State.poisonKernel_keeps {P : List Part} {s₀ : State} (a0 : State) (a1 : ℕ) (a2 : Kernel) (h0 : Keeps P s₀ a0)
    (cmodule : Part.module ∈ P := by assumption) (ctiles : Part.tiles ∈ P := by assumption)
    (ckv : Part.kv ∈ P := by assumption) (chosts : Part.hosts ∈ P := by assumption)
    (cregs : Part.regs ∈ P := by assumption) (crel : Part.rel ∈ P := by assumption)
    (cfw : Part.fw ∈ P := by assumption) : Keeps P s₀ (State.poisonKernel a0 a1 a2) := by
  unfold State.poisonKernel
  repeat' (first
      | with_reducible assumption | with_reducible apply State.endKernel_keeps
      | with_reducible apply State.notePoison_keeps)

theorem State.onWord_keeps {P : List Part} {s₀ : State} (a0 : State) (a1 : ℕ) (a2 : ℕ) (a3 : ℕ) (a4 :
    (ℕ × Kernel → Core → ℕ → Pass → ℕ → State)) (h0 : Keeps P s₀ a0) (h4 : ∀ (u0 : ℕ × Kernel) (u1 : Core) (u2 : ℕ)
    (u3 : Pass) (u4 : ℕ), Keeps P s₀ (a4 u0 u1 u2 u3 u4))  : Keeps P s₀ (State.onWord a0 a1 a2 a3 a4) := by
  unfold State.onWord
  repeat' (first
      | with_reducible assumption | with_reducible apply h4 | split | dsimp only)

theorem State.putCore_keeps {P : List Part} {s₀ : State} (a0 : State) (a1 : ℕ) (a2 : ℕ) (a3 : List ℕ) (a4 : Core) (h0
    : Keeps P s₀ a0) (ctiles : Part.tiles ∈ P := by assumption) : Keeps P s₀ (State.putCore a0 a1 a2 a3 a4) := by
  unfold State.putCore
  repeat' (first
      | with_reducible assumption | with_reducible apply State.setCore_keeps)

theorem execChangeover_keeps {P : List Part} {s₀ : State} (a0 : Fin 81) (a1 : Fin 4096) (a2 : ℕ) (a3 : State) (h3
    : Keeps P s₀ a3) (csites : Part.sites ∈ P := by assumption) (ctiles : Part.tiles ∈ P := by assumption)
    : ∀ u, execChangeover a0 a1 a2 a3 = .next u → Keeps P s₀ u := by
  intro u e
  unfold execChangeover at e
  (repeat' split at e) <;> cases e
  all_goals
  repeat' (first
      | with_reducible assumption | with_reducible apply State.onWord_keeps
      | with_reducible apply State.putCore_keeps | with_reducible apply State.setSite_keeps | split | intro _)

theorem State.acceptSent_keeps {P : List Part} {s₀ : State} (a0 : State) (a1 : Pass) (h0 : Keeps P s₀ a0)
    (clinks : Part.links ∈ P := by assumption) (chosts : Part.hosts ∈ P := by assumption)
    (cregs : Part.regs ∈ P := by assumption) : Keeps P s₀ (State.acceptSent a0 a1) := by
  unfold State.acceptSent
  repeat' (first
      | with_reducible assumption | with_reducible apply State.deliver_keeps | with_reducible apply Keeps.foldl
      | intro _)

theorem State.load_keeps {P : List Part} {s₀ : State} (a0 : State) (a1 : ℕ) (a2 : ℕ) (a3 : Bool) (h0 : Keeps P s₀ a0)
    (cmodule : Part.module ∈ P := by assumption) (ctiles : Part.tiles ∈ P := by assumption)
    (ckv : Part.kv ∈ P := by assumption) (chosts : Part.hosts ∈ P := by assumption)
    (cregs : Part.regs ∈ P := by assumption) (crel : Part.rel ∈ P := by assumption)
    (cfw : Part.fw ∈ P := by assumption) : Keeps P s₀ (State.load a0 a1 a2 a3) := by
  unfold State.load
  repeat' (first
      | with_reducible assumption | with_reducible apply State.onWord_keeps
      | with_reducible apply State.poisonKernel_keeps | with_reducible apply State.putCore_keeps | split | intro _
      | dsimp only)

theorem execLoadB_keeps {P : List Part} {s₀ : State} (a0 : Fin 81) (a1 : Fin 4096) (a2 : State) (h2 : Keeps P s₀ a2)
    (cmodule : Part.module ∈ P := by assumption) (ctiles : Part.tiles ∈ P := by assumption)
    (ckv : Part.kv ∈ P := by assumption) (chosts : Part.hosts ∈ P := by assumption)
    (cregs : Part.regs ∈ P := by assumption) (crel : Part.rel ∈ P := by assumption)
    (cfw : Part.fw ∈ P := by assumption) : ∀ u, execLoadB a0 a1 a2 = .next u → Keeps P s₀ u := by
  intro u e
  unfold execLoadB at e
  (repeat' split at e) <;> cases e
  all_goals
  repeat' (first
      | with_reducible assumption | with_reducible apply State.load_keeps)

theorem State.tileDone_keeps {P : List Part} {s₀ : State} (a0 : State) (a1 : Kernel) (a2 : ℕ) (a3 : ℕ) (h0
    : Keeps P s₀ a0) (ctiles : Part.tiles ∈ P := by assumption) : Keeps P s₀ (State.tileDone a0 a1 a2 a3) := by
  unfold State.tileDone
  repeat' (first
      | with_reducible assumption | split | dsimp only
      | (fail_if_no_progress with_reducible refine Keeps.free ?_ _ _ _ _ _ _ _ _ _ _ _ _ _))

theorem State.post_keeps {P : List Part} {s₀ : State} (a0 : State) (a1 : ℕ) (a2 : Kernel) (a3 : ℕ) (a4 : ℕ)
    (a5 : Pass) (h0 : Keeps P s₀ a0) (ctiles : Part.tiles ∈ P := by assumption) : Keeps P s₀
    (State.post a0 a1 a2 a3 a4 a5) := by
  unfold State.post
  repeat' (first
      | with_reducible assumption | with_reducible apply State.setLap_keeps
      | with_reducible apply State.setKernel_keeps | with_reducible apply State.tileDone_keeps | split | dsimp only)

theorem State.complete_keeps {P : List Part} {s₀ : State} (a0 : State) (a1 : ℕ) (a2 : ℕ) (h0 : Keeps P s₀ a0)
    (ctiles : Part.tiles ∈ P := by assumption) (clinks : Part.links ∈ P := by assumption)
    (chosts : Part.hosts ∈ P := by assumption) (cregs : Part.regs ∈ P := by assumption) : Keeps P s₀
    (State.complete a0 a1 a2) := by
  unfold State.complete
  repeat' (first
      | with_reducible assumption | with_reducible apply State.post_keeps | with_reducible apply State.putCore_keeps
      | with_reducible apply State.acceptSent_keeps | split | dsimp only)

theorem execShadowCopy_keeps {P : List Part} {s₀ : State} (a0 : Fin 81) (a1 : Fin 4096) (a2 : State) (h2
    : Keeps P s₀ a2) (ctiles : Part.tiles ∈ P := by assumption)
    : ∀ u, execShadowCopy a0 a1 a2 = .next u → Keeps P s₀ u := by
  intro u e
  unfold execShadowCopy at e
  (repeat' split at e) <;> cases e
  all_goals
  repeat' (first
      | with_reducible assumption | with_reducible apply State.putCore_keeps | split | dsimp only)

theorem execFence_keeps {P : List Part} {s₀ : State} (a0 : Fin 81) (a1 : Fin 4096) (a2 : State) (h2 : Keeps P s₀ a2)
    (ctiles : Part.tiles ∈ P := by assumption) : ∀ u, execFence a0 a1 a2 = .next u → Keeps P s₀ u := by
  intro u e
  unfold execFence at e
  (repeat' split at e) <;> cases e
  all_goals
  repeat' (first
      | with_reducible assumption | with_reducible apply State.onWord_keeps
      | with_reducible apply State.putCore_keeps | split | intro _)

theorem State.stageSlice_keeps {P : List Part} {s₀ : State} (a0 : State) (a1 : Kernel) (a2 : ℕ) (a3 : ℕ) (a4 : ℕ)
    (a5 : List (ℕ × Marked)) (h0 : Keeps P s₀ a0) (cmemory : Part.memory ∈ P := by assumption)
    (ctiers : Part.tiers ∈ P := by assumption) (chosts : Part.hosts ∈ P := by assumption) : Keeps P s₀
    (State.stageSlice a0 a1 a2 a3 a4 a5) := by
  unfold State.stageSlice
  repeat' (first
      | with_reducible assumption | with_reducible apply State.infWriteMarked_keeps
      | with_reducible apply State.noteRead_keeps | with_reducible apply Keeps.foldl | split | intro _ | dsimp only)

theorem State.drainTile_keeps {P : List Part} {s₀ : State} (a0 : State) (a1 : Kernel) (a2 : ℕ) (a3 : ℕ) (a4 : ℕ)
    (a5 : ℕ) (a6 : ℕ) (a7 : ℕ) (a8 : ℕ) (a9 : ℕ) (a10 : ℕ) (a11 : (ℕ → ℕ → ℕ)) (h0 : Keeps P s₀ a0)
    (cmemory : Part.memory ∈ P := by assumption) : Keeps P s₀
    (State.drainTile a0 a1 a2 a3 a4 a5 a6 a7 a8 a9 a10 a11).1 := by
  unfold State.drainTile
  repeat' (first
      | with_reducible assumption | with_reducible apply State.infWrite_keeps | with_reducible apply Keeps.foldlFst
      | split | intro _ | dsimp only)

theorem execDrain_keeps {P : List Part} {s₀ : State} (a0 : Fin 81) (a1 : Fin 4096) (a2 : State) (h2 : Keeps P s₀ a2)
    (cmodule : Part.module ∈ P := by assumption) (ctiles : Part.tiles ∈ P := by assumption)
    (cmemory : Part.memory ∈ P := by assumption) (ckv : Part.kv ∈ P := by assumption)
    (clinks : Part.links ∈ P := by assumption) (chosts : Part.hosts ∈ P := by assumption)
    (cregs : Part.regs ∈ P := by assumption) (crel : Part.rel ∈ P := by assumption)
    (cfw : Part.fw ∈ P := by assumption) : ∀ u, execDrain a0 a1 a2 = .next u → Keeps P s₀ u := by
  intro u e
  unfold execDrain at e
  (repeat' split at e) <;> cases e
  all_goals
  repeat' (first
      | with_reducible assumption | with_reducible apply State.poisonKernel_keeps
      | with_reducible apply State.raise_keeps | with_reducible apply State.putCore_keeps
      | with_reducible apply State.complete_keeps | with_reducible apply State.drainTile_keeps | split | dsimp only)

theorem execBankToggle_keeps {P : List Part} {s₀ : State} (a0 : Fin 81) (a1 : Fin 4096) (a2 : ℕ) (a3 : State) (h3
    : Keeps P s₀ a3) (csites : Part.sites ∈ P := by assumption) (ctiles : Part.tiles ∈ P := by assumption)
    : ∀ u, execBankToggle a0 a1 a2 a3 = .next u → Keeps P s₀ u := by
  intro u e
  unfold execBankToggle at e
  (repeat' split at e) <;> cases e
  all_goals
  repeat' (first
      | with_reducible assumption | with_reducible apply State.putCore_keeps
      | with_reducible apply State.setSite_keeps | split | dsimp only)

theorem execLoadA_keeps {P : List Part} {s₀ : State} (a0 : Fin 81) (a1 : Fin 4096) (a2 : State) (h2 : Keeps P s₀ a2)
    (cmodule : Part.module ∈ P := by assumption) (ctiles : Part.tiles ∈ P := by assumption)
    (ckv : Part.kv ∈ P := by assumption) (chosts : Part.hosts ∈ P := by assumption)
    (cregs : Part.regs ∈ P := by assumption) (crel : Part.rel ∈ P := by assumption)
    (cfw : Part.fw ∈ P := by assumption) : ∀ u, execLoadA a0 a1 a2 = .next u → Keeps P s₀ u := by
  intro u e
  unfold execLoadA at e
  (repeat' split at e) <;> cases e
  all_goals
  repeat' (first
      | with_reducible assumption | with_reducible apply State.load_keeps)

theorem execMma_keeps {P : List Part} {s₀ : State} (a0 : Fin 81) (a1 : Fin 4096) (a2 : State) (h2 : Keeps P s₀ a2)
    (cmodule : Part.module ∈ P := by assumption) (ctiles : Part.tiles ∈ P := by assumption)
    (ckv : Part.kv ∈ P := by assumption) (chosts : Part.hosts ∈ P := by assumption)
    (cregs : Part.regs ∈ P := by assumption) (crel : Part.rel ∈ P := by assumption)
    (cfw : Part.fw ∈ P := by assumption) : ∀ u, execMma a0 a1 a2 = .next u → Keeps P s₀ u := by
  intro u e
  unfold execMma at e
  (repeat' split at e) <;> cases e
  all_goals
  repeat' (first
      | with_reducible assumption | with_reducible apply State.onWord_keeps
      | with_reducible apply State.poisonKernel_keeps | with_reducible apply State.raise_keeps
      | with_reducible apply State.putCore_keeps | split | intro _)

theorem execStageCSum_keeps {P : List Part} {s₀ : State} (a0 : Fin 256) (a1 : SumTile) (a2 : State) (h2
    : Keeps P s₀ a2) (cmodule : Part.module ∈ P := by assumption) (ctiles : Part.tiles ∈ P := by assumption)
    (cmemory : Part.memory ∈ P := by assumption) (ckv : Part.kv ∈ P := by assumption)
    (clinks : Part.links ∈ P := by assumption) (chosts : Part.hosts ∈ P := by assumption)
    (cregs : Part.regs ∈ P := by assumption) (crel : Part.rel ∈ P := by assumption)
    (cfw : Part.fw ∈ P := by assumption) : ∀ u, execStageCSum a0 a1 a2 = .next u → Keeps P s₀ u := by
  intro u e
  unfold execStageCSum at e
  (repeat' split at e) <;> cases e
  all_goals
  repeat' (first
      | with_reducible assumption | with_reducible apply State.poisonKernel_keeps
      | with_reducible apply State.streamWaited_keeps | with_reducible apply State.deliver_keeps
      | with_reducible apply State.setKernel_keeps | with_reducible apply State.raise_keeps
      | with_reducible apply State.tileDone_keeps | with_reducible apply State.drainTile_keeps | split | dsimp only)

theorem execTileComplete_keeps {P : List Part} {s₀ : State} (a0 : Fin 81) (a1 : Fin 4096) (a2 : State) (h2
    : Keeps P s₀ a2) (ctiles : Part.tiles ∈ P := by assumption) (clinks : Part.links ∈ P := by assumption)
    (chosts : Part.hosts ∈ P := by assumption) (cregs : Part.regs ∈ P := by assumption)
    : ∀ u, execTileComplete a0 a1 a2 = .next u → Keeps P s₀ u := by
  intro u e
  unfold execTileComplete at e
  (repeat' split at e) <;> cases e
  all_goals
  repeat' (first
      | with_reducible assumption | with_reducible apply State.complete_keeps)

theorem execSliceStage_keeps {P : List Part} {s₀ : State} (a0 : Fin 256) (a1 : Fin 75) (a2 : ℕ) (a3 : State) (h3
    : Keeps P s₀ a3) (cmodule : Part.module ∈ P := by assumption) (ctiles : Part.tiles ∈ P := by assumption)
    (cmemory : Part.memory ∈ P := by assumption) (ctiers : Part.tiers ∈ P := by assumption)
    (ckv : Part.kv ∈ P := by assumption) (chosts : Part.hosts ∈ P := by assumption)
    (cregs : Part.regs ∈ P := by assumption) (crel : Part.rel ∈ P := by assumption)
    (cfw : Part.fw ∈ P := by assumption) (cdraws : Part.draws ∈ P := by assumption)
    : ∀ u, execSliceStage a0 a1 a2 a3 = .next u → Keeps P s₀ u := by
  intro u e
  unfold execSliceStage at e
  (repeat' split at e) <;> cases e
  all_goals
  repeat' (first
      | with_reducible assumption | with_reducible apply State.setKernel_keeps
      | with_reducible apply State.stageSlice_keeps | with_reducible apply State.addSat_keeps
      | with_reducible apply State.addWrap_keeps | with_reducible apply State.cancelKernel_keeps)

theorem State.monAdd_keeps {P : List Part} {s₀ : State} (a0 : State) (a1 : ℕ) (a2 : ℕ) (a3 : ℕ) (a4 : ℕ) (h0
    : Keeps P s₀ a0) (crails : Part.rails ∈ P := by assumption) : Keeps P s₀ (State.monAdd a0 a1 a2 a3 a4) := by
  unfold State.monAdd
  repeat' (first
      | with_reducible assumption | split | dsimp only
      | (fail_if_no_progress with_reducible refine Keeps.free ?_ _ _ _ _ _ _ _ _ _ _ _ _ _))

theorem State.noteOverflow_keeps {P : List Part} {s₀ : State} (a0 : State) (a1 : ℕ) (h0 : Keeps P s₀ a0)
    (cregs : Part.regs ∈ P := by assumption) : Keeps P s₀ (State.noteOverflow a0 a1) := by
  unfold State.noteOverflow
  repeat' (first
      | with_reducible assumption | with_reducible apply State.orReg_keeps | with_reducible apply State.setReg_keeps
      | split | dsimp only)

theorem State.noteRow_keeps {P : List Part} {s₀ : State} (a0 : State) (a1 : Line) (a2 : ℕ) (a3 : EngRow) (h0
    : Keeps P s₀ a0) (crails : Part.rails ∈ P := by assumption) (cregs : Part.regs ∈ P := by assumption) : Keeps P s₀
    (State.noteRow a0 a1 a2 a3) := by
  unfold State.noteRow
  repeat' (first
      | with_reducible assumption | with_reducible apply State.addWrap_keeps
      | with_reducible apply State.addSat_keeps | with_reducible apply State.setReg_keeps
      | with_reducible apply State.monAdd_keeps | with_reducible apply State.noteOverflow_keeps | split | dsimp only)

theorem runRow_keeps {P : List Part} {s₀ : State} (a0 : RowFn) (a1 : CmdId) (a2 : ℕ) (a3 : Line) (a4 : State × Bool)
    (a5 : ℕ × ℕ) (h4 : Keeps P s₀ a4.1) (crails : Part.rails ∈ P := by assumption)
    (cmemory : Part.memory ∈ P := by assumption) (chosts : Part.hosts ∈ P := by assumption)
    (cregs : Part.regs ∈ P := by assumption) (cdraws : Part.draws ∈ P := by assumption) : Keeps P s₀
    (runRow a0 a1 a2 a3 a4 a5).1 := by
  unfold runRow
  repeat' (first
      | with_reducible assumption | with_reducible apply State.infWrite_keeps
      | with_reducible apply State.raise_keeps | with_reducible apply State.noteRow_keeps
      | with_reducible apply Keeps.foldl | split | intro _ | dsimp only
      | (fail_if_no_progress with_reducible refine Keeps.free ?_ _ _ _ _ _ _ _ _ _ _ _ _ _))

theorem State.runCount_keeps {P : List Part} {s₀ : State} (a0 : State) (a1 : CmdId) (a2 : Cmd) (a3 : RowFn) (a4 : ℕ)
    (h0 : Keeps P s₀ a0) (cmodule : Part.module ∈ P := by assumption) (crails : Part.rails ∈ P := by assumption)
    (cmemory : Part.memory ∈ P := by assumption) (ckv : Part.kv ∈ P := by assumption)
    (chosts : Part.hosts ∈ P := by assumption) (cregs : Part.regs ∈ P := by assumption)
    (crel : Part.rel ∈ P := by assumption) (cfw : Part.fw ∈ P := by assumption)
    (cdraws : Part.draws ∈ P := by assumption) : Keeps P s₀ (State.runCount a0 a1 a2 a3 a4) := by
  unfold State.runCount
  repeat' (first
      | with_reducible assumption | with_reducible apply State.finish_keeps
      | with_reducible apply State.consumePoison_keeps | with_reducible apply State.modCmd_keeps
      | with_reducible apply runRow_keeps | with_reducible apply Keeps.foldlFst
      | (with_reducible refine Keeps.ofFst (by with_reducible assumption) ?_) | split | intro _)

theorem State.runRows_keeps {P : List Part} {s₀ : State} (a0 : State) (a1 : CmdId) (a2 : Cmd) (a3 : RowFn) (h0
    : Keeps P s₀ a0) (cmodule : Part.module ∈ P := by assumption) (crails : Part.rails ∈ P := by assumption)
    (cmemory : Part.memory ∈ P := by assumption) (ckv : Part.kv ∈ P := by assumption)
    (chosts : Part.hosts ∈ P := by assumption) (cregs : Part.regs ∈ P := by assumption)
    (crel : Part.rel ∈ P := by assumption) (cfw : Part.fw ∈ P := by assumption)
    (cdraws : Part.draws ∈ P := by assumption) : Keeps P s₀ (State.runRows a0 a1 a2 a3) := by
  unfold State.runRows
  repeat' (first
      | with_reducible assumption | with_reducible apply State.runCount_keeps)

theorem State.engineRun_keeps {P : List Part} {s₀ : State} (a0 : State) (a1 : ℕ) (a2 : ℕ) (a3 : RowFn) (h0
    : Keeps P s₀ a0) (cmodule : Part.module ∈ P := by assumption) (crails : Part.rails ∈ P := by assumption)
    (cmemory : Part.memory ∈ P := by assumption) (ckv : Part.kv ∈ P := by assumption)
    (chosts : Part.hosts ∈ P := by assumption) (cregs : Part.regs ∈ P := by assumption)
    (crel : Part.rel ∈ P := by assumption) (cfw : Part.fw ∈ P := by assumption)
    (cdraws : Part.draws ∈ P := by assumption) : Keeps P s₀ (State.engineRun a0 a1 a2 a3) := by
  unfold State.engineRun
  repeat' (first
      | with_reducible assumption | with_reducible apply State.issueHead_keeps
      | with_reducible apply State.runRows_keeps | with_reducible apply State.finish_keeps | split | intro _)

theorem execNormApply_keeps {P : List Part} {s₀ : State} (a0 : Fin 16) (a1 : State) (h1 : Keeps P s₀ a1)
    (cmodule : Part.module ∈ P := by assumption) (crails : Part.rails ∈ P := by assumption)
    (cmemory : Part.memory ∈ P := by assumption) (ckv : Part.kv ∈ P := by assumption)
    (chosts : Part.hosts ∈ P := by assumption) (cregs : Part.regs ∈ P := by assumption)
    (crel : Part.rel ∈ P := by assumption) (cfw : Part.fw ∈ P := by assumption)
    (cdraws : Part.draws ∈ P := by assumption) : ∀ u, execNormApply a0 a1 = .next u → Keeps P s₀ u := by
  intro u e
  unfold execNormApply at e
  (repeat' split at e) <;> cases e
  all_goals
  repeat' (first
      | with_reducible assumption | with_reducible apply State.engineRun_keeps)

theorem execConvert_keeps {P : List Part} {s₀ : State} (a0 : Fin 16) (a1 : State) (h1 : Keeps P s₀ a1)
    (cmodule : Part.module ∈ P := by assumption) (crails : Part.rails ∈ P := by assumption)
    (cmemory : Part.memory ∈ P := by assumption) (ckv : Part.kv ∈ P := by assumption)
    (chosts : Part.hosts ∈ P := by assumption) (cregs : Part.regs ∈ P := by assumption)
    (crel : Part.rel ∈ P := by assumption) (cfw : Part.fw ∈ P := by assumption)
    (cdraws : Part.draws ∈ P := by assumption) : ∀ u, execConvert a0 a1 = .next u → Keeps P s₀ u := by
  intro u e
  unfold execConvert at e
  (repeat' split at e) <;> cases e
  all_goals
  repeat' (first
      | with_reducible assumption | with_reducible apply State.engineRun_keeps)

theorem execQuantMx_keeps {P : List Part} {s₀ : State} (a0 : Fin 16) (a1 : State) (h1 : Keeps P s₀ a1)
    (cmodule : Part.module ∈ P := by assumption) (crails : Part.rails ∈ P := by assumption)
    (cmemory : Part.memory ∈ P := by assumption) (ckv : Part.kv ∈ P := by assumption)
    (chosts : Part.hosts ∈ P := by assumption) (cregs : Part.regs ∈ P := by assumption)
    (crel : Part.rel ∈ P := by assumption) (cfw : Part.fw ∈ P := by assumption)
    (cdraws : Part.draws ∈ P := by assumption) : ∀ u, execQuantMx a0 a1 = .next u → Keeps P s₀ u := by
  intro u e
  unfold execQuantMx at e
  (repeat' split at e) <;> cases e
  all_goals
  repeat' (first
      | with_reducible assumption | with_reducible apply State.engineRun_keeps)

theorem execDequantMx_keeps {P : List Part} {s₀ : State} (a0 : Fin 16) (a1 : State) (h1 : Keeps P s₀ a1)
    (cmodule : Part.module ∈ P := by assumption) (crails : Part.rails ∈ P := by assumption)
    (cmemory : Part.memory ∈ P := by assumption) (ckv : Part.kv ∈ P := by assumption)
    (chosts : Part.hosts ∈ P := by assumption) (cregs : Part.regs ∈ P := by assumption)
    (crel : Part.rel ∈ P := by assumption) (cfw : Part.fw ∈ P := by assumption)
    (cdraws : Part.draws ∈ P := by assumption) : ∀ u, execDequantMx a0 a1 = .next u → Keeps P s₀ u := by
  intro u e
  unfold execDequantMx at e
  (repeat' split at e) <;> cases e
  all_goals
  repeat' (first
      | with_reducible assumption | with_reducible apply State.engineRun_keeps)

theorem execRowSum_keeps {P : List Part} {s₀ : State} (a0 : Fin 16) (a1 : State) (h1 : Keeps P s₀ a1)
    (cmodule : Part.module ∈ P := by assumption) (crails : Part.rails ∈ P := by assumption)
    (cmemory : Part.memory ∈ P := by assumption) (ckv : Part.kv ∈ P := by assumption)
    (chosts : Part.hosts ∈ P := by assumption) (cregs : Part.regs ∈ P := by assumption)
    (crel : Part.rel ∈ P := by assumption) (cfw : Part.fw ∈ P := by assumption)
    (cdraws : Part.draws ∈ P := by assumption) : ∀ u, execRowSum a0 a1 = .next u → Keeps P s₀ u := by
  intro u e
  unfold execRowSum at e
  (repeat' split at e) <;> cases e
  all_goals
  repeat' (first
      | with_reducible assumption | with_reducible apply State.engineRun_keeps)

theorem execChain_keeps {P : List Part} {s₀ : State} (a0 : Fin 16) (a1 : State) (h1 : Keeps P s₀ a1)
    (cmodule : Part.module ∈ P := by assumption) (crails : Part.rails ∈ P := by assumption)
    (cmemory : Part.memory ∈ P := by assumption) (ckv : Part.kv ∈ P := by assumption)
    (chosts : Part.hosts ∈ P := by assumption) (cregs : Part.regs ∈ P := by assumption)
    (crel : Part.rel ∈ P := by assumption) (cfw : Part.fw ∈ P := by assumption)
    (cdraws : Part.draws ∈ P := by assumption) : ∀ u, execChain a0 a1 = .next u → Keeps P s₀ u := by
  intro u e
  unfold execChain at e
  (repeat' split at e) <;> cases e
  all_goals
  repeat' (first
      | with_reducible assumption | with_reducible apply State.engineRun_keeps)

theorem execMin_keeps {P : List Part} {s₀ : State} (a0 : Fin 16) (a1 : State) (h1 : Keeps P s₀ a1)
    (cmodule : Part.module ∈ P := by assumption) (crails : Part.rails ∈ P := by assumption)
    (cmemory : Part.memory ∈ P := by assumption) (ckv : Part.kv ∈ P := by assumption)
    (chosts : Part.hosts ∈ P := by assumption) (cregs : Part.regs ∈ P := by assumption)
    (crel : Part.rel ∈ P := by assumption) (cfw : Part.fw ∈ P := by assumption)
    (cdraws : Part.draws ∈ P := by assumption) : ∀ u, execMin a0 a1 = .next u → Keeps P s₀ u := by
  intro u e
  unfold execMin at e
  (repeat' split at e) <;> cases e
  all_goals
  repeat' (first
      | with_reducible assumption | with_reducible apply State.engineRun_keeps)

theorem execSub_keeps {P : List Part} {s₀ : State} (a0 : Fin 16) (a1 : State) (h1 : Keeps P s₀ a1)
    (cmodule : Part.module ∈ P := by assumption) (crails : Part.rails ∈ P := by assumption)
    (cmemory : Part.memory ∈ P := by assumption) (ckv : Part.kv ∈ P := by assumption)
    (chosts : Part.hosts ∈ P := by assumption) (cregs : Part.regs ∈ P := by assumption)
    (crel : Part.rel ∈ P := by assumption) (cfw : Part.fw ∈ P := by assumption)
    (cdraws : Part.draws ∈ P := by assumption) : ∀ u, execSub a0 a1 = .next u → Keeps P s₀ u := by
  intro u e
  unfold execSub at e
  (repeat' split at e) <;> cases e
  all_goals
  repeat' (first
      | with_reducible assumption | with_reducible apply State.engineRun_keeps)

theorem execMax_keeps {P : List Part} {s₀ : State} (a0 : Fin 16) (a1 : State) (h1 : Keeps P s₀ a1)
    (cmodule : Part.module ∈ P := by assumption) (crails : Part.rails ∈ P := by assumption)
    (cmemory : Part.memory ∈ P := by assumption) (ckv : Part.kv ∈ P := by assumption)
    (chosts : Part.hosts ∈ P := by assumption) (cregs : Part.regs ∈ P := by assumption)
    (crel : Part.rel ∈ P := by assumption) (cfw : Part.fw ∈ P := by assumption)
    (cdraws : Part.draws ∈ P := by assumption) : ∀ u, execMax a0 a1 = .next u → Keeps P s₀ u := by
  intro u e
  unfold execMax at e
  (repeat' split at e) <;> cases e
  all_goals
  repeat' (first
      | with_reducible assumption | with_reducible apply State.engineRun_keeps)

theorem execArgmax_keeps {P : List Part} {s₀ : State} (a0 : Fin 16) (a1 : State) (h1 : Keeps P s₀ a1)
    (cmodule : Part.module ∈ P := by assumption) (crails : Part.rails ∈ P := by assumption)
    (cmemory : Part.memory ∈ P := by assumption) (ckv : Part.kv ∈ P := by assumption)
    (chosts : Part.hosts ∈ P := by assumption) (cregs : Part.regs ∈ P := by assumption)
    (crel : Part.rel ∈ P := by assumption) (cfw : Part.fw ∈ P := by assumption)
    (cdraws : Part.draws ∈ P := by assumption) : ∀ u, execArgmax a0 a1 = .next u → Keeps P s₀ u := by
  intro u e
  unfold execArgmax at e
  (repeat' split at e) <;> cases e
  all_goals
  repeat' (first
      | with_reducible assumption | with_reducible apply State.engineRun_keeps)

theorem execMul_keeps {P : List Part} {s₀ : State} (a0 : Fin 16) (a1 : State) (h1 : Keeps P s₀ a1)
    (cmodule : Part.module ∈ P := by assumption) (crails : Part.rails ∈ P := by assumption)
    (cmemory : Part.memory ∈ P := by assumption) (ckv : Part.kv ∈ P := by assumption)
    (chosts : Part.hosts ∈ P := by assumption) (cregs : Part.regs ∈ P := by assumption)
    (crel : Part.rel ∈ P := by assumption) (cfw : Part.fw ∈ P := by assumption)
    (cdraws : Part.draws ∈ P := by assumption) : ∀ u, execMul a0 a1 = .next u → Keeps P s₀ u := by
  intro u e
  unfold execMul at e
  (repeat' split at e) <;> cases e
  all_goals
  repeat' (first
      | with_reducible assumption | with_reducible apply State.engineRun_keeps)

theorem execFma_keeps {P : List Part} {s₀ : State} (a0 : Fin 16) (a1 : State) (h1 : Keeps P s₀ a1)
    (cmodule : Part.module ∈ P := by assumption) (crails : Part.rails ∈ P := by assumption)
    (cmemory : Part.memory ∈ P := by assumption) (ckv : Part.kv ∈ P := by assumption)
    (chosts : Part.hosts ∈ P := by assumption) (cregs : Part.regs ∈ P := by assumption)
    (crel : Part.rel ∈ P := by assumption) (cfw : Part.fw ∈ P := by assumption)
    (cdraws : Part.draws ∈ P := by assumption) : ∀ u, execFma a0 a1 = .next u → Keeps P s₀ u := by
  intro u e
  unfold execFma at e
  (repeat' split at e) <;> cases e
  all_goals
  repeat' (first
      | with_reducible assumption | with_reducible apply State.engineRun_keeps)

theorem execRowMax_keeps {P : List Part} {s₀ : State} (a0 : Fin 16) (a1 : State) (h1 : Keeps P s₀ a1)
    (cmodule : Part.module ∈ P := by assumption) (crails : Part.rails ∈ P := by assumption)
    (cmemory : Part.memory ∈ P := by assumption) (ckv : Part.kv ∈ P := by assumption)
    (chosts : Part.hosts ∈ P := by assumption) (cregs : Part.regs ∈ P := by assumption)
    (crel : Part.rel ∈ P := by assumption) (cfw : Part.fw ∈ P := by assumption)
    (cdraws : Part.draws ∈ P := by assumption) : ∀ u, execRowMax a0 a1 = .next u → Keeps P s₀ u := by
  intro u e
  unfold execRowMax at e
  (repeat' split at e) <;> cases e
  all_goals
  repeat' (first
      | with_reducible assumption | with_reducible apply State.engineRun_keeps)

theorem execTreeSum_keeps {P : List Part} {s₀ : State} (a0 : Fin 16) (a1 : State) (h1 : Keeps P s₀ a1)
    (cmodule : Part.module ∈ P := by assumption) (crails : Part.rails ∈ P := by assumption)
    (cmemory : Part.memory ∈ P := by assumption) (ckv : Part.kv ∈ P := by assumption)
    (chosts : Part.hosts ∈ P := by assumption) (cregs : Part.regs ∈ P := by assumption)
    (crel : Part.rel ∈ P := by assumption) (cfw : Part.fw ∈ P := by assumption)
    (cdraws : Part.draws ∈ P := by assumption) : ∀ u, execTreeSum a0 a1 = .next u → Keeps P s₀ u := by
  intro u e
  unfold execTreeSum at e
  (repeat' split at e) <;> cases e
  all_goals
  repeat' (first
      | with_reducible assumption | with_reducible apply State.engineRun_keeps)

theorem execSoftmaxMerge_keeps {P : List Part} {s₀ : State} (a0 : Fin 16) (a1 : State) (h1 : Keeps P s₀ a1)
    (cmodule : Part.module ∈ P := by assumption) (crails : Part.rails ∈ P := by assumption)
    (cmemory : Part.memory ∈ P := by assumption) (ckv : Part.kv ∈ P := by assumption)
    (chosts : Part.hosts ∈ P := by assumption) (cregs : Part.regs ∈ P := by assumption)
    (crel : Part.rel ∈ P := by assumption) (cfw : Part.fw ∈ P := by assumption)
    (cdraws : Part.draws ∈ P := by assumption) : ∀ u, execSoftmaxMerge a0 a1 = .next u → Keeps P s₀ u := by
  intro u e
  unfold execSoftmaxMerge at e
  (repeat' split at e) <;> cases e
  all_goals
  repeat' (first
      | with_reducible assumption | with_reducible apply State.engineRun_keeps)

theorem execAdd_keeps {P : List Part} {s₀ : State} (a0 : Fin 16) (a1 : State) (h1 : Keeps P s₀ a1)
    (cmodule : Part.module ∈ P := by assumption) (crails : Part.rails ∈ P := by assumption)
    (cmemory : Part.memory ∈ P := by assumption) (ckv : Part.kv ∈ P := by assumption)
    (chosts : Part.hosts ∈ P := by assumption) (cregs : Part.regs ∈ P := by assumption)
    (crel : Part.rel ∈ P := by assumption) (cfw : Part.fw ∈ P := by assumption)
    (cdraws : Part.draws ∈ P := by assumption) : ∀ u, execAdd a0 a1 = .next u → Keeps P s₀ u := by
  intro u e
  unfold execAdd at e
  (repeat' split at e) <;> cases e
  all_goals
  repeat' (first
      | with_reducible assumption | with_reducible apply State.engineRun_keeps)

theorem execLog_keeps {P : List Part} {s₀ : State} (a0 : Fin 16) (a1 : State) (h1 : Keeps P s₀ a1)
    (cmodule : Part.module ∈ P := by assumption) (crails : Part.rails ∈ P := by assumption)
    (cmemory : Part.memory ∈ P := by assumption) (ckv : Part.kv ∈ P := by assumption)
    (chosts : Part.hosts ∈ P := by assumption) (cregs : Part.regs ∈ P := by assumption)
    (crel : Part.rel ∈ P := by assumption) (cfw : Part.fw ∈ P := by assumption)
    (cdraws : Part.draws ∈ P := by assumption) : ∀ u, execLog a0 a1 = .next u → Keeps P s₀ u := by
  intro u e
  unfold execLog at e
  (repeat' split at e) <;> cases e
  all_goals
  repeat' (first
      | with_reducible assumption | with_reducible apply State.engineRun_keeps)

theorem execGeluErf_keeps {P : List Part} {s₀ : State} (a0 : Fin 16) (a1 : State) (h1 : Keeps P s₀ a1)
    (cmodule : Part.module ∈ P := by assumption) (crails : Part.rails ∈ P := by assumption)
    (cmemory : Part.memory ∈ P := by assumption) (ckv : Part.kv ∈ P := by assumption)
    (chosts : Part.hosts ∈ P := by assumption) (cregs : Part.regs ∈ P := by assumption)
    (crel : Part.rel ∈ P := by assumption) (cfw : Part.fw ∈ P := by assumption)
    (cdraws : Part.draws ∈ P := by assumption) : ∀ u, execGeluErf a0 a1 = .next u → Keeps P s₀ u := by
  intro u e
  unfold execGeluErf at e
  (repeat' split at e) <;> cases e
  all_goals
  repeat' (first
      | with_reducible assumption | with_reducible apply State.engineRun_keeps)

theorem execSqrt_keeps {P : List Part} {s₀ : State} (a0 : Fin 16) (a1 : State) (h1 : Keeps P s₀ a1)
    (cmodule : Part.module ∈ P := by assumption) (crails : Part.rails ∈ P := by assumption)
    (cmemory : Part.memory ∈ P := by assumption) (ckv : Part.kv ∈ P := by assumption)
    (chosts : Part.hosts ∈ P := by assumption) (cregs : Part.regs ∈ P := by assumption)
    (crel : Part.rel ∈ P := by assumption) (cfw : Part.fw ∈ P := by assumption)
    (cdraws : Part.draws ∈ P := by assumption) : ∀ u, execSqrt a0 a1 = .next u → Keeps P s₀ u := by
  intro u e
  unfold execSqrt at e
  (repeat' split at e) <;> cases e
  all_goals
  repeat' (first
      | with_reducible assumption | with_reducible apply State.engineRun_keeps)

theorem execTanh_keeps {P : List Part} {s₀ : State} (a0 : Fin 16) (a1 : State) (h1 : Keeps P s₀ a1)
    (cmodule : Part.module ∈ P := by assumption) (crails : Part.rails ∈ P := by assumption)
    (cmemory : Part.memory ∈ P := by assumption) (ckv : Part.kv ∈ P := by assumption)
    (chosts : Part.hosts ∈ P := by assumption) (cregs : Part.regs ∈ P := by assumption)
    (crel : Part.rel ∈ P := by assumption) (cfw : Part.fw ∈ P := by assumption)
    (cdraws : Part.draws ∈ P := by assumption) : ∀ u, execTanh a0 a1 = .next u → Keeps P s₀ u := by
  intro u e
  unfold execTanh at e
  (repeat' split at e) <;> cases e
  all_goals
  repeat' (first
      | with_reducible assumption | with_reducible apply State.engineRun_keeps)

theorem execReciprocal_keeps {P : List Part} {s₀ : State} (a0 : Fin 16) (a1 : State) (h1 : Keeps P s₀ a1)
    (cmodule : Part.module ∈ P := by assumption) (crails : Part.rails ∈ P := by assumption)
    (cmemory : Part.memory ∈ P := by assumption) (ckv : Part.kv ∈ P := by assumption)
    (chosts : Part.hosts ∈ P := by assumption) (cregs : Part.regs ∈ P := by assumption)
    (crel : Part.rel ∈ P := by assumption) (cfw : Part.fw ∈ P := by assumption)
    (cdraws : Part.draws ∈ P := by assumption) : ∀ u, execReciprocal a0 a1 = .next u → Keeps P s₀ u := by
  intro u e
  unfold execReciprocal at e
  (repeat' split at e) <;> cases e
  all_goals
  repeat' (first
      | with_reducible assumption | with_reducible apply State.engineRun_keeps)

theorem execGeluTanh_keeps {P : List Part} {s₀ : State} (a0 : Fin 16) (a1 : State) (h1 : Keeps P s₀ a1)
    (cmodule : Part.module ∈ P := by assumption) (crails : Part.rails ∈ P := by assumption)
    (cmemory : Part.memory ∈ P := by assumption) (ckv : Part.kv ∈ P := by assumption)
    (chosts : Part.hosts ∈ P := by assumption) (cregs : Part.regs ∈ P := by assumption)
    (crel : Part.rel ∈ P := by assumption) (cfw : Part.fw ∈ P := by assumption)
    (cdraws : Part.draws ∈ P := by assumption) : ∀ u, execGeluTanh a0 a1 = .next u → Keeps P s₀ u := by
  intro u e
  unfold execGeluTanh at e
  (repeat' split at e) <;> cases e
  all_goals
  repeat' (first
      | with_reducible assumption | with_reducible apply State.engineRun_keeps)

theorem execRsqrt_keeps {P : List Part} {s₀ : State} (a0 : Fin 16) (a1 : State) (h1 : Keeps P s₀ a1)
    (cmodule : Part.module ∈ P := by assumption) (crails : Part.rails ∈ P := by assumption)
    (cmemory : Part.memory ∈ P := by assumption) (ckv : Part.kv ∈ P := by assumption)
    (chosts : Part.hosts ∈ P := by assumption) (cregs : Part.regs ∈ P := by assumption)
    (crel : Part.rel ∈ P := by assumption) (cfw : Part.fw ∈ P := by assumption)
    (cdraws : Part.draws ∈ P := by assumption) : ∀ u, execRsqrt a0 a1 = .next u → Keeps P s₀ u := by
  intro u e
  unfold execRsqrt at e
  (repeat' split at e) <;> cases e
  all_goals
  repeat' (first
      | with_reducible assumption | with_reducible apply State.engineRun_keeps)

theorem execRowStats_keeps {P : List Part} {s₀ : State} (a0 : Fin 16) (a1 : State) (h1 : Keeps P s₀ a1)
    (cmodule : Part.module ∈ P := by assumption) (crails : Part.rails ∈ P := by assumption)
    (cmemory : Part.memory ∈ P := by assumption) (ckv : Part.kv ∈ P := by assumption)
    (chosts : Part.hosts ∈ P := by assumption) (cregs : Part.regs ∈ P := by assumption)
    (crel : Part.rel ∈ P := by assumption) (cfw : Part.fw ∈ P := by assumption)
    (cdraws : Part.draws ∈ P := by assumption) : ∀ u, execRowStats a0 a1 = .next u → Keeps P s₀ u := by
  intro u e
  unfold execRowStats at e
  (repeat' split at e) <;> cases e
  all_goals
  repeat' (first
      | with_reducible assumption | with_reducible apply State.engineRun_keeps)

theorem execLog2_keeps {P : List Part} {s₀ : State} (a0 : Fin 16) (a1 : State) (h1 : Keeps P s₀ a1)
    (cmodule : Part.module ∈ P := by assumption) (crails : Part.rails ∈ P := by assumption)
    (cmemory : Part.memory ∈ P := by assumption) (ckv : Part.kv ∈ P := by assumption)
    (chosts : Part.hosts ∈ P := by assumption) (cregs : Part.regs ∈ P := by assumption)
    (crel : Part.rel ∈ P := by assumption) (cfw : Part.fw ∈ P := by assumption)
    (cdraws : Part.draws ∈ P := by assumption) : ∀ u, execLog2 a0 a1 = .next u → Keeps P s₀ u := by
  intro u e
  unfold execLog2 at e
  (repeat' split at e) <;> cases e
  all_goals
  repeat' (first
      | with_reducible assumption | with_reducible apply State.engineRun_keeps)

theorem execExp_keeps {P : List Part} {s₀ : State} (a0 : Fin 16) (a1 : State) (h1 : Keeps P s₀ a1)
    (cmodule : Part.module ∈ P := by assumption) (crails : Part.rails ∈ P := by assumption)
    (cmemory : Part.memory ∈ P := by assumption) (ckv : Part.kv ∈ P := by assumption)
    (chosts : Part.hosts ∈ P := by assumption) (cregs : Part.regs ∈ P := by assumption)
    (crel : Part.rel ∈ P := by assumption) (cfw : Part.fw ∈ P := by assumption)
    (cdraws : Part.draws ∈ P := by assumption) : ∀ u, execExp a0 a1 = .next u → Keeps P s₀ u := by
  intro u e
  unfold execExp at e
  (repeat' split at e) <;> cases e
  all_goals
  repeat' (first
      | with_reducible assumption | with_reducible apply State.engineRun_keeps)

theorem execSigmoid_keeps {P : List Part} {s₀ : State} (a0 : Fin 16) (a1 : State) (h1 : Keeps P s₀ a1)
    (cmodule : Part.module ∈ P := by assumption) (crails : Part.rails ∈ P := by assumption)
    (cmemory : Part.memory ∈ P := by assumption) (ckv : Part.kv ∈ P := by assumption)
    (chosts : Part.hosts ∈ P := by assumption) (cregs : Part.regs ∈ P := by assumption)
    (crel : Part.rel ∈ P := by assumption) (cfw : Part.fw ∈ P := by assumption)
    (cdraws : Part.draws ∈ P := by assumption) : ∀ u, execSigmoid a0 a1 = .next u → Keeps P s₀ u := by
  intro u e
  unfold execSigmoid at e
  (repeat' split at e) <;> cases e
  all_goals
  repeat' (first
      | with_reducible assumption | with_reducible apply State.engineRun_keeps)

theorem execExp2_keeps {P : List Part} {s₀ : State} (a0 : Fin 16) (a1 : State) (h1 : Keeps P s₀ a1)
    (cmodule : Part.module ∈ P := by assumption) (crails : Part.rails ∈ P := by assumption)
    (cmemory : Part.memory ∈ P := by assumption) (ckv : Part.kv ∈ P := by assumption)
    (chosts : Part.hosts ∈ P := by assumption) (cregs : Part.regs ∈ P := by assumption)
    (crel : Part.rel ∈ P := by assumption) (cfw : Part.fw ∈ P := by assumption)
    (cdraws : Part.draws ∈ P := by assumption) : ∀ u, execExp2 a0 a1 = .next u → Keeps P s₀ u := by
  intro u e
  unfold execExp2 at e
  (repeat' split at e) <;> cases e
  all_goals
  repeat' (first
      | with_reducible assumption | with_reducible apply State.engineRun_keeps)

theorem execSilu_keeps {P : List Part} {s₀ : State} (a0 : Fin 16) (a1 : State) (h1 : Keeps P s₀ a1)
    (cmodule : Part.module ∈ P := by assumption) (crails : Part.rails ∈ P := by assumption)
    (cmemory : Part.memory ∈ P := by assumption) (ckv : Part.kv ∈ P := by assumption)
    (chosts : Part.hosts ∈ P := by assumption) (cregs : Part.regs ∈ P := by assumption)
    (crel : Part.rel ∈ P := by assumption) (cfw : Part.fw ∈ P := by assumption)
    (cdraws : Part.draws ∈ P := by assumption) : ∀ u, execSilu a0 a1 = .next u → Keeps P s₀ u := by
  intro u e
  unfold execSilu at e
  (repeat' split at e) <;> cases e
  all_goals
  repeat' (first
      | with_reducible assumption | with_reducible apply State.engineRun_keeps)

theorem execSin_keeps {P : List Part} {s₀ : State} (a0 : Fin 16) (a1 : State) (h1 : Keeps P s₀ a1)
    (cmodule : Part.module ∈ P := by assumption) (crails : Part.rails ∈ P := by assumption)
    (cmemory : Part.memory ∈ P := by assumption) (ckv : Part.kv ∈ P := by assumption)
    (chosts : Part.hosts ∈ P := by assumption) (cregs : Part.regs ∈ P := by assumption)
    (crel : Part.rel ∈ P := by assumption) (cfw : Part.fw ∈ P := by assumption)
    (cdraws : Part.draws ∈ P := by assumption) : ∀ u, execSin a0 a1 = .next u → Keeps P s₀ u := by
  intro u e
  unfold execSin at e
  (repeat' split at e) <;> cases e
  all_goals
  repeat' (first
      | with_reducible assumption | with_reducible apply State.engineRun_keeps)

theorem execErf_keeps {P : List Part} {s₀ : State} (a0 : Fin 16) (a1 : State) (h1 : Keeps P s₀ a1)
    (cmodule : Part.module ∈ P := by assumption) (crails : Part.rails ∈ P := by assumption)
    (cmemory : Part.memory ∈ P := by assumption) (ckv : Part.kv ∈ P := by assumption)
    (chosts : Part.hosts ∈ P := by assumption) (cregs : Part.regs ∈ P := by assumption)
    (crel : Part.rel ∈ P := by assumption) (cfw : Part.fw ∈ P := by assumption)
    (cdraws : Part.draws ∈ P := by assumption) : ∀ u, execErf a0 a1 = .next u → Keeps P s₀ u := by
  intro u e
  unfold execErf at e
  (repeat' split at e) <;> cases e
  all_goals
  repeat' (first
      | with_reducible assumption | with_reducible apply State.engineRun_keeps)

theorem execRowLse_keeps {P : List Part} {s₀ : State} (a0 : Fin 16) (a1 : State) (h1 : Keeps P s₀ a1)
    (cmodule : Part.module ∈ P := by assumption) (crails : Part.rails ∈ P := by assumption)
    (cmemory : Part.memory ∈ P := by assumption) (ckv : Part.kv ∈ P := by assumption)
    (chosts : Part.hosts ∈ P := by assumption) (cregs : Part.regs ∈ P := by assumption)
    (crel : Part.rel ∈ P := by assumption) (cfw : Part.fw ∈ P := by assumption)
    (cdraws : Part.draws ∈ P := by assumption) : ∀ u, execRowLse a0 a1 = .next u → Keeps P s₀ u := by
  intro u e
  unfold execRowLse at e
  (repeat' split at e) <;> cases e
  all_goals
  repeat' (first
      | with_reducible assumption | with_reducible apply State.engineRun_keeps)

theorem execSoftplus_keeps {P : List Part} {s₀ : State} (a0 : Fin 16) (a1 : State) (h1 : Keeps P s₀ a1)
    (cmodule : Part.module ∈ P := by assumption) (crails : Part.rails ∈ P := by assumption)
    (cmemory : Part.memory ∈ P := by assumption) (ckv : Part.kv ∈ P := by assumption)
    (chosts : Part.hosts ∈ P := by assumption) (cregs : Part.regs ∈ P := by assumption)
    (crel : Part.rel ∈ P := by assumption) (cfw : Part.fw ∈ P := by assumption)
    (cdraws : Part.draws ∈ P := by assumption) : ∀ u, execSoftplus a0 a1 = .next u → Keeps P s₀ u := by
  intro u e
  unfold execSoftplus at e
  (repeat' split at e) <;> cases e
  all_goals
  repeat' (first
      | with_reducible assumption | with_reducible apply State.engineRun_keeps)

theorem execCos_keeps {P : List Part} {s₀ : State} (a0 : Fin 16) (a1 : State) (h1 : Keeps P s₀ a1)
    (cmodule : Part.module ∈ P := by assumption) (crails : Part.rails ∈ P := by assumption)
    (cmemory : Part.memory ∈ P := by assumption) (ckv : Part.kv ∈ P := by assumption)
    (chosts : Part.hosts ∈ P := by assumption) (cregs : Part.regs ∈ P := by assumption)
    (crel : Part.rel ∈ P := by assumption) (cfw : Part.fw ∈ P := by assumption)
    (cdraws : Part.draws ∈ P := by assumption) : ∀ u, execCos a0 a1 = .next u → Keeps P s₀ u := by
  intro u e
  unfold execCos at e
  (repeat' split at e) <;> cases e
  all_goals
  repeat' (first
      | with_reducible assumption | with_reducible apply State.engineRun_keeps)

theorem execMicro_keeps {P : List Part} {s₀ : State} (a0 : Fin 16) (a1 : State) (h1 : Keeps P s₀ a1)
    (cmodule : Part.module ∈ P := by assumption) (crails : Part.rails ∈ P := by assumption)
    (cmemory : Part.memory ∈ P := by assumption) (ckv : Part.kv ∈ P := by assumption)
    (chosts : Part.hosts ∈ P := by assumption) (cregs : Part.regs ∈ P := by assumption)
    (crel : Part.rel ∈ P := by assumption) (cfw : Part.fw ∈ P := by assumption)
    (cdraws : Part.draws ∈ P := by assumption) : ∀ u, execMicro a0 a1 = .next u → Keeps P s₀ u := by
  intro u e
  unfold execMicro at e
  (repeat' split at e) <;> cases e
  all_goals
  repeat' (first
      | with_reducible assumption | with_reducible apply State.engineRun_keeps)

theorem execTopk_keeps {P : List Part} {s₀ : State} (a0 : Fin 16) (a1 : State) (h1 : Keeps P s₀ a1)
    (cmodule : Part.module ∈ P := by assumption) (crails : Part.rails ∈ P := by assumption)
    (cmemory : Part.memory ∈ P := by assumption) (ckv : Part.kv ∈ P := by assumption)
    (chosts : Part.hosts ∈ P := by assumption) (cregs : Part.regs ∈ P := by assumption)
    (crel : Part.rel ∈ P := by assumption) (cfw : Part.fw ∈ P := by assumption)
    (cdraws : Part.draws ∈ P := by assumption) : ∀ u, execTopk a0 a1 = .next u → Keeps P s₀ u := by
  intro u e
  unfold execTopk at e
  (repeat' split at e) <;> cases e
  all_goals
  repeat' (first
      | with_reducible assumption | with_reducible apply State.engineRun_keeps)

theorem execEgFirstWrite_keeps {P : List Part} {s₀ : State} (a0 : Writer) (a1 : Fin 81) (a2 : Word) (a3 : State) (h3
    : Keeps P s₀ a3) (cregs : Part.regs ∈ P := by assumption)
    : ∀ u, execEgFirstWrite a0 a1 a2 a3 = .next u → Keeps P s₀ u := by
  intro u e
  unfold execEgFirstWrite at e
  (repeat' split at e) <;> cases e
  all_goals
  repeat' (first
      | with_reducible assumption | with_reducible apply State.guarded_keeps
      | with_reducible apply State.setReg_keeps | intro _)

theorem execAdjExpand_keeps {P : List Part} {s₀ : State} (a0 : Fin 16) (a1 : State) (h1 : Keeps P s₀ a1)
    (cmodule : Part.module ∈ P := by assumption) (crails : Part.rails ∈ P := by assumption)
    (cmemory : Part.memory ∈ P := by assumption) (ckv : Part.kv ∈ P := by assumption)
    (chosts : Part.hosts ∈ P := by assumption) (cregs : Part.regs ∈ P := by assumption)
    (crel : Part.rel ∈ P := by assumption) (cfw : Part.fw ∈ P := by assumption)
    (cdraws : Part.draws ∈ P := by assumption) : ∀ u, execAdjExpand a0 a1 = .next u → Keeps P s₀ u := by
  intro u e
  unfold execAdjExpand at e
  (repeat' split at e) <;> cases e
  all_goals
  repeat' (first
      | with_reducible assumption | with_reducible apply State.engineRun_keeps)

theorem execGather_keeps {P : List Part} {s₀ : State} (a0 : Fin 16) (a1 : State) (h1 : Keeps P s₀ a1)
    (cmodule : Part.module ∈ P := by assumption) (crails : Part.rails ∈ P := by assumption)
    (cmemory : Part.memory ∈ P := by assumption) (ckv : Part.kv ∈ P := by assumption)
    (chosts : Part.hosts ∈ P := by assumption) (cregs : Part.regs ∈ P := by assumption)
    (crel : Part.rel ∈ P := by assumption) (cfw : Part.fw ∈ P := by assumption)
    (cdraws : Part.draws ∈ P := by assumption) : ∀ u, execGather a0 a1 = .next u → Keeps P s₀ u := by
  intro u e
  unfold execGather at e
  (repeat' split at e) <;> cases e
  all_goals
  repeat' (first
      | with_reducible assumption | with_reducible apply State.engineRun_keeps)

theorem execSetPad_keeps {P : List Part} {s₀ : State} (a0 : Fin 16) (a1 : State) (h1 : Keeps P s₀ a1)
    (cmodule : Part.module ∈ P := by assumption) (crails : Part.rails ∈ P := by assumption)
    (cmemory : Part.memory ∈ P := by assumption) (ckv : Part.kv ∈ P := by assumption)
    (chosts : Part.hosts ∈ P := by assumption) (cregs : Part.regs ∈ P := by assumption)
    (crel : Part.rel ∈ P := by assumption) (cfw : Part.fw ∈ P := by assumption)
    (cdraws : Part.draws ∈ P := by assumption) : ∀ u, execSetPad a0 a1 = .next u → Keeps P s₀ u := by
  intro u e
  unfold execSetPad at e
  (repeat' split at e) <;> cases e
  all_goals
  repeat' (first
      | with_reducible assumption | with_reducible apply State.engineRun_keeps)

theorem execEgClear_keeps {P : List Part} {s₀ : State} (a0 : Writer) (a1 : Fin 81) (a2 : Word) (a3 : State) (h3
    : Keeps P s₀ a3) (cregs : Part.regs ∈ P := by assumption)
    : ∀ u, execEgClear a0 a1 a2 a3 = .next u → Keeps P s₀ u := by
  intro u e
  unfold execEgClear at e
  (repeat' split at e) <;> cases e
  all_goals
  repeat' (first
      | with_reducible assumption | with_reducible apply State.guarded_keeps
      | with_reducible apply State.setReg_keeps | intro _)

theorem execScatter_keeps {P : List Part} {s₀ : State} (a0 : Fin 16) (a1 : State) (h1 : Keeps P s₀ a1)
    (cmodule : Part.module ∈ P := by assumption) (crails : Part.rails ∈ P := by assumption)
    (cmemory : Part.memory ∈ P := by assumption) (ckv : Part.kv ∈ P := by assumption)
    (chosts : Part.hosts ∈ P := by assumption) (cregs : Part.regs ∈ P := by assumption)
    (crel : Part.rel ∈ P := by assumption) (cfw : Part.fw ∈ P := by assumption)
    (cdraws : Part.draws ∈ P := by assumption) : ∀ u, execScatter a0 a1 = .next u → Keeps P s₀ u := by
  intro u e
  unfold execScatter at e
  (repeat' split at e) <;> cases e
  all_goals
  repeat' (first
      | with_reducible assumption | with_reducible apply State.engineRun_keeps)

theorem execSort_keeps {P : List Part} {s₀ : State} (a0 : Fin 16) (a1 : State) (h1 : Keeps P s₀ a1)
    (cmodule : Part.module ∈ P := by assumption) (crails : Part.rails ∈ P := by assumption)
    (cmemory : Part.memory ∈ P := by assumption) (ckv : Part.kv ∈ P := by assumption)
    (chosts : Part.hosts ∈ P := by assumption) (cregs : Part.regs ∈ P := by assumption)
    (crel : Part.rel ∈ P := by assumption) (cfw : Part.fw ∈ P := by assumption)
    (cdraws : Part.draws ∈ P := by assumption) : ∀ u, execSort a0 a1 = .next u → Keeps P s₀ u := by
  intro u e
  unfold execSort at e
  (repeat' split at e) <;> cases e
  all_goals
  repeat' (first
      | with_reducible assumption | with_reducible apply State.engineRun_keeps)

theorem execSegmentReduce_keeps {P : List Part} {s₀ : State} (a0 : Fin 16) (a1 : State) (h1 : Keeps P s₀ a1)
    (cmodule : Part.module ∈ P := by assumption) (crails : Part.rails ∈ P := by assumption)
    (cmemory : Part.memory ∈ P := by assumption) (ckv : Part.kv ∈ P := by assumption)
    (chosts : Part.hosts ∈ P := by assumption) (cregs : Part.regs ∈ P := by assumption)
    (crel : Part.rel ∈ P := by assumption) (cfw : Part.fw ∈ P := by assumption)
    (cdraws : Part.draws ∈ P := by assumption) : ∀ u, execSegmentReduce a0 a1 = .next u → Keeps P s₀ u := by
  intro u e
  unfold execSegmentReduce at e
  (repeat' split at e) <;> cases e
  all_goals
  repeat' (first
      | with_reducible assumption | with_reducible apply State.engineRun_keeps)

theorem poolStage_keeps {P : List Part} {s₀ : State} (a0 : PoolAt) (a1 : Kernel) (a2 : State × ℕ) (a3 : ℕ × ℕ) (h2
    : Keeps P s₀ a2.1) (cmemory : Part.memory ∈ P := by assumption) (ctiers : Part.tiers ∈ P := by assumption)
    (chosts : Part.hosts ∈ P := by assumption) (cregs : Part.regs ∈ P := by assumption) : Keeps P s₀
    (poolStage a0 a1 a2 a3).1 := by
  unfold poolStage
  repeat' (first
      | with_reducible assumption | with_reducible apply State.stageSlice_keeps
      | with_reducible apply State.addWrap_keeps | split | dsimp only)

theorem poolWork_keeps {P : List Part} {s₀ : State} (a0 : ℕ) (a1 : State) (a2 : CmdId) (a3 : Cmd) (h1 : Keeps P s₀ a1)
    (cmodule : Part.module ∈ P := by assumption) (crails : Part.rails ∈ P := by assumption)
    (cmemory : Part.memory ∈ P := by assumption) (ctiers : Part.tiers ∈ P := by assumption)
    (ckv : Part.kv ∈ P := by assumption) (chosts : Part.hosts ∈ P := by assumption)
    (cregs : Part.regs ∈ P := by assumption) (crel : Part.rel ∈ P := by assumption)
    (cfw : Part.fw ∈ P := by assumption) (cdraws : Part.draws ∈ P := by assumption) : Keeps P s₀
    (poolWork a0 a1 a2 a3) := by
  unfold poolWork
  repeat' (first
      | with_reducible assumption | with_reducible apply State.finish_keeps
      | with_reducible apply State.windowStart_keeps | with_reducible apply State.runCount_keeps
      | with_reducible apply State.infHavoc_keeps | with_reducible apply poolStage_keeps
      | with_reducible apply Keeps.foldl | with_reducible apply Keeps.foldlFst
      | (with_reducible refine Keeps.ofFst (by with_reducible assumption) ?_) | split | intro _ | dsimp only)

theorem execPool_keeps {P : List Part} {s₀ : State} (a0 : Fin 16) (a1 : Line) (a2 : State) (h2 : Keeps P s₀ a2)
    (cmodule : Part.module ∈ P := by assumption) (crails : Part.rails ∈ P := by assumption)
    (cmemory : Part.memory ∈ P := by assumption) (ctiers : Part.tiers ∈ P := by assumption)
    (ckv : Part.kv ∈ P := by assumption) (chosts : Part.hosts ∈ P := by assumption)
    (cregs : Part.regs ∈ P := by assumption) (crel : Part.rel ∈ P := by assumption)
    (cfw : Part.fw ∈ P := by assumption) (cdraws : Part.draws ∈ P := by assumption)
    : ∀ u, execPool a0 a1 a2 = .next u → Keeps P s₀ u := by
  intro u e
  unfold execPool at e
  cases e
  refine State.issueHead_keeps _ _ _ _ _ _ h2 ?_
  intro t id c ht
  split
  · exact poolWork_keeps _ _ _ _ ht
  · exact State.finish_keeps _ _ _ _ ht

theorem State.attnCounters_keeps {P : List Part} {s₀ : State} (a0 : State) (a1 : ℕ) (a2 : ℕ) (a3 : ℕ) (h0
    : Keeps P s₀ a0) (ctiles : Part.tiles ∈ P := by assumption) : Keeps P s₀ (State.attnCounters a0 a1 a2 a3) := by
  unfold State.attnCounters
  repeat' (first
      | with_reducible assumption | with_reducible apply State.setLap_keeps | with_reducible apply Keeps.iter
      | split | intro _)

theorem attnWork_keeps {P : List Part} {s₀ : State} (a0 : State) (a1 : CmdId) (a2 : Cmd) (h0 : Keeps P s₀ a0)
    (cmodule : Part.module ∈ P := by assumption) (ctiles : Part.tiles ∈ P := by assumption)
    (cmemory : Part.memory ∈ P := by assumption) (ckv : Part.kv ∈ P := by assumption)
    (cattn : Part.attn ∈ P := by assumption) (chosts : Part.hosts ∈ P := by assumption)
    (cregs : Part.regs ∈ P := by assumption) (crel : Part.rel ∈ P := by assumption)
    (cfw : Part.fw ∈ P := by assumption) (cdraws : Part.draws ∈ P := by assumption) : Keeps P s₀
    (attnWork a0 a1 a2) := by
  unfold attnWork
  repeat' (first
      | with_reducible assumption | with_reducible apply State.finish_keeps
      | with_reducible apply State.infHavoc_keeps | with_reducible apply State.modCmd_keeps
      | with_reducible apply State.attnCounters_keeps | with_reducible apply Keeps.foldl | split | intro _
      | dsimp only | (fail_if_no_progress with_reducible refine Keeps.free ?_ _ _ _ _ _ _ _ _ _ _ _ _ _))

theorem execAttention_keeps {P : List Part} {s₀ : State} (a0 : Fin 16) (a1 : State) (h1 : Keeps P s₀ a1)
    (cmodule : Part.module ∈ P := by assumption) (ctiles : Part.tiles ∈ P := by assumption)
    (cmemory : Part.memory ∈ P := by assumption) (ckv : Part.kv ∈ P := by assumption)
    (cattn : Part.attn ∈ P := by assumption) (chosts : Part.hosts ∈ P := by assumption)
    (cregs : Part.regs ∈ P := by assumption) (crel : Part.rel ∈ P := by assumption)
    (cfw : Part.fw ∈ P := by assumption) (cdraws : Part.draws ∈ P := by assumption)
    : ∀ u, execAttention a0 a1 = .next u → Keeps P s₀ u := by
  intro u e
  unfold execAttention at e
  (repeat' split at e) <;> cases e
  all_goals
  repeat' (first
      | with_reducible assumption | with_reducible apply State.issueHead_keeps | with_reducible apply attnWork_keeps
      | intro _)

theorem State.modClaim_keeps {P : List Part} {s₀ : State} (a0 : State) (a1 : CmdId) (a2 : ℕ) (a3 :
    (AttnClaim → AttnClaim)) (h0 : Keeps P s₀ a0) (cattn : Part.attn ∈ P := by assumption) : Keeps P s₀
    (State.modClaim a0 a1 a2 a3) := by
  unfold State.modClaim
  repeat' (first
      | with_reducible assumption | dsimp only
      | (fail_if_no_progress with_reducible refine Keeps.free ?_ _ _ _ _ _ _ _ _ _ _ _ _ _))

theorem State.freeCounters_keeps {P : List Part} {s₀ : State} (a0 : State) (a1 : ℕ) (h0 : Keeps P s₀ a0)
    (ctiles : Part.tiles ∈ P := by assumption) : Keeps P s₀ (State.freeCounters a0 a1) := by
  unfold State.freeCounters
  repeat' (first
      | with_reducible assumption | with_reducible apply State.setLap_keeps | with_reducible apply Keeps.iter
      | intro _)

theorem State.endAttention_keeps {P : List Part} {s₀ : State} (a0 : State) (a1 : CmdId) (a2 : Cmd) (h0
    : Keeps P s₀ a0) (ctiles : Part.tiles ∈ P := by assumption) (cmemory : Part.memory ∈ P := by assumption)
    (ctiers : Part.tiers ∈ P := by assumption) (ckv : Part.kv ∈ P := by assumption)
    (cattn : Part.attn ∈ P := by assumption) (cdraws : Part.draws ∈ P := by assumption) : Keeps P s₀
    (State.endAttention a0 a1 a2) := by
  unfold State.endAttention
  repeat' (first
      | with_reducible assumption | with_reducible apply State.cvaHavoc_keeps
      | with_reducible apply State.freeCounters_keeps | with_reducible apply Keeps.foldl | split | intro _
      | dsimp only | (fail_if_no_progress with_reducible refine Keeps.free ?_ _ _ _ _ _ _ _ _ _ _ _ _ _))

theorem execSpanForm_keeps {P : List Part} {s₀ : State} (a0 : Fin 16) (a1 : ℕ) (a2 : ℕ) (a3 : State) (h3
    : Keeps P s₀ a3) (cmodule : Part.module ∈ P := by assumption) (ctiles : Part.tiles ∈ P := by assumption)
    (cmemory : Part.memory ∈ P := by assumption) (ctiers : Part.tiers ∈ P := by assumption)
    (ckv : Part.kv ∈ P := by assumption) (cattn : Part.attn ∈ P := by assumption)
    (chosts : Part.hosts ∈ P := by assumption) (cregs : Part.regs ∈ P := by assumption)
    (crel : Part.rel ∈ P := by assumption) (cfw : Part.fw ∈ P := by assumption)
    (cdraws : Part.draws ∈ P := by assumption) : ∀ u, execSpanForm a0 a1 a2 a3 = .next u → Keeps P s₀ u := by
  intro u e
  unfold execSpanForm at e
  (repeat' split at e) <;> cases e
  all_goals
  repeat' (first
      | with_reducible assumption | with_reducible apply State.modClaim_keeps
      | with_reducible apply State.modCmd_keeps | with_reducible apply State.consumePoison_keeps
      | with_reducible apply State.endAttention_keeps | with_reducible apply State.finish_keeps
      | with_reducible apply State.noteReads_keeps | with_reducible apply State.raise_keeps
      | (with_reducible refine State.attnTake_keepsE (by with_reducible assumption) ?_) | split | dsimp only
      | (fail_if_no_progress with_reducible refine Keeps.free ?_ _ _ _ _ _ _ _ _ _ _ _ _ _))

theorem State.closeAttention_keeps {P : List Part} {s₀ : State} (a0 : State) (a1 : CmdId) (a2 : Cmd) (h0
    : Keeps P s₀ a0) (ctiles : Part.tiles ∈ P := by assumption) (cattn : Part.attn ∈ P := by assumption) : Keeps P s₀
    (State.closeAttention a0 a1 a2) := by
  unfold State.closeAttention
  repeat' (first
      | with_reducible assumption | with_reducible apply State.freeCounters_keeps | split | dsimp only
      | (fail_if_no_progress with_reducible refine Keeps.free ?_ _ _ _ _ _ _ _ _ _ _ _ _ _))

theorem State.attnDone_keeps {P : List Part} {s₀ : State} (a0 : State) (a1 : CmdId) (h0 : Keeps P s₀ a0)
    (chosts : Part.hosts ∈ P := by assumption) : Keeps P s₀ (State.attnDone a0 a1) := by
  unfold State.attnDone
  repeat' (first
      | with_reducible assumption | with_reducible apply State.modCmd_keeps | split)

theorem State.writeRow_keeps {P : List Part} {s₀ : State} (a0 : Line) (a1 : AttnClaim) (a2 : ℕ) (a3 : State × ℕ)
    (a4 : ℕ) (h3 : Keeps P s₀ a3.1) (cmemory : Part.memory ∈ P := by assumption)
    (ctiers : Part.tiers ∈ P := by assumption) (ckv : Part.kv ∈ P := by assumption)
    (chosts : Part.hosts ∈ P := by assumption) : Keeps P s₀ (State.writeRow a0 a1 a2 a3 a4).1 := by
  unfold State.writeRow
  repeat' (first
      | with_reducible assumption | with_reducible apply State.raise_keeps
      | with_reducible apply State.cvaWrite_keeps | split | dsimp only)

theorem execSpanMerge_keeps {P : List Part} {s₀ : State} (a0 : Fin 16) (a1 : ℕ) (a2 : State) (h2 : Keeps P s₀ a2)
    (cmodule : Part.module ∈ P := by assumption) (ctiles : Part.tiles ∈ P := by assumption)
    (cmemory : Part.memory ∈ P := by assumption) (ctiers : Part.tiers ∈ P := by assumption)
    (ckv : Part.kv ∈ P := by assumption) (cattn : Part.attn ∈ P := by assumption)
    (chosts : Part.hosts ∈ P := by assumption) (cregs : Part.regs ∈ P := by assumption)
    (crel : Part.rel ∈ P := by assumption) (cfw : Part.fw ∈ P := by assumption)
    (cdraws : Part.draws ∈ P := by assumption) : ∀ u, execSpanMerge a0 a1 a2 = .next u → Keeps P s₀ u := by
  intro u e
  unfold execSpanMerge at e
  (repeat' split at e) <;> cases e
  all_goals
  repeat' (first
      | with_reducible assumption | with_reducible apply State.cvaHavoc_keeps
      | with_reducible apply State.finish_keeps | with_reducible apply State.endAttention_keeps
      | with_reducible apply State.attnDone_keeps | with_reducible apply State.attnGive_keeps
      | with_reducible apply State.modClaim_keeps | with_reducible apply State.writeRow_keeps
      | (with_reducible refine State.attnTake_keepsE (by with_reducible assumption) ?_)
      | with_reducible apply Keeps.foldl | with_reducible apply Keeps.foldlFst | split | intro _ | dsimp only
      | (fail_if_no_progress with_reducible refine Keeps.free ?_ _ _ _ _ _ _ _ _ _ _ _ _ _))

theorem execHurdleArrival_keeps {P : List Part} {s₀ : State} (a0 : Fin 16) (a1 : Bool) (a2 : Fin 75) (a3 : State) (h3
    : Keeps P s₀ a3) (cmodule : Part.module ∈ P := by assumption) (ctiles : Part.tiles ∈ P := by assumption)
    (ckv : Part.kv ∈ P := by assumption) (cattn : Part.attn ∈ P := by assumption)
    (chosts : Part.hosts ∈ P := by assumption) (cregs : Part.regs ∈ P := by assumption)
    (crel : Part.rel ∈ P := by assumption) (cfw : Part.fw ∈ P := by assumption)
    : ∀ u, execHurdleArrival a0 a1 a2 a3 = .next u → Keeps P s₀ u := by
  intro u e
  unfold execHurdleArrival at e
  (repeat' split at e) <;> cases e
  all_goals
  repeat' (first
      | with_reducible assumption | with_reducible apply State.modCmd_keeps
      | with_reducible apply State.endKernel_keeps | with_reducible apply State.closeAttention_keeps
      | with_reducible apply State.finish_keeps | split | dsimp only)

theorem State.dropCounted_keeps {P : List Part} {s₀ : State} (a0 : State) (h0 : Keeps P s₀ a0)
    (crails : Part.rails ∈ P := by assumption) : Keeps P s₀ (State.dropCounted a0) := by
  unfold State.dropCounted
  repeat' (first
      | with_reducible assumption | dsimp only
      | (fail_if_no_progress with_reducible refine Keeps.free ?_ _ _ _ _ _ _ _ _ _ _ _ _ _))

theorem State.foldMonitors_keeps {P : List Part} {s₀ : State} (a0 : State) (h0 : Keeps P s₀ a0)
    (crails : Part.rails ∈ P := by assumption) : Keeps P s₀ (State.foldMonitors a0) := by
  unfold State.foldMonitors
  repeat' (first
      | with_reducible assumption | dsimp only
      | (fail_if_no_progress with_reducible refine Keeps.free ?_ _ _ _ _ _ _ _ _ _ _ _ _ _))

theorem State.setRecipeBit_keeps {P : List Part} {s₀ : State} (a0 : State) (a1 : ℕ) (a2 : ℕ) (a3 : Bool) (h0
    : Keeps P s₀ a0) (cregs : Part.regs ∈ P := by assumption) : Keeps P s₀ (State.setRecipeBit a0 a1 a2 a3) := by
  unfold State.setRecipeBit
  repeat' (first
      | with_reducible assumption | with_reducible apply State.setReg_keeps)

theorem narrowRecord_keeps {P : List Part} {s₀ : State} (a0 : ℕ) (a1 : State) (h1 : Keeps P s₀ a1)
    (cregs : Part.regs ∈ P := by assumption) : Keeps P s₀ (narrowRecord a0 a1) := by
  unfold narrowRecord
  repeat' (first
      | with_reducible assumption | with_reducible apply State.setRecipeBit_keeps | split)

theorem wideRecord_keeps {P : List Part} {s₀ : State} (a0 : State × List ℕ) (a1 : ℕ) (h0 : Keeps P s₀ a0.1)
    (crails : Part.rails ∈ P := by assumption) (cregs : Part.regs ∈ P := by assumption) : Keeps P s₀
    (wideRecord a0 a1).1 := by
  unfold wideRecord
  repeat' (first
      | with_reducible assumption | with_reducible apply State.setRecipeBit_keeps | split | dsimp only
      | (fail_if_no_progress with_reducible refine Keeps.free ?_ _ _ _ _ _ _ _ _ _ _ _ _ _))

theorem State.boundary_keeps {P : List Part} {s₀ : State} (a0 : State) (h0 : Keeps P s₀ a0)
    (crails : Part.rails ∈ P := by assumption) (cregs : Part.regs ∈ P := by assumption) : Keeps P s₀
    (State.boundary a0).1 := by
  unfold State.boundary
  repeat' (first
      | with_reducible assumption | with_reducible apply State.foldMonitors_keeps
      | with_reducible apply State.dropCounted_keeps | with_reducible apply narrowRecord_keeps
      | with_reducible apply State.setReg_keeps | with_reducible apply State.addWrap_keeps
      | with_reducible apply wideRecord_keeps | with_reducible apply Keeps.foldlFst
      | with_reducible apply Keeps.iter | split | intro _)

theorem State.stepBoundary_keeps {P : List Part} {s₀ : State} (a0 : State) (a1 : ℕ) (a2 : ℕ) (h0 : Keeps P s₀ a0)
    (cmodule : Part.module ∈ P := by assumption) (crails : Part.rails ∈ P := by assumption)
    (ckv : Part.kv ∈ P := by assumption) (chosts : Part.hosts ∈ P := by assumption)
    (cregs : Part.regs ∈ P := by assumption) (crel : Part.rel ∈ P := by assumption)
    (cfw : Part.fw ∈ P := by assumption) : Keeps P s₀ (State.stepBoundary a0 a1 a2) := by
  unfold State.stepBoundary
  repeat' (first
      | with_reducible assumption | with_reducible apply State.modCmd_keeps
      | with_reducible apply State.settle_keeps | with_reducible apply State.boundary_keeps | split)

theorem execGrUntrackedWrite_keeps {P : List Part} {s₀ : State} (a0 : Writer) (a1 : Word) (a2 : State) (h2
    : Keeps P s₀ a2) (cregs : Part.regs ∈ P := by assumption)
    : ∀ u, execGrUntrackedWrite a0 a1 a2 = .next u → Keeps P s₀ u := by
  intro u e
  unfold execGrUntrackedWrite at e
  (repeat' split at e) <;> cases e
  all_goals
  repeat' (first
      | with_reducible assumption | with_reducible apply State.guarded_keeps
      | with_reducible apply State.setReg_keeps | intro _)

theorem State.grFirst_keeps {P : List Part} {s₀ : State} (a0 : State) (a1 : ℕ) (h0 : Keeps P s₀ a0)
    (cregs : Part.regs ∈ P := by assumption) : Keeps P s₀ (State.grFirst a0 a1) := by
  unfold State.grFirst
  repeat' (first
      | with_reducible assumption | with_reducible apply State.setReg_keeps)

theorem execStepBoundary_keeps {P : List Part} {s₀ : State} (a0 : Fin 16) (a1 : Fin 4) (a2 : State) (h2
    : Keeps P s₀ a2) (cmodule : Part.module ∈ P := by assumption) (crails : Part.rails ∈ P := by assumption)
    (ckv : Part.kv ∈ P := by assumption) (chosts : Part.hosts ∈ P := by assumption)
    (cregs : Part.regs ∈ P := by assumption) (crel : Part.rel ∈ P := by assumption)
    (cfw : Part.fw ∈ P := by assumption) : ∀ u, execStepBoundary a0 a1 a2 = .next u → Keeps P s₀ u := by
  intro u e
  unfold execStepBoundary at e
  (repeat' split at e) <;> cases e
  all_goals
  repeat' (first
      | with_reducible assumption | with_reducible apply State.stepBoundary_keeps)

theorem execGrFirstWrite_keeps {P : List Part} {s₀ : State} (a0 : Writer) (a1 : Word) (a2 : State) (h2
    : Keeps P s₀ a2) (cregs : Part.regs ∈ P := by assumption)
    : ∀ u, execGrFirstWrite a0 a1 a2 = .next u → Keeps P s₀ u := by
  intro u e
  unfold execGrFirstWrite at e
  (repeat' split at e) <;> cases e
  all_goals
  repeat' (first
      | with_reducible assumption | with_reducible apply State.guarded_keeps
      | with_reducible apply State.grFirst_keeps | intro _)

theorem execGrMonClear_keeps {P : List Part} {s₀ : State} (a0 : Writer) (a1 : Word) (a2 : State) (h2 : Keeps P s₀ a2)
    (crails : Part.rails ∈ P := by assumption) (cregs : Part.regs ∈ P := by assumption)
    : ∀ u, execGrMonClear a0 a1 a2 = .next u → Keeps P s₀ u := by
  intro u e
  unfold execGrMonClear at e
  (repeat' split at e) <;> cases e
  all_goals
  repeat' (first
      | with_reducible assumption | with_reducible apply State.guarded_keeps | intro _ | dsimp only
      | (fail_if_no_progress with_reducible refine Keeps.free ?_ _ _ _ _ _ _ _ _ _ _ _ _ _))

end Sys2Proof.Machine
end

