-- ==== Sys2Proof/Laws/KeepsSystem.lean ====
section
/-!
SUPPORT. The parts of the state that each operation may write, and that every operation keeps the bytes canonical, the logbook
growing and the fuses blown (`Keeps`): links, collectives, the heat sheet, hosts, packages, media, playout and teardown.
-/



namespace Sys2Proof.Machine

open Sys2Proof Sys2Proof.Safety

set_option linter.all false
set_option Elab.async false

theorem execBatonSlot_keeps {P : List Part} {s₀ : State} (a0 : Fin 36) (a1 : State) (h1 : Keeps P s₀ a1)
    (cmodule : Part.module ∈ P := by assumption) (cmemory : Part.memory ∈ P := by assumption)
    (ctiers : Part.tiers ∈ P := by assumption) (ckv : Part.kv ∈ P := by assumption)
    (clinks : Part.links ∈ P := by assumption) (chosts : Part.hosts ∈ P := by assumption)
    (cregs : Part.regs ∈ P := by assumption) (crel : Part.rel ∈ P := by assumption)
    (cfw : Part.fw ∈ P := by assumption) (cdraws : Part.draws ∈ P := by assumption)
    : ∀ u, execBatonSlot a0 a1 = .next u → Keeps P s₀ u := by
  intro u e
  unfold execBatonSlot at e
  (repeat' split at e) <;> cases e
  all_goals
  repeat' (first
      | with_reducible assumption | with_reducible apply State.setLink_keeps
      | with_reducible apply State.addSat_keeps | with_reducible apply State.linkRetrain_keeps
      | with_reducible apply State.refill_keeps | with_reducible apply State.addWrap_keeps | split | dsimp only)

theorem State.reclaimUnder_keeps {P : List Part} {s₀ : State} (a0 : State) (a1 : ℕ) (a2 : ℕ) (a3 : ℕ) (h0
    : Keeps P s₀ a0) (ctiers : Part.tiers ∈ P := by assumption) (ckv : Part.kv ∈ P := by assumption) : Keeps P s₀
    (State.reclaimUnder a0 a1 a2 a3) := by
  unfold State.reclaimUnder
  repeat' (first
      | with_reducible assumption | with_reducible apply State.reclaimEntry_keeps | with_reducible apply Keeps.foldl
      | split | intro _ | dsimp only)

theorem State.land_keeps {P : List Part} {s₀ : State} (a0 : State) (a1 : BatonWord) (h0 : Keeps P s₀ a0)
    (cmemory : Part.memory ∈ P := by assumption) (ctiers : Part.tiers ∈ P := by assumption)
    (ckv : Part.kv ∈ P := by assumption) : Keeps P s₀ (State.land a0 a1).1 := by
  unfold State.land
  repeat' (first
      | with_reducible assumption | with_reducible apply State.reclaimUnder_keeps
      | with_reducible apply State.cvaWrite_keeps | split | dsimp only)

theorem batonRow_keeps {P : List Part} {s₀ : State} (a0 : String) (a1 : ℕ) (a2 : BatonWord) (a3 : State) (h3
    : Keeps P s₀ a3)  : ∀ u, batonRow a0 a1 a2 a3 = .next u → Keeps P s₀ u := by
  intro u e
  unfold batonRow at e
  (repeat' split at e) <;> cases e
  all_goals
  repeat' (with_reducible assumption)

theorem State.checkReduce_keeps {P : List Part} {s₀ : State} (a0 : State) (a1 : ℕ) (a2 : ℕ) (h0 : Keeps P s₀ a0)
    (cmodule : Part.module ∈ P := by assumption) (cmemory : Part.memory ∈ P := by assumption)
    (ctiers : Part.tiers ∈ P := by assumption) (ckv : Part.kv ∈ P := by assumption)
    (clinks : Part.links ∈ P := by assumption) (chosts : Part.hosts ∈ P := by assumption)
    (cregs : Part.regs ∈ P := by assumption) (crel : Part.rel ∈ P := by assumption)
    (cfw : Part.fw ∈ P := by assumption) (cdraws : Part.draws ∈ P := by assumption) : Keeps P s₀
    (State.checkReduce a0 a1 a2) := by
  unfold State.checkReduce
  repeat' (first
      | with_reducible assumption | with_reducible apply State.finish_keeps
      | with_reducible apply State.endMessage_keeps | split | dsimp only)

theorem State.checkReduces_keeps {P : List Part} {s₀ : State} (a0 : State) (a1 : ℕ) (h0 : Keeps P s₀ a0)
    (cmodule : Part.module ∈ P := by assumption) (cmemory : Part.memory ∈ P := by assumption)
    (ctiers : Part.tiers ∈ P := by assumption) (ckv : Part.kv ∈ P := by assumption)
    (clinks : Part.links ∈ P := by assumption) (chosts : Part.hosts ∈ P := by assumption)
    (cregs : Part.regs ∈ P := by assumption) (crel : Part.rel ∈ P := by assumption)
    (cfw : Part.fw ∈ P := by assumption) (cdraws : Part.draws ∈ P := by assumption) : Keeps P s₀
    (State.checkReduces a0 a1) := by
  unfold State.checkReduces
  repeat' (first
      | with_reducible assumption | with_reducible apply State.checkReduce_keeps | with_reducible apply Keeps.foldl
      | split | intro _)

theorem execNakBaton_keeps {P : List Part} {s₀ : State} (a0 : Fin 36) (a1 : BatonWord) (a2 : State) (h2
    : Keeps P s₀ a2) (cmodule : Part.module ∈ P := by assumption) (cmemory : Part.memory ∈ P := by assumption)
    (ctiers : Part.tiers ∈ P := by assumption) (ckv : Part.kv ∈ P := by assumption)
    (clinks : Part.links ∈ P := by assumption) (chosts : Part.hosts ∈ P := by assumption)
    (cregs : Part.regs ∈ P := by assumption) (crel : Part.rel ∈ P := by assumption)
    (cfw : Part.fw ∈ P := by assumption) (cdraws : Part.draws ∈ P := by assumption)
    : ∀ u, execNakBaton a0 a1 a2 = .next u → Keeps P s₀ u := by
  intro u e
  unfold execNakBaton at e
  refine (batonRow_keeps _ _ _ _ ?_) u e
  repeat' (first
      | with_reducible assumption | with_reducible apply State.checkReduces_keeps
      | with_reducible apply State.setLink_keeps | split | dsimp only)

theorem execBatonCrcFailure_keeps {P : List Part} {s₀ : State} (a0 : Fin 36) (a1 : DamagedBaton) (a2 : State)
    (h2 : Keeps P s₀ a2) (clinks : Part.links ∈ P := by assumption) (cregs : Part.regs ∈ P := by assumption)
    : ∀ u, execBatonCrcFailure a0 a1 a2 = .next u → Keeps P s₀ u := by
  intro u e
  unfold execBatonCrcFailure at e
  (repeat' split at e) <;> cases e
  all_goals
  repeat' (first
      | with_reducible assumption | with_reducible apply State.addSat_keeps
      | with_reducible apply State.setLink_keeps | split | dsimp only)

theorem State.discard_keeps {P : List Part} {s₀ : State} (a0 : State) (a1 : BatonWord) (h0 : Keeps P s₀ a0)
    (clinks : Part.links ∈ P := by assumption) (cregs : Part.regs ∈ P := by assumption) : Keeps P s₀
    (State.discard a0 a1) := by
  unfold State.discard
  repeat' (first
      | with_reducible assumption | with_reducible apply State.addSat_keeps
      | with_reducible apply State.routeReply_keeps | split)

theorem State.forward_keeps {P : List Part} {s₀ : State} (a0 : State) (a1 : ℕ) (a2 : BatonWord) (h0 : Keeps P s₀ a0)
    (clinks : Part.links ∈ P := by assumption) (cregs : Part.regs ∈ P := by assumption) : Keeps P s₀
    (State.forward a0 a1 a2) := by
  unfold State.forward
  repeat' (first
      | with_reducible assumption | with_reducible apply State.discard_keeps
      | (with_reducible refine State.route_keepsE (by with_reducible assumption) ?_) | split)

theorem State.accept_keeps {P : List Part} {s₀ : State} (a0 : State) (a1 : ℕ) (a2 : BatonWord) (h0 : Keeps P s₀ a0)
    (cmodule : Part.module ∈ P := by assumption) (cmemory : Part.memory ∈ P := by assumption)
    (ctiers : Part.tiers ∈ P := by assumption) (ckv : Part.kv ∈ P := by assumption)
    (clinks : Part.links ∈ P := by assumption) (chosts : Part.hosts ∈ P := by assumption)
    (cregs : Part.regs ∈ P := by assumption) (crel : Part.rel ∈ P := by assumption)
    (cfw : Part.fw ∈ P := by assumption) (cdraws : Part.draws ∈ P := by assumption) : Keeps P s₀
    (State.accept a0 a1 a2).1 := by
  unfold State.accept
  repeat' (first
      | with_reducible assumption | with_reducible apply State.setLink_keeps
      | with_reducible apply State.checkReduces_keeps | with_reducible apply State.addWrap_keeps | split
      | dsimp only)

theorem execMalformedBaton_keeps {P : List Part} {s₀ : State} (a0 : Fin 36) (a1 : BatonWord) (a2 : State) (h2
    : Keeps P s₀ a2) (cmodule : Part.module ∈ P := by assumption) (cmemory : Part.memory ∈ P := by assumption)
    (ctiers : Part.tiers ∈ P := by assumption) (ckv : Part.kv ∈ P := by assumption)
    (clinks : Part.links ∈ P := by assumption) (chosts : Part.hosts ∈ P := by assumption)
    (cregs : Part.regs ∈ P := by assumption) (crel : Part.rel ∈ P := by assumption)
    (cfw : Part.fw ∈ P := by assumption) (cdraws : Part.draws ∈ P := by assumption)
    : ∀ u, execMalformedBaton a0 a1 a2 = .next u → Keeps P s₀ u := by
  intro u e
  unfold execMalformedBaton at e
  (repeat' split at e) <;> cases e
  all_goals
  repeat' (first
      | with_reducible assumption | with_reducible apply State.addSat_keeps
      | with_reducible apply State.accept_keeps | split | dsimp only)

theorem execLinkTrainingStart_keeps {P : List Part} {s₀ : State} (a0 : Fin 36) (a1 : State) (h1 : Keeps P s₀ a1)
    (cmodule : Part.module ∈ P := by assumption) (cmemory : Part.memory ∈ P := by assumption)
    (ctiers : Part.tiers ∈ P := by assumption) (ckv : Part.kv ∈ P := by assumption)
    (clinks : Part.links ∈ P := by assumption) (chosts : Part.hosts ∈ P := by assumption)
    (cregs : Part.regs ∈ P := by assumption) (crel : Part.rel ∈ P := by assumption)
    (cfw : Part.fw ∈ P := by assumption) (cdraws : Part.draws ∈ P := by assumption)
    : ∀ u, execLinkTrainingStart a0 a1 = .next u → Keeps P s₀ u := by
  intro u e
  unfold execLinkTrainingStart at e
  (repeat' split at e) <;> cases e
  all_goals
  repeat' (first
      | with_reducible assumption | with_reducible apply State.setLink_keeps
      | with_reducible apply State.linkLeave_keeps | split | dsimp only)

theorem State.logDegraded_keeps {P : List Part} {s₀ : State} (a0 : State) (a1 : ℕ) (h0 : Keeps P s₀ a0)
    (chosts : Part.hosts ∈ P := by assumption) (cregs : Part.regs ∈ P := by assumption)
    (crel : Part.rel ∈ P := by assumption) (cfw : Part.fw ∈ P := by assumption) : Keeps P s₀
    (State.logDegraded a0 a1) := by
  unfold State.logDegraded
  repeat' (first
      | with_reducible assumption | with_reducible apply State.log_keeps)

theorem State.spareLane_keeps {P : List Part} {s₀ : State} (a0 : State) (a1 : ℕ) (a2 : Bool) (a3 : ℕ) (h0
    : Keeps P s₀ a0) (clinks : Part.links ∈ P := by assumption) (chosts : Part.hosts ∈ P := by assumption)
    (cregs : Part.regs ∈ P := by assumption) (crel : Part.rel ∈ P := by assumption)
    (cfw : Part.fw ∈ P := by assumption) : Keeps P s₀ (State.spareLane a0 a1 a2 a3) := by
  unfold State.spareLane
  repeat' (first
      | with_reducible assumption | with_reducible apply State.log_keeps | with_reducible apply State.setLink_keeps
      | with_reducible apply State.ownerEvent_keeps | with_reducible apply State.logDegraded_keeps | split
      | dsimp only)

theorem execLaneSpare_keeps {P : List Part} {s₀ : State} (a0 : Fin 36) (a1 : Fin 10) (a2 : LaneCause) (a3 : State) (h3
    : Keeps P s₀ a3) (clinks : Part.links ∈ P := by assumption) (chosts : Part.hosts ∈ P := by assumption)
    (cregs : Part.regs ∈ P := by assumption) (crel : Part.rel ∈ P := by assumption)
    (cfw : Part.fw ∈ P := by assumption) : ∀ u, execLaneSpare a0 a1 a2 a3 = .next u → Keeps P s₀ u := by
  intro u e
  unfold execLaneSpare at e
  (repeat' split at e) <;> cases e
  all_goals
  repeat' (first
      | with_reducible assumption | with_reducible apply State.spareLane_keeps
      | with_reducible apply State.addSat_keeps | split | dsimp only)

theorem execIdleBaton_keeps {P : List Part} {s₀ : State} (a0 : Fin 36) (a1 : BatonWord) (a2 : State) (h2
    : Keeps P s₀ a2) (cmodule : Part.module ∈ P := by assumption) (cmemory : Part.memory ∈ P := by assumption)
    (ctiers : Part.tiers ∈ P := by assumption) (ckv : Part.kv ∈ P := by assumption)
    (clinks : Part.links ∈ P := by assumption) (chosts : Part.hosts ∈ P := by assumption)
    (cregs : Part.regs ∈ P := by assumption) (crel : Part.rel ∈ P := by assumption)
    (cfw : Part.fw ∈ P := by assumption) (cdraws : Part.draws ∈ P := by assumption)
    : ∀ u, execIdleBaton a0 a1 a2 = .next u → Keeps P s₀ u := by
  intro u e
  unfold execIdleBaton at e
  refine (batonRow_keeps _ _ _ _ ?_) u e
  repeat' (first
      | with_reducible assumption | with_reducible apply State.checkReduces_keeps
      | with_reducible apply State.setLink_keeps | split | dsimp only)

theorem State.bulkEnd_keeps {P : List Part} {s₀ : State} (a0 : State) (a1 : (Bulk → Bool)) (a2 : ℕ) (h0
    : Keeps P s₀ a0) (cmodule : Part.module ∈ P := by assumption) (ckv : Part.kv ∈ P := by assumption)
    (clinks : Part.links ∈ P := by assumption) (chosts : Part.hosts ∈ P := by assumption)
    (cregs : Part.regs ∈ P := by assumption) (crel : Part.rel ∈ P := by assumption)
    (cfw : Part.fw ∈ P := by assumption) : Keeps P s₀ (State.bulkEnd a0 a1 a2) := by
  unfold State.bulkEnd
  repeat' (first
      | with_reducible assumption | with_reducible apply State.finish_keeps | split | dsimp only
      | (fail_if_no_progress with_reducible refine Keeps.free ?_ _ _ _ _ _ _ _ _ _ _ _ _ _))

theorem State.setLanding_keeps {P : List Part} {s₀ : State} (a0 : State) (a1 : ℕ) (a2 : ℕ) (a3 : Landing) (h0
    : Keeps P s₀ a0) (clinks : Part.links ∈ P := by assumption) : Keeps P s₀ (State.setLanding a0 a1 a2 a3) := by
  unfold State.setLanding
  repeat' (first
      | with_reducible assumption | dsimp only
      | (fail_if_no_progress with_reducible refine Keeps.free ?_ _ _ _ _ _ _ _ _ _ _ _ _ _))

theorem State.trainFail_keeps {P : List Part} {s₀ : State} (a0 : State) (a1 : ℕ) (h0 : Keeps P s₀ a0)
    (cmodule : Part.module ∈ P := by assumption) (cmemory : Part.memory ∈ P := by assumption)
    (ctiers : Part.tiers ∈ P := by assumption) (ckv : Part.kv ∈ P := by assumption)
    (clinks : Part.links ∈ P := by assumption) (chosts : Part.hosts ∈ P := by assumption)
    (cregs : Part.regs ∈ P := by assumption) (crel : Part.rel ∈ P := by assumption)
    (cfw : Part.fw ∈ P := by assumption) (cdraws : Part.draws ∈ P := by assumption) : Keeps P s₀
    (State.trainFail a0 a1) := by
  unfold State.trainFail
  repeat' (first
      | with_reducible assumption | with_reducible apply State.linkDown_keeps
      | with_reducible apply State.setLink_keeps | split | dsimp only)

theorem seqRow_keeps {P : List Part} {s₀ : State} (a0 : String) (a1 : ℕ) (a2 : ℕ) (a3 : BatonWord) (a4 : State) (a5 :
    (State → State)) (h4 : Keeps P s₀ a4) (h5 : ∀ (u0 : State), Keeps P s₀ u0 → Keeps P s₀ (a5 u0))
    (cmodule : Part.module ∈ P := by assumption) (cmemory : Part.memory ∈ P := by assumption)
    (ctiers : Part.tiers ∈ P := by assumption) (ckv : Part.kv ∈ P := by assumption)
    (clinks : Part.links ∈ P := by assumption) (chosts : Part.hosts ∈ P := by assumption)
    (cregs : Part.regs ∈ P := by assumption) (crel : Part.rel ∈ P := by assumption)
    (cfw : Part.fw ∈ P := by assumption) (cdraws : Part.draws ∈ P := by assumption)
    : ∀ u, seqRow a0 a1 a2 a3 a4 a5 = .next u → Keeps P s₀ u := by
  intro u e
  unfold seqRow at e
  refine (batonRow_keeps _ _ _ _ ?_) u e
  have h := State.accept_keeps a4 a2 a3 h4
  generalize a4.accept a2 a3 = p at h ⊢
  obtain ⟨t, ok⟩ := p
  dsimp only
  split
  · exact h5 _ h
  · exact h

theorem execDoneBaton_keeps {P : List Part} {s₀ : State} (a0 : Fin 36) (a1 : BatonWord) (a2 : State) (h2
    : Keeps P s₀ a2) (cmodule : Part.module ∈ P := by assumption) (cmemory : Part.memory ∈ P := by assumption)
    (ctiers : Part.tiers ∈ P := by assumption) (ckv : Part.kv ∈ P := by assumption)
    (clinks : Part.links ∈ P := by assumption) (chosts : Part.hosts ∈ P := by assumption)
    (cregs : Part.regs ∈ P := by assumption) (crel : Part.rel ∈ P := by assumption)
    (cfw : Part.fw ∈ P := by assumption) (cdraws : Part.draws ∈ P := by assumption)
    : ∀ u, execDoneBaton a0 a1 a2 = .next u → Keeps P s₀ u := by
  intro u e
  unfold execDoneBaton at e
  refine (seqRow_keeps _ _ _ _ _ _ (by assumption) ?_) u e
  repeat' (first
      | with_reducible assumption | with_reducible apply State.forward_keeps
      | with_reducible apply State.bulkEnd_keeps | split | intro _)

theorem execLinkRetrain_keeps {P : List Part} {s₀ : State} (a0 : Fin 36) (a1 : State) (h1 : Keeps P s₀ a1)
    (cmodule : Part.module ∈ P := by assumption) (cmemory : Part.memory ∈ P := by assumption)
    (ctiers : Part.tiers ∈ P := by assumption) (ckv : Part.kv ∈ P := by assumption)
    (clinks : Part.links ∈ P := by assumption) (chosts : Part.hosts ∈ P := by assumption)
    (cregs : Part.regs ∈ P := by assumption) (crel : Part.rel ∈ P := by assumption)
    (cfw : Part.fw ∈ P := by assumption) (cdraws : Part.draws ∈ P := by assumption)
    : ∀ u, execLinkRetrain a0 a1 = .next u → Keeps P s₀ u := by
  intro u e
  unfold execLinkRetrain at e
  (repeat' split at e) <;> cases e
  all_goals
  repeat' (first
      | with_reducible assumption | with_reducible apply State.linkRetrain_keeps)

theorem execMgmtBaton_keeps {P : List Part} {s₀ : State} (a0 : Fin 36) (a1 : BatonWord) (a2 : State) (h2
    : Keeps P s₀ a2) (cmodule : Part.module ∈ P := by assumption) (cmemory : Part.memory ∈ P := by assumption)
    (ctiers : Part.tiers ∈ P := by assumption) (ckv : Part.kv ∈ P := by assumption)
    (clinks : Part.links ∈ P := by assumption) (chosts : Part.hosts ∈ P := by assumption)
    (cregs : Part.regs ∈ P := by assumption) (crel : Part.rel ∈ P := by assumption)
    (cfw : Part.fw ∈ P := by assumption) (cdraws : Part.draws ∈ P := by assumption)
    : ∀ u, execMgmtBaton a0 a1 a2 = .next u → Keeps P s₀ u := by
  intro u e
  unfold execMgmtBaton at e
  refine (seqRow_keeps _ _ _ _ _ _ (by assumption) ?_) u e
  repeat' (first
      | with_reducible assumption | with_reducible apply State.forward_keeps | split | intro _ | dsimp only
      | (fail_if_no_progress with_reducible refine Keeps.free ?_ _ _ _ _ _ _ _ _ _ _ _ _ _))

theorem State.trainDone_keeps {P : List Part} {s₀ : State} (a0 : State) (a1 : ℕ) (a2 : List ℕ) (a3 : List ℕ) (a4 : ℕ)
    (a5 : ℕ) (h0 : Keeps P s₀ a0) (clinks : Part.links ∈ P := by assumption)
    (chosts : Part.hosts ∈ P := by assumption) (cregs : Part.regs ∈ P := by assumption)
    (crel : Part.rel ∈ P := by assumption) (cfw : Part.fw ∈ P := by assumption) : Keeps P s₀
    (State.trainDone a0 a1 a2 a3 a4 a5) := by
  unfold State.trainDone
  repeat' (first
      | with_reducible assumption | with_reducible apply State.setLink_keeps
      | with_reducible apply State.logDegraded_keeps | split | dsimp only)

theorem execLinkTrainingEnd_keeps {P : List Part} {s₀ : State} (a0 : Fin 36) (a1 : BitVec 10) (a2 : BitVec 10)
    (a3 : BitVec 12) (a4 : Fin 36) (a5 : State) (h5 : Keeps P s₀ a5) (cmodule : Part.module ∈ P := by assumption)
    (cmemory : Part.memory ∈ P := by assumption) (ctiers : Part.tiers ∈ P := by assumption)
    (ckv : Part.kv ∈ P := by assumption) (clinks : Part.links ∈ P := by assumption)
    (chosts : Part.hosts ∈ P := by assumption) (cregs : Part.regs ∈ P := by assumption)
    (crel : Part.rel ∈ P := by assumption) (cfw : Part.fw ∈ P := by assumption)
    (cdraws : Part.draws ∈ P := by assumption)
    : ∀ u, execLinkTrainingEnd a0 a1 a2 a3 a4 a5 = .next u → Keeps P s₀ u := by
  intro u e
  unfold execLinkTrainingEnd at e
  (repeat' split at e) <;> cases e
  all_goals
  repeat' (first
      | with_reducible assumption | with_reducible apply State.trainFail_keeps
      | with_reducible apply State.linkDown_keeps | with_reducible apply State.trainDone_keeps | split | dsimp only)

theorem State.landHavoc_keeps {P : List Part} {s₀ : State} (a0 : State) (a1 : ℕ) (a2 : ℕ) (h0 : Keeps P s₀ a0)
    (cmemory : Part.memory ∈ P := by assumption) (ctiers : Part.tiers ∈ P := by assumption)
    (ckv : Part.kv ∈ P := by assumption) (cdraws : Part.draws ∈ P := by assumption) : Keeps P s₀
    (State.landHavoc a0 a1 a2) := by
  unfold State.landHavoc
  repeat' (first
      | with_reducible assumption | with_reducible apply State.cvaHavoc_keeps | split | dsimp only)

theorem State.landStart_keeps {P : List Part} {s₀ : State} (a0 : State) (a1 : BatonWord) (h0 : Keeps P s₀ a0)
    (cmemory : Part.memory ∈ P := by assumption) (ctiers : Part.tiers ∈ P := by assumption)
    (ckv : Part.kv ∈ P := by assumption) (clinks : Part.links ∈ P := by assumption)
    (cdraws : Part.draws ∈ P := by assumption) : Keeps P s₀ (State.landStart a0 a1) := by
  unfold State.landStart
  repeat' (first
      | with_reducible assumption | with_reducible apply State.setLanding_keeps
      | with_reducible apply State.landHavoc_keeps | split | dsimp only)

theorem State.sendDone_keeps {P : List Part} {s₀ : State} (a0 : State) (a1 : ℕ) (a2 : ℕ) (a3 : ℕ) (a4 : ℕ) (h0
    : Keeps P s₀ a0) (clinks : Part.links ∈ P := by assumption) (cregs : Part.regs ∈ P := by assumption) : Keeps P s₀
    (State.sendDone a0 a1 a2 a3 a4) := by
  unfold State.sendDone
  repeat' (first
      | with_reducible assumption | with_reducible apply State.routeReply_keeps | split | dsimp only
      | (fail_if_no_progress with_reducible refine Keeps.free ?_ _ _ _ _ _ _ _ _ _ _ _ _ _))

theorem State.bulkHere_keeps {P : List Part} {s₀ : State} (a0 : State) (a1 : BatonWord) (h0 : Keeps P s₀ a0)
    (cmemory : Part.memory ∈ P := by assumption) (ctiers : Part.tiers ∈ P := by assumption)
    (ckv : Part.kv ∈ P := by assumption) (clinks : Part.links ∈ P := by assumption)
    (cregs : Part.regs ∈ P := by assumption) (cdraws : Part.draws ∈ P := by assumption) : Keeps P s₀
    (State.bulkHere a0 a1) := by
  unfold State.bulkHere
  repeat' (first
      | with_reducible assumption | with_reducible apply State.landStart_keeps
      | with_reducible apply State.addSat_keeps | with_reducible apply State.setLanding_keeps
      | with_reducible apply State.landHavoc_keeps | with_reducible apply State.sendDone_keeps
      | with_reducible apply State.land_keeps
      | (with_reducible refine Keeps.ofFst (by with_reducible assumption) ?_) | split | dsimp only)

theorem execBulkBaton_keeps {P : List Part} {s₀ : State} (a0 : Fin 36) (a1 : BatonWord) (a2 : State) (h2
    : Keeps P s₀ a2) (cmodule : Part.module ∈ P := by assumption) (cmemory : Part.memory ∈ P := by assumption)
    (ctiers : Part.tiers ∈ P := by assumption) (ckv : Part.kv ∈ P := by assumption)
    (clinks : Part.links ∈ P := by assumption) (chosts : Part.hosts ∈ P := by assumption)
    (cregs : Part.regs ∈ P := by assumption) (crel : Part.rel ∈ P := by assumption)
    (cfw : Part.fw ∈ P := by assumption) (cdraws : Part.draws ∈ P := by assumption)
    : ∀ u, execBulkBaton a0 a1 a2 = .next u → Keeps P s₀ u := by
  intro u e
  unfold execBulkBaton at e
  refine (seqRow_keeps _ _ _ _ _ _ (by assumption) ?_) u e
  repeat' (first
      | with_reducible assumption | with_reducible apply State.bulkHere_keeps
      | with_reducible apply State.forward_keeps | split | intro _)

theorem execUnreachBaton_keeps {P : List Part} {s₀ : State} (a0 : Fin 36) (a1 : BatonWord) (a2 : State) (h2
    : Keeps P s₀ a2) (cmodule : Part.module ∈ P := by assumption) (cmemory : Part.memory ∈ P := by assumption)
    (ctiers : Part.tiers ∈ P := by assumption) (ckv : Part.kv ∈ P := by assumption)
    (clinks : Part.links ∈ P := by assumption) (chosts : Part.hosts ∈ P := by assumption)
    (cregs : Part.regs ∈ P := by assumption) (crel : Part.rel ∈ P := by assumption)
    (cfw : Part.fw ∈ P := by assumption) (cdraws : Part.draws ∈ P := by assumption)
    : ∀ u, execUnreachBaton a0 a1 a2 = .next u → Keeps P s₀ u := by
  intro u e
  unfold execUnreachBaton at e
  refine (seqRow_keeps _ _ _ _ _ _ (by assumption) ?_) u e
  repeat' (first
      | with_reducible assumption | with_reducible apply State.forward_keeps
      | with_reducible apply State.bulkEnd_keeps | split | intro _)

theorem execReplayTimeout_keeps {P : List Part} {s₀ : State} (a0 : Fin 36) (a1 : State) (h1 : Keeps P s₀ a1)
    (clinks : Part.links ∈ P := by assumption) : ∀ u, execReplayTimeout a0 a1 = .next u → Keeps P s₀ u := by
  intro u e
  unfold execReplayTimeout at e
  (repeat' split at e) <;> cases e
  all_goals
  repeat' (first
      | with_reducible assumption | with_reducible apply State.setLink_keeps | split | dsimp only)

theorem execLinkTrainingRetry_keeps {P : List Part} {s₀ : State} (a0 : Fin 36) (a1 : State) (h1 : Keeps P s₀ a1)
    (clinks : Part.links ∈ P := by assumption) : ∀ u, execLinkTrainingRetry a0 a1 = .next u → Keeps P s₀ u := by
  intro u e
  unfold execLinkTrainingRetry at e
  (repeat' split at e) <;> cases e
  all_goals
  repeat' (first
      | with_reducible assumption | with_reducible apply State.setLink_keeps | split | dsimp only)

theorem execLkErrClear_keeps {P : List Part} {s₀ : State} (a0 : Writer) (a1 : Fin 36) (a2 : Word) (a3 : State) (h3
    : Keeps P s₀ a3) (cregs : Part.regs ∈ P := by assumption)
    : ∀ u, execLkErrClear a0 a1 a2 a3 = .next u → Keeps P s₀ u := by
  intro u e
  unfold execLkErrClear at e
  (repeat' split at e) <;> cases e
  all_goals
  repeat' (first
      | with_reducible assumption | with_reducible apply State.guarded_keeps
      | with_reducible apply State.setReg_keeps | with_reducible apply Keeps.foldl | intro _)

theorem State.collRun_keeps {P : List Part} {s₀ : State} (a0 : State) (a1 : ℕ) (a2 : ℕ) (a3 :
    (State → CmdId → Cmd → State)) (h0 : Keeps P s₀ a0) (h3 : ∀ (u0 : State) (u1 : CmdId)
    (u2 : Cmd), Keeps P s₀ u0 → Keeps P s₀ (a3 u0 u1 u2)) (cmodule : Part.module ∈ P := by assumption)
    (ckv : Part.kv ∈ P := by assumption) (chosts : Part.hosts ∈ P := by assumption)
    (cregs : Part.regs ∈ P := by assumption) (crel : Part.rel ∈ P := by assumption)
    (cfw : Part.fw ∈ P := by assumption) : Keeps P s₀ (State.collRun a0 a1 a2 a3) := by
  unfold State.collRun
  repeat' (first
      | with_reducible assumption | with_reducible apply h3 | with_reducible apply State.issueHead_keeps
      | with_reducible apply State.finish_keeps | split | intro _)

theorem State.formStep_keeps {P : List Part} {s₀ : State} (a0 : State) (a1 : ℕ) (a2 : ℕ) (h0 : Keeps P s₀ a0)
    (cmodule : Part.module ∈ P := by assumption) (ckv : Part.kv ∈ P := by assumption)
    (clinks : Part.links ∈ P := by assumption) (chosts : Part.hosts ∈ P := by assumption)
    (cregs : Part.regs ∈ P := by assumption) (crel : Part.rel ∈ P := by assumption)
    (cfw : Part.fw ∈ P := by assumption) : Keeps P s₀ (State.formStep a0 a1 a2) := by
  unfold State.formStep
  repeat' (first
      | with_reducible assumption | with_reducible apply State.control_keeps
      | with_reducible apply State.setGroup_keeps | with_reducible apply State.finish_keeps
      | with_reducible apply Keeps.foldl | split | intro _ | dsimp only)

theorem State.startForm_keeps {P : List Part} {s₀ : State} (a0 : State) (a1 : CmdId) (a2 : ℕ) (a3 : ℕ) (a4 : ℕ)
    (a5 : List Member) (a6 : ℕ) (a7 : List (ℕ × ℕ)) (a8 : ℕ) (a9 : ℕ) (a10 : List Byte) (h0 : Keeps P s₀ a0)
    (cmodule : Part.module ∈ P := by assumption) (ckv : Part.kv ∈ P := by assumption)
    (clinks : Part.links ∈ P := by assumption) (chosts : Part.hosts ∈ P := by assumption)
    (cregs : Part.regs ∈ P := by assumption) (crel : Part.rel ∈ P := by assumption)
    (cfw : Part.fw ∈ P := by assumption) : Keeps P s₀ (State.startForm a0 a1 a2 a3 a4 a5 a6 a7 a8 a9 a10) := by
  unfold State.startForm
  repeat' (first
      | with_reducible assumption | with_reducible apply State.formStep_keeps
      | with_reducible apply State.setGroup_keeps | dsimp only
      | (fail_if_no_progress with_reducible refine Keeps.free ?_ _ _ _ _ _ _ _ _ _ _ _ _ _))

theorem State.formRun_keeps {P : List Part} {s₀ : State} (a0 : Bool) (a1 : State) (a2 : CmdId) (a3 : Cmd) (h1
    : Keeps P s₀ a1) (cmodule : Part.module ∈ P := by assumption) (ckv : Part.kv ∈ P := by assumption)
    (clinks : Part.links ∈ P := by assumption) (chosts : Part.hosts ∈ P := by assumption)
    (cregs : Part.regs ∈ P := by assumption) (crel : Part.rel ∈ P := by assumption)
    (cfw : Part.fw ∈ P := by assumption) : Keeps P s₀ (State.formRun a0 a1 a2 a3) := by
  unfold State.formRun
  dsimp only
  with_reducible apply Keeps.ite
  · exact State.finish_keeps _ _ _ _ h1
  with_reducible apply Keeps.ite
  · exact State.finish_keeps _ _ _ _ h1
  generalize State.cvaRead _ _ _ 64 = r
  obtain ⟨st, head⟩ := r
  dsimp only
  generalize State.cvaRead _ _ _ _ = r2
  obtain ⟨st2, body⟩ := r2
  dsimp only
  with_reducible apply Keeps.ite
  · exact State.finish_keeps _ _ _ _ h1
  with_reducible apply Keeps.ite
  · exact State.finish_keeps _ _ _ _ h1
  with_reducible apply Keeps.ite
  · exact State.consumePoison_keeps _ _ h1
  with_reducible apply Keeps.ite
  · exact State.finish_keeps _ _ _ _ h1
  with_reducible apply Keeps.ite
  · exact State.finish_keeps _ _ _ _ h1
  generalize State.treePlace _ _ = r3
  rcases r3 with _ | ⟨self, kids⟩
  · exact State.finish_keeps _ _ _ _ h1
  dsimp only
  with_reducible apply Keeps.ite
  · exact State.finish_keeps _ _ _ _ h1
  with_reducible apply Keeps.ite
  · exact State.finish_keeps _ _ _ _ h1
  with_reducible apply Keeps.ite
  · exact State.finish_keeps _ _ _ _ h1
  refine State.startForm_keeps _ _ _ _ _ _ _ _ _ _ _ ?_
  with_reducible apply Keeps.ite
  · exact State.returnStaging_keeps _ _ _ (State.unbindGroup_keeps _ _ _ h1)
  · exact h1

theorem execReform_keeps {P : List Part} {s₀ : State} (a0 : Fin 16) (a1 : State) (h1 : Keeps P s₀ a1)
    (cmodule : Part.module ∈ P := by assumption) (ckv : Part.kv ∈ P := by assumption)
    (clinks : Part.links ∈ P := by assumption) (chosts : Part.hosts ∈ P := by assumption)
    (cregs : Part.regs ∈ P := by assumption) (crel : Part.rel ∈ P := by assumption)
    (cfw : Part.fw ∈ P := by assumption) : ∀ u, execReform a0 a1 = .next u → Keeps P s₀ u := by
  intro u e
  unfold execReform at e
  (repeat' split at e) <;> cases e
  all_goals
  repeat' (first
      | with_reducible assumption | with_reducible apply State.collRun_keeps
      | with_reducible apply State.formRun_keeps | intro _)

theorem execForm_keeps {P : List Part} {s₀ : State} (a0 : Fin 16) (a1 : State) (h1 : Keeps P s₀ a1)
    (cmodule : Part.module ∈ P := by assumption) (ckv : Part.kv ∈ P := by assumption)
    (clinks : Part.links ∈ P := by assumption) (chosts : Part.hosts ∈ P := by assumption)
    (cregs : Part.regs ∈ P := by assumption) (crel : Part.rel ∈ P := by assumption)
    (cfw : Part.fw ∈ P := by assumption) : ∀ u, execForm a0 a1 = .next u → Keeps P s₀ u := by
  intro u e
  unfold execForm at e
  (repeat' split at e) <;> cases e
  all_goals
  repeat' (first
      | with_reducible assumption | with_reducible apply State.collRun_keeps
      | with_reducible apply State.formRun_keeps | intro _)

theorem State.goDown_keeps {P : List Part} {s₀ : State} (a0 : State) (a1 : ℕ) (a2 : ℕ) (a3 : ℕ) (h0 : Keeps P s₀ a0)
    (cmodule : Part.module ∈ P := by assumption) (ckv : Part.kv ∈ P := by assumption)
    (clinks : Part.links ∈ P := by assumption) (chosts : Part.hosts ∈ P := by assumption)
    (cregs : Part.regs ∈ P := by assumption) (crel : Part.rel ∈ P := by assumption)
    (cfw : Part.fw ∈ P := by assumption) : Keeps P s₀ (State.goDown a0 a1 a2 a3) := by
  unfold State.goDown
  repeat' (first
      | with_reducible assumption | with_reducible apply State.control_keeps
      | with_reducible apply State.setGroup_keeps | with_reducible apply State.finish_keeps
      | with_reducible apply Keeps.foldl | split | intro _ | dsimp only)

theorem State.takeWindow_keeps {P : List Part} {s₀ : State} (a0 : State) (a1 : ℕ) (a2 : ℕ) (a3 : Line) (a4 : Message)
    (h0 : Keeps P s₀ a0) (ctiers : Part.tiers ∈ P := by assumption) (clinks : Part.links ∈ P := by assumption)
    (chosts : Part.hosts ∈ P := by assumption) : Keeps P s₀ (State.takeWindow a0 a1 a2 a3 a4) := by
  unfold State.takeWindow
  repeat' (first
      | with_reducible assumption | with_reducible apply State.modMsg_keeps
      | with_reducible apply State.collNote_keeps | split | dsimp only)

theorem State.stale_keeps {P : List Part} {s₀ : State} (a0 : State) (h0 : Keeps P s₀ a0)
    (cregs : Part.regs ∈ P := by assumption) : Keeps P s₀ (State.stale a0) := by
  unfold State.stale
  repeat' (first
      | with_reducible assumption | with_reducible apply State.addSat_keeps)

theorem State.treeBaton_keeps {P : List Part} {s₀ : State} (a0 : State) (a1 : ℕ) (a2 : ℕ) (a3 : BatonWord) (a4 :
    (ℕ → ℕ → ℕ → State)) (h0 : Keeps P s₀ a0) (h4 : ∀ (u0 : ℕ) (u1 : ℕ) (u2 : ℕ), Keeps P s₀ (a4 u0 u1 u2))
    (cregs : Part.regs ∈ P := by assumption) : Keeps P s₀ (State.treeBaton a0 a1 a2 a3 a4) := by
  unfold State.treeBaton
  repeat' (first
      | with_reducible assumption | with_reducible apply h4 | with_reducible apply State.stale_keeps | split)

theorem State.keepEarly_keeps {P : List Part} {s₀ : State} (a0 : State) (a1 : ℕ) (a2 : ℕ) (a3 : ℕ) (a4 : ℕ)
    (a5 : BatonWord) (h0 : Keeps P s₀ a0) (clinks : Part.links ∈ P := by assumption) : Keeps P s₀
    (State.keepEarly a0 a1 a2 a3 a4 a5) := by
  unfold State.keepEarly
  repeat' (first
      | with_reducible assumption | with_reducible apply State.setGroup_keeps)

theorem execReduceBaton_keeps {P : List Part} {s₀ : State} (a0 : Fin 36) (a1 : BatonWord) (a2 : State) (h2
    : Keeps P s₀ a2) (cmodule : Part.module ∈ P := by assumption) (cmemory : Part.memory ∈ P := by assumption)
    (ctiers : Part.tiers ∈ P := by assumption) (ckv : Part.kv ∈ P := by assumption)
    (clinks : Part.links ∈ P := by assumption) (chosts : Part.hosts ∈ P := by assumption)
    (cregs : Part.regs ∈ P := by assumption) (crel : Part.rel ∈ P := by assumption)
    (cfw : Part.fw ∈ P := by assumption) (cdraws : Part.draws ∈ P := by assumption)
    : ∀ u, execReduceBaton a0 a1 a2 = .next u → Keeps P s₀ u := by
  intro u e
  unfold execReduceBaton at e
  refine (seqRow_keeps _ _ _ _ _ _ (by assumption) ?_) u e
  repeat' (first
      | with_reducible assumption | with_reducible apply State.treeBaton_keeps
      | with_reducible apply State.abortGroup_keeps | with_reducible apply State.modMsg_keeps
      | with_reducible apply State.keepEarly_keeps | split | intro _ | dsimp only)

theorem State.startMessage_keeps {P : List Part} {s₀ : State} (a0 : State) (a1 : CmdId) (a2 : Cmd) (h0
    : Keeps P s₀ a0) (clinks : Part.links ∈ P := by assumption) (chosts : Part.hosts ∈ P := by assumption)
    : Keeps P s₀ (State.startMessage a0 a1 a2).1 := by
  unfold State.startMessage
  repeat' (first
      | with_reducible assumption | with_reducible apply State.setGroup_keeps
      | with_reducible apply State.modCmd_keeps)

theorem State.writeSums_keeps {P : List Part} {s₀ : State} (a0 : State) (a1 : CmdId) (a2 : Line) (a3 : ℕ)
    (a4 : List ℕ) (h0 : Keeps P s₀ a0) (cmemory : Part.memory ∈ P := by assumption)
    (ctiers : Part.tiers ∈ P := by assumption) (ckv : Part.kv ∈ P := by assumption) : Keeps P s₀
    (State.writeSums a0 a1 a2 a3 a4).1 := by
  unfold State.writeSums
  repeat' (first
      | with_reducible assumption | with_reducible apply State.infWrite_keeps
      | with_reducible apply State.cvaWrite_keeps | split)

theorem State.keepSum_keeps {P : List Part} {s₀ : State} (a0 : State) (a1 : ℕ) (a2 : ℕ) (a3 : Line) (a4 : Message)
    (a5 : ℕ) (a6 : List ℕ) (h0 : Keeps P s₀ a0) (cmodule : Part.module ∈ P := by assumption)
    (cmemory : Part.memory ∈ P := by assumption) (ctiers : Part.tiers ∈ P := by assumption)
    (ckv : Part.kv ∈ P := by assumption) (clinks : Part.links ∈ P := by assumption)
    (chosts : Part.hosts ∈ P := by assumption) (cregs : Part.regs ∈ P := by assumption)
    (crel : Part.rel ∈ P := by assumption) (cfw : Part.fw ∈ P := by assumption)
    (cdraws : Part.draws ∈ P := by assumption) : Keeps P s₀ (State.keepSum a0 a1 a2 a3 a4 a5 a6) := by
  unfold State.keepSum
  repeat' (first
      | with_reducible assumption | with_reducible apply State.failCmd_keeps
      | with_reducible apply State.modMsg_keeps | with_reducible apply State.workDone_keeps
      | with_reducible apply State.modCmd_keeps | with_reducible apply State.writeSums_keeps | split | dsimp only)

theorem State.noteSplit_keeps {P : List Part} {s₀ : State} (a0 : State) (a1 : ℕ) (a2 : ℕ) (a3 : ℕ) (a4 : ℕ) (a5 : ℕ)
    (a6 : List ℕ) (h0 : Keeps P s₀ a0) (clinks : Part.links ∈ P := by assumption) : Keeps P s₀
    (State.noteSplit a0 a1 a2 a3 a4 a5 a6) := by
  unfold State.noteSplit
  repeat' (first
      | with_reducible assumption | with_reducible apply State.modMsg_keeps
      | with_reducible apply State.setGroup_keeps)

theorem State.countChunk_keeps {P : List Part} {s₀ : State} (a0 : State) (a1 : ℕ) (a2 : ℕ) (a3 : ℕ) (a4 : ℕ)
    (a5 : Bool) (h0 : Keeps P s₀ a0) (ctiles : Part.tiles ∈ P := by assumption) : Keeps P s₀
    (State.countChunk a0 a1 a2 a3 a4 a5) := by
  unfold State.countChunk
  repeat' (first
      | with_reducible assumption | split | dsimp only
      | (fail_if_no_progress with_reducible refine Keeps.free ?_ _ _ _ _ _ _ _ _ _ _ _ _ _))

theorem State.castLand_keeps {P : List Part} {s₀ : State} (a0 : State) (a1 : ℕ) (a2 : BatonWord) (h0 : Keeps P s₀ a0)
    (ctiles : Part.tiles ∈ P := by assumption) (cmemory : Part.memory ∈ P := by assumption)
    : ∀ u, State.castLand a0 a1 a2 = some u → Keeps P s₀ u := by
  intro u e
  unfold State.castLand at e
  try dsimp only at e
  (repeat' split at e) <;> cases e
  all_goals
  repeat' (first
      | with_reducible assumption | with_reducible apply State.infWrite_keeps
      | with_reducible apply State.countChunk_keeps | with_reducible apply Keeps.foldl | intro _)
theorem State.castLand_keepsE {P : List Part} {s₀ t : State} {a0 : State} {a1 : ℕ} {a2 : BatonWord}
    (e : State.castLand a0 a1 a2 = some t) (h0 : Keeps P s₀ a0) (ctiles : Part.tiles ∈ P := by assumption)
    (cmemory : Part.memory ∈ P := by assumption) : Keeps P s₀ t := (State.castLand_keeps a0 a1 a2 h0) _ e

theorem State.castStep_keeps {P : List Part} {s₀ : State} (a0 : State) (a1 : ℕ) (a2 : ℕ) (a3 : ℕ) (h0 : Keeps P s₀ a0)
    (cmodule : Part.module ∈ P := by assumption) (cmemory : Part.memory ∈ P := by assumption)
    (ctiers : Part.tiers ∈ P := by assumption) (ckv : Part.kv ∈ P := by assumption)
    (clinks : Part.links ∈ P := by assumption) (chosts : Part.hosts ∈ P := by assumption)
    (cregs : Part.regs ∈ P := by assumption) (crel : Part.rel ∈ P := by assumption)
    (cfw : Part.fw ∈ P := by assumption) (cdraws : Part.draws ∈ P := by assumption) : Keeps P s₀
    (State.castStep a0 a1 a2 a3) := by
  unfold State.castStep
  repeat' (first
      | with_reducible assumption | with_reducible apply State.modMsg_keeps
      | with_reducible apply State.control_keeps | with_reducible apply State.finish_keeps
      | with_reducible apply State.endMessage_keeps | split | dsimp only)

theorem State.castArrive_keeps {P : List Part} {s₀ : State} (a0 : State) (a1 : ℕ) (a2 : ℕ) (a3 : ℕ) (a4 : ℕ) (a5 : ℕ)
    (a6 : BatonWord) (h0 : Keeps P s₀ a0) (cmodule : Part.module ∈ P := by assumption)
    (ctiles : Part.tiles ∈ P := by assumption) (cmemory : Part.memory ∈ P := by assumption)
    (ctiers : Part.tiers ∈ P := by assumption) (ckv : Part.kv ∈ P := by assumption)
    (clinks : Part.links ∈ P := by assumption) (chosts : Part.hosts ∈ P := by assumption)
    (cregs : Part.regs ∈ P := by assumption) (crel : Part.rel ∈ P := by assumption)
    (cfw : Part.fw ∈ P := by assumption) (cdraws : Part.draws ∈ P := by assumption) : Keeps P s₀
    (State.castArrive a0 a1 a2 a3 a4 a5 a6) := by
  unfold State.castArrive
  repeat' (first
      | with_reducible assumption | with_reducible apply State.abortGroup_keeps
      | with_reducible apply State.sendOn_keeps | with_reducible apply State.castStep_keeps
      | with_reducible apply State.modMsg_keeps | with_reducible apply State.keepEarly_keeps
      | (with_reducible refine State.castLand_keepsE (by with_reducible assumption) ?_)
      | with_reducible apply Keeps.foldl | split | intro _ | dsimp only)

theorem State.formUp_keeps {P : List Part} {s₀ : State} (a0 : State) (a1 : ℕ) (a2 : ℕ) (a3 : ℕ) (a4 : BatonWord) (h0
    : Keeps P s₀ a0) (cmodule : Part.module ∈ P := by assumption) (cmemory : Part.memory ∈ P := by assumption)
    (ctiers : Part.tiers ∈ P := by assumption) (ckv : Part.kv ∈ P := by assumption)
    (clinks : Part.links ∈ P := by assumption) (chosts : Part.hosts ∈ P := by assumption)
    (cregs : Part.regs ∈ P := by assumption) (crel : Part.rel ∈ P := by assumption)
    (cfw : Part.fw ∈ P := by assumption) (cdraws : Part.draws ∈ P := by assumption) : Keeps P s₀
    (State.formUp a0 a1 a2 a3 a4) := by
  unfold State.formUp
  repeat' (first
      | with_reducible assumption | with_reducible apply State.abortGroup_keeps
      | with_reducible apply State.formStep_keeps | with_reducible apply State.setGroup_keeps | split | dsimp only)

theorem State.ackUp_keeps {P : List Part} {s₀ : State} (a0 : State) (a1 : ℕ) (a2 : ℕ) (a3 : ℕ) (a4 : BatonWord) (h0
    : Keeps P s₀ a0) (cmodule : Part.module ∈ P := by assumption) (cmemory : Part.memory ∈ P := by assumption)
    (ctiers : Part.tiers ∈ P := by assumption) (ckv : Part.kv ∈ P := by assumption)
    (clinks : Part.links ∈ P := by assumption) (chosts : Part.hosts ∈ P := by assumption)
    (cregs : Part.regs ∈ P := by assumption) (crel : Part.rel ∈ P := by assumption)
    (cfw : Part.fw ∈ P := by assumption) (cdraws : Part.draws ∈ P := by assumption) : Keeps P s₀
    (State.ackUp a0 a1 a2 a3 a4) := by
  unfold State.ackUp
  repeat' (first
      | with_reducible assumption | with_reducible apply State.abortGroup_keeps
      | with_reducible apply State.castStep_keeps | with_reducible apply State.modMsg_keeps
      | with_reducible apply State.keepEarly_keeps | split)

theorem execSprintBaton_keeps {P : List Part} {s₀ : State} (a0 : Fin 36) (a1 : BatonWord) (a2 : State) (h2
    : Keeps P s₀ a2) (cmodule : Part.module ∈ P := by assumption) (ctiles : Part.tiles ∈ P := by assumption)
    (cmemory : Part.memory ∈ P := by assumption) (ctiers : Part.tiers ∈ P := by assumption)
    (ckv : Part.kv ∈ P := by assumption) (clinks : Part.links ∈ P := by assumption)
    (chosts : Part.hosts ∈ P := by assumption) (cregs : Part.regs ∈ P := by assumption)
    (crel : Part.rel ∈ P := by assumption) (cfw : Part.fw ∈ P := by assumption)
    (cdraws : Part.draws ∈ P := by assumption) : ∀ u, execSprintBaton a0 a1 a2 = .next u → Keeps P s₀ u := by
  intro u e
  unfold execSprintBaton at e
  refine (seqRow_keeps _ _ _ _ _ _ (by assumption) ?_) u e
  repeat' (first
      | with_reducible assumption | with_reducible apply State.treeBaton_keeps
      | with_reducible apply State.castArrive_keeps | with_reducible apply State.formUp_keeps
      | with_reducible apply State.goDown_keeps | with_reducible apply State.ackUp_keeps
      | with_reducible apply State.breakGroup_keeps | split | intro _)

theorem State.collIssue_keeps {P : List Part} {s₀ : State} (a0 : State) (a1 : CmdId) (a2 : Cmd) (a3 :
    (State → ℕ → Message → Line → State)) (h0 : Keeps P s₀ a0) (h3 : ∀ (u0 : State) (u1 : ℕ) (u2 : Message)
    (u3 : Line), Keeps P s₀ u0 → Keeps P s₀ (a3 u0 u1 u2 u3)) (cmodule : Part.module ∈ P := by assumption)
    (ckv : Part.kv ∈ P := by assumption) (clinks : Part.links ∈ P := by assumption)
    (chosts : Part.hosts ∈ P := by assumption) (cregs : Part.regs ∈ P := by assumption)
    (crel : Part.rel ∈ P := by assumption) (cfw : Part.fw ∈ P := by assumption) : Keeps P s₀
    (State.collIssue a0 a1 a2 a3) := by
  unfold State.collIssue
  repeat' (first
      | with_reducible assumption | with_reducible apply h3 | with_reducible apply State.finish_keeps
      | with_reducible apply State.startMessage_keeps
      | (with_reducible refine Keeps.ofFst (by with_reducible assumption) ?_) | split | dsimp only)

theorem execReduce_keeps {P : List Part} {s₀ : State} (a0 : Fin 16) (a1 : State) (h1 : Keeps P s₀ a1)
    (cmodule : Part.module ∈ P := by assumption) (cmemory : Part.memory ∈ P := by assumption)
    (ctiers : Part.tiers ∈ P := by assumption) (ckv : Part.kv ∈ P := by assumption)
    (clinks : Part.links ∈ P := by assumption) (chosts : Part.hosts ∈ P := by assumption)
    (cregs : Part.regs ∈ P := by assumption) (crel : Part.rel ∈ P := by assumption)
    (cfw : Part.fw ∈ P := by assumption) (cdraws : Part.draws ∈ P := by assumption)
    : ∀ u, execReduce a0 a1 = .next u → Keeps P s₀ u := by
  intro u e
  unfold execReduce at e
  (repeat' split at e) <;> cases e
  all_goals
  repeat' (first
      | with_reducible assumption | with_reducible apply State.collRun_keeps
      | with_reducible apply State.collIssue_keeps | with_reducible apply State.finish_keeps
      | with_reducible apply State.endMessage_keeps | split | intro _ | dsimp only)

theorem State.castRun_keeps {P : List Part} {s₀ : State} (a0 : State) (a1 : ℕ) (a2 : ℕ) (h0 : Keeps P s₀ a0)
    (cmodule : Part.module ∈ P := by assumption) (cmemory : Part.memory ∈ P := by assumption)
    (ctiers : Part.tiers ∈ P := by assumption) (ckv : Part.kv ∈ P := by assumption)
    (clinks : Part.links ∈ P := by assumption) (chosts : Part.hosts ∈ P := by assumption)
    (cregs : Part.regs ∈ P := by assumption) (crel : Part.rel ∈ P := by assumption)
    (cfw : Part.fw ∈ P := by assumption) (cdraws : Part.draws ∈ P := by assumption) : Keeps P s₀
    (State.castRun a0 a1 a2) := by
  unfold State.castRun
  repeat' (first
      | with_reducible assumption | with_reducible apply State.collRun_keeps
      | with_reducible apply State.collIssue_keeps | with_reducible apply State.castStep_keeps
      | with_reducible apply State.castStep1_keeps | with_reducible apply State.castFill_keeps | split | intro _)

theorem State.emitSum_keeps {P : List Part} {s₀ : State} (a0 : State) (a1 : ℕ) (a2 : ℕ) (a3 : Line) (a4 : Message)
    (a5 : ℕ × ℕ) (a6 : ℕ) (a7 : ℕ) (a8 : ℕ) (a9 : ℕ) (a10 : List ℕ) (h0 : Keeps P s₀ a0)
    (cmodule : Part.module ∈ P := by assumption) (cmemory : Part.memory ∈ P := by assumption)
    (ctiers : Part.tiers ∈ P := by assumption) (ckv : Part.kv ∈ P := by assumption)
    (clinks : Part.links ∈ P := by assumption) (chosts : Part.hosts ∈ P := by assumption)
    (cregs : Part.regs ∈ P := by assumption) (crel : Part.rel ∈ P := by assumption)
    (cfw : Part.fw ∈ P := by assumption) (cdraws : Part.draws ∈ P := by assumption) : Keeps P s₀
    (State.emitSum a0 a1 a2 a3 a4 a5 a6 a7 a8 a9 a10) := by
  unfold State.emitSum
  repeat' (first
      | with_reducible assumption | with_reducible apply State.failCmd_keeps
      | with_reducible apply State.notePoison_keeps | with_reducible apply State.raise_keeps
      | with_reducible apply State.noteRead_keeps | with_reducible apply State.modMsg_keeps
      | with_reducible apply State.checkReduce_keeps | with_reducible apply State.sendOn_keeps
      | with_reducible apply State.cvaWrite_keeps | split | dsimp only)

theorem State.sumOffset_keeps {P : List Part} {s₀ : State} (a0 : State) (a1 : ℕ) (a2 : ℕ) (a3 : Line) (a4 : Message)
    (a5 : List BatonWord) (a6 : List ℕ) (a7 : List ℕ) (h0 : Keeps P s₀ a0)
    (cmodule : Part.module ∈ P := by assumption) (cmemory : Part.memory ∈ P := by assumption)
    (ctiers : Part.tiers ∈ P := by assumption) (ckv : Part.kv ∈ P := by assumption)
    (clinks : Part.links ∈ P := by assumption) (chosts : Part.hosts ∈ P := by assumption)
    (cregs : Part.regs ∈ P := by assumption) (crel : Part.rel ∈ P := by assumption)
    (cfw : Part.fw ∈ P := by assumption) (cdraws : Part.draws ∈ P := by assumption) : Keeps P s₀
    (State.sumOffset a0 a1 a2 a3 a4 a5 a6 a7) := by
  unfold State.sumOffset
  repeat' (first
      | with_reducible assumption | with_reducible apply State.raise_keeps
      | with_reducible apply State.noteSplit_keeps | with_reducible apply State.modCmd_keeps
      | with_reducible apply State.emitSum_keeps | with_reducible apply State.keepSum_keeps | split | dsimp only)

theorem execBcast_keeps {P : List Part} {s₀ : State} (a0 : Fin 16) (a1 : State) (h1 : Keeps P s₀ a1)
    (cmodule : Part.module ∈ P := by assumption) (cmemory : Part.memory ∈ P := by assumption)
    (ctiers : Part.tiers ∈ P := by assumption) (ckv : Part.kv ∈ P := by assumption)
    (clinks : Part.links ∈ P := by assumption) (chosts : Part.hosts ∈ P := by assumption)
    (cregs : Part.regs ∈ P := by assumption) (crel : Part.rel ∈ P := by assumption)
    (cfw : Part.fw ∈ P := by assumption) (cdraws : Part.draws ∈ P := by assumption)
    : ∀ u, execBcast a0 a1 = .next u → Keeps P s₀ u := by
  intro u e
  unfold execBcast at e
  (repeat' split at e) <;> cases e
  all_goals
  repeat' (first
      | with_reducible assumption | with_reducible apply State.castRun_keeps)

theorem execSprint_keeps {P : List Part} {s₀ : State} (a0 : Fin 16) (a1 : State) (h1 : Keeps P s₀ a1)
    (cmodule : Part.module ∈ P := by assumption) (cmemory : Part.memory ∈ P := by assumption)
    (ctiers : Part.tiers ∈ P := by assumption) (ckv : Part.kv ∈ P := by assumption)
    (clinks : Part.links ∈ P := by assumption) (chosts : Part.hosts ∈ P := by assumption)
    (cregs : Part.regs ∈ P := by assumption) (crel : Part.rel ∈ P := by assumption)
    (cfw : Part.fw ∈ P := by assumption) (cdraws : Part.draws ∈ P := by assumption)
    : ∀ u, execSprint a0 a1 = .next u → Keeps P s₀ u := by
  intro u e
  unfold execSprint at e
  (repeat' split at e) <;> cases e
  all_goals
  repeat' (first
      | with_reducible assumption | with_reducible apply State.castRun_keeps)

theorem State.streamCtrl_keeps {P : List Part} {s₀ : State} (a0 : State) (a1 : ℕ) (a2 : ℕ) (h0 : Keeps P s₀ a0)
    (clinks : Part.links ∈ P := by assumption) (cregs : Part.regs ∈ P := by assumption) : Keeps P s₀
    (State.streamCtrl a0 a1 a2) := by
  unfold State.streamCtrl
  repeat' (first
      | with_reducible assumption | with_reducible apply State.unbindStream_keeps
      | with_reducible apply State.setReg_keeps | with_reducible apply State.setStream_keeps | split | dsimp only
      | (fail_if_no_progress with_reducible refine Keeps.free ?_ _ _ _ _ _ _ _ _ _ _ _ _ _))

theorem execStreamBind_keeps {P : List Part} {s₀ : State} (a0 : Writer) (a1 : Fin 256) (a2 : Word) (a3 : State) (h3
    : Keeps P s₀ a3) (clinks : Part.links ∈ P := by assumption) (cregs : Part.regs ∈ P := by assumption)
    : ∀ u, execStreamBind a0 a1 a2 a3 = .next u → Keeps P s₀ u := by
  intro u e
  unfold execStreamBind at e
  (repeat' split at e) <;> cases e
  all_goals
  repeat' (first
      | with_reducible assumption | with_reducible apply State.guarded_keeps
      | with_reducible apply State.whenIdle_keeps | with_reducible apply State.streamCtrl_keeps | intro _)

theorem execStArm_keeps {P : List Part} {s₀ : State} (a0 : Writer) (a1 : Fin 256) (a2 : Word) (a3 : State) (h3
    : Keeps P s₀ a3) (clinks : Part.links ∈ P := by assumption) (cregs : Part.regs ∈ P := by assumption)
    : ∀ u, execStArm a0 a1 a2 a3 = .next u → Keeps P s₀ u := by
  intro u e
  unfold execStArm at e
  (repeat' split at e) <;> cases e
  all_goals
  repeat' (first
      | with_reducible assumption | with_reducible apply State.guarded_keeps
      | with_reducible apply State.setStream_keeps | intro _)

theorem execAbClear_keeps {P : List Part} {s₀ : State} (a0 : Writer) (a1 : Fin 81) (a2 : Word) (a3 : State) (h3
    : Keeps P s₀ a3) (ctiles : Part.tiles ∈ P := by assumption) (cregs : Part.regs ∈ P := by assumption)
    : ∀ u, execAbClear a0 a1 a2 a3 = .next u → Keeps P s₀ u := by
  intro u e
  unfold execAbClear at e
  (repeat' split at e) <;> cases e
  all_goals
  repeat' (first
      | with_reducible assumption | with_reducible apply State.guarded_keeps
      | with_reducible apply State.clearBitmap_keeps | with_reducible apply Keeps.iter | split | intro _)

theorem execBcastBaton_keeps {P : List Part} {s₀ : State} (a0 : Fin 36) (a1 : BatonWord) (a2 : State) (h2
    : Keeps P s₀ a2) (cmodule : Part.module ∈ P := by assumption) (ctiles : Part.tiles ∈ P := by assumption)
    (cmemory : Part.memory ∈ P := by assumption) (ctiers : Part.tiers ∈ P := by assumption)
    (ckv : Part.kv ∈ P := by assumption) (clinks : Part.links ∈ P := by assumption)
    (chosts : Part.hosts ∈ P := by assumption) (cregs : Part.regs ∈ P := by assumption)
    (crel : Part.rel ∈ P := by assumption) (cfw : Part.fw ∈ P := by assumption)
    (cdraws : Part.draws ∈ P := by assumption) : ∀ u, execBcastBaton a0 a1 a2 = .next u → Keeps P s₀ u := by
  intro u e
  unfold execBcastBaton at e
  refine (seqRow_keeps _ _ _ _ _ _ (by assumption) ?_) u e
  repeat' (first
      | with_reducible assumption | with_reducible apply State.treeBaton_keeps
      | with_reducible apply State.castArrive_keeps | intro _)

theorem execCollectiveTimeout_keeps {P : List Part} {s₀ : State} (a0 : Fin 16) (a1 : Fin 64) (a2 : State) (h2
    : Keeps P s₀ a2) (cmodule : Part.module ∈ P := by assumption) (cmemory : Part.memory ∈ P := by assumption)
    (ctiers : Part.tiers ∈ P := by assumption) (ckv : Part.kv ∈ P := by assumption)
    (clinks : Part.links ∈ P := by assumption) (chosts : Part.hosts ∈ P := by assumption)
    (cregs : Part.regs ∈ P := by assumption) (crel : Part.rel ∈ P := by assumption)
    (cfw : Part.fw ∈ P := by assumption) (cdraws : Part.draws ∈ P := by assumption)
    : ∀ u, execCollectiveTimeout a0 a1 a2 = .next u → Keeps P s₀ u := by
  intro u e
  unfold execCollectiveTimeout at e
  (repeat' split at e) <;> cases e
  all_goals
  repeat' (first
      | with_reducible assumption | with_reducible apply State.abortGroup_keeps | split | dsimp only)

theorem execGroupFree_keeps {P : List Part} {s₀ : State} (a0 : Fin 16) (a1 : State) (h1 : Keeps P s₀ a1)
    (cmodule : Part.module ∈ P := by assumption) (ckv : Part.kv ∈ P := by assumption)
    (clinks : Part.links ∈ P := by assumption) (chosts : Part.hosts ∈ P := by assumption)
    (cregs : Part.regs ∈ P := by assumption) (crel : Part.rel ∈ P := by assumption)
    (cfw : Part.fw ∈ P := by assumption) : ∀ u, execGroupFree a0 a1 = .next u → Keeps P s₀ u := by
  intro u e
  unfold execGroupFree at e
  (repeat' split at e) <;> cases e
  all_goals
  repeat' (first
      | with_reducible assumption | with_reducible apply State.collRun_keeps
      | with_reducible apply State.finish_keeps | with_reducible apply State.setGroup_keeps
      | with_reducible apply State.returnStaging_keeps | with_reducible apply State.unbindGroup_keeps | split
      | intro _)

theorem execAdderSum_keeps {P : List Part} {s₀ : State} (a0 : Fin 16) (a1 : Fin 64) (a2 : ℕ) (a3 : ℕ) (a4 : List ℕ)
    (a5 : State) (h5 : Keeps P s₀ a5) (cmodule : Part.module ∈ P := by assumption)
    (cmemory : Part.memory ∈ P := by assumption) (ctiers : Part.tiers ∈ P := by assumption)
    (ckv : Part.kv ∈ P := by assumption) (clinks : Part.links ∈ P := by assumption)
    (chosts : Part.hosts ∈ P := by assumption) (cregs : Part.regs ∈ P := by assumption)
    (crel : Part.rel ∈ P := by assumption) (cfw : Part.fw ∈ P := by assumption)
    (cdraws : Part.draws ∈ P := by assumption) : ∀ u, execAdderSum a0 a1 a2 a3 a4 a5 = .next u → Keeps P s₀ u := by
  intro u e
  unfold execAdderSum at e
  (repeat' split at e) <;> cases e
  all_goals
  repeat' (first
      | with_reducible assumption | with_reducible apply State.modMsg_keeps
      | with_reducible apply State.takeWindow_keeps | with_reducible apply State.failCmd_keeps
      | with_reducible apply State.notePoison_keeps | with_reducible apply State.sumOffset_keeps | split
      | dsimp only)

theorem State.dropDecoded_keeps {P : List Part} {s₀ : State} (a0 : State) (a1 : ℕ) (h0 : Keeps P s₀ a0)
    (chosts : Part.hosts ∈ P := by assumption) : Keeps P s₀ (State.dropDecoded a0 a1) := by
  unfold State.dropDecoded
  repeat' (first
      | with_reducible assumption | with_reducible apply State.setRing_keeps | with_reducible apply Keeps.iter
      | intro _)

theorem State.saveOut_keeps {P : List Part} {s₀ : State} (a0 : State) (a1 : ℕ) (a2 : ℕ) (a3 : ℕ) (h0 : Keeps P s₀ a0)
    (ctiles : Part.tiles ∈ P := by assumption) (cattn : Part.attn ∈ P := by assumption)
    (chosts : Part.hosts ∈ P := by assumption) (csched : Part.sched ∈ P := by assumption)
    (cregs : Part.regs ∈ P := by assumption) : Keeps P s₀ (State.saveOut a0 a1 a2 a3) := by
  unfold State.saveOut
  repeat' (first
      | with_reducible assumption | with_reducible apply State.dropDecoded_keeps
      | with_reducible apply State.withdraw_keeps | split | dsimp only
      | (fail_if_no_progress with_reducible refine Keeps.free ?_ _ _ _ _ _ _ _ _ _ _ _ _ _))

theorem State.debitMade_keeps {P : List Part} {s₀ : State} (a0 : State) (a1 : ℕ) (h0 : Keeps P s₀ a0)
    (csched : Part.sched ∈ P := by assumption) : Keeps P s₀ (State.debitMade a0 a1) := by
  unfold State.debitMade
  repeat' (first
      | with_reducible assumption | split | dsimp only
      | (fail_if_no_progress with_reducible refine Keeps.free ?_ _ _ _ _ _ _ _ _ _ _ _ _ _))

theorem State.beginSwitch_keeps {P : List Part} {s₀ : State} (a0 : State) (a1 : Option ℕ) (h0 : Keeps P s₀ a0)
    (csched : Part.sched ∈ P := by assumption) : Keeps P s₀ (State.beginSwitch a0 a1) := by
  unfold State.beginSwitch
  repeat' (first
      | with_reducible assumption | with_reducible apply State.debitMade_keeps | split | dsimp only
      | (fail_if_no_progress with_reducible refine Keeps.free ?_ _ _ _ _ _ _ _ _ _ _ _ _ _))

theorem State.runRing_keeps {P : List Part} {s₀ : State} (a0 : State) (a1 : ℕ) (a2 : ℕ) (h0 : Keeps P s₀ a0)
    (chosts : Part.hosts ∈ P := by assumption) : Keeps P s₀ (State.runRing a0 a1 a2) := by
  unfold State.runRing
  repeat' (first
      | with_reducible assumption | with_reducible apply State.setRing_keeps | split | dsimp only)

theorem State.runTime_keeps {P : List Part} {s₀ : State} (a0 : State) (h0 : Keeps P s₀ a0)
    (chosts : Part.hosts ∈ P := by assumption) : Keeps P s₀ (State.runTime a0) := by
  unfold State.runTime
  repeat' (first
      | with_reducible assumption | with_reducible apply State.runRing_keeps | with_reducible apply Keeps.iter
      | split | intro _)

theorem State.reschedule_keeps {P : List Part} {s₀ : State} (a0 : State) (a1 : Bool) (h0 : Keeps P s₀ a0)
    (csched : Part.sched ∈ P := by assumption) : Keeps P s₀ (State.reschedule a0 a1) := by
  unfold State.reschedule
  repeat' (first
      | with_reducible assumption | with_reducible apply State.beginSwitch_keeps | split | dsimp only)

theorem State.spendDebit_keeps {P : List Part} {s₀ : State} (a0 : State) (h0 : Keeps P s₀ a0)
    (csched : Part.sched ∈ P := by assumption) : Keeps P s₀ (State.spendDebit a0) := by
  unfold State.spendDebit
  repeat' (first
      | with_reducible assumption | split | dsimp only
      | (fail_if_no_progress with_reducible refine Keeps.free ?_ _ _ _ _ _ _ _ _ _ _ _ _ _))

theorem State.schedTick_keeps {P : List Part} {s₀ : State} (a0 : State) (h0 : Keeps P s₀ a0)
    (chosts : Part.hosts ∈ P := by assumption) (csched : Part.sched ∈ P := by assumption) : Keeps P s₀
    (State.schedTick a0) := by
  unfold State.schedTick
  repeat' (first
      | with_reducible assumption | with_reducible apply State.runTime_keeps
      | with_reducible apply State.reschedule_keeps | with_reducible apply State.spendDebit_keeps | split
      | dsimp only | (fail_if_no_progress with_reducible refine Keeps.free ?_ _ _ _ _ _ _ _ _ _ _ _ _ _))

theorem State.heatsFrom_keeps {P : List Part} {s₀ : State} (a0 : State) (a1 : State) (h0 : Keeps P s₀ a0) (h1
    : Keeps P s₀ a1) (csched : Part.sched ∈ P := by assumption) : Keeps P s₀ (State.heatsFrom a0 a1) := by
  unfold State.heatsFrom
  repeat' (first
      | with_reducible assumption | split | dsimp only
      | (fail_if_no_progress with_reducible refine Keeps.free ?_ _ _ _ _ _ _ _ _ _ _ _ _ _))

theorem State.heatEnd_keeps {P : List Part} {s₀ : State} (a0 : State) (h0 : Keeps P s₀ a0)
    (cmodule : Part.module ∈ P := by assumption) (cmemory : Part.memory ∈ P := by assumption)
    (ctiers : Part.tiers ∈ P := by assumption) (ckv : Part.kv ∈ P := by assumption)
    (clinks : Part.links ∈ P := by assumption) (chosts : Part.hosts ∈ P := by assumption)
    (csched : Part.sched ∈ P := by assumption) (cmedia : Part.media ∈ P := by assumption)
    (cregs : Part.regs ∈ P := by assumption) (crel : Part.rel ∈ P := by assumption)
    (cfw : Part.fw ∈ P := by assumption) (cdraws : Part.draws ∈ P := by assumption) : Keeps P s₀
    (State.heatEnd a0) := by
  unfold State.heatEnd
  repeat' (first
      | with_reducible assumption | with_reducible apply State.heatsFrom_keeps
      | with_reducible apply State.commitPoint_keeps | split | dsimp only
      | (fail_if_no_progress with_reducible refine Keeps.free ?_ _ _ _ _ _ _ _ _ _ _ _ _ _))

theorem execLegEdge_keeps {P : List Part} {s₀ : State} (a0 : State) (h0 : Keeps P s₀ a0)
    (cmodule : Part.module ∈ P := by assumption) (cmemory : Part.memory ∈ P := by assumption)
    (ctiers : Part.tiers ∈ P := by assumption) (ckv : Part.kv ∈ P := by assumption)
    (clinks : Part.links ∈ P := by assumption) (chosts : Part.hosts ∈ P := by assumption)
    (csched : Part.sched ∈ P := by assumption) (cmedia : Part.media ∈ P := by assumption)
    (cregs : Part.regs ∈ P := by assumption) (crel : Part.rel ∈ P := by assumption)
    (cfw : Part.fw ∈ P := by assumption) (cdraws : Part.draws ∈ P := by assumption)
    : ∀ u, execLegEdge a0 = .next u → Keeps P s₀ u := by
  intro u e
  unfold execLegEdge at e
  (repeat' split at e) <;> cases e
  all_goals
  repeat' (first
      | with_reducible assumption | with_reducible apply State.debitMade_keeps
      | with_reducible apply State.heatEnd_keeps | with_reducible apply State.reschedule_keeps | split | dsimp only
      | (fail_if_no_progress with_reducible refine Keeps.free ?_ _ _ _ _ _ _ _ _ _ _ _ _ _))

theorem execContextSwitch_keeps {P : List Part} {s₀ : State} (a0 : ℕ) (a1 : ℕ) (a2 : State) (h2 : Keeps P s₀ a2)
    (ctiles : Part.tiles ∈ P := by assumption) (cattn : Part.attn ∈ P := by assumption)
    (chosts : Part.hosts ∈ P := by assumption) (csched : Part.sched ∈ P := by assumption)
    (cregs : Part.regs ∈ P := by assumption) : ∀ u, execContextSwitch a0 a1 a2 = .next u → Keeps P s₀ u := by
  intro u e
  unfold execContextSwitch at e
  (repeat' split at e) <;> cases e
  all_goals
  repeat' (first
      | with_reducible assumption | with_reducible apply State.saveOut_keeps
      | with_reducible apply State.reschedule_keeps | split | dsimp only
      | (fail_if_no_progress with_reducible refine Keeps.free ?_ _ _ _ _ _ _ _ _ _ _ _ _ _))

theorem execSharedQuantumExpiry_keeps {P : List Part} {s₀ : State} (a0 : State) (h0 : Keeps P s₀ a0)
    (csched : Part.sched ∈ P := by assumption) : ∀ u, execSharedQuantumExpiry a0 = .next u → Keeps P s₀ u := by
  intro u e
  unfold execSharedQuantumExpiry at e
  (repeat' split at e) <;> cases e
  all_goals
  repeat' (first
      | with_reducible assumption | with_reducible apply State.reschedule_keeps)

theorem execScClear_keeps {P : List Part} {s₀ : State} (a0 : Writer) (a1 : Word) (a2 : State) (h2 : Keeps P s₀ a2)
    (csched : Part.sched ∈ P := by assumption) (cregs : Part.regs ∈ P := by assumption)
    : ∀ u, execScClear a0 a1 a2 = .next u → Keeps P s₀ u := by
  intro u e
  unfold execScClear at e
  (repeat' split at e) <;> cases e
  all_goals
  repeat' (first
      | with_reducible assumption | with_reducible apply State.guarded_keeps | intro _ | dsimp only
      | (fail_if_no_progress with_reducible refine Keeps.free ?_ _ _ _ _ _ _ _ _ _ _ _ _ _))

theorem State.setFwSlot_keeps {P : List Part} {s₀ : State} (a0 : State) (a1 : ℕ) (a2 : FwSlot) (h0 : Keeps P s₀ a0)
    (cfw : Part.fw ∈ P := by assumption) : Keeps P s₀ (State.setFwSlot a0 a1 a2) := by
  unfold State.setFwSlot
  repeat' (first
      | with_reducible assumption | intro _ | dsimp only
      | (fail_if_no_progress with_reducible refine Keeps.upd ?_ _ _ _ _ _ _ _ _ _ _ _ _ _ _ _ _ _ ?_ ?_ ?_ ?_ ?_ ?_))

theorem State.readDoorbell_keeps {P : List Part} {s₀ : State} (a0 : State) (a1 : ℕ) (h0 : Keeps P s₀ a0)
    (chosts : Part.hosts ∈ P := by assumption) : Keeps P s₀ (State.readDoorbell a0 a1) := by
  unfold State.readDoorbell
  repeat' (first
      | with_reducible assumption | with_reducible apply State.hostRead_keeps)

theorem execDoorbellSnoop_keeps {P : List Part} {s₀ : State} (a0 : Fin 16) (a1 : State) (h1 : Keeps P s₀ a1)
    (chosts : Part.hosts ∈ P := by assumption) : ∀ u, execDoorbellSnoop a0 a1 = .next u → Keeps P s₀ u := by
  intro u e
  unfold execDoorbellSnoop at e
  (repeat' split at e) <;> cases e
  all_goals
  repeat' (first
      | with_reducible assumption | with_reducible apply State.setCtx_keeps
      | with_reducible apply State.readDoorbell_keeps | split | dsimp only)

theorem hostOut_keeps {P : List Part} {s₀ : State} (a0 : State) (a1 : CmdId) (a2 : Cmd) (h0 : Keeps P s₀ a0)
    (cmodule : Part.module ∈ P := by assumption) (ctiers : Part.tiers ∈ P := by assumption)
    (ckv : Part.kv ∈ P := by assumption) (chosts : Part.hosts ∈ P := by assumption)
    (cregs : Part.regs ∈ P := by assumption) (crel : Part.rel ∈ P := by assumption)
    (cfw : Part.fw ∈ P := by assumption) : Keeps P s₀ (hostOut a0 a1 a2) := by
  unfold hostOut
  repeat' (first
      | with_reducible assumption | with_reducible apply State.noteRead_keeps
      | with_reducible apply State.finish_keeps | with_reducible apply State.notePoison_keeps | split | dsimp only
      | (fail_if_no_progress with_reducible refine Keeps.free ?_ _ _ _ _ _ _ _ _ _ _ _ _ _))

theorem State.ringMsix_keeps {P : List Part} {s₀ : State} (a0 : State) (a1 : ℕ) (a2 : ℕ) (h0 : Keeps P s₀ a0)
    (chosts : Part.hosts ∈ P := by assumption) : Keeps P s₀ (State.ringMsix a0 a1 a2) := by
  unfold State.ringMsix
  repeat' (first
      | with_reducible assumption | with_reducible apply State.msix_keeps | with_reducible apply State.setRing_keeps)

theorem execCxStop_keeps {P : List Part} {s₀ : State} (a0 : Writer) (a1 : Fin 16) (a2 : State) (h2 : Keeps P s₀ a2)
    (chosts : Part.hosts ∈ P := by assumption) (cregs : Part.regs ∈ P := by assumption)
    : ∀ u, execCxStop a0 a1 a2 = .next u → Keeps P s₀ u := by
  intro u e
  unfold execCxStop at e
  (repeat' split at e) <;> cases e
  all_goals
  repeat' (first
      | with_reducible assumption | with_reducible apply State.guarded_keeps
      | with_reducible apply State.setCtx_keeps | split | intro _ | dsimp only)

theorem execSemSignal_keeps {P : List Part} {s₀ : State} (a0 : Fin 16) (a1 : Fin 4) (a2 : State) (h2 : Keeps P s₀ a2)
    (cmodule : Part.module ∈ P := by assumption) (ckv : Part.kv ∈ P := by assumption)
    (chosts : Part.hosts ∈ P := by assumption) (cregs : Part.regs ∈ P := by assumption)
    (crel : Part.rel ∈ P := by assumption) (cfw : Part.fw ∈ P := by assumption)
    : ∀ u, execSemSignal a0 a1 a2 = .next u → Keeps P s₀ u := by
  intro u e
  unfold execSemSignal at e
  (repeat' split at e) <;> cases e
  all_goals
  repeat' (first
      | with_reducible assumption | with_reducible apply State.issueHead_keeps
      | with_reducible apply State.finish_keeps | with_reducible apply State.setCtx_keeps | intro _)

theorem State.prefetch_keeps {P : List Part} {s₀ : State} (a0 : State) (a1 : ℕ) (a2 : Line) (h0 : Keeps P s₀ a0)
    (ctiers : Part.tiers ∈ P := by assumption) : Keeps P s₀ (State.prefetch a0 a1 a2) := by
  unfold State.prefetch
  repeat' (first
      | with_reducible assumption | with_reducible apply State.heatPlace_keeps | with_reducible apply Keeps.iter
      | split | intro _ | dsimp only)

theorem State.assignCx_keeps {P : List Part} {s₀ : State} (a0 : State) (a1 : ℕ) (a2 : ℕ) (a3 : Bool) (h0
    : Keeps P s₀ a0) (chosts : Part.hosts ∈ P := by assumption) : Keeps P s₀ (State.assignCx a0 a1 a2 a3) := by
  unfold State.assignCx
  repeat' (first
      | with_reducible assumption | with_reducible apply State.setCtx_keeps | split | dsimp only)

theorem execHpCxMaskWrite_keeps {P : List Part} {s₀ : State} (a0 : Writer) (a1 : Fin 4) (a2 : Word) (a3 : State) (h3
    : Keeps P s₀ a3) (chosts : Part.hosts ∈ P := by assumption) (cregs : Part.regs ∈ P := by assumption)
    : ∀ u, execHpCxMaskWrite a0 a1 a2 a3 = .next u → Keeps P s₀ u := by
  intro u e
  unfold execHpCxMaskWrite at e
  (repeat' split at e) <;> cases e
  all_goals
  repeat' (first
      | with_reducible assumption | with_reducible apply State.guarded_keeps
      | with_reducible apply State.assignCx_keeps | with_reducible apply Keeps.iter | intro _)

theorem execCxStart_keeps {P : List Part} {s₀ : State} (a0 : Writer) (a1 : Fin 16) (a2 : Line) (a3 : Bool)
    (a4 : State) (h4 : Keeps P s₀ a4) (chosts : Part.hosts ∈ P := by assumption)
    (cregs : Part.regs ∈ P := by assumption) : ∀ u, execCxStart a0 a1 a2 a3 a4 = .next u → Keeps P s₀ u := by
  intro u e
  unfold execCxStart at e
  (repeat' split at e) <;> cases e
  all_goals
  repeat' (first
      | with_reducible assumption | with_reducible apply State.guarded_keeps
      | with_reducible apply State.setCtx_keeps | with_reducible apply State.readDoorbell_keeps
      | with_reducible apply State.faultCx_keeps | with_reducible apply State.setRing_keeps
      | with_reducible apply Keeps.iter | split | intro _ | dsimp only)

theorem execDoorbellReadDone_keeps {P : List Part} {s₀ : State} (a0 : Fin 16) (a1 : Line) (a2 : Bool) (a3 : State) (h3
    : Keeps P s₀ a3) (chosts : Part.hosts ∈ P := by assumption) (cregs : Part.regs ∈ P := by assumption)
    : ∀ u, execDoorbellReadDone a0 a1 a2 a3 = .next u → Keeps P s₀ u := by
  intro u e
  unfold execDoorbellReadDone at e
  (repeat' split at e) <;> cases e
  all_goals
  repeat' (first
      | with_reducible assumption | with_reducible apply State.faultCx_keeps
      | with_reducible apply State.setCtx_keeps | with_reducible apply State.readDoorbell_keeps
      | with_reducible apply State.setRing_keeps | with_reducible apply Keeps.iter | split | intro _ | dsimp only)

theorem execBulkSend_keeps {P : List Part} {s₀ : State} (a0 : Fin 16) (a1 : State) (h1 : Keeps P s₀ a1)
    (cmodule : Part.module ∈ P := by assumption) (ctiers : Part.tiers ∈ P := by assumption)
    (ckv : Part.kv ∈ P := by assumption) (clinks : Part.links ∈ P := by assumption)
    (chosts : Part.hosts ∈ P := by assumption) (cregs : Part.regs ∈ P := by assumption)
    (crel : Part.rel ∈ P := by assumption) (cfw : Part.fw ∈ P := by assumption)
    : ∀ u, execBulkSend a0 a1 = .next u → Keeps P s₀ u := by
  intro u e
  unfold execBulkSend at e
  (repeat' split at e) <;> cases e
  all_goals
  repeat' (first
      | with_reducible assumption | with_reducible apply State.issueHead_keeps
      | with_reducible apply State.finish_keeps | with_reducible apply State.bulkFill_keeps | split | intro _
      | dsimp only | (fail_if_no_progress with_reducible refine Keeps.free ?_ _ _ _ _ _ _ _ _ _ _ _ _ _))

theorem State.fetchSlots_keeps {P : List Part} {s₀ : State} (a0 : State) (a1 : ℕ) (a2 : ℕ) (a3 : ℕ) (a4 : ℕ) (h0
    : Keeps P s₀ a0) (chosts : Part.hosts ∈ P := by assumption) : Keeps P s₀ (State.fetchSlots a0 a1 a2 a3 a4) := by
  unfold State.fetchSlots
  repeat' (first
      | with_reducible assumption | with_reducible apply State.hostRead_keeps | with_reducible apply Keeps.iter
      | intro _)

theorem execDispatchDecode_keeps {P : List Part} {s₀ : State} (a0 : Fin 16) (a1 : Fin 4) (a2 : Line) (a3 : Line)
    (a4 : Bool) (a5 : ℕ) (a6 : State) (h6 : Keeps P s₀ a6) (cmodule : Part.module ∈ P := by assumption)
    (ctiers : Part.tiers ∈ P := by assumption) (ckv : Part.kv ∈ P := by assumption)
    (chosts : Part.hosts ∈ P := by assumption) (csched : Part.sched ∈ P := by assumption)
    (cregs : Part.regs ∈ P := by assumption) (crel : Part.rel ∈ P := by assumption)
    (cfw : Part.fw ∈ P := by assumption) : ∀ u, execDispatchDecode a0 a1 a2 a3 a4 a5 a6 = .next u → Keeps P s₀ u := by
  intro u e
  unfold execDispatchDecode at e
  (repeat' split at e) <;> cases e
  all_goals
  repeat' (first
      | with_reducible assumption | with_reducible apply State.faultCx_keeps
      | with_reducible apply State.fetchSlots_keeps | with_reducible apply State.setRing_keeps
      | with_reducible apply State.addSat_keeps | with_reducible apply State.prefetch_keeps
      | with_reducible apply State.reschedule_keeps | with_reducible apply State.settle_keeps | split | dsimp only)

theorem execSemWait_keeps {P : List Part} {s₀ : State} (a0 : Fin 16) (a1 : Fin 4) (a2 : State) (h2 : Keeps P s₀ a2)
    (cmodule : Part.module ∈ P := by assumption) (ckv : Part.kv ∈ P := by assumption)
    (chosts : Part.hosts ∈ P := by assumption) (cregs : Part.regs ∈ P := by assumption)
    (crel : Part.rel ∈ P := by assumption) (cfw : Part.fw ∈ P := by assumption)
    : ∀ u, execSemWait a0 a1 a2 = .next u → Keeps P s₀ u := by
  intro u e
  unfold execSemWait at e
  (repeat' split at e) <;> cases e
  all_goals
  repeat' (first
      | with_reducible assumption | with_reducible apply State.issueHead_keeps
      | with_reducible apply State.finish_keeps | intro _)

theorem execNop_keeps {P : List Part} {s₀ : State} (a0 : Fin 16) (a1 : Fin 4) (a2 : State) (h2 : Keeps P s₀ a2)
    (cmodule : Part.module ∈ P := by assumption) (ckv : Part.kv ∈ P := by assumption)
    (chosts : Part.hosts ∈ P := by assumption) (cregs : Part.regs ∈ P := by assumption)
    (crel : Part.rel ∈ P := by assumption) (cfw : Part.fw ∈ P := by assumption)
    : ∀ u, execNop a0 a1 a2 = .next u → Keeps P s₀ u := by
  intro u e
  unfold execNop at e
  (repeat' split at e) <;> cases e
  all_goals
  repeat' (first
      | with_reducible assumption | with_reducible apply State.issueHead_keeps
      | with_reducible apply State.finish_keeps | intro _)

theorem execCompletionAck_keeps {P : List Part} {s₀ : State} (a0 : Fin 16) (a1 : Fin 4) (a2 : State) (h2
    : Keeps P s₀ a2) (chosts : Part.hosts ∈ P := by assumption) (csched : Part.sched ∈ P := by assumption)
    : ∀ u, execCompletionAck a0 a1 a2 = .next u → Keeps P s₀ u := by
  intro u e
  unfold execCompletionAck at e
  (repeat' split at e) <;> cases e
  all_goals
  repeat' (first
      | with_reducible assumption | with_reducible apply State.setRing_keeps
      | with_reducible apply State.ringMsix_keeps | with_reducible apply State.reschedule_keeps | split | dsimp only)

theorem execDoorbellPoll_keeps {P : List Part} {s₀ : State} (a0 : Fin 16) (a1 : State) (h1 : Keeps P s₀ a1)
    (chosts : Part.hosts ∈ P := by assumption) : ∀ u, execDoorbellPoll a0 a1 = .next u → Keeps P s₀ u := by
  intro u e
  unfold execDoorbellPoll at e
  (repeat' split at e) <;> cases e
  all_goals
  repeat' (first
      | with_reducible assumption | with_reducible apply State.readDoorbell_keeps
      | with_reducible apply State.setCtx_keeps | split | dsimp only)

theorem hostIn_keeps {P : List Part} {s₀ : State} (a0 : State) (a1 : CmdId) (a2 : Cmd) (a3 : List Byte) (h0
    : Keeps P s₀ a0) (cmodule : Part.module ∈ P := by assumption) (cmemory : Part.memory ∈ P := by assumption)
    (ctiers : Part.tiers ∈ P := by assumption) (ckv : Part.kv ∈ P := by assumption)
    (chosts : Part.hosts ∈ P := by assumption) (cregs : Part.regs ∈ P := by assumption)
    (crel : Part.rel ∈ P := by assumption) (cfw : Part.fw ∈ P := by assumption)
    (cdraws : Part.draws ∈ P := by assumption) : Keeps P s₀ (hostIn a0 a1 a2 a3) := by
  unfold hostIn
  repeat' (first
      | with_reducible assumption | with_reducible apply State.hostRead_keeps
      | with_reducible apply State.endWork_keeps | with_reducible apply State.finish_keeps
      | with_reducible apply State.cvaHavoc_keeps | with_reducible apply State.cvaWrite_keeps
      | (with_reducible refine Keeps.ofFst (by with_reducible assumption) ?_) | split | dsimp only)

theorem execHostCopy_keeps {P : List Part} {s₀ : State} (a0 : Fin 16) (a1 : List Byte) (a2 : Bool) (a3 : State) (h3
    : Keeps P s₀ a3) (cmodule : Part.module ∈ P := by assumption) (cmemory : Part.memory ∈ P := by assumption)
    (ctiers : Part.tiers ∈ P := by assumption) (ckv : Part.kv ∈ P := by assumption)
    (chosts : Part.hosts ∈ P := by assumption) (cregs : Part.regs ∈ P := by assumption)
    (crel : Part.rel ∈ P := by assumption) (cfw : Part.fw ∈ P := by assumption)
    (cdraws : Part.draws ∈ P := by assumption) : ∀ u, execHostCopy a0 a1 a2 a3 = .next u → Keeps P s₀ u := by
  intro u e
  unfold execHostCopy at e
  (repeat' split at e) <;> cases e
  all_goals
  repeat' (first
      | with_reducible assumption | with_reducible apply State.issueOrRun_keeps
      | with_reducible apply State.finish_keeps | with_reducible apply State.hostRead_keeps
      | with_reducible apply hostOut_keeps | with_reducible apply hostIn_keeps | split | intro _)

theorem execIrqCoalesceTimer_keeps {P : List Part} {s₀ : State} (a0 : Fin 16) (a1 : Fin 4) (a2 : State) (h2
    : Keeps P s₀ a2) (chosts : Part.hosts ∈ P := by assumption)
    : ∀ u, execIrqCoalesceTimer a0 a1 a2 = .next u → Keeps P s₀ u := by
  intro u e
  unfold execIrqCoalesceTimer at e
  (repeat' split at e) <;> cases e
  all_goals
  repeat' (first
      | with_reducible assumption | with_reducible apply State.ringMsix_keeps)

theorem State.resetRails_keeps {P : List Part} {s₀ : State} (a0 : State) (h0 : Keeps P s₀ a0)
    (crails : Part.rails ∈ P := by assumption) (cregs : Part.regs ∈ P := by assumption) : Keeps P s₀
    (State.resetRails a0) := by
  unfold State.resetRails
  repeat' (first
      | with_reducible assumption | dsimp only
      | (fail_if_no_progress with_reducible refine Keeps.free ?_ _ _ _ _ _ _ _ _ _ _ _ _ _))

theorem zeroAlloc_keeps {P : List Part} {s₀ : State} (a0 : ℕ) (a1 : ℕ) (a2 : State) (h2 : Keeps P s₀ a2)
    (cmemory : Part.memory ∈ P := by assumption) : Keeps P s₀ (zeroAlloc a0 a1 a2) := by
  exact Keeps.store h2 (zeroAlloc_wf _ _ _) rfl

theorem State.recheckAll_keeps {P : List Part} {s₀ : State} (a0 : State) (h0 : Keeps P s₀ a0)
    (chosts : Part.hosts ∈ P := by assumption) : Keeps P s₀ (State.recheckAll a0) := by
  unfold State.recheckAll
  repeat' (first
      | with_reducible assumption | with_reducible apply State.setRing_keeps | with_reducible apply Keeps.iter
      | intro _)

theorem State.install_keeps {P : List Part} {s₀ : State} (a0 : State) (a1 : Package) (h0 : Keeps P s₀ a0)
    (cpackage : Part.package ∈ P := by assumption) (crails : Part.rails ∈ P := by assumption)
    (cmemory : Part.memory ∈ P := by assumption) (ctiers : Part.tiers ∈ P := by assumption)
    (chosts : Part.hosts ∈ P := by assumption) (cregs : Part.regs ∈ P := by assumption) : Keeps P s₀
    (State.install a0 a1) := by
  unfold State.install
  repeat' (first
      | with_reducible assumption | with_reducible apply State.resetRails_keeps
      | with_reducible apply State.setUsed_keeps | with_reducible apply zeroAlloc_keeps
      | with_reducible apply State.hpEventAll_keeps | with_reducible apply State.recheckAll_keeps
      | with_reducible apply Keeps.foldl | with_reducible apply Keeps.iter | intro _ | dsimp only
      | (fail_if_no_progress with_reducible refine Keeps.free ?_ _ _ _ _ _ _ _ _ _ _ _ _ _))

theorem State.uninstall_keeps {P : List Part} {s₀ : State} (a0 : State) (h0 : Keeps P s₀ a0)
    (ctiles : Part.tiles ∈ P := by assumption) (cpackage : Part.package ∈ P := by assumption)
    (ctiers : Part.tiers ∈ P := by assumption) (chosts : Part.hosts ∈ P := by assumption)
    (cregs : Part.regs ∈ P := by assumption) : Keeps P s₀ (State.uninstall a0) := by
  unfold State.uninstall
  repeat' (first
      | with_reducible assumption | with_reducible apply State.credit_keeps
      | with_reducible apply State.freePage_keeps | with_reducible apply State.setCtx_keeps
      | with_reducible apply State.setUsed_keeps | with_reducible apply State.hpEventAll_keeps
      | with_reducible apply Keeps.foldl | with_reducible apply Keeps.iter | split | intro _ | dsimp only
      | (fail_if_no_progress with_reducible refine Keeps.free ?_ _ _ _ _ _ _ _ _ _ _ _ _ _))

theorem admitWork_keeps {P : List Part} {s₀ : State} (a0 : State) (a1 : CmdId) (a2 : ℕ) (a3 : List Byte) (h0
    : Keeps P s₀ a0) (cmodule : Part.module ∈ P := by assumption) (cpackage : Part.package ∈ P := by assumption)
    (crails : Part.rails ∈ P := by assumption) (cmemory : Part.memory ∈ P := by assumption)
    (ctiers : Part.tiers ∈ P := by assumption) (ckv : Part.kv ∈ P := by assumption)
    (chosts : Part.hosts ∈ P := by assumption) (cregs : Part.regs ∈ P := by assumption)
    (crel : Part.rel ∈ P := by assumption) (cfw : Part.fw ∈ P := by assumption) : Keeps P s₀
    (admitWork a0 a1 a2 a3) := by
  unfold admitWork
  repeat' (first
      | with_reducible assumption | with_reducible apply State.finish_keeps
      | with_reducible apply State.hostRead_keeps | with_reducible apply State.install_keeps | split | dsimp only)

theorem execAdmit_keeps {P : List Part} {s₀ : State} (a0 : Fin 16) (a1 : List Byte) (a2 : Bool) (a3 : State) (h3
    : Keeps P s₀ a3) (cmodule : Part.module ∈ P := by assumption) (cpackage : Part.package ∈ P := by assumption)
    (crails : Part.rails ∈ P := by assumption) (cmemory : Part.memory ∈ P := by assumption)
    (ctiers : Part.tiers ∈ P := by assumption) (ckv : Part.kv ∈ P := by assumption)
    (chosts : Part.hosts ∈ P := by assumption) (cregs : Part.regs ∈ P := by assumption)
    (crel : Part.rel ∈ P := by assumption) (cfw : Part.fw ∈ P := by assumption)
    : ∀ u, execAdmit a0 a1 a2 a3 = .next u → Keeps P s₀ u := by
  intro u e
  unfold execAdmit at e
  (repeat' split at e) <;> cases e
  all_goals
  repeat' (first
      | with_reducible assumption | with_reducible apply State.issueOrRun_keeps
      | with_reducible apply State.finish_keeps | with_reducible apply State.hostRead_keeps
      | with_reducible apply admitWork_keeps | split | intro _)

theorem execEvict_keeps {P : List Part} {s₀ : State} (a0 : Fin 16) (a1 : State) (h1 : Keeps P s₀ a1)
    (cmodule : Part.module ∈ P := by assumption) (ctiles : Part.tiles ∈ P := by assumption)
    (cpackage : Part.package ∈ P := by assumption) (ctiers : Part.tiers ∈ P := by assumption)
    (ckv : Part.kv ∈ P := by assumption) (chosts : Part.hosts ∈ P := by assumption)
    (cregs : Part.regs ∈ P := by assumption) (crel : Part.rel ∈ P := by assumption)
    (cfw : Part.fw ∈ P := by assumption) : ∀ u, execEvict a0 a1 = .next u → Keeps P s₀ u := by
  intro u e
  unfold execEvict at e
  (repeat' split at e) <;> cases e
  all_goals
  repeat' (first
      | with_reducible assumption | with_reducible apply State.issueOrRun_keeps
      | with_reducible apply State.finish_keeps | with_reducible apply State.uninstall_keeps | split | intro _)

theorem State.mediaRun_keeps {P : List Part} {s₀ : State} (a0 : State) (a1 : ℕ) (a2 : ℕ) (a3 :
    (State → CmdId → Cmd → State)) (h0 : Keeps P s₀ a0) (h3 : ∀ (u0 : State) (u1 : CmdId)
    (u2 : Cmd), Keeps P s₀ u0 → Keeps P s₀ (a3 u0 u1 u2)) (cmodule : Part.module ∈ P := by assumption)
    (ckv : Part.kv ∈ P := by assumption) (chosts : Part.hosts ∈ P := by assumption)
    (cregs : Part.regs ∈ P := by assumption) (crel : Part.rel ∈ P := by assumption)
    (cfw : Part.fw ∈ P := by assumption) : Keeps P s₀ (State.mediaRun a0 a1 a2 a3) := by
  unfold State.mediaRun
  repeat' (first
      | with_reducible assumption | with_reducible apply State.issueHead_keeps)

theorem State.frameReady_keeps {P : List Part} {s₀ : State} (a0 : State) (a1 : CmdId) (a2 : ℕ) (a3 : Option ℕ) (h0
    : Keeps P s₀ a0) (cmedia : Part.media ∈ P := by assumption) : Keeps P s₀ (State.frameReady a0 a1 a2 a3) := by
  unfold State.frameReady
  repeat' (first
      | with_reducible assumption | dsimp only
      | (fail_if_no_progress with_reducible refine Keeps.free ?_ _ _ _ _ _ _ _ _ _ _ _ _ _))

theorem State.frameIssue_keeps {P : List Part} {s₀ : State} (a0 : State) (a1 : ℕ) (a2 : Bool) (h0 : Keeps P s₀ a0)
    (cmodule : Part.module ∈ P := by assumption) (ckv : Part.kv ∈ P := by assumption)
    (chosts : Part.hosts ∈ P := by assumption) (cmedia : Part.media ∈ P := by assumption)
    (cregs : Part.regs ∈ P := by assumption) (crel : Part.rel ∈ P := by assumption)
    (cfw : Part.fw ∈ P := by assumption) : Keeps P s₀ (State.frameIssue a0 a1 a2) := by
  unfold State.frameIssue
  repeat' (first
      | with_reducible assumption | with_reducible apply State.mediaRun_keeps
      | with_reducible apply State.finish_keeps | with_reducible apply State.frameReady_keeps | split | intro _
      | dsimp only)

theorem execDecode_keeps {P : List Part} {s₀ : State} (a0 : Fin 16) (a1 : State) (h1 : Keeps P s₀ a1)
    (cmodule : Part.module ∈ P := by assumption) (ckv : Part.kv ∈ P := by assumption)
    (chosts : Part.hosts ∈ P := by assumption) (cmedia : Part.media ∈ P := by assumption)
    (cregs : Part.regs ∈ P := by assumption) (crel : Part.rel ∈ P := by assumption)
    (cfw : Part.fw ∈ P := by assumption) : ∀ u, execDecode a0 a1 = .next u → Keeps P s₀ u := by
  intro u e
  unfold execDecode at e
  (repeat' split at e) <;> cases e
  all_goals
  repeat' (first
      | with_reducible assumption | with_reducible apply State.frameIssue_keeps)

theorem execStreamClose_keeps {P : List Part} {s₀ : State} (a0 : Fin 16) (a1 : State) (h1 : Keeps P s₀ a1)
    (cmodule : Part.module ∈ P := by assumption) (ckv : Part.kv ∈ P := by assumption)
    (chosts : Part.hosts ∈ P := by assumption) (cmedia : Part.media ∈ P := by assumption)
    (cregs : Part.regs ∈ P := by assumption) (crel : Part.rel ∈ P := by assumption)
    (cfw : Part.fw ∈ P := by assumption) : ∀ u, execStreamClose a0 a1 = .next u → Keeps P s₀ u := by
  intro u e
  unfold execStreamClose at e
  (repeat' split at e) <;> cases e
  all_goals
  repeat' (first
      | with_reducible assumption | with_reducible apply State.mediaRun_keeps
      | with_reducible apply State.finish_keeps | with_reducible apply State.setMstream_keeps | split | intro _
      | dsimp only)

theorem State.freeEngine_keeps {P : List Part} {s₀ : State} (a0 : State) (a1 : ℕ) (a2 : MFrame) (a3 : ℕ) (h0
    : Keeps P s₀ a0) (cmedia : Part.media ∈ P := by assumption) : Keeps P s₀ (State.freeEngine a0 a1 a2 a3) := by
  unfold State.freeEngine
  repeat' (first
      | with_reducible assumption | with_reducible apply State.setEngine_keeps)

theorem State.poolWrite_keeps {P : List Part} {s₀ : State} (a0 : State) (a1 : CmdId) (a2 : ℕ) (a3 : MStream) (h0
    : Keeps P s₀ a0) (cmemory : Part.memory ∈ P := by assumption) (ctiers : Part.tiers ∈ P := by assumption)
    (ckv : Part.kv ∈ P := by assumption) (cmedia : Part.media ∈ P := by assumption)
    (cdraws : Part.draws ∈ P := by assumption) : Keeps P s₀ (State.poolWrite a0 a1 a2 a3) := by
  unfold State.poolWrite
  repeat' (first
      | with_reducible assumption | with_reducible apply State.setMstream_keeps
      | with_reducible apply State.cvaHavoc_keeps)

theorem State.slateDone_keeps {P : List Part} {s₀ : State} (a0 : State) (a1 : MFrame) (a2 : Cmd) (a3 : ℕ) (h0
    : Keeps P s₀ a0) (cmodule : Part.module ∈ P := by assumption) (cmemory : Part.memory ∈ P := by assumption)
    (ctiers : Part.tiers ∈ P := by assumption) (ckv : Part.kv ∈ P := by assumption)
    (chosts : Part.hosts ∈ P := by assumption) (cmedia : Part.media ∈ P := by assumption)
    (cregs : Part.regs ∈ P := by assumption) (crel : Part.rel ∈ P := by assumption)
    (cfw : Part.fw ∈ P := by assumption) (cdraws : Part.draws ∈ P := by assumption) : Keeps P s₀
    (State.slateDone a0 a1 a2 a3) := by
  unfold State.slateDone
  repeat' (first
      | with_reducible assumption | with_reducible apply State.consumePoison_keeps
      | with_reducible apply State.finish_keeps | with_reducible apply State.setPo_keeps
      | with_reducible apply State.poolWrite_keeps | split)

theorem State.writeRanges_keeps {P : List Part} {s₀ : State} (a0 : State) (a1 : CmdId) (a2 : List (ℕ × ℕ))
    (a3 : List Byte) (h0 : Keeps P s₀ a0) (cmemory : Part.memory ∈ P := by assumption)
    (ctiers : Part.tiers ∈ P := by assumption) (ckv : Part.kv ∈ P := by assumption) : Keeps P s₀
    (State.writeRanges a0 a1 a2 a3).1 := by
  unfold State.writeRanges
  repeat' (first
      | with_reducible assumption | with_reducible apply State.cvaWrite_keeps | with_reducible apply Keeps.foldlFst
      | (with_reducible refine Keeps.ofFst (by with_reducible assumption) ?_) | split | intro _)

theorem State.frameFails_keeps {P : List Part} {s₀ : State} (a0 : State) (a1 : CmdId) (a2 : ℕ) (a3 : List (ℕ × ℕ)) (h0
    : Keeps P s₀ a0) (cmodule : Part.module ∈ P := by assumption) (cmemory : Part.memory ∈ P := by assumption)
    (ctiers : Part.tiers ∈ P := by assumption) (ckv : Part.kv ∈ P := by assumption)
    (chosts : Part.hosts ∈ P := by assumption) (cregs : Part.regs ∈ P := by assumption)
    (crel : Part.rel ∈ P := by assumption) (cfw : Part.fw ∈ P := by assumption)
    (cdraws : Part.draws ∈ P := by assumption) : Keeps P s₀ (State.frameFails a0 a1 a2 a3) := by
  unfold State.frameFails
  repeat' (first
      | with_reducible assumption | with_reducible apply State.finish_keeps
      | with_reducible apply State.cvaHavoc_keeps | with_reducible apply Keeps.foldl | intro _)

theorem State.decodeDone_keeps {P : List Part} {s₀ : State} (a0 : State) (a1 : MFrame) (a2 : Cmd) (h0 : Keeps P s₀ a0)
    (cmodule : Part.module ∈ P := by assumption) (cmemory : Part.memory ∈ P := by assumption)
    (ctiers : Part.tiers ∈ P := by assumption) (ckv : Part.kv ∈ P := by assumption)
    (chosts : Part.hosts ∈ P := by assumption) (cmedia : Part.media ∈ P := by assumption)
    (cregs : Part.regs ∈ P := by assumption) (crel : Part.rel ∈ P := by assumption)
    (cfw : Part.fw ∈ P := by assumption) (cdraws : Part.draws ∈ P := by assumption) : Keeps P s₀
    (State.decodeDone a0 a1 a2) := by
  unfold State.decodeDone
  repeat' (first
      | with_reducible assumption | with_reducible apply State.finish_keeps
      | with_reducible apply State.consumePoison_keeps | with_reducible apply State.frameFails_keeps
      | with_reducible apply State.endWork_keeps | with_reducible apply State.poolWrite_keeps
      | with_reducible apply State.writeRanges_keeps | split | dsimp only)

theorem State.poCoded_keeps {P : List Part} {s₀ : State} (a0 : State) (a1 : ℕ) (a2 : CmdId) (a3 : Bool) (a4 : PFrame)
    (h0 : Keeps P s₀ a0) (cmedia : Part.media ∈ P := by assumption) (cregs : Part.regs ∈ P := by assumption)
    : Keeps P s₀ (State.poCoded a0 a1 a2 a3 a4).1 := by
  unfold State.poCoded
  repeat' (first
      | with_reducible assumption | with_reducible apply State.addSat_keeps | with_reducible apply State.setPo_keeps
      | split | dsimp only)

theorem State.encodeDone_keeps {P : List Part} {s₀ : State} (a0 : State) (a1 : MFrame) (a2 : Cmd) (h0 : Keeps P s₀ a0)
    (cmodule : Part.module ∈ P := by assumption) (cmemory : Part.memory ∈ P := by assumption)
    (ctiers : Part.tiers ∈ P := by assumption) (ckv : Part.kv ∈ P := by assumption)
    (chosts : Part.hosts ∈ P := by assumption) (cmedia : Part.media ∈ P := by assumption)
    (cregs : Part.regs ∈ P := by assumption) (crel : Part.rel ∈ P := by assumption)
    (cfw : Part.fw ∈ P := by assumption) (cdraws : Part.draws ∈ P := by assumption) : Keeps P s₀
    (State.encodeDone a0 a1 a2) := by
  unfold State.encodeDone
  extract_lets x m lib pic hint st
  split
  · exact State.finish_keeps _ _ _ _ h0
  split
  · exact State.consumePoison_keeps _ _ h0
  generalize frameInput _ _ _ _ _ _ = fi
  obtain ⟨input, final⟩ := fi
  dsimp only
  generalize rcFrame _ _ _ _ _ = r
  generalize rcEnd _ _ _ = rr
  obtain ⟨fill, filler, qp⟩ := rr
  dsimp only
  generalize hb : clean _ = bytes
  generalize hd : MStream.coded _ _ _ _ _ _ _ _ = d
  have h := State.cvaWrite_keeps a0 a1.cmd (placeRank (frBitsVa x)) (frBitsVa x) bytes h0
  generalize State.cvaWrite _ _ _ _ _ = w at h ⊢
  obtain ⟨u, sw⟩ := w
  dsimp only at h
  split
  · rename_i v e
    have h : Keeps P s₀ v := by cases e; exact h
    have g := State.poolWrite_keeps v a1.cmd a1.slot d h
    generalize State.poolWrite _ _ _ _ = t at g ⊢
    split
    · exact State.endWork_keeps _ _ _ _ g
    · rename_i p _
      generalize PFrame.mk _ _ _ _ _ _ _ = mc
      have g2 := State.poCoded_keeps t p a1.cmd a1.stale mc g
      generalize State.poCoded _ _ _ _ _ = y at g2 ⊢
      obtain ⟨v2, ok⟩ := y
      dsimp only at g2 ⊢
      split
      · exact State.endWork_keeps _ _ _ _ g2
      · exact State.modCmd_keeps _ _ _ g2
  · rename_i v _ _ e
    have h : Keeps P s₀ v := by cases e; exact h
    exact State.frameFails_keeps _ _ _ _ h

theorem execMediaFrameEnd_keeps {P : List Part} {s₀ : State} (a0 : Fin 24) (a1 : State) (h1 : Keeps P s₀ a1)
    (cmodule : Part.module ∈ P := by assumption) (cmemory : Part.memory ∈ P := by assumption)
    (ctiers : Part.tiers ∈ P := by assumption) (ckv : Part.kv ∈ P := by assumption)
    (chosts : Part.hosts ∈ P := by assumption) (cmedia : Part.media ∈ P := by assumption)
    (cregs : Part.regs ∈ P := by assumption) (crel : Part.rel ∈ P := by assumption)
    (cfw : Part.fw ∈ P := by assumption) (cdraws : Part.draws ∈ P := by assumption)
    : ∀ u, execMediaFrameEnd a0 a1 = .next u → Keeps P s₀ u := by
  intro u e
  unfold execMediaFrameEnd at e
  (repeat' split at e) <;> cases e
  all_goals
  repeat' (first
      | with_reducible assumption | with_reducible apply State.freeEngine_keeps
      | with_reducible apply State.noteReads_keeps | with_reducible apply State.slateDone_keeps
      | with_reducible apply State.decodeDone_keeps | with_reducible apply State.encodeDone_keeps)

theorem execEncode_keeps {P : List Part} {s₀ : State} (a0 : Fin 16) (a1 : State) (h1 : Keeps P s₀ a1)
    (cmodule : Part.module ∈ P := by assumption) (ckv : Part.kv ∈ P := by assumption)
    (chosts : Part.hosts ∈ P := by assumption) (cmedia : Part.media ∈ P := by assumption)
    (cregs : Part.regs ∈ P := by assumption) (crel : Part.rel ∈ P := by assumption)
    (cfw : Part.fw ∈ P := by assumption) : ∀ u, execEncode a0 a1 = .next u → Keeps P s₀ u := by
  intro u e
  unfold execEncode at e
  (repeat' split at e) <;> cases e
  all_goals
  repeat' (first
      | with_reducible assumption | with_reducible apply State.frameIssue_keeps)

theorem execStreamOpen_keeps {P : List Part} {s₀ : State} (a0 : Fin 16) (a1 : State) (h1 : Keeps P s₀ a1)
    (cmodule : Part.module ∈ P := by assumption) (cmemory : Part.memory ∈ P := by assumption)
    (ctiers : Part.tiers ∈ P := by assumption) (ckv : Part.kv ∈ P := by assumption)
    (chosts : Part.hosts ∈ P := by assumption) (cmedia : Part.media ∈ P := by assumption)
    (cregs : Part.regs ∈ P := by assumption) (crel : Part.rel ∈ P := by assumption)
    (cfw : Part.fw ∈ P := by assumption) (cdraws : Part.draws ∈ P := by assumption)
    : ∀ u, execStreamOpen a0 a1 = .next u → Keeps P s₀ u := by
  intro u e
  unfold execStreamOpen at e
  (repeat' split at e) <;> cases e
  all_goals
  repeat' (first
      | with_reducible assumption | with_reducible apply State.mediaRun_keeps
      | with_reducible apply State.finish_keeps | with_reducible apply State.poolWrite_keeps | split | intro _
      | dsimp only)

theorem State.startFrame_keeps {P : List Part} {s₀ : State} (a0 : State) (a1 : ℕ) (a2 : MFrame) (h0 : Keeps P s₀ a0)
    (cmedia : Part.media ∈ P := by assumption) : Keeps P s₀ (State.startFrame a0 a1 a2) := by
  unfold State.startFrame
  repeat' (first
      | with_reducible assumption | with_reducible apply State.setMstream_keeps
      | with_reducible apply State.setEngine_keeps | split | dsimp only
      | (fail_if_no_progress with_reducible refine Keeps.free ?_ _ _ _ _ _ _ _ _ _ _ _ _ _))

theorem execMediaFrameStart_keeps {P : List Part} {s₀ : State} (a0 : Fin 24) (a1 : State) (h1 : Keeps P s₀ a1)
    (cmedia : Part.media ∈ P := by assumption) : ∀ u, execMediaFrameStart a0 a1 = .next u → Keeps P s₀ u := by
  intro u e
  unfold execMediaFrameStart at e
  (repeat' split at e) <;> cases e
  all_goals
  repeat' (first
      | with_reducible assumption | with_reducible apply State.startFrame_keeps)

theorem State.poSendPackets_keeps {P : List Part} {s₀ : State} (a0 : State) (a1 : ℕ) (a2 : ℕ) (a3 : ℕ) (a4 : List
    (List Byte)) (h0 : Keeps P s₀ a0) (cmedia : Part.media ∈ P := by assumption) : Keeps P s₀
    (State.poSendPackets a0 a1 a2 a3 a4) := by
  unfold State.poSendPackets
  repeat' (first
      | with_reducible assumption | with_reducible apply State.setPo_keeps)

theorem execPtpSync_keeps {P : List Part} {s₀ : State} (a0 : Fin 2) (a1 : Word) (a2 : Bool) (a3 : Bool) (a4 : State)
    (h4 : Keeps P s₀ a4) (cmedia : Part.media ∈ P := by assumption) (cregs : Part.regs ∈ P := by assumption)
    : ∀ u, execPtpSync a0 a1 a2 a3 a4 = .next u → Keeps P s₀ u := by
  intro u e
  unfold execPtpSync at e
  (repeat' split at e) <;> cases e
  all_goals
  repeat' (first
      | with_reducible assumption | with_reducible apply State.setPo_keeps | with_reducible apply State.setReg_keeps)

theorem State.poIdle_keeps {P : List Part} {s₀ : State} (a0 : State) (a1 : ℕ) (h0 : Keeps P s₀ a0)
    (cmodule : Part.module ∈ P := by assumption) (cmemory : Part.memory ∈ P := by assumption)
    (ctiers : Part.tiers ∈ P := by assumption) (ckv : Part.kv ∈ P := by assumption)
    (clinks : Part.links ∈ P := by assumption) (chosts : Part.hosts ∈ P := by assumption)
    (cmedia : Part.media ∈ P := by assumption) (cregs : Part.regs ∈ P := by assumption)
    (crel : Part.rel ∈ P := by assumption) (cfw : Part.fw ∈ P := by assumption)
    (cdraws : Part.draws ∈ P := by assumption) : Keeps P s₀ (State.poIdle a0 a1) := by
  unfold State.poIdle
  repeat' (first
      | with_reducible assumption | with_reducible apply State.addSat_keeps | with_reducible apply State.setPo_keeps
      | with_reducible apply State.checkWork_keeps | with_reducible apply State.finish_keeps
      | with_reducible apply State.commitPoint_keeps | split)

theorem State.poEnd_keeps {P : List Part} {s₀ : State} (a0 : State) (a1 : ℕ) (h0 : Keeps P s₀ a0)
    (cmodule : Part.module ∈ P := by assumption) (cmemory : Part.memory ∈ P := by assumption)
    (ctiers : Part.tiers ∈ P := by assumption) (ckv : Part.kv ∈ P := by assumption)
    (clinks : Part.links ∈ P := by assumption) (chosts : Part.hosts ∈ P := by assumption)
    (cmedia : Part.media ∈ P := by assumption) (cregs : Part.regs ∈ P := by assumption)
    (crel : Part.rel ∈ P := by assumption) (cfw : Part.fw ∈ P := by assumption)
    (cdraws : Part.draws ∈ P := by assumption) : Keeps P s₀ (State.poEnd a0 a1) := by
  unfold State.poEnd
  repeat' (first
      | with_reducible assumption | with_reducible apply State.poIdle_keeps | split | dsimp only)

theorem State.runOut_keeps {P : List Part} {s₀ : State} (a0 : State) (a1 : ℕ) (a2 : Option CmdId) (h0 : Keeps P s₀ a0)
    (cmodule : Part.module ∈ P := by assumption) (cmemory : Part.memory ∈ P := by assumption)
    (ctiers : Part.tiers ∈ P := by assumption) (ckv : Part.kv ∈ P := by assumption)
    (clinks : Part.links ∈ P := by assumption) (chosts : Part.hosts ∈ P := by assumption)
    (cmedia : Part.media ∈ P := by assumption) (cregs : Part.regs ∈ P := by assumption)
    (crel : Part.rel ∈ P := by assumption) (cfw : Part.fw ∈ P := by assumption)
    (cdraws : Part.draws ∈ P := by assumption) : Keeps P s₀ (State.runOut a0 a1 a2) := by
  unfold State.runOut
  repeat' (first
      | with_reducible assumption | with_reducible apply State.poEnd_keeps | with_reducible apply State.setPo_keeps
      | with_reducible apply State.finish_keeps | split | dsimp only)

theorem State.staleStream_keeps {P : List Part} {s₀ : State} (a0 : State) (a1 : ℕ) (h0 : Keeps P s₀ a0)
    (cmedia : Part.media ∈ P := by assumption) : Keeps P s₀ (State.staleStream a0 a1) := by
  unfold State.staleStream
  repeat' (first
      | with_reducible assumption | with_reducible apply State.setMstream_keeps | dsimp only
      | (fail_if_no_progress with_reducible refine Keeps.free ?_ _ _ _ _ _ _ _ _ _ _ _ _ _))

theorem State.poSlate_keeps {P : List Part} {s₀ : State} (a0 : State) (a1 : ℕ) (a2 : ℕ) (h0 : Keeps P s₀ a0)
    (cmedia : Part.media ∈ P := by assumption) (cregs : Part.regs ∈ P := by assumption) : Keeps P s₀
    (State.poSlate a0 a1 a2) := by
  unfold State.poSlate
  repeat' (first
      | with_reducible assumption | with_reducible apply State.poSendPackets_keeps
      | with_reducible apply State.addSat_keeps | with_reducible apply State.setPo_keeps
      | with_reducible apply State.staleStream_keeps | split | dsimp only)

theorem State.poNote_keeps {P : List Part} {s₀ : State} (a0 : State) (a1 : ℕ) (a2 : PFrame) (h0 : Keeps P s₀ a0)
    (ctiers : Part.tiers ∈ P := by assumption) (chosts : Part.hosts ∈ P := by assumption) : Keeps P s₀
    (State.poNote a0 a1 a2) := by
  unfold State.poNote
  repeat' (first
      | with_reducible assumption | with_reducible apply State.noteReads_keeps | split)

theorem execPlayStart_keeps {P : List Part} {s₀ : State} (a0 : Fin 16) (a1 : State) (h1 : Keeps P s₀ a1)
    (cmodule : Part.module ∈ P := by assumption) (ckv : Part.kv ∈ P := by assumption)
    (chosts : Part.hosts ∈ P := by assumption) (cmedia : Part.media ∈ P := by assumption)
    (cregs : Part.regs ∈ P := by assumption) (crel : Part.rel ∈ P := by assumption)
    (cfw : Part.fw ∈ P := by assumption) : ∀ u, execPlayStart a0 a1 = .next u → Keeps P s₀ u := by
  intro u e
  unfold execPlayStart at e
  (repeat' split at e) <;> cases e
  all_goals
  repeat' (first
      | with_reducible assumption | with_reducible apply State.mediaRun_keeps
      | with_reducible apply State.finish_keeps | with_reducible apply State.setPo_keeps | split | intro _
      | dsimp only)

theorem execPtpSyncLoss_keeps {P : List Part} {s₀ : State} (a0 : Fin 2) (a1 : State) (h1 : Keeps P s₀ a1)
    (cmedia : Part.media ∈ P := by assumption) : ∀ u, execPtpSyncLoss a0 a1 = .next u → Keeps P s₀ u := by
  intro u e
  unfold execPtpSyncLoss at e
  (repeat' split at e) <;> cases e
  all_goals
  repeat' (first
      | with_reducible assumption | with_reducible apply State.setPo_keeps)

theorem State.countRepeat_keeps {P : List Part} {s₀ : State} (a0 : State) (a1 : ℕ) (a2 : Bool) (h0 : Keeps P s₀ a0)
    (cmedia : Part.media ∈ P := by assumption) : Keeps P s₀ (State.countRepeat a0 a1 a2) := by
  unfold State.countRepeat
  repeat' (first
      | with_reducible assumption | with_reducible apply State.setPo_keeps | split)

theorem execRunOutLimit_keeps {P : List Part} {s₀ : State} (a0 : Fin 2) (a1 : State) (h1 : Keeps P s₀ a1)
    (cmodule : Part.module ∈ P := by assumption) (cmemory : Part.memory ∈ P := by assumption)
    (ctiers : Part.tiers ∈ P := by assumption) (ckv : Part.kv ∈ P := by assumption)
    (clinks : Part.links ∈ P := by assumption) (chosts : Part.hosts ∈ P := by assumption)
    (cmedia : Part.media ∈ P := by assumption) (cregs : Part.regs ∈ P := by assumption)
    (crel : Part.rel ∈ P := by assumption) (cfw : Part.fw ∈ P := by assumption)
    (cdraws : Part.draws ∈ P := by assumption) : ∀ u, execRunOutLimit a0 a1 = .next u → Keeps P s₀ u := by
  intro u e
  unfold execRunOutLimit at e
  (repeat' split at e) <;> cases e
  all_goals
  repeat' (first
      | with_reducible assumption | with_reducible apply State.poEnd_keeps | with_reducible apply State.setPo_keeps
      | split | dsimp only)

theorem execPoClear_keeps {P : List Part} {s₀ : State} (a0 : Writer) (a1 : Fin 2) (a2 : Word) (a3 : State) (h3
    : Keeps P s₀ a3) (cregs : Part.regs ∈ P := by assumption)
    : ∀ u, execPoClear a0 a1 a2 a3 = .next u → Keeps P s₀ u := by
  intro u e
  unfold execPoClear at e
  (repeat' split at e) <;> cases e
  all_goals
  repeat' (first
      | with_reducible assumption | with_reducible apply State.guarded_keeps
      | with_reducible apply State.setReg_keeps | with_reducible apply Keeps.foldl | intro _)

theorem execPlayQueue_keeps {P : List Part} {s₀ : State} (a0 : Fin 16) (a1 : State) (h1 : Keeps P s₀ a1)
    (cmodule : Part.module ∈ P := by assumption) (ckv : Part.kv ∈ P := by assumption)
    (chosts : Part.hosts ∈ P := by assumption) (cmedia : Part.media ∈ P := by assumption)
    (cregs : Part.regs ∈ P := by assumption) (crel : Part.rel ∈ P := by assumption)
    (cfw : Part.fw ∈ P := by assumption) : ∀ u, execPlayQueue a0 a1 = .next u → Keeps P s₀ u := by
  intro u e
  unfold execPlayQueue at e
  (repeat' split at e) <;> cases e
  all_goals
  repeat' (first
      | with_reducible assumption | with_reducible apply State.issueOrRun_keeps
      | with_reducible apply State.finish_keeps | with_reducible apply State.setPo_keeps | split | intro _
      | dsimp only)

theorem State.poEnter_keeps {P : List Part} {s₀ : State} (a0 : State) (a1 : ℕ) (h0 : Keeps P s₀ a0)
    (cmodule : Part.module ∈ P := by assumption) (ckv : Part.kv ∈ P := by assumption)
    (chosts : Part.hosts ∈ P := by assumption) (cmedia : Part.media ∈ P := by assumption)
    (cregs : Part.regs ∈ P := by assumption) (crel : Part.rel ∈ P := by assumption)
    (cfw : Part.fw ∈ P := by assumption) : Keeps P s₀ (State.poEnter a0 a1) := by
  unfold State.poEnter
  repeat' (first
      | with_reducible assumption | with_reducible apply State.setPo_keeps
      | with_reducible apply State.checkWork_keeps | with_reducible apply State.poCoded_keeps
      | (with_reducible refine Keeps.ofFst (by with_reducible assumption) ?_) | split)

theorem State.poReal_keeps {P : List Part} {s₀ : State} (a0 : State) (a1 : ℕ) (a2 : ℕ) (a3 : PFrame)
    (a4 : List PFrame) (h0 : Keeps P s₀ a0) (cmodule : Part.module ∈ P := by assumption)
    (ctiers : Part.tiers ∈ P := by assumption) (ckv : Part.kv ∈ P := by assumption)
    (chosts : Part.hosts ∈ P := by assumption) (cmedia : Part.media ∈ P := by assumption)
    (cregs : Part.regs ∈ P := by assumption) (crel : Part.rel ∈ P := by assumption)
    (cfw : Part.fw ∈ P := by assumption) : Keeps P s₀ (State.poReal a0 a1 a2 a3 a4) := by
  unfold State.poReal
  repeat' (first
      | with_reducible assumption | with_reducible apply State.poSendPackets_keeps
      | with_reducible apply State.poNote_keeps | with_reducible apply State.poEnter_keeps
      | with_reducible apply State.addWrap_keeps | with_reducible apply State.setPo_keeps)

theorem execSlate_keeps {P : List Part} {s₀ : State} (a0 : Fin 16) (a1 : State) (h1 : Keeps P s₀ a1)
    (cmodule : Part.module ∈ P := by assumption) (ctiers : Part.tiers ∈ P := by assumption)
    (ckv : Part.kv ∈ P := by assumption) (chosts : Part.hosts ∈ P := by assumption)
    (cmedia : Part.media ∈ P := by assumption) (cregs : Part.regs ∈ P := by assumption)
    (crel : Part.rel ∈ P := by assumption) (cfw : Part.fw ∈ P := by assumption)
    : ∀ u, execSlate a0 a1 = .next u → Keeps P s₀ u := by
  intro u e
  unfold execSlate at e
  (repeat' split at e) <;> cases e
  all_goals
  repeat' (first
      | with_reducible assumption | with_reducible apply State.mediaRun_keeps
      | with_reducible apply State.finish_keeps | with_reducible apply State.frameReady_keeps
      | with_reducible apply State.consumePoison_keeps | with_reducible apply State.setPo_keeps
      | with_reducible apply State.noteReads_keeps | split | intro _ | dsimp only)

theorem execPlayoutPacketSend_keeps {P : List Part} {s₀ : State} (a0 : Fin 2) (a1 : State) (h1 : Keeps P s₀ a1)
    (cmodule : Part.module ∈ P := by assumption) (cmemory : Part.memory ∈ P := by assumption)
    (ctiers : Part.tiers ∈ P := by assumption) (ckv : Part.kv ∈ P := by assumption)
    (clinks : Part.links ∈ P := by assumption) (chosts : Part.hosts ∈ P := by assumption)
    (cmedia : Part.media ∈ P := by assumption) (cregs : Part.regs ∈ P := by assumption)
    (crel : Part.rel ∈ P := by assumption) (cfw : Part.fw ∈ P := by assumption)
    (cdraws : Part.draws ∈ P := by assumption) : ∀ u, execPlayoutPacketSend a0 a1 = .next u → Keeps P s₀ u := by
  intro u e
  unfold execPlayoutPacketSend at e
  (repeat' split at e) <;> cases e
  all_goals
  repeat' (first
      | with_reducible assumption | with_reducible apply State.poEnd_keeps | with_reducible apply State.setPo_keeps
      | split | dsimp only)

theorem execPlayStop_keeps {P : List Part} {s₀ : State} (a0 : Fin 16) (a1 : State) (h1 : Keeps P s₀ a1)
    (cmodule : Part.module ∈ P := by assumption) (cmemory : Part.memory ∈ P := by assumption)
    (ctiers : Part.tiers ∈ P := by assumption) (ckv : Part.kv ∈ P := by assumption)
    (clinks : Part.links ∈ P := by assumption) (chosts : Part.hosts ∈ P := by assumption)
    (cmedia : Part.media ∈ P := by assumption) (cregs : Part.regs ∈ P := by assumption)
    (crel : Part.rel ∈ P := by assumption) (cfw : Part.fw ∈ P := by assumption)
    (cdraws : Part.draws ∈ P := by assumption) : ∀ u, execPlayStop a0 a1 = .next u → Keeps P s₀ u := by
  intro u e
  unfold execPlayStop at e
  (repeat' split at e) <;> cases e
  all_goals
  repeat' (first
      | with_reducible assumption | with_reducible apply State.mediaRun_keeps
      | with_reducible apply State.finish_keeps | with_reducible apply State.runOut_keeps | split | intro _
      | dsimp only)

theorem State.poRepeat_keeps {P : List Part} {s₀ : State} (a0 : State) (a1 : ℕ) (a2 : ℕ) (h0 : Keeps P s₀ a0)
    (ctiers : Part.tiers ∈ P := by assumption) (chosts : Part.hosts ∈ P := by assumption)
    (cmedia : Part.media ∈ P := by assumption) (cregs : Part.regs ∈ P := by assumption) : Keeps P s₀
    (State.poRepeat a0 a1 a2) := by
  unfold State.poRepeat
  repeat' (first
      | with_reducible assumption | with_reducible apply State.countRepeat_keeps
      | with_reducible apply State.poSendPackets_keeps | with_reducible apply State.poNote_keeps
      | with_reducible apply State.addSat_keeps | split)

theorem State.poSend_keeps {P : List Part} {s₀ : State} (a0 : State) (a1 : ℕ) (a2 : ℕ) (h0 : Keeps P s₀ a0)
    (cmodule : Part.module ∈ P := by assumption) (ctiers : Part.tiers ∈ P := by assumption)
    (ckv : Part.kv ∈ P := by assumption) (chosts : Part.hosts ∈ P := by assumption)
    (cmedia : Part.media ∈ P := by assumption) (cregs : Part.regs ∈ P := by assumption)
    (crel : Part.rel ∈ P := by assumption) (cfw : Part.fw ∈ P := by assumption) : Keeps P s₀
    (State.poSend a0 a1 a2) := by
  unfold State.poSend
  repeat' (first
      | with_reducible assumption | with_reducible apply State.poReal_keeps
      | with_reducible apply State.poSlate_keeps | with_reducible apply State.poRepeat_keeps | split | dsimp only)

theorem execPlayoutFrameTake_keeps {P : List Part} {s₀ : State} (a0 : FrameTake) (a1 : State) (h1
    : Keeps P s₀ a1) (cmodule : Part.module ∈ P := by assumption) (cmemory : Part.memory ∈ P := by assumption)
    (ctiers : Part.tiers ∈ P := by assumption) (ckv : Part.kv ∈ P := by assumption)
    (clinks : Part.links ∈ P := by assumption) (chosts : Part.hosts ∈ P := by assumption)
    (cmedia : Part.media ∈ P := by assumption) (cregs : Part.regs ∈ P := by assumption)
    (crel : Part.rel ∈ P := by assumption) (cfw : Part.fw ∈ P := by assumption)
    (cdraws : Part.draws ∈ P := by assumption) : ∀ u, execPlayoutFrameTake a0 a1 = .next u → Keeps P s₀ u := by
  intro u e
  unfold execPlayoutFrameTake at e
  (repeat' split at e) <;> cases e
  all_goals
  repeat' (first
      | with_reducible assumption | with_reducible apply State.commitPoint_keeps
      | with_reducible apply State.poSend_keeps | with_reducible apply State.setPo_keeps | split | dsimp only)

theorem State.runOutOf_keeps {P : List Part} {s₀ : State} (a0 : State) (a1 : ℕ) (h0 : Keeps P s₀ a0)
    (cmodule : Part.module ∈ P := by assumption) (cmemory : Part.memory ∈ P := by assumption)
    (ctiers : Part.tiers ∈ P := by assumption) (ckv : Part.kv ∈ P := by assumption)
    (clinks : Part.links ∈ P := by assumption) (chosts : Part.hosts ∈ P := by assumption)
    (cmedia : Part.media ∈ P := by assumption) (cregs : Part.regs ∈ P := by assumption)
    (crel : Part.rel ∈ P := by assumption) (cfw : Part.fw ∈ P := by assumption)
    (cdraws : Part.draws ∈ P := by assumption) : Keeps P s₀ (State.runOutOf a0 a1) := by
  unfold State.runOutOf
  repeat' (first
      | with_reducible assumption | with_reducible apply State.runOut_keeps | with_reducible apply Keeps.iter
      | split | intro _)

theorem State.latticeHavoc_keeps {P : List Part} {s₀ : State} (a0 : State) (a1 : Lattice) (h0 : Keeps P s₀ a0)
    (cmemory : Part.memory ∈ P := by assumption) (cdraws : Part.draws ∈ P := by assumption) : Keeps P s₀
    (State.latticeHavoc a0 a1) := by
  unfold State.latticeHavoc
  repeat' (first
      | with_reducible assumption | with_reducible apply State.infHavoc_keeps | with_reducible apply Keeps.foldl
      | with_reducible apply Keeps.iter | intro _)

theorem State.havocCmd_keeps {P : List Part} {s₀ : State} (a0 : State) (a1 : CmdId) (a2 : Cmd) (h0 : Keeps P s₀ a0)
    (cmemory : Part.memory ∈ P := by assumption) (ctiers : Part.tiers ∈ P := by assumption)
    (ckv : Part.kv ∈ P := by assumption) (cdraws : Part.draws ∈ P := by assumption) : Keeps P s₀
    (State.havocCmd a0 a1 a2) := by
  unfold State.havocCmd
  repeat' (first
      | with_reducible assumption | with_reducible apply State.infHavoc_keeps
      | with_reducible apply State.cvaHavoc_keeps | with_reducible apply State.latticeHavoc_keeps
      | with_reducible apply Keeps.foldl | split | intro _ | dsimp only)

theorem State.dropFlight_keeps {P : List Part} {s₀ : State} (a0 : State) (a1 : CmdId) (h0 : Keeps P s₀ a0)
    (ctiers : Part.tiers ∈ P := by assumption) (ckv : Part.kv ∈ P := by assumption)
    (clinks : Part.links ∈ P := by assumption) (cmedia : Part.media ∈ P := by assumption) : Keeps P s₀
    (State.dropFlight a0 a1) := by
  unfold State.dropFlight
  repeat' (first
      | with_reducible assumption | dsimp only
      | (fail_if_no_progress with_reducible refine Keeps.free ?_ _ _ _ _ _ _ _ _ _ _ _ _ _))

theorem State.stopCmd_keeps {P : List Part} {s₀ : State} (a0 : State) (a1 : CmdId) (a2 : Cmd) (a3 : ℕ) (h0
    : Keeps P s₀ a0) (cmodule : Part.module ∈ P := by assumption) (ctiles : Part.tiles ∈ P := by assumption)
    (cmemory : Part.memory ∈ P := by assumption) (ctiers : Part.tiers ∈ P := by assumption)
    (ckv : Part.kv ∈ P := by assumption) (cattn : Part.attn ∈ P := by assumption)
    (clinks : Part.links ∈ P := by assumption) (chosts : Part.hosts ∈ P := by assumption)
    (cmedia : Part.media ∈ P := by assumption) (cregs : Part.regs ∈ P := by assumption)
    (crel : Part.rel ∈ P := by assumption) (cfw : Part.fw ∈ P := by assumption)
    (cdraws : Part.draws ∈ P := by assumption) : Keeps P s₀ (State.stopCmd a0 a1 a2 a3) := by
  unfold State.stopCmd
  repeat' (first
      | with_reducible assumption | with_reducible apply State.modCmd_keeps
      | with_reducible apply State.cancelKernel_keeps | with_reducible apply State.finish_keeps
      | with_reducible apply State.endAttention_keeps | with_reducible apply State.failCmd_keeps
      | with_reducible apply State.havocCmd_keeps | with_reducible apply State.dropFlight_keeps | split | dsimp only)

theorem State.losePort_keeps {P : List Part} {s₀ : State} (a0 : State) (a1 : ℕ) (h0 : Keeps P s₀ a0)
    (cmodule : Part.module ∈ P := by assumption) (cmemory : Part.memory ∈ P := by assumption)
    (ctiers : Part.tiers ∈ P := by assumption) (ckv : Part.kv ∈ P := by assumption)
    (clinks : Part.links ∈ P := by assumption) (chosts : Part.hosts ∈ P := by assumption)
    (cmedia : Part.media ∈ P := by assumption) (cregs : Part.regs ∈ P := by assumption)
    (crel : Part.rel ∈ P := by assumption) (cfw : Part.fw ∈ P := by assumption)
    (cdraws : Part.draws ∈ P := by assumption) : Keeps P s₀ (State.losePort a0 a1) := by
  unfold State.losePort
  repeat' (first
      | with_reducible assumption | with_reducible apply State.hpEvent_keeps
      | with_reducible apply State.setCtx_keeps | with_reducible apply State.runOutOf_keeps | split)

theorem State.portDown_keeps {P : List Part} {s₀ : State} (a0 : State) (a1 : ℕ) (h0 : Keeps P s₀ a0)
    (cmodule : Part.module ∈ P := by assumption) (cmemory : Part.memory ∈ P := by assumption)
    (ctiers : Part.tiers ∈ P := by assumption) (ckv : Part.kv ∈ P := by assumption)
    (clinks : Part.links ∈ P := by assumption) (chosts : Part.hosts ∈ P := by assumption)
    (cmedia : Part.media ∈ P := by assumption) (cregs : Part.regs ∈ P := by assumption)
    (crel : Part.rel ∈ P := by assumption) (cfw : Part.fw ∈ P := by assumption)
    (cdraws : Part.draws ∈ P := by assumption) : Keeps P s₀ (State.portDown a0 a1) := by
  unfold State.portDown
  repeat' (first
      | with_reducible assumption | with_reducible apply State.hpEvent_keeps
      | with_reducible apply State.setPort_keeps | with_reducible apply State.losePort_keeps
      | with_reducible apply Keeps.iter | split | intro _ | dsimp only)

theorem State.stopAll_keeps {P : List Part} {s₀ : State} (a0 : State) (a1 : ℕ) (h0 : Keeps P s₀ a0)
    (cmodule : Part.module ∈ P := by assumption) (ctiles : Part.tiles ∈ P := by assumption)
    (crails : Part.rails ∈ P := by assumption) (cmemory : Part.memory ∈ P := by assumption)
    (ctiers : Part.tiers ∈ P := by assumption) (ckv : Part.kv ∈ P := by assumption)
    (cattn : Part.attn ∈ P := by assumption) (clinks : Part.links ∈ P := by assumption)
    (chosts : Part.hosts ∈ P := by assumption) (cmedia : Part.media ∈ P := by assumption)
    (cregs : Part.regs ∈ P := by assumption) (crel : Part.rel ∈ P := by assumption)
    (cfw : Part.fw ∈ P := by assumption) (cdraws : Part.draws ∈ P := by assumption) : Keeps P s₀
    (State.stopAll a0 a1) := by
  unfold State.stopAll
  repeat' (first
      | with_reducible assumption | with_reducible apply State.stopCmd_keeps
      | with_reducible apply State.settle_keeps | with_reducible apply Keeps.foldl | with_reducible apply Keeps.iter
      | split | intro _ | dsimp only
      | (fail_if_no_progress with_reducible refine Keeps.free ?_ _ _ _ _ _ _ _ _ _ _ _ _ _))

theorem execHostPortUp_keeps {P : List Part} {s₀ : State} (a0 : Fin 4) (a1 : State) (h1 : Keeps P s₀ a1)
    (chosts : Part.hosts ∈ P := by assumption) (cregs : Part.regs ∈ P := by assumption)
    (cdraws : Part.draws ∈ P := by assumption) : ∀ u, execHostPortUp a0 a1 = .next u → Keeps P s₀ u := by
  intro u e
  unfold execHostPortUp at e
  (repeat' split at e) <;> cases e
  all_goals
  repeat' (first
      | with_reducible assumption | with_reducible apply State.hpEvent_keeps
      | with_reducible apply State.setPort_keeps | split | dsimp only
      | (fail_if_no_progress with_reducible refine Keeps.free ?_ _ _ _ _ _ _ _ _ _ _ _ _ _))

theorem State.clearCx_keeps {P : List Part} {s₀ : State} (a0 : State) (a1 : ℕ) (h0 : Keeps P s₀ a0)
    (ctiles : Part.tiles ∈ P := by assumption) (chosts : Part.hosts ∈ P := by assumption)
    (csched : Part.sched ∈ P := by assumption) : Keeps P s₀ (State.clearCx a0 a1) := by
  unfold State.clearCx
  repeat' (first
      | with_reducible assumption | with_reducible apply State.setRing_keeps
      | with_reducible apply State.setCtx_keeps | with_reducible apply Keeps.iter | split | intro _ | dsimp only
      | (fail_if_no_progress with_reducible refine Keeps.free ?_ _ _ _ _ _ _ _ _ _ _ _ _ _))

theorem execTeardown_keeps {P : List Part} {s₀ : State} (a0 : Fin 16) (a1 : State) (h1 : Keeps P s₀ a1)
    (cmodule : Part.module ∈ P := by assumption) (ctiles : Part.tiles ∈ P := by assumption)
    (crails : Part.rails ∈ P := by assumption) (cmemory : Part.memory ∈ P := by assumption)
    (ctiers : Part.tiers ∈ P := by assumption) (ckv : Part.kv ∈ P := by assumption)
    (cattn : Part.attn ∈ P := by assumption) (clinks : Part.links ∈ P := by assumption)
    (chosts : Part.hosts ∈ P := by assumption) (csched : Part.sched ∈ P := by assumption)
    (cmedia : Part.media ∈ P := by assumption) (cregs : Part.regs ∈ P := by assumption)
    (crel : Part.rel ∈ P := by assumption) (cfw : Part.fw ∈ P := by assumption)
    (cdraws : Part.draws ∈ P := by assumption) : ∀ u, execTeardown a0 a1 = .next u → Keeps P s₀ u := by
  intro u e
  unfold execTeardown at e
  (repeat' split at e) <;> cases e
  all_goals
  repeat' (first
      | with_reducible assumption | with_reducible apply State.reschedule_keeps
      | with_reducible apply State.runOutOf_keeps | with_reducible apply State.clearCx_keeps
      | with_reducible apply State.stopAll_keeps | split | dsimp only)

theorem execDurationExpiry_keeps {P : List Part} {s₀ : State} (a0 : Fin 16) (a1 : Fin 4) (a2 : State) (h2
    : Keeps P s₀ a2) (cmodule : Part.module ∈ P := by assumption) (ctiles : Part.tiles ∈ P := by assumption)
    (cmemory : Part.memory ∈ P := by assumption) (ctiers : Part.tiers ∈ P := by assumption)
    (ckv : Part.kv ∈ P := by assumption) (cattn : Part.attn ∈ P := by assumption)
    (clinks : Part.links ∈ P := by assumption) (chosts : Part.hosts ∈ P := by assumption)
    (cmedia : Part.media ∈ P := by assumption) (cregs : Part.regs ∈ P := by assumption)
    (crel : Part.rel ∈ P := by assumption) (cfw : Part.fw ∈ P := by assumption)
    (cdraws : Part.draws ∈ P := by assumption) : ∀ u, execDurationExpiry a0 a1 a2 = .next u → Keeps P s₀ u := by
  intro u e
  unfold execDurationExpiry at e
  (repeat' split at e) <;> cases e
  all_goals
  repeat' (first
      | with_reducible assumption | with_reducible apply State.stopCmd_keeps
      | with_reducible apply State.finish_keeps | split | dsimp only)

theorem State.havocOf_keeps {P : List Part} {s₀ : State} (a0 : State) (a1 : CmdId) (h0 : Keeps P s₀ a0)
    (cmemory : Part.memory ∈ P := by assumption) (ctiers : Part.tiers ∈ P := by assumption)
    (ckv : Part.kv ∈ P := by assumption) (cdraws : Part.draws ∈ P := by assumption) : Keeps P s₀
    (State.havocOf a0 a1) := by
  unfold State.havocOf
  repeat' (first
      | with_reducible assumption | with_reducible apply State.havocCmd_keeps | split)

theorem execHostPortDegraded_keeps {P : List Part} {s₀ : State} (a0 : Fin 4) (a1 : State) (h1 : Keeps P s₀ a1)
    (chosts : Part.hosts ∈ P := by assumption) (cregs : Part.regs ∈ P := by assumption)
    : ∀ u, execHostPortDegraded a0 a1 = .next u → Keeps P s₀ u := by
  intro u e
  unfold execHostPortDegraded at e
  (repeat' split at e) <;> cases e
  all_goals
  repeat' (first
      | with_reducible assumption | with_reducible apply State.hpEvent_keeps
      | with_reducible apply State.setPort_keeps | split | dsimp only)

theorem execHostPortDown_keeps {P : List Part} {s₀ : State} (a0 : Fin 4) (a1 : State) (h1 : Keeps P s₀ a1)
    (cmodule : Part.module ∈ P := by assumption) (cmemory : Part.memory ∈ P := by assumption)
    (ctiers : Part.tiers ∈ P := by assumption) (ckv : Part.kv ∈ P := by assumption)
    (clinks : Part.links ∈ P := by assumption) (chosts : Part.hosts ∈ P := by assumption)
    (cmedia : Part.media ∈ P := by assumption) (cregs : Part.regs ∈ P := by assumption)
    (crel : Part.rel ∈ P := by assumption) (cfw : Part.fw ∈ P := by assumption)
    (cdraws : Part.draws ∈ P := by assumption) : ∀ u, execHostPortDown a0 a1 = .next u → Keeps P s₀ u := by
  intro u e
  unfold execHostPortDown at e
  (repeat' split at e) <;> cases e
  all_goals
  repeat' (first
      | with_reducible assumption | with_reducible apply State.portDown_keeps)

end Sys2Proof.Machine
end

