-- ==== Sys2Proof/Laws/KeepsModule.lean ====
section
/-!
SUPPORT. The parts of the state that each operation may write, and that every operation keeps the bytes canonical, the logbook
growing and the fuses blown (`Keeps`): field losses, stacks, the logbook, firmware, the wipe, reset and start-up, register writes and the tick.
-/



namespace Sys2Proof.Machine

open Sys2Proof Sys2Proof.Safety

set_option linter.all false
set_option Elab.async false

theorem State.logActivate_keeps {P : List Part} {s₀ : State} (a0 : State) (a1 : ℕ) (a2 : ℕ) (a3 : Bool) (a4 : Bool)
    (a5 : Bool) (a6 : ℕ) (h0 : Keeps P s₀ a0) (chosts : Part.hosts ∈ P := by assumption)
    (cregs : Part.regs ∈ P := by assumption) (crel : Part.rel ∈ P := by assumption)
    (cfw : Part.fw ∈ P := by assumption) : Keeps P s₀ (State.logActivate a0 a1 a2 a3 a4 a5 a6) := by
  unfold State.logActivate
  repeat' (first
      | with_reducible assumption | with_reducible apply State.log_keeps)

theorem State.fuMode_keeps {P : List Part} {s₀ : State} (a0 : State) (a1 : FuMode) (h0 : Keeps P s₀ a0)
    (chosts : Part.hosts ∈ P := by assumption) (cregs : Part.regs ∈ P := by assumption)
    (cfw : Part.fw ∈ P := by assumption) : Keeps P s₀ (State.fuMode a0 a1) := by
  unfold State.fuMode
  repeat' (first
      | with_reducible assumption | with_reducible apply State.ownerEvent_keeps | split | intro _ | dsimp only
      | (fail_if_no_progress with_reducible refine Keeps.upd ?_ _ _ _ _ _ _ _ _ _ _ _ _ _ _ _ _ _ ?_ ?_ ?_ ?_ ?_ ?_))

theorem State.fuRest_keeps {P : List Part} {s₀ : State} (a0 : State) (h0 : Keeps P s₀ a0)
    (chosts : Part.hosts ∈ P := by assumption) (cregs : Part.regs ∈ P := by assumption)
    (cfw : Part.fw ∈ P := by assumption) : Keeps P s₀ (State.fuRest a0) := by
  unfold State.fuRest
  repeat' (first
      | with_reducible assumption | with_reducible apply State.fuMode_keeps)

theorem State.fuStatus_keeps {P : List Part} {s₀ : State} (a0 : State) (a1 : ℕ) (h0 : Keeps P s₀ a0)
    (cfw : Part.fw ∈ P := by assumption) : Keeps P s₀ (State.fuStatus a0 a1) := by
  unfold State.fuStatus
  repeat' (first
      | with_reducible assumption | intro _ | dsimp only
      | (fail_if_no_progress with_reducible refine Keeps.upd ?_ _ _ _ _ _ _ _ _ _ _ _ _ _ _ _ _ _ ?_ ?_ ?_ ?_ ?_ ?_))

theorem State.undoActivation_keeps {P : List Part} {s₀ : State} (a0 : State) (h0 : Keeps P s₀ a0)
    (chosts : Part.hosts ∈ P := by assumption) (cregs : Part.regs ∈ P := by assumption)
    (crel : Part.rel ∈ P := by assumption) (cfw : Part.fw ∈ P := by assumption) : Keeps P s₀
    (State.undoActivation a0) := by
  unfold State.undoActivation
  repeat' (first
      | with_reducible assumption | with_reducible apply State.fuStatus_keeps
      | with_reducible apply State.fuMode_keeps | with_reducible apply State.logActivate_keeps)

theorem State.clearSeqs_keeps {P : List Part} {s₀ : State} (a0 : State) (h0 : Keeps P s₀ a0)
    (cmodule : Part.module ∈ P := by assumption) (cmemory : Part.memory ∈ P := by assumption)
    (ctiers : Part.tiers ∈ P := by assumption) (ckv : Part.kv ∈ P := by assumption)
    (clinks : Part.links ∈ P := by assumption) (chosts : Part.hosts ∈ P := by assumption)
    (cregs : Part.regs ∈ P := by assumption) (crel : Part.rel ∈ P := by assumption)
    (cfw : Part.fw ∈ P := by assumption) (cdraws : Part.draws ∈ P := by assumption) : Keeps P s₀
    (State.clearSeqs a0) := by
  unfold State.clearSeqs
  repeat' (first
      | with_reducible assumption | with_reducible apply State.credit_keeps
      | with_reducible apply State.setReg_keeps | with_reducible apply State.setSeq_keeps
      | with_reducible apply State.workDone_keeps | with_reducible apply Keeps.foldl
      | with_reducible apply Keeps.iter | intro _ | dsimp only
      | (fail_if_no_progress with_reducible refine Keeps.free ?_ _ _ _ _ _ _ _ _ _ _ _ _ _))

theorem State.dropRails_keeps {P : List Part} {s₀ : State} (a0 : State) (a1 : ℕ) (h0 : Keeps P s₀ a0)
    (cmodule : Part.module ∈ P := by assumption) (cmemory : Part.memory ∈ P := by assumption)
    (ctiers : Part.tiers ∈ P := by assumption) (ckv : Part.kv ∈ P := by assumption)
    (clinks : Part.links ∈ P := by assumption) (chosts : Part.hosts ∈ P := by assumption)
    (csched : Part.sched ∈ P := by assumption) (cmedia : Part.media ∈ P := by assumption)
    (cregs : Part.regs ∈ P := by assumption) (crel : Part.rel ∈ P := by assumption)
    (cfw : Part.fw ∈ P := by assumption) (cdraws : Part.draws ∈ P := by assumption) : Keeps P s₀
    (State.dropRails a0 a1) := by
  unfold State.dropRails
  repeat' (first
      | with_reducible assumption | with_reducible apply State.portDown_keeps
      | with_reducible apply State.linkLeave_keeps | with_reducible apply Keeps.iter | split | intro _ | dsimp only
      | (fail_if_no_progress with_reducible refine Keeps.upd ?_ _ _ _ _ _ _ _ _ _ _ _ _ _ _ _ _ _ ?_ ?_ ?_ ?_ ?_ ?_)
      | exact reset_memory_wf)

theorem State.raiseEpoch_keeps {P : List Part} {s₀ : State} (a0 : State) (h0 : Keeps P s₀ a0)
    (cmodule : Part.module ∈ P := by assumption) (chosts : Part.hosts ∈ P := by assumption)
    (cregs : Part.regs ∈ P := by assumption) : Keeps P s₀ (State.raiseEpoch a0) := by
  unfold State.raiseEpoch
  repeat' (first
      | with_reducible assumption | with_reducible apply State.hpEventAll_keeps
      | with_reducible apply State.ownerEvent_keeps | intro _ | dsimp only
      | (fail_if_no_progress with_reducible refine Keeps.upd ?_ _ _ _ _ _ _ _ _ _ _ _ _ _ _ _ _ _ ?_ ?_ ?_ ?_ ?_ ?_))

theorem State.takeRank_keeps {P : List Part} {s₀ : State} (a0 : State) (a1 : ℕ) (a2 : ℕ) (a3 : ℕ) (a4 : Bool) (h0
    : Keeps P s₀ a0) (cmodule : Part.module ∈ P := by assumption) (csites : Part.sites ∈ P := by assumption)
    (ctiles : Part.tiles ∈ P := by assumption) (ctiers : Part.tiers ∈ P := by assumption)
    (cattn : Part.attn ∈ P := by assumption) (chosts : Part.hosts ∈ P := by assumption)
    (cregs : Part.regs ∈ P := by assumption) (crel : Part.rel ∈ P := by assumption)
    (cfw : Part.fw ∈ P := by assumption) : Keeps P s₀ (State.takeRank a0 a1 a2 a3 a4) := by
  unfold State.takeRank
  repeat' (first
      | with_reducible assumption | with_reducible apply State.dropField_keeps
      | with_reducible apply State.setSite_keeps | with_reducible apply State.setStack_keeps
      | with_reducible apply State.ownerEvent_keeps | with_reducible apply State.raiseEpoch_keeps
      | with_reducible apply State.log_keeps | intro _ | dsimp only
      | (fail_if_no_progress with_reducible refine Keeps.upd ?_ _ _ _ _ _ _ _ _ _ _ _ _ _ _ _ _ _ ?_ ?_ ?_ ?_ ?_ ?_))

theorem State.substStatus_keeps {P : List Part} {s₀ : State} (a0 : State) (a1 : ℕ) (h0 : Keeps P s₀ a0)
    (crel : Part.rel ∈ P := by assumption) : Keeps P s₀ (State.substStatus a0 a1) := by
  unfold State.substStatus
  repeat' (first
      | with_reducible assumption | intro _ | dsimp only
      | (fail_if_no_progress with_reducible refine Keeps.upd ?_ _ _ _ _ _ _ _ _ _ _ _ _ _ _ _ _ _ ?_ ?_ ?_ ?_ ?_ ?_))

theorem State.retireSite_keeps {P : List Part} {s₀ : State} (a0 : State) (a1 : ℕ) (h0 : Keeps P s₀ a0)
    (csites : Part.sites ∈ P := by assumption) (ctiles : Part.tiles ∈ P := by assumption)
    (cattn : Part.attn ∈ P := by assumption) (cregs : Part.regs ∈ P := by assumption) : Keeps P s₀
    (State.retireSite a0 a1) := by
  unfold State.retireSite
  repeat' (first
      | with_reducible assumption | with_reducible apply State.dropField_keeps
      | with_reducible apply State.setSite_keeps)

theorem State.setMissing_keeps {P : List Part} {s₀ : State} (a0 : State) (a1 : ℕ) (a2 : ℕ) (h0 : Keeps P s₀ a0)
    (crel : Part.rel ∈ P := by assumption) : Keeps P s₀ (State.setMissing a0 a1 a2) := by
  unfold State.setMissing
  repeat' (first
      | with_reducible assumption | intro _ | dsimp only
      | (fail_if_no_progress with_reducible refine Keeps.upd ?_ _ _ _ _ _ _ _ _ _ _ _ _ _ _ _ _ _ ?_ ?_ ?_ ?_ ?_ ?_))

theorem State.endKernels_keeps {P : List Part} {s₀ : State} (a0 : State) (a1 : ℕ) (h0 : Keeps P s₀ a0)
    (cmodule : Part.module ∈ P := by assumption) (ctiles : Part.tiles ∈ P := by assumption)
    (cmemory : Part.memory ∈ P := by assumption) (ckv : Part.kv ∈ P := by assumption)
    (chosts : Part.hosts ∈ P := by assumption) (cregs : Part.regs ∈ P := by assumption)
    (crel : Part.rel ∈ P := by assumption) (cfw : Part.fw ∈ P := by assumption)
    (cdraws : Part.draws ∈ P := by assumption) : Keeps P s₀ (State.endKernels a0 a1) := by
  unfold State.endKernels
  repeat' (first
      | with_reducible assumption | with_reducible apply State.cancelKernel_keeps | with_reducible apply Keeps.foldl
      | split | intro _)

theorem State.loseController_keeps {P : List Part} {s₀ : State} (a0 : State) (a1 : ℕ) (h0 : Keeps P s₀ a0)
    (ctiles : Part.tiles ∈ P := by assumption) : Keeps P s₀ (State.loseController a0 a1) := by
  unfold State.loseController
  repeat' (first
      | with_reducible assumption | dsimp only
      | (fail_if_no_progress with_reducible refine Keeps.free ?_ _ _ _ _ _ _ _ _ _ _ _ _ _))

theorem State.poisonInfield_keeps {P : List Part} {s₀ : State} (a0 : State) (a1 : ℕ) (h0 : Keeps P s₀ a0)
    (cmemory : Part.memory ∈ P := by assumption) : Keeps P s₀ (State.poisonInfield a0 a1) := by
  exact Keeps.store h0 (State.poisonInfield_wf _ _) rfl

theorem State.dropHeld_keeps {P : List Part} {s₀ : State} (a0 : State) (a1 : ℕ) (a2 : ℕ) (h0 : Keeps P s₀ a0)
    (cmodule : Part.module ∈ P := by assumption) (cmemory : Part.memory ∈ P := by assumption)
    (ctiers : Part.tiers ∈ P := by assumption) (ckv : Part.kv ∈ P := by assumption)
    (clinks : Part.links ∈ P := by assumption) (chosts : Part.hosts ∈ P := by assumption)
    (cregs : Part.regs ∈ P := by assumption) (crel : Part.rel ∈ P := by assumption)
    (cfw : Part.fw ∈ P := by assumption) (cdraws : Part.draws ∈ P := by assumption) : Keeps P s₀
    (State.dropHeld a0 a1 a2) := by
  unfold State.dropHeld
  repeat' (first
      | with_reducible assumption | with_reducible apply State.failCmd_keeps
      | with_reducible apply State.havocOf_keeps | with_reducible apply Keeps.foldl | intro _ | dsimp only
      | (fail_if_no_progress with_reducible refine Keeps.free ?_ _ _ _ _ _ _ _ _ _ _ _ _ _))

theorem State.loseStore_keeps {P : List Part} {s₀ : State} (a0 : State) (a1 : ℕ) (h0 : Keeps P s₀ a0)
    (cmodule : Part.module ∈ P := by assumption) (cmemory : Part.memory ∈ P := by assumption)
    (ctiers : Part.tiers ∈ P := by assumption) (ckv : Part.kv ∈ P := by assumption)
    (clinks : Part.links ∈ P := by assumption) (chosts : Part.hosts ∈ P := by assumption)
    (cregs : Part.regs ∈ P := by assumption) (crel : Part.rel ∈ P := by assumption)
    (cfw : Part.fw ∈ P := by assumption) (cdraws : Part.draws ∈ P := by assumption) : Keeps P s₀
    (State.loseStore a0 a1) := by
  unfold State.loseStore
  refine Keeps.upd (State.setStack_keeps _ _ _ (State.dropHeld_keeps _ _ _ h0)) _ _ _ _ _ _ _ _ _ _ _ _ _ _ _ _ _ rfl ?_ rfl rfl rfl rfl
  rintro ⟨h1, h2, h3, h4, h5, h6⟩
  exact ⟨h1, h2, h3, h4, setWf_sput _ _ h5, setWf_filter _ _ h6⟩

theorem State.takeDown_keeps {P : List Part} {s₀ : State} (a0 : State) (a1 : ℕ) (a2 : ℕ) (h0 : Keeps P s₀ a0)
    (cmodule : Part.module ∈ P := by assumption) (csites : Part.sites ∈ P := by assumption)
    (ctiles : Part.tiles ∈ P := by assumption) (cmemory : Part.memory ∈ P := by assumption)
    (ctiers : Part.tiers ∈ P := by assumption) (ckv : Part.kv ∈ P := by assumption)
    (cattn : Part.attn ∈ P := by assumption) (clinks : Part.links ∈ P := by assumption)
    (chosts : Part.hosts ∈ P := by assumption) (cregs : Part.regs ∈ P := by assumption)
    (crel : Part.rel ∈ P := by assumption) (cfw : Part.fw ∈ P := by assumption)
    (cdraws : Part.draws ∈ P := by assumption) : Keeps P s₀ (State.takeDown a0 a1 a2) := by
  unfold State.takeDown
  repeat' (first
      | with_reducible assumption | with_reducible apply State.retireSite_keeps
      | with_reducible apply State.setMissing_keeps | with_reducible apply State.faultCx_keeps
      | with_reducible apply State.endKernels_keeps | with_reducible apply State.loseController_keeps
      | with_reducible apply State.poisonInfield_keeps | with_reducible apply State.loseStore_keeps
      | with_reducible apply State.clearSeqs_keeps | with_reducible apply Keeps.iter | intro _)

theorem State.beginUnplanned_keeps {P : List Part} {s₀ : State} (a0 : State) (a1 : ℕ) (a2 : ℕ) (h0 : Keeps P s₀ a0)
    (crel : Part.rel ∈ P := by assumption) : Keeps P s₀ (State.beginUnplanned a0 a1 a2) := by
  unfold State.beginUnplanned
  repeat' (first
      | with_reducible assumption | split | intro _ | dsimp only
      | (fail_if_no_progress with_reducible refine Keeps.upd ?_ _ _ _ _ _ _ _ _ _ _ _ _ _ _ _ _ _ ?_ ?_ ?_ ?_ ?_ ?_))

theorem State.replaceNew_keeps {P : List Part} {s₀ : State} (a0 : State) (h0 : Keeps P s₀ a0)
    (crel : Part.rel ∈ P := by assumption) : Keeps P s₀ (State.replaceNew a0) := by
  unfold State.replaceNew
  repeat' (first
      | with_reducible assumption | split | intro _ | dsimp only
      | (fail_if_no_progress with_reducible refine Keeps.upd ?_ _ _ _ _ _ _ _ _ _ _ _ _ _ _ _ _ _ ?_ ?_ ?_ ?_ ?_ ?_))

theorem State.applyHeld_keeps {P : List Part} {s₀ : State} (a0 : State) (a1 : ℕ) (h0 : Keeps P s₀ a0)
    (cmodule : Part.module ∈ P := by assumption) (cmemory : Part.memory ∈ P := by assumption)
    (ctiers : Part.tiers ∈ P := by assumption) (ckv : Part.kv ∈ P := by assumption)
    (clinks : Part.links ∈ P := by assumption) (chosts : Part.hosts ∈ P := by assumption)
    (cregs : Part.regs ∈ P := by assumption) (crel : Part.rel ∈ P := by assumption)
    (cfw : Part.fw ∈ P := by assumption) (cdraws : Part.draws ∈ P := by assumption) : Keeps P s₀
    (State.applyHeld a0 a1) := by
  unfold State.applyHeld
  repeat' (first
      | with_reducible assumption | with_reducible apply State.storeWriteMarked_keeps
      | with_reducible apply State.workDone_keeps | with_reducible apply Keeps.foldl | intro _ | dsimp only
      | (fail_if_no_progress with_reducible refine Keeps.free ?_ _ _ _ _ _ _ _ _ _ _ _ _ _))

theorem State.substAfter_keeps {P : List Part} {s₀ : State} (a0 : State) (a1 : ℕ) (a2 : ℕ) (h0 : Keeps P s₀ a0)
    (crel : Part.rel ∈ P := by assumption) : Keeps P s₀ (State.substAfter a0 a1 a2) := by
  unfold State.substAfter
  repeat' (first
      | with_reducible assumption | with_reducible apply State.beginUnplanned_keeps | split | intro _ | dsimp only
      | (fail_if_no_progress with_reducible refine Keeps.upd ?_ _ _ _ _ _ _ _ _ _ _ _ _ _ _ _ _ _ ?_ ?_ ?_ ?_ ?_ ?_))

theorem State.logLoss_keeps {P : List Part} {s₀ : State} (a0 : State) (a1 : ℕ) (h0 : Keeps P s₀ a0)
    (chosts : Part.hosts ∈ P := by assumption) (cregs : Part.regs ∈ P := by assumption)
    (crel : Part.rel ∈ P := by assumption) (cfw : Part.fw ∈ P := by assumption) : Keeps P s₀
    (State.logLoss a0 a1) := by
  unfold State.logLoss
  repeat' (first
      | with_reducible assumption | with_reducible apply State.ownerEvent_keeps
      | with_reducible apply State.log_keeps)

theorem State.loseActive_keeps {P : List Part} {s₀ : State} (a0 : State) (a1 : ℕ) (a2 : ℕ) (h0 : Keeps P s₀ a0)
    (cmodule : Part.module ∈ P := by assumption) (csites : Part.sites ∈ P := by assumption)
    (ctiles : Part.tiles ∈ P := by assumption) (cmemory : Part.memory ∈ P := by assumption)
    (ctiers : Part.tiers ∈ P := by assumption) (ckv : Part.kv ∈ P := by assumption)
    (cattn : Part.attn ∈ P := by assumption) (clinks : Part.links ∈ P := by assumption)
    (chosts : Part.hosts ∈ P := by assumption) (cregs : Part.regs ∈ P := by assumption)
    (crel : Part.rel ∈ P := by assumption) (cfw : Part.fw ∈ P := by assumption)
    (cdraws : Part.draws ∈ P := by assumption) : Keeps P s₀ (State.loseActive a0 a1 a2) := by
  unfold State.loseActive
  repeat' (first
      | with_reducible assumption | with_reducible apply State.undoActivation_keeps
      | with_reducible apply State.substAfter_keeps | with_reducible apply State.interrupt_keeps
      | with_reducible apply State.logLoss_keeps | with_reducible apply State.takeDown_keeps | split)

theorem State.loseField_keeps {P : List Part} {s₀ : State} (a0 : State) (a1 : ℕ) (h0 : Keeps P s₀ a0)
    (cmodule : Part.module ∈ P := by assumption) (csites : Part.sites ∈ P := by assumption)
    (ctiles : Part.tiles ∈ P := by assumption) (cmemory : Part.memory ∈ P := by assumption)
    (ctiers : Part.tiers ∈ P := by assumption) (ckv : Part.kv ∈ P := by assumption)
    (cattn : Part.attn ∈ P := by assumption) (clinks : Part.links ∈ P := by assumption)
    (chosts : Part.hosts ∈ P := by assumption) (cregs : Part.regs ∈ P := by assumption)
    (crel : Part.rel ∈ P := by assumption) (cfw : Part.fw ∈ P := by assumption)
    (cdraws : Part.draws ∈ P := by assumption) : Keeps P s₀ (State.loseField a0 a1) := by
  unfold State.loseField
  repeat' (first
      | with_reducible assumption | with_reducible apply State.loseActive_keeps
      | with_reducible apply State.ownerEvent_keeps | with_reducible apply State.logLoss_keeps
      | with_reducible apply State.setSite_keeps | with_reducible apply State.replaceNew_keeps | split | dsimp only)

theorem State.startPlanned_keeps {P : List Part} {s₀ : State} (a0 : State) (a1 : ℕ) (h0 : Keeps P s₀ a0)
    (crel : Part.rel ∈ P := by assumption) : Keeps P s₀ (State.startPlanned a0 a1) := by
  unfold State.startPlanned
  repeat' (first
      | with_reducible assumption | with_reducible apply State.substStatus_keeps | split | intro _ | dsimp only
      | (fail_if_no_progress with_reducible refine Keeps.upd ?_ _ _ _ _ _ _ _ _ _ _ _ _ _ _ _ _ _ ?_ ?_ ?_ ?_ ?_ ?_))

theorem State.thermalTrip_keeps {P : List Part} {s₀ : State} (a0 : State) (a1 : ℕ) (a2 : ℕ) (a3 : ℕ) (h0
    : Keeps P s₀ a0) (cmodule : Part.module ∈ P := by assumption) (cmemory : Part.memory ∈ P := by assumption)
    (ctiers : Part.tiers ∈ P := by assumption) (ckv : Part.kv ∈ P := by assumption)
    (clinks : Part.links ∈ P := by assumption) (chosts : Part.hosts ∈ P := by assumption)
    (csched : Part.sched ∈ P := by assumption) (cmedia : Part.media ∈ P := by assumption)
    (cregs : Part.regs ∈ P := by assumption) (crel : Part.rel ∈ P := by assumption)
    (cfw : Part.fw ∈ P := by assumption) (cdraws : Part.draws ∈ P := by assumption) : Keeps P s₀
    (State.thermalTrip a0 a1 a2 a3) := by
  unfold State.thermalTrip
  repeat' (first
      | with_reducible assumption | with_reducible apply State.log_keeps
      | with_reducible apply State.dropRails_keeps | with_reducible apply State.interrupt_keeps | split)

theorem State.endSubst_keeps {P : List Part} {s₀ : State} (a0 : State) (a1 : ℕ) (h0 : Keeps P s₀ a0)
    (crel : Part.rel ∈ P := by assumption) : Keeps P s₀ (State.endSubst a0 a1) := by
  unfold State.endSubst
  repeat' (first
      | with_reducible assumption | with_reducible apply State.beginUnplanned_keeps | split | intro _ | dsimp only
      | (fail_if_no_progress with_reducible refine Keeps.upd ?_ _ _ _ _ _ _ _ _ _ _ _ _ _ _ _ _ _ ?_ ?_ ?_ ?_ ?_ ?_))

theorem State.powerFault_keeps {P : List Part} {s₀ : State} (a0 : State) (h0 : Keeps P s₀ a0)
    (cmodule : Part.module ∈ P := by assumption) (cmemory : Part.memory ∈ P := by assumption)
    (ctiers : Part.tiers ∈ P := by assumption) (ckv : Part.kv ∈ P := by assumption)
    (clinks : Part.links ∈ P := by assumption) (chosts : Part.hosts ∈ P := by assumption)
    (csched : Part.sched ∈ P := by assumption) (cmedia : Part.media ∈ P := by assumption)
    (cregs : Part.regs ∈ P := by assumption) (crel : Part.rel ∈ P := by assumption)
    (cfw : Part.fw ∈ P := by assumption) (cdraws : Part.draws ∈ P := by assumption) : Keeps P s₀
    (State.powerFault a0) := by
  unfold State.powerFault
  repeat' (first
      | with_reducible assumption | with_reducible apply State.dropRails_keeps | split)

theorem State.logChannel_keeps {P : List Part} {s₀ : State} (a0 : State) (a1 : ℕ) (a2 : ℕ) (a3 : ℕ) (a4 : ℕ) (h0
    : Keeps P s₀ a0) (chosts : Part.hosts ∈ P := by assumption) (cregs : Part.regs ∈ P := by assumption)
    (crel : Part.rel ∈ P := by assumption) (cfw : Part.fw ∈ P := by assumption) : Keeps P s₀
    (State.logChannel a0 a1 a2 a3 a4) := by
  unfold State.logChannel
  repeat' (first
      | with_reducible assumption | with_reducible apply State.log_keeps)

theorem State.startRepair_keeps {P : List Part} {s₀ : State} (a0 : State) (a1 : ℕ) (a2 : ℕ) (h0 : Keeps P s₀ a0)
    (ctiers : Part.tiers ∈ P := by assumption) (chosts : Part.hosts ∈ P := by assumption)
    (cregs : Part.regs ∈ P := by assumption) (crel : Part.rel ∈ P := by assumption)
    (cfw : Part.fw ∈ P := by assumption) : Keeps P s₀ (State.startRepair a0 a1 a2) := by
  unfold State.startRepair
  repeat' (first
      | with_reducible assumption | with_reducible apply State.setStack_keeps
      | with_reducible apply State.logChannel_keeps | with_reducible apply State.ownerEvent_keeps | split
      | dsimp only)

theorem execChannelRepairStart_keeps {P : List Part} {s₀ : State} (a0 : Fin 75) (a1 : Fin 64) (a2 : State) (h2
    : Keeps P s₀ a2) (ctiers : Part.tiers ∈ P := by assumption) (chosts : Part.hosts ∈ P := by assumption)
    (cregs : Part.regs ∈ P := by assumption) (crel : Part.rel ∈ P := by assumption)
    (cfw : Part.fw ∈ P := by assumption) : ∀ u, execChannelRepairStart a0 a1 a2 = .next u → Keeps P s₀ u := by
  intro u e
  unfold execChannelRepairStart at e
  (repeat' split at e) <;> cases e
  all_goals
  repeat' (first
      | with_reducible assumption | with_reducible apply State.startRepair_keeps)

theorem State.carryGranule_keeps {P : List Part} {s₀ : State} (a0 : State) (a1 : ℕ) (a2 : ℕ) (h0 : Keeps P s₀ a0)
    (cmemory : Part.memory ∈ P := by assumption) (ctiers : Part.tiers ∈ P := by assumption)
    (cregs : Part.regs ∈ P := by assumption) : Keeps P s₀ (State.carryGranule a0 a1 a2) := by
  unfold State.carryGranule
  repeat' (first
      | with_reducible assumption | with_reducible apply State.setStack_keeps
      | with_reducible apply State.addSat_keeps | with_reducible apply State.poisonWord_keeps
      | with_reducible apply Keeps.iter | split | intro _ | dsimp only)

theorem execChannelRepairEnd_keeps {P : List Part} {s₀ : State} (a0 : Fin 75) (a1 : RepairedChannel)
    (a2 : State) (h2 : Keeps P s₀ a2) (cmemory : Part.memory ∈ P := by assumption)
    (ctiers : Part.tiers ∈ P := by assumption) (chosts : Part.hosts ∈ P := by assumption)
    (cregs : Part.regs ∈ P := by assumption) (crel : Part.rel ∈ P := by assumption)
    (cfw : Part.fw ∈ P := by assumption) : ∀ u, execChannelRepairEnd a0 a1 a2 = .next u → Keeps P s₀ u := by
  intro u e
  unfold execChannelRepairEnd at e
  (repeat' split at e) <;> cases e
  all_goals
  repeat' (first
      | with_reducible assumption | with_reducible apply State.carryGranule_keeps
      | with_reducible apply State.setStack_keeps | with_reducible apply State.ownerEvent_keeps
      | with_reducible apply State.logChannel_keeps | with_reducible apply State.startRepair_keeps
      | with_reducible apply Keeps.foldl | split | intro _ | dsimp only)

theorem execChannelRetrainStart_keeps {P : List Part} {s₀ : State} (a0 : Fin 75) (a1 : Fin 64) (a2 : Bool)
    (a3 : State) (h3 : Keeps P s₀ a3) (ctiers : Part.tiers ∈ P := by assumption)
    (csched : Part.sched ∈ P := by assumption)
    : ∀ u, execChannelRetrainStart a0 a1 a2 a3 = .next u → Keeps P s₀ u := by
  intro u e
  unfold execChannelRetrainStart at e
  (repeat' split at e) <;> cases e
  all_goals
  repeat' (first
      | with_reducible assumption | with_reducible apply State.setStack_keeps | split | dsimp only
      | (fail_if_no_progress with_reducible refine Keeps.free ?_ _ _ _ _ _ _ _ _ _ _ _ _ _))

theorem State.channelFails_keeps {P : List Part} {s₀ : State} (a0 : State) (a1 : ℕ) (a2 : ℕ) (h0 : Keeps P s₀ a0)
    (cmodule : Part.module ∈ P := by assumption) (csites : Part.sites ∈ P := by assumption)
    (ctiles : Part.tiles ∈ P := by assumption) (cmemory : Part.memory ∈ P := by assumption)
    (ctiers : Part.tiers ∈ P := by assumption) (ckv : Part.kv ∈ P := by assumption)
    (cattn : Part.attn ∈ P := by assumption) (clinks : Part.links ∈ P := by assumption)
    (chosts : Part.hosts ∈ P := by assumption) (cregs : Part.regs ∈ P := by assumption)
    (crel : Part.rel ∈ P := by assumption) (cfw : Part.fw ∈ P := by assumption)
    (cdraws : Part.draws ∈ P := by assumption) : Keeps P s₀ (State.channelFails a0 a1 a2) := by
  unfold State.channelFails
  repeat' (first
      | with_reducible assumption | with_reducible apply State.loseField_keeps
      | with_reducible apply State.startRepair_keeps | split)

theorem execChannelRetrainEnd_keeps {P : List Part} {s₀ : State} (a0 : Fin 75) (a1 : Fin 64) (a2 : Bool) (a3 : ℕ)
    (a4 : State) (h4 : Keeps P s₀ a4) (cmodule : Part.module ∈ P := by assumption)
    (csites : Part.sites ∈ P := by assumption) (ctiles : Part.tiles ∈ P := by assumption)
    (cmemory : Part.memory ∈ P := by assumption) (ctiers : Part.tiers ∈ P := by assumption)
    (ckv : Part.kv ∈ P := by assumption) (cattn : Part.attn ∈ P := by assumption)
    (clinks : Part.links ∈ P := by assumption) (chosts : Part.hosts ∈ P := by assumption)
    (cregs : Part.regs ∈ P := by assumption) (crel : Part.rel ∈ P := by assumption)
    (cfw : Part.fw ∈ P := by assumption) (cdraws : Part.draws ∈ P := by assumption)
    : ∀ u, execChannelRetrainEnd a0 a1 a2 a3 a4 = .next u → Keeps P s₀ u := by
  intro u e
  unfold execChannelRetrainEnd at e
  (repeat' split at e) <;> cases e
  all_goals
  repeat' (first
      | with_reducible assumption | with_reducible apply State.setStack_keeps
      | with_reducible apply State.channelFails_keeps | split | dsimp only)

theorem State.correctOne_keeps {P : List Part} {s₀ : State} (a0 : State) (a1 : ℕ) (a2 : ℕ) (h0 : Keeps P s₀ a0)
    (ctiers : Part.tiers ∈ P := by assumption) (chosts : Part.hosts ∈ P := by assumption)
    (cregs : Part.regs ∈ P := by assumption) (crel : Part.rel ∈ P := by assumption)
    (cfw : Part.fw ∈ P := by assumption) : Keeps P s₀ (State.correctOne a0 a1 a2) := by
  unfold State.correctOne
  repeat' (first
      | with_reducible assumption | with_reducible apply State.setStack_keeps
      | with_reducible apply State.startRepair_keeps | split | dsimp only)

theorem State.symbolFault_keeps {P : List Part} {s₀ : State} (a0 : State) (a1 : ℕ) (a2 : ℕ) (a3 : ℕ) (h0
    : Keeps P s₀ a0) (cmemory : Part.memory ∈ P := by assumption) (ctiers : Part.tiers ∈ P := by assumption)
    (chosts : Part.hosts ∈ P := by assumption) (cregs : Part.regs ∈ P := by assumption)
    (crel : Part.rel ∈ P := by assumption) (cfw : Part.fw ∈ P := by assumption) : Keeps P s₀
    (State.symbolFault a0 a1 a2 a3) := by
  unfold State.symbolFault
  repeat' (first
      | with_reducible assumption | with_reducible apply State.correctOne_keeps
      | with_reducible apply State.startRepair_keeps | with_reducible apply State.setStack_keeps
      | with_reducible apply State.poisonWord_keeps | with_reducible apply State.addSat_keeps | split | dsimp only)

theorem execPatrolScrub_keeps {P : List Part} {s₀ : State} (a0 : Fin 75) (a1 : ℕ) (a2 : ℕ) (a3 : State) (h3
    : Keeps P s₀ a3) (cmemory : Part.memory ∈ P := by assumption) (ctiers : Part.tiers ∈ P := by assumption)
    (chosts : Part.hosts ∈ P := by assumption) (cregs : Part.regs ∈ P := by assumption)
    (crel : Part.rel ∈ P := by assumption) (cfw : Part.fw ∈ P := by assumption)
    : ∀ u, execPatrolScrub a0 a1 a2 a3 = .next u → Keeps P s₀ u := by
  intro u e
  unfold execPatrolScrub at e
  (repeat' split at e) <;> cases e
  all_goals
  repeat' (first
      | with_reducible assumption | with_reducible apply State.symbolFault_keeps)

theorem State.enterStack_keeps {P : List Part} {s₀ : State} (a0 : State) (a1 : ℕ) (a2 : StackMode) (h0
    : Keeps P s₀ a0) (cmodule : Part.module ∈ P := by assumption) (ctiles : Part.tiles ∈ P := by assumption)
    (cmemory : Part.memory ∈ P := by assumption) (ctiers : Part.tiers ∈ P := by assumption)
    (ckv : Part.kv ∈ P := by assumption) (cattn : Part.attn ∈ P := by assumption)
    (clinks : Part.links ∈ P := by assumption) (chosts : Part.hosts ∈ P := by assumption)
    (cregs : Part.regs ∈ P := by assumption) (crel : Part.rel ∈ P := by assumption)
    (cfw : Part.fw ∈ P := by assumption) (cdraws : Part.draws ∈ P := by assumption) : Keeps P s₀
    (State.enterStack a0 a1 a2) := by
  unfold State.enterStack
  repeat' (first
      | with_reducible assumption | with_reducible apply State.log_keeps | with_reducible apply State.setStack_keeps
      | with_reducible apply State.ownerEvent_keeps | with_reducible apply State.dropField_keeps
      | with_reducible apply State.dropHeld_keeps | with_reducible apply State.applyHeld_keeps | split | intro _
      | dsimp only
      | (fail_if_no_progress with_reducible refine Keeps.upd ?_ _ _ _ _ _ _ _ _ _ _ _ _ _ _ _ _ _ ?_ ?_ ?_ ?_ ?_ ?_))

theorem execStackCriticalTimeout_keeps {P : List Part} {s₀ : State} (a0 : Fin 75) (a1 : State) (h1 : Keeps P s₀ a1)
    (cmodule : Part.module ∈ P := by assumption) (ctiles : Part.tiles ∈ P := by assumption)
    (cmemory : Part.memory ∈ P := by assumption) (ctiers : Part.tiers ∈ P := by assumption)
    (ckv : Part.kv ∈ P := by assumption) (cattn : Part.attn ∈ P := by assumption)
    (clinks : Part.links ∈ P := by assumption) (chosts : Part.hosts ∈ P := by assumption)
    (cregs : Part.regs ∈ P := by assumption) (crel : Part.rel ∈ P := by assumption)
    (cfw : Part.fw ∈ P := by assumption) (cdraws : Part.draws ∈ P := by assumption)
    : ∀ u, execStackCriticalTimeout a0 a1 = .next u → Keeps P s₀ u := by
  intro u e
  unfold execStackCriticalTimeout at e
  (repeat' split at e) <;> cases e
  all_goals
  repeat' (first
      | with_reducible assumption | with_reducible apply State.enterStack_keeps)

theorem State.gradeRecord_keeps {P : List Part} {s₀ : State} (a0 : State) (h0 : Keeps P s₀ a0)
    (chosts : Part.hosts ∈ P := by assumption) (cregs : Part.regs ∈ P := by assumption)
    (crel : Part.rel ∈ P := by assumption) (cfw : Part.fw ∈ P := by assumption) : Keeps P s₀
    (State.gradeRecord a0) := by
  unfold State.gradeRecord
  repeat' (first
      | with_reducible assumption | with_reducible apply State.log_keeps)

theorem execGrade_keeps {P : List Part} {s₀ : State} (a0 : Writer) (a1 : State) (h1 : Keeps P s₀ a1)
    (chosts : Part.hosts ∈ P := by assumption) (cregs : Part.regs ∈ P := by assumption)
    (crel : Part.rel ∈ P := by assumption) (cfw : Part.fw ∈ P := by assumption)
    : ∀ u, execGrade a0 a1 = .next u → Keeps P s₀ u := by
  intro u e
  unfold execGrade at e
  (repeat' split at e) <;> cases e
  all_goals
  repeat' (first
      | with_reducible assumption | with_reducible apply State.guarded_keeps
      | with_reducible apply State.gradeRecord_keeps | intro _)

theorem State.pathFailed_keeps {P : List Part} {s₀ : State} (a0 : State) (a1 : ℕ) (h0 : Keeps P s₀ a0)
    (cmodule : Part.module ∈ P := by assumption) (csites : Part.sites ∈ P := by assumption)
    (ctiles : Part.tiles ∈ P := by assumption) (cmemory : Part.memory ∈ P := by assumption)
    (ctiers : Part.tiers ∈ P := by assumption) (ckv : Part.kv ∈ P := by assumption)
    (cattn : Part.attn ∈ P := by assumption) (clinks : Part.links ∈ P := by assumption)
    (chosts : Part.hosts ∈ P := by assumption) (cregs : Part.regs ∈ P := by assumption)
    (crel : Part.rel ∈ P := by assumption) (cfw : Part.fw ∈ P := by assumption)
    (cdraws : Part.draws ∈ P := by assumption) : Keeps P s₀ (State.pathFailed a0 a1) := by
  unfold State.pathFailed
  repeat' (first
      | with_reducible assumption | with_reducible apply State.setSite_keeps
      | with_reducible apply State.loseField_keeps | split | dsimp only)

theorem State.faultCmd_keeps {P : List Part} {s₀ : State} (a0 : State) (a1 : ℕ) (a2 : ℕ) (a3 : ℕ) (h0 : Keeps P s₀ a0)
    (cmodule : Part.module ∈ P := by assumption) (ctiles : Part.tiles ∈ P := by assumption)
    (cmemory : Part.memory ∈ P := by assumption) (ctiers : Part.tiers ∈ P := by assumption)
    (ckv : Part.kv ∈ P := by assumption) (cattn : Part.attn ∈ P := by assumption)
    (clinks : Part.links ∈ P := by assumption) (chosts : Part.hosts ∈ P := by assumption)
    (cmedia : Part.media ∈ P := by assumption) (cregs : Part.regs ∈ P := by assumption)
    (crel : Part.rel ∈ P := by assumption) (cfw : Part.fw ∈ P := by assumption)
    (cdraws : Part.draws ∈ P := by assumption) : Keeps P s₀ (State.faultCmd a0 a1 a2 a3) := by
  unfold State.faultCmd
  repeat' (first
      | with_reducible assumption | with_reducible apply State.interrupt_keeps
      | with_reducible apply State.stopCmd_keeps | with_reducible apply State.finish_keeps | split)

theorem State.pathFault_keeps {P : List Part} {s₀ : State} (a0 : State) (a1 : ℕ) (a2 : ℕ) (a3 : ℕ) (a4 : ℕ) (h0
    : Keeps P s₀ a0) (cmodule : Part.module ∈ P := by assumption) (csites : Part.sites ∈ P := by assumption)
    (ctiles : Part.tiles ∈ P := by assumption) (cmemory : Part.memory ∈ P := by assumption)
    (ctiers : Part.tiers ∈ P := by assumption) (ckv : Part.kv ∈ P := by assumption)
    (cattn : Part.attn ∈ P := by assumption) (clinks : Part.links ∈ P := by assumption)
    (chosts : Part.hosts ∈ P := by assumption) (cmedia : Part.media ∈ P := by assumption)
    (cregs : Part.regs ∈ P := by assumption) (crel : Part.rel ∈ P := by assumption)
    (cfw : Part.fw ∈ P := by assumption) (cdraws : Part.draws ∈ P := by assumption) : Keeps P s₀
    (State.pathFault a0 a1 a2 a3 a4) := by
  unfold State.pathFault
  repeat' (first
      | with_reducible assumption | with_reducible apply State.addSat_keeps
      | with_reducible apply State.pathFailed_keeps | with_reducible apply State.faultCmd_keeps | split)

theorem State.heatFault_keeps {P : List Part} {s₀ : State} (a0 : State) (a1 : ℕ) (a2 : ℕ) (h0 : Keeps P s₀ a0)
    (ctiers : Part.tiers ∈ P := by assumption) (cregs : Part.regs ∈ P := by assumption) : Keeps P s₀
    (State.heatFault a0 a1 a2) := by
  unfold State.heatFault
  repeat' (first
      | with_reducible assumption | with_reducible apply State.addSat_keeps | split | dsimp only
      | (fail_if_no_progress with_reducible refine Keeps.free ?_ _ _ _ _ _ _ _ _ _ _ _ _ _))

theorem State.lineFault_keeps {P : List Part} {s₀ : State} (a0 : State) (a1 : ℕ) (a2 : ℕ) (h0 : Keeps P s₀ a0)
    (cmemory : Part.memory ∈ P := by assumption) (cregs : Part.regs ∈ P := by assumption) : Keeps P s₀
    (State.lineFault a0 a1 a2) := by
  unfold State.lineFault
  repeat' (first
      | with_reducible assumption | with_reducible apply State.poisonLine_keeps | split)

theorem State.mediaFault_keeps {P : List Part} {s₀ : State} (a0 : State) (a1 : ℕ) (h0 : Keeps P s₀ a0)
    (cmodule : Part.module ∈ P := by assumption) (ckv : Part.kv ∈ P := by assumption)
    (chosts : Part.hosts ∈ P := by assumption) (cmedia : Part.media ∈ P := by assumption)
    (cregs : Part.regs ∈ P := by assumption) (crel : Part.rel ∈ P := by assumption)
    (cfw : Part.fw ∈ P := by assumption) : Keeps P s₀ (State.mediaFault a0 a1) := by
  unfold State.mediaFault
  repeat' (first
      | with_reducible assumption | with_reducible apply State.setEngine_keeps
      | with_reducible apply State.finish_keeps | with_reducible apply State.log_keeps | split | dsimp only)

theorem State.linkFault_keeps {P : List Part} {s₀ : State} (a0 : State) (a1 : ℕ) (h0 : Keeps P s₀ a0)
    (cmodule : Part.module ∈ P := by assumption) (cmemory : Part.memory ∈ P := by assumption)
    (ctiers : Part.tiers ∈ P := by assumption) (ckv : Part.kv ∈ P := by assumption)
    (clinks : Part.links ∈ P := by assumption) (chosts : Part.hosts ∈ P := by assumption)
    (cregs : Part.regs ∈ P := by assumption) (crel : Part.rel ∈ P := by assumption)
    (cfw : Part.fw ∈ P := by assumption) (cdraws : Part.draws ∈ P := by assumption) : Keeps P s₀
    (State.linkFault a0 a1) := by
  unfold State.linkFault
  repeat' (first
      | with_reducible assumption | with_reducible apply State.linkRetrain_keeps | split)

theorem State.portFault_keeps {P : List Part} {s₀ : State} (a0 : State) (a1 : ℕ) (h0 : Keeps P s₀ a0)
    (cmodule : Part.module ∈ P := by assumption) (cmemory : Part.memory ∈ P := by assumption)
    (ctiers : Part.tiers ∈ P := by assumption) (ckv : Part.kv ∈ P := by assumption)
    (clinks : Part.links ∈ P := by assumption) (chosts : Part.hosts ∈ P := by assumption)
    (cmedia : Part.media ∈ P := by assumption) (cregs : Part.regs ∈ P := by assumption)
    (crel : Part.rel ∈ P := by assumption) (cfw : Part.fw ∈ P := by assumption)
    (cdraws : Part.draws ∈ P := by assumption) : Keeps P s₀ (State.portFault a0 a1) := by
  unfold State.portFault
  repeat' (first
      | with_reducible assumption | with_reducible apply State.interrupt_keeps
      | with_reducible apply State.portDown_keeps | split)

theorem State.checksumFault_keeps {P : List Part} {s₀ : State} (a0 : State) (a1 : ℕ) (a2 : ℕ) (a3 : ℕ) (h0
    : Keeps P s₀ a0) (cmodule : Part.module ∈ P := by assumption) (ctiles : Part.tiles ∈ P := by assumption)
    (cmemory : Part.memory ∈ P := by assumption) (ctiers : Part.tiers ∈ P := by assumption)
    (ckv : Part.kv ∈ P := by assumption) (cattn : Part.attn ∈ P := by assumption)
    (clinks : Part.links ∈ P := by assumption) (chosts : Part.hosts ∈ P := by assumption)
    (cmedia : Part.media ∈ P := by assumption) (cregs : Part.regs ∈ P := by assumption)
    (crel : Part.rel ∈ P := by assumption) (cfw : Part.fw ∈ P := by assumption)
    (cdraws : Part.draws ∈ P := by assumption) : Keeps P s₀ (State.checksumFault a0 a1 a2 a3) := by
  unfold State.checksumFault
  repeat' (first
      | with_reducible assumption | with_reducible apply State.addSat_keeps
      | with_reducible apply State.faultCmd_keeps | split)

theorem execParityFault_keeps {P : List Part} {s₀ : State} (a0 : FaultPlace) (a1 : State) (h1 : Keeps P s₀ a1)
    (cmodule : Part.module ∈ P := by assumption) (csites : Part.sites ∈ P := by assumption)
    (ctiles : Part.tiles ∈ P := by assumption) (cmemory : Part.memory ∈ P := by assumption)
    (ctiers : Part.tiers ∈ P := by assumption) (ckv : Part.kv ∈ P := by assumption)
    (cattn : Part.attn ∈ P := by assumption) (clinks : Part.links ∈ P := by assumption)
    (chosts : Part.hosts ∈ P := by assumption) (cmedia : Part.media ∈ P := by assumption)
    (cregs : Part.regs ∈ P := by assumption) (crel : Part.rel ∈ P := by assumption)
    (cfw : Part.fw ∈ P := by assumption) (cdraws : Part.draws ∈ P := by assumption)
    : ∀ u, execParityFault a0 a1 = .next u → Keeps P s₀ u := by
  intro u e
  unfold execParityFault at e
  (repeat' split at e) <;> cases e
  all_goals
  repeat' (first
      | with_reducible assumption | with_reducible apply State.pathFault_keeps
      | with_reducible apply State.heatFault_keeps | with_reducible apply State.symbolFault_keeps
      | with_reducible apply State.lineFault_keeps | with_reducible apply State.loseCore_keeps
      | with_reducible apply State.loseField_keeps | with_reducible apply State.mediaFault_keeps
      | with_reducible apply State.linkFault_keeps | with_reducible apply State.portFault_keeps
      | with_reducible apply State.checksumFault_keeps | with_reducible apply Keeps.iter | intro _)

theorem execCheckpointRequest_keeps {P : List Part} {s₀ : State} (a0 : Writer) (a1 : State) (h1 : Keeps P s₀ a1)
    (chosts : Part.hosts ∈ P := by assumption) (cregs : Part.regs ∈ P := by assumption)
    (crel : Part.rel ∈ P := by assumption) (cfw : Part.fw ∈ P := by assumption)
    : ∀ u, execCheckpointRequest a0 a1 = .next u → Keeps P s₀ u := by
  intro u e
  unfold execCheckpointRequest at e
  (repeat' split at e) <;> cases e
  all_goals
  repeat' (first
      | with_reducible assumption | with_reducible apply State.guarded_keeps
      | with_reducible apply State.checkpoint_keeps | intro _)

theorem execRlEventsRead_keeps {P : List Part} {s₀ : State} (a0 : Writer) (a1 : State) (h1 : Keeps P s₀ a1)
    (cmodule : Part.module ∈ P := by assumption) : ∀ u, execRlEventsRead a0 a1 = .next u → Keeps P s₀ u := by
  intro u e
  unfold execRlEventsRead at e
  (repeat' split at e) <;> cases e
  all_goals
  repeat' (first
      | with_reducible assumption | intro _ | dsimp only
      | (fail_if_no_progress with_reducible refine Keeps.upd ?_ _ _ _ _ _ _ _ _ _ _ _ _ _ _ _ _ _ ?_ ?_ ?_ ?_ ?_ ?_))

theorem execHeartbeatMiss_keeps {P : List Part} {s₀ : State} (a0 : BeatUnit) (a1 : State) (h1 : Keeps P s₀ a1)
    (cmodule : Part.module ∈ P := by assumption) (csites : Part.sites ∈ P := by assumption)
    (ctiles : Part.tiles ∈ P := by assumption) (cmemory : Part.memory ∈ P := by assumption)
    (ctiers : Part.tiers ∈ P := by assumption) (ckv : Part.kv ∈ P := by assumption)
    (cattn : Part.attn ∈ P := by assumption) (clinks : Part.links ∈ P := by assumption)
    (chosts : Part.hosts ∈ P := by assumption) (cmedia : Part.media ∈ P := by assumption)
    (cregs : Part.regs ∈ P := by assumption) (crel : Part.rel ∈ P := by assumption)
    (cfw : Part.fw ∈ P := by assumption) (cdraws : Part.draws ∈ P := by assumption)
    : ∀ u, execHeartbeatMiss a0 a1 = .next u → Keeps P s₀ u := by
  intro u e
  unfold execHeartbeatMiss at e
  (repeat' split at e) <;> cases e
  all_goals
  repeat' (first
      | with_reducible assumption | with_reducible apply State.loseField_keeps
      | with_reducible apply State.linkFault_keeps | with_reducible apply State.portFault_keeps
      | with_reducible apply State.mediaFault_keeps)

theorem State.askPlanned_keeps {P : List Part} {s₀ : State} (a0 : State) (a1 : ℕ) (h0 : Keeps P s₀ a0)
    (crel : Part.rel ∈ P := by assumption) (cfw : Part.fw ∈ P := by assumption) : Keeps P s₀
    (State.askPlanned a0 a1) := by
  unfold State.askPlanned
  repeat' (first
      | with_reducible assumption | with_reducible apply State.startPlanned_keeps | split | intro _ | dsimp only
      | (fail_if_no_progress with_reducible refine Keeps.upd ?_ _ _ _ _ _ _ _ _ _ _ _ _ _ _ _ _ _ ?_ ?_ ?_ ?_ ?_ ?_))

theorem State.substWrite_keeps {P : List Part} {s₀ : State} (a0 : State) (a1 : ℕ) (h0 : Keeps P s₀ a0)
    (crel : Part.rel ∈ P := by assumption) (cfw : Part.fw ∈ P := by assumption) : Keeps P s₀
    (State.substWrite a0 a1) := by
  unfold State.substWrite
  repeat' (first
      | with_reducible assumption | with_reducible apply State.askPlanned_keeps | split)

theorem execPlannedSubstStart_keeps {P : List Part} {s₀ : State} (a0 : Writer) (a1 : Word) (a2 : State) (h2
    : Keeps P s₀ a2) (cregs : Part.regs ∈ P := by assumption) (crel : Part.rel ∈ P := by assumption)
    (cfw : Part.fw ∈ P := by assumption) : ∀ u, execPlannedSubstStart a0 a1 a2 = .next u → Keeps P s₀ u := by
  intro u e
  unfold execPlannedSubstStart at e
  (repeat' split at e) <;> cases e
  all_goals
  repeat' (first
      | with_reducible assumption | with_reducible apply State.guarded_keeps
      | with_reducible apply State.substWrite_keeps | intro _)

theorem State.leaseMark_keeps {P : List Part} {s₀ : State} (a0 : State) (h0 : Keeps P s₀ a0)
    (chosts : Part.hosts ∈ P := by assumption) (cregs : Part.regs ∈ P := by assumption)
    (crel : Part.rel ∈ P := by assumption) (cfw : Part.fw ∈ P := by assumption) : Keeps P s₀
    (State.leaseMark a0) := by
  unfold State.leaseMark
  repeat' (first
      | with_reducible assumption | with_reducible apply State.log_keeps)

theorem execLeaseMark_keeps {P : List Part} {s₀ : State} (a0 : Writer) (a1 : State) (h1 : Keeps P s₀ a1)
    (chosts : Part.hosts ∈ P := by assumption) (cregs : Part.regs ∈ P := by assumption)
    (crel : Part.rel ∈ P := by assumption) (cfw : Part.fw ∈ P := by assumption)
    : ∀ u, execLeaseMark a0 a1 = .next u → Keeps P s₀ u := by
  intro u e
  unfold execLeaseMark at e
  (repeat' split at e) <;> cases e
  all_goals
  repeat' (first
      | with_reducible assumption | with_reducible apply State.guarded_keeps
      | with_reducible apply State.leaseMark_keeps | intro _)

theorem State.provStatus_keeps {P : List Part} {s₀ : State} (a0 : State) (a1 : ℕ) (h0 : Keeps P s₀ a0)
    (crel : Part.rel ∈ P := by assumption) : Keeps P s₀ (State.provStatus a0 a1) := by
  unfold State.provStatus
  repeat' (first
      | with_reducible assumption | intro _ | dsimp only
      | (fail_if_no_progress with_reducible refine Keeps.upd ?_ _ _ _ _ _ _ _ _ _ _ _ _ _ _ _ _ _ ?_ ?_ ?_ ?_ ?_ ?_))

theorem State.trimCommit_keeps {P : List Part} {s₀ : State} (a0 : State) (h0 : Keeps P s₀ a0)
    (chosts : Part.hosts ∈ P := by assumption) (cregs : Part.regs ∈ P := by assumption)
    (crel : Part.rel ∈ P := by assumption) (cfw : Part.fw ∈ P := by assumption) : Keeps P s₀
    (State.trimCommit a0) := by
  unfold State.trimCommit
  repeat' (first
      | with_reducible assumption | with_reducible apply State.provStatus_keeps
      | with_reducible apply State.log_keeps | split | intro _ | dsimp only
      | (fail_if_no_progress with_reducible refine Keeps.upd ?_ _ _ _ _ _ _ _ _ _ _ _ _ _ _ _ _ _ ?_ ?_ ?_ ?_ ?_ ?_))

theorem execTmCommit_keeps {P : List Part} {s₀ : State} (a0 : Writer) (a1 : Word) (a2 : State) (h2 : Keeps P s₀ a2)
    (chosts : Part.hosts ∈ P := by assumption) (cregs : Part.regs ∈ P := by assumption)
    (crel : Part.rel ∈ P := by assumption) (cfw : Part.fw ∈ P := by assumption)
    : ∀ u, execTmCommit a0 a1 a2 = .next u → Keeps P s₀ u := by
  intro u e
  unfold execTmCommit at e
  (repeat' split at e) <;> cases e
  all_goals
  repeat' (first
      | with_reducible assumption | with_reducible apply State.guarded_keeps
      | with_reducible apply State.trimCommit_keeps | intro _)

theorem execWeightRebuildDone_keeps {P : List Part} {s₀ : State} (a0 : Fin 75) (a1 : State) (h1 : Keeps P s₀ a1)
    (ctiers : Part.tiers ∈ P := by assumption) : ∀ u, execWeightRebuildDone a0 a1 = .next u → Keeps P s₀ u := by
  intro u e
  unfold execWeightRebuildDone at e
  (repeat' split at e) <;> cases e
  all_goals
  repeat' (first
      | with_reducible assumption | with_reducible apply State.setStack_keeps)

theorem State.trimWrite_keeps {P : List Part} {s₀ : State} (a0 : State) (a1 : Writer) (a2 : ℕ) (a3 : ℕ) (h0
    : Keeps P s₀ a0) (cregs : Part.regs ∈ P := by assumption) (crel : Part.rel ∈ P := by assumption) : Keeps P s₀
    (State.trimWrite a0 a1 a2 a3) := by
  unfold State.trimWrite
  repeat' (first
      | with_reducible assumption | with_reducible apply State.provStatus_keeps
      | with_reducible apply State.cfgErr_keeps | split | intro _ | dsimp only
      | (fail_if_no_progress with_reducible refine Keeps.upd ?_ _ _ _ _ _ _ _ _ _ _ _ _ _ _ _ _ _ ?_ ?_ ?_ ?_ ?_ ?_))

theorem execTmDataWrite_keeps {P : List Part} {s₀ : State} (a0 : Writer) (a1 : Word) (a2 : State) (h2 : Keeps P s₀ a2)
    (cregs : Part.regs ∈ P := by assumption) (crel : Part.rel ∈ P := by assumption)
    : ∀ u, execTmDataWrite a0 a1 a2 = .next u → Keeps P s₀ u := by
  intro u e
  unfold execTmDataWrite at e
  (repeat' split at e) <;> cases e
  all_goals
  repeat' (first
      | with_reducible assumption | with_reducible apply State.guarded_keeps
      | with_reducible apply State.trimWrite_keeps | intro _)

theorem execUnplannedSubstDone_keeps {P : List Part} {s₀ : State} (a0 : State) (h0 : Keeps P s₀ a0)
    (cmodule : Part.module ∈ P := by assumption) (csites : Part.sites ∈ P := by assumption)
    (ctiles : Part.tiles ∈ P := by assumption) (ctiers : Part.tiers ∈ P := by assumption)
    (cattn : Part.attn ∈ P := by assumption) (chosts : Part.hosts ∈ P := by assumption)
    (cregs : Part.regs ∈ P := by assumption) (crel : Part.rel ∈ P := by assumption)
    (cfw : Part.fw ∈ P := by assumption) : ∀ u, execUnplannedSubstDone a0 = .next u → Keeps P s₀ u := by
  intro u e
  unfold execUnplannedSubstDone at e
  (repeat' split at e) <;> cases e
  all_goals
  repeat' (first
      | with_reducible assumption | with_reducible apply State.endSubst_keeps
      | with_reducible apply State.takeRank_keeps)

theorem execSubstDrain_keeps {P : List Part} {s₀ : State} (a0 : State) (h0 : Keeps P s₀ a0)
    (cmodule : Part.module ∈ P := by assumption) (csites : Part.sites ∈ P := by assumption)
    (ctiles : Part.tiles ∈ P := by assumption) (cmemory : Part.memory ∈ P := by assumption)
    (ctiers : Part.tiers ∈ P := by assumption) (ckv : Part.kv ∈ P := by assumption)
    (cattn : Part.attn ∈ P := by assumption) (clinks : Part.links ∈ P := by assumption)
    (chosts : Part.hosts ∈ P := by assumption) (cregs : Part.regs ∈ P := by assumption)
    (crel : Part.rel ∈ P := by assumption) (cfw : Part.fw ∈ P := by assumption)
    (cdraws : Part.draws ∈ P := by assumption) : ∀ u, execSubstDrain a0 = .next u → Keeps P s₀ u := by
  intro u e
  unfold execSubstDrain at e
  (repeat' split at e) <;> cases e
  all_goals
  repeat' (first
      | with_reducible assumption | with_reducible apply State.retireSite_keeps
      | with_reducible apply State.applyHeld_keeps | with_reducible apply State.withdraw_keeps
      | with_reducible apply State.endSubst_keeps | with_reducible apply State.takeRank_keeps)

theorem execUsageRecord_keeps {P : List Part} {s₀ : State} (a0 : BitVec 32) (a1 : BitVec 32) (a2 : BitVec 16)
    (a3 : State) (h3 : Keeps P s₀ a3) (chosts : Part.hosts ∈ P := by assumption)
    (cregs : Part.regs ∈ P := by assumption) (crel : Part.rel ∈ P := by assumption)
    (cfw : Part.fw ∈ P := by assumption) : ∀ u, execUsageRecord a0 a1 a2 a3 = .next u → Keeps P s₀ u := by
  intro u e
  unfold execUsageRecord at e
  (repeat' split at e) <;> cases e
  all_goals
  repeat' (first
      | with_reducible assumption | with_reducible apply State.log_keeps)

theorem execFieldLost_keeps {P : List Part} {s₀ : State} (a0 : Fin 81) (a1 : State) (h1 : Keeps P s₀ a1)
    (cmodule : Part.module ∈ P := by assumption) (csites : Part.sites ∈ P := by assumption)
    (ctiles : Part.tiles ∈ P := by assumption) (cmemory : Part.memory ∈ P := by assumption)
    (ctiers : Part.tiers ∈ P := by assumption) (ckv : Part.kv ∈ P := by assumption)
    (cattn : Part.attn ∈ P := by assumption) (clinks : Part.links ∈ P := by assumption)
    (chosts : Part.hosts ∈ P := by assumption) (cregs : Part.regs ∈ P := by assumption)
    (crel : Part.rel ∈ P := by assumption) (cfw : Part.fw ∈ P := by assumption)
    (cdraws : Part.draws ∈ P := by assumption) : ∀ u, execFieldLost a0 a1 = .next u → Keeps P s₀ u := by
  intro u e
  unfold execFieldLost at e
  (repeat' split at e) <;> cases e
  all_goals
  repeat' (first
      | with_reducible assumption | with_reducible apply State.loseField_keeps)

theorem State.clearPeak_keeps {P : List Part} {s₀ : State} (a0 : State) (a1 : ℕ) (h0 : Keeps P s₀ a0)
    (cregs : Part.regs ∈ P := by assumption) (cdraws : Part.draws ∈ P := by assumption) : Keeps P s₀
    (State.clearPeak a0 a1) := by
  unfold State.clearPeak
  repeat' (first
      | with_reducible assumption | with_reducible apply State.setReg_keeps | split | dsimp only
      | (fail_if_no_progress with_reducible refine Keeps.free ?_ _ _ _ _ _ _ _ _ _ _ _ _ _))

theorem State.moduleReset_keeps {P : List Part} {s₀ : State} (a0 : State) (a1 : ℕ) (h0 : Keeps P s₀ a0)
    (cmodule : Part.module ∈ P := by assumption) (csites : Part.sites ∈ P := by assumption)
    (ctiles : Part.tiles ∈ P := by assumption) (cpackage : Part.package ∈ P := by assumption)
    (crails : Part.rails ∈ P := by assumption) (cmemory : Part.memory ∈ P := by assumption)
    (ctiers : Part.tiers ∈ P := by assumption) (ckv : Part.kv ∈ P := by assumption)
    (cattn : Part.attn ∈ P := by assumption) (clinks : Part.links ∈ P := by assumption)
    (chosts : Part.hosts ∈ P := by assumption) (csched : Part.sched ∈ P := by assumption)
    (cmedia : Part.media ∈ P := by assumption) (cregs : Part.regs ∈ P := by assumption)
    (crel : Part.rel ∈ P := by assumption) (cfw : Part.fw ∈ P := by assumption) : Keeps P s₀
    (State.moduleReset a0 a1) := by
  exact h0.put _ _ _ _ _ _ _ _ _ _ _ _ _ _ _ _ _ rfl (fun _ => reset_memory_wf) rfl (le_refl _) (le_refl _) fun _ => List.prefix_refl _

theorem State.resetWrite_keeps {P : List Part} {s₀ : State} (a0 : State) (a1 : ℕ) (h0 : Keeps P s₀ a0)
    (cmodule : Part.module ∈ P := by assumption) (csites : Part.sites ∈ P := by assumption)
    (ctiles : Part.tiles ∈ P := by assumption) (cpackage : Part.package ∈ P := by assumption)
    (crails : Part.rails ∈ P := by assumption) (cmemory : Part.memory ∈ P := by assumption)
    (ctiers : Part.tiers ∈ P := by assumption) (ckv : Part.kv ∈ P := by assumption)
    (cattn : Part.attn ∈ P := by assumption) (clinks : Part.links ∈ P := by assumption)
    (chosts : Part.hosts ∈ P := by assumption) (csched : Part.sched ∈ P := by assumption)
    (cmedia : Part.media ∈ P := by assumption) (cregs : Part.regs ∈ P := by assumption)
    (crel : Part.rel ∈ P := by assumption) (cfw : Part.fw ∈ P := by assumption) : Keeps P s₀
    (State.resetWrite a0 a1) := by
  unfold State.resetWrite
  repeat' (first
      | with_reducible assumption | with_reducible apply State.moduleReset_keeps | split)

theorem execMoReset_keeps {P : List Part} {s₀ : State} (a0 : Writer) (a1 : Word) (a2 : State) (h2 : Keeps P s₀ a2)
    (cmodule : Part.module ∈ P := by assumption) (csites : Part.sites ∈ P := by assumption)
    (ctiles : Part.tiles ∈ P := by assumption) (cpackage : Part.package ∈ P := by assumption)
    (crails : Part.rails ∈ P := by assumption) (cmemory : Part.memory ∈ P := by assumption)
    (ctiers : Part.tiers ∈ P := by assumption) (ckv : Part.kv ∈ P := by assumption)
    (cattn : Part.attn ∈ P := by assumption) (clinks : Part.links ∈ P := by assumption)
    (chosts : Part.hosts ∈ P := by assumption) (csched : Part.sched ∈ P := by assumption)
    (cmedia : Part.media ∈ P := by assumption) (cregs : Part.regs ∈ P := by assumption)
    (crel : Part.rel ∈ P := by assumption) (cfw : Part.fw ∈ P := by assumption)
    : ∀ u, execMoReset a0 a1 a2 = .next u → Keeps P s₀ u := by
  intro u e
  unfold execMoReset at e
  (repeat' split at e) <;> cases e
  all_goals
  repeat' (first
      | with_reducible assumption | with_reducible apply State.guarded_keeps
      | with_reducible apply State.resetWrite_keeps | intro _)

theorem execResetAssert_keeps {P : List Part} {s₀ : State} (a0 : State) (h0 : Keeps P s₀ a0)
    (cmodule : Part.module ∈ P := by assumption) (csites : Part.sites ∈ P := by assumption)
    (ctiles : Part.tiles ∈ P := by assumption) (cpackage : Part.package ∈ P := by assumption)
    (crails : Part.rails ∈ P := by assumption) (cmemory : Part.memory ∈ P := by assumption)
    (ctiers : Part.tiers ∈ P := by assumption) (ckv : Part.kv ∈ P := by assumption)
    (cattn : Part.attn ∈ P := by assumption) (clinks : Part.links ∈ P := by assumption)
    (chosts : Part.hosts ∈ P := by assumption) (csched : Part.sched ∈ P := by assumption)
    (cmedia : Part.media ∈ P := by assumption) (cregs : Part.regs ∈ P := by assumption)
    (crel : Part.rel ∈ P := by assumption) (cfw : Part.fw ∈ P := by assumption)
    : ∀ u, execResetAssert a0 = .next u → Keeps P s₀ u := by
  intro u e
  unfold execResetAssert at e
  (repeat' split at e) <;> cases e
  all_goals
  repeat' (first
      | with_reducible assumption | with_reducible apply State.moduleReset_keeps)

theorem execRefClockLoss_keeps {P : List Part} {s₀ : State} (a0 : State) (h0 : Keeps P s₀ a0)
    (cmodule : Part.module ∈ P := by assumption) (csites : Part.sites ∈ P := by assumption)
    (ctiles : Part.tiles ∈ P := by assumption) (cpackage : Part.package ∈ P := by assumption)
    (crails : Part.rails ∈ P := by assumption) (cmemory : Part.memory ∈ P := by assumption)
    (ctiers : Part.tiers ∈ P := by assumption) (ckv : Part.kv ∈ P := by assumption)
    (cattn : Part.attn ∈ P := by assumption) (clinks : Part.links ∈ P := by assumption)
    (chosts : Part.hosts ∈ P := by assumption) (csched : Part.sched ∈ P := by assumption)
    (cmedia : Part.media ∈ P := by assumption) (cregs : Part.regs ∈ P := by assumption)
    (crel : Part.rel ∈ P := by assumption) (cfw : Part.fw ∈ P := by assumption)
    : ∀ u, execRefClockLoss a0 = .next u → Keeps P s₀ u := by
  intro u e
  unfold execRefClockLoss at e
  (repeat' split at e) <;> cases e
  all_goals
  repeat' (first
      | with_reducible assumption | with_reducible apply State.moduleReset_keeps
      | with_reducible apply State.interrupt_keeps)

theorem execMoClear_keeps {P : List Part} {s₀ : State} (a0 : Writer) (a1 : Word) (a2 : State) (h2 : Keeps P s₀ a2)
    (cregs : Part.regs ∈ P := by assumption) (cdraws : Part.draws ∈ P := by assumption)
    : ∀ u, execMoClear a0 a1 a2 = .next u → Keeps P s₀ u := by
  intro u e
  unfold execMoClear at e
  (repeat' split at e) <;> cases e
  all_goals
  repeat' (first
      | with_reducible assumption | with_reducible apply State.guarded_keeps
      | with_reducible apply State.clearPeak_keeps | intro _)

theorem State.fuBufWrite_keeps {P : List Part} {s₀ : State} (a0 : State) (a1 : ℕ) (a2 : ℕ) (h0 : Keeps P s₀ a0)
    (cfw : Part.fw ∈ P := by assumption) : Keeps P s₀ (State.fuBufWrite a0 a1 a2) := by
  unfold State.fuBufWrite
  repeat' (first
      | with_reducible assumption | intro _ | dsimp only
      | (fail_if_no_progress with_reducible refine Keeps.upd ?_ _ _ _ _ _ _ _ _ _ _ _ _ _ _ _ _ _ ?_ ?_ ?_ ?_ ?_ ?_))

theorem State.storePiece_keeps {P : List Part} {s₀ : State} (a0 : State) (a1 : ℕ) (a2 : List Byte) (h0
    : Keeps P s₀ a0) (cfw : Part.fw ∈ P := by assumption) : Keeps P s₀ (State.storePiece a0 a1 a2) := by
  unfold State.storePiece
  repeat' (first
      | with_reducible assumption | with_reducible apply State.setFwSlot_keeps)

theorem State.verifyImage_keeps {P : List Part} {s₀ : State} (a0 : State) (h0 : Keeps P s₀ a0)
    (chosts : Part.hosts ∈ P := by assumption) (cregs : Part.regs ∈ P := by assumption)
    (cfw : Part.fw ∈ P := by assumption) : Keeps P s₀ (State.verifyImage a0) := by
  unfold State.verifyImage
  repeat' (first
      | with_reducible assumption | with_reducible apply State.fuMode_keeps
      | with_reducible apply State.setFwSlot_keeps | with_reducible apply State.fuStatus_keeps | split | dsimp only)

theorem State.fuRefuse_keeps {P : List Part} {s₀ : State} (a0 : State) (a1 : ℕ) (h0 : Keeps P s₀ a0)
    (cregs : Part.regs ∈ P := by assumption) (cfw : Part.fw ∈ P := by assumption) : Keeps P s₀
    (State.fuRefuse a0 a1) := by
  unfold State.fuRefuse
  repeat' (first
      | with_reducible assumption | with_reducible apply State.fuStatus_keeps
      | with_reducible apply State.addSat_keeps)

theorem State.fuPut_keeps {P : List Part} {s₀ : State} (a0 : State) (a1 : Writer) (a2 : ℕ) (h0 : Keeps P s₀ a0)
    (chosts : Part.hosts ∈ P := by assumption) (cregs : Part.regs ∈ P := by assumption)
    (cfw : Part.fw ∈ P := by assumption) : Keeps P s₀ (State.fuPut a0 a1 a2) := by
  unfold State.fuPut
  repeat' (first
      | with_reducible assumption | with_reducible apply State.fuStatus_keeps
      | with_reducible apply State.verifyImage_keeps | with_reducible apply State.storePiece_keeps
      | with_reducible apply State.fuRefuse_keeps | split | dsimp only)

theorem execFuPut_keeps {P : List Part} {s₀ : State} (a0 : Writer) (a1 : Word) (a2 : State) (h2 : Keeps P s₀ a2)
    (chosts : Part.hosts ∈ P := by assumption) (cregs : Part.regs ∈ P := by assumption)
    (cfw : Part.fw ∈ P := by assumption) : ∀ u, execFuPut a0 a1 a2 = .next u → Keeps P s₀ u := by
  intro u e
  unfold execFuPut at e
  (repeat' split at e) <;> cases e
  all_goals
  repeat' (first
      | with_reducible assumption | with_reducible apply State.guarded_keeps
      | with_reducible apply State.fuPut_keeps | intro _)

theorem State.atSet_keeps {P : List Part} {s₀ : State} (a0 : State) (a1 : ℕ) (a2 : ℕ) (a3 : Bool) (h0 : Keeps P s₀ a0)
    (cfw : Part.fw ∈ P := by assumption) : Keeps P s₀ (State.atSet a0 a1 a2 a3) := by
  unfold State.atSet
  repeat' (first
      | with_reducible assumption | split | intro _ | dsimp only
      | (fail_if_no_progress with_reducible refine Keeps.upd ?_ _ _ _ _ _ _ _ _ _ _ _ _ _ _ _ _ _ ?_ ?_ ?_ ?_ ?_ ?_))

theorem State.attestNow_keeps {P : List Part} {s₀ : State} (a0 : State) (a1 : ℕ) (h0 : Keeps P s₀ a0)
    (chosts : Part.hosts ∈ P := by assumption) (cregs : Part.regs ∈ P := by assumption)
    (crel : Part.rel ∈ P := by assumption) (cfw : Part.fw ∈ P := by assumption) : Keeps P s₀
    (State.attestNow a0 a1) := by
  unfold State.attestNow
  repeat' (first
      | with_reducible assumption | with_reducible apply State.atSet_keeps | with_reducible apply State.sign_keeps
      | (with_reducible refine Keeps.ofFst (by with_reducible assumption) ?_) | split | intro _ | dsimp only
      | (fail_if_no_progress with_reducible refine Keeps.upd ?_ _ _ _ _ _ _ _ _ _ _ _ _ _ _ _ _ _ ?_ ?_ ?_ ?_ ?_ ?_))

theorem State.attest_keeps {P : List Part} {s₀ : State} (a0 : State) (a1 : ℕ) (h0 : Keeps P s₀ a0)
    (chosts : Part.hosts ∈ P := by assumption) (cregs : Part.regs ∈ P := by assumption)
    (crel : Part.rel ∈ P := by assumption) (cfw : Part.fw ∈ P := by assumption) : Keeps P s₀
    (State.attest a0 a1) := by
  unfold State.attest
  repeat' (first
      | with_reducible assumption | with_reducible apply State.attestNow_keeps | split | intro _ | dsimp only
      | (fail_if_no_progress with_reducible refine Keeps.upd ?_ _ _ _ _ _ _ _ _ _ _ _ _ _ _ _ _ _ ?_ ?_ ?_ ?_ ?_ ?_))

theorem State.attestTick_keeps {P : List Part} {s₀ : State} (a0 : State) (h0 : Keeps P s₀ a0)
    (chosts : Part.hosts ∈ P := by assumption) (cregs : Part.regs ∈ P := by assumption)
    (crel : Part.rel ∈ P := by assumption) (cfw : Part.fw ∈ P := by assumption) : Keeps P s₀
    (State.attestTick a0) := by
  unfold State.attestTick
  repeat' (first
      | with_reducible assumption | with_reducible apply State.attestNow_keeps | split | intro _ | dsimp only
      | (fail_if_no_progress with_reducible refine Keeps.upd ?_ _ _ _ _ _ _ _ _ _ _ _ _ _ _ _ _ _ ?_ ?_ ?_ ?_ ?_ ?_))

theorem execAttestationRequest_keeps {P : List Part} {s₀ : State} (a0 : Writer) (a1 : Word) (a2 : State) (h2
    : Keeps P s₀ a2) (chosts : Part.hosts ∈ P := by assumption) (cregs : Part.regs ∈ P := by assumption)
    (crel : Part.rel ∈ P := by assumption) (cfw : Part.fw ∈ P := by assumption)
    : ∀ u, execAttestationRequest a0 a1 a2 = .next u → Keeps P s₀ u := by
  intro u e
  unfold execAttestationRequest at e
  (repeat' split at e) <;> cases e
  all_goals
  repeat' (first
      | with_reducible assumption | with_reducible apply State.guarded_keeps
      | with_reducible apply State.attest_keeps | intro _)

theorem State.fuOpen_keeps {P : List Part} {s₀ : State} (a0 : State) (a1 : Writer) (a2 : ℕ) (h0 : Keeps P s₀ a0)
    (chosts : Part.hosts ∈ P := by assumption) (cregs : Part.regs ∈ P := by assumption)
    (cfw : Part.fw ∈ P := by assumption) : Keeps P s₀ (State.fuOpen a0 a1 a2) := by
  unfold State.fuOpen
  repeat' (first
      | with_reducible assumption | with_reducible apply State.fuStatus_keeps
      | with_reducible apply State.fuMode_keeps | with_reducible apply State.setReg_keeps | split | intro _
      | dsimp only
      | (fail_if_no_progress with_reducible refine Keeps.upd ?_ _ _ _ _ _ _ _ _ _ _ _ _ _ _ _ _ _ ?_ ?_ ?_ ?_ ?_ ?_))

theorem execArmLoadDone_keeps {P : List Part} {s₀ : State} (a0 : State) (h0 : Keeps P s₀ a0)
    (chosts : Part.hosts ∈ P := by assumption) (cregs : Part.regs ∈ P := by assumption)
    (cfw : Part.fw ∈ P := by assumption) : ∀ u, execArmLoadDone a0 = .next u → Keeps P s₀ u := by
  intro u e
  unfold execArmLoadDone at e
  (repeat' split at e) <;> cases e
  all_goals
  repeat' (first
      | with_reducible assumption | with_reducible apply State.fuMode_keeps | intro _ | dsimp only
      | (fail_if_no_progress with_reducible refine Keeps.upd ?_ _ _ _ _ _ _ _ _ _ _ _ _ _ _ _ _ _ ?_ ?_ ?_ ?_ ?_ ?_))

theorem State.fuCommit_keeps {P : List Part} {s₀ : State} (a0 : State) (a1 : Writer) (h0 : Keeps P s₀ a0)
    (chosts : Part.hosts ∈ P := by assumption) (cregs : Part.regs ∈ P := by assumption)
    (cfw : Part.fw ∈ P := by assumption) : Keeps P s₀ (State.fuCommit a0 a1) := by
  unfold State.fuCommit
  split
  · exact State.fuStatus_keeps _ _ h0
  · split
    · exact State.fuStatus_keeps _ _ h0
    · exact State.fuMode_keeps _ _ (h0.put _ _ _ _ _ _ _ _ _ _ _ _ _ _ _ _ _ rfl id rfl (le_max_left _ _) (le_refl _) fun _ => List.prefix_refl _)

theorem State.fuDiscard_keeps {P : List Part} {s₀ : State} (a0 : State) (a1 : Writer) (h0 : Keeps P s₀ a0)
    (chosts : Part.hosts ∈ P := by assumption) (cregs : Part.regs ∈ P := by assumption)
    (cfw : Part.fw ∈ P := by assumption) : Keeps P s₀ (State.fuDiscard a0 a1) := by
  unfold State.fuDiscard
  repeat' (first
      | with_reducible assumption | with_reducible apply State.fuStatus_keeps
      | with_reducible apply State.fuMode_keeps | with_reducible apply State.setFwSlot_keeps | split)

theorem State.fuArm_keeps {P : List Part} {s₀ : State} (a0 : State) (a1 : Writer) (a2 : ℕ) (h0 : Keeps P s₀ a0)
    (cmodule : Part.module ∈ P := by assumption) (csites : Part.sites ∈ P := by assumption)
    (ctiles : Part.tiles ∈ P := by assumption) (cpackage : Part.package ∈ P := by assumption)
    (crails : Part.rails ∈ P := by assumption) (cmemory : Part.memory ∈ P := by assumption)
    (ctiers : Part.tiers ∈ P := by assumption) (ckv : Part.kv ∈ P := by assumption)
    (cattn : Part.attn ∈ P := by assumption) (clinks : Part.links ∈ P := by assumption)
    (chosts : Part.hosts ∈ P := by assumption) (csched : Part.sched ∈ P := by assumption)
    (cmedia : Part.media ∈ P := by assumption) (cregs : Part.regs ∈ P := by assumption)
    (crel : Part.rel ∈ P := by assumption) (cfw : Part.fw ∈ P := by assumption) : Keeps P s₀
    (State.fuArm a0 a1 a2) := by
  unfold State.fuArm
  repeat' (first
      | with_reducible assumption | with_reducible apply State.fuStatus_keeps
      | with_reducible apply State.moduleReset_keeps | split | intro _ | dsimp only
      | (fail_if_no_progress with_reducible refine Keeps.upd ?_ _ _ _ _ _ _ _ _ _ _ _ _ _ _ _ _ _ ?_ ?_ ?_ ?_ ?_ ?_))

theorem State.installCert_keeps {P : List Part} {s₀ : State} (a0 : State) (a1 : Writer) (h0 : Keeps P s₀ a0)
    (chosts : Part.hosts ∈ P := by assumption) (cregs : Part.regs ∈ P := by assumption)
    (crel : Part.rel ∈ P := by assumption) (cfw : Part.fw ∈ P := by assumption) : Keeps P s₀
    (State.installCert a0 a1) := by
  unfold State.installCert
  repeat' (first
      | with_reducible assumption | with_reducible apply State.fuStatus_keeps
      | with_reducible apply State.checkpoint_keeps | with_reducible apply State.log_keeps | split | intro _
      | dsimp only
      | (fail_if_no_progress with_reducible refine Keeps.upd ?_ _ _ _ _ _ _ _ _ _ _ _ _ _ _ _ _ _ ?_ ?_ ?_ ?_ ?_ ?_))

theorem State.fuCtrl_keeps {P : List Part} {s₀ : State} (a0 : State) (a1 : Writer) (a2 : ℕ) (h0 : Keeps P s₀ a0)
    (cmodule : Part.module ∈ P := by assumption) (csites : Part.sites ∈ P := by assumption)
    (ctiles : Part.tiles ∈ P := by assumption) (cpackage : Part.package ∈ P := by assumption)
    (crails : Part.rails ∈ P := by assumption) (cmemory : Part.memory ∈ P := by assumption)
    (ctiers : Part.tiers ∈ P := by assumption) (ckv : Part.kv ∈ P := by assumption)
    (cattn : Part.attn ∈ P := by assumption) (clinks : Part.links ∈ P := by assumption)
    (chosts : Part.hosts ∈ P := by assumption) (csched : Part.sched ∈ P := by assumption)
    (cmedia : Part.media ∈ P := by assumption) (cregs : Part.regs ∈ P := by assumption)
    (crel : Part.rel ∈ P := by assumption) (cfw : Part.fw ∈ P := by assumption) : Keeps P s₀
    (State.fuCtrl a0 a1 a2) := by
  unfold State.fuCtrl
  repeat' (first
      | with_reducible assumption | with_reducible apply State.fuOpen_keeps | with_reducible apply State.fuPut_keeps
      | with_reducible apply State.fuDiscard_keeps | with_reducible apply State.fuArm_keeps
      | with_reducible apply State.installCert_keeps | with_reducible apply State.fuCommit_keeps | split)

theorem execFuCommit_keeps {P : List Part} {s₀ : State} (a0 : Writer) (a1 : Word) (a2 : State) (h2 : Keeps P s₀ a2)
    (chosts : Part.hosts ∈ P := by assumption) (cregs : Part.regs ∈ P := by assumption)
    (cfw : Part.fw ∈ P := by assumption) : ∀ u, execFuCommit a0 a1 a2 = .next u → Keeps P s₀ u := by
  intro u e
  unfold execFuCommit at e
  (repeat' split at e) <;> cases e
  all_goals
  repeat' (first
      | with_reducible assumption | with_reducible apply State.guarded_keeps
      | with_reducible apply State.fuCommit_keeps | intro _)

theorem execFuDiscard_keeps {P : List Part} {s₀ : State} (a0 : Writer) (a1 : Word) (a2 : State) (h2 : Keeps P s₀ a2)
    (chosts : Part.hosts ∈ P := by assumption) (cregs : Part.regs ∈ P := by assumption)
    (cfw : Part.fw ∈ P := by assumption) : ∀ u, execFuDiscard a0 a1 a2 = .next u → Keeps P s₀ u := by
  intro u e
  unfold execFuDiscard at e
  (repeat' split at e) <;> cases e
  all_goals
  repeat' (first
      | with_reducible assumption | with_reducible apply State.guarded_keeps
      | with_reducible apply State.fuDiscard_keeps | intro _)

theorem execFuArm_keeps {P : List Part} {s₀ : State} (a0 : Writer) (a1 : Word) (a2 : State) (h2 : Keeps P s₀ a2)
    (cmodule : Part.module ∈ P := by assumption) (csites : Part.sites ∈ P := by assumption)
    (ctiles : Part.tiles ∈ P := by assumption) (cpackage : Part.package ∈ P := by assumption)
    (crails : Part.rails ∈ P := by assumption) (cmemory : Part.memory ∈ P := by assumption)
    (ctiers : Part.tiers ∈ P := by assumption) (ckv : Part.kv ∈ P := by assumption)
    (cattn : Part.attn ∈ P := by assumption) (clinks : Part.links ∈ P := by assumption)
    (chosts : Part.hosts ∈ P := by assumption) (csched : Part.sched ∈ P := by assumption)
    (cmedia : Part.media ∈ P := by assumption) (cregs : Part.regs ∈ P := by assumption)
    (crel : Part.rel ∈ P := by assumption) (cfw : Part.fw ∈ P := by assumption)
    : ∀ u, execFuArm a0 a1 a2 = .next u → Keeps P s₀ u := by
  intro u e
  unfold execFuArm at e
  (repeat' split at e) <;> cases e
  all_goals
  repeat' (first
      | with_reducible assumption | with_reducible apply State.guarded_keeps
      | with_reducible apply State.fuArm_keeps | intro _)

theorem execFuInstallCert_keeps {P : List Part} {s₀ : State} (a0 : Writer) (a1 : Word) (a2 : State) (h2
    : Keeps P s₀ a2) (chosts : Part.hosts ∈ P := by assumption) (cregs : Part.regs ∈ P := by assumption)
    (crel : Part.rel ∈ P := by assumption) (cfw : Part.fw ∈ P := by assumption)
    : ∀ u, execFuInstallCert a0 a1 a2 = .next u → Keeps P s₀ u := by
  intro u e
  unfold execFuInstallCert at e
  (repeat' split at e) <;> cases e
  all_goals
  repeat' (first
      | with_reducible assumption | with_reducible apply State.guarded_keeps
      | with_reducible apply State.installCert_keeps | intro _)

theorem execFuOpen_keeps {P : List Part} {s₀ : State} (a0 : Writer) (a1 : Word) (a2 : State) (h2 : Keeps P s₀ a2)
    (chosts : Part.hosts ∈ P := by assumption) (cregs : Part.regs ∈ P := by assumption)
    (cfw : Part.fw ∈ P := by assumption) : ∀ u, execFuOpen a0 a1 a2 = .next u → Keeps P s₀ u := by
  intro u e
  unfold execFuOpen at e
  (repeat' split at e) <;> cases e
  all_goals
  repeat' (first
      | with_reducible assumption | with_reducible apply State.guarded_keeps
      | with_reducible apply State.fuOpen_keeps | intro _)

theorem State.wipeReport_keeps {P : List Part} {s₀ : State} (a0 : State) (h0 : Keeps P s₀ a0)
    (chosts : Part.hosts ∈ P := by assumption) (cregs : Part.regs ∈ P := by assumption)
    (crel : Part.rel ∈ P := by assumption) (cfw : Part.fw ∈ P := by assumption) : Keeps P s₀
    (State.wipeReport a0) := by
  unfold State.wipeReport
  repeat' (first
      | with_reducible assumption | with_reducible apply State.log_keeps | with_reducible apply State.sign_keeps
      | intro _ | dsimp only
      | (fail_if_no_progress with_reducible refine Keeps.upd ?_ _ _ _ _ _ _ _ _ _ _ _ _ _ _ _ _ _ ?_ ?_ ?_ ?_ ?_ ?_))

theorem State.wipeState_keeps {P : List Part} {s₀ : State} (a0 : State) (h0 : Keeps P s₀ a0)
    (ctiles : Part.tiles ∈ P := by assumption) (cmemory : Part.memory ∈ P := by assumption)
    (ctiers : Part.tiers ∈ P := by assumption) (ckv : Part.kv ∈ P := by assumption)
    (cattn : Part.attn ∈ P := by assumption) (clinks : Part.links ∈ P := by assumption)
    (chosts : Part.hosts ∈ P := by assumption) (cmedia : Part.media ∈ P := by assumption)
    (cregs : Part.regs ∈ P := by assumption) : Keeps P s₀ (State.wipeState a0) := by
  unfold State.wipeState
  repeat' (first
      | with_reducible assumption | intro _ | dsimp only
      | (fail_if_no_progress with_reducible refine Keeps.upd ?_ _ _ _ _ _ _ _ _ _ _ _ _ _ _ _ _ _ ?_ ?_ ?_ ?_ ?_ ?_)
      | exact reset_memory_wf)

theorem State.wipe_keeps {P : List Part} {s₀ : State} (a0 : State) (h0 : Keeps P s₀ a0)
    (ctiles : Part.tiles ∈ P := by assumption) (cmemory : Part.memory ∈ P := by assumption)
    (ctiers : Part.tiers ∈ P := by assumption) (ckv : Part.kv ∈ P := by assumption)
    (cattn : Part.attn ∈ P := by assumption) (clinks : Part.links ∈ P := by assumption)
    (chosts : Part.hosts ∈ P := by assumption) (cmedia : Part.media ∈ P := by assumption)
    (cregs : Part.regs ∈ P := by assumption) (crel : Part.rel ∈ P := by assumption)
    (cfw : Part.fw ∈ P := by assumption) : Keeps P s₀ (State.wipe a0) := by
  unfold State.wipe
  repeat' (first
      | with_reducible assumption | with_reducible apply State.wipeReport_keeps
      | with_reducible apply State.wipeState_keeps | split | intro _ | dsimp only
      | (fail_if_no_progress with_reducible refine Keeps.upd ?_ _ _ _ _ _ _ _ _ _ _ _ _ _ _ _ _ _ ?_ ?_ ?_ ?_ ?_ ?_))

theorem State.askWipe_keeps {P : List Part} {s₀ : State} (a0 : State) (h0 : Keeps P s₀ a0)
    (ctiles : Part.tiles ∈ P := by assumption) (cmemory : Part.memory ∈ P := by assumption)
    (ctiers : Part.tiers ∈ P := by assumption) (ckv : Part.kv ∈ P := by assumption)
    (cattn : Part.attn ∈ P := by assumption) (clinks : Part.links ∈ P := by assumption)
    (chosts : Part.hosts ∈ P := by assumption) (cmedia : Part.media ∈ P := by assumption)
    (cregs : Part.regs ∈ P := by assumption) (crel : Part.rel ∈ P := by assumption)
    (cfw : Part.fw ∈ P := by assumption) : Keeps P s₀ (State.askWipe a0) := by
  unfold State.askWipe
  repeat' (first
      | with_reducible assumption | with_reducible apply State.wipe_keeps | split | intro _ | dsimp only
      | (fail_if_no_progress with_reducible refine Keeps.upd ?_ _ _ _ _ _ _ _ _ _ _ _ _ _ _ _ _ _ ?_ ?_ ?_ ?_ ?_ ?_))

theorem execWipeStart_keeps {P : List Part} {s₀ : State} (a0 : Writer) (a1 : Word) (a2 : State) (h2 : Keeps P s₀ a2)
    (ctiles : Part.tiles ∈ P := by assumption) (cmemory : Part.memory ∈ P := by assumption)
    (ctiers : Part.tiers ∈ P := by assumption) (ckv : Part.kv ∈ P := by assumption)
    (cattn : Part.attn ∈ P := by assumption) (clinks : Part.links ∈ P := by assumption)
    (chosts : Part.hosts ∈ P := by assumption) (cmedia : Part.media ∈ P := by assumption)
    (cregs : Part.regs ∈ P := by assumption) (crel : Part.rel ∈ P := by assumption)
    (cfw : Part.fw ∈ P := by assumption) : ∀ u, execWipeStart a0 a1 a2 = .next u → Keeps P s₀ u := by
  intro u e
  unfold execWipeStart at e
  (repeat' split at e) <;> cases e
  all_goals
  repeat' (first
      | with_reducible assumption | with_reducible apply State.guarded_keeps
      | with_reducible apply State.askWipe_keeps | intro _)

theorem State.resumeRepairs_keeps {P : List Part} {s₀ : State} (a0 : State) (h0 : Keeps P s₀ a0)
    (ctiers : Part.tiers ∈ P := by assumption) (chosts : Part.hosts ∈ P := by assumption)
    (cregs : Part.regs ∈ P := by assumption) (crel : Part.rel ∈ P := by assumption)
    (cfw : Part.fw ∈ P := by assumption) : Keeps P s₀ (State.resumeRepairs a0) := by
  unfold State.resumeRepairs
  repeat' (first
      | with_reducible assumption | with_reducible apply State.startRepair_keeps | with_reducible apply Keeps.iter
      | split | intro _)

theorem State.resumeHeld_keeps {P : List Part} {s₀ : State} (a0 : State) (h0 : Keeps P s₀ a0)
    (ctiles : Part.tiles ∈ P := by assumption) (cmemory : Part.memory ∈ P := by assumption)
    (ctiers : Part.tiers ∈ P := by assumption) (ckv : Part.kv ∈ P := by assumption)
    (cattn : Part.attn ∈ P := by assumption) (clinks : Part.links ∈ P := by assumption)
    (chosts : Part.hosts ∈ P := by assumption) (cmedia : Part.media ∈ P := by assumption)
    (cregs : Part.regs ∈ P := by assumption) (crel : Part.rel ∈ P := by assumption)
    (cfw : Part.fw ∈ P := by assumption) : Keeps P s₀ (State.resumeHeld a0) := by
  unfold State.resumeHeld
  repeat' (first
      | with_reducible assumption | with_reducible apply State.startPlanned_keeps
      | with_reducible apply State.wipe_keeps | with_reducible apply State.resumeRepairs_keeps | split | intro _
      | dsimp only
      | (fail_if_no_progress with_reducible refine Keeps.upd ?_ _ _ _ _ _ _ _ _ _ _ _ _ _ _ _ _ _ ?_ ?_ ?_ ?_ ?_ ?_))

theorem State.activate_keeps {P : List Part} {s₀ : State} (a0 : State) (h0 : Keeps P s₀ a0)
    (chosts : Part.hosts ∈ P := by assumption) (cregs : Part.regs ∈ P := by assumption)
    (crel : Part.rel ∈ P := by assumption) (cfw : Part.fw ∈ P := by assumption) : Keeps P s₀ (State.activate a0) := by
  unfold State.activate
  repeat' (first
      | with_reducible assumption | with_reducible apply State.fuMode_keeps
      | with_reducible apply State.logActivate_keeps | intro _ | dsimp only
      | (fail_if_no_progress with_reducible refine Keeps.upd ?_ _ _ _ _ _ _ _ _ _ _ _ _ _ _ _ _ _ ?_ ?_ ?_ ?_ ?_ ?_))

theorem execQuiescentActivation_keeps {P : List Part} {s₀ : State} (a0 : Bool) (a1 : State) (h1 : Keeps P s₀ a1)
    (ctiles : Part.tiles ∈ P := by assumption) (cmemory : Part.memory ∈ P := by assumption)
    (ctiers : Part.tiers ∈ P := by assumption) (ckv : Part.kv ∈ P := by assumption)
    (cattn : Part.attn ∈ P := by assumption) (clinks : Part.links ∈ P := by assumption)
    (chosts : Part.hosts ∈ P := by assumption) (cmedia : Part.media ∈ P := by assumption)
    (cregs : Part.regs ∈ P := by assumption) (crel : Part.rel ∈ P := by assumption)
    (cfw : Part.fw ∈ P := by assumption) : ∀ u, execQuiescentActivation a0 a1 = .next u → Keeps P s₀ u := by
  intro u e
  unfold execQuiescentActivation at e
  cases e
  split
  · assumption
  · refine State.resumeHeld_keeps _ ?_
    have h := State.withdraw_keeps _ h1
    generalize State.withdraw a1 = t at h ⊢
    split
    · exact State.activate_keeps _ h
    · exact State.undoActivation_keeps _ h

theorem State.setFail_keeps {P : List Part} {s₀ : State} (a0 : State) (a1 : ℕ) (h0 : Keeps P s₀ a0)
    (cmodule : Part.module ∈ P := by assumption) : Keeps P s₀ (State.setFail a0 a1) := by
  unfold State.setFail
  repeat' (first
      | with_reducible assumption | intro _ | dsimp only
      | (fail_if_no_progress with_reducible refine Keeps.upd ?_ _ _ _ _ _ _ _ _ _ _ _ _ _ _ _ _ _ ?_ ?_ ?_ ?_ ?_ ?_))

theorem State.recoveryBoot_keeps {P : List Part} {s₀ : State} (a0 : State) (h0 : Keeps P s₀ a0)
    (cmodule : Part.module ∈ P := by assumption) : Keeps P s₀ (State.recoveryBoot a0) := by
  unfold State.recoveryBoot
  repeat' (first
      | with_reducible assumption | intro _ | dsimp only
      | (fail_if_no_progress with_reducible refine Keeps.upd ?_ _ _ _ _ _ _ _ _ _ _ _ _ _ _ _ _ _ ?_ ?_ ?_ ?_ ?_ ?_))

theorem State.trimRestore_keeps {P : List Part} {s₀ : State} (a0 : State) (a1 : List Byte) (h0 : Keeps P s₀ a0)
    (chosts : Part.hosts ∈ P := by assumption) (cregs : Part.regs ∈ P := by assumption)
    (crel : Part.rel ∈ P := by assumption) (cfw : Part.fw ∈ P := by assumption) : Keeps P s₀
    (State.trimRestore a0 a1) := by
  unfold State.trimRestore
  repeat' (first
      | with_reducible assumption | with_reducible apply State.log_keeps | intro _ | dsimp only
      | (fail_if_no_progress with_reducible refine Keeps.upd ?_ _ _ _ _ _ _ _ _ _ _ _ _ _ _ _ _ _ ?_ ?_ ?_ ?_ ?_ ?_))

theorem State.bookOpen_keeps {P : List Part} {s₀ : State} (a0 : State) (h0 : Keeps P s₀ a0)
    (chosts : Part.hosts ∈ P := by assumption) (cregs : Part.regs ∈ P := by assumption)
    (crel : Part.rel ∈ P := by assumption) (cfw : Part.fw ∈ P := by assumption) : Keeps P s₀ (State.bookOpen a0) := by
  unfold State.bookOpen
  refine State.log_keeps _ _ _ _ _ _ ?_
  exact h0.put _ _ _ _ _ _ _ _ _ _ _ _ _ _ _ _ _ rfl id rfl (le_refl _) (Nat.le_succ _) fun e => absurd e (Nat.succ_ne_self _)

theorem State.keyRenew_keeps {P : List Part} {s₀ : State} (a0 : State) (h0 : Keeps P s₀ a0)
    (chosts : Part.hosts ∈ P := by assumption) (cregs : Part.regs ∈ P := by assumption)
    (crel : Part.rel ∈ P := by assumption) (cfw : Part.fw ∈ P := by assumption) : Keeps P s₀ (State.keyRenew a0) := by
  unfold State.keyRenew
  repeat' (first
      | with_reducible assumption | with_reducible apply State.sign_keeps
      | (with_reducible refine Keeps.ofFst (by with_reducible assumption) ?_) | split | intro _ | dsimp only
      | (fail_if_no_progress with_reducible refine Keeps.upd ?_ _ _ _ _ _ _ _ _ _ _ _ _ _ _ _ _ _ ?_ ?_ ?_ ?_ ?_ ?_))

theorem State.runService_keeps {P : List Part} {s₀ : State} (a0 : State) (a1 : ℕ) (h0 : Keeps P s₀ a0)
    (chosts : Part.hosts ∈ P := by assumption) (cregs : Part.regs ∈ P := by assumption)
    (crel : Part.rel ∈ P := by assumption) (cfw : Part.fw ∈ P := by assumption) : Keeps P s₀
    (State.runService a0 a1) := by
  unfold State.runService
  repeat' (first
      | with_reducible assumption | with_reducible apply State.trimRestore_keeps
      | with_reducible apply State.bookOpen_keeps | with_reducible apply State.keyRenew_keeps
      | with_reducible apply State.fuStatus_keeps | with_reducible apply State.logActivate_keeps
      | with_reducible apply State.setFwSlot_keeps | split | intro _ | dsimp only
      | (fail_if_no_progress with_reducible refine Keeps.upd ?_ _ _ _ _ _ _ _ _ _ _ _ _ _ _ _ _ _ ?_ ?_ ?_ ?_ ?_ ?_))

theorem State.servicePhase_keeps {P : List Part} {s₀ : State} (a0 : State) (h0 : Keeps P s₀ a0)
    (chosts : Part.hosts ∈ P := by assumption) (cregs : Part.regs ∈ P := by assumption)
    (crel : Part.rel ∈ P := by assumption) (cfw : Part.fw ∈ P := by assumption) : Keeps P s₀
    (State.servicePhase a0) := by
  unfold State.servicePhase
  repeat' (first
      | with_reducible assumption | with_reducible apply State.runService_keeps | split)

theorem State.slotCheck_keeps {P : List Part} {s₀ : State} (a0 : State) (h0 : Keeps P s₀ a0)
    (cmodule : Part.module ∈ P := by assumption) (cfw : Part.fw ∈ P := by assumption) : Keeps P s₀
    (State.slotCheck a0) := by
  unfold State.slotCheck
  repeat' (first
      | with_reducible assumption | with_reducible apply State.fuStatus_keeps
      | with_reducible apply State.setFail_keeps | split | intro _ | dsimp only
      | (fail_if_no_progress with_reducible refine Keeps.upd ?_ _ _ _ _ _ _ _ _ _ _ _ _ _ _ _ _ _ ?_ ?_ ?_ ?_ ?_ ?_))

theorem State.beginSet_keeps {P : List Part} {s₀ : State} (a0 : State) (h0 : Keeps P s₀ a0)
    (cmodule : Part.module ∈ P := by assumption) (chosts : Part.hosts ∈ P := by assumption)
    (cregs : Part.regs ∈ P := by assumption) (crel : Part.rel ∈ P := by assumption)
    (cfw : Part.fw ∈ P := by assumption) : Keeps P s₀ (State.beginSet a0) := by
  unfold State.beginSet
  repeat' (first
      | with_reducible assumption | with_reducible apply State.setFail_keeps
      | with_reducible apply State.recoveryBoot_keeps | with_reducible apply State.servicePhase_keeps
      | with_reducible apply State.slotCheck_keeps | split | intro _ | dsimp only
      | (fail_if_no_progress with_reducible refine Keeps.upd ?_ _ _ _ _ _ _ _ _ _ _ _ _ _ _ _ _ _ ?_ ?_ ?_ ?_ ?_ ?_))

theorem State.leaveMarks_keeps {P : List Part} {s₀ : State} (a0 : State) (h0 : Keeps P s₀ a0)
    (cmodule : Part.module ∈ P := by assumption) (chosts : Part.hosts ∈ P := by assumption)
    (cregs : Part.regs ∈ P := by assumption) (crel : Part.rel ∈ P := by assumption)
    (cfw : Part.fw ∈ P := by assumption) : Keeps P s₀ (State.leaveMarks a0) := by
  unfold State.leaveMarks
  repeat' (first
      | with_reducible assumption | with_reducible apply State.beginSet_keeps | split)

theorem execResetRelease_keeps {P : List Part} {s₀ : State} (a0 : BitVec 16) (a1 : State) (h1 : Keeps P s₀ a1)
    (cmodule : Part.module ∈ P := by assumption) (chosts : Part.hosts ∈ P := by assumption)
    (cregs : Part.regs ∈ P := by assumption) (crel : Part.rel ∈ P := by assumption)
    (cfw : Part.fw ∈ P := by assumption) : ∀ u, execResetRelease a0 a1 = .next u → Keeps P s₀ u := by
  intro u e
  unfold execResetRelease at e
  (repeat' split at e) <;> cases e
  all_goals
  repeat' (first
      | with_reducible assumption | with_reducible apply State.leaveMarks_keeps | intro _ | dsimp only
      | (fail_if_no_progress with_reducible refine Keeps.upd ?_ _ _ _ _ _ _ _ _ _ _ _ _ _ _ _ _ _ ?_ ?_ ?_ ?_ ?_ ?_))

theorem State.fillRanks_keeps {P : List Part} {s₀ : State} (a0 : State) (h0 : Keeps P s₀ a0)
    (cmodule : Part.module ∈ P := by assumption) (csites : Part.sites ∈ P := by assumption)
    (ctiles : Part.tiles ∈ P := by assumption) (ctiers : Part.tiers ∈ P := by assumption)
    (cattn : Part.attn ∈ P := by assumption) (chosts : Part.hosts ∈ P := by assumption)
    (cregs : Part.regs ∈ P := by assumption) (crel : Part.rel ∈ P := by assumption)
    (cfw : Part.fw ∈ P := by assumption) : Keeps P s₀ (State.fillRanks a0) := by
  unfold State.fillRanks
  repeat' (first
      | with_reducible assumption | with_reducible apply State.takeRank_keeps | with_reducible apply Keeps.foldl
      | split | intro _)

theorem State.rollBack_keeps {P : List Part} {s₀ : State} (a0 : State) (h0 : Keeps P s₀ a0)
    (cmodule : Part.module ∈ P := by assumption) (cfw : Part.fw ∈ P := by assumption) : Keeps P s₀
    (State.rollBack a0) := by
  unfold State.rollBack
  repeat' (first
      | with_reducible assumption | with_reducible apply State.fuStatus_keeps
      | with_reducible apply State.slotCheck_keeps | intro _ | dsimp only
      | (fail_if_no_progress with_reducible refine Keeps.upd ?_ _ _ _ _ _ _ _ _ _ _ _ _ _ _ _ _ _ ?_ ?_ ?_ ?_ ?_ ?_))

theorem execSetLimitExpiry_keeps {P : List Part} {s₀ : State} (a0 : State) (h0 : Keeps P s₀ a0)
    (cmodule : Part.module ∈ P := by assumption) (cfw : Part.fw ∈ P := by assumption)
    : ∀ u, execSetLimitExpiry a0 = .next u → Keeps P s₀ u := by
  intro u e
  unfold execSetLimitExpiry at e
  (repeat' split at e) <;> cases e
  all_goals
  repeat' (first
      | with_reducible assumption | with_reducible apply State.rollBack_keeps
      | with_reducible apply State.setFail_keeps)

theorem execI3cAddressAssign_keeps {P : List Part} {s₀ : State} (a0 : Bool) (a1 : BitVec 7) (a2 : State) (h2
    : Keeps P s₀ a2) (cmodule : Part.module ∈ P := by assumption)
    : ∀ u, execI3cAddressAssign a0 a1 a2 = .next u → Keeps P s₀ u := by
  intro u e
  unfold execI3cAddressAssign at e
  (repeat' split at e) <;> cases e
  all_goals
  repeat' (first
      | with_reducible assumption | intro _ | dsimp only
      | (fail_if_no_progress with_reducible refine Keeps.upd ?_ _ _ _ _ _ _ _ _ _ _ _ _ _ _ _ _ _ ?_ ?_ ?_ ?_ ?_ ?_))

theorem State.sawLimits_keeps {P : List Part} {s₀ : State} (a0 : State) (a1 : Bool) (a2 : Bool) (h0 : Keeps P s₀ a0)
    (cmodule : Part.module ∈ P := by assumption) : Keeps P s₀ (State.sawLimits a0 a1 a2) := by
  unfold State.sawLimits
  repeat' (first
      | with_reducible assumption | split | intro _ | dsimp only
      | (fail_if_no_progress with_reducible refine Keeps.upd ?_ _ _ _ _ _ _ _ _ _ _ _ _ _ _ _ _ _ ?_ ?_ ?_ ?_ ?_ ?_))

theorem execBusVoltageEvent_keeps {P : List Part} {s₀ : State} (a0 : ℕ) (a1 : ℕ) (a2 : State) (h2 : Keeps P s₀ a2)
    (cmodule : Part.module ∈ P := by assumption) (cmemory : Part.memory ∈ P := by assumption)
    (ctiers : Part.tiers ∈ P := by assumption) (ckv : Part.kv ∈ P := by assumption)
    (clinks : Part.links ∈ P := by assumption) (chosts : Part.hosts ∈ P := by assumption)
    (csched : Part.sched ∈ P := by assumption) (cmedia : Part.media ∈ P := by assumption)
    (cregs : Part.regs ∈ P := by assumption) (crel : Part.rel ∈ P := by assumption)
    (cfw : Part.fw ∈ P := by assumption) (cdraws : Part.draws ∈ P := by assumption)
    : ∀ u, execBusVoltageEvent a0 a1 a2 = .next u → Keeps P s₀ u := by
  intro u e
  unfold execBusVoltageEvent at e
  (repeat' split at e) <;> cases e
  all_goals
  repeat' (first
      | with_reducible assumption | with_reducible apply State.sawLimits_keeps
      | with_reducible apply State.setReg_keeps | with_reducible apply State.moEvent_keeps
      | with_reducible apply State.powerFault_keeps | intro _ | dsimp only
      | (fail_if_no_progress with_reducible refine Keeps.upd ?_ _ _ _ _ _ _ _ _ _ _ _ _ _ _ _ _ _ ?_ ?_ ?_ ?_ ?_ ?_))

theorem State.stopField_keeps {P : List Part} {s₀ : State} (a0 : State) (a1 : ℕ) (a2 : ℕ) (h0 : Keeps P s₀ a0)
    (csites : Part.sites ∈ P := by assumption) (ctiles : Part.tiles ∈ P := by assumption)
    (cattn : Part.attn ∈ P := by assumption) (cregs : Part.regs ∈ P := by assumption) : Keeps P s₀
    (State.stopField a0 a1 a2) := by
  unfold State.stopField
  repeat' (first
      | with_reducible assumption | with_reducible apply State.moEvent_keeps
      | with_reducible apply State.dropField_keeps | with_reducible apply State.setSite_keeps | split | dsimp only)

theorem State.badSite_keeps {P : List Part} {s₀ : State} (a0 : State) (a1 : ℕ) (h0 : Keeps P s₀ a0)
    (cmodule : Part.module ∈ P := by assumption) (csites : Part.sites ∈ P := by assumption)
    (ctiles : Part.tiles ∈ P := by assumption) (ctiers : Part.tiers ∈ P := by assumption)
    (cattn : Part.attn ∈ P := by assumption) (chosts : Part.hosts ∈ P := by assumption)
    (cregs : Part.regs ∈ P := by assumption) (crel : Part.rel ∈ P := by assumption)
    (cfw : Part.fw ∈ P := by assumption) : Keeps P s₀ (State.badSite a0 a1) := by
  unfold State.badSite
  repeat' (first
      | with_reducible assumption | with_reducible apply State.retireSite_keeps
      | with_reducible apply State.takeRank_keeps | with_reducible apply State.setMissing_keeps | split | dsimp only)

theorem State.coolDown_keeps {P : List Part} {s₀ : State} (a0 : State) (h0 : Keeps P s₀ a0)
    (cmodule : Part.module ∈ P := by assumption) (chosts : Part.hosts ∈ P := by assumption)
    (cregs : Part.regs ∈ P := by assumption) (crel : Part.rel ∈ P := by assumption)
    (cfw : Part.fw ∈ P := by assumption) : Keeps P s₀ (State.coolDown a0) := by
  unfold State.coolDown
  repeat' (first
      | with_reducible assumption | with_reducible apply State.leaveMarks_keeps | split | intro _ | dsimp only
      | (fail_if_no_progress with_reducible refine Keeps.upd ?_ _ _ _ _ _ _ _ _ _ _ _ _ _ _ _ _ _ ?_ ?_ ?_ ?_ ?_ ?_))

theorem State.portsUp_keeps {P : List Part} {s₀ : State} (a0 : State) (h0 : Keeps P s₀ a0)
    (chosts : Part.hosts ∈ P := by assumption) (cdraws : Part.draws ∈ P := by assumption) : Keeps P s₀
    (State.portsUp a0) := by
  unfold State.portsUp
  repeat' (first
      | with_reducible assumption | dsimp only
      | (fail_if_no_progress with_reducible refine Keeps.free ?_ _ _ _ _ _ _ _ _ _ _ _ _ _))

theorem State.bootedSlot_keeps {P : List Part} {s₀ : State} (a0 : State) (h0 : Keeps P s₀ a0)
    (chosts : Part.hosts ∈ P := by assumption) (cregs : Part.regs ∈ P := by assumption)
    (crel : Part.rel ∈ P := by assumption) (cfw : Part.fw ∈ P := by assumption) : Keeps P s₀
    (State.bootedSlot a0) := by
  unfold State.bootedSlot
  repeat' (first
      | with_reducible assumption | with_reducible apply State.fuMode_keeps
      | with_reducible apply State.logActivate_keeps | split | intro _ | dsimp only
      | (fail_if_no_progress with_reducible refine Keeps.upd ?_ _ _ _ _ _ _ _ _ _ _ _ _ _ _ _ _ _ ?_ ?_ ?_ ?_ ?_ ?_))

theorem execSetComplete_keeps {P : List Part} {s₀ : State} (a0 : List (Fin 81)) (a1 : State) (h1 : Keeps P s₀ a1)
    (cmodule : Part.module ∈ P := by assumption) (csites : Part.sites ∈ P := by assumption)
    (ctiles : Part.tiles ∈ P := by assumption) (ctiers : Part.tiers ∈ P := by assumption)
    (cattn : Part.attn ∈ P := by assumption) (chosts : Part.hosts ∈ P := by assumption)
    (cregs : Part.regs ∈ P := by assumption) (crel : Part.rel ∈ P := by assumption)
    (cfw : Part.fw ∈ P := by assumption) (cdraws : Part.draws ∈ P := by assumption)
    : ∀ u, execSetComplete a0 a1 = .next u → Keeps P s₀ u := by
  intro u e
  unfold execSetComplete at e
  (repeat' split at e) <;> cases e
  all_goals
  repeat' (first
      | with_reducible assumption | with_reducible apply State.badSite_keeps
      | with_reducible apply State.fillRanks_keeps | with_reducible apply State.bootedSlot_keeps
      | with_reducible apply State.portsUp_keeps | with_reducible apply State.log_keeps
      | with_reducible apply Keeps.foldl | intro _ | dsimp only
      | (fail_if_no_progress with_reducible refine Keeps.upd ?_ _ _ _ _ _ _ _ _ _ _ _ _ _ _ _ _ _ ?_ ?_ ?_ ?_ ?_ ?_))

theorem execStackThermalSample_keeps {P : List Part} {s₀ : State} (a0 : Fin 75) (a1 : ℕ) (a2 : State) (h2
    : Keeps P s₀ a2) (cmodule : Part.module ∈ P := by assumption) (ctiles : Part.tiles ∈ P := by assumption)
    (cmemory : Part.memory ∈ P := by assumption) (ctiers : Part.tiers ∈ P := by assumption)
    (ckv : Part.kv ∈ P := by assumption) (cattn : Part.attn ∈ P := by assumption)
    (clinks : Part.links ∈ P := by assumption) (chosts : Part.hosts ∈ P := by assumption)
    (csched : Part.sched ∈ P := by assumption) (cmedia : Part.media ∈ P := by assumption)
    (cregs : Part.regs ∈ P := by assumption) (crel : Part.rel ∈ P := by assumption)
    (cfw : Part.fw ∈ P := by assumption) (cdraws : Part.draws ∈ P := by assumption)
    : ∀ u, execStackThermalSample a0 a1 a2 = .next u → Keeps P s₀ u := by
  intro u e
  unfold execStackThermalSample at e
  (repeat' split at e) <;> cases e
  all_goals
  repeat' (first
      | with_reducible assumption | with_reducible apply State.setStack_keeps
      | with_reducible apply State.coolDown_keeps | with_reducible apply State.thermalTrip_keeps
      | with_reducible apply State.enterStack_keeps | split | dsimp only)

theorem execMgcHeartbeatToggle_keeps {P : List Part} {s₀ : State} (a0 : State) (h0 : Keeps P s₀ a0)
    (cmodule : Part.module ∈ P := by assumption) : ∀ u, execMgcHeartbeatToggle a0 = .next u → Keeps P s₀ u := by
  intro u e
  unfold execMgcHeartbeatToggle at e
  (repeat' split at e) <;> cases e
  all_goals
  repeat' (first
      | with_reducible assumption | intro _ | dsimp only
      | (fail_if_no_progress with_reducible refine Keeps.upd ?_ _ _ _ _ _ _ _ _ _ _ _ _ _ _ _ _ _ ?_ ?_ ?_ ?_ ?_ ?_))

theorem State.stepField_keeps {P : List Part} {s₀ : State} (a0 : State) (a1 : ℕ) (a2 : ℕ) (h0 : Keeps P s₀ a0)
    (csites : Part.sites ∈ P := by assumption) (cregs : Part.regs ∈ P := by assumption) : Keeps P s₀
    (State.stepField a0 a1 a2) := by
  unfold State.stepField
  repeat' (first
      | with_reducible assumption | with_reducible apply State.moEvent_keeps
      | with_reducible apply State.setSite_keeps | split | dsimp only)

theorem execFieldThermalSample_keeps {P : List Part} {s₀ : State} (a0 : Fin 81) (a1 : ℕ) (a2 : State) (h2
    : Keeps P s₀ a2) (cmodule : Part.module ∈ P := by assumption) (csites : Part.sites ∈ P := by assumption)
    (ctiles : Part.tiles ∈ P := by assumption) (cmemory : Part.memory ∈ P := by assumption)
    (ctiers : Part.tiers ∈ P := by assumption) (ckv : Part.kv ∈ P := by assumption)
    (cattn : Part.attn ∈ P := by assumption) (clinks : Part.links ∈ P := by assumption)
    (chosts : Part.hosts ∈ P := by assumption) (csched : Part.sched ∈ P := by assumption)
    (cmedia : Part.media ∈ P := by assumption) (cregs : Part.regs ∈ P := by assumption)
    (crel : Part.rel ∈ P := by assumption) (cfw : Part.fw ∈ P := by assumption)
    (cdraws : Part.draws ∈ P := by assumption) : ∀ u, execFieldThermalSample a0 a1 a2 = .next u → Keeps P s₀ u := by
  intro u e
  unfold execFieldThermalSample at e
  (repeat' split at e) <;> cases e
  all_goals
  repeat' (first
      | with_reducible assumption | with_reducible apply State.setSite_keeps
      | with_reducible apply State.coolDown_keeps | with_reducible apply State.thermalTrip_keeps
      | with_reducible apply State.stepField_keeps | with_reducible apply State.stopField_keeps | split | dsimp only)

theorem execSetStatusAlternate_keeps {P : List Part} {s₀ : State} (a0 : State) (h0 : Keeps P s₀ a0)
    (cmodule : Part.module ∈ P := by assumption) : ∀ u, execSetStatusAlternate a0 = .next u → Keeps P s₀ u := by
  intro u e
  unfold execSetStatusAlternate at e
  (repeat' split at e) <;> cases e
  all_goals
  repeat' (first
      | with_reducible assumption | split | intro _ | dsimp only
      | (fail_if_no_progress with_reducible refine Keeps.upd ?_ _ _ _ _ _ _ _ _ _ _ _ _ _ _ _ _ _ ?_ ?_ ?_ ?_ ?_ ?_))

theorem execMgcWatchdog_keeps {P : List Part} {s₀ : State} (a0 : State) (h0 : Keeps P s₀ a0)
    (cmodule : Part.module ∈ P := by assumption) (chosts : Part.hosts ∈ P := by assumption)
    (cregs : Part.regs ∈ P := by assumption) (crel : Part.rel ∈ P := by assumption)
    (cfw : Part.fw ∈ P := by assumption) (cdraws : Part.draws ∈ P := by assumption)
    : ∀ u, execMgcWatchdog a0 = .next u → Keeps P s₀ u := by
  intro u e
  unfold execMgcWatchdog at e
  (repeat' split at e) <;> cases e
  all_goals
  repeat' (first
      | with_reducible assumption | with_reducible apply State.rollBack_keeps | with_reducible apply State.log_keeps
      | intro _ | dsimp only
      | (fail_if_no_progress with_reducible refine Keeps.upd ?_ _ _ _ _ _ _ _ _ _ _ _ _ _ _ _ _ _ ?_ ?_ ?_ ?_ ?_ ?_))

theorem execBusInRange_keeps {P : List Part} {s₀ : State} (a0 : State) (h0 : Keeps P s₀ a0)
    (cmodule : Part.module ∈ P := by assumption) (chosts : Part.hosts ∈ P := by assumption)
    (cregs : Part.regs ∈ P := by assumption) (crel : Part.rel ∈ P := by assumption)
    (cfw : Part.fw ∈ P := by assumption) : ∀ u, execBusInRange a0 = .next u → Keeps P s₀ u := by
  intro u e
  unfold execBusInRange at e
  (repeat' split at e) <;> cases e
  all_goals
  repeat' (first
      | with_reducible assumption | with_reducible apply State.leaveMarks_keeps | intro _ | dsimp only
      | (fail_if_no_progress with_reducible refine Keeps.upd ?_ _ _ _ _ _ _ _ _ _ _ _ _ _ _ _ _ _ ?_ ?_ ?_ ?_ ?_ ?_))

theorem execCoolantInletSample_keeps {P : List Part} {s₀ : State} (a0 : BitVec 10) (a1 : BitVec 10) (a2 : BitVec 10)
    (a3 : BitVec 10) (a4 : State) (h4 : Keeps P s₀ a4) (cmodule : Part.module ∈ P := by assumption)
    (cregs : Part.regs ∈ P := by assumption)
    : ∀ u, execCoolantInletSample a0 a1 a2 a3 a4 = .next u → Keeps P s₀ u := by
  intro u e
  unfold execCoolantInletSample at e
  (repeat' split at e) <;> cases e
  all_goals
  repeat' (first
      | with_reducible assumption | with_reducible apply State.sawLimits_keeps
      | with_reducible apply State.setReg_keeps | with_reducible apply State.moEvent_keeps | split | dsimp only)

theorem execPowerFault_keeps {P : List Part} {s₀ : State} (a0 : Fin 8) (a1 : Fin 81) (a2 : State) (h2 : Keeps P s₀ a2)
    (cmodule : Part.module ∈ P := by assumption) (csites : Part.sites ∈ P := by assumption)
    (ctiles : Part.tiles ∈ P := by assumption) (cmemory : Part.memory ∈ P := by assumption)
    (ctiers : Part.tiers ∈ P := by assumption) (ckv : Part.kv ∈ P := by assumption)
    (cattn : Part.attn ∈ P := by assumption) (clinks : Part.links ∈ P := by assumption)
    (chosts : Part.hosts ∈ P := by assumption) (csched : Part.sched ∈ P := by assumption)
    (cmedia : Part.media ∈ P := by assumption) (cregs : Part.regs ∈ P := by assumption)
    (crel : Part.rel ∈ P := by assumption) (cfw : Part.fw ∈ P := by assumption)
    (cdraws : Part.draws ∈ P := by assumption) : ∀ u, execPowerFault a0 a1 a2 = .next u → Keeps P s₀ u := by
  intro u e
  unfold execPowerFault at e
  (repeat' split at e) <;> cases e
  all_goals
  repeat' (first
      | with_reducible assumption | with_reducible apply State.loseField_keeps
      | with_reducible apply State.powerFault_keeps)

theorem State.clearCfgErr_keeps {P : List Part} {s₀ : State} (a0 : State) (a1 : ℕ) (a2 : ℕ) (h0 : Keeps P s₀ a0)
    (cregs : Part.regs ∈ P := by assumption) : Keeps P s₀ (State.clearCfgErr a0 a1 a2) := by
  unfold State.clearCfgErr
  repeat' (first
      | with_reducible assumption | with_reducible apply State.setReg_keeps | split | dsimp only)

theorem outState_keeps {P : List Part} {s₀ : State} (a0 : State) (a1 : Out) (h0 : Keeps P s₀ a0) (h1
    : ∀ t, a1 = .next t → Keeps P s₀ t)  : Keeps P s₀ (outState a0 a1) := by
  cases a1 with
  | next t => exact h1 t rfl
  | fault f => exact h0
  | refused r => exact h0

theorem State.bookWrite_keeps {P : List Part} {s₀ : State} (a0 : State) (a1 : Writer) (a2 : ℕ) (h0 : Keeps P s₀ a0)
    (chosts : Part.hosts ∈ P := by assumption) (cregs : Part.regs ∈ P := by assumption)
    (crel : Part.rel ∈ P := by assumption) (cfw : Part.fw ∈ P := by assumption) : Keeps P s₀
    (State.bookWrite a0 a1 a2) := by
  unfold State.bookWrite
  repeat' (first
      | with_reducible assumption | with_reducible apply outState_keeps
      | with_reducible refine execLeaseMark_keeps _ _ ?_ | with_reducible refine execCheckpointRequest_keeps _ _ ?_
      | with_reducible refine execGrade_keeps _ _ ?_ | split)

theorem State.respond_keeps {P : List Part} {s₀ : State} (a0 : State) (a1 : ℕ) (a2 : List Byte) (h0 : Keeps P s₀ a0)
    (cmodule : Part.module ∈ P := by assumption) : Keeps P s₀ (State.respond a0 a1 a2) := by
  unfold State.respond
  repeat' (first
      | with_reducible assumption | intro _ | dsimp only
      | (fail_if_no_progress with_reducible refine Keeps.upd ?_ _ _ _ _ _ _ _ _ _ _ _ _ _ _ _ _ _ ?_ ?_ ?_ ?_ ?_ ?_))

theorem execMctpReset_keeps {P : List Part} {s₀ : State} (a0 : Word) (a1 : State) (h1 : Keeps P s₀ a1)
    (cmodule : Part.module ∈ P := by assumption) (csites : Part.sites ∈ P := by assumption)
    (ctiles : Part.tiles ∈ P := by assumption) (cpackage : Part.package ∈ P := by assumption)
    (crails : Part.rails ∈ P := by assumption) (cmemory : Part.memory ∈ P := by assumption)
    (ctiers : Part.tiers ∈ P := by assumption) (ckv : Part.kv ∈ P := by assumption)
    (cattn : Part.attn ∈ P := by assumption) (clinks : Part.links ∈ P := by assumption)
    (chosts : Part.hosts ∈ P := by assumption) (csched : Part.sched ∈ P := by assumption)
    (cmedia : Part.media ∈ P := by assumption) (cregs : Part.regs ∈ P := by assumption)
    (crel : Part.rel ∈ P := by assumption) (cfw : Part.fw ∈ P := by assumption)
    : ∀ u, execMctpReset a0 a1 = .next u → Keeps P s₀ u := by
  intro u e
  unfold execMctpReset at e
  (repeat' split at e) <;> cases e
  all_goals
  repeat' (first
      | with_reducible assumption | with_reducible apply State.moduleReset_keeps
      | with_reducible apply State.respond_keeps)

theorem State.setLatch_keeps {P : List Part} {s₀ : State} (a0 : State) (a1 : ℕ) (a2 : Option ℕ) (h0 : Keeps P s₀ a0)
    (cregs : Part.regs ∈ P := by assumption) : Keeps P s₀ (State.setLatch a0 a1 a2) := by
  unfold State.setLatch
  repeat' (first
      | with_reducible assumption | dsimp only
      | (fail_if_no_progress with_reducible refine Keeps.free ?_ _ _ _ _ _ _ _ _ _ _ _ _ _))

theorem State.readWord_keeps {P : List Part} {s₀ : State} (a0 : State) (a1 : ℕ) (a2 : ℕ) (h0 : Keeps P s₀ a0)
    (cmodule : Part.module ∈ P := by assumption) (cregs : Part.regs ∈ P := by assumption)
    (cdraws : Part.draws ∈ P := by assumption) : Keeps P s₀ (State.readWord a0 a1 a2).2 := by
  unfold State.readWord
  repeat' (first
      | with_reducible assumption | with_reducible apply State.setLatch_keeps | split | intro _ | dsimp only
      | (fail_if_no_progress with_reducible refine Keeps.free ?_ _ _ _ _ _ _ _ _ _ _ _ _ _)
      | (fail_if_no_progress with_reducible refine Keeps.upd ?_ _ _ _ _ _ _ _ _ _ _ _ _ _ _ _ _ _ ?_ ?_ ?_ ?_ ?_ ?_))

theorem execRegisterReadLo_keeps {P : List Part} {s₀ : State} (a0 : Fin 4) (a1 : BitVec 26) (a2 : State) (h2
    : Keeps P s₀ a2) (cmodule : Part.module ∈ P := by assumption) (cregs : Part.regs ∈ P := by assumption)
    (cdraws : Part.draws ∈ P := by assumption) : ∀ u, execRegisterReadLo a0 a1 a2 = .next u → Keeps P s₀ u := by
  intro u e
  unfold execRegisterReadLo at e
  (repeat' split at e) <;> cases e
  all_goals
  repeat' (first
      | with_reducible assumption | with_reducible apply State.readWord_keeps)

theorem unitRow_keeps {P : List Part} {s₀ : State} (n : ℕ) (s : State) (i : ℕ) (f : Fin n → Out) (h : Keeps P s₀ s)
    (hf : ∀ k t, f k = .next t → Keeps P s₀ t) : Keeps P s₀ (unitRow n s i f) := by
  unfold unitRow
  split
  · exact outState_keeps _ _ h (hf _)
  · exact h

theorem State.cxWrite_keeps {P : List Part} {s₀ : State} (a0 : State) (a1 : Writer) (a2 : ℕ) (a3 : ℕ) (h0
    : Keeps P s₀ a0) (chosts : Part.hosts ∈ P := by assumption) (cregs : Part.regs ∈ P := by assumption)
    (cdraws : Part.draws ∈ P := by assumption) : Keeps P s₀ (State.cxWrite a0 a1 a2 a3) := by
  unfold State.cxWrite
  repeat' (first
      | with_reducible assumption | with_reducible apply unitRow_keeps
      | with_reducible refine execCxStop_keeps _ _ _ ?_ | with_reducible refine execCxStart_keeps _ _ _ _ _ ?_
      | split | intro _ | (fail_if_no_progress with_reducible refine Keeps.free ?_ _ _ _ _ _ _ _ _ _ _ _ _ _))

theorem State.readWords_keeps {P : List Part} {s₀ : State} (a0 : State) (a1 : List ℕ) (h0 : Keeps P s₀ a0)
    (cmodule : Part.module ∈ P := by assumption) (cregs : Part.regs ∈ P := by assumption)
    (cdraws : Part.draws ∈ P := by assumption) : Keeps P s₀ (State.readWords a0 a1).2 := by
  unfold State.readWords
  repeat' (first
      | with_reducible assumption | with_reducible apply State.readWord_keeps | with_reducible apply Keeps.foldlSnd
      | intro _)

theorem execMctpRead_keeps {P : List Part} {s₀ : State} (a0 : Word) (a1 : BitVec 16) (a2 : State) (h2 : Keeps P s₀ a2)
    (cmodule : Part.module ∈ P := by assumption) (cregs : Part.regs ∈ P := by assumption)
    (cdraws : Part.draws ∈ P := by assumption) : ∀ u, execMctpRead a0 a1 a2 = .next u → Keeps P s₀ u := by
  intro u e
  unfold execMctpRead at e
  (repeat' split at e) <;> cases e
  all_goals
  repeat' (first
      | with_reducible assumption | with_reducible apply State.respond_keeps
      | with_reducible apply State.readWords_keeps | split)

theorem execGlCfgErrWrite_keeps {P : List Part} {s₀ : State} (a0 : Writer) (a1 : Word) (a2 : State) (h2
    : Keeps P s₀ a2) (cregs : Part.regs ∈ P := by assumption)
    : ∀ u, execGlCfgErrWrite a0 a1 a2 = .next u → Keeps P s₀ u := by
  intro u e
  unfold execGlCfgErrWrite at e
  (repeat' split at e) <;> cases e
  all_goals
  repeat' (first
      | with_reducible assumption | with_reducible apply State.guarded_keeps
      | with_reducible apply State.clearCfgErr_keeps | intro _)

theorem execGlOwnerEventWrite_keeps {P : List Part} {s₀ : State} (a0 : Writer) (a1 : Word) (a2 : State) (h2
    : Keeps P s₀ a2) (cregs : Part.regs ∈ P := by assumption)
    : ∀ u, execGlOwnerEventWrite a0 a1 a2 = .next u → Keeps P s₀ u := by
  intro u e
  unfold execGlOwnerEventWrite at e
  (repeat' split at e) <;> cases e
  all_goals
  repeat' (first
      | with_reducible assumption | with_reducible apply State.guarded_keeps
      | with_reducible apply State.setReg_keeps | intro _)

theorem State.seqWrite_keeps {P : List Part} {s₀ : State} (a0 : State) (a1 : Writer) (a2 : ℕ) (a3 : Word) (h0
    : Keeps P s₀ a0) (ctiers : Part.tiers ∈ P := by assumption) (ckv : Part.kv ∈ P := by assumption)
    (cregs : Part.regs ∈ P := by assumption) : Keeps P s₀ (State.seqWrite a0 a1 a2 a3) := by
  unfold State.seqWrite
  repeat' (first
      | with_reducible assumption | with_reducible apply unitRow_keeps
      | with_reducible refine execSequenceEnable_keeps _ _ _ _ ?_
      | with_reducible refine execSequenceDisable_keeps _ _ _ _ ?_ | split | intro _)

theorem execCsOpen_keeps {P : List Part} {s₀ : State} (a0 : Writer) (a1 : Fin 320) (a2 : BitVec 16) (a3 : State) (h3
    : Keeps P s₀ a3) (cregs : Part.regs ∈ P := by assumption)
    : ∀ u, execCsOpen a0 a1 a2 a3 = .next u → Keeps P s₀ u := by
  intro u e
  unfold execCsOpen at e
  (repeat' split at e) <;> cases e
  all_goals
  repeat' (first
      | with_reducible assumption | with_reducible apply State.guarded_keeps
      | with_reducible apply State.csetOpen_keeps | intro _)

theorem execCsClose_keeps {P : List Part} {s₀ : State} (a0 : Writer) (a1 : Fin 320) (a2 : BitVec 16) (a3 : State) (h3
    : Keeps P s₀ a3) (cmodule : Part.module ∈ P := by assumption) (cmemory : Part.memory ∈ P := by assumption)
    (ctiers : Part.tiers ∈ P := by assumption) (ckv : Part.kv ∈ P := by assumption)
    (clinks : Part.links ∈ P := by assumption) (chosts : Part.hosts ∈ P := by assumption)
    (cmedia : Part.media ∈ P := by assumption) (cregs : Part.regs ∈ P := by assumption)
    (crel : Part.rel ∈ P := by assumption) (cfw : Part.fw ∈ P := by assumption)
    (cdraws : Part.draws ∈ P := by assumption) : ∀ u, execCsClose a0 a1 a2 a3 = .next u → Keeps P s₀ u := by
  intro u e
  unfold execCsClose at e
  (repeat' split at e) <;> cases e
  all_goals
  repeat' (first
      | with_reducible assumption | with_reducible apply State.guarded_keeps
      | with_reducible apply State.csetClose_keeps | intro _)

theorem State.rowLow_keeps {P : List Part} {s₀ : State} (a0 : State) (a1 : Writer) (a2 : ℕ) (a3 : Word) (h0
    : Keeps P s₀ a0) (cmodule : Part.module ∈ P := by assumption) (csites : Part.sites ∈ P := by assumption)
    (ctiles : Part.tiles ∈ P := by assumption) (cpackage : Part.package ∈ P := by assumption)
    (crails : Part.rails ∈ P := by assumption) (cmemory : Part.memory ∈ P := by assumption)
    (ctiers : Part.tiers ∈ P := by assumption) (ckv : Part.kv ∈ P := by assumption)
    (cattn : Part.attn ∈ P := by assumption) (clinks : Part.links ∈ P := by assumption)
    (chosts : Part.hosts ∈ P := by assumption) (csched : Part.sched ∈ P := by assumption)
    (cmedia : Part.media ∈ P := by assumption) (cregs : Part.regs ∈ P := by assumption)
    (crel : Part.rel ∈ P := by assumption) (cfw : Part.fw ∈ P := by assumption)
    (cdraws : Part.draws ∈ P := by assumption) : ∀ u, State.rowLow a0 a1 a2 a3 = some u → Keeps P s₀ u := by
  unfold State.rowLow
  try dsimp only
  repeat' (first
      | with_reducible refine Keeps.optIte ?_ ?_ | with_reducible exact Keeps.optNone
      | with_reducible refine Keeps.optSome ?_ | with_reducible assumption | with_reducible apply outState_keeps
      | with_reducible apply unitRow_keeps | with_reducible apply State.seqWrite_keeps
      | with_reducible refine execCsClose_keeps _ _ _ _ ?_ | with_reducible refine execCsOpen_keeps _ _ _ _ ?_
      | with_reducible refine execGlCfgErrWrite_keeps _ _ _ ?_
      | with_reducible refine execGlOwnerEventWrite_keeps _ _ _ ?_
      | with_reducible refine execGrFirstWrite_keeps _ _ _ ?_ | with_reducible refine execGrMonClear_keeps _ _ _ ?_
      | with_reducible refine execGrUntrackedWrite_keeps _ _ _ ?_ | with_reducible refine execMoClear_keeps _ _ _ ?_
      | with_reducible refine execMoReset_keeps _ _ _ ?_ | with_reducible refine execTrErrClear_keeps _ _ _ ?_
      | intro _)

theorem execFdStallClear_keeps {P : List Part} {s₀ : State} (a0 : Writer) (a1 : Fin 81) (a2 : Word) (a3 : State) (h3
    : Keeps P s₀ a3) (csites : Part.sites ∈ P := by assumption) (cregs : Part.regs ∈ P := by assumption)
    : ∀ u, execFdStallClear a0 a1 a2 a3 = .next u → Keeps P s₀ u := by
  intro u e
  unfold execFdStallClear at e
  (repeat' split at e) <;> cases e
  all_goals
  repeat' (first
      | with_reducible assumption | with_reducible apply State.guarded_keeps
      | with_reducible apply State.setSite_keeps | intro _)

theorem State.rowMid_keeps {P : List Part} {s₀ : State} (a0 : State) (a1 : Writer) (a2 : ℕ) (a3 : Word) (h0
    : Keeps P s₀ a0) (csites : Part.sites ∈ P := by assumption) (ctiles : Part.tiles ∈ P := by assumption)
    (clinks : Part.links ∈ P := by assumption) (chosts : Part.hosts ∈ P := by assumption)
    (cregs : Part.regs ∈ P := by assumption) (cdraws : Part.draws ∈ P := by assumption)
    : ∀ u, State.rowMid a0 a1 a2 a3 = some u → Keeps P s₀ u := by
  unfold State.rowMid
  try dsimp only
  repeat' (first
      | with_reducible refine Keeps.optIte ?_ ?_ | with_reducible exact Keeps.optNone
      | with_reducible refine Keeps.optSome ?_ | with_reducible assumption | with_reducible apply unitRow_keeps
      | with_reducible apply State.cxWrite_keeps | with_reducible apply State.guarded_keeps
      | with_reducible refine execAbClear_keeps _ _ _ _ ?_ | with_reducible refine execEgClear_keeps _ _ _ _ ?_
      | with_reducible refine execEgFirstWrite_keeps _ _ _ _ ?_
      | with_reducible refine execFdStallClear_keeps _ _ _ _ ?_
      | with_reducible refine execHpCxMaskWrite_keeps _ _ _ _ ?_
      | with_reducible refine execLkErrClear_keeps _ _ _ _ ?_ | with_reducible refine execStArm_keeps _ _ _ _ ?_
      | with_reducible refine execStreamBind_keeps _ _ _ _ ?_ | intro _)

theorem State.rowHigh_keeps {P : List Part} {s₀ : State} (a0 : State) (a1 : Writer) (a2 : ℕ) (a3 : Word) (h0
    : Keeps P s₀ a0) (cmodule : Part.module ∈ P := by assumption) (csites : Part.sites ∈ P := by assumption)
    (ctiles : Part.tiles ∈ P := by assumption) (cpackage : Part.package ∈ P := by assumption)
    (crails : Part.rails ∈ P := by assumption) (cmemory : Part.memory ∈ P := by assumption)
    (ctiers : Part.tiers ∈ P := by assumption) (ckv : Part.kv ∈ P := by assumption)
    (cattn : Part.attn ∈ P := by assumption) (clinks : Part.links ∈ P := by assumption)
    (chosts : Part.hosts ∈ P := by assumption) (csched : Part.sched ∈ P := by assumption)
    (cmedia : Part.media ∈ P := by assumption) (cregs : Part.regs ∈ P := by assumption)
    (crel : Part.rel ∈ P := by assumption) (cfw : Part.fw ∈ P := by assumption)
    : ∀ u, State.rowHigh a0 a1 a2 a3 = some u → Keeps P s₀ u := by
  unfold State.rowHigh
  try dsimp only
  repeat' (first
      | with_reducible refine Keeps.optIte ?_ ?_ | with_reducible exact Keeps.optNone
      | with_reducible refine Keeps.optSome ?_ | with_reducible assumption | with_reducible apply outState_keeps
      | with_reducible apply unitRow_keeps | with_reducible apply State.bookWrite_keeps
      | with_reducible apply State.guarded_keeps | with_reducible apply State.fuCtrl_keeps
      | with_reducible refine execAttestationRequest_keeps _ _ _ ?_
      | with_reducible refine execPlannedSubstStart_keeps _ _ _ ?_
      | with_reducible refine execPoClear_keeps _ _ _ _ ?_ | with_reducible refine execScClear_keeps _ _ _ ?_
      | with_reducible refine execTmCommit_keeps _ _ _ ?_ | with_reducible refine execTmDataWrite_keeps _ _ _ ?_
      | with_reducible refine execWipeStart_keeps _ _ _ ?_ | intro _)

theorem State.rwiSet_keeps {P : List Part} {s₀ : State} (a0 : State) (a1 : ℕ) (a2 : ℕ) (h0 : Keeps P s₀ a0)
    (chosts : Part.hosts ∈ P := by assumption) (cmedia : Part.media ∈ P := by assumption)
    (cregs : Part.regs ∈ P := by assumption) : Keeps P s₀ (State.rwiSet a0 a1 a2) := by
  unfold State.rwiSet
  repeat' (first
      | with_reducible assumption | with_reducible apply State.setReg_keeps
      | with_reducible apply State.poCommit_keeps | split)

theorem State.w1cSet_keeps {P : List Part} {s₀ : State} (a0 : State) (a1 : ℕ) (a2 : ℕ) (h0 : Keeps P s₀ a0)
    (chosts : Part.hosts ∈ P := by assumption) (cregs : Part.regs ∈ P := by assumption) : Keeps P s₀
    (State.w1cSet a0 a1 a2) := by
  unfold State.w1cSet
  repeat' (first
      | with_reducible assumption | with_reducible apply State.setCtx_keeps
      | with_reducible apply State.setReg_keeps | split)

theorem State.plainWrite_keeps {P : List Part} {s₀ : State} (a0 : State) (a1 : Writer) (a2 : ℕ) (a3 : ℕ)
    (a4 : RegInfo) (h0 : Keeps P s₀ a0) (chosts : Part.hosts ∈ P := by assumption)
    (cmedia : Part.media ∈ P := by assumption) (cregs : Part.regs ∈ P := by assumption)
    (cfw : Part.fw ∈ P := by assumption) : Keeps P s₀ (State.plainWrite a0 a1 a2 a3 a4) := by
  unfold State.plainWrite
  repeat' (first
      | with_reducible assumption | with_reducible apply State.fuBufWrite_keeps
      | with_reducible apply State.setReg_keeps | with_reducible apply State.shadowWrite_keeps
      | with_reducible apply State.whenIdle_keeps | with_reducible apply State.rwiSet_keeps
      | with_reducible apply State.w1cSet_keeps | split | intro _)

theorem State.regWrite_keeps {P : List Part} {s₀ : State} (a0 : State) (a1 : Writer) (a2 : ℕ) (a3 : ℕ) (h0
    : Keeps P s₀ a0) (cmodule : Part.module ∈ P := by assumption) (csites : Part.sites ∈ P := by assumption)
    (ctiles : Part.tiles ∈ P := by assumption) (cpackage : Part.package ∈ P := by assumption)
    (crails : Part.rails ∈ P := by assumption) (cmemory : Part.memory ∈ P := by assumption)
    (ctiers : Part.tiers ∈ P := by assumption) (ckv : Part.kv ∈ P := by assumption)
    (cattn : Part.attn ∈ P := by assumption) (clinks : Part.links ∈ P := by assumption)
    (chosts : Part.hosts ∈ P := by assumption) (csched : Part.sched ∈ P := by assumption)
    (cmedia : Part.media ∈ P := by assumption) (cregs : Part.regs ∈ P := by assumption)
    (crel : Part.rel ∈ P := by assumption) (cfw : Part.fw ∈ P := by assumption)
    (cdraws : Part.draws ∈ P := by assumption) : Keeps P s₀ (State.regWrite a0 a1 a2 a3) := by
  unfold State.regWrite
  dsimp only
  split
  · exact Keeps.ite (State.cfgErr_keeps _ _ _ _ h0) h0
  · with_reducible apply Keeps.ite h0
    have h : ∀ u, ((a0.rowLow a1 a2 (BitVec.ofNat 32 a3)).or (a0.rowMid a1 a2 (BitVec.ofNat 32 a3))).or
        (a0.rowHigh a1 a2 (BitVec.ofNat 32 a3)) = some u → Keeps P s₀ u := by
      intro u e
      rcases Option.or_eq_some_iff.mp e with e | ⟨_, e⟩
      · rcases Option.or_eq_some_iff.mp e with e | ⟨_, e⟩
        · exact (State.rowLow_keeps _ _ _ _ h0) u e
        · exact (State.rowMid_keeps _ _ _ _ h0) u e
      · exact (State.rowHigh_keeps _ _ _ _ h0) u e
    generalize ((a0.rowLow a1 a2 (BitVec.ofNat 32 a3)).or (a0.rowMid a1 a2 (BitVec.ofNat 32 a3))).or
        (a0.rowHigh a1 a2 (BitVec.ofNat 32 a3)) = o at h ⊢
    cases o with
    | some t => exact h t rfl
    | none => exact State.guarded_keeps _ _ _ _ _ h0 fun t ht => State.plainWrite_keeps _ _ _ _ _ ht

theorem State.writeWords_keeps {P : List Part} {s₀ : State} (a0 : State) (a1 : ℕ) (a2 : List Byte) (h0
    : Keeps P s₀ a0) (cmodule : Part.module ∈ P := by assumption) (csites : Part.sites ∈ P := by assumption)
    (ctiles : Part.tiles ∈ P := by assumption) (cpackage : Part.package ∈ P := by assumption)
    (crails : Part.rails ∈ P := by assumption) (cmemory : Part.memory ∈ P := by assumption)
    (ctiers : Part.tiers ∈ P := by assumption) (ckv : Part.kv ∈ P := by assumption)
    (cattn : Part.attn ∈ P := by assumption) (clinks : Part.links ∈ P := by assumption)
    (chosts : Part.hosts ∈ P := by assumption) (csched : Part.sched ∈ P := by assumption)
    (cmedia : Part.media ∈ P := by assumption) (cregs : Part.regs ∈ P := by assumption)
    (crel : Part.rel ∈ P := by assumption) (cfw : Part.fw ∈ P := by assumption)
    (cdraws : Part.draws ∈ P := by assumption) : Keeps P s₀ (State.writeWords a0 a1 a2) := by
  unfold State.writeWords
  repeat' (first
      | with_reducible assumption | with_reducible apply State.regWrite_keeps | with_reducible apply Keeps.foldl
      | intro _)

theorem execMctpWrite_keeps {P : List Part} {s₀ : State} (a0 : Word) (a1 : BitVec 16) (a2 : List Byte) (a3 : State)
    (h3 : Keeps P s₀ a3) (cmodule : Part.module ∈ P := by assumption) (csites : Part.sites ∈ P := by assumption)
    (ctiles : Part.tiles ∈ P := by assumption) (cpackage : Part.package ∈ P := by assumption)
    (crails : Part.rails ∈ P := by assumption) (cmemory : Part.memory ∈ P := by assumption)
    (ctiers : Part.tiers ∈ P := by assumption) (ckv : Part.kv ∈ P := by assumption)
    (cattn : Part.attn ∈ P := by assumption) (clinks : Part.links ∈ P := by assumption)
    (chosts : Part.hosts ∈ P := by assumption) (csched : Part.sched ∈ P := by assumption)
    (cmedia : Part.media ∈ P := by assumption) (cregs : Part.regs ∈ P := by assumption)
    (crel : Part.rel ∈ P := by assumption) (cfw : Part.fw ∈ P := by assumption)
    (cdraws : Part.draws ∈ P := by assumption) : ∀ u, execMctpWrite a0 a1 a2 a3 = .next u → Keeps P s₀ u := by
  intro u e
  unfold execMctpWrite at e
  (repeat' split at e) <;> cases e
  all_goals
  repeat' (first
      | with_reducible assumption | with_reducible apply State.respond_keeps
      | with_reducible apply State.writeWords_keeps)

theorem execRegisterWrite_keeps {P : List Part} {s₀ : State} (a0 : Writer) (a1 : BitVec 26) (a2 : ℕ) (a3 : DWord)
    (a4 : State) (h4 : Keeps P s₀ a4) (cmodule : Part.module ∈ P := by assumption)
    (csites : Part.sites ∈ P := by assumption) (ctiles : Part.tiles ∈ P := by assumption)
    (cpackage : Part.package ∈ P := by assumption) (crails : Part.rails ∈ P := by assumption)
    (cmemory : Part.memory ∈ P := by assumption) (ctiers : Part.tiers ∈ P := by assumption)
    (ckv : Part.kv ∈ P := by assumption) (cattn : Part.attn ∈ P := by assumption)
    (clinks : Part.links ∈ P := by assumption) (chosts : Part.hosts ∈ P := by assumption)
    (csched : Part.sched ∈ P := by assumption) (cmedia : Part.media ∈ P := by assumption)
    (cregs : Part.regs ∈ P := by assumption) (crel : Part.rel ∈ P := by assumption)
    (cfw : Part.fw ∈ P := by assumption) (cdraws : Part.draws ∈ P := by assumption)
    : ∀ u, execRegisterWrite a0 a1 a2 a3 a4 = .next u → Keeps P s₀ u := by
  intro u e
  unfold execRegisterWrite at e
  (repeat' split at e) <;> cases e
  all_goals
  repeat' (first
      | with_reducible assumption | with_reducible apply State.regWrite_keeps
      | with_reducible apply State.cfgErr_keeps | split)

theorem execMctpState_keeps {P : List Part} {s₀ : State} (a0 : State) (h0 : Keeps P s₀ a0)
    (cmodule : Part.module ∈ P := by assumption) : ∀ u, execMctpState a0 = .next u → Keeps P s₀ u := by
  intro u e
  unfold execMctpState at e
  (repeat' split at e) <;> cases e
  all_goals
  repeat' (first
      | with_reducible assumption | with_reducible apply State.respond_keeps)

theorem State.runOutTick_keeps {P : List Part} {s₀ : State} (a0 : State) (a1 : ℕ) (h0 : Keeps P s₀ a0)
    (cmedia : Part.media ∈ P := by assumption) : Keeps P s₀ (State.runOutTick a0 a1) := by
  unfold State.runOutTick
  repeat' (first
      | with_reducible assumption | with_reducible apply State.setPo_keeps | split | dsimp only)

theorem State.portTick_keeps {P : List Part} {s₀ : State} (a0 : State) (a1 : ℕ) (h0 : Keeps P s₀ a0)
    (chosts : Part.hosts ∈ P := by assumption) : Keeps P s₀ (State.portTick a0 a1) := by
  unfold State.portTick
  repeat' (first
      | with_reducible assumption | with_reducible apply State.setPort_keeps | split | dsimp only)

theorem State.lifeTick_keeps {P : List Part} {s₀ : State} (a0 : State) (h0 : Keeps P s₀ a0)
    (cmodule : Part.module ∈ P := by assumption) : Keeps P s₀ (State.lifeTick a0) := by
  unfold State.lifeTick
  repeat' (first
      | with_reducible assumption | split | intro _ | dsimp only
      | (fail_if_no_progress with_reducible refine Keeps.upd ?_ _ _ _ _ _ _ _ _ _ _ _ _ _ _ _ _ _ ?_ ?_ ?_ ?_ ?_ ?_))

theorem State.tick_keeps {P : List Part} {s₀ : State} (a0 : State) (h0 : Keeps P s₀ a0)
    (cmodule : Part.module ∈ P := by assumption) (ctiles : Part.tiles ∈ P := by assumption)
    (cmemory : Part.memory ∈ P := by assumption) (ctiers : Part.tiers ∈ P := by assumption)
    (ckv : Part.kv ∈ P := by assumption) (cattn : Part.attn ∈ P := by assumption)
    (clinks : Part.links ∈ P := by assumption) (chosts : Part.hosts ∈ P := by assumption)
    (csched : Part.sched ∈ P := by assumption) (cmedia : Part.media ∈ P := by assumption)
    (cregs : Part.regs ∈ P := by assumption) (crel : Part.rel ∈ P := by assumption)
    (cfw : Part.fw ∈ P := by assumption) : Keeps P s₀ (State.tick a0) := by
  unfold State.tick
  repeat' (first
      | with_reducible assumption | with_reducible apply State.runOutTick_keeps
      | with_reducible apply State.portTick_keeps | with_reducible apply State.idleCounters_keeps
      | with_reducible apply State.attestTick_keeps | with_reducible apply State.lifeTick_keeps | with_reducible apply State.schedTick_keeps
      | with_reducible apply State.resumeHeld_keeps | with_reducible apply Keeps.iter | split | intro _ | dsimp only)

end Sys2Proof.Machine
end

