-- ==== Sys2Proof/Laws/Rows.lean ====
section
/-!
SUPPORT. What the operations shared by many commands do: a permitted register write, and the issue of a ring's first
command.
-/

namespace Sys2Proof.Machine

open Sys2Proof Sys2Proof.Safety

/-- A permitted write has its effect. -/
theorem State.guarded_of_permits {s : State} {w : Writer} {off v : Nat} (h : permits s w off v = true) (f : State → State) :
    s.guarded w off v f = f s := by
  unfold permits at h
  unfold State.guarded
  rw [Bool.and_eq_true] at h
  obtain ⟨h1, h2⟩ := h
  rw [h1]
  cases w with
  | tool => simp only [] at h2; simp [h2]
  | port p =>
    simp only [] at h2 ⊢
    cases e : regInfo off with
    | none => rw [e] at h2; cases h2
    | some i => rw [e] at h2; simp only [] at h2; simp [h2]

/-- Registers outside the one set read as before. -/
theorem regsBecome_setReg (s : State) (k v : Nat) : regsBecome [(k, v)] s (s.setReg k v) := by
  refine ⟨fun j => ?_, rfl⟩
  by_cases h : j = k
  · subst h; simp [State.reg_setReg_same]
  · rw [State.reg_setReg_other _ _ _ _ h]
    have : (j == k) = false := by simpa using h
    simp [List.lookup, this]

theorem regsBecome_refl (s : State) : regsBecome [] s s := ⟨fun _ => rfl, rfl⟩

/-- Registers set one after the other; a later value of a key wins. -/
theorem regsBecome_trans {e f : List (Nat × Nat)} {s t u : State} (h : regsBecome e s t) (g : regsBecome f t u) :
    regsBecome (f ++ e) s u := by
  refine ⟨fun k => ?_, ?_⟩
  · rw [g.1 k, h.1 k, List.lookup_append]
    cases List.lookup k f <;> simp
  · have a := g.2
    have b := h.2
    rw [a, b]

theorem State.pinAll_hosts (s : State) (qs : List Nat) : (s.pinAll qs).1.hosts = s.hosts := by
  unfold State.pinAll
  exact foldl_same (fun p : State × List (Nat × Nat) => p.1.hosts) qs _ (s, []) fun u b => rfl

theorem State.pinAll_regs (s : State) (qs : List Nat) : (s.pinAll qs).1.regs = s.regs := by
  unfold State.pinAll
  exact foldl_same (fun p : State × List (Nat × Nat) => p.1.regs) qs _ (s, []) fun u b => rfl

theorem State.headCmd_some {s : State} {cx r : Nat} {want : Cmd → Bool} {c : Cmd} (h : s.headCmd cx r want = some c) :
    want c = true ∧ ∃ rest, (s.ring cx r).cmds = c :: rest := by
  unfold State.headCmd at h
  split at h
  · next a l e =>
    split at h
    · next w => cases h; exact ⟨w, _, e⟩
    · cases h
  · cases h

/-- The command that has just issued is the one its ring names. -/
theorem State.cmd_markIssued {s : State} {cx r : Nat} {want : Cmd → Bool} {c : Cmd} (h : s.headCmd cx r want = some c)
    (pins : List Nat) : (s.markIssued ⟨cx, r, c.index⟩ pins).cmd? ⟨cx, r, c.index⟩ = some (stamped s cx pins c) := by
  obtain ⟨-, rest, e⟩ := State.headCmd_some h
  have hh := State.pinAll_hosts s pins
  unfold State.markIssued State.cmd? stamped
  generalize s.pinAll pins = p at hh
  obtain ⟨t, l⟩ := p
  have er : (t.ring cx r) = s.ring cx r := by simp only [State.ring, State.ctx] at *; rw [hh]
  simp only [State.modCmd, State.ring_setRing_same, er, e, modFirst, beq_self_eq_true, if_true]
  rw [List.find?_cons_of_pos (by simp)]

/-- The issue of a ring's first command: where it may issue, its work runs. -/
theorem State.issueHead_of_issues {s : State} {cx r : Nat} {want : Cmd → Bool} {pinsOf : State → Cmd → List Nat} {c : Cmd}
    (h : issues s cx r want (pinsOf s c) c = true) (run : State → CmdId → Cmd → State) :
    s.issueHead cx r want pinsOf run =
      run (s.markIssued ⟨cx, r, c.index⟩ (pinsOf s c)) ⟨cx, r, c.index⟩ (stamped s cx (pinsOf s c) c) := by
  simp only [issues, Bool.and_eq_true, beq_iff_eq, Bool.or_eq_true, Bool.not_eq_true'] at h
  obtain ⟨⟨⟨⟨h1, h2⟩, h3⟩, h4⟩, h5⟩ := h
  have hc := State.cmd_markIssued h1 (pinsOf s c)
  unfold State.issueHead
  rw [h1]
  simp only [h2, h3, Bool.and_self, if_true, hc]
  have e4 : (s.package.isNone && !kindFree c.kind) = false := by
    cases hp : s.package <;> simp_all
  have e5 : (!s.rel.missing.isEmpty && kindFields c.kind) = false := by
    rcases h5 with h | h <;> simp [h]
  simp [e4, e5]

/-- The same for a command whose work may wait and be tried again. -/
theorem State.issueOrRun_of_issues {s : State} {cx r : Nat} {want : Cmd → Bool} {pinsOf : State → Cmd → List Nat} {c : Cmd}
    (h : issues s cx r want (pinsOf s c) c = true) (run : State → CmdId → Cmd → State) :
    s.issueOrRun cx r want pinsOf run =
      run (s.markIssued ⟨cx, r, c.index⟩ (pinsOf s c)) ⟨cx, r, c.index⟩ (stamped s cx (pinsOf s c) c) := by
  have h' := h
  simp only [issues, Bool.and_eq_true, beq_iff_eq] at h
  obtain ⟨⟨⟨⟨h1, h2⟩, -⟩, -⟩, -⟩ := h
  obtain ⟨w, rest, e⟩ := State.headCmd_some h1
  have hi : c.issued = false := by
    simp only [State.ringRules, Bool.and_eq_true, Bool.not_eq_true'] at h2
    exact h2.1.1.1.1.1.2
  unfold State.issueOrRun
  have : (s.headCmd cx r fun d => want d && d.issued) = none := by
    unfold State.headCmd
    rw [e]
    simp [hi]
  rw [this]
  exact State.issueHead_of_issues h' run

end Sys2Proof.Machine
end

