-- ==== Sys2Proof/Laws/Updates.lean ====
section
/-!
SUPPORT. What the updates of commit sets, slots, commands, table entries, landings, messages, passes and claims leave alone,
and what a read of the updated thing gives.
-/

namespace Sys2Proof.Machine

open Sys2Proof

/-! ### `State.setCset` -/

@[simp] theorem State.setCset_pending (s : State) (n : Nat) (v : CommitSet) : (s.setCset n v).pending = s.pending := rfl
@[simp] theorem State.setCset_module (s : State) (n : Nat) (v : CommitSet) : (s.setCset n v).module = s.module := rfl
@[simp] theorem State.setCset_sites (s : State) (n : Nat) (v : CommitSet) : (s.setCset n v).sites = s.sites := rfl
@[simp] theorem State.setCset_tiles (s : State) (n : Nat) (v : CommitSet) : (s.setCset n v).tiles = s.tiles := rfl
@[simp] theorem State.setCset_package (s : State) (n : Nat) (v : CommitSet) : (s.setCset n v).package = s.package := rfl
@[simp] theorem State.setCset_rails (s : State) (n : Nat) (v : CommitSet) : (s.setCset n v).rails = s.rails := rfl
@[simp] theorem State.setCset_memory (s : State) (n : Nat) (v : CommitSet) : (s.setCset n v).memory = s.memory := rfl
@[simp] theorem State.setCset_tiers (s : State) (n : Nat) (v : CommitSet) : (s.setCset n v).tiers = s.tiers := rfl
@[simp] theorem State.setCset_kv (s : State) (n : Nat) (v : CommitSet) : (s.setCset n v).kv = s.kv := rfl
@[simp] theorem State.setCset_attn (s : State) (n : Nat) (v : CommitSet) : (s.setCset n v).attn = s.attn := rfl
@[simp] theorem State.setCset_links (s : State) (n : Nat) (v : CommitSet) : (s.setCset n v).links = s.links := rfl
@[simp] theorem State.setCset_hosts (s : State) (n : Nat) (v : CommitSet) : (s.setCset n v).hosts = s.hosts := rfl
@[simp] theorem State.setCset_sched (s : State) (n : Nat) (v : CommitSet) : (s.setCset n v).sched = s.sched := rfl
@[simp] theorem State.setCset_media (s : State) (n : Nat) (v : CommitSet) : (s.setCset n v).media = s.media := rfl
@[simp] theorem State.setCset_rel (s : State) (n : Nat) (v : CommitSet) : (s.setCset n v).rel = s.rel := rfl
@[simp] theorem State.setCset_fw (s : State) (n : Nat) (v : CommitSet) : (s.setCset n v).fw = s.fw := rfl
@[simp] theorem State.setCset_draws (s : State) (n : Nat) (v : CommitSet) : (s.setCset n v).draws = s.draws := rfl

/-! ### `State.setLatch` -/

@[simp] theorem State.setLatch_pending (s : State) (k : Nat) (v : Option Nat) : (s.setLatch k v).pending = s.pending := rfl
@[simp] theorem State.setLatch_module (s : State) (k : Nat) (v : Option Nat) : (s.setLatch k v).module = s.module := rfl
@[simp] theorem State.setLatch_sites (s : State) (k : Nat) (v : Option Nat) : (s.setLatch k v).sites = s.sites := rfl
@[simp] theorem State.setLatch_tiles (s : State) (k : Nat) (v : Option Nat) : (s.setLatch k v).tiles = s.tiles := rfl
@[simp] theorem State.setLatch_package (s : State) (k : Nat) (v : Option Nat) : (s.setLatch k v).package = s.package := rfl
@[simp] theorem State.setLatch_rails (s : State) (k : Nat) (v : Option Nat) : (s.setLatch k v).rails = s.rails := rfl
@[simp] theorem State.setLatch_memory (s : State) (k : Nat) (v : Option Nat) : (s.setLatch k v).memory = s.memory := rfl
@[simp] theorem State.setLatch_tiers (s : State) (k : Nat) (v : Option Nat) : (s.setLatch k v).tiers = s.tiers := rfl
@[simp] theorem State.setLatch_kv (s : State) (k : Nat) (v : Option Nat) : (s.setLatch k v).kv = s.kv := rfl
@[simp] theorem State.setLatch_attn (s : State) (k : Nat) (v : Option Nat) : (s.setLatch k v).attn = s.attn := rfl
@[simp] theorem State.setLatch_links (s : State) (k : Nat) (v : Option Nat) : (s.setLatch k v).links = s.links := rfl
@[simp] theorem State.setLatch_hosts (s : State) (k : Nat) (v : Option Nat) : (s.setLatch k v).hosts = s.hosts := rfl
@[simp] theorem State.setLatch_sched (s : State) (k : Nat) (v : Option Nat) : (s.setLatch k v).sched = s.sched := rfl
@[simp] theorem State.setLatch_media (s : State) (k : Nat) (v : Option Nat) : (s.setLatch k v).media = s.media := rfl
@[simp] theorem State.setLatch_rel (s : State) (k : Nat) (v : Option Nat) : (s.setLatch k v).rel = s.rel := rfl
@[simp] theorem State.setLatch_fw (s : State) (k : Nat) (v : Option Nat) : (s.setLatch k v).fw = s.fw := rfl
@[simp] theorem State.setLatch_draws (s : State) (k : Nat) (v : Option Nat) : (s.setLatch k v).draws = s.draws := rfl

/-! ### `State.setSlot` -/

@[simp] theorem State.setSlot_pending (s : State) (cx i : Nat) (v : Option KImage) :
    (s.setSlot cx i v).pending = s.pending := rfl
@[simp] theorem State.setSlot_module (s : State) (cx i : Nat) (v : Option KImage) : (s.setSlot cx i v).module = s.module := rfl
@[simp] theorem State.setSlot_sites (s : State) (cx i : Nat) (v : Option KImage) : (s.setSlot cx i v).sites = s.sites := rfl
@[simp] theorem State.setSlot_tiles (s : State) (cx i : Nat) (v : Option KImage) : (s.setSlot cx i v).tiles = s.tiles := rfl
@[simp] theorem State.setSlot_package (s : State) (cx i : Nat) (v : Option KImage) :
    (s.setSlot cx i v).package = s.package := rfl
@[simp] theorem State.setSlot_rails (s : State) (cx i : Nat) (v : Option KImage) : (s.setSlot cx i v).rails = s.rails := rfl
@[simp] theorem State.setSlot_memory (s : State) (cx i : Nat) (v : Option KImage) : (s.setSlot cx i v).memory = s.memory := rfl
@[simp] theorem State.setSlot_tiers (s : State) (cx i : Nat) (v : Option KImage) : (s.setSlot cx i v).tiers = s.tiers := rfl
@[simp] theorem State.setSlot_kv (s : State) (cx i : Nat) (v : Option KImage) : (s.setSlot cx i v).kv = s.kv := rfl
@[simp] theorem State.setSlot_attn (s : State) (cx i : Nat) (v : Option KImage) : (s.setSlot cx i v).attn = s.attn := rfl
@[simp] theorem State.setSlot_links (s : State) (cx i : Nat) (v : Option KImage) : (s.setSlot cx i v).links = s.links := rfl
@[simp] theorem State.setSlot_sched (s : State) (cx i : Nat) (v : Option KImage) : (s.setSlot cx i v).sched = s.sched := rfl
@[simp] theorem State.setSlot_media (s : State) (cx i : Nat) (v : Option KImage) : (s.setSlot cx i v).media = s.media := rfl
@[simp] theorem State.setSlot_regs (s : State) (cx i : Nat) (v : Option KImage) : (s.setSlot cx i v).regs = s.regs := rfl
@[simp] theorem State.setSlot_rel (s : State) (cx i : Nat) (v : Option KImage) : (s.setSlot cx i v).rel = s.rel := rfl
@[simp] theorem State.setSlot_fw (s : State) (cx i : Nat) (v : Option KImage) : (s.setSlot cx i v).fw = s.fw := rfl
@[simp] theorem State.setSlot_draws (s : State) (cx i : Nat) (v : Option KImage) : (s.setSlot cx i v).draws = s.draws := rfl

/-! ### `State.modCmd` -/

@[simp] theorem State.modCmd_pending (s : State) (id : CmdId) (f : Cmd → Cmd) : (s.modCmd id f).pending = s.pending := rfl
@[simp] theorem State.modCmd_module (s : State) (id : CmdId) (f : Cmd → Cmd) : (s.modCmd id f).module = s.module := rfl
@[simp] theorem State.modCmd_sites (s : State) (id : CmdId) (f : Cmd → Cmd) : (s.modCmd id f).sites = s.sites := rfl
@[simp] theorem State.modCmd_tiles (s : State) (id : CmdId) (f : Cmd → Cmd) : (s.modCmd id f).tiles = s.tiles := rfl
@[simp] theorem State.modCmd_package (s : State) (id : CmdId) (f : Cmd → Cmd) : (s.modCmd id f).package = s.package := rfl
@[simp] theorem State.modCmd_rails (s : State) (id : CmdId) (f : Cmd → Cmd) : (s.modCmd id f).rails = s.rails := rfl
@[simp] theorem State.modCmd_memory (s : State) (id : CmdId) (f : Cmd → Cmd) : (s.modCmd id f).memory = s.memory := rfl
@[simp] theorem State.modCmd_tiers (s : State) (id : CmdId) (f : Cmd → Cmd) : (s.modCmd id f).tiers = s.tiers := rfl
@[simp] theorem State.modCmd_kv (s : State) (id : CmdId) (f : Cmd → Cmd) : (s.modCmd id f).kv = s.kv := rfl
@[simp] theorem State.modCmd_attn (s : State) (id : CmdId) (f : Cmd → Cmd) : (s.modCmd id f).attn = s.attn := rfl
@[simp] theorem State.modCmd_links (s : State) (id : CmdId) (f : Cmd → Cmd) : (s.modCmd id f).links = s.links := rfl
@[simp] theorem State.modCmd_sched (s : State) (id : CmdId) (f : Cmd → Cmd) : (s.modCmd id f).sched = s.sched := rfl
@[simp] theorem State.modCmd_media (s : State) (id : CmdId) (f : Cmd → Cmd) : (s.modCmd id f).media = s.media := rfl
@[simp] theorem State.modCmd_regs (s : State) (id : CmdId) (f : Cmd → Cmd) : (s.modCmd id f).regs = s.regs := rfl
@[simp] theorem State.modCmd_rel (s : State) (id : CmdId) (f : Cmd → Cmd) : (s.modCmd id f).rel = s.rel := rfl
@[simp] theorem State.modCmd_fw (s : State) (id : CmdId) (f : Cmd → Cmd) : (s.modCmd id f).fw = s.fw := rfl
@[simp] theorem State.modCmd_draws (s : State) (id : CmdId) (f : Cmd → Cmd) : (s.modCmd id f).draws = s.draws := rfl

/-! ### `State.setUsed` -/

@[simp] theorem State.setUsed_pending (s : State) (n v : Nat) : (s.setUsed n v).pending = s.pending := rfl
@[simp] theorem State.setUsed_module (s : State) (n v : Nat) : (s.setUsed n v).module = s.module := rfl
@[simp] theorem State.setUsed_sites (s : State) (n v : Nat) : (s.setUsed n v).sites = s.sites := rfl
@[simp] theorem State.setUsed_tiles (s : State) (n v : Nat) : (s.setUsed n v).tiles = s.tiles := rfl
@[simp] theorem State.setUsed_package (s : State) (n v : Nat) : (s.setUsed n v).package = s.package := rfl
@[simp] theorem State.setUsed_rails (s : State) (n v : Nat) : (s.setUsed n v).rails = s.rails := rfl
@[simp] theorem State.setUsed_memory (s : State) (n v : Nat) : (s.setUsed n v).memory = s.memory := rfl
@[simp] theorem State.setUsed_kv (s : State) (n v : Nat) : (s.setUsed n v).kv = s.kv := rfl
@[simp] theorem State.setUsed_attn (s : State) (n v : Nat) : (s.setUsed n v).attn = s.attn := rfl
@[simp] theorem State.setUsed_links (s : State) (n v : Nat) : (s.setUsed n v).links = s.links := rfl
@[simp] theorem State.setUsed_hosts (s : State) (n v : Nat) : (s.setUsed n v).hosts = s.hosts := rfl
@[simp] theorem State.setUsed_sched (s : State) (n v : Nat) : (s.setUsed n v).sched = s.sched := rfl
@[simp] theorem State.setUsed_media (s : State) (n v : Nat) : (s.setUsed n v).media = s.media := rfl
@[simp] theorem State.setUsed_regs (s : State) (n v : Nat) : (s.setUsed n v).regs = s.regs := rfl
@[simp] theorem State.setUsed_rel (s : State) (n v : Nat) : (s.setUsed n v).rel = s.rel := rfl
@[simp] theorem State.setUsed_fw (s : State) (n v : Nat) : (s.setUsed n v).fw = s.fw := rfl
@[simp] theorem State.setUsed_draws (s : State) (n v : Nat) : (s.setUsed n v).draws = s.draws := rfl

/-! ### `State.setEntry` -/

@[simp] theorem State.setEntry_pending (s : State) (k v : Nat) : (s.setEntry k v).pending = s.pending := rfl
@[simp] theorem State.setEntry_module (s : State) (k v : Nat) : (s.setEntry k v).module = s.module := rfl
@[simp] theorem State.setEntry_sites (s : State) (k v : Nat) : (s.setEntry k v).sites = s.sites := rfl
@[simp] theorem State.setEntry_tiles (s : State) (k v : Nat) : (s.setEntry k v).tiles = s.tiles := rfl
@[simp] theorem State.setEntry_package (s : State) (k v : Nat) : (s.setEntry k v).package = s.package := rfl
@[simp] theorem State.setEntry_rails (s : State) (k v : Nat) : (s.setEntry k v).rails = s.rails := rfl
@[simp] theorem State.setEntry_memory (s : State) (k v : Nat) : (s.setEntry k v).memory = s.memory := rfl
@[simp] theorem State.setEntry_kv (s : State) (k v : Nat) : (s.setEntry k v).kv = s.kv := rfl
@[simp] theorem State.setEntry_attn (s : State) (k v : Nat) : (s.setEntry k v).attn = s.attn := rfl
@[simp] theorem State.setEntry_links (s : State) (k v : Nat) : (s.setEntry k v).links = s.links := rfl
@[simp] theorem State.setEntry_hosts (s : State) (k v : Nat) : (s.setEntry k v).hosts = s.hosts := rfl
@[simp] theorem State.setEntry_sched (s : State) (k v : Nat) : (s.setEntry k v).sched = s.sched := rfl
@[simp] theorem State.setEntry_media (s : State) (k v : Nat) : (s.setEntry k v).media = s.media := rfl
@[simp] theorem State.setEntry_regs (s : State) (k v : Nat) : (s.setEntry k v).regs = s.regs := rfl
@[simp] theorem State.setEntry_rel (s : State) (k v : Nat) : (s.setEntry k v).rel = s.rel := rfl
@[simp] theorem State.setEntry_fw (s : State) (k v : Nat) : (s.setEntry k v).fw = s.fw := rfl
@[simp] theorem State.setEntry_draws (s : State) (k v : Nat) : (s.setEntry k v).draws = s.draws := rfl

/-! ### `State.setKvEntry` -/

@[simp] theorem State.setKvEntry_pending (s : State) (q i v : Nat) : (s.setKvEntry q i v).pending = s.pending := rfl
@[simp] theorem State.setKvEntry_module (s : State) (q i v : Nat) : (s.setKvEntry q i v).module = s.module := rfl
@[simp] theorem State.setKvEntry_sites (s : State) (q i v : Nat) : (s.setKvEntry q i v).sites = s.sites := rfl
@[simp] theorem State.setKvEntry_tiles (s : State) (q i v : Nat) : (s.setKvEntry q i v).tiles = s.tiles := rfl
@[simp] theorem State.setKvEntry_package (s : State) (q i v : Nat) : (s.setKvEntry q i v).package = s.package := rfl
@[simp] theorem State.setKvEntry_rails (s : State) (q i v : Nat) : (s.setKvEntry q i v).rails = s.rails := rfl
@[simp] theorem State.setKvEntry_memory (s : State) (q i v : Nat) : (s.setKvEntry q i v).memory = s.memory := rfl
@[simp] theorem State.setKvEntry_tiers (s : State) (q i v : Nat) : (s.setKvEntry q i v).tiers = s.tiers := rfl
@[simp] theorem State.setKvEntry_attn (s : State) (q i v : Nat) : (s.setKvEntry q i v).attn = s.attn := rfl
@[simp] theorem State.setKvEntry_links (s : State) (q i v : Nat) : (s.setKvEntry q i v).links = s.links := rfl
@[simp] theorem State.setKvEntry_hosts (s : State) (q i v : Nat) : (s.setKvEntry q i v).hosts = s.hosts := rfl
@[simp] theorem State.setKvEntry_sched (s : State) (q i v : Nat) : (s.setKvEntry q i v).sched = s.sched := rfl
@[simp] theorem State.setKvEntry_media (s : State) (q i v : Nat) : (s.setKvEntry q i v).media = s.media := rfl
@[simp] theorem State.setKvEntry_regs (s : State) (q i v : Nat) : (s.setKvEntry q i v).regs = s.regs := rfl
@[simp] theorem State.setKvEntry_rel (s : State) (q i v : Nat) : (s.setKvEntry q i v).rel = s.rel := rfl
@[simp] theorem State.setKvEntry_fw (s : State) (q i v : Nat) : (s.setKvEntry q i v).fw = s.fw := rfl
@[simp] theorem State.setKvEntry_draws (s : State) (q i v : Nat) : (s.setKvEntry q i v).draws = s.draws := rfl

/-! ### `State.setShare` -/

@[simp] theorem State.setShare_pending (s : State) (f : Nat) (v : Share) : (s.setShare f v).pending = s.pending := rfl
@[simp] theorem State.setShare_module (s : State) (f : Nat) (v : Share) : (s.setShare f v).module = s.module := rfl
@[simp] theorem State.setShare_sites (s : State) (f : Nat) (v : Share) : (s.setShare f v).sites = s.sites := rfl
@[simp] theorem State.setShare_tiles (s : State) (f : Nat) (v : Share) : (s.setShare f v).tiles = s.tiles := rfl
@[simp] theorem State.setShare_package (s : State) (f : Nat) (v : Share) : (s.setShare f v).package = s.package := rfl
@[simp] theorem State.setShare_rails (s : State) (f : Nat) (v : Share) : (s.setShare f v).rails = s.rails := rfl
@[simp] theorem State.setShare_memory (s : State) (f : Nat) (v : Share) : (s.setShare f v).memory = s.memory := rfl
@[simp] theorem State.setShare_tiers (s : State) (f : Nat) (v : Share) : (s.setShare f v).tiers = s.tiers := rfl
@[simp] theorem State.setShare_attn (s : State) (f : Nat) (v : Share) : (s.setShare f v).attn = s.attn := rfl
@[simp] theorem State.setShare_links (s : State) (f : Nat) (v : Share) : (s.setShare f v).links = s.links := rfl
@[simp] theorem State.setShare_hosts (s : State) (f : Nat) (v : Share) : (s.setShare f v).hosts = s.hosts := rfl
@[simp] theorem State.setShare_sched (s : State) (f : Nat) (v : Share) : (s.setShare f v).sched = s.sched := rfl
@[simp] theorem State.setShare_media (s : State) (f : Nat) (v : Share) : (s.setShare f v).media = s.media := rfl
@[simp] theorem State.setShare_regs (s : State) (f : Nat) (v : Share) : (s.setShare f v).regs = s.regs := rfl
@[simp] theorem State.setShare_rel (s : State) (f : Nat) (v : Share) : (s.setShare f v).rel = s.rel := rfl
@[simp] theorem State.setShare_fw (s : State) (f : Nat) (v : Share) : (s.setShare f v).fw = s.fw := rfl
@[simp] theorem State.setShare_draws (s : State) (f : Nat) (v : Share) : (s.setShare f v).draws = s.draws := rfl

/-! ### `State.setLanding` -/

@[simp] theorem State.setLanding_pending (s : State) (src tag : Nat) (v : Landing) :
    (s.setLanding src tag v).pending = s.pending := rfl
@[simp] theorem State.setLanding_module (s : State) (src tag : Nat) (v : Landing) :
    (s.setLanding src tag v).module = s.module := rfl
@[simp] theorem State.setLanding_sites (s : State) (src tag : Nat) (v : Landing) :
    (s.setLanding src tag v).sites = s.sites := rfl
@[simp] theorem State.setLanding_tiles (s : State) (src tag : Nat) (v : Landing) :
    (s.setLanding src tag v).tiles = s.tiles := rfl
@[simp] theorem State.setLanding_package (s : State) (src tag : Nat) (v : Landing) :
    (s.setLanding src tag v).package = s.package := rfl
@[simp] theorem State.setLanding_rails (s : State) (src tag : Nat) (v : Landing) :
    (s.setLanding src tag v).rails = s.rails := rfl
@[simp] theorem State.setLanding_memory (s : State) (src tag : Nat) (v : Landing) :
    (s.setLanding src tag v).memory = s.memory := rfl
@[simp] theorem State.setLanding_tiers (s : State) (src tag : Nat) (v : Landing) :
    (s.setLanding src tag v).tiers = s.tiers := rfl
@[simp] theorem State.setLanding_kv (s : State) (src tag : Nat) (v : Landing) : (s.setLanding src tag v).kv = s.kv := rfl
@[simp] theorem State.setLanding_attn (s : State) (src tag : Nat) (v : Landing) : (s.setLanding src tag v).attn = s.attn := rfl
@[simp] theorem State.setLanding_hosts (s : State) (src tag : Nat) (v : Landing) :
    (s.setLanding src tag v).hosts = s.hosts := rfl
@[simp] theorem State.setLanding_sched (s : State) (src tag : Nat) (v : Landing) :
    (s.setLanding src tag v).sched = s.sched := rfl
@[simp] theorem State.setLanding_media (s : State) (src tag : Nat) (v : Landing) :
    (s.setLanding src tag v).media = s.media := rfl
@[simp] theorem State.setLanding_regs (s : State) (src tag : Nat) (v : Landing) : (s.setLanding src tag v).regs = s.regs := rfl
@[simp] theorem State.setLanding_rel (s : State) (src tag : Nat) (v : Landing) : (s.setLanding src tag v).rel = s.rel := rfl
@[simp] theorem State.setLanding_fw (s : State) (src tag : Nat) (v : Landing) : (s.setLanding src tag v).fw = s.fw := rfl
@[simp] theorem State.setLanding_draws (s : State) (src tag : Nat) (v : Landing) :
    (s.setLanding src tag v).draws = s.draws := rfl

/-! ### `State.modMsg` -/

@[simp] theorem State.modMsg_pending (s : State) (cx g number : Nat) (f : Message → Message) :
    (s.modMsg cx g number f).pending = s.pending := rfl
@[simp] theorem State.modMsg_module (s : State) (cx g number : Nat) (f : Message → Message) :
    (s.modMsg cx g number f).module = s.module := rfl
@[simp] theorem State.modMsg_sites (s : State) (cx g number : Nat) (f : Message → Message) :
    (s.modMsg cx g number f).sites = s.sites := rfl
@[simp] theorem State.modMsg_tiles (s : State) (cx g number : Nat) (f : Message → Message) :
    (s.modMsg cx g number f).tiles = s.tiles := rfl
@[simp] theorem State.modMsg_package (s : State) (cx g number : Nat) (f : Message → Message) :
    (s.modMsg cx g number f).package = s.package := rfl
@[simp] theorem State.modMsg_rails (s : State) (cx g number : Nat) (f : Message → Message) :
    (s.modMsg cx g number f).rails = s.rails := rfl
@[simp] theorem State.modMsg_memory (s : State) (cx g number : Nat) (f : Message → Message) :
    (s.modMsg cx g number f).memory = s.memory := rfl
@[simp] theorem State.modMsg_tiers (s : State) (cx g number : Nat) (f : Message → Message) :
    (s.modMsg cx g number f).tiers = s.tiers := rfl
@[simp] theorem State.modMsg_kv (s : State) (cx g number : Nat) (f : Message → Message) :
    (s.modMsg cx g number f).kv = s.kv := rfl
@[simp] theorem State.modMsg_attn (s : State) (cx g number : Nat) (f : Message → Message) :
    (s.modMsg cx g number f).attn = s.attn := rfl
@[simp] theorem State.modMsg_hosts (s : State) (cx g number : Nat) (f : Message → Message) :
    (s.modMsg cx g number f).hosts = s.hosts := rfl
@[simp] theorem State.modMsg_sched (s : State) (cx g number : Nat) (f : Message → Message) :
    (s.modMsg cx g number f).sched = s.sched := rfl
@[simp] theorem State.modMsg_media (s : State) (cx g number : Nat) (f : Message → Message) :
    (s.modMsg cx g number f).media = s.media := rfl
@[simp] theorem State.modMsg_regs (s : State) (cx g number : Nat) (f : Message → Message) :
    (s.modMsg cx g number f).regs = s.regs := rfl
@[simp] theorem State.modMsg_rel (s : State) (cx g number : Nat) (f : Message → Message) :
    (s.modMsg cx g number f).rel = s.rel := rfl
@[simp] theorem State.modMsg_fw (s : State) (cx g number : Nat) (f : Message → Message) :
    (s.modMsg cx g number f).fw = s.fw := rfl
@[simp] theorem State.modMsg_draws (s : State) (cx g number : Nat) (f : Message → Message) :
    (s.modMsg cx g number f).draws = s.draws := rfl

/-! ### `State.putCore` -/

@[simp] theorem State.putCore_pending (s : State) (site core : Nat) (prog : List Nat) (c : Core) :
    (s.putCore site core prog c).pending = s.pending := rfl
@[simp] theorem State.putCore_module (s : State) (site core : Nat) (prog : List Nat) (c : Core) :
    (s.putCore site core prog c).module = s.module := rfl
@[simp] theorem State.putCore_sites (s : State) (site core : Nat) (prog : List Nat) (c : Core) :
    (s.putCore site core prog c).sites = s.sites := rfl
@[simp] theorem State.putCore_package (s : State) (site core : Nat) (prog : List Nat) (c : Core) :
    (s.putCore site core prog c).package = s.package := rfl
@[simp] theorem State.putCore_rails (s : State) (site core : Nat) (prog : List Nat) (c : Core) :
    (s.putCore site core prog c).rails = s.rails := rfl
@[simp] theorem State.putCore_memory (s : State) (site core : Nat) (prog : List Nat) (c : Core) :
    (s.putCore site core prog c).memory = s.memory := rfl
@[simp] theorem State.putCore_tiers (s : State) (site core : Nat) (prog : List Nat) (c : Core) :
    (s.putCore site core prog c).tiers = s.tiers := rfl
@[simp] theorem State.putCore_kv (s : State) (site core : Nat) (prog : List Nat) (c : Core) :
    (s.putCore site core prog c).kv = s.kv := rfl
@[simp] theorem State.putCore_attn (s : State) (site core : Nat) (prog : List Nat) (c : Core) :
    (s.putCore site core prog c).attn = s.attn := rfl
@[simp] theorem State.putCore_links (s : State) (site core : Nat) (prog : List Nat) (c : Core) :
    (s.putCore site core prog c).links = s.links := rfl
@[simp] theorem State.putCore_hosts (s : State) (site core : Nat) (prog : List Nat) (c : Core) :
    (s.putCore site core prog c).hosts = s.hosts := rfl
@[simp] theorem State.putCore_sched (s : State) (site core : Nat) (prog : List Nat) (c : Core) :
    (s.putCore site core prog c).sched = s.sched := rfl
@[simp] theorem State.putCore_media (s : State) (site core : Nat) (prog : List Nat) (c : Core) :
    (s.putCore site core prog c).media = s.media := rfl
@[simp] theorem State.putCore_regs (s : State) (site core : Nat) (prog : List Nat) (c : Core) :
    (s.putCore site core prog c).regs = s.regs := rfl
@[simp] theorem State.putCore_rel (s : State) (site core : Nat) (prog : List Nat) (c : Core) :
    (s.putCore site core prog c).rel = s.rel := rfl
@[simp] theorem State.putCore_fw (s : State) (site core : Nat) (prog : List Nat) (c : Core) :
    (s.putCore site core prog c).fw = s.fw := rfl
@[simp] theorem State.putCore_draws (s : State) (site core : Nat) (prog : List Nat) (c : Core) :
    (s.putCore site core prog c).draws = s.draws := rfl

/-! ### `State.modClaim` -/

@[simp] theorem State.modClaim_pending (s : State) (id : CmdId) (claim : Nat) (f : AttnClaim → AttnClaim) :
    (s.modClaim id claim f).pending = s.pending := rfl
@[simp] theorem State.modClaim_module (s : State) (id : CmdId) (claim : Nat) (f : AttnClaim → AttnClaim) :
    (s.modClaim id claim f).module = s.module := rfl
@[simp] theorem State.modClaim_sites (s : State) (id : CmdId) (claim : Nat) (f : AttnClaim → AttnClaim) :
    (s.modClaim id claim f).sites = s.sites := rfl
@[simp] theorem State.modClaim_tiles (s : State) (id : CmdId) (claim : Nat) (f : AttnClaim → AttnClaim) :
    (s.modClaim id claim f).tiles = s.tiles := rfl
@[simp] theorem State.modClaim_package (s : State) (id : CmdId) (claim : Nat) (f : AttnClaim → AttnClaim) :
    (s.modClaim id claim f).package = s.package := rfl
@[simp] theorem State.modClaim_rails (s : State) (id : CmdId) (claim : Nat) (f : AttnClaim → AttnClaim) :
    (s.modClaim id claim f).rails = s.rails := rfl
@[simp] theorem State.modClaim_memory (s : State) (id : CmdId) (claim : Nat) (f : AttnClaim → AttnClaim) :
    (s.modClaim id claim f).memory = s.memory := rfl
@[simp] theorem State.modClaim_tiers (s : State) (id : CmdId) (claim : Nat) (f : AttnClaim → AttnClaim) :
    (s.modClaim id claim f).tiers = s.tiers := rfl
@[simp] theorem State.modClaim_kv (s : State) (id : CmdId) (claim : Nat) (f : AttnClaim → AttnClaim) :
    (s.modClaim id claim f).kv = s.kv := rfl
@[simp] theorem State.modClaim_links (s : State) (id : CmdId) (claim : Nat) (f : AttnClaim → AttnClaim) :
    (s.modClaim id claim f).links = s.links := rfl
@[simp] theorem State.modClaim_hosts (s : State) (id : CmdId) (claim : Nat) (f : AttnClaim → AttnClaim) :
    (s.modClaim id claim f).hosts = s.hosts := rfl
@[simp] theorem State.modClaim_sched (s : State) (id : CmdId) (claim : Nat) (f : AttnClaim → AttnClaim) :
    (s.modClaim id claim f).sched = s.sched := rfl
@[simp] theorem State.modClaim_media (s : State) (id : CmdId) (claim : Nat) (f : AttnClaim → AttnClaim) :
    (s.modClaim id claim f).media = s.media := rfl
@[simp] theorem State.modClaim_regs (s : State) (id : CmdId) (claim : Nat) (f : AttnClaim → AttnClaim) :
    (s.modClaim id claim f).regs = s.regs := rfl
@[simp] theorem State.modClaim_rel (s : State) (id : CmdId) (claim : Nat) (f : AttnClaim → AttnClaim) :
    (s.modClaim id claim f).rel = s.rel := rfl
@[simp] theorem State.modClaim_fw (s : State) (id : CmdId) (claim : Nat) (f : AttnClaim → AttnClaim) :
    (s.modClaim id claim f).fw = s.fw := rfl
@[simp] theorem State.modClaim_draws (s : State) (id : CmdId) (claim : Nat) (f : AttnClaim → AttnClaim) :
    (s.modClaim id claim f).draws = s.draws := rfl

/-! ### `State.setFwSlot` -/

@[simp] theorem State.setFwSlot_pending (s : State) (n : Nat) (v : FwSlot) : (s.setFwSlot n v).pending = s.pending := rfl
@[simp] theorem State.setFwSlot_module (s : State) (n : Nat) (v : FwSlot) : (s.setFwSlot n v).module = s.module := rfl
@[simp] theorem State.setFwSlot_sites (s : State) (n : Nat) (v : FwSlot) : (s.setFwSlot n v).sites = s.sites := rfl
@[simp] theorem State.setFwSlot_tiles (s : State) (n : Nat) (v : FwSlot) : (s.setFwSlot n v).tiles = s.tiles := rfl
@[simp] theorem State.setFwSlot_package (s : State) (n : Nat) (v : FwSlot) : (s.setFwSlot n v).package = s.package := rfl
@[simp] theorem State.setFwSlot_rails (s : State) (n : Nat) (v : FwSlot) : (s.setFwSlot n v).rails = s.rails := rfl
@[simp] theorem State.setFwSlot_memory (s : State) (n : Nat) (v : FwSlot) : (s.setFwSlot n v).memory = s.memory := rfl
@[simp] theorem State.setFwSlot_tiers (s : State) (n : Nat) (v : FwSlot) : (s.setFwSlot n v).tiers = s.tiers := rfl
@[simp] theorem State.setFwSlot_kv (s : State) (n : Nat) (v : FwSlot) : (s.setFwSlot n v).kv = s.kv := rfl
@[simp] theorem State.setFwSlot_attn (s : State) (n : Nat) (v : FwSlot) : (s.setFwSlot n v).attn = s.attn := rfl
@[simp] theorem State.setFwSlot_links (s : State) (n : Nat) (v : FwSlot) : (s.setFwSlot n v).links = s.links := rfl
@[simp] theorem State.setFwSlot_hosts (s : State) (n : Nat) (v : FwSlot) : (s.setFwSlot n v).hosts = s.hosts := rfl
@[simp] theorem State.setFwSlot_sched (s : State) (n : Nat) (v : FwSlot) : (s.setFwSlot n v).sched = s.sched := rfl
@[simp] theorem State.setFwSlot_media (s : State) (n : Nat) (v : FwSlot) : (s.setFwSlot n v).media = s.media := rfl
@[simp] theorem State.setFwSlot_regs (s : State) (n : Nat) (v : FwSlot) : (s.setFwSlot n v).regs = s.regs := rfl
@[simp] theorem State.setFwSlot_rel (s : State) (n : Nat) (v : FwSlot) : (s.setFwSlot n v).rel = s.rel := rfl
@[simp] theorem State.setFwSlot_draws (s : State) (n : Nat) (v : FwSlot) : (s.setFwSlot n v).draws = s.draws := rfl

/-! ### Reads after the update -/

@[simp] theorem State.cset_setCset_same (s : State) (n : Nat) (v : CommitSet) : (s.setCset n v).cset n = v := by
  simp [State.cset, State.setCset]

theorem State.cset_setCset_other (s : State) (n i : Nat) (v : CommitSet) (h : i ≠ n) : (s.setCset n v).cset i = s.cset i := by
  simp [State.cset, State.setCset, tget_tput_other _ _ _ _ _ _ h]

@[simp] theorem State.slot_setSlot_same (s : State) (cx i : Nat) (v : Option KImage) : (s.setSlot cx i v).slot cx i = v := by
  simp [State.slot, State.setSlot]

@[simp] theorem State.entry_setEntry_same (s : State) (k v : Nat) : (s.setEntry k v).entry k = v := by
  simp [State.entry, State.setEntry]

theorem State.entry_setEntry_other (s : State) (k v i : Nat) (h : i ≠ k) : (s.setEntry k v).entry i = s.entry i := by
  simp [State.entry, State.setEntry, tget_tput_other _ _ _ _ _ _ h]

@[simp] theorem State.shareOf_setShare_same (s : State) (f : Nat) (v : Share) : (s.setShare f v).shareOf f = v := by
  simp [State.shareOf, State.setShare]

theorem State.shareOf_setShare_other (s : State) (f i : Nat) (v : Share) (h : i ≠ f) : (s.setShare f v).shareOf i = s.shareOf i := by
  simp [State.shareOf, State.setShare, tget_tput_other _ _ _ _ _ _ h]

@[simp] theorem State.landing_setLanding_same (s : State) (src tag : Nat) (v : Landing) :
    (s.setLanding src tag v).landing src tag = v := by
  simp [State.landing, State.setLanding]

@[simp] theorem State.fwSlot_setFwSlot_same (s : State) (n : Nat) (v : FwSlot) : (s.setFwSlot n v).fwSlot n = v := by
  simp [State.fwSlot, State.setFwSlot]

theorem State.fwSlot_setFwSlot_other (s : State) (n i : Nat) (v : FwSlot) (h : i ≠ n) :
    (s.setFwSlot n v).fwSlot i = s.fwSlot i := by
  simp [State.fwSlot, State.setFwSlot, tget_tput_other _ _ _ _ _ _ h]

end Sys2Proof.Machine
end

