-- ==== Sys2Proof/Tests/Slice0.lean ====
section
/-!
SUPPORT. The model's own tests: ill-formed commands, small runs of one command, and for each statement with hypotheses a
concrete state and operands that meet them (`meets_…`), clause by clause.
-/

namespace Sys2Proof.Tests

open Sys2Proof Sys2Proof.Machine Sys2Proof.Safety

set_option maxRecDepth 100000
set_option Elab.async false

/-! ### Ill-formed commands are refused -/

theorem test_wf_mctp_write_short : (Instr.mctpWrite 0 4 []).wf = false := by decide
theorem test_wf_mctp_write_fits : (Instr.mctpWrite 0 4 [1, 2, 3, 4]).wf = true := by decide
theorem test_wf_idle_row_of_another_kind :
    (Instr.idleBaton 0 (BitVec.ofNat 2304 (2 ^ 72))).wf = false := by decide +kernel
theorem test_wf_crc_failure_of_a_good_baton :
    (Instr.batonCrcFailure 0 ⟨BitVec.ofNat 2304 (2 ^ 224 * batonCrc 0), 0⟩).wf = false := by decide +kernel
theorem test_wf_malformed_row_of_a_sound_baton :
    (Instr.malformedBaton 0 (BitVec.ofNat 2304 (2 ^ 224 * batonCrc 0))).wf = false := by decide +kernel

/-! ### States and commands to start from -/

/-- Context 0 of port 0, the owner's, is READY and holds the fields. -/
def ready : State :=
  State.setCtx { State.reset with sched := { State.reset.sched with holder := some 0 } } 0 { Ctx.empty with mode := .ready }

/-- The same with a package resident that holds nothing. -/
def loaded : State := { ready with package := some ⟨0, [], [], [], [], []⟩ }

/-- A command in slot 0 with a kind, further descriptor bits and an extension. -/
def cmd (kind desc ext : Nat) : Cmd := Cmd.make 0 (BitVec.ofNat 512 (kind + desc)) (BitVec.ofNat 512 ext) 0

/-- A command alone in a ring of context 0. -/
def put (s : State) (r : Nat) (c : Cmd) : State := s.setRing 0 r { Ring.empty with producer := 1, fetched := 1, cmds := [c] }

/-- The port of the owner host. -/
def host : Writer := .port 0

/-- A state whose I3C address is assigned, so that the service tool reaches the registers. -/
def tooled : State := { State.reset with module := { State.reset.module with i3cAddr := some 64 } }
/-! ### The queue and the registers -/

theorem meets_FrontCommandRuns :
    ({ State.reset with pending := [.resetAssert, .evict 0] } : State).pending = .resetAssert :: [.evict 0] := by decide

theorem meets_IdleStepTicks :
    State.reset.pending = [] ∧
    ({ State.reset with module := { State.reset.module with phase := .set } } : State).module.phase ≠ .go ∧
    ({ State.reset with module := { State.reset.module with phase := .set } } : State).held = false := by decide +kernel

theorem meets_WellFormedCommandsRun : (Instr.mctpWrite 0 0 []).wf = true ∧ (Instr.mctpWrite 0 1 []).wf = false := by decide

theorem meets_BytesStayCanonical : State.reset.memory.wf ∧ (∃ t, step State.reset = .next t) :=
  ⟨by decide +kernel, ⟨_, rfl⟩⟩

theorem meets_LogbookAndFusesOnlyGrow : ∃ t, step { State.reset with pending := [.usageRecord 0 0 0] } = .next t := ⟨_, rfl⟩

theorem meets_CommandsStayInTheirParts :
    (∃ t, exec .refClockLoss State.reset = .next t) ∧ Part.kv ∉ touches (.doorbellSnoop 0) := ⟨⟨_, rfl⟩, by decide⟩

theorem meets_RightlessWritesAreIgnored :
    (writtenAt (.scClear (.port 1) 1) = some (.port 1, 0x400020, 1) ∧ permits State.reset (.port 1) 0x400020 1 = false) ∧
    ((regInfo 0x300104).isSome ∧ (regInfo 0x300104).map RegInfo.acc ≠ some .ro ∧
      permits State.reset (.port 3) 0x300104 1 = false) ∧
    permits tooled .tool 0x400020 1 = false := by decide +kernel

/-- A right without a reaching party is no right. -/
theorem meets_RightlessWritesAreIgnored_unreached : State.reset.reaches .tool = false ∧ permits State.reset .tool 0x400020 1 = false := by
  decide +kernel

theorem meets_ClearWritesClear :
    permits State.reset host 0x2020 1 ∧ permits State.reset host 0x2024 1 ∧ permits State.reset host 0x3040 1 ∧
    permits State.reset host 0x400020 1 ∧ permits State.reset host (siteBase 0 + 0x14) 1 ∧
    permits State.reset host (siteBase 80 + 0x14) 1 ∧ permits State.reset host (siteBase 80 + 0x610) 1 ∧
    permits State.reset host (linkBase 35 + 0x34) 1 ∧ permits State.reset host (poBase 1 + 0x60) 1 ∧
    permits State.reset host 0x200C 0xFFFF ∧ State.reset.reg 0x200C < 2 ^ 32 ∧
    permits State.reset host (siteBase 80 + 0x60C) 0xFFFF ∧ permits State.reset host 0x48 1 ∧ permits State.reset host 0x40 1 := by
  decide +kernel

/-- A register with no row of its own that the owner may write. -/
def plain (s : State) (off : Nat) (acc : Acc) : Bool :=
  (regInfo off).any (fun i => i.acc == acc) && permits s host off 1 && off % 4 == 0 &&
    (s.rowLow host off 1).isNone && (s.rowMid host off 1).isNone && (s.rowHigh host off 1).isNone

theorem meets_RegisterWritesFollowAccessCodes :
    State.reset.reaches host ∧ regInfo 0x3FFFFFC = none ∧ (¬(4 = 4 ∧ 2 % 4 = 0) ∧ ¬(4 = 8 ∧ 2 % 8 = 0)) ∧
    (regInfo 0x1000).map RegInfo.acc = some .ro ∧ plain State.reset 0x1010 .rw ∧ plain State.reset 0x2C .rw ∧
    plain State.reset 0x1024 .w1c ∧ (plain State.reset 0x3004 .rwi ∧ State.reset.rwiIdle 0x3004 = true) ∧
    (plain loaded 0x3004 .rwi ∧ loaded.rwiIdle 0x3004 = false) ∧
    (plain loaded 0x2100 (.rws 0) ∧ (loaded.cset 0).mode ≠ .opened) ∧
    (let s := loaded.setCset 0 { CommitSet.empty with mode := .opened }
     plain s 0x2100 (.rws 0) ∧ (s.cset 0).mode = .opened) ∧
    (0x2100 % 8 = 0 ∧ 0x2100 + 4 < 2 ^ 26) := by decide +kernel

theorem meets_CommitSetsCommitWhole :
    let s := loaded.setCset 0 { CommitSet.empty with mode := .opened, openGen := 5 }
    let t := State.setCset ready 16 { CommitSet.empty with mode := .opened, openGen := 5, shadow := [(0x310008, 7)] }
    permits loaded host 0x10000 5 ∧ (permits s host 0x10004 6 ∧ ¬((s.cset 0).mode = .opened ∧ 6 = (s.cset 0).openGen)) ∧
    (let u := State.reset.setCset 3 { CommitSet.empty with mode := .opened, openGen := 5 }
     permits u host (0x10004 + 16 * 3) 5 ∧ (u.cset 3).mode = .opened ∧ 5 = (u.cset 3).openGen ∧ u.commitsNow 3 = false) ∧
    permits t host (0x10004 + 16 * 16) 5 ∧ (t.cset 16).mode = .opened ∧ (t.cset 16).openGen = 5 ∧
    (((t.cset 16).shadow.map Prod.fst).Nodup) ∧ (∀ e ∈ (t.cset 16).shadow, 0x310000 ≤ e.1 ∧ e.1 < 0x320000) := by
  decide +kernel

theorem meets_LowReadsLatchTheirHigh :
    State.reset.reaches (.port 0) ∧ isLo 0x34 ∧ isLo 0x38 = false ∧ isLo (0x310000 + 0xA0) ∧
    tget (State.reset.setLatch (latchKey 0 0x38) (some 9)).regs.latches (latchKey 0 0x38) none = some 9 := by decide +kernel

theorem meets_ToolCommandsAnswer :
    State.reset.reaches .tool = false ∧ tooled.reaches .tool ∧
    (reqOk 0x1000 4 ∧ (reqWords 0x1000 4).all toolReads) ∧ (reqOk 0 1024 ∧ (reqWords 0 1024).all toolReads) ∧
    reqOk 0x1000 1028 = false ∧ reqOk 0x1002 4 = false ∧ reqOk 0 0 = false ∧
    (reqOk 0x1028 4 ∧ (reqWords 0x1028 4).all tooled.toolWrites) ∧ (reqWords 0x2100 4).all tooled.toolWrites = false := by
  decide +kernel

/-! ### Contexts, rings and ports -/

/-- Context 0 is ASSIGNED to port 0, its rings of 64 slots. -/
def assigned : State :=
  (List.range 4).foldl (fun s r => s.setReg (ctxBase 0 + 0x48 + 0x20 * r) 6)
    (State.reset.setCtx 0 { Ctx.empty with mode := .assigned })

theorem meets_ContextsAreAssignedAndStarted :
    permits State.reset host 0x300104 0xFFFF ∧ permits State.reset host (0x300104 + 0x100 * 3) 1 ∧
    permits assigned host (ctxBase 0) 1 ∧ (assigned.ctx 0).mode = .assigned ∧ assigned.startOk 0 ∧
    (State.reset.setCtx 0 { Ctx.empty with mode := .assigned }).startOk 0 = false ∧
    permits ready host (ctxBase 0) 2 ∧ (ready.ctx 0).mode = .ready ∧
    permits (ready.setCtx 0 { Ctx.empty with mode := .faulted }) host (ctxBase 0) 2 := by decide +kernel

theorem meets_TeardownEmptiesContext :
    (let s := ready.setCtx 0 { Ctx.empty with mode := .stopping }
     (s.ctx 0).mode = .stopping ∧ s.holds 0 = true ∧ ∀ e, e < 24 → (s.engine e).running = none) ∧
    (ready.ctx 0).mode ≠ .stopping ∧ (State.reset.setCtx 15 { Ctx.empty with mode := .stopping }).holds 15 = false := by decide +kernel

theorem meets_DoorbellsReachTheDispatcher :
    let reading := ready.setCtx 0 { Ctx.empty with mode := .ready, doorbellReading := true }
    let held := ready.setCtx 0 { Ctx.empty with mode := .ready, doorbellHeld := true }
    let rung := ready.setRing 0 1 { Ring.empty with producer := 1 }
    (reading.ctx 0).doorbellReading ∧ ((held.ctx 0).doorbellReading = false ∧ (held.ctx 0).doorbellHeld) ∧
    (ready.setReg (ctxBase 0 + 0x10) 16).reg (ctxBase 0 + 0x10) ≠ 0 ∧
    (∀ r, r < 4 → reading.producerBad 0 0 r = false) ∧ reading.producerBad 0 (BitVec.ofNat 512 (2 ^ 31)) 0 = true ∧
    (rung.portUp (rung.ctx 0).port ∧ ((rung.ring 0 1).cmds.filter fun c => !c.issued).length < 8 ∧
      wrap32 ((rung.ring 0 1).producer + 4294967296 - (rung.ring 0 1).fetched) = 1) ∧
    kindSlots 0x00 ≤ 1 ∧ 1 < kindSlots 0x02 + 1 ∧ kindSlots 0x10 = 2 ∧
    wrap32 ((ready.ring 0 1).producer + 4294967296 - (ready.ring 0 1).fetched) = 0 := by decide +kernel

theorem meets_CompletionsLeaveInOrder :
    ((ready.setRing 0 3 { Ring.empty with written := [⟨4294967295, 1, 0, true, 0, 0⟩] }).ring 0 3).written ≠ [] ∧
    (ready.ring 0 3).written = [] ∧
    (let s := (ready.setReg (ctxBase 0 + 0x54) 1).setRing 0 0 { Ring.empty with coalesced := 1 }
     bit (s.ringIrq 0 0) 0 ∧ (s.ring 0 0).coalesced ≠ 0) := by decide +kernel

theorem meets_HostPortsChangeState :
    (State.reset.port 0).mode = .up ∧ (State.reset.port 3).mode = .up ∧
    ((State.reset.setPort 1 { HostPort.empty with mode := .training }).port 1).mode = .training ∧
    ((State.reset.setPort 1 { HostPort.empty with mode := .down }).port 1).mode = .down := by decide +kernel

theorem meets_SemaphoresCount :
    issues (put ready 0 (cmd 0x00 0 0)) 0 0 (wantKind 0x00) [] (cmd 0x00 0 0) ∧
    issues (put ready 2 (cmd 0x06 (2 ^ 192 * 15 + 2 ^ 224) 0)) 0 2 (wantKind 0x06) [] (cmd 0x06 (2 ^ 192 * 15 + 2 ^ 224) 0) ∧
    (let s := put ready 0 (cmd 0x07 0 0)
     issues s 0 0 (fun d => wantKind 0x07 d && s.semMet 0 d) [] (cmd 0x07 0 0)) := by decide +kernel

/-! ### Kernels, cores and tiles -/

/-- A tile program of one BF16 tile of 8 by 8: CLAIM on counter 5, the loads, MMA, CHANGEOVER and one FP32 DRAIN. -/
def prog : List Nat :=
  [2 ^ 60 + 5 * 2 ^ 52, 2 * 2 ^ 60 + 2 ^ 51 + 8 * 2 ^ 30, 3 * 2 ^ 60 + 2 ^ 57 + 2 ^ 51 + 8 * 2 ^ 39 + 8 * 2 ^ 30,
    4 * 2 ^ 60 + 2 ^ 56 + 2 ^ 52, 5 * 2 ^ 60, 6 * 2 ^ 60 + 2 * 2 ^ 57]

/-- Its counter record: bounds of 8, 8, 32 and 1, given as literals. -/
def record : Nat :=
  2 ^ 109 + 8 * 2 ^ 113 + 8 * 2 ^ 120 + 2 ^ 127 + 8 * 2 ^ 192 + 8 * 2 ^ 224 + 32 * 2 ^ 256 + 2 ^ 288 +
    8 * 2 ^ 320 + 8 * 2 ^ 352 + 32 * 2 ^ 384 + 2 ^ 416

/-- The image's 1,024 bytes: A at line 0, B at line 4, the output at line 8. -/
def imageBytes : List Byte :=
  toBytes 8 (5 * 2 ^ 32) ++ prog.flatMap (toBytes 8) ++ List.replicate 208 0 ++ toBytes 64 record ++
    toBytes 32 0 ++ toBytes 32 4 ++ toBytes 32 (8 + 2 ^ 64 * 32) ++ List.replicate 600 0

def image : KImage := KImage.parse imageBytes

/-- Memory for a context's first page, backed on rank 0, that holds some bytes; one allocation for context 0. -/
def withBytes (s : State) (l : List Byte) : State :=
  State.storeWrite { (s.setReg 0x310C 1) with
    tiers := { s.tiers with entries := [(0, entryWord true true 0 0 0 0)], pages := [0] }
    package := some ⟨0, [], [], [], [], [2 ^ 80 + 2 ^ 96 + 1024 * 2 ^ 20]⟩ } 0 l

/-- LOAD_KERNEL into slot 0 from address 0. -/
def loadCmd : Cmd := cmd 1 0 0

def loading : State := put (withBytes ready imageBytes) 0 loadCmd

/-- RUN_KERNEL of slot 0, which holds the image. -/
def runnable : State := put (withBytes (ready.setSlot 0 0 (some image)) []) 0 (cmd 2 0 0)

/-- The same, its kernel issued as the first of two. -/
def started : State := (runnable.markIssued ⟨0, 0, 0⟩ []).startKernel ⟨0, 0, 0⟩ image none

theorem test_image_size : imageBytes.length = 1024 := by decide +kernel

theorem meets_KernelsLoadAndIssue :
    (issues loading 0 0 (wantKind 1) (loading.pinsOf 0 [(0, 1024)]) loadCmd ∧
      (let t := loading.markIssued ⟨0, 0, 0⟩ []
       (t.cvaRead ⟨0, 0, 0⟩ 0 1024).1 = 0 ∧ anyPoison (t.cvaRead ⟨0, 0, 0⟩ 0 1024).2 = false ∧
         t.loadChecks 0 (unmark (t.cvaRead ⟨0, 0, 0⟩ 0 1024).2) (KImage.parse (unmark (t.cvaRead ⟨0, 0, 0⟩ 0 1024).2)) = 0)) ∧
    (let s := put (withBytes ready [1]) 0 loadCmd
     let t := s.markIssued ⟨0, 0, 0⟩ []
     issues s 0 0 (wantKind 1) (s.pinsOf 0 [(0, 1024)]) loadCmd ∧
       t.loadChecks 0 (unmark (t.cvaRead ⟨0, 0, 0⟩ 0 1024).2) (KImage.parse (unmark (t.cvaRead ⟨0, 0, 0⟩ 0 1024).2)) ≠ 0) ∧
    (let s := put loaded 0 loadCmd
     issues s 0 0 (wantKind 1) (s.pinsOf 0 [(0, 1024)]) loadCmd ∧ ((s.markIssued ⟨0, 0, 0⟩ []).cvaRead ⟨0, 0, 0⟩ 0 1024).1 ≠ 0) := by
  decide +kernel

/-- Whether RUN_KERNEL of a slot that holds an image issues, its wait for the counter as given, with the image's issue
status. -/
def runs (s : State) (img : KImage) (waits : Bool) : Bool × Nat :=
  let c := { cmd 2 0 0 with waitsCounter := waits }
  let s := put s 0 c
  let t := s.markIssued ⟨0, 0, 0⟩ (runPins 0 s c)
  (issues s 0 0 (fun d => wantKind 2 d && (d.waitsCounter == waits)) (runPins 0 s c) c && (s.slot 0 0 == some img),
    issueStatus (t.kernelAt ⟨0, 0, 0⟩ img none) (t.kernelBefore 0 none))

theorem meets_KernelsLoadAndIssue_run :
    (runs runnable image false = (true, 0) ∧ runs runnable image true = (true, 0) ∧ runnable.counterHeld image = false) ∧
    (let img := { image with counter := record + 2 ^ 320 + 2 ^ 192 }
     let s := runnable.setSlot 0 0 (some { img with counter := record + 2 ^ 192 })
     let t := runnable.setSlot 0 0 (some { img with counter := record + 2 ^ 320 })
     (runs s { img with counter := record + 2 ^ 192 } false).1 ∧ (runs t { img with counter := record + 2 ^ 320 } false).1 ∧
       ((runs s { img with counter := record + 2 ^ 192 } false).2 ≠ 0 ∨ (runs t { img with counter := record + 2 ^ 320 } false).2 ≠ 0)) ∧
    (let s : State := { runnable with tiles := started.tiles }
     (runs s image false).1 ∧ (runs s image true).1 ∧ s.counterHeld image = true) ∧
    (let s := put loaded 0 (cmd 2 0 0)
     s.slot 0 0 = none ∧ issues s 0 0 (fun d => wantKind 2 d && (d.waitsCounter == false)) (runPins 0 s (cmd 2 0 0)) (cmd 2 0 0)) := by
  decide +kernel

theorem test_kernel_starts : (started.kernelOf ⟨0, 0, 0⟩).map Prod.fst = some 5 ∧ (started.lap 74 5).mode = .serving ∧
    (started.lap 0 5).mode = .exhausted := by decide +kernel

/-- The image behind a chained window. -/
def chainedImage : KImage := { image with head := 1, window := 2 ^ 125 }

/-- A producer that runs, and a RUN_KERNEL of the chained image behind it. -/
def producing : State :=
  let s := started.setSlot 0 1 (some { chainedImage with prog0 := [2 ^ 60 + 6 * 2 ^ 52] })
  let q := s.ring 0 0
  s.setRing 0 0 { q with cmds := q.cmds ++ [{ cmd 2 (2 ^ 192) 0 with index := 1 }] }

theorem meets_KernelsLoadAndIssue_chained :
    let c := { cmd 2 (2 ^ 192) 0 with index := 1 }
    let img := { chainedImage with prog0 := [2 ^ 60 + 6 * 2 ^ 52] }
    producing.slot 0 1 = some img ∧ ((producing.ring 0 0).cmds.map fun d => (d.index, d.issued, d.finished)) = [(0, true, false), (1, false, false)] ∧
    (producing.ring 0 0).cmds[1]? = some c ∧ (producing.kernelOf ⟨0, 0, 0⟩).isSome ∧ wantKind 2 c ∧ producing.chainedSlot 0 c ∧
    producing.ringRules 0 0 c (runPins 0 producing c) ∧ producing.served 0 0 ∧ producing.rel.missing = [] ∧
    producing.counterHeld img = false := by decide +kernel

/-- The kernel started, with its core 0 of site 74 after some commands. -/
def after (l : List Instr) : State := l.foldl (fun s i => outState s (exec i s)) started

/-- A kernel whose tiles wait for arrival bits. -/
def gatedStart : State := started.startKernel ⟨0, 0, 0⟩ { image with head := 2, gate := 2 ^ 13 + 2 ^ 32 } none

/-- The kernel that counter 5 serves. -/
def kern (s : State) : Kernel := (s.kernel 5).getD ⟨⟨0, 0, 0⟩, image, [], none, false, 0, 0, 0, 0, 0, 0, 0, none, false, 0, [], [], []⟩

/-- Core 0 of site 74 as given, at the kernel of counter 5. -/
def coreAt (s : State) (c : Core) : State := s.setCore 74 0 c

/-- The core stands at counter 5's kernel and may run. -/
def standing (s : State) : Bool :=
  s.coreKernel (s.core 74 0) == some (5, kern s) && s.rankOf 74 == some 74 && s.coreRuns 74 0 && !s.sched.switching && !s.sched.halted

theorem meets_CoresClaimTiles :
    (0 < (kern started).tiles ∧ standing started ∧ started.claimReady 74 0 ∧
      started.findTile (kern started) 5 74 = (some (74, 0), false)) ∧
    (standing gatedStart ∧ gatedStart.claimReady 74 0 ∧ gatedStart.findTile (kern gatedStart) 5 74 = (none, true)) ∧
    (started.rankOf 0 = some 0 ∧ started.claimReady 0 0 ∧ started.findTile (kern started) 5 0 = (none, false)) ∧
    (started.serve (kern started) 74 (started.lap 74 5) (74 != 74) = .tile 0 ∧ (started.lap 74 5).retry = []) ∧
    started.serve (kern started) 74 (started.lap 74 5) (74 != 0) = .tile 0 ∧
    (let s := started.setLap 74 5 { started.lap 74 5 with retry := [0] }
     s.serve (kern s) 74 (s.lap 74 5) (74 != 74) = .tile 0 ∧ (s.lap 74 5).retry = 0 :: []) := by decide +kernel

theorem meets_CoresClaimTiles_wait :
    (let s := coreAt started { Core.empty with gateWait := true }
     standing s ∧ (s.core 74 0).gateWait ∧ s.findTile (kern s) 5 74 = (some (74, 0), false)) ∧
    (let s := coreAt gatedStart { Core.empty with gateWait := true }
     standing s ∧ (s.core 74 0).gateWait ∧ s.findTile (kern s) 5 74 = (none, true) ∧ s.producerCounter (kern s) = none) ∧
    (let s := coreAt started { Core.empty with stopped := true }
     standing s ∧ (s.core 74 0).stopped ∧ (s.core 74 0).passes = [] ∧ s.chainedTo 5 = none) ∧
    (let s := (coreAt started { Core.empty with kern := some 5, stopped := true }).setKernel 6 (some { kern started with
       cmd := ⟨0, 0, 1⟩, producer := some ⟨0, 0, 0⟩ })
     let q := s.ring 0 0
     let s := s.setRing 0 0 { q with cmds := q.cmds ++ [{ cmd 2 0 0 with index := 1, issued := true }] }
     standing s ∧ s.chainedTo 5 = some 6) := by decide +kernel

/-- A core's next word has an opcode, under the conditions of the core-word statements. -/
def wordReady (s : State) (op : Nat) : Bool :=
  s.coreKernel (s.core 74 0) == some (5, kern s) && s.coreRuns 74 0 &&
    (passFor (kern s).prog op none 0 (s.core 74 0).passes).isSome

/-- The kernel with a FENCE after its first `n` words, and the core after some commands. -/
def fenced (n wait : Nat) (l : List Instr) : State :=
  l.foldl (fun s i => outState s (exec i s))
    (started.setKernel 5 (some { kern started with prog := prog.take n ++ [7 * 2 ^ 60 + wait * 2 ^ 58] ++ prog.drop n }))

/-- The pass of core 0 of site 74, and the core with that pass changed. -/
def onlyPass (s : State) : Pass := (s.core 74 0).passes.getD 0 ((kern s).pass 5 74 0)
def withPass (s : State) (f : Core → Pass → Core × Pass) : State :=
  let x := f (s.core 74 0) (onlyPass s)
  s.setCore 74 0 { x.1 with passes := [x.2] }

/-- Whether a load finds its slabs clean, and whether the last load's slabs were the same. -/
def fillBad (s : State) (w : Nat) (isB : Bool) : Bool :=
  (s.fillSlabs (kern s) (onlyPass s) w isB (if isB then (s.core 74 0).ringB else (s.core 74 0).ringA).next 0
    (min (onlyPass s).kLen (ringSlots w (s.slabSize (kern s) w isB))) (s.core 74 0).sram).2
def sameKeys (s : State) (w : Nat) (isB : Bool) : Bool :=
  (List.range (onlyPass s).kLen).map ((kern s).slabKey (onlyPass s) w isB) ==
    (if isB then (s.core 74 0).ringB else (s.core 74 0).ringA).keys

/-- The kernel with reuse asked for by its loads. -/
def reusing : State :=
  started.setKernel 5 (some { kern started with prog := (prog.set 1 (nth prog 1 0 + 2 ^ 56)).set 2 (nth prog 2 0 + 2 ^ 56) })

theorem meets_CoreWordsRun_loads :
    let claimed := after [.claim 74 0]
    let poisoned := claimed.markLine (786432 * 74)
    let s3 := after [.claim 74 0, .loadA 74 0]
    let w := nth prog 1 0
    let v := nth prog 2 0
    (wordReady claimed 2 ∧ loadReuse w = false ∧ fillBad claimed w false = false) ∧
    (wordReady poisoned 2 ∧ fillBad poisoned w false = true) ∧
    (wordReady s3 3 ∧ loadReuse v = false ∧ fillBad s3 v true = false) ∧
    (let s := s3.markLine (786432 * 74 + 4)
     wordReady s 3 ∧ fillBad s v true = true) ∧
    (let s := outState reusing (exec (.claim 74 0) reusing)
     let s := withPass s fun c p => ({ c with
       ringA := { c.ringA with keys := (List.range p.kLen).map ((kern s).slabKey p (w + 2 ^ 56) false) }
       ringB := { c.ringB with keys := (List.range p.kLen).map ((kern s).slabKey p (v + 2 ^ 56) true) } }, p)
     let s3 := outState s (exec (.loadA 74 0) s)
     wordReady s 2 ∧ loadReuse (w + 2 ^ 56) = true ∧ sameKeys s (w + 2 ^ 56) false = true ∧
       wordReady s3 3 ∧ loadReuse (v + 2 ^ 56) = true ∧ sameKeys s3 (v + 2 ^ 56) true = true) := by decide +kernel

theorem meets_CoreWordsRun :
    let s4 := after [.claim 74 0, .loadA 74 0, .loadB 74 0]
    let bad := fun (s : State) =>
      let a := s.passSlabs (kern s) (onlyPass s) false (s.core 74 0).sram
      (a.2.2, (s.passSlabs (kern s) (onlyPass s) true a.2.1).2.2)
    (wordReady s4 4 ∧ (s4.core 74 0).toggleDue = false ∧ bad s4 = (false, false)) ∧
    (let s := (withPass s4 fun c p => (c, { p with inA := 0 })).markLine (786432 * 74)
     wordReady s 4 ∧ (s.core 74 0).toggleDue = false ∧ (bad s).1 = true) ∧
    (let s := withPass s4 fun c p => ({ c with toggleDue := true }, p)
     wordReady s 4 ∧ (s.core 74 0).toggleDue = true) ∧
    wordReady (after [.claim 74 0, .loadA 74 0, .loadB 74 0, .mma 74 0]) 5 ∧
    wordReady (fenced 1 0 [.claim 74 0]) 7 ∧
    (let s := fenced 2 2 [.claim 74 0, .loadA 74 0]
     wordReady s 7 ∧ loadsOpen (kern s).prog (s.core 74 0) = false) ∧
    (let s := withPass (fenced 2 2 [.claim 74 0, .loadA 74 0]) fun c p => (c, { p with inA := 0 })
     wordReady s 7 ∧ loadsOpen (kern s).prog (s.core 74 0) = true) ∧
    (let s := fenced 6 1 [.claim 74 0, .loadA 74 0, .loadB 74 0, .mma 74 0, .changeover 74 0 0]
     wordReady s 7 ∧ drainsOpen (kern s).prog (s.core 74 0) = true) := by
  decide +kernel

/-- The words up to the CHANGEOVER. -/
def changed : State := after [.claim 74 0, .loadA 74 0, .loadB 74 0, .mma 74 0, .changeover 74 0 0]

/-- The tile in the shadow. -/
def shadowed : State := outState changed (exec (.shadowCopy 74 0) changed)

/-- The DRAIN word with more bits. -/
def drainWith (s : State) (more : Nat) : State := s.setKernel 5 (some { kern s with prog := prog.set 5 (nth prog 5 0 + more) })

/-- A REDUCE of 4,096 entries from stream 0 runs, the stream bound. -/
def receiving (s : State) : State :=
  let c := { cmd 0x20 0 (1 + 2 ^ 274 + 4096 * 2 ^ 352 + 4096 * 2 ^ 384) with issued := true }
  let m : Message := ⟨⟨0, 2, 0⟩, 0, 1, 0, 4096, 4096, 0, [], [], 0, [], [], 0, false, 0, 0, false, 0, [], 0⟩
  ((((put s 2 c).setStream 0 { Stream.empty with bound := true }).setReg (streamBase 0) (1 + 2 ^ 16)).setGroup 0 0
    { Group.empty with mode := .active, msgs := [m] })

/-- Core 0's only pass, its next DRAIN word, and whether its vectors are poisoned and the word's stream takes the tile. -/
def draining (s : State) : Bool × Bool × Bool × Bool :=
  let k := kern s
  let p := onlyPass s
  let w := nth (drainsOf k.prog) p.drained 0
  (standing s && p.shadowed && p.ran && decide (p.drained < drainsIssued k.prog p),
    s.vectorsPoisoned k w p.rank p.tileM p.tileN, drainLink w, s.tileSendable k [w] p.tileM p.tileN p.tileB)

theorem meets_TilesDrainAndPost :
    (let s := changed.setCore 74 0 { Core.empty with toggleDue := true }
     standing s ∧ (s.core 74 0).toggleDue = true ∧ drainFull (s.core 74 0) = false) ∧
    (standing changed ∧ (changed.core 74 0).toggleDue = false ∧
      ((changed.core 74 0).passes.find? (fun p => p.changed && !p.shadowed)).isSome ∧ shadowFree (kern changed).prog (changed.core 74 0) ∧
      (changed.core 74 0).passes.all fun p => decide (0 < drainsIssued (kern changed).prog p)) := by decide +kernel

theorem meets_TilesDrainAndPost_drain :
    ((draining shadowed).1 ∧ (draining shadowed).2.1 = false ∧ (draining shadowed).2.2.1 = false) ∧
    (let s := (drainWith shadowed (2 ^ 49)).markLine (786432 * 74)
     (draining s).1 ∧ (draining s).2.1 = true) ∧
    draining (drainWith shadowed (2 ^ 56)) = (true, false, true, false) ∧
    draining (receiving (drainWith shadowed (2 ^ 56))) = (true, false, true, true) := by decide +kernel

theorem meets_TilesDrainAndPost_post :
    let s := outState shadowed (exec (.drain 74 0) shadowed)
    let u := withPass s fun c p => (c, { p with sent := [(0, [(0, 0)])] })
    (standing s ∧ (s.core 74 0).passes.length = 1 ∧ (onlyPass s).shadowed ∧ (onlyPass s).posted = false ∧
      (drainsOf (kern s).prog).length ≤ (onlyPass s).drained ∧ (onlyPass s).sent = [] ∧
      (s.lap 74 5).held.any (fun h => h.claim == 0 && h.site == 74 && h.core == 0)) ∧
    (standing u ∧ u.tileRoom 0 [(0, 0)] = false ∧ (receiving u).tileRoom 0 [(0, 0)] = true) := by decide +kernel

/-- A kernel of two partials, both posted, at tile 0. -/
def splitKernel : Kernel :=
  { kern started with
    boundK := 64
    posted := [(0, 0), (0, 1)]
    image := { image with counter := record + 32 * 2 ^ 256 + 2 ^ 448 * (6 * 2 ^ 60 + 3 * 2 ^ 57) } }

/-- A windowed kernel of eight positions with 32 channels each, its source at address 0. -/
def windowKernel : Kernel :=
  { kern started with inD := 1, inH := 1, inW := 8, image := { image with head := 1, window := 32 * 2 ^ 232 + 64 * 2 ^ 336 } }

/-- Whether the tile's sum may be taken, with what its operands and its stream say. -/
def summing (s : State) (k : Kernel) : Bool × Bool × Bool :=
  let s := s.setKernel 5 (some k)
  let rd := recReduce k.image.counter
  (k.split && decide (0 < k.tiles) && k.parts == 2 && k.summed == [] && !k.cancelled && s.holds 0 &&
      s.tileSendable k [rd] (k.place 0).1 (k.place 0).2.1 (k.place 0).2.2,
    s.partsPoisoned k (k.owner 0) 0 0 0 8 8 || s.vectorsPoisoned k rd (k.owner 0) 0 0, drainLink rd)

theorem meets_FieldsFinishKernels :
    summing started splitKernel = (true, false, false) ∧
    summing (started.markLine (786432 * 74 + 8)) splitKernel = (true, true, false) ∧
    summing (receiving started) { splitKernel with image := { splitKernel.image with
      counter := splitKernel.image.counter + 2 ^ 448 * 2 ^ 56 } } = (true, false, true) ∧
    (let s := started.setKernel 5 (some windowKernel)
     windowKernel.nextSlice 74 = some 0 ∧ windowKernel.image.windowed ∧ windowKernel.cancelled = false ∧
       s.holds windowKernel.cmd.cx ∧ s.sliceReady windowKernel 0 ∧ (s.sliceSource windowKernel 0).1 = 0) ∧
    (let s : State := { started.setKernel 5 (some windowKernel) with tiers := State.reset.tiers }
     s.holds windowKernel.cmd.cx ∧ s.sliceReady windowKernel 0 ∧ (s.sliceSource windowKernel 0).1 ≠ 0) := by decide +kernel

/-- A command of the command ring that runs, with the ranks that have arrived. -/
def arriving (s : State) (c : Cmd) (l : List Nat) : State := put s 0 { c with issued := true, worked := true, arrived := l }

theorem meets_FieldsFinishKernels_hurdle :
    (let s := arriving started (cmd 2 0 0) []
     (s.hurdleCmd 0 false).map Prod.fst = some ⟨0, 0, 0⟩ ∧ s.mayArrive ⟨0, 0, 0⟩ (cmd 2 0 0) 0 ∧ (s.kernelOf ⟨0, 0, 0⟩).isSome) ∧
    (let s := arriving loaded (cmd 3 0 0) (List.range 74)
     (s.hurdleCmd 0 false).map Prod.snd = some { cmd 3 0 0 with issued := true, worked := true, arrived := List.range 74 } ∧
       s.mayArrive ⟨0, 0, 0⟩ { cmd 3 0 0 with issued := true, worked := true, arrived := List.range 74 } 74 ∧
       (List.range 74).contains 74 = false ∧ (List.range 74).length = 74 ∧ s.kernelOf ⟨0, 0, 0⟩ = none ∧
       (s.modCmd ⟨0, 0, 0⟩ fun d => { d with arrived := sput d.arrived 74 }).writesDue ⟨0, 0, 0⟩ = false) ∧
    (let s := arriving started (cmd 2 0 0) (List.range 74)
     (s.hurdleCmd 0 false).map Prod.snd = some { cmd 2 0 0 with issued := true, worked := true, arrived := List.range 74 } ∧
       s.mayArrive ⟨0, 0, 0⟩ (cmd 2 0 0) 0 ∧ (s.kernelOf ⟨0, 0, 0⟩).isSome) ∧
    (let s : State := { loaded with tiers := { loaded.tiers with heldWrites := [⟨0, 0, 0, false, ⟨0, 0, 0⟩⟩] } }
     let s := arriving s (cmd 3 0 0) (List.range 74)
     s.kernelOf ⟨0, 0, 0⟩ = none ∧ s.mayArrive ⟨0, 0, 0⟩ { cmd 3 0 0 with issued := true, worked := true } 74 ∧
       (s.modCmd ⟨0, 0, 0⟩ fun d => { d with arrived := sput d.arrived 74 }).writesDue ⟨0, 0, 0⟩ = true) := by decide +kernel

theorem meets_CoresComeAndGo :
    ((State.reset.coreSite 80 3999).use = .inService ∧ (State.reset.coreSite 80 3999).lostAt = none) ∧
    ((after [.claim 74 0]).core 74 0).passes ≠ [] ∧
    (let s := outState State.reset (exec (.coreLost 0 0) State.reset)
     (List.range 4096).find? (fun k => (s.coreSite 0 k).use == .spare) = some 4000 ∧ s.coresInService 0 < 4000 ∧
       (s.coreSite 0 0).use = .lost) := by decide +kernel

theorem meets_StepBoundariesApply :
    (let c := { cmd 0 (2 ^ 9) 0 with issued := true, finished := true }
     (put loaded 0 c).headCmd 0 0 (fun d => (d.finished || (d.refusal != 0 && ((put loaded 0 c).ctx 0).mode == .ready)) &&
       (put loaded 0 c).boundaryDue 0 d) = some c) ∧
    (loaded.setCset 0 { CommitSet.empty with mode := .hold }).setClosed 0 = false := by decide +kernel

/-! ### Engines and POOL -/

/-- An engine command over `n` rows of four FP32 elements, of at most `m`, from line 0 to line 100. -/
def rowsCmd (op n m : Nat) : Cmd :=
  cmd 3 0 (op + 2 ^ 124 * 100 + 2 ^ 160 * 128 + 2 ^ 224 * 128 + 2 ^ 288 * n + 2 ^ 320 * 4 + 2 ^ 352 * 4 + 2 ^ 416 * m)

theorem meets_EngineCommandsRunRows :
    (∀ e ∈ engineRows, issues (put (withBytes ready []) 0 (rowsCmd e.2.1 1 0)) 0 0 (wantEngine e.2.1) [] (rowsCmd e.2.1 1 0) ∧
      egOp (rowsCmd e.2.1 1 0).ext = e.2.1) ∧
    (∀ e ∈ engineRows, issues (put (withBytes ready []) 0 (rowsCmd 0x3FF 1 0)) 0 0 (wantEngine e.2.1) [] (rowsCmd 0x3FF 1 0)) ∧
    (opNamed (egOp (rowsCmd 0x3FF 1 0).ext) = false ∧ opNamed (egOp (rowsCmd 0x110 1 0).ext) = false) ∧
    (∀ e ∈ engineRows, (egMaxRows (rowsCmd e.2.1 1 0).ext < 1 ∧ 0 ≤ egMaxRows (rowsCmd e.2.1 0 0).ext)) ∧
    (∀ e ∈ engineRows.take 8,
      ((rowParts 1).foldl (runRow e.2.2 ⟨0, 0, 0⟩ 0 (rowsCmd e.2.1 1 1).ext) (withBytes ready [], false)).2 = false ∧
      ((rowParts 1).foldl (runRow e.2.2 ⟨0, 0, 0⟩ 0 (rowsCmd e.2.1 1 1).ext)
        (State.markLine (withBytes ready []) (786432 * 74), false)).2 = true) := by decide +kernel

theorem meets_EngineRowsStayInPlace :
    ∀ e ∈ engineRows.take 1, let w := e.2.2 ready 0 (rowsCmd e.2.1 1 1).ext 74 0
    rowParts 75 ≠ [] ∧ (∀ e ∈ w.writes, e.1 + e.2.length ≤ 100663296) ∧ w.reads.any (fun r => ready.infPoisoned r.1 r.2.1 r.2.2) = false ∧
      w.reads.any (fun r => (ready.markLine (786432 * 74)).infPoisoned r.1 r.2.1 r.2.2) = true := by decide +kernel

/-- POOL over one position of one channel of BF16, staged at line 0. -/
def poolCmd : Cmd := cmd 3 0 (0x210 + 2 ^ 48 + 2 ^ 60 + 2 ^ 124 * 100 + 2 ^ 224 * 128 + 2 ^ 288 + 2 ^ 320 + 2 ^ 352 + 2 ^ 416)

def poolWindow : Line :=
  BitVec.ofNat 512 (2 ^ 232 + 2 ^ 248 + 2 * 2 ^ 336 + 2 ^ 368 + 2 ^ 384 + 2 ^ 400 + 2 ^ 416 + 2 ^ 448 + 2 ^ 480)

/-- POOL of a window and a command as the statement reads it: whether it issues, and its statuses at load and at issue. -/
def pooling (win : Line) (c : Cmd) : Bool × Nat × Nat :=
  let s := put (withBytes ready []) 0 c
  let t := s.markIssued ⟨0, 0, 0⟩ (poolPins win.toNat 0 s c)
  let p : PoolAt := ⟨win.toNat, egFmtA c.ext, t.shape 0 (winSrcD win.toNat), t.shape 0 (winSrcH win.toNat),
    t.shape 0 (winSrcW win.toNat), t.shape 0 (egRows c.ext)⟩
  (issues s 0 0 (wantEngine 0x210) (poolPins win.toNat 0 s c) c && egOp c.ext == 0x210, t.poolLoadStatus 0 c.ext p,
    poolIssueStatus p ⟨0, 0, 0⟩ (t.kernelBefore 0 none))

theorem meets_PoolStagesAndRuns :
    pooling poolWindow poolCmd = (true, 0, 0) ∧
    ((pooling 0 poolCmd).1 ∧ (pooling 0 poolCmd).2.1 ≠ 0) ∧
    (let c := { poolCmd with ext := poolCmd.ext + BitVec.ofNat 512 (2 ^ 288) }
     (pooling poolWindow c).1 ∧ (pooling poolWindow c).2.1 = 0 ∧ egMaxRows c.ext < (withBytes ready []).shape 0 (egRows c.ext)) ∧
    (let w := poolWindow + BitVec.ofNat 512 (2 ^ 416)
     (pooling w poolCmd).1 ∧ (pooling w poolCmd).2.1 = 0 ∧ (pooling w poolCmd).2.2 ≠ 0) := by decide +kernel

/-- The stripes staged, then the rows run, from a state. -/
def pooled (s : State) : Nat × Bool :=
  let p : PoolAt := ⟨poolWindow.toNat, 1, 1, 1, 1, 1⟩
  let u := ((List.range 75).flatMap fun r =>
    (List.range ((p.stripe r).2 - (p.stripe r).1)).map fun i => (r, (p.stripe r).1 + i)).foldl
      (poolStage p (p.source ⟨0, 0, 0⟩ none)) (s.windowStart p.stripe, 0)
  (u.2, ((rowParts 1).foldl (runRow (poolRow p) ⟨0, 0, 0⟩ (s.cxSeed 0) poolCmd.ext) (u.1, false)).2)

theorem meets_PoolStagesAndRuns_rows :
    pooled (withBytes ready []) = (0, false) ∧ (pooled ready).1 ≠ 0 ∧
    pooled (State.poisonWord (withBytes ready []) (wordKey 0 0)) = (0, true) := by decide +kernel

/-! ### Tiers, pages and attention -/

/-- A tier command of an op over one row of 128 bytes on rank 0, from address 0 to line 0 or address 4096. -/
def tierCmd (op more : Nat) : Cmd :=
  cmd 0x10 0 (op + 2 ^ 188 + 2 ^ 196 + 128 * 2 ^ 312 + 2 ^ 344 + 4096 * 2 ^ 416 + more)

/-- A weight partition of 1 GiB and a package window of one page. -/
def windowed : State :=
  let s := withBytes ready []
  { s with tiers := { s.tiers with partition := 1 }, package := some ⟨2 ^ 304, [], [], [], [], [2 ^ 80 + 2 ^ 96 + 1024 * 2 ^ 20]⟩ }

def tierPut (s : State) (c : Cmd) : State := put s 1 c

def tierOk (s : State) (op : Nat) (c : Cmd) : Bool :=
  let s := tierPut s c
  let t := s.markIssued ⟨0, 1, 0⟩ (tierPins 0 s c)
  issues s 0 1 (wantTier op) (tierPins 0 s c) c && !t.tierBad c.ext && (op > 2 || !t.tierLinesBad 0 c.ext) && t.ownerCx 0

def wmapCmd : Cmd := cmd 0x10 0 (6 + 2 ^ 196 + 2 ^ 47 * 2 ^ 464)
def wloadCmd : Cmd := cmd 0x10 0 (7 + 2 ^ 188 + 53248 * 2 ^ 312 + 2 ^ 344)

theorem meets_TierCommandsMove :
    let w := windowed
    let id : CmdId := ⟨0, 1, 0⟩
    (tierOk w 1 (tierCmd 1 0) ∧ ((tierParts (tierCmd 1 0).ext).foldl (fillRow id (tierCmd 1 0).ext) (w, 0)).2 = 0) ∧
    (tierOk w 2 (tierCmd 2 0) ∧ (∀ p ∈ tierParts (tierCmd 2 0).ext, w.writeWaits id (tierVa (tierCmd 2 0).ext 0 p) 128 = false) ∧
      ((tierParts (tierCmd 2 0).ext).foldl (spillRow id (tierCmd 2 0).ext) (w, 0)).2 = 0) ∧
    (tierOk w 3 (tierCmd 3 0) ∧ ((tierParts (tierCmd 3 0).ext).foldl (copyRow id (tierCmd 3 0).ext) (w, 0)).2 = 0) ∧
    (tierOk w 4 (tierCmd 4 0) ∧ w.inPackageWindow 0 1 = false ∧ w.inPackageWindow (2 ^ 47) 1 = true) ∧
    tierOk w 5 (tierCmd 5 0) ∧ (tierOk w 6 wmapCmd ∧ tierB wmapCmd.ext / 2097152 + tierPages wmapCmd.ext ≤ 65 * w.weightGib * 512) ∧
    (tierOk w 7 wloadCmd ∧ tierB wloadCmd.ext % 53248 = 0 ∧ (tierRows wloadCmd.ext * tierBytes wloadCmd.ext) % 53248 = 0 ∧
      tierB wloadCmd.ext + 53248 ≤ 1073741824 * (65 * w.weightGib) ∧ tierOne wloadCmd.ext = true ∧
      (∀ d ∈ ((tierPut w wloadCmd).markIssued id []).outstanding, d = id)) ∧
    (let c := tierCmd 1 (2 ^ 186)
     issues (tierPut w c) 0 1 (wantTier 1) (tierPins 0 (tierPut w c) c) c ∧ w.tierBad c.ext) ∧
    (let c := tierCmd 2 0
     issues (tierPut loaded c) 0 1 (wantTier 2) (tierPins 0 (tierPut loaded c) c) c ∧ loaded.tierBad c.ext = false ∧
       loaded.tierLinesBad 0 c.ext) := by decide +kernel

/-- The bytes of a whole stripe are read. -/
theorem meets_TierCommandsMove_wload : (wloadRead windowed ⟨0, 1, 0⟩ { wloadCmd with ext := BitVec.ofNat 512 (128 * 2 ^ 312 + 2 ^ 344) }.ext).1 = 0 := by
  decide +kernel

theorem meets_TierUnitsKeepCount :
    let x := (tierCmd 4 0).ext
    let fixed := (tierCmd 4 (2 ^ 185)).ext
    let bare := (ready.setReg 0x310C 1).setReg 0x3100 32
    (windowed.cvaRead ⟨0, 1, 0⟩ (tierVa x (tierA x) (0, 0)) (tierBytes x)).1 = 0 ∧
    (windowed.space 0 (tierPage x 0) = .table 0 ∧ bit (windowed.entry (entryKey 0 (tierPage x 0))) 63 = true) ∧
    (bare.space 0 (tierPage x 0) = .table 0 ∧ bit (bare.entry (entryKey 0 (tierPage x 0))) 63 = false ∧ tierPlacement x = 0) ∧
    (tierPlacement fixed ≠ 0 ∧ bare.quotaOk 0 32 = true ∧ (bare.takePage ((tierRank fixed + 0) % 75)).isSome) ∧
    ready.space 0 (tierPage x 0) = .outside ∧ (State.reset.tiers.heatReads.map Prod.fst).Nodup := by decide +kernel

theorem meets_TwoMissingUnitsAreFixed :
    let d : List Byte := List.replicate 13 0
    d.length = 13 ∧ (∀ k, k < 13 → k ≠ 0 → k ≠ 12 → nth d k 0 = nth (d.set 0 1) k 0) ∧ parityP d ≠ parityP (d.set 0 1) ∧
      parityQ d ≠ parityQ (d.set 12 255) := by decide +kernel

/-- Sequence 0 of context 0 with one layer of two pages from address 2^40 on. -/
def sequenced : State :=
  State.setReg (State.setReg (State.setReg loaded (seqBase 0) 256) (seqBase 0 + 0xC) 2) (seqBase 0 + 8) 256

theorem meets_SequencesEnableAndDisable :
    (permits sequenced host (seqBase 0) 0x101 ∧ flag (0x101 : Word) 0 = true ∧ (sequenced.seq 0).pinned = [] ∧
      (sequenced.seq 0).enabled = false ∧ (sequenced.setReg (seqBase 0) (sequenced.clampReg (seqBase 0) 0x101)).regionBad 0 = false) ∧
    (permits loaded host (seqBase 7) 1 ∧ (loaded.setReg (seqBase 7) (loaded.clampReg (seqBase 7) 1)).regionBad 7 = true) ∧
    ((loaded.setSeq 0 { Sequence.empty with pinned := [3] }).seq 0).pinned ≠ [] ∧
    (flag (0x100 : Word) 0 = false ∧ ((sequenced.setSeq 0 { Sequence.empty with enabled := true }).seq 0).enabled = true) := by decide +kernel

/-- Both sequences 0 and 1 of one page; page 0 of sequence 1 names frame 150. -/
def paged : State :=
  let s := State.setReg (State.setReg sequenced (seqBase 1) 256) (seqBase 1 + 0xC) 1
  let s := (s.setSeq 0 { Sequence.empty with enabled := true }).setSeq 1 { Sequence.empty with enabled := true, frames := 1 }
  (s.setKvEntry 1 0 (kvWord true 150)).setShare 150 ⟨1, 0⟩

def shareCmd : Cmd := cmd 0x05 (2 * 2 ^ 192 + 2 ^ 320 + 2 ^ 352 + 2 ^ 381) 0
def freeCmd : Cmd := cmd 0x05 (2 ^ 192 + 2 ^ 288 + 2 ^ 320 + 2 ^ 352) 0

theorem meets_PagesAreSharedAndFreed :
    (issues (put paged 0 shareCmd) 0 0 (wantPage 2) (pagePins paged shareCmd) shareCmd ∧
      paged.cxPort (paged.seqCx (pageSrcSeq shareCmd.desc)) = paged.cxPort 0) ∧
    (let s := paged.setReg (seqBase 1) (256 + 16)
     issues (put s 0 shareCmd) 0 0 (wantPage 2) (pagePins s shareCmd) shareCmd ∧ s.cxPort (s.seqCx 1) ≠ s.cxPort 0) ∧
    (issues (put paged 0 freeCmd) 0 0 (wantPage 1) (pagePins paged freeCmd) freeCmd ∧
      (freePages 1 0 ((pageList freeCmd.desc).drop 0) freeCmd.desc (paged, 0)).2 = 1) ∧
    (paged.kv.updates = [] ∧ paged.pageIndex 0 0 0 = some 0 ∧ paged.pageIndex 1 0 0 = some 0 ∧
      kvValid (paged.kvEntry 0 0) = false ∧ kvValid (paged.kvEntry 1 0) = true ∧ kvFreeing (paged.kvEntry 1 0) = false ∧
      (paged.shareOf (kvFrame (paged.kvEntry 1 0))).map ≠ 0xFFFF ∧ paged.quotaOk (paged.seqCx 0) paged.frameUnits = true) ∧
    (let s := (paged.setKvEntry 1 0 (kvWord true 150 + 2 ^ 61)).setSeq 1 { Sequence.empty with reclaim := [0] }
     (s.seq 1).reclaim.find? (fun i => !before (s.seqLow 1) (kvFree (s.kvEntry 1 i))) = some 0) ∧
    (let s := (paged.setKvEntry 1 0 (kvWord true 150 + 2 ^ 61 + 5 * 2 ^ 21)).setSeq 1 { Sequence.empty with reclaim := [0] }
     ∀ i ∈ (s.seq 1).reclaim, before (s.seqLow 1) (kvFree (s.kvEntry 1 i)) = true) ∧
    (let s : State := { paged with kv := { paged.kv with updates := [⟨1, 1, 0⟩, ⟨75, 1, 0⟩] } }
     s.kv.updates = [⟨1, 1, 0⟩] ++ (⟨75, 1, 0⟩ : ShareUpdate) :: [] ∧ (∀ v ∈ [(⟨1, 1, 0⟩ : ShareUpdate)], v.frame % 75 ≠ 0) ∧ 75 % 75 = 0) ∧
    (let s : State := { paged with kv := { paged.kv with cows := [⟨1, 0, 150, 225, ⟨0, 0, 0⟩, []⟩] } }
     (s.cowOn 1 0).isSome) := by decide +kernel

/-- A FREE that its full reclaim queue stops. -/
theorem meets_PagesAreSharedAndFreed_waits :
    let s := paged.setSeq 1 { Sequence.empty with enabled := true, frames := 1, reclaim := List.replicate 4096 9, pinned := [0] }
    (freePages 1 0 ((pageList freeCmd.desc).drop 0) freeCmd.desc (s, 0)).2 = 0 := by decide +kernel

/-- ATTENTION over one query block and one head of 64 BF16 values, on sequence 0. -/
def attnExt (blocks : Nat) : Nat :=
  4096 * 2 ^ 464 + 256 * 2 ^ 336 + blocks * 2 ^ 272 + 2 ^ 256 + 100 * 2 ^ 236 + 128 * 2 ^ 204 + 200 * 2 ^ 184 + 2 ^ 137 +
    8 * 2 ^ 130 + 8 * 2 ^ 121 + 2 ^ 117 + 2 ^ 113 + 2 ^ 95 + 7 * 2 ^ 87

def attnCmd (blocks : Nat) : Cmd := cmd 0x04 0 (attnExt blocks)

/-- Context 0 with a page of memory and sequence 0 of one layer. -/
def attended : State := State.setReg (withBytes ready []) (seqBase 0) 256

theorem meets_AttentionFormsAndMerges :
    let at_ := fun (s : State) (c : Cmd) => issues (put s 0 c) 0 0 (fun d => wantKind 0x04 d && (put s 0 c).attnFree d)
      (attnPins 0 (put s 0 c) c) c
    (at_ attended (attnCmd 2) ∧ atMaxBlocks (attnCmd 2).ext < attended.shape 0 (atBlocks (attnCmd 2).ext)) ∧
    (at_ attended (attnCmd 1) ∧ attended.shape 0 (atBlocks (attnCmd 1).ext) = 1 ∧ 0 < atHeads (attnCmd 1).ext ∧
      atMaxBlocks (attnCmd 1).ext = 1 ∧
      (∀ q ∈ atSeqs (attnCmd 1).ext, attended.seqLayers q = 1 ∨ atLayer (attnCmd 1).ext < attended.seqLayers q)) ∧
    (at_ attended (attnCmd 0) ∧ attended.shape 0 (atBlocks (attnCmd 0).ext) = 0) ∧
    (let s := attended.setReg (seqBase 0) 0
     at_ s (attnCmd 1) ∧ ∃ q ∈ atSeqs (attnCmd 1).ext, s.seqLayers q ≠ 1 ∧ s.seqLayers q ≤ atLayer (attnCmd 1).ext) := by
  decide +kernel

/-- A claim of the running command that no core holds, its spans formed as given. -/
def claim (formed : List Nat) : AttnClaim := ⟨⟨0, 0, 0⟩, 0, 1, List.replicate 8 0, false, formed, false⟩

/-- The running command with that claim, its span row naming `n` spans of sequence `q`, the first with page 0 or none. -/
def spanning (n q pages : Nat) (formed : List Nat) : State :=
  let s := put (attended.infWrite 74 12800 (toBytes 32 (n + 2 ^ 64) ++ toBytes 32 (16 * q + pages))) 0 { attnCmd 1 with issued := true }
  { s with attn := ⟨[claim formed], []⟩ }

/-- The state in which the claim is held, where a core can take it. -/
def taken (s : State) (a : AttnClaim) : State := (s.attnTake a (attnCmd 1)).getD State.reset

/-- The claim held by core 0 of the rank that owns it. -/
def holding (s : State) : State := taken s (claim [])

theorem meets_AttentionFormsAndMerges_claims :
    let s := spanning 1 0 0 []
    let c := { attnCmd 1 with issued := true }
    let r := claimRank (attnCount c (claim [])) 0
    (s.attnClaim 0 0 = some (claim [], c) ∧ s.holds 0 = true ∧ (claim []).merged = false) ∧
    ((s.lap r (attnIndex c)).held = [] ∧ (s.attnCore r).isSome ∧ (s.attnTake (claim []) c).isSome) ∧
    ((holding s).lap r (attnIndex c)).held.any (fun h => h.claim == 0) = true ∧
    (let t := iter 75 (fun n t => t.setSite n { t.site n with rank := none }) s
     t.attnCore r = none ∧ t.attnTake (claim []) c = none) := by decide +kernel

theorem meets_AttentionFormsAndMerges_spans :
    let x := (attnCmd 1).ext
    let form := fun (s : State) => (taken s (claim [])).formStates (claim []) x 0
    (0 < (spanning 1 0 0 []).spanCount x (claim []) ∧
      bit (atMask x) ((taken (spanning 1 0 0 []) (claim [])).spanAt x (claim []) 0).1 = true ∧
      (form (spanning 1 0 0 [])).1 = 0 ∧ (form (spanning 1 0 0 [])).2.1 = false) ∧
    bit (atMask x) ((taken (spanning 1 1 0 []) (claim [])).spanAt x (claim []) 0).1 = false ∧
    (form { spanning 1 0 0 [] with tiers := State.reset.tiers }).1 ≠ 0 ∧
    (form (State.poisonWord (spanning 1 0 0 []) (wordKey 0 0))).2.1 = true := by decide +kernel

theorem meets_AttentionFormsAndMerges_merge :
    let x := (attnCmd 1).ext
    let b := claim [0]
    let s := spanning 1 0 0 [0]
    (s.spanCount x b ≤ b.formed.length ∧ (taken s b).claimSound x b = true ∧ s.spanValid x b = 1 ∧
      s.writeWaits ⟨0, 0, 0⟩ (atOutAt x 0 0 0) 256 = false ∧ s.writeWaits ⟨0, 0, 0⟩ (atLseAt x 0 0 0) 4 = false ∧
      ((List.range 1).foldl (State.writeRow x b 74) (taken s b, 0)).2 = 0) ∧
    ((List.range 1).foldl (State.writeRow x b 74) (taken { s with tiers := State.reset.tiers } b, 0)).2 ≠ 0 ∧
    (taken (spanning 1 1 0 [0]) b).claimSound x b = false := by decide +kernel

/-! ### Stacks and links -/

/-- A stack of rank 0 with the fields given, in a quiet leg of 10 µs. -/
def stacked (k : Stack) : State := State.setStack ((ready.setReg 0x400000 1).setReg 0x400100 (3 * 2 ^ 17 + 10)) 0 k

theorem meets_ChannelsAreKeptInService :
    (let s := stacked Stack.empty
     (s.stack 0).mode ≠ .critical ∧ (s.stack 0).retraining.contains 5 = false ∧ s.groupRetrains 0 5 = false ∧
       (s.siteOf 0).isSome ∧ s.retrainSlot 0 5 = true ∧ ready.retrainSlot 0 5 = false ∧ s.activationDue = false) ∧
    (let k := { Stack.empty with retraining := [5], failed := [(5, 2)] }
     (stacked k).stack 0 = k ∧ k.retraining.contains 5 = true ∧ tget k.failed 5 0 = 2 ∧ k.degraded.contains 5 = false ∧
       tget k.failed 6 0 ≠ 2) ∧
    ({ Stack.empty with degraded := [5] }.degraded.contains 5 = true ∧ ready.siteOf 0 = some 0) ∧
    (Stack.empty.repair = none ∧ Stack.empty.spares = [64, 65, 66, 67, 68, 69, 70, 71]) ∧
    (let k := { Stack.empty with retired := [64, 65, 66, 67, 68, 69, 70, 71] }
     k.repair = none ∧ k.spares = []) ∧
    (let k := { Stack.empty with repair := some (5, 64) }
     k.repair = some (5, 64) ∧ k.repairsDue = []) ∧
    (windowed.isWeight (stackKey 0 (402653183 * 256)) = true ∧ ready.isWeight (stackKey 0 0) = false) := by
  decide +kernel

theorem meets_ChannelsAreKeptInService_patrol :
    (ready.storePoisoned (wordKey 0 0) = false ∧ ready.isWeight (wordKey 0 0) = false ∧
      windowed.isWeight (wordKey 0 (402653183 * 256)) = true ∧ windowed.storePoisoned (wordKey 0 (402653183 * 256)) = false ∧
      State.storePoisoned { ready with memory := { ready.memory with poisonWords := [0] } } (wordKey 0 0) = true) ∧
    (let recent := fun (k : Stack) => ((channelOf 0, ready.module.lifeSeconds) ::
       k.errors.filter fun e => decide (ready.module.lifeSeconds < e.2 + 86400)).filter fun e => e.1 == channelOf 0
     (recent Stack.empty).length ≤ 4096 ∧
       4096 < (recent { Stack.empty with errors := List.replicate 4096 (channelOf 0, 0) }).length) := by
  decide +kernel

theorem meets_TemperaturesAreActedOn :
    ready.module.holdHot = false ∧ ready.module.railsOn = true ∧ (ready.siteOf 0).isSome ∧ (ready.site 0).use = .active ∧
    stackNext .normal 60 = .normal ∧ stackNext .normal 90 = .hot ∧ (ready.stack 0).mode = .normal ∧
    ((stacked { Stack.empty with mode := .critical }).stack 0).mode = .critical ∧
    ((ready.site 0).steps < 4 ∧ 10 ≤ (ready.site 0).sinceStep ∧ (ready.site 0).stopped = false) ∧
    (let x := { ready.site 0 with steps := 1, coolSamples := 99 }
     (ready.setSite 0 x).site 0 = x ∧ 99 ≤ x.coolSamples ∧ 0 < x.steps) := by decide +kernel

/-- Link 3 of module 5, enabled, as given. -/
def linked (l : Link) : State := ((ready.setReg 0x200000 5).setReg (linkBase 3) 1).setLink 3 l

/-- A link in service with peer 6. -/
def upLink : Link := { Link.fresh .up 0 with txLanes := List.range 8, rxLanes := List.range 8, peer := some (6, 0), credits := fullCredits }

theorem meets_LinksTrain :
    (let s := linked (Link.fresh .disabled 0)
     bit (s.reg (linkBase 3)) 0 = true ∧ bit (s.reg (linkBase 3)) 1 = false ∧ s.moduleId ≠ 0xFFF ∧ (s.link 3).mode = .disabled) ∧
    (bit ((linked upLink).reg (linkBase 3)) 0 = true ∧ bit ((linked upLink).reg (linkBase 3)) 1 = false ∧
      (linked upLink).moduleId ≠ 0xFFF ∧ ((linked upLink).link 3).mode = .up ∧ (linked upLink).linkUp 3 = true) ∧
    (let l := { Link.fresh .training 1 with waiting := true }
     ((linked l).link 3).mode = .training ∧ ((linked l).link 3).waiting = true) ∧
    (let l := Link.fresh .training 0
     l.mode = .training ∧ l.waiting = false ∧ 4 ≤ (lanesOf 0x0F).length ∧ 8 ≤ (lanesOf 0x3FF).length ∧ (lanesOf 0x07).length < 4 ∧
       (6 : BitVec 12).toNat ≠ (linked l).moduleId ∧ (6 : BitVec 12).toNat ≠ 0xFFF ∧ (5 : BitVec 12).toNat = (linked l).moduleId ∧
       l.failures < 2 ∧ 2 ≤ (Link.fresh .training 2).failures) ∧
    (upLink.txLanes.length = 8 ∧ upLink.txLanes.contains 4 = true ∧ upLink.txSpares = 8 :: [9] ∧
      upLink.rxLanes.length = 8 ∧ upLink.rxLanes.contains 4 = true ∧ upLink.rxSpares = 8 :: [9] ∧
      { upLink with txSpares := [] }.txSpares = [] ∧ { upLink with rxSpares := [] }.rxSpares = [] ∧ upLink.txLanes.Nodup) ∧
    (ratioOver (List.replicate 10 2241) = true ∧ ratioOver (List.replicate 9 2241 ++ [2240]) = false) := by decide +kernel

/-- A baton as its sender seals it. -/
def baton (kind seq dst last tag offset detail : Nat) : BatonWord :=
  sealBaton (BatonParts.word ⟨kind, 0, last == 1, 0, 48, detail, dst, 6, tag, offset, 0, []⟩) 0 0 4095 seq

/-- A MGMT baton waits in a replay buffer as number `n`. -/
def held (n : Nat) : Replay := ⟨n, baton 8 n 6 1 0 0 0, 0⟩

theorem meets_BatonsKeepTheirSequence :
    (let b := baton 7 0 6 1 0 0 0
     let l := { upLink with sprint := [b] }
     (linked l).linkFlows 3 = true ∧ l.pick 1 = .sprint b) ∧
    (let b := baton 8 0 6 1 0 0 0
     ({ upLink with mgmt := [(b, 0)] }).pick 1 = .mgmt b) ∧
    (let b := baton 5 0 6 1 0 0 0
     ({ upLink with collective := [b] }).pick 1 = .collective b) ∧
    (let b := baton 2 0 6 1 0 0 1
     ({ upLink with bulk := [b] }).pick 1 = .bulk b) ∧
    ((linked upLink).linkFlows 3 = true ∧ upLink.pick 1 = .idle ∧ ({ upLink with nakDue := true }).pick 1 = .nak) ∧
    (let l := { upLink with replay := [held 0], resend := 1, nextSeq := 1 }
     (linked l).linkFlows 3 = true ∧ l.pick 1 = .resend ∧ l.replay ≠ [] ∧
       (((linked l).setLink 3 (l.slot 1 0)).link 3).replay.all (fun r => decide (r.replays < 8)) = true) ∧
    (let l := { upLink with replay := [{ held 0 with replays := 7 }], resend := 1, nextSeq := 1 }
     l.pick 1 = .resend ∧ (((linked l).setLink 3 (l.slot 1 0)).link 3).replay.all (fun r => decide (r.replays < 8)) = false) := by
  decide +kernel

theorem meets_BatonsKeepTheirSequence_arrive :
    (batonIs 0 (baton 0 0 0 0 0 0 0) = true ∧ (linked upLink).arrives 3 (baton 0 0 0 0 0 0 0) = true ∧
      batonIs 1 (baton 1 0 0 0 0 0 0) = true ∧ (linked upLink).arrives 3 (baton 1 0 0 0 0 0 0) = true) ∧
    (let q := [held 0, held 1]
     q ++ [held 2] = [held 0, held 1, held 2] ∧ q.getLast?.map Replay.seq = some 1 ∧ ∀ x ∈ q.dropLast, x.seq ≠ 1) ∧
    (crcGood (setBat (baton 8 0 5 1 0 0 0) 255 224 1) = false ∧
      (linked upLink).arrives 3 (setBat (baton 8 0 5 1 0 0 0) 255 224 1) = true) ∧
    (let b := baton 0 0 0 0 0 0 1
     crcGood b = true ∧ malformed b = true ∧ batKind b ≤ 1 ∧ (linked upLink).arrives 3 b = true) ∧
    (let b := baton 8 0 5 1 0 0 1
     crcGood b = true ∧ malformed b = true ∧ 1 < batKind b ∧ batSeq b = ((linked upLink).link 3).expect ∧
       (linked upLink).arrives 3 b = true) ∧
    (let b := baton 8 9 5 1 0 0 1
     crcGood b = true ∧ malformed b = true ∧ 1 < batKind b ∧ batSeq b ≠ ((linked upLink).link 3).expect ∧
       (linked upLink).arrives 3 b = true) := by decide +kernel

/-- BULK_SEND of one byte to a module, with memory mapped and module 6 reached by link 3. -/
def bulkCmd (dst : Nat) : Cmd := cmd 0x12 (dst * 2 ^ 192 + 7 * 2 ^ 208 + 2 ^ 320) 0

def bulking : State :=
  ((((withBytes ready []).setReg 0x200000 5).setReg (linkBase 3) 1).setLink 3 upLink).setReg (0x208000 + 8 * 6) 8

theorem meets_RoutedBatonsArrive_send :
    let ok := fun (c : Cmd) =>
      let s := put bulking 1 c
      issues s 0 1 (wantKind 0x12) (s.pinsFor 0 c) c
    let links := fun (c : Cmd) => ((put bulking 1 c).markIssued ⟨0, 1, 0⟩ ((put bulking 1 c).pinsFor 0 c)).routeLinks (fld c.desc 203 192)
    ok (bulkCmd 6) ∧ ok (bulkCmd 8) ∧ links (bulkCmd 6) ≠ [] ∧ links (bulkCmd 8) = [] := by decide +kernel

/-- The transfer's command has issued, its record as given. -/
def transferring (b : Bulk) : State :=
  let s := put bulking 1 { bulkCmd 6 with issued := true }
  { s with links := { s.links with bulks := [b] } }

/-- A transfer of one byte to a module from an address. -/
def bulkOf (dst va : Nat) : Bulk := ⟨⟨0, 1, 0⟩, dst, 7, 3, va, 1, 0⟩

/-- The next baton of a transfer: the status of its read, whether it is poisoned, and whether a link takes it. -/
def bulkNext (s : State) (b : Bulk) : Nat × Bool × Bool :=
  let r := s.cvaRead b.cmd b.va 1
  (r.1, anyPoison r.2, ((s.noteRead b.cmd (s.isLive 0) b.va 1).routeNew 2 b.dst b.tag 0 1 true (unmark r.2)).isSome)

theorem meets_RoutedBatonsArrive_steps :
    ((transferring (bulkOf 6 0)).links.bulks.find? (fun x => x.cmd == ⟨0, 1, 0⟩) = some (bulkOf 6 0) ∧
      (transferring (bulkOf 6 0)).sched.holder = some 0 ∧ State.reset.sched.holder ≠ some 0) ∧
    ({ bulkOf 6 0 with next := 1 }.len ≤ 256 * { bulkOf 6 0 with next := 1 }.next) ∧
    ((bulkOf 6 0).len ≤ 256 * (bulkOf 6 0).next ∨ (transferring (bulkOf 6 0)).bulkUnsent (bulkOf 6 0) < 64) ∧
    bulkNext (transferring (bulkOf 6 0)) (bulkOf 6 0) = (0, false, true) ∧
    bulkNext (transferring (bulkOf 8 0)) (bulkOf 8 0) = (0, false, false) ∧
    (bulkNext (transferring (bulkOf 6 (2 ^ 40))) (bulkOf 6 (2 ^ 40))).1 ≠ 0 ∧
    (bulkNext (State.poisonWord (transferring (bulkOf 6 0)) (wordKey 0 0)) (bulkOf 6 0)).2.1 = true := by decide +kernel

theorem meets_RoutedBatonsArrive :
    let s := linked upLink
    let ok := fun (k : Nat) (dst : Nat) =>
      let b := baton k 0 dst 1 7 0 (if k = 2 then 1 else 0)
      s.arrives 3 b ∧ batSeq b = (s.link 3).expect ∧ batDst b = dst ∧ batonIs k b
    (s.accept 3 (baton 2 0 5 1 7 0 1)).1.moduleId = 5 ∧ ok 2 5 ∧ ok 3 5 ∧ ok 4 5 ∧ ok 8 5 ∧ ok 2 6 ∧ ok 3 6 ∧ ok 4 6 ∧ ok 8 6 ∧
      batHops (setBat (baton 2 0 6 1 7 0 1) 67 62 1) ≤ 1 ∧ 1 < batHops (baton 2 0 6 1 7 0 1) ∧
      (bulking.route (some 3) (setBat (baton 2 0 6 1 7 0 1) 67 62 47)).isSome ∧
      bulking.route (some 3) (setBat (baton 2 0 8 1 7 0 1) 67 62 47) = none := by decide +kernel

/-- What has arrived of a transfer behind a baton, at a module whose landing region takes it or not. -/
def landed (s : State) (b : BatonWord) : Landing :=
  let p := (s.landStart b).land b
  let l := p.1.landing (batSrc b) (batTag b)
  ⟨l.count + 1, if batLast b then batOffset b + 1 else l.total, if l.status = 0 then p.2 else l.status, max l.top (batOffset b + 1)⟩

/-- Landing region 7 of context 0: 512 bytes from address 0, from any source. -/
def landable : State := ((bulking.setReg (landBase 7) (1 + 2 ^ 5)).setReg (landBase 7 + 12) 2)

theorem meets_RoutedBatonsArrive_land :
    (landed landable (baton 2 0 5 0 7 0 1)).total = 0 ∧
    ((landed landable (baton 2 0 5 1 7 0 1)).total = 1 ∧ (landed landable (baton 2 0 5 1 7 0 1)).count = 1 ∧
      (landed landable (baton 2 0 5 1 7 0 1)).status = 0) ∧
    ((landed bulking (baton 2 0 5 1 7 0 1)).total = 1 ∧ (landed bulking (baton 2 0 5 1 7 0 1)).status ≠ 0) := by decide +kernel

/-! ### Groups, collectives and streams -/

/-- A group record's header: two members, generation `gen`, gid 9. -/
def grpHead (gen : Nat) : Nat := 10 * 2 ^ 72 + 8 * 2 ^ 64 + 2 * 2 ^ 48 + gen * 2 ^ 16 + 9

/-- A record of modules 5 and 6, this module its member 0. -/
def record2 (gen : Nat) : List Byte := toBytes 64 (grpHead gen) ++ toBytes 8 (5 + 0xFFF * 2 ^ 12) ++ toBytes 8 6

def members2 : List Member := [⟨5, 0xFFF, 0⟩, ⟨6, 0, 0⟩]

/-- Module 5, with link 3 up to module 6 and the bytes given at address 0. -/
def grouped (l : List Byte) : State :=
  (((withBytes ready l).setReg 0x200000 5).setReg (linkBase 3) 1).setLink 3 upLink

def collCmd (op more : Nat) : Cmd := cmd 0x20 0 (op + more)

def collOk (s : State) (op : Nat) (c : Cmd) : Bool :=
  let s := put s 2 c
  issues s 0 2 (fun d => wantKind 0x20 d && (collOp d.ext == op || !collNamed (collOp d.ext))) (collPins 0 s c) c

/-- The group of the record, ACTIVE or as given, as entry 0 of context 0. -/
def group2 : Group := { Group.empty with mode := .active, gid := 9, gen := 1, window := 8, timeout := 10, members := members2, kids := [(1, 3)], iface := 3 }

/-- The same group at member 1, below module 4. -/
def child2 : Group := { group2 with members := [⟨4, 0xFFF, 0⟩, ⟨5, 0, 3⟩], self := 1, kids := [] }

def within (g : Group) : State := (grouped []).setGroup 0 0 g

theorem meets_GroupsFormAndBreak :
    let h := ofBytes (toBytes 64 (grpHead 1))
    let s := put (grouped (record2 1)) 2 (collCmd 0x10 0)
    let id : CmdId := ⟨0, 2, 0⟩
    let t := s.markIssued id (collPins 0 s (collCmd 0x10 0))
    let body := (record2 1).drop 64
    let ms := membersOf 2 body
    collOk (grouped (record2 1)) 0x10 (collCmd 0x10 0) ∧ collOk (grouped (record2 1)) 0x11 (collCmd 0x11 0) ∧
    collOk (grouped []) 0x12 (collCmd 0x12 0) ∧
    h = grpHead 1 ∧ ms = members2 ∧ t.moduleId = 5 ∧
    t.cvaRead id 0 64 = (0, clean (toBytes 64 (grpHead 1))) ∧ t.cvaRead id 64 (8 * min (grpMembers h) 4096) = (0, clean body) ∧
    anyPoison (clean (record2 1)) = false ∧
    recordBad t.moduleId h body ms = false ∧ recordBad 7 h body ms = true ∧
    t.treePlace ms = some (0, [(1, 3)]) ∧ stagingOf ms 0 [(1, 3)] (grpWindow h) = (3, 4096) ∧
    (t.group 0 0).mode = .free ∧ grpPinned h = false ∧ t.gidHeld 0 0 (grpGid h) = false ∧
    tget t.links.stagingUsed 3 0 + 4096 ≤ 4194304 ∧ collNamed 0x10 = true ∧ formBad (collCmd 0x10 0).ext = false ∧
    formBad (collCmd 0x12 0).ext = false := by decide +kernel

/-- What a record's issue meets: whether the command is turned away, the statuses of its two reads, and poison in it. -/
def formMeets (s : State) (c : Cmd) : Bool × Nat × Nat × Bool :=
  let t := (put s 2 c).markIssued ⟨0, 2, 0⟩ (collPins 0 (put s 2 c) c)
  let r := t.cvaRead ⟨0, 2, 0⟩ (collSrcVa c.ext) 64
  let q := t.cvaRead ⟨0, 2, 0⟩ (collSrcVa c.ext + 64) (8 * min (grpMembers (ofBytes (unmark r.2))) 4096)
  (formBad c.ext, r.1, q.1, anyPoison r.2 || anyPoison q.2)

/-- The header at the end of page 0, the members in page 1, the stack of a rank stopped. -/
def brokenAt (r : Nat) : State :=
  let s := (grouped (record2 1)).setReg 0x310C 2
  (State.storeWrite { s with tiers := { s.tiers with
    entries := [(0, entryWord true true 0 0 0 0), (1, entryWord true true 0 0 1 0)], pages := [0, 75] } } 2097088
    (toBytes 64 (grpHead 1))).setStack r { Stack.empty with mode := .stopped }

theorem meets_GroupsFormAndBreak_refused :
    (collOk (grouped []) 0x10 (collCmd 0x15 0) ∧ collNamed 0x15 = false ∧ collOk (grouped []) 1 (collCmd 0 0) ∧ collNamed 0 = false) ∧
    (∀ k ∈ ([2 ^ 255, 3 * 2 ^ 274, 2 ^ 276] : List Nat), collOk (grouped []) 0x10 (collCmd 0x10 k) ∧ formBad (collCmd 0x10 k).ext = true) ∧
    (collOk (grouped []) 0x12 (collCmd 0x12 (2 ^ 254)) ∧ formBad (collCmd 0x12 (2 ^ 254)).ext = true) ∧
    formMeets (State.poisonWord (grouped (record2 1)) (wordKey 0 0)) (collCmd 0x10 0) = (false, 0, 0, true) ∧
    formMeets (brokenAt 0) (collCmd 0x10 (2097088 * 2 ^ 464)) = (false, 0x030A, 0, false) ∧
    formMeets (brokenAt 1) (collCmd 0x10 (2097088 * 2 ^ 464)) = (false, 0, 0x030A, false) ∧
    formMeets (State.storeWrite (grouped []) 2097088 (toBytes 64 (grpHead 1))) (collCmd 0x10 (2097088 * 2 ^ 464)) = (false, 0, 0x0302, false) ∧
    formMeets (grouped []) (collCmd 0x10 (2 ^ 508)) = (false, 0x0302, 0, false) ∧
    formMeets (grouped (record2 1)) (collCmd 0x10 0) = (false, 0, 0, false) := by decide +kernel


theorem meets_GroupsFormAndBreak_again :
    let s := within group2
    let full : State := { s with links := { s.links with stagingUsed := [(3, 4194304)] } }
    (group2.mode ≠ .free ∧ (s.group 0 0).pinned = false ∧ (s.group 0 0).mode = .active ∧ s.gidHeld 0 1 9 = true ∧
      4194304 < tget full.links.stagingUsed 3 0 + 4096) ∧
    (let g := { group2 with members := [⟨5, 0xFFF, 0⟩], iface := 4 }
     grpGen (grpHead 2) = wrap32 (g.gen + 1) ∧ members2 ≠ g.members ∧ g.iface ≠ 3 ∧ (within g).gidHeld 0 0 9 = false ∧
       collOk ((grouped (record2 2)).setGroup 0 0 g) 0x11 (collCmd 0x11 0)) ∧
    ({ group2 with pinned := true }.pinned = true ∧ Group.empty.mode ≠ .active) ∧
    (let g := { group2 with mode := .forming }
     ((within g).group 0 0).live = true ∧ ((within g).group 0 0).missing = some 1) := by decide +kernel

/-- A collective command of 64 FP32 entries from address 0 to address 4096, to the group of entry 0. -/
def castCmd (op more : Nat) : Cmd := collCmd op (64 * 2 ^ 352 + 2 ^ 383 * 0 + 64 * 2 ^ 384 + 4096 * 2 ^ 416 + 128 * 2 ^ 312 + more)

/-- What the command's issue meets in a state: its refusals, in their order. -/
def refusals (s : State) (c : Cmd) : Bool × Bool × Bool :=
  let t := (put s 2 c).markIssued ⟨0, 2, 0⟩ (collPins 0 (put s 2 c) c)
  let g := t.group 0 (collGroup c.ext)
  (collBad g c.ext, t.collOutside ⟨0, 2, 0⟩ g c.ext (min (t.shape 0 (collLen c.ext)) (collCap c.ext)), t.errorRefused ⟨0, 2, 0⟩ c.ext)

theorem meets_CollectivesStartAndArrive_issue :
    (collOk (within group2) 1 (castCmd 1 0) ∧ refusals (within group2) (castCmd 1 0) = (false, false, false)) ∧
    (collOk (within group2) 2 (castCmd 2 0) ∧ refusals (within group2) (castCmd 2 0) = (false, false, false)) ∧
    (collOk (within group2) 3 (castCmd 3 0) ∧ refusals (within group2) (castCmd 3 0) = (false, false, false)) ∧
    (refusals (within group2) (castCmd 1 (3 * 2 ^ 274))).1 = true ∧
    (let c := castCmd 1 (2 ^ 44 * 2 ^ 464)
     collOk (within group2) 1 c ∧ (refusals (within group2) c).1 = false ∧ (refusals (within group2) c).2.1 = true) ∧
    (let c := castCmd 1 (12 * 2 ^ 276 + 2 ^ 274)
     collOk (within group2) 1 c ∧ refusals (within group2) c = (false, false, true)) ∧
    (let c := collCmd 1 (4096 * 2 ^ 416)
     collOk (within group2) 1 c ∧ refusals (within group2) c = (false, false, false) ∧ collCap c.ext = 0) ∧
    (let c := castCmd 2 (2 ^ 286)
     collOk (within group2) 2 c ∧ refusals (within group2) c = (false, false, false) ∧ collOrigin c.ext ≠ group2.self) ∧
    (refusals (within Group.empty) (castCmd 1 0) = (false, true, false) ∨ Group.empty.mode ≠ .active) ∧
    (collOk (within { group2 with mode := .broken }) 1 (castCmd 1 0) ∧
      refusals (within { group2 with mode := .broken }) (castCmd 1 0) = (false, false, false)) := by decide +kernel

/-- The message a command starts: how many batons its reduction has, and whether this member is its origin. -/
def starts (s : State) (c : Cmd) : Nat × Bool :=
  let p := ((put s 2 c).markIssued ⟨0, 2, 0⟩ (collPins 0 (put s 2 c) c)).startMessage ⟨0, 2, 0⟩
    (stamped (put s 2 c) 0 (collPins 0 (put s 2 c) c) c)
  ((p.1.group 0 0).reduceBatons p.2, ((within group2).group 0 0).self == p.2.origin)

theorem meets_CollectivesStartAndArrive_started :
    (starts (within group2) (castCmd 1 0)).1 = 1 ∧ (starts (within group2) (collCmd 1 (4096 * 2 ^ 416))).1 = 0 ∧
    (starts (within group2) (castCmd 2 0)).2 = true ∧ (starts (within group2) (castCmd 3 0)).2 = true ∧
    (starts (within group2) (castCmd 2 (2 ^ 286))).2 = false := by decide +kernel

/-- A REDUCE of the child member in work, no offset summed. -/
def message : Message := ⟨⟨0, 2, 0⟩, 0, 1, 0, 64, 64, 0, [], [], 0, [], [], 0, false, 1, 0, false, 0, [], 0⟩

/-- What the next offset of a message meets: its group ACTIVE, batons left, a grant, its children, its own part. -/
def sumMeets (s : State) (c : Cmd) (m : Message) (grants : Nat) : Bool × Bool × Bool × Bool × Option (Nat × Bool) :=
  let t := s.modMsg 0 0 m.number fun y => { y with granted := y.granted + grants }
  let u := if (s.group 0 0).reduceBatons m ≤ m.emitted then t
    else t.takeWindow 0 0 c.ext { m with granted := m.granted + grants }
  let k := u.group 0 0
  match k.msgs.find? (fun m => m.op == 1) with
  | some n =>
    let e := linkEntries n.fmt k.packed
    (k.mode == .active, decide (n.emitted < k.reduceBatons n), k.mayEmit n, (childParts k n n.emitted).isSome,
      (localPart c.ext n n.emitted (n.emitted * e) (min e (n.cap - n.emitted * e))).map fun p => (p.1, p.2.1))
  | none => (false, false, false, false, none)

/-- A REDUCE in work at a group, from its source. -/
def reducing (g : Group) (m : Message) (c : Cmd) : State := put (within { g with msgs := [m] }) 2 c

def idling (s : State) : State := { s with sched := { s.sched with holder := none } }

/-- The REDUCE, issued, its source at address 0 or out of reach. -/
def reduceCmd : Cmd := { castCmd 1 0 with issued := true }
def farCmd : Cmd := { castCmd 1 (2 ^ 508) with issued := true }

theorem meets_CollectivesStartAndArrive_sum :
    ((reducing child2 message reduceCmd).group 0 0).msgs.find? (fun m => m.op == 1) = some message ∧
    (reducing child2 message reduceCmd).cmd? message.cmd = some reduceCmd := by decide +kernel

/-- All but its own part is there, and that is as given. -/
def sumIs (s : State) (c : Cmd) (own : Option (Nat × Bool)) : Bool := sumMeets s c message 0 == (true, true, true, true, own)

theorem meets_CollectivesStartAndArrive_parts :
    let s := reducing child2 message reduceCmd
    sumIs s reduceCmd (some (0, false)) ∧ sumIs (idling s) reduceCmd none ∧
    sumIs (s.poisonWord (wordKey 0 0)) reduceCmd (some (0, true)) ∧
    sumIs (reducing child2 message farCmd) farCmd (some (0x0302, false)) := by decide +kernel

theorem meets_CollectivesStartAndArrive_blocked :
    let c := reduceCmd
    (sumMeets (reducing { child2 with mode := .broken } message c) c message 0).1 = false ∧
    (sumMeets (reducing child2 { message with emitted := 1 } c) c { message with emitted := 1 } 0).2.1 = false ∧
    (sumMeets (reducing { child2 with window := 0 } message c) c message 0).2.2.1 = false ∧
    (sumMeets (reducing { child2 with window := 0 } message c) c message 1).2.2.1 = true ∧
    (sumMeets (reducing group2 message c) c message 0).2.2.2.1 = false := by decide +kernel

/-- A tree baton of the group from member 1. -/
def treeB (kind offset detail : Nat) : BatonWord :=
  sealBaton (BatonParts.word ⟨kind, 0, true, 0, 0, detail, 5, 6, 9, offset, 0, []⟩) 0 0 4095 0

/-- The baton is one of kind `k` that reaches the group's link in its turn. -/
def reaches (g : Group) (k : Nat) (b : BatonWord) : Bool :=
  (within g).arrives 3 b && batSeq b == ((within g).link 3).expect && batonIs k b

/-- Its acceptance finds the group, the baton coming from member 1. -/
def finds (g : Group) (b : BatonWord) (gen : Nat) : Bool :=
  let t := ((within g).accept 3 b).1
  t.findGroup (batTag b) gen == some (0, 0) && (t.group 0 0).across 3 == some 1

def redB : BatonWord := treeB 5 0 (65536 + 64)
def castB : BatonWord := treeB 6 0 (2 ^ 48 + 256)
def sprB (k : Nat) : BatonWord := treeB 7 0 (2 ^ 41 + k * 2 ^ 38)

/-- The group with a REDUCE in work, its inputs as given. -/
def working (l : List (Nat × Nat × BatonWord)) : Group := { group2 with msgs := [{ message with inputs := l }] }

theorem meets_CollectivesStartAndArrive_reduce :
    reaches (working []) 5 redB = true ∧ finds (working []) redB (redGen redB) = true ∧
    (((within (working [])).accept 3 redB).1.group 0 0).msgFor (redMsg redB) = some message ∧ message.takes redB = true ∧
    finds (working [(1, 0, 0)]) redB (redGen redB) = true ∧
    [(1, 0, (0 : BatonWord))].any (fun i => i.1 == 1 && i.2.1 == batOffset redB) = true ∧
    { message with op := 2 }.takes redB = false := by decide +kernel

theorem meets_CollectivesStartAndArrive_early :
    reaches group2 5 redB = true ∧ finds group2 redB (redGen redB) = true ∧
    ((((within group2).accept 3 redB).1.group 0 0).msgFor (redMsg redB)).isNone ∧
    (((within group2).accept 3 redB).1.group 0 0).earlyHas (redMsg redB) (some 1) redB = false ∧
    (let g := { group2 with early := [(redMsg redB, 1, 0, redB)] }
     reaches g 5 redB = true ∧ finds g redB (redGen redB) = true ∧
       (((within g).accept 3 redB).1.group 0 0).earlyHas (redMsg redB) (some 1) redB = true) := by decide +kernel

theorem meets_CollectivesStartAndArrive_bcast :
    reaches group2 6 castB = true ∧ finds group2 castB (bcGen castB) = true ∧
    reaches Group.empty 6 castB = true ∧ reaches Group.empty 5 redB = true ∧ reaches Group.empty 7 (sprB 0) = true ∧
    (within Group.empty).groupKeys = [] := by decide +kernel

theorem meets_CollectivesStartAndArrive_sprint : ∀ k, k < 5 →
    reaches group2 7 (sprB k) = true ∧ finds group2 (sprB k) (sprGen (sprB k)) = true ∧ sprControl (sprB k) = k := by
  decide +kernel

/-- A kernel that runs and whose program drains to stream 0. -/
def streaming : State := started.setKernel 5 (some { kern started with prog := [6 * 2 ^ 60 + 2 ^ 56] })

theorem meets_StreamsBindAndBitmapsClear :
    let s := within group2
    let v : Word := BitVec.ofNat 32 (1 + 2 ^ 16)
    let x := (s.unbindStream 0).clampReg (streamBase 0) (v.toNat &&& 0x3FF0FFF)
    (permits s host (streamBase 0) v.toNat ∧ s.streamIdle 0 = true ∧ bit x 0 = true ∧
       (s.unbindStream 0).bindOk (bits x 4 1) (bits x 10 5) (bits x 25 16) = true) ∧
    (permits s host (streamBase 0) 0 ∧ bit ((s.unbindStream 0).clampReg (streamBase 0) 0) 0 = false) ∧
    (let w := within Group.empty
     permits w host (streamBase 0) v.toNat ∧ w.streamIdle 0 = true ∧
       (w.unbindStream 0).bindOk (bits x 4 1) (bits x 10 5) (bits x 25 16) = false) ∧
    permits s host (streamBase 0 + 0x1C) 1 ∧
    permits s host (siteBase 0 + 0x488) 0xFF ∧ s.rankOf 0 = some 0 ∧
    (permits streaming host (streamBase 0) 1 ∧ streaming.streamIdle 0 = false) := by decide +kernel

/-! ### Hosts, packages and the heat sheet -/

/-- HOST_COPY of one byte from or to the host, to or from an address. -/
def copyCmd (out va : Nat) : Cmd := cmd 0x11 (out * 2 ^ 192 + va * 2 ^ 256 + 2 ^ 384) 0

/-- A package of a header alone, for ALV `alv`: frame size 4096 heat units, BF16 cache, one head. -/
def header (alv : Nat) : Nat :=
  0x4B505A55 + 2 ^ 32 + alv * 2 ^ 48 + 128 * 2 ^ 128 + 4096 * 2 ^ 202 + 2 ^ 222 + ofBytes (sha256 []) * 2 ^ 768

def admitCmd : Cmd := cmd 0x13 0 0
def evictCmd : Cmd := cmd 0x14 0 0

/-- Context 1 of port 1 holds the fields, with a command alone in its bulk ring. -/
def guest (s : State) (c : Cmd) : State :=
  State.setRing (State.setCtx { s with sched := { s.sched with holder := some 1 } } 1 { Ctx.empty with mode := .ready, port := 1 })
    1 1 { Ring.empty with producer := 1, fetched := 1, cmds := [c] }

theorem meets_HostsMoveDataAndPackages :
    let id : CmdId := ⟨0, 1, 0⟩
    let b := withBytes ready [7]
    let ok := fun (s : State) (c : Cmd) => issues s 0 1 (wantKind 0x11) (s.pinsFor 0 c) c
    (ok (put b 1 (copyCmd 0 0)) (copyCmd 0 0) ∧ flag (copyCmd 0 0).desc 192 = false ∧ fld (copyCmd 0 0).desc 415 384 = 1 ∧
      (put b 1 (copyCmd 0 0)).writeWaits id 0 1 = false ∧ ((put b 1 (copyCmd 0 0)).cvaWrite id 0 0 (clean [7])).2 = 0) ∧
    (let c := copyCmd 0 (2 ^ 40)
     ok (put b 1 c) c ∧ ((put b 1 c).cvaWrite id (2 ^ 40 / 2097152 % 75) (2 ^ 40) (clean [7])).2 ≠ 0 ∧
       (put b 1 c).writeWaits id (2 ^ 40) 1 = false) ∧
    (ok (put b 1 (copyCmd 1 0)) (copyCmd 1 0) ∧ flag (copyCmd 1 0).desc 192 = true ∧
      (put b 1 (copyCmd 1 0)).cvaRead id 0 1 = (0, clean [7]) ∧ anyPoison (clean [7]) = false) := by decide +kernel

theorem meets_HostsMoveDataAndPackages_waits :
    let id : CmdId := ⟨0, 1, 0⟩
    let b := withBytes ready [7]
    (let c := copyCmd 1 (2 ^ 40)
     let s := put b 1 c
     issues s 0 1 (wantKind 0x11) (s.pinsFor 0 c) c ∧ flag c.desc 192 = true ∧ (s.cvaRead id (2 ^ 40) 1).1 ≠ 0) ∧
    (let s := put (b.poisonWord (wordKey 0 0)) 1 (copyCmd 1 0)
     (s.cvaRead id 0 1).1 = 0 ∧ anyPoison (s.cvaRead id 0 1).2 = true) ∧
    (let c := { copyCmd 0 0 with issued := true }
     let s := put b 1 c
     s.headCmd 0 1 (fun d => wantKind 0x11 d && d.issued) = some c ∧ c.finished = false ∧ c.worked = false ∧ s.served 0 1 = true) := by
  decide +kernel

/-- A header of a head of 256 bytes. -/
def longHeader : Nat := header 1 + 128 * 2 ^ 128

theorem meets_HostsMoveDataAndPackages_head :
    let h := header 1
    let l := toBytes 128 h
    let p := Package.parse h l
    let t := ((put ready 1 admitCmd).markIssued ⟨0, 1, 0⟩ []).hostRead 0 0 (pkHeadBytes h) false
    issues (put ready 1 admitCmd) 0 1 (wantKind 0x13) [] admitCmd ∧ ready.ownerCx 0 = true ∧ ready.rel.book.length < bookSize ∧
    ready.fw.sigUsed < sigBudget ∧ ofBytes (l.take 128) = h ∧ 128 ≤ l.length ∧ pkHeadBytes h ≤ l.length ∧ ready.package = none ∧
    headerBad h = false ∧ headerBad 0 = true ∧ (pkTables h).any (fun e => !tableFits h e) = false ∧
    headerBad longHeader = false ∧ 128 < pkHeadBytes longHeader ∧ (pkTables longHeader).any (fun e => !tableFits longHeader e) = false ∧
    ofBytes (sha256 (((toBytes 256 longHeader).take 256).drop 128)) ≠ bits longHeader 1023 768 ∧
    ofBytes (sha256 ((l.take (pkHeadBytes h)).drop 128)) = bits h 1023 768 ∧ t.admitChecks p = 0 ∧
    t.admitChecks (Package.parse (header 2) (toBytes 128 (header 2))) ≠ 0 ∧ headerBad (header 2) = false ∧
    issues (put loaded 1 admitCmd) 0 1 (wantKind 0x13) [] admitCmd ∧
    issues (guest ready admitCmd) 1 1 (wantKind 0x13) [] admitCmd ∧ (guest ready admitCmd).ownerCx 1 = false := by decide +kernel

theorem meets_HostsMoveDataAndPackages_spent :
    let f : State := { ready with fw := { ready.fw with sigUsed := sigBudget } }
    issues (put f 1 admitCmd) 0 1 (wantKind 0x13) [] admitCmd ∧ f.ownerCx 0 = true ∧ f.rel.book.length < bookSize ∧
      sigBudget ≤ f.fw.sigUsed := by decide +kernel

theorem meets_HostsMoveDataAndPackages_evict :
    let s := put loaded 1 evictCmd
    issues s 0 1 (wantKind 0x14) [] evictCmd ∧ s.ownerCx 0 = true ∧ (∀ q, q < 8 → (s.seq q).enabled = false) ∧
    (∀ i ∈ (s.markIssued ⟨0, 1, 0⟩ []).outstanding, i.cx = 0) ∧
    (let t := ((guest loaded evictCmd).setRing 0 0 { Ring.empty with producer := 1, fetched := 1, cmds := [{ cmd 2 0 0 with issued := true }] })
     let u := (t.setRing 0 1 { Ring.empty with producer := 1, fetched := 1, cmds := [evictCmd] }).markIssued ⟨0, 1, 0⟩ []
     (⟨0, 0, 0⟩ : CmdId) ∈ u.outstanding) ∧
    issues (guest loaded evictCmd) 1 1 (wantKind 0x14) [] evictCmd ∧ (guest loaded evictCmd).ownerCx 1 = false ∧
    ((s.setSeq 7 { Sequence.empty with enabled := true }).seq 7).enabled = true ∧
    issues (s.setSeq 7 { Sequence.empty with enabled := true }) 0 1 (wantKind 0x14) [] evictCmd := by decide +kernel

/-- A sheet of quiet legs of 10 µs, some ns into the first. -/
def sheet (legs ns : Nat) : State :=
  let s := (List.range legs).foldl (fun (s : State) i => s.setReg (0x400100 + 4 * i) (3 * 2 ^ 17 + 10)) 
    ((ready.setReg 0x400000 1).setReg (0x400100 + 4 * legs) 0)
  { s with sched := { s.sched with legNs := ns } }

theorem meets_SheetTurns :
    ((sheet 2 10000).sched.halted = false ∧ (sheet 2 10000).legLen ≤ (sheet 2 10000).sched.legNs ∧
      (sheet 2 10000).sched.leg + 1 < (sheet 2 10000).legs.length) ∧
    ((sheet 1 10000).legLen ≤ (sheet 1 10000).sched.legNs ∧ (sheet 1 10000).legs.length ≤ (sheet 1 10000).sched.leg + 1 ∧
      bit ((sheet 1 10000).reg 0x400000) 0 = true ∧ ((sheet 1 10000).cset 3).pending = none) ∧
    (sheet 1 9999).sched.legNs < (sheet 1 9999).legLen ∧
    (ready.sched.switching = false ∧ ready.wantHolder true ≠ ready.sched.holder ∧
      State.reset.wantHolder true = State.reset.sched.holder) ∧
    (let s : State := { ready with sched := { ready.sched with switching := true, outgoing := some 0, incoming := some 1, servedNs := 20000 } }
     s.sched.switching = true ∧ 8000 + 12000 ≤ s.sched.servedNs ∧ s.sched.servedNs < 8001 + 12000 ∧ s.sched.outgoing.any s.unsent = false) ∧
    (within { child2 with msgs := [{ message with taken := [(0, 0, false, [])] }] }).unsent 0 = true ∧
    (let c := cmd 7 (2 ^ 224) 0
     let s := put ready 0 c
     s.expired 0 0 = some c ∧ c.issued = false ∧ s.waitStatus ⟨0, 0, 0⟩ c ≠ 0) ∧
    (let c := { cmd 0x10 0 0 with issued := true }
     let s := put ready 1 c
     s.expired 0 1 = some c ∧ c.issued = true ∧ s.workStatus ⟨0, 1, 0⟩ c ≠ 0) ∧
    (let c := { cmd 0x35 0 0 with issued := true }
     let s := put ready 3 c
     s.expired 0 3 = some c ∧ c.issued = true ∧ s.workStatus ⟨0, 3, 0⟩ c = 0) := by decide +kernel

/-! ### Media and playout -/

/-- A stream record of one coding unit, at a frame rate, with more bits. -/
def streamRec (fps more : Nat) : Nat :=
  2 ^ 288 + 2 ^ 304 + fps * 2 ^ 320 + 64 * 2 ^ 336 + 64 * 2 ^ 352 + 32768 * 2 ^ 432 + more

def openCmd (fps more : Nat) : Cmd := cmd 0x30 0 (streamRec fps more)

/-- A page of memory, and stream 0 open with a record. -/
def mediaState (more : Nat) : State :=
  (withBytes ready []).setMstream 0 (MStream.start 0 (BitVec.ofNat 512 (streamRec 30 more)) none)

/-- A frame of the stream: 8,192 bytes of bits and a surface of 64 by 64 samples, at address 0. -/
def frameCmd (kind more : Nat) : Cmd := cmd kind 0 (8192 * 2 ^ 432 + 64 * 2 ^ 144 + 64 * 2 ^ 128 + 256 * 2 ^ 96 + more)

/-- A media command alone in the media ring, and whether it issues there. -/
def mediaOk (s : State) (k : Nat) (c : Cmd) : Bool := issues (put s 3 c) 0 3 (wantKind k) (mediaPins 0 (put s 3 c) c) c

theorem meets_MediaStreamsWork_open :
    let s := withBytes ready []
    let id : CmdId := ⟨0, 3, 0⟩
    let sound := fun (x : Line) => !streamBad x && !streamOutside x && !poolShort x
    let x := (openCmd 30 0).ext
    (mediaOk s 0x30 (openCmd 30 0) ∧ sound x ∧ (s.mstream (srSlot x)).isOpen = false ∧
      s.mappedOk id true (srPoolVa x) (srPoolBytes x) = 0 ∧ srLive x = false ∧ ready.mappedOk id true (srPoolVa x) (srPoolBytes x) ≠ 0) ∧
    (streamBad (openCmd 30 (3 * 2 ^ 18)).ext = true ∧ mediaOk s 0x30 (openCmd 30 (3 * 2 ^ 18))) ∧
    (streamBad (openCmd 30 (2 ^ 352)).ext = false ∧ streamOutside (openCmd 30 (2 ^ 352)).ext = true ∧
      mediaOk s 0x30 (openCmd 30 (2 ^ 352))) ∧
    (mediaOk (mediaState 0) 0x30 (openCmd 30 0) ∧ ((mediaState 0).mstream (srSlot x)).isOpen = true) ∧
    (let y := (openCmd 30 (2 ^ 21)).ext
     mediaOk s 0x30 (openCmd 30 (2 ^ 21)) ∧ srLive y = true ∧ sound y ∧ s.bindEngine y = some 0) ∧
    (let y := (openCmd 65535 (2 ^ 21)).ext
     mediaOk s 0x30 (openCmd 65535 (2 ^ 21)) ∧ srLive y = true ∧ sound y ∧ s.bindEngine y = none) := by decide +kernel

/-- What a frame's issue meets: its record is bad, and the status of its ranges. -/
def frameMeets (s : State) (c : Cmd) (enc : Bool) : Bool × Nat :=
  let id : CmdId := ⟨0, 3, 0⟩
  let m := (s.mstream (frStream c.ext)).record
  (frameBad m c.ext enc, firstStatus [s.rangesBad id enc [(frBitsVa c.ext, frBitsBytes c.ext)],
    s.rangesBad id (!enc) (sfRows (frSurface c.ext)), s.rangesBad id false (if enc then hintRows m c.ext else [])])

theorem meets_MediaStreamsWork_frames :
    let closing := cmd 0x31 0 0
    (mediaOk (mediaState 0) 0x31 closing ∧ (mediaState 0).streamHeld 0 0 = true ∧ srPort ((mediaState 0).mstream 0).record = 0) ∧
    (mediaOk loaded 0x31 closing ∧ loaded.streamHeld 0 0 = false) ∧
    (let s := (mediaState (2 ^ 22)).setPo 0 { Playout.empty with mode := .running }
     mediaOk s 0x31 closing ∧ s.streamHeld 0 0 = true ∧ srPort (s.mstream 0).record = 1 ∧ s.poQuiet 0 = false ∧
       (mediaState (2 ^ 22)).poQuiet 0 = true) ∧
    (∀ enc : Bool,
      let s := mediaState (if enc then 0 else 2 ^ 20)
      let k := if enc then 0x32 else 0x33
      let c := frameCmd k 0
      mediaOk s k c ∧ frStream c.ext = 0 ∧ s.streamHeld 0 0 = true ∧ frameMeets s c enc = (false, 0) ∧
        (let f := frameCmd k (2 ^ 200)
         mediaOk s k f ∧ (frameMeets s f enc).1 = true) ∧
        (let f := frameCmd k (2 ^ 508)
         mediaOk s k f ∧ frameMeets s f enc = (false, 0x080A)) ∧
        mediaOk loaded k c ∧ loaded.streamHeld 0 0 = false) := by decide +kernel

/-- A frame of stream 0 in work on engine 0. -/
def framing (s : State) (f : MFrame) (c : Cmd) : State :=
  State.setEngine (put s 3 { c with issued := true }) 0 { MEngine.empty with running := some f }

/-- Stream 0 beside sequence 0, whose one page of frame 150 waits to be reclaimed. -/
def reclaiming : State :=
  let s := State.setMstream { paged with package := some ⟨header 1, [], [], [], [], []⟩ } 0 ((mediaState 0).mstream 0)
  (s.setKvEntry 0 0 (kvWord true 150 + 2 ^ 61)).setSeq 0 { Sequence.empty with enabled := true, reclaim := [0] }

theorem meets_MediaStreamsWork_engines :
    let f : MFrame := ⟨⟨0, 3, 0⟩, 0, 0, false, false, none⟩
    let s : State := { mediaState 0 with media := { (mediaState 0).media with waiting := [f] } }
    let d : State := { mediaState (2 ^ 20) with media := { (mediaState (2 ^ 20)).media with waiting := [f] } }
    let c := { frameCmd 0x32 0 with issued := true }
    let w := fun (s : State) (f : MFrame) (c : Cmd) => (s.frameWrites f c).all fun r => !s.writeWaits f.cmd r.1 r.2
    ((s.engine 0).running = none ∧ (s.engine 0).retired = false ∧ s.nextFrame 0 = some f ∧ d.nextFrame 8 = some f ∧ s.nextFrame 8 = none) ∧
    (let t := framing (mediaState 0) f c
     (t.engine 0).running = some f ∧ t.cmd? f.cmd = some c ∧ w t f c = true ∧ srDecode (t.mstream 0).record = false) ∧
    (let c := { frameCmd 0x33 0 with issued := true }
     let t := framing (mediaState (2 ^ 20)) f c
     t.cmd? f.cmd = some c ∧ w t f c = true ∧ srDecode (t.mstream 0).record = true) ∧
    (let c := { cmd 0x37 0 0 with issued := true }
     let g := { f with slate := some 0 }
     let t := framing (mediaState 0) g c
     t.cmd? g.cmd = some c ∧ w t g c = true ∧ g.slate = some 0) ∧
    (let t := (mediaState 0).setEngine 0 { MEngine.empty with running := some f }
     (t.engine 0).running = some f ∧ t.cmd? f.cmd = none) ∧
    (let c := { frameCmd 0x32 (2 ^ 504) with issued := true }
     let t := framing reclaiming f c
     (t.engine 0).running = some f ∧ t.cmd? f.cmd = some c ∧ w t f c = false) := by decide +kernel

/-- Playout port 0 of context 0 with a raster code, as given. -/
def playing (raster : Nat) (q : Playout) : State := ((withBytes ready []).setReg 0x580000 (raster * 2)).setPo 0 q

def playCmd (kind ext : Nat) : Cmd := cmd kind 0 ext

/-- A surface of layout 2 with every row at address 0. -/
def flatSurface (w h : Nat) : Nat := 2 * 2 ^ 160 + h * 2 ^ 144 + w * 2 ^ 128

/-- A frame with a number and nothing to show. -/
def picture (n : Nat) : PFrame := ⟨n, 0, [], false, false, 0, 0⟩

def slated : Playout := { Playout.empty with slate := some (picture 0) }

theorem meets_PlayoutPortsRun_commands :
    (mediaOk (playing 0 slated) 0x34 (playCmd 0x34 0) ∧ (playing 0 slated).poOwner 0 = 0 ∧ (playing 0 slated).setClosed 4 = true ∧
      ((playing 0 slated).po 0).mode = .idle ∧ ((playing 0 slated).po 0).slate.isSome = true ∧ Playout.empty.slate = none) ∧
    (let s := (playing 0 slated).setReg 0x580000 (2 ^ 22)
     s.poOwner 0 ≠ 0 ∧ mediaOk s 0x34 (playCmd 0x34 0) ∧ mediaOk s 0x35 (playCmd 0x35 0) ∧ mediaOk s 0x36 (playCmd 0x36 0) ∧
       mediaOk s 0x37 (playCmd 0x37 0)) ∧
    (let q := { slated with mode := .running }
     mediaOk (playing 0 q) 0x35 (playCmd 0x35 0) ∧ q.mode = .running ∧ mediaOk (playing 0 Playout.empty) 0x35 (playCmd 0x35 0) ∧
       Playout.empty.mode = .idle) := by decide +kernel

theorem meets_PlayoutPortsRun_queue :
    let id : CmdId := ⟨0, 3, 0⟩
    let q := { slated with mode := .armed }
    let v := fun (c : Cmd) => fld c.ext 255 0
    let c := playCmd 0x36 (flatSurface 1280 720)
    (mediaOk (playing 2 q) 0x36 c ∧ (playing 2 q).poOwner 0 = 0 ∧ (playing 2 q).poCompressed 0 = false ∧
      (playing 2 q).poSurfaceOk 0 (v c) = true ∧ q.queue.length < 8 ∧
      8 ≤ { q with queue := List.replicate 8 (picture 0) }.queue.length) ∧
    ((playing 0 q).poSurfaceOk 0 (v c) = false ∧ mediaOk (playing 0 q) 0x36 c) ∧
    (let d := playCmd 0x36 (flatSurface 1280 720 + 2 ^ 47)
     mediaOk (playing 2 q) 0x36 d ∧ (playing 2 q).poSurfaceOk 0 (v d) = true ∧
       (playing 2 q).rangesBad id false (sfRows (v d)) = 0x080A) := by decide +kernel

/-- The rows of a frame of 1280 by 720 may be read. -/
theorem meets_PlayoutPortsRun_rows :
    (playing 2 Playout.empty).rangesBad ⟨0, 3, 0⟩ false (sfRows (flatSurface 1280 720)) = 0 := by decide +kernel

/-- Port 0 compressed, from stream 0 of 8-bit samples. -/
def coding (s : State) : State := s.setReg 0x580000 1

/-- A surface of layout 0 with every row at an address. -/
def slateAt (va : Nat) : Nat := 64 * 2 ^ 144 + 64 * 2 ^ 128 + va

theorem meets_PlayoutPortsRun_slate :
    let id : CmdId := ⟨0, 3, 0⟩
    let p := coding (mediaState 0)
    let suits := fun (v : Nat) => !surfaceBad v && sfLayout v == b2n (srTenBit (p.mstream 0).record) &&
      sfWidth v == srWidth (p.mstream 0).record && sfHeight v == srHeight (p.mstream 0).record
    (p.poCompressed 0 = true ∧ p.poOwner 0 = 0 ∧ p.poSlot 0 = 0 ∧ p.streamHeld 0 0 = true ∧
      mediaOk p 0x37 (playCmd 0x37 (slateAt 0)) ∧ suits (slateAt 0) = true ∧ p.rangesBad id false (sfRows (slateAt 0)) = 0) ∧
    (mediaOk p 0x37 (playCmd 0x37 0) ∧ suits 0 = false) ∧
    (mediaOk p 0x37 (playCmd 0x37 (slateAt (2 ^ 47))) ∧ suits (slateAt (2 ^ 47)) = true ∧
      p.rangesBad id false (sfRows (slateAt (2 ^ 47))) = 0x080A) ∧
    (mediaOk (coding loaded) 0x37 (playCmd 0x37 0) ∧ (coding loaded).poCompressed 0 = true ∧ (coding loaded).streamHeld 0 0 = false) ∧
    (let c := playCmd 0x37 (flatSurface 0 0)
     let s := playing 3 Playout.empty
     mediaOk s 0x37 c ∧ s.poOwner 0 = 0 ∧ s.poCompressed 0 = false ∧ s.poSurfaceOk 0 (fld c.ext 255 0) = true ∧
       s.readRanges id (sfRows (fld c.ext 255 0)) = (0, []) ∧ anyPoison [] = false ∧
       (playing 0 Playout.empty).poSurfaceOk 0 (fld c.ext 255 0) = false) := by decide +kernel

/-- What the reading of a flat frame of 1280 by 720 meets. -/
def slateReads (s : State) (va : Nat) : Nat × Bool :=
  let r := s.readRanges ⟨0, 3, 0⟩ (sfRows (flatSurface 1280 720 + va))
  (r.1, anyPoison r.2)

theorem meets_PlayoutPortsRun_slate_unread :
    let s := playing 2 Playout.empty
    mediaOk s 0x37 (playCmd 0x37 (flatSurface 1280 720 + 2 ^ 47)) ∧ s.poSurfaceOk 0 (flatSurface 1280 720 + 2 ^ 47) = true ∧
    slateReads s (2 ^ 47) = (0x0302, false) ∧ mediaOk s 0x37 (playCmd 0x37 (flatSurface 1280 720)) ∧
    slateReads (State.poisonWord s (wordKey 0 0)) 0 = (0, true) := by decide +kernel

/-- A packet, the last of its frame or not. -/
def packet (last : Bool) : PoPacket := ⟨[], 0, 4, last⟩

theorem meets_PlayoutPortsRun_cadence :
    let run := fun (q : Playout) => { q with mode := .running }
    ((State.reset.cset 4).pending = none ∧ (State.reset.po 0).mode = .idle) ∧
    (let s := playing 0 { Playout.empty with mode := .armed, clock := .locked, queue := [picture 4] }
     (s.po 0).mode = .armed ∧ (s.po 0).clock = .locked ∧ (s.po 0).queue ≠ [] ∧ s.poQuiet 0 = false) ∧
    (let s := playing 0 (run { Playout.empty with queue := [picture 4] })
     (s.po 0).mode = .running ∧ (s.po 0).entering = none ∧ (s.po 0).queue = picture 4 :: []) ∧
    (let s := (playing 0 (run { Playout.empty with repeats := 1 })).setReg 0x580028 2
     (s.po 0).queue = [] ∧ (s.po 0).showing ≠ .slate ∧ (s.po 0).repeats < s.poRepeatMax 0) ∧
    (let s := (playing 0 (run { Playout.empty with repeats := 2 })).setReg 0x580028 2
     (s.po 0).queue = [] ∧ (s.po 0).showing ≠ .slate ∧ s.poRepeatMax 0 ≤ (s.po 0).repeats) ∧
    (let q := run { slated with showing := .slate, sinceSlate := 15 }
     q.queue = [] ∧ q.showing = .slate ∧ 15 ≤ q.sinceSlate ∧ { q with sinceSlate := 14 }.sinceSlate < 15) ∧
    (let s := playing 0 (run { Playout.empty with packets := [packet false, packet true] })
     (s.po 0).packets = packet false :: [packet true] ∧ (s.po 0).mode ≠ .runOut) ∧
    (let s := playing 0 { Playout.empty with mode := .runOut, runOutNs := 2000000000, packets := [packet true] }
     (s.po 0).mode = .runOut ∧ 2000000000 * (s.poRate 0).1 ≤ (s.po 0).runOutNs * (s.poRate 0).1 + 1000000000 * (s.poRate 0).2 ∧
       (s.po 0).packets ≠ []) ∧
    (let s := playing 0 { Playout.empty with mode := .runOut, ending := true }
     (s.po 0).mode = .runOut ∧ (s.po 0).ending = true ∧ (s.po 0).packets = [] ∧ (s.cset 4).pending = none ∧
       Playout.empty.ending = false) := by decide +kernel

/-! ### Faults, spares and the logbook -/

theorem meets_FaultsActAtTheirPlace :
    let u : HeatUnit := ⟨7, 0, false, 0⟩
    let s : State := { ready with tiers := { ready.tiers with heat := [(0, [u])] } }
    let e := ready.setEngine 0 { MEngine.empty with running := some ⟨⟨0, 3, 0⟩, 0, 0, false, false, none⟩ }
    (∃ h ∈ tget s.tiers.heat 0 [], h.unit = 7) ∧ (∀ h ∈ tget s.tiers.heat 0 [], h.unit ≠ 8) ∧
    (786431 < 786432 ∧ 786432 * 0 + 786431 ∉ ready.memory.poisonLines) ∧
    ((e.engine 0).running = some ⟨⟨0, 3, 0⟩, 0, 0, false, false, none⟩ ∧ (e.engine 0).retired = false) := by decide +kernel

/-- A substitution in progress from site 3 to site 75. -/
def substing (m : SubstMode) : State :=
  { ready with rel := { ready.rel with subst := m, oldSite := 3, newSite := 75, moving := 3 } }

/-- A slot armed for a quiescent activation, in a quiet leg. -/
def dueState : State :=
  let s := stacked Stack.empty
  { s with fw := { s.fw with mode := .armed, quiescent := true, armedSlot := 1 } }

theorem meets_LostFieldsTakeTheirRank :
    let on := ready.setReg 0x600100 1
    let off := ready.setReg 0x600100 0
    ((ready.site 3).use = .active ∧ (ready.site 3).rank = some 3 ∧ ready.activationDue = false) ∧
    ((ready.ctx 0).mode = .ready ∧ ∀ p ∈ ready.tiles.kernels, p.2 = none) ∧
    (bit (off.reg 0x600100) 0 = false ∧ ¬(off.rel.subst = .mirror ∧ off.rel.oldSite = 3)) ∧
    ((substing .mirror).rel.subst = .mirror ∧ (substing .mirror).rel.oldSite = 3 ∧ ((substing .mirror).site 3).rank = some 3) ∧
    (bit (on.reg 0x600100) 0 = true ∧ on.rel.subst = .idle ∧ on.spareSites.head? = some 75) ∧
    (bit (((substing .mirror).setReg 0x600100 1).reg 0x600100) 0 = true ∧ (substing .mirror).rel.subst ≠ .idle ∧
      (substing .mirror).rel.oldSite ≠ 4 ∧ ((substing .mirror).site 4).rank = some 4) ∧
    (dueState.activationDue = true ∧ (dueState.site 3).use = .active ∧ (dueState.site 3).rank = some 3) ∧
    ((ready.site 75).use = .spare) ∧ ((ready.setSite 75 { ready.site 75 with use := .out }).site 75).use = .out := by
  decide +kernel

theorem meets_SubstitutionsMoveRanks :
    (permits ready host 0x600104 0x7F ∧ flag (0x7F : Word) 7 = false) ∧
    (permits dueState host 0x600104 0x80 ∧ flag (0x80 : Word) 7 = true ∧ dueState.activationDue = true) ∧
    (permits ready host 0x600104 0x80 ∧ ready.activationDue = false ∧ ready.spareSites.head? = some 75 ∧
      (ready.site 0).rank = some 0 ∧ ready.rel.subst = .idle) ∧
    ((ready.site 80).rank = none ∧ flag (0xD0 : Word) 7 = true ∧ bits (0xD0 : Word).toNat 6 0 = 80) ∧
    ((substing .mirror).rel.waiting = [] ∧ (substing .mirror).rel.oldSite ≠ (substing .mirror).rel.newSite ∧
      (substing .mirror).rel.subst = .mirror ∧ (substing .mirror).tiers.heldWrites = []) ∧
    ((substing .unplanned).rel.subst = .unplanned ∧ (substing .unplanned).rel.waiting = []) ∧
    ({ (substing .mirror).rel with waiting := [(4, 4)] }.waiting = (4, 4) :: []) ∧
    (ready.rel.subst ≠ .mirror ∧ ready.rel.subst ≠ .unplanned ∧ (ready.siteOf 74).isSome) := by decide +kernel

/-- A logbook with no room. -/
def fullBook : State := { ready with rel := { ready.rel with book := List.replicate bookSize 0 } }

theorem meets_LogbookRecordsAreAppended :
    ready.rel.book.length + 1 < bookSize ∧ ready.fw.sigUsed < sigBudget ∧ permits ready host 0x700120 1 ∧
    permits ready host 0x700120 4 ∧ permits ready host 0x700120 2 ∧ ready.rel.book.length < 2 ^ 64 ∧
    ((0xFFFF : Nat) < 65536 ∧ (255 : Nat) < 256 ∧ (2 ^ 24 - 1 : Nat) < 2 ^ 24) ∧ ready.rel.book = [] ∧
    (let s : State := { ready with rel := { ready.rel with book := [5] } }
     s.rel.book.getLast? = some 5) ∧ ready.reaches host := by decide +kernel

theorem meets_LogbookRecordsAreAppended_full : bookSize ≤ fullBook.rel.book.length ∧ permits fullBook host 0x700120 1 := by
  constructor
  · simp [fullBook]
  · show (fullBook.reaches host && _) = true
    decide +kernel

/-- Which of the two a calibration set is, the boot ROM's limit table says. -/
theorem meets_TrimWordsAreStaged :
    (permits loaded host 0x600008 5 ∧ loaded.package.isSome) ∧
    (permits ready host 0x600008 5 ∧ ready.package = none ∧ ready.trimSel host < 4096) ∧
    (let s := ready.setReg (portKey 0 0x600004) 4096
     permits s host 0x600008 5 ∧ s.package = none ∧ 4096 ≤ s.trimSel host) ∧
    (permits ready host 0x60000C 0 ∧ permits ready host 0x60000C 1 ∧ flag (1 : Word) 0 = true ∧
      tabWf ready.rel.staging none ∧ ready.rel.book.length < bookSize) := by decide +kernel

/-! ### Arithmetic -/

theorem meets_FormatsRoundTrip : fmtOf 4 = some e5m2 ∧ (0xFF : Nat) < 2 ^ (1 + e5m2.eb + e5m2.fb) ∧
    (e5m2.decode 0x7B).isNan = false ∧ (e5m2.decode 0xFF).isNan = true := by decide +kernel

theorem meets_RoundingIsNearest :
    let q : Int := max (-149) (0 + (Nat.log2 (2 ^ 24 + 1) : Int) + 1 - 24)
    0 < 2 ^ 24 + 1 ∧ 0 < 24 ∧ (0 : Int) < q ∧ ((1 : Nat) : Int) = q - 0 ∧ (0xFFFFFF : Nat) < 2 ^ 24 ∧
    max (-149 : Int) (0 + (Nat.log2 1 : Int) + 1 - 24) ≤ 0 ∧ 2 * ((roundMag .rne 24 (-149) (2 ^ 24 + 1) 0).1 * 2) + 2 = 2 * (2 ^ 24 + 1) := by
  decide +kernel

theorem meets_AdditionAndOrderFollowTheirRules :
    (ofF32 0x7FC00000).isNan ∧ ofF32 0x7F800000 = .inf false ∧ ofF32 0xFF800000 = .inf (!false) ∧
    (∃ m k e, ofF32 0x3F800000 = .fin m k e) ∧ (ofF32 0x3F800000).isNan = false ∧ (0x3F800000 : Nat) < 2 ^ 32 :=
  ⟨by decide +kernel, by decide +kernel, by decide +kernel, ⟨_, _, _, rfl⟩, by decide +kernel, by decide⟩

/-! ### Firmware, the wipe and start-up -/

/-- Port 0 delivers to slot 1, in which some pieces stand. -/
def delivering (f : FwSlot) : State :=
  State.setFwSlot { ready with fw := { ready.fw with holder := some host, mode := .receiving, target := 1 } } 1 f

/-- The sender of a delivery that another party holds. -/
def heldByTool : State := { ready with fw := { ready.fw with holder := some .tool, mode := .receiving } }

/-- A slot of one block table and one content piece, both stored but the content, with `d` as the content's hash. -/
def slotOf (d : List Byte) : FwSlot := ⟨putBytes [(40, 1), (44, 1)] 65536 d, [0, 1], false, false⟩

theorem meets_FirmwareIsDelivered :
    (permits heldByTool host 0x780000 1 ∧ heldByTool.fuOther host = true ∧ heldByTool.fuMine host = false) ∧
    (permits ready host 0x780000 1 ∧ ready.fuOther host = false ∧ ready.fw.mode ≠ .armed ∧ ready.fw.mode ≠ .activating ∧
      ready.fw.loading = false ∧ dueState.fw.mode = .armed) ∧
    ((delivering FwSlot.empty).fuMine host = true ∧ permits (delivering FwSlot.empty) host 0x780000 3) ∧
    (let f := { FwSlot.empty with verified := true }
     let s := ready.setFwSlot 1 f
     s.armable 1 = true ∧ s.armable 0 = false ∧ s.fuOther host = false ∧ bit (s.reg 0x78000C) 0 = false ∧
       bit ((s.setReg 0x78000C 1).reg 0x78000C) 0 = true ∧ (s.setReg 0x78000C 1).quiescentBad 1 = false) ∧
    (let f : FwSlot := ⟨[(21, 1)], [0], true, false⟩
     let s := (ready.setReg 0x78000C 1).setFwSlot 1 f
     s.armable 1 = true ∧ s.quiescentBad 1 = true) ∧
    (let s : State := { ready with fw := { ready.fw with uncommitted := true } }
     s.fw.uncommitted = true ∧ permits s host 0x780000 9 ∧ ready.fw.uncommitted = false) ∧
    (ready.certOk (ready.fuBuf 0 256) (ready.fuBuf 256 3604) = false ∧ permits ready host 0x780000 8) ∧
    ({ ready.fw with loading := true }.loading = true ∧ dueState.activationDue = true ∧ dueState.fw.heldSubst = none ∧
      dueState.fw.heldWipe = false ∧ ready.activationDue = false) := by decide +kernel

theorem meets_FirmwareIsDelivered_pieces :
    let v : Word := 0x20002
    let s := delivering (slotOf [])
    let f := s.fwSlot s.fw.target
    permits s host 0x780000 v.toNat ∧ fld v 3 0 = 2 ∧ bits v.toNat 28 16 = 2 ∧ s.fuMine host = true ∧ 0 ∈ f.received ∧
    hdPieces f.header = 3 ∧ 2 ∉ f.received ∧ hdTables f.header = 1 ∧ 1 + (2 - 1 - 1) / 2048 ∈ f.received ∧
    1 + (2 - 1 - 1) / 2048 ∉ [0] ∧ hdPieces f.header ≤ 3 ∧ (0 ∉ FwSlot.empty.received) ∧
    headerStatus s.fw.fuses s.fw.serial (List.replicate 4096 0) ≠ 0 := by decide +kernel

/-- The piece buffer as it stands at reset. -/
theorem meets_FirmwareIsDelivered_buffer : (delivering FwSlot.empty).fuBuf 0 65536 = List.replicate 65536 0 :=
  List.ext_getElem (by rw [State.fuBuf, List.length_map, List.length_range, List.length_replicate]) fun i h1 h2 => by
    rw [List.getElem_replicate]
    simp only [State.fuBuf, List.getElem_map]
    rfl

theorem header_met (d : List Byte) : (slotOf d).header = (slotOf []).header := by
  unfold FwSlot.header
  congr 1
  unfold FwSlot.read
  refine List.map_congr_left fun i hi => ?_
  have h := List.mem_range.mp hi
  show tget (putBytes [(40, 1), (44, 1)] 65536 d) (0 + i) 0 = tget [(40, 1), (44, 1)] (0 + i) 0
  exact tget_putBytes_other _ _ _ _ (by omega)

theorem pieceHash_met (d : List Byte) (h : d.length = 32) : (slotOf d).pieceHash 0 = ofBytes d := by
  unfold FwSlot.pieceHash FwSlot.read
  congr 1
  refine List.ext_getElem (by simp [h]) fun i h1 h2 => ?_
  simp only [List.getElem_map, List.getElem_range]
  show tget (putBytes [(40, 1), (44, 1)] 65536 d) (65536 + i) 0 = d[i]
  rw [tget_putBytes_same _ _ _ _ h2]
  simp [h2]

/-- The content piece whose hash stands in the block table matches. -/
theorem meets_FirmwareIsDelivered_match (l : List Byte) :
    (slotOf (sha256 l)).pieceOk 2 l = true := by
  unfold FwSlot.pieceOk
  rw [header_met]
  have e : hdTables (slotOf []).header = 1 := by decide +kernel
  simp only [e]
  rw [if_neg (by decide), pieceHash_met _ (sha256_length l)]
  simp

theorem meets_FirmwareIsDelivered_mismatch : (slotOf []).pieceOk 2 [] = false := by decide +kernel

theorem meets_ReportsAndWipes :
    (permits ready host 0x780120 0 ∧ permits ready host 0x780120 1 ∧ flag (1 : Word) 0 = true ∧ ready.fw.sigUsed < sigReserve ∧
      sigReserve ≤ { ready.fw with sigUsed := sigReserve }.sigUsed) ∧
    (writerNo host ∉ ready.fw.atWaiting ∧ ready.fw.atWaiting = [] ∧ ready.attestRoom = true ∧
      { ready with fw := { ready.fw with atServed := [0, 0, 0, 0] } }.attestRoom = false) ∧
    (permits State.reset host 0x780200 1 ∧ State.reset.activationDue = false ∧ State.reset.wipeBad = false) ∧
    (permits ready host 0x780200 1 ∧ ready.wipeBad = true ∧ dueState.activationDue = true) := by decide +kernel

/-- In MARKS with RESET_N low, or in SET with a slot loading. -/
def inMarks (m : Module) : State := { State.reset with module := { m with phase := .marks, resetLow := true } }
def inSet (trial : Option Nat) : State :=
  { State.reset with module := { State.reset.module with phase := .set, setCode := 5 }, fw := { State.reset.fw with trial := trial } }

/-- Whether a calibration set lies outside, the boot ROM's limit table says. -/
theorem meets_ModuleResetsAndStarts :
    let s := inMarks State.reset.module
    permits ready host 0x102C 0x0D0DA5A5 ∧
    (State.reset.module.phase ≠ .marks ∧ s.module.phase = .marks ∧ s.module.resetLow = true ∧ s.module.busInRange = true ∧
      s.module.holdHot = false ∧ (inMarks { State.reset.module with busInRange := false }).module.busInRange = false) ∧
    (fld (0x400 : BitVec 16) 15 10 ≠ 0 ∧ fld (0 : BitVec 16) 15 10 = 0 ∧ fld (0 : BitVec 16) 3 2 < s.module.dies ∧
      flag (0x10 : BitVec 16) 4 = true ∧ flag (0 : BitVec 16) 4 = false ∧ s.fw.trial = none ∧ s.slotPasses s.fw.active = true) ∧
    (let t := (s.setFwSlot 0 FwSlot.empty).setFwSlot 1 FwSlot.empty
     t.slotPasses t.fw.active = false ∧ t.slotPasses (1 - t.fw.active) = false) ∧
    ((inMarks { State.reset.module with holdHot := true }).module.holdHot = true) ∧
    (let t : State := { s with module := { s.module with resetLow := false } }
     t.module.phase = .marks ∧ t.module.resetLow = false ∧ t.module.holdHot = false) ∧
    (let t := inSet none
     t.module.phase = .set ∧ t.module.setCode = 5 ∧ t.rel.missing = [] ∧ t.fw.trial = none ∧ t.rel.book.length < bookSize ∧
       t.rel.sinceCheckpoint < 1023 ∧ t.fw.trial ≠ some t.fw.booting) ∧
    (let t := inSet (some 0)
     t.fw.trial = some t.fw.booting ∧ t.slotPasses t.fw.active = true) := by decide +kernel

theorem meets_PowerAndContacts :
    ¬(((5400 : Nat) < 4600 ∧ (1000 : Nat) < 0) ∨ (6200 : Nat) < 5400) ∧ (((4599 : Nat) < 4600 ∧ (1000 : Nat) < 1001) ∨ (6200 : Nat) < 4599) ∧
    ready.module.railsOn = true ∧ (inMarks { State.reset.module with railsOn := false }).module.railsOn = false ∧
    permits ready host 0x1028 0 ∧ permits ready host 0x1028 1 ∧
    ready.module.phase = .go ∧ ready.rel.book.length < bookSize ∧ ready.rel.sinceCheckpoint < 1023 ∧
    (inMarks State.reset.module).module.phase = .marks ∧ (inSet none).module.phase = .set := by decide +kernel

/-! ### Completion -/

theorem meets_CommandsComplete_engines : ∀ e ∈ engineRows,
    issues (put (withBytes ready []) 0 (rowsCmd e.2.1 1 1)) 0 0 (wantEngine e.2.1) [] (rowsCmd e.2.1 1 1) ∧
    egOp (rowsCmd e.2.1 1 1).ext = e.2.1 ∧ 1 ≤ egMaxRows (rowsCmd e.2.1 1 1).ext ∧
    ((put (withBytes ready []) 0 (rowsCmd e.2.1 1 1)).markIssued ⟨0, 0, 0⟩ []).shape 0 (egRows (rowsCmd e.2.1 1 1).ext) = 1 := by
  decide +kernel

/-- No row of an engine command reads poison where none stands: here one row of each. -/
theorem meets_CommandsComplete_rows : ∀ e ∈ engineRows,
    ((rowParts 1).foldl (runRow e.2.2 ⟨0, 0, 0⟩ 0 (rowsCmd e.2.1 1 1).ext) (withBytes ready [], false)).2 = false := by decide +kernel

theorem meets_CommandsComplete :
    (started.coreKernel (started.core 74 0) = some (5, kern started) ∧ started.rankOf 74 = some 74 ∧ started.claimReady 74 0 = true ∧
      (started.findTile (kern started) 5 74).1 = some (74, 0)) ∧
    (let s := coreAt started { Core.empty with stopped := true }
     s.coreKernel (s.core 74 0) = some (5, kern s) ∧ s.rankOf 74 = some 74 ∧ (s.core 74 0).stopped = true ∧ (s.core 74 0).passes = []) ∧
    (let c := { cmd 0 (2 ^ 9) 0 with issued := true, finished := true }
     (put loaded 0 c).headCmd 0 0 (fun d => (d.finished || (d.refusal != 0 && ((put loaded 0 c).ctx 0).mode == .ready)) &&
       (put loaded 0 c).boundaryDue 0 d) = some c) ∧
    (runs runnable image false = (true, 0) ∧ runs runnable image true = (true, 0) ∧ runnable.counterHeld image = false) ∧
    summing started splitKernel = (true, false, false) ∧
    (linked upLink).linkUp 3 = true ∧ ready.portUp 0 = true := by decide +kernel

theorem meets_CommandsComplete_load :
    let t := loading.markIssued ⟨0, 0, 0⟩ (loading.pinsOf 0 [(0, 1024)])
    let r := t.cvaRead ⟨0, 0, 0⟩ 0 1024
    issues loading 0 0 (wantKind 1) (loading.pinsOf 0 [(0, 1024)]) loadCmd ∧ r.1 = 0 ∧ anyPoison r.2 = false ∧
    (t.noteRead ⟨0, 0, 0⟩ (t.isLive 0) 0 1024).loadChecks 0 (unmark r.2) (KImage.parse (unmark r.2)) = 0 := by decide +kernel

/-! ### Values from the manual's worked examples and from the standards it names -/

/-- Chapter 3's MXFP4 block: the sum 80.0. -/
theorem test_mxfp4_block : blockSum 9 9 ([3, 15, 1, 5] ++ List.replicate 28 0) ([6, 1, 12, 7] ++ List.replicate 28 0) []
    (some 0x7E) (some 0x82) = (0x42A00000, 0) := by decide +kernel

/-- R71: 2^24 + 1 + 1 in slab order stays 2^24; the ones first give the next number. -/
theorem test_bank_order : (f32Add .rne (f32Add .rne 0x4B800000 0x3F800000).1 0x3F800000).1 = 0x4B800000 ∧
    (f32Add .rne 0x4B800000 (f32Add .rne 0x3F800000 0x3F800000).1).1 = 0x4B800001 := by decide +kernel

/-- Chapter 3's drain to BF16: nearest, then stochastic with 0x300000 and 0x500000. -/
theorem test_drain_bf16 : (convOut .rne 1 (ofF32 0x3F80C000)).1 = 0x3F81 ∧
    (convOut (.sr 0x300000) 1 (ofF32 0x3F80C000)).1 = 0x3F80 ∧ (convOut (.sr 0x500000) 1 (ofF32 0x3F80C000)).1 = 0x3F81 := by
  decide +kernel

/-- Chapter 3's 500.0 as E4M3 saturates. -/
theorem test_drain_e4m3 : convOut .rne 3 (ofF32 0x43FA0000) = (0x7E, flSat) := by decide +kernel

/-- Chapter 10's outgoing block: 4.5, 2.25, 2.125 and 4.0. -/
theorem test_link_code : (linkCode 3 false ([0x40900000, 0x40100000, 0x40080000, 0x40800000] ++ List.replicate 252 0)).scales % 256 = 0x79 ∧
    ((linkCode 3 false ([0x40900000, 0x40100000, 0x40080000, 0x40800000] ++ List.replicate 252 0)).payload.take 4) =
      [0x79, 0x71, 0x70, 0x78] := by decide +kernel

/-- R465's shares. -/
theorem test_shares : percent 71 96 = 74 ∧ percent 5 6 = 83 ∧ percent 6 8 = 75 ∧ percent 1 2 = 50 := by decide

/-- The digest of the empty message (FIPS 180-4), and CRC-32C's check value over the digits 1 to 9. -/
theorem test_digests : (sha256 []).take 4 = [0xe3, 0xb0, 0xc4, 0x42] ∧
    crc32c [0x31, 0x32, 0x33, 0x34, 0x35, 0x36, 0x37, 0x38, 0x39] = 0xE3069283 := by decide +kernel

end Sys2Proof.Tests
end

section

/-! The erasure code of R246: P and Q of a stripe fix any two of its missing units. P is additive, and Q is P of the units
each multiplied by its power of g; so what two missing units can add to P and Q is a pair of equations over GF(2^8), and it
has one solution because g^0 to g^12 are distinct. -/

namespace Sys2Proof.Machine

open Sys2Proof

/-! ### Multiplication by g -/

theorem gfDouble_toNat :
    ∀ b : Byte, (gfDouble b).toNat = if 128 ≤ b.toNat then (2 * b.toNat) ^^^ 0x11D else 2 * b.toNat := by
  decide +kernel

theorem gfDouble_zero : gfDouble 0 = 0 := by decide

theorem gfDouble_xor (a b : Byte) : gfDouble (a ^^^ b) = gfDouble a ^^^ gfDouble b := by
  have hsum : ∀ c : Byte, gfDouble c = c <<< 1 ^^^ if c.msb then 0x1D else 0 := fun c => by
    cases hc : c.msb <;> simp [gfDouble, hc]
  have hcarry : (if a.msb ^^ b.msb then 0x1D else 0 : Byte) =
      (if a.msb then 0x1D else 0) ^^^ (if b.msb then 0x1D else 0) := by
    cases a.msb <;> cases b.msb <;> rfl
  rw [hsum, hsum, hsum, BitVec.msb_xor, BitVec.shiftLeft_xor_distrib, hcarry]
  ac_rfl

theorem eq_zero_of_gfDouble_eq_zero : ∀ c : Byte, gfDouble c = 0 → c = 0 := by decide +kernel

theorem gfDouble_injective : Function.Injective gfDouble := by
  intro a b h
  have hker : gfDouble (a ^^^ b) = 0 := by
    rw [gfDouble_xor, h]; exact BitVec.xor_self
  exact BitVec.xor_eq_zero_iff.mp (eq_zero_of_gfDouble_eq_zero _ hker)

theorem gfDouble_iterate_xor (n : Nat) (a b : Byte) :
    gfDouble^[n] (a ^^^ b) = gfDouble^[n] a ^^^ gfDouble^[n] b :=
  Function.Semiconj₂.iterate gfDouble_xor n a b

/-- g^n is not 1 for n from 1 to 12. -/
theorem eq_zero_of_gfDouble_iterate_eq_self :
    ∀ n < 13, 0 < n → ∀ c : Byte, gfDouble^[n] c = c → c = 0 := by
  decide +kernel

theorem eq_zero_of_gfDouble_iterate_eq {i j : Nat} (hij : i < j) (hj : j < 13) {c : Byte}
    (h : gfDouble^[i] c = gfDouble^[j] c) : c = 0 := by
  have hfix : gfDouble^[j - i] c = c := by
    apply gfDouble_injective.iterate i
    rw [← Function.iterate_add_apply, Nat.add_sub_of_le hij.le, h]
  exact eq_zero_of_gfDouble_iterate_eq_self (j - i) (by omega) (by omega) c hfix

/-- The one solution of the two equations that two missing units leave. -/
theorem eq_zero_of_syndromes_eq_zero {i j : Nat} (hi : i < 13) (hj : j < 13) (hij : i ≠ j) {x y : Byte}
    (hp : x ^^^ y = 0) (hq : gfDouble^[i] x ^^^ gfDouble^[j] y = 0) : x = 0 ∧ y = 0 := by
  obtain rfl : x = y := BitVec.xor_eq_zero_iff.mp hp
  have hpow : gfDouble^[i] x = gfDouble^[j] x := BitVec.xor_eq_zero_iff.mp hq
  have hx : x = 0 := by
    rcases Nat.lt_or_gt_of_ne hij with hlt | hgt
    · exact eq_zero_of_gfDouble_iterate_eq hlt hj hpow
    · exact eq_zero_of_gfDouble_iterate_eq hgt hi hpow.symm
  exact ⟨hx, hx⟩

/-! ### P and Q as sums over the units -/

@[simp] theorem parityP_cons (b : Byte) (d : List Byte) : parityP (b :: d) = b ^^^ parityP d := by
  have hassoc := List.foldl_assoc (op := fun a b : Byte => a ^^^ b) (l := d) (a₁ := b) (a₂ := 0)
  simpa [parityP] using hassoc

theorem parityP_map_gfDouble (d : List Byte) : parityP (d.map gfDouble) = gfDouble (parityP d) := by
  induction d with
  | nil => rfl
  | cons b d ih => simp [ih, gfDouble_xor]

/-- The units of a column, unit j multiplied by g^j. -/
def weighted (d : List Byte) : List Byte := d.mapIdx fun j b => gfDouble^[j] b

theorem weighted_cons (b : Byte) (d : List Byte) : weighted (b :: d) = b :: (weighted d).map gfDouble := by
  have htail : d.mapIdx (fun j b => gfDouble^[j + 1] b) = (d.mapIdx fun j b => gfDouble^[j] b).map gfDouble := by
    apply List.ext_getElem <;> simp [Function.iterate_succ_apply']
  rw [weighted, List.mapIdx_cons, htail]
  rfl

@[simp] theorem length_weighted (d : List Byte) : (weighted d).length = d.length := by simp [weighted]

theorem nth_weighted (d : List Byte) (k : Nat) : nth (weighted d) k 0 = gfDouble^[k] (nth d k 0) := by
  have hzero : gfDouble^[k] 0 = 0 := Function.iterate_fixed gfDouble_zero k
  rcases Nat.lt_or_ge k d.length with hk | hk
  · simp [weighted, nth, hk]
  · simpa [weighted, nth, hk] using hzero.symm

theorem parityQ_eq_parityP_weighted (d : List Byte) : parityQ d = parityP (weighted d) := by
  induction d with
  | nil => rfl
  | cons b d ih =>
    calc parityQ (b :: d) = gfDouble (parityQ d) ^^^ b := rfl
      _ = parityP (weighted (b :: d)) := by
        rw [ih, weighted_cons, parityP_cons, parityP_map_gfDouble, BitVec.xor_comm]

theorem map_range_nth (f : Nat → Byte → Byte) (d : List Byte) :
    ((List.range d.length).map fun j => f j (nth d j 0)) = d.mapIdx f := by
  apply List.ext_getElem <;> simp +contextual [nth]

/-! ### Columns that differ in two units -/

section

variable {d e : List Byte} {i j : Nat}

theorem eq_of_nth_eq (hlen : d.length = e.length) (h : ∀ k, nth d k 0 = nth e k 0) : d = e := by
  refine List.ext_getElem hlen fun k hd he => ?_
  simpa [nth, hd, he] using h k

theorem nth_set_eq (hi : i < d.length) (a : Byte) (k : Nat) :
    nth (d.set i a) k 0 = if i = k then a else nth d k 0 := by
  simp only [nth, List.getD_eq_getElem?_getD, List.getElem?_set, hi]
  split <;> rfl

theorem parityP_set (hi : i < d.length) (a : Byte) :
    parityP (d.set i a) = parityP d ^^^ (nth d i 0 ^^^ a) := by
  induction d generalizing i with
  | nil => simp at hi
  | cons b d ih =>
    cases i with
    | zero =>
      calc parityP (a :: d) = (b ^^^ b) ^^^ (a ^^^ parityP d) := by simp
        _ = (b ^^^ parityP d) ^^^ (b ^^^ a) := by ac_rfl
        _ = parityP (b :: d) ^^^ (b ^^^ a) := by rw [parityP_cons]
    | succ i =>
      have hset := ih (by simpa using hi)
      simp only [nth, List.set_cons_succ, List.getD_cons_succ, parityP_cons] at hset ⊢
      rw [hset]
      ac_rfl

/-- Two columns that differ in one unit have P that differ by what that unit does. -/
theorem parityP_xor_parityP_of_one (hlen : d.length = e.length) (hi : i < d.length)
    (h : ∀ k, k ≠ i → nth d k 0 = nth e k 0) : parityP d ^^^ parityP e = nth d i 0 ^^^ nth e i 0 := by
  have he : d.set i (nth e i 0) = e := by
    refine eq_of_nth_eq (by simpa using hlen) fun k => ?_
    grind [nth_set_eq]
  have hset := parityP_set hi (nth e i 0)
  rw [he] at hset
  rw [hset]
  grind

theorem parityP_xor_parityP_of_two (hlen : d.length = e.length) (hi : i < d.length) (hj : j < d.length) (hij : i ≠ j)
    (h : ∀ k, k ≠ i → k ≠ j → nth d k 0 = nth e k 0) :
    parityP d ^^^ parityP e = (nth d i 0 ^^^ nth e i 0) ^^^ (nth d j 0 ^^^ nth e j 0) := by
  have hfirst : parityP (d.set i (nth e i 0)) ^^^ parityP e = nth d j 0 ^^^ nth e j 0 := by
    rw [parityP_xor_parityP_of_one (i := j) (by simpa using hlen) (by simpa using hj)] <;> grind [nth_set_eq]
  rw [← hfirst, parityP_set hi]
  grind

theorem weighted_injective : Function.Injective weighted := by
  intro d e h
  have hlen : d.length = e.length := by simpa using congrArg List.length h
  refine eq_of_nth_eq hlen fun k => gfDouble_injective.iterate k ?_
  rw [← nth_weighted, h, nth_weighted]

/-! ### Rebuilding -/

theorem eq_of_parityP_eq (hlen : d.length = e.length) (hi : i < d.length)
    (h : ∀ k, k ≠ i → nth d k 0 = nth e k 0) (hp : parityP d = parityP e) : d = e := by
  have hunit : nth d i 0 ^^^ nth e i 0 = 0 := by
    rw [← parityP_xor_parityP_of_one hlen hi h, hp]; exact BitVec.xor_self
  refine eq_of_nth_eq hlen fun k => ?_
  by_cases hk : k = i
  · exact hk ▸ BitVec.xor_eq_zero_iff.mp hunit
  · exact h k hk

theorem eq_of_parityQ_eq (hlen : d.length = e.length) (hi : i < d.length)
    (h : ∀ k, k ≠ i → nth d k 0 = nth e k 0) (hq : parityQ d = parityQ e) : d = e := by
  refine weighted_injective (eq_of_parityP_eq (i := i) (by simpa using hlen) (by simpa using hi) ?_ ?_)
  · intro k hk
    rw [nth_weighted, nth_weighted, h k hk]
  · rwa [← parityQ_eq_parityP_weighted, ← parityQ_eq_parityP_weighted]

theorem parityQ_xor_parityQ_of_two (hlen : d.length = e.length) (hi : i < d.length) (hj : j < d.length) (hij : i ≠ j)
    (h : ∀ k, k ≠ i → k ≠ j → nth d k 0 = nth e k 0) :
    parityQ d ^^^ parityQ e =
      gfDouble^[i] (nth d i 0 ^^^ nth e i 0) ^^^ gfDouble^[j] (nth d j 0 ^^^ nth e j 0) := by
  have hw : ∀ k, k ≠ i → k ≠ j → nth (weighted d) k 0 = nth (weighted e) k 0 := fun k hki hkj => by
    rw [nth_weighted, nth_weighted, h k hki hkj]
  simp only [parityQ_eq_parityP_weighted, gfDouble_iterate_xor, ← nth_weighted]
  exact parityP_xor_parityP_of_two (by simpa using hlen) (by simpa using hi) (by simpa using hj) hij hw

theorem eq_of_parityP_eq_of_parityQ_eq (hlen : d.length = e.length) (h13 : d.length ≤ 13) (hi : i < d.length)
    (hj : j < d.length) (hij : i ≠ j) (h : ∀ k, k ≠ i → k ≠ j → nth d k 0 = nth e k 0)
    (hp : parityP d = parityP e) (hq : parityQ d = parityQ e) : d = e := by
  have hsp : (nth d i 0 ^^^ nth e i 0) ^^^ (nth d j 0 ^^^ nth e j 0) = 0 := by
    rw [← parityP_xor_parityP_of_two hlen hi hj hij h, hp]; exact BitVec.xor_self
  have hsq : gfDouble^[i] (nth d i 0 ^^^ nth e i 0) ^^^ gfDouble^[j] (nth d j 0 ^^^ nth e j 0) = 0 := by
    rw [← parityQ_xor_parityQ_of_two hlen hi hj hij h, hq]; exact BitVec.xor_self
  obtain ⟨hx, hy⟩ := eq_zero_of_syndromes_eq_zero (by omega) (by omega) hij hsp hsq
  refine eq_of_nth_eq hlen fun k => ?_
  by_cases hki : k = i
  · exact hki ▸ BitVec.xor_eq_zero_iff.mp hx
  · by_cases hkj : k = j
    · exact hkj ▸ BitVec.xor_eq_zero_iff.mp hy
    · exact h k hki hkj

end

/-- Settles O35: two missing units leave a pair of equations over GF(2^8), which has one solution because g^0 to g^12 are
distinct. -/
theorem twoMissingUnitsAreFixed : Obligations.TwoMissingUnitsAreFixed := by
  unfold Obligations.TwoMissingUnitsAreFixed
  refine ⟨gfDouble_toNat, fun d hd => ⟨?_, ?_⟩, fun d e i j hd he hi hj h => ?_⟩
  · have hunits := map_range_nth (fun _ b => b) d
    rw [hd] at hunits
    rw [hunits]
    simp [parityP, List.mapIdx_eq_zipIdx_map]
  · have hunits := map_range_nth (fun j b => gfDouble^[j] b) d
    rw [hd] at hunits
    rw [hunits]
    exact parityQ_eq_parityP_weighted d
  · have hlen : d.length = e.length := by rw [hd, he]
    have hone : i = j → ∀ k, k ≠ i → nth d k 0 = nth e k 0 := fun hij k hk => h k hk (hij ▸ hk)
    rw [← hd] at hi hj
    refine ⟨fun hp hq => ?_, fun hij => eq_of_parityP_eq hlen hi (hone hij),
      fun hij => eq_of_parityQ_eq hlen hi (hone hij)⟩
    by_cases hij : i = j
    · exact eq_of_parityP_eq hlen hi (hone hij) hp
    · exact eq_of_parityP_eq_of_parityQ_eq hlen hd.le hi hj hij h hp hq

end Sys2Proof.Machine

end

section

/-! Firmware delivery and activation (chapter 18): one lemma per branch of each FU_CTRL command, and what the logbook's
records leave of the firmware record. A record may spend identity signatures and changes nothing else there. -/

namespace Sys2Proof.Machine

open Sys2Proof Sys2Proof.Safety

/-! ### The firmware record up to the signatures spent -/

/-- The firmware record with its count of identity signatures set aside. -/
def Firmware.unsigned (f : Firmware) : Firmware := { f with sigUsed := 0 }

theorem Firmware.eq_of_unsigned_eq {f g : Firmware} (h : f.unsigned = g.unsigned) : f = { g with sigUsed := f.sigUsed } :=
  congrArg (fun x : Firmware => { x with sigUsed := f.sigUsed }) h

theorem State.ownerEvent_fw (s : State) (n : Nat) : (s.ownerEvent n).fw = s.fw := by
  simp only [State.ownerEvent]
  split <;> rfl

theorem State.reg_ownerEvent_other (s : State) {n k : Nat} (h : k ≠ 0x48) : (s.ownerEvent n).reg k = s.reg k := by
  simp only [State.ownerEvent]
  split
  · exact State.reg_setReg_other s _ _ _ h
  · exact State.reg_setReg_other s _ _ _ h

theorem State.appendRecord_fw (s : State) (ty status kind unit data : Nat) :
    (s.appendRecord ty status kind unit data).fw = s.fw := by
  unfold State.appendRecord
  split <;> exact State.ownerEvent_fw _ _

theorem State.appendRecord_fw_of_mark (c : Prop) [Decidable c] (s : State) (ty status kind unit data : Nat) :
    (if c then s.appendRecord ty status kind unit data else s).fw = s.fw := by
  split
  · exact State.appendRecord_fw ..
  · rfl

theorem State.sign_fw_unsigned (s : State) (m : List Byte) : (s.sign m).1.fw.unsigned = s.fw.unsigned := by
  unfold State.sign
  split
  · rfl
  · simp only [State.appendRecord_fw_of_mark]
    rfl

theorem State.checkpoint_fw_unsigned (s : State) : s.checkpoint.fw.unsigned = s.fw.unsigned := by
  unfold State.checkpoint
  extract_lets first slot t last rel u
  have hfw : u.fw = s.fw := State.appendRecord_fw ..
  have hsign := State.sign_fw_unsigned u ([0x55, 0x5A, 0x4C, 0x42] ++ last)
  rw [hfw] at hsign
  generalize u.sign ([0x55, 0x5A, 0x4C, 0x42] ++ last) = p at hsign ⊢
  obtain ⟨x, _ | g⟩ := p
  · exact hsign
  · exact hsign

theorem State.log_fw_unsigned (s : State) (ty status kind unit data : Nat) :
    (s.log ty status kind unit data).fw.unsigned = s.fw.unsigned := by
  unfold State.log
  dsimp only
  split
  · rw [State.checkpoint_fw_unsigned, State.appendRecord_fw]
  · rw [State.appendRecord_fw]

theorem State.logActivate_fw_unsigned (s : State) (slot prev : Nat) (quiescent passed service : Bool) (status : Nat) :
    (s.logActivate slot prev quiescent passed service status).fw.unsigned = s.fw.unsigned :=
  State.log_fw_unsigned ..

/-! ### FU_STATE -/

theorem State.fwSlot_fuStatus (s : State) (st n : Nat) : (s.fuStatus st).fwSlot n = s.fwSlot n := rfl

theorem State.fuMode_fw (s : State) (m : FuMode) : (s.fuMode m).fw = { s.fw with mode := m } := by
  unfold State.fuMode
  split
  · next h => rw [← h]
  · exact State.ownerEvent_fw _ _

theorem State.reg_fuMode_other (s : State) {m : FuMode} {k : Nat} (h : k ≠ 0x48) : (s.fuMode m).reg k = s.reg k := by
  unfold State.fuMode
  split
  · rfl
  · exact State.reg_ownerEvent_other _ h

theorem State.fwSlot_fuMode (s : State) (m : FuMode) (n : Nat) : (s.fuMode m).fwSlot n = s.fwSlot n := by
  simp only [State.fwSlot, State.fuMode_fw]

theorem State.fuMode_fw_unsigned {s : State} {f : Firmware} (h : s.fw.unsigned = f.unsigned) (m : FuMode) :
    (s.fuMode m).fw.unsigned = { f with mode := m }.unsigned := by
  rw [State.fuMode_fw]
  exact congrArg (fun g : Firmware => { g with mode := m }) h

/-! ### FU_CTRL: open, discard, arm, commit, install -/

section

variable {s : State} {w : Writer} {v : Nat}

theorem State.fuOpen_of_busy (h : s.fuOther w = true ∨ s.fw.mode = .armed ∨ s.fw.mode = .activating) :
    s.fuOpen w v = s.fuStatus 0x0C01 := by
  have hbusy : s.fuOther w ∨ s.fw.mode = .armed ∨ s.fw.mode = .activating ∨ s.fw.loading := by tauto
  exact if_pos hbusy

/-- The slot that an opened session writes. -/
def State.fuTarget (s : State) (v : Nat) : Nat := if s.module.recovery then bits v 4 4 else 1 - s.fw.active

theorem State.fuOpen_of_free (hother : s.fuOther w = false) (harmed : s.fw.mode ≠ .armed)
    (hactivating : s.fw.mode ≠ .activating) (hload : s.fw.loading = false) :
    s.fuOpen w v = (({ s with fw := { s.fw with holder := some w, target := s.fuTarget v, status := 0 } } : State).setReg
      0x78001C 0).fuMode .receiving := by
  have hfree : ¬(s.fuOther w ∨ s.fw.mode = .armed ∨ s.fw.mode = .activating ∨ s.fw.loading) := by
    simp [hother, harmed, hactivating, hload]
  exact if_neg hfree

theorem State.fuDiscard_of_not_mine (h : s.fuMine w = false) : s.fuDiscard w = s.fuStatus 0x0C01 := by
  simp [State.fuDiscard, h]

theorem State.fuDiscard_of_mine (h : s.fuMine w = true) :
    s.fuDiscard w = ((s.setFwSlot s.fw.target FwSlot.empty).fuMode .receiving).fuStatus 0 := by
  simp [State.fuDiscard, h]

theorem State.fuArm_of_other (h : s.fuOther w = true) : s.fuArm w v = s.fuStatus 0x0C01 := if_pos h

/-- Where no slot is armed, the arm is refused or the program stores begin to load. -/
theorem State.fuArm_of_not_armed (hother : s.fuOther w = false) (hmode : s.fw.mode ≠ .armed) :
    s.fuArm w v =
      if s.fw.loading ∨ !s.armable (bits v 4 4) ∨ (bit (s.reg 0x78000C) 0 && s.quiescentBad (bits v 4 4)) then
        s.fuStatus 0x0C0A
      else { s with fw := { s.fw with
        loading := true, armedSlot := bits v 4 4, quiescent := bit (s.reg 0x78000C) 0, status := 0 } } := by
  simp [State.fuArm, hother, hmode]

theorem State.fuCommit_of_other (h : s.fuOther w = true) : s.fuCommit w = s.fuStatus 0x0C01 := if_pos h

theorem State.fuCommit_of_committed (hother : s.fuOther w = false) (h : s.fw.uncommitted = false) :
    s.fuCommit w = s.fuStatus 0x0C0D := by
  simp [State.fuCommit, hother, h]

theorem State.fuCommit_of_uncommitted (hother : s.fuOther w = false) (h : s.fw.uncommitted = true) :
    s.fuCommit w = ({ s with fw := { s.fw with
      fuses := max s.fw.fuses (hdSecurity (s.fwSlot s.fw.active).header)
      uncommitted := false
      status := 0 } } : State).fuMode .idle := by
  simp [State.fuCommit, hother, h]

theorem State.installCert_of_other (h : s.fuOther w = true) : s.installCert w = s.fuStatus 0x0C01 := if_pos h

theorem State.installCert_of_bad (hother : s.fuOther w = false)
    (h : s.certOk (s.fuBuf 0 256) (s.fuBuf 256 3604) = false) : s.installCert w = s.fuStatus 0x0C13 := by
  simp [State.installCert, hother, h]

theorem State.installCert_fw_unsigned (hother : s.fuOther w = false)
    (h : s.certOk (s.fuBuf 0 256) (s.fuBuf 256 3604) = true) :
    (s.installCert w).fw.unsigned = { s.fw with
      keyGen := s.fw.keyGen + 1, pendingKey := false, pendingSig := [], cert := s.fuBuf 0 256 ++ s.fuBuf 256 3604
      status := 0 }.unsigned := by
  simp only [State.installCert, hother, h, Bool.not_true, Bool.false_eq_true, if_false]
  rw [State.checkpoint_fw_unsigned, State.log_fw_unsigned]
  rfl

end

/-! ### FU_CTRL: put -/

/-- The status of a piece; `none` where it is stored already. -/
def State.pieceStatus (s : State) (i : Nat) (l : List Byte) : Option Nat :=
  if i = 0 then s.pieceZero (s.fwSlot s.fw.target) l else (s.fwSlot s.fw.target).pieceNext i l

section

variable {s : State} {w : Writer} {v : Nat}

theorem State.fuPut_of_not_mine (h : s.fuMine w = false) : s.fuPut w v = s.fuStatus 0x0C01 := by
  simp [State.fuPut, h]

theorem State.fuPut_of_refused (h : s.fuMine w = true) {st : Nat}
    (hpiece : s.pieceStatus (bits v 28 16) (s.fuBuf 0 65536) = some st) (hst : st ≠ 0) :
    s.fuPut w v = s.fuRefuse st := by
  unfold State.pieceStatus at hpiece
  simp only [State.fuPut, h, Bool.not_true, Bool.false_eq_true, if_false, hpiece]

theorem State.fuPut_of_fits (h : s.fuMine w = true)
    (hpiece : s.pieceStatus (bits v 28 16) (s.fuBuf 0 65536) = some 0) :
    s.fuPut w v = ((s.storePiece (bits v 28 16) (s.fuBuf 0 65536)).fuStatus 0).verifyImage := by
  unfold State.pieceStatus at hpiece
  simp only [State.fuPut, h, Bool.not_true, Bool.false_eq_true, if_false, hpiece]

end

section

variable {f : FwSlot} {i : Nat} {l : List Byte}

theorem FwSlot.pieceNext_of_outside (h : 0 ∉ f.received ∨ hdPieces f.header ≤ i) : f.pieceNext i l = some 0x0C07 := by
  simp [FwSlot.pieceNext, h]

/-- A content piece whose hash stands in a block-table piece that has not arrived. -/
theorem FwSlot.pieceNext_of_no_table (h0 : 0 ∈ f.received) (hnew : i ∉ f.received)
    (h : hdTables f.header < i ∧ 1 + (i - 1 - hdTables f.header) / 2048 ∉ f.received) : f.pieceNext i l = some 0x0C07 := by
  simp [FwSlot.pieceNext, h0, hnew, h]

theorem FwSlot.pieceNext_of_table (h0 : 0 ∈ f.received) (hi : i < hdPieces f.header) (hnew : i ∉ f.received)
    (h : ¬(hdTables f.header < i ∧ 1 + (i - 1 - hdTables f.header) / 2048 ∉ f.received)) :
    f.pieceNext i l = some (if f.pieceOk i l then 0 else 0x0C06) := by
  simp [FwSlot.pieceNext, h0, hi.not_ge, hnew, h]

end

theorem State.pieceZero_of_bad_header {s : State} {f : FwSlot} {l : List Byte} (hfactory : f.factory = false)
    (hnew : 0 ∉ f.received) (h : headerStatus s.fw.fuses s.fw.serial (l.take 4096) ≠ 0) :
    s.pieceZero f l = some (headerStatus s.fw.fuses s.fw.serial (l.take 4096)) := by
  simp [State.pieceZero, hfactory, hnew, h]

section

variable {s : State} {n : Nat} (hn : s.fw.target = n) (st : Nat)

include hn

theorem State.verifyImage_fuStatus_of_incomplete
    (h : (s.fwSlot n).received.length ≠ hdPieces (s.fwSlot n).header) : (s.fuStatus st).verifyImage = s.fuStatus st := by
  subst hn
  exact if_pos h

theorem State.verifyImage_fuStatus_of_signed
    (h : (s.fwSlot n).received.length = hdPieces (s.fwSlot n).header) (hsigned : (s.fwSlot n).signed = true) :
    (s.fuStatus st).verifyImage =
      ((s.fuStatus st).setFwSlot n { s.fwSlot n with verified := true }).fuMode .verified := by
  subst hn
  exact (if_neg (not_not.mpr h)).trans (if_pos hsigned)

theorem State.verifyImage_fuStatus_of_unsigned
    (h : (s.fwSlot n).received.length = hdPieces (s.fwSlot n).header) (hsigned : (s.fwSlot n).signed = false) :
    (s.fuStatus st).verifyImage = ((s.fuStatus st).setFwSlot n FwSlot.empty).fuStatus 0x0C09 := by
  subst hn
  exact (if_neg (not_not.mpr h)).trans (if_neg (Bool.not_eq_true _ ▸ hsigned))

end

theorem State.storePiece_target (s : State) (i : Nat) (l : List Byte) : (s.storePiece i l).fw.target = s.fw.target := rfl

/-! ### The commands as instructions -/

/-- A permitted write of FU_CTRL whose command is the row's has the command's effect. -/
theorem State.guarded_fuCtrl {s : State} {w : Writer} {v : Word} {c : Nat} (h : permits s w 0x780000 v.toNat = true)
    (hc : fld v 3 0 = c) (f : State → State) :
    s.guarded w 0x780000 v.toNat (fun t => if fld v 3 0 = c then f t else t) = f s := by
  rw [State.guarded_of_permits h, if_pos hc]

section

variable {s : State} {w : Writer} {v : Word} (h : permits s w 0x780000 v.toNat = true)

include h

theorem exec_fuOpen_of_permits (hc : fld v 3 0 = 1) : exec (.fuOpen w v) s = .next (s.fuOpen w v.toNat) :=
  congrArg Host.Outcome.next (State.guarded_fuCtrl h hc fun t => t.fuOpen w v.toNat)

theorem exec_fuPut_of_permits (hc : fld v 3 0 = 2) : exec (.fuPut w v) s = .next (s.fuPut w v.toNat) :=
  congrArg Host.Outcome.next (State.guarded_fuCtrl h hc fun t => t.fuPut w v.toNat)

theorem exec_fuDiscard_of_permits (hc : fld v 3 0 = 3) : exec (.fuDiscard w v) s = .next (s.fuDiscard w) :=
  congrArg Host.Outcome.next (State.guarded_fuCtrl h hc fun t => t.fuDiscard w)

theorem exec_fuArm_of_permits (hc : fld v 3 0 = 4) : exec (.fuArm w v) s = .next (s.fuArm w v.toNat) :=
  congrArg Host.Outcome.next (State.guarded_fuCtrl h hc fun t => t.fuArm w v.toNat)

theorem exec_fuInstallCert_of_permits (hc : fld v 3 0 = 8) : exec (.fuInstallCert w v) s = .next (s.installCert w) :=
  congrArg Host.Outcome.next (State.guarded_fuCtrl h hc fun t => t.installCert w)

theorem exec_fuCommit_of_permits (hc : fld v 3 0 = 9) : exec (.fuCommit w v) s = .next (s.fuCommit w) :=
  congrArg Host.Outcome.next (State.guarded_fuCtrl h hc fun t => t.fuCommit w)

end

/-! ### ARM_LOAD_DONE -/

/-- The boot state record once the second program stores are loaded: in reset mode the armed slot is on trial. -/
def Firmware.loaded (f : Firmware) (service : Bool) : Firmware :=
  if f.quiescent then { f with loading := false }
  else { f with loading := false, trial := some f.armedSlot, service := service }

theorem exec_armLoadDone_of_not_loading {s : State} (h : s.fw.loading = false) : exec .armLoadDone s = .next s := by
  show execArmLoadDone s = _
  simp [execArmLoadDone, h]

theorem exec_armLoadDone_of_loading {s : State} (h : s.fw.loading = true) :
    exec .armLoadDone s =
      .next (({ s with fw := s.fw.loaded (hdKind (s.fwSlot s.fw.armedSlot).header == 1) } : State).fuMode .armed) := by
  show execArmLoadDone s = _
  cases hq : s.fw.quiescent <;> simp [execArmLoadDone, Firmware.loaded, h, hq]

/-! ### Activation -/

theorem State.withdraw_fw (s : State) : s.withdraw.fw = s.fw :=
  (State.withdraw_keeps (P := [.tiles, .attn, .regs]) s (Keeps.refl s) (by decide) (by decide) (by decide)).parts .fw
    (by decide)

theorem State.startRepair_fw_unsigned (s : State) (rank chan : Nat) :
    (s.startRepair rank chan).fw.unsigned = s.fw.unsigned := by
  have hlog : ∀ (k : Stack) (ty c p : Nat),
      ((s.setStack rank k).logChannel ty rank c p).fw.unsigned = s.fw.unsigned := fun _ _ _ _ =>
    State.log_fw_unsigned ..
  unfold State.startRepair
  dsimp only
  split
  · rfl
  · split
    · split
      · rfl
      · exact hlog ..
    · rw [State.ownerEvent_fw]
      exact hlog ..

theorem State.resumeRepairs_fw_unsigned (s : State) : s.resumeRepairs.fw.unsigned = s.fw.unsigned := by
  refine iter_same (fun t : State => t.fw.unsigned) 75 _ s fun r t => ?_
  split
  · split
    · rfl
    · exact State.startRepair_fw_unsigned ..
  · rfl

/-- With no substitution and no wipe held back, the end of an activation starts repairs alone. -/
theorem State.resumeHeld_fw_unsigned {s : State} (hsubst : s.fw.heldSubst = none) (hwipe : s.fw.heldWipe = false) :
    s.resumeHeld.fw.unsigned = s.fw.unsigned := by
  unfold State.resumeHeld
  split
  · rfl
  · simp [hsubst, hwipe, State.resumeRepairs_fw_unsigned]

theorem State.activate_fw_unsigned (s : State) :
    s.activate.fw.unsigned = { s.fw with
      active := s.fw.armedSlot, uncommitted := true, holder := none, target := s.fw.active, booting := s.fw.armedSlot
      status := 0, mode := .activated }.unsigned :=
  State.fuMode_fw_unsigned (State.logActivate_fw_unsigned ..) .activated

theorem State.undoActivation_fw_unsigned (s : State) :
    s.undoActivation.fw.unsigned = { s.fw with mode := .verified, status := 0x0C0B }.unsigned :=
  congrArg (fun g : Firmware => { g with status := 0x0C0B })
    (State.fuMode_fw_unsigned (State.logActivate_fw_unsigned ..) .verified)

/-- The firmware record after an activation that has run to its end, of whatever outcome. -/
theorem State.resumeHeld_fw_unsigned_of_eq {t : State} {f : Firmware} (ht : t.fw.unsigned = f.unsigned)
    (hsubst : f.heldSubst = none) (hwipe : f.heldWipe = false) : t.resumeHeld.fw.unsigned = f.unsigned := by
  have htsubst : t.fw.heldSubst = none := (congrArg Firmware.heldSubst ht).trans hsubst
  have htwipe : t.fw.heldWipe = false := (congrArg Firmware.heldWipe ht).trans hwipe
  rw [State.resumeHeld_fw_unsigned htsubst htwipe, ht]

theorem exec_quiescentActivation_of_not_due {s : State} (h : s.activationDue = false) (b : Bool) :
    exec (.quiescentActivation b) s = .next s := by
  show execQuiescentActivation b s = _
  simp [execQuiescentActivation, h]

theorem exec_quiescentActivation_of_passed {s : State} (h : s.activationDue = true) :
    exec (.quiescentActivation true) s = .next s.withdraw.activate.resumeHeld := by
  show execQuiescentActivation true s = _
  simp [execQuiescentActivation, h]

theorem exec_quiescentActivation_of_failed {s : State} (h : s.activationDue = true) :
    exec (.quiescentActivation false) s = .next s.withdraw.undoActivation.resumeHeld := by
  show execQuiescentActivation false s = _
  simp [execQuiescentActivation, h]

/-! ### What each command and the activation bring about -/

section

variable {s : State} {w : Writer} {v : Word} (h : permits s w 0x780000 v.toNat = true)

include h

theorem exec_fuOpen_opens (hc : fld v 3 0 = 1) (hother : s.fuOther w = false) (harmed : s.fw.mode ≠ .armed)
    (hactivating : s.fw.mode ≠ .activating) (hload : s.fw.loading = false) :
    ∃ t, exec (.fuOpen w v) s = .next t ∧ t.fw.holder = some w ∧ t.fw.mode = .receiving ∧ t.fw.status = 0 ∧
      t.fw.target = s.fuTarget v.toNat ∧ t.reg 0x78001C = 0 ∧ t.fw.slots = s.fw.slots := by
  rw [exec_fuOpen_of_permits h hc, State.fuOpen_of_free hother harmed hactivating hload]
  refine ⟨_, rfl, ?_⟩
  rw [State.fuMode_fw, State.reg_fuMode_other _ (by decide), State.reg_setReg_same]
  exact ⟨rfl, rfl, rfl, rfl, rfl, rfl⟩

theorem exec_fuDiscard_empties (hc : fld v 3 0 = 3) (hmine : s.fuMine w = true) :
    ∃ t, exec (.fuDiscard w v) s = .next t ∧ t.fwSlot s.fw.target = FwSlot.empty ∧
      t.fw.mode = .receiving ∧ t.fw.status = 0 ∧ ∀ m, m ≠ s.fw.target → t.fwSlot m = s.fwSlot m := by
  rw [exec_fuDiscard_of_permits h hc, State.fuDiscard_of_mine hmine]
  refine ⟨_, rfl, ?_, ?_, rfl, fun m hm => ?_⟩
  · exact (State.fwSlot_fuMode ..).trans (State.fwSlot_setFwSlot_same ..)
  · exact congrArg Firmware.mode (State.fuMode_fw ..)
  · exact (State.fwSlot_fuMode ..).trans (State.fwSlot_setFwSlot_other _ _ _ _ hm)

theorem exec_fuCommit_commits (hc : fld v 3 0 = 9) (hother : s.fuOther w = false) (hmark : s.fw.uncommitted = true) :
    ∃ t, exec (.fuCommit w v) s = .next t ∧
      t.fw.fuses = max s.fw.fuses (hdSecurity (s.fwSlot s.fw.active).header) ∧ t.fw.uncommitted = false ∧
      t.fw.mode = .idle ∧ t.fw.slots = s.fw.slots := by
  rw [exec_fuCommit_of_permits h hc, State.fuCommit_of_uncommitted hother hmark]
  refine ⟨_, rfl, ?_⟩
  rw [State.fuMode_fw]
  exact ⟨rfl, rfl, rfl, rfl⟩

theorem exec_fuInstallCert_renews (hc : fld v 3 0 = 8) (hother : s.fuOther w = false)
    (hcert : s.certOk (s.fuBuf 0 256) (s.fuBuf 256 3604) = true) :
    ∃ t, exec (.fuInstallCert w v) s = .next t ∧ t.fw.keyGen = s.fw.keyGen + 1 ∧ t.fw.pendingKey = false ∧
      t.fw.cert = s.fuBuf 0 256 ++ s.fuBuf 256 3604 := by
  have hfw := Firmware.eq_of_unsigned_eq (State.installCert_fw_unsigned hother hcert)
  refine ⟨_, exec_fuInstallCert_of_permits h hc, ?_⟩
  rw [hfw]
  exact ⟨rfl, rfl, rfl⟩

theorem exec_fuPut_stores (hc : fld v 3 0 = 2) (hmine : s.fuMine w = true)
    (hpiece : s.pieceStatus (bits v.toNat 28 16) (s.fuBuf 0 65536) = some 0) :
    let t := s.storePiece (bits v.toNat 28 16) (s.fuBuf 0 65536)
    (t.fwSlot s.fw.target).received.length ≠ hdPieces (t.fwSlot s.fw.target).header →
      exec (.fuPut w v) s = .next (t.fuStatus 0) := by
  intro t hpart
  rw [exec_fuPut_of_permits h hc, State.fuPut_of_fits hmine hpiece,
    State.verifyImage_fuStatus_of_incomplete (s.storePiece_target ..) 0 hpart]

/-- The last piece: with the image whole, the root signature decides (R483). -/
theorem exec_fuPut_verifies (hc : fld v 3 0 = 2) (hmine : s.fuMine w = true)
    (hpiece : s.pieceStatus (bits v.toNat 28 16) (s.fuBuf 0 65536) = some 0) :
    let t := s.storePiece (bits v.toNat 28 16) (s.fuBuf 0 65536)
    (t.fwSlot s.fw.target).received.length = hdPieces (t.fwSlot s.fw.target).header →
      ∃ u, exec (.fuPut w v) s = .next u ∧
        ((t.fwSlot s.fw.target).signed = true → u.fw.mode = .verified ∧ u.fw.status = 0 ∧
          u.fwSlot s.fw.target = { t.fwSlot s.fw.target with verified := true }) ∧
        ((t.fwSlot s.fw.target).signed = false → u.fw.status = 0x0C09 ∧ u.fwSlot s.fw.target = FwSlot.empty) := by
  intro t hwhole
  have htarget : t.fw.target = s.fw.target := s.storePiece_target ..
  rw [exec_fuPut_of_permits h hc, State.fuPut_of_fits hmine hpiece]
  refine ⟨_, rfl, fun hsigned => ?_, fun hsigned => ?_⟩
  · rw [State.verifyImage_fuStatus_of_signed htarget 0 hwhole hsigned, State.fwSlot_fuMode, State.fuMode_fw]
    exact ⟨rfl, rfl, State.fwSlot_setFwSlot_same ..⟩
  · rw [State.verifyImage_fuStatus_of_unsigned htarget 0 hwhole hsigned, State.fwSlot_fuStatus,
      State.fwSlot_setFwSlot_same]
    exact ⟨rfl, rfl⟩

end

theorem exec_quiescentActivation_activates {s : State} (hdue : s.activationDue = true) (hsubst : s.fw.heldSubst = none)
    (hwipe : s.fw.heldWipe = false) :
    ∃ t, exec (.quiescentActivation true) s = .next t ∧ t.fw.active = s.fw.armedSlot ∧ t.fw.uncommitted = true ∧
      t.fw.mode = .activated ∧ t.fw.holder = none := by
  have hactive := s.withdraw.activate_fw_unsigned
  rw [State.withdraw_fw] at hactive
  have hfw := Firmware.eq_of_unsigned_eq (State.resumeHeld_fw_unsigned_of_eq hactive hsubst hwipe)
  refine ⟨_, exec_quiescentActivation_of_passed hdue, ?_⟩
  rw [hfw]
  exact ⟨rfl, rfl, rfl, rfl⟩

theorem exec_quiescentActivation_undoes {s : State} (hdue : s.activationDue = true) (hsubst : s.fw.heldSubst = none)
    (hwipe : s.fw.heldWipe = false) :
    ∃ t, exec (.quiescentActivation false) s = .next t ∧ t.fw.active = s.fw.active ∧ t.fw.mode = .verified ∧
      t.fw.status = 0x0C0B := by
  have hundone := s.withdraw.undoActivation_fw_unsigned
  rw [State.withdraw_fw] at hundone
  have hfw := Firmware.eq_of_unsigned_eq (State.resumeHeld_fw_unsigned_of_eq hundone hsubst hwipe)
  refine ⟨_, exec_quiescentActivation_of_failed hdue, ?_⟩
  rw [hfw]
  exact ⟨rfl, rfl, rfl⟩

/-- Settles O56: each command of FU_CTRL has the effect of its branch; a logbook record changes no field of the firmware
record but the count of signatures, so activation, undo and a new certificate stand after their records. -/
theorem firmwareIsDelivered : Obligations.FirmwareIsDelivered := by
  unfold Obligations.FirmwareIsDelivered
  refine ⟨fun s w v hp => ?_, fun s w v hp hc => ?_, fun s => ⟨exec_armLoadDone_of_not_loading, fun hload => ?_⟩,
    fun s => ⟨fun b hdue => exec_quiescentActivation_of_not_due hdue b, fun hdue hsubst hwipe =>
      ⟨exec_quiescentActivation_activates hdue hsubst hwipe, exec_quiescentActivation_undoes hdue hsubst hwipe⟩⟩⟩
  · intro refuse n
    refine ⟨fun hc => ⟨fun hbusy => ?_, exec_fuOpen_opens hp hc⟩,
      fun hc => ⟨fun hmine => ?_, exec_fuDiscard_empties hp hc⟩,
      fun hc => ⟨fun hother => ?_, fun hother hmode hbad => ?_,
        fun hother hmode hload harmable => ⟨fun hq hbad => ?_, fun hok => ?_⟩⟩,
      fun hc => ⟨fun hother => ?_, fun hother hmark => ?_, exec_fuCommit_commits hp hc⟩,
      fun hc => ⟨fun hother => ?_, fun hother hbad => ?_, exec_fuInstallCert_renews hp hc⟩⟩
    · rw [exec_fuOpen_of_permits hp hc, State.fuOpen_of_busy hbusy]; rfl
    · rw [exec_fuDiscard_of_permits hp hc, State.fuDiscard_of_not_mine hmine]; rfl
    · rw [exec_fuArm_of_permits hp hc, State.fuArm_of_other hother]; rfl
    · rw [exec_fuArm_of_permits hp hc, State.fuArm_of_not_armed hother hmode, if_pos]
      · rfl
      · exact hbad.imp_right fun hn => .inl (by rw [hn]; rfl)
    · rw [exec_fuArm_of_permits hp hc, State.fuArm_of_not_armed hother hmode, if_pos]
      · rfl
      · exact .inr (.inr (by rw [hq, hbad]; rfl))
    · rw [exec_fuArm_of_permits hp hc, State.fuArm_of_not_armed hother hmode, if_neg]
      have harm : s.armable (bits v.toNat 4 4) = true := harmable
      simp only [hload, harm]
      simpa using hok
    · rw [exec_fuCommit_of_permits hp hc, State.fuCommit_of_other hother]; rfl
    · rw [exec_fuCommit_of_permits hp hc, State.fuCommit_of_committed hother hmark]; rfl
    · rw [exec_fuInstallCert_of_permits hp hc, State.installCert_of_other hother]; rfl
    · rw [exec_fuInstallCert_of_permits hp hc, State.installCert_of_bad hother hbad]; rfl
  · intro i l f t bad
    have hexec := exec_fuPut_of_permits hp hc
    have hrefused : ∀ st, s.fuMine w = true → s.pieceStatus i l = some st → st ≠ 0 → exec (.fuPut w v) s = bad st :=
      fun st hmine hpiece hst => hexec.trans (congrArg Host.Outcome.next (State.fuPut_of_refused hmine hpiece hst))
    have hlater : i ≠ 0 → s.pieceStatus i l = f.pieceNext i l := fun hi => if_neg hi
    refine ⟨fun hmine => ?_, fun hmine hi hout => ?_, fun hmine hi h0 hlt hnew => ⟨fun htable => ?_, fun htable => ?_⟩,
      fun hmine hi hfactory hnew hbad => ?_⟩
    · rw [hexec, State.fuPut_of_not_mine hmine]
    · exact hrefused _ hmine ((hlater hi).trans (FwSlot.pieceNext_of_outside hout)) (by decide)
    · exact hrefused _ hmine ((hlater hi).trans (FwSlot.pieceNext_of_no_table h0 hnew htable)) (by decide)
    · have hpiece := (hlater hi).trans (FwSlot.pieceNext_of_table h0 hlt hnew htable)
      refine ⟨fun hok => ?_, fun hok hpart => ?_, fun hok => ?_⟩
      · rw [hok] at hpiece
        exact hrefused _ hmine hpiece (by decide)
      · rw [hok] at hpiece
        exact exec_fuPut_stores hp hc hmine hpiece hpart
      · rw [hok] at hpiece
        exact exec_fuPut_verifies hp hc hmine hpiece
    · refine hrefused _ hmine ?_ hbad
      exact (if_pos hi).trans (State.pieceZero_of_bad_header hfactory hnew hbad)
  · refine ⟨_, exec_armLoadDone_of_loading hload, ?_⟩
    rw [State.fuMode_fw]
    cases hq : s.fw.quiescent <;> simp [Firmware.loaded, hq]

end Sys2Proof.Machine

end

section

/-! What every command keeps: each meaning's own `_keeps` lemma at the parts that `touches` lists for its command. -/

namespace Sys2Proof.Machine

open Sys2Proof Sys2Proof.Safety

/-- A part that stands in a command's list of parts. -/
theorem touched {p : Part} {i : Instr} (h : (touches i).elem p = true := by rfl) : p ∈ touches i := List.mem_of_elem_eq_true h

theorem exec_keeps {i : Instr} {s t : State} (e : exec i s = .next t) : Keeps (touches i) s t := by
  cases i with
  | claim site core => exact execClaim_keeps site core s (.refl s) touched touched t e
  | loadA site core => exact execLoadA_keeps site core s (.refl s) touched touched touched touched touched touched touched t e
  | loadB site core => exact execLoadB_keeps site core s (.refl s) touched touched touched touched touched touched touched t e
  | mma site core => exact execMma_keeps site core s (.refl s) touched touched touched touched touched touched touched t e
  | changeover site core opdWait => exact execChangeover_keeps site core opdWait s (.refl s) touched touched t e
  | bankToggle site core lost => exact execBankToggle_keeps site core lost s (.refl s) touched touched t e
  | drain site core => exact execDrain_keeps site core s (.refl s) touched touched touched touched touched touched touched touched touched t e
  | shadowCopy site core => exact execShadowCopy_keeps site core s (.refl s) touched t e
  | fence site core => exact execFence_keeps site core s (.refl s) touched t e
  | tileComplete site core => exact execTileComplete_keeps site core s (.refl s) touched touched touched touched t e
  | coreIdle site core => exact execCoreIdle_keeps site core s (.refl s) touched t e
  | stepBoundary cx ring => exact execStepBoundary_keeps cx ring s (.refl s) touched touched touched touched touched touched touched t e
  | grMonClear w v => exact execGrMonClear_keeps w v s (.refl s) touched touched t e
  | grFirstWrite w v => exact execGrFirstWrite_keeps w v s (.refl s) touched t e
  | grUntrackedWrite w v => exact execGrUntrackedWrite_keeps w v s (.refl s) touched t e
  | runKernel cx => exact execRunKernel_keeps cx s (.refl s) touched touched touched touched touched touched touched touched t e
  | loadKernel cx => exact execLoadKernel_keeps cx s (.refl s) touched touched touched touched touched touched touched t e
  | lapCounterFreed cx => exact execLapCounterFreed_keeps cx s (.refl s) touched touched touched touched touched touched touched touched t e
  | stageCSum counter tile => exact execStageCSum_keeps counter tile s (.refl s) touched touched touched touched touched touched touched touched touched t e
  | hurdleArrival cx chained rank => exact execHurdleArrival_keeps cx chained rank s (.refl s) touched touched touched touched touched touched touched touched t e
  | coreLost site core => exact execCoreLost_keeps site core s (.refl s) touched touched touched touched touched touched t e
  | coreHangTimeout site core => exact execCoreHangTimeout_keeps site core s (.refl s) touched touched touched touched touched touched t e
  | coreEnterService site core => exact execCoreEnterService_keeps site core s (.refl s) touched touched touched touched touched t e
  | dispatchDecode cx ring line ext failed mismatches => exact execDispatchDecode_keeps cx ring line ext failed mismatches s (.refl s) touched touched touched touched touched touched touched touched t e
  | chain cx => exact execChain_keeps cx s (.refl s) touched touched touched touched touched touched touched touched touched t e
  | add cx => exact execAdd_keeps cx s (.refl s) touched touched touched touched touched touched touched touched touched t e
  | sub cx => exact execSub_keeps cx s (.refl s) touched touched touched touched touched touched touched touched touched t e
  | mul cx => exact execMul_keeps cx s (.refl s) touched touched touched touched touched touched touched touched touched t e
  | fma cx => exact execFma_keeps cx s (.refl s) touched touched touched touched touched touched touched touched touched t e
  | max cx => exact execMax_keeps cx s (.refl s) touched touched touched touched touched touched touched touched touched t e
  | min cx => exact execMin_keeps cx s (.refl s) touched touched touched touched touched touched touched touched touched t e
  | convert cx => exact execConvert_keeps cx s (.refl s) touched touched touched touched touched touched touched touched touched t e
  | quantMx cx => exact execQuantMx_keeps cx s (.refl s) touched touched touched touched touched touched touched touched touched t e
  | dequantMx cx => exact execDequantMx_keeps cx s (.refl s) touched touched touched touched touched touched touched touched touched t e
  | treeSum cx => exact execTreeSum_keeps cx s (.refl s) touched touched touched touched touched touched touched touched touched t e
  | rowSum cx => exact execRowSum_keeps cx s (.refl s) touched touched touched touched touched touched touched touched touched t e
  | rowMax cx => exact execRowMax_keeps cx s (.refl s) touched touched touched touched touched touched touched touched touched t e
  | argmax cx => exact execArgmax_keeps cx s (.refl s) touched touched touched touched touched touched touched touched touched t e
  | softmaxMerge cx => exact execSoftmaxMerge_keeps cx s (.refl s) touched touched touched touched touched touched touched touched touched t e
  | normApply cx => exact execNormApply_keeps cx s (.refl s) touched touched touched touched touched touched touched touched touched t e
  | pool cx window => exact execPool_keeps cx window s (.refl s) touched touched touched touched touched touched touched touched touched touched t e
  | exp cx => exact execExp_keeps cx s (.refl s) touched touched touched touched touched touched touched touched touched t e
  | exp2 cx => exact execExp2_keeps cx s (.refl s) touched touched touched touched touched touched touched touched touched t e
  | log cx => exact execLog_keeps cx s (.refl s) touched touched touched touched touched touched touched touched touched t e
  | log2 cx => exact execLog2_keeps cx s (.refl s) touched touched touched touched touched touched touched touched touched t e
  | reciprocal cx => exact execReciprocal_keeps cx s (.refl s) touched touched touched touched touched touched touched touched touched t e
  | rsqrt cx => exact execRsqrt_keeps cx s (.refl s) touched touched touched touched touched touched touched touched touched t e
  | sqrt cx => exact execSqrt_keeps cx s (.refl s) touched touched touched touched touched touched touched touched touched t e
  | tanh cx => exact execTanh_keeps cx s (.refl s) touched touched touched touched touched touched touched touched touched t e
  | sigmoid cx => exact execSigmoid_keeps cx s (.refl s) touched touched touched touched touched touched touched touched touched t e
  | erf cx => exact execErf_keeps cx s (.refl s) touched touched touched touched touched touched touched touched touched t e
  | geluTanh cx => exact execGeluTanh_keeps cx s (.refl s) touched touched touched touched touched touched touched touched touched t e
  | geluErf cx => exact execGeluErf_keeps cx s (.refl s) touched touched touched touched touched touched touched touched touched t e
  | silu cx => exact execSilu_keeps cx s (.refl s) touched touched touched touched touched touched touched touched touched t e
  | softplus cx => exact execSoftplus_keeps cx s (.refl s) touched touched touched touched touched touched touched touched touched t e
  | sin cx => exact execSin_keeps cx s (.refl s) touched touched touched touched touched touched touched touched touched t e
  | cos cx => exact execCos_keeps cx s (.refl s) touched touched touched touched touched touched touched touched touched t e
  | rowStats cx => exact execRowStats_keeps cx s (.refl s) touched touched touched touched touched touched touched touched touched t e
  | rowLse cx => exact execRowLse_keeps cx s (.refl s) touched touched touched touched touched touched touched touched touched t e
  | micro cx => exact execMicro_keeps cx s (.refl s) touched touched touched touched touched touched touched touched touched t e
  | gather cx => exact execGather_keeps cx s (.refl s) touched touched touched touched touched touched touched touched touched t e
  | scatter cx => exact execScatter_keeps cx s (.refl s) touched touched touched touched touched touched touched touched touched t e
  | sort cx => exact execSort_keeps cx s (.refl s) touched touched touched touched touched touched touched touched touched t e
  | topk cx => exact execTopk_keeps cx s (.refl s) touched touched touched touched touched touched touched touched touched t e
  | segmentReduce cx => exact execSegmentReduce_keeps cx s (.refl s) touched touched touched touched touched touched touched touched touched t e
  | setPad cx => exact execSetPad_keeps cx s (.refl s) touched touched touched touched touched touched touched touched touched t e
  | adjExpand cx => exact execAdjExpand_keeps cx s (.refl s) touched touched touched touched touched touched touched touched touched t e
  | egFirstWrite w site v => exact execEgFirstWrite_keeps w site v s (.refl s) touched t e
  | egClear w site v => exact execEgClear_keeps w site v s (.refl s) touched t e
  | attention cx => exact execAttention_keeps cx s (.refl s) touched touched touched touched touched touched touched touched touched touched t e
  | spanForm cx claim span => exact execSpanForm_keeps cx claim span s (.refl s) touched touched touched touched touched touched touched touched touched touched touched t e
  | spanMerge cx claim => exact execSpanMerge_keeps cx claim s (.refl s) touched touched touched touched touched touched touched touched touched touched touched t e
  | sequenceEnable w seq v => exact execSequenceEnable_keeps w seq v s (.refl s) touched touched t e
  | sequenceDisable w seq v => exact execSequenceDisable_keeps w seq v s (.refl s) touched touched touched t e
  | share cx => exact execShare_keeps cx s (.refl s) touched touched touched touched touched touched touched t e
  | pageFree cx => exact execPageFree_keeps cx s (.refl s) touched touched touched touched touched touched touched t e
  | shareCountUpdate rank => exact execShareCountUpdate_keeps rank s (.refl s) touched t e
  | cowCopyDone seq page => exact execCowCopyDone_keeps seq page s (.refl s) touched touched touched touched touched touched touched touched touched touched t e
  | reclaim seq => exact execReclaim_keeps seq s (.refl s) touched touched touched t e
  | sliceStage counter rank bandWait => exact execSliceStage_keeps counter rank bandWait s (.refl s) touched touched touched touched touched touched touched touched touched touched t e
  | gatedClaim site core gateWait => exact execGatedClaim_keeps site core gateWait s (.refl s) touched touched touched t e
  | chainedKernelIssue cx => exact execChainedKernelIssue_keeps cx s (.refl s) touched touched touched touched touched touched touched touched t e
  | fill cx ring => exact execFill_keeps cx ring s (.refl s) touched touched touched touched touched touched touched touched touched t e
  | spill cx ring => exact execSpill_keeps cx ring s (.refl s) touched touched touched touched touched touched touched touched touched t e
  | copy cx ring => exact execCopy_keeps cx ring s (.refl s) touched touched touched touched touched touched touched touched touched t e
  | map cx ring => exact execMap_keeps cx ring s (.refl s) touched touched touched touched touched touched touched touched t e
  | unmap cx ring => exact execUnmap_keeps cx ring s (.refl s) touched touched touched touched touched touched touched t e
  | unmapFree cx => exact execUnmapFree_keeps cx s (.refl s) touched t e
  | wmap cx ring => exact execWmap_keeps cx ring s (.refl s) touched touched touched touched touched touched touched t e
  | wload cx ring => exact execWload_keeps cx ring s (.refl s) touched touched touched touched touched touched touched touched touched t e
  | heatDecay => exact execHeatDecay_keeps s (.refl s) touched t e
  | channelRetrainStart rank chan scheduled => exact execChannelRetrainStart_keeps rank chan scheduled s (.refl s) touched touched t e
  | channelRetrainEnd rank chan passed holdNs => exact execChannelRetrainEnd_keeps rank chan passed holdNs s (.refl s) touched touched touched touched touched touched touched touched touched touched touched touched touched t e
  | channelRepairStart rank chan => exact execChannelRepairStart_keeps rank chan s (.refl s) touched touched touched touched touched t e
  | channelRepairEnd rank chan => exact execChannelRepairEnd_keeps rank chan s (.refl s) touched touched touched touched touched touched t e
  | patrolScrub rank granule symbols => exact execPatrolScrub_keeps rank granule symbols s (.refl s) touched touched touched touched touched touched t e
  | stackThermalSample rank celsius => exact execStackThermalSample_keeps rank celsius s (.refl s) touched touched touched touched touched touched touched touched touched touched touched touched touched touched t e
  | stackCriticalTimeout rank => exact execStackCriticalTimeout_keeps rank s (.refl s) touched touched touched touched touched touched touched touched touched touched touched touched t e
  | trErrClear w v => exact execTrErrClear_keeps w v s (.refl s) touched touched t e
  | linkTrainingStart link => exact execLinkTrainingStart_keeps link s (.refl s) touched touched touched touched touched touched touched touched touched touched t e
  | linkTrainingEnd link txMask rxMask peer peerLink => exact execLinkTrainingEnd_keeps link txMask rxMask peer peerLink s (.refl s) touched touched touched touched touched touched touched touched touched touched t e
  | linkTrainingRetry link => exact execLinkTrainingRetry_keeps link s (.refl s) touched t e
  | laneSpare link lane why => exact execLaneSpare_keeps link lane why s (.refl s) touched touched touched touched touched t e
  | linkRetrain link => exact execLinkRetrain_keeps link s (.refl s) touched touched touched touched touched touched touched touched touched touched t e
  | batonSlot link => exact execBatonSlot_keeps link s (.refl s) touched touched touched touched touched touched touched touched touched touched t e
  | replayTimeout link => exact execReplayTimeout_keeps link s (.refl s) touched t e
  | idleBaton link baton => exact execIdleBaton_keeps link baton s (.refl s) touched touched touched touched touched touched touched touched touched touched t e
  | nakBaton link baton => exact execNakBaton_keeps link baton s (.refl s) touched touched touched touched touched touched touched touched touched touched t e
  | bulkBaton link baton => exact execBulkBaton_keeps link baton s (.refl s) touched touched touched touched touched touched touched touched touched touched t e
  | doneBaton link baton => exact execDoneBaton_keeps link baton s (.refl s) touched touched touched touched touched touched touched touched touched touched t e
  | unreachBaton link baton => exact execUnreachBaton_keeps link baton s (.refl s) touched touched touched touched touched touched touched touched touched touched t e
  | reduceBaton link baton => exact execReduceBaton_keeps link baton s (.refl s) touched touched touched touched touched touched touched touched touched touched t e
  | bcastBaton link baton => exact execBcastBaton_keeps link baton s (.refl s) touched touched touched touched touched touched touched touched touched touched touched t e
  | sprintBaton link baton => exact execSprintBaton_keeps link baton s (.refl s) touched touched touched touched touched touched touched touched touched touched touched t e
  | mgmtBaton link baton => exact execMgmtBaton_keeps link baton s (.refl s) touched touched touched touched touched touched touched touched touched touched t e
  | adderSum cx group grants localNs childNs => exact execAdderSum_keeps cx group grants localNs childNs s (.refl s) touched touched touched touched touched touched touched touched touched touched t e
  | lkErrClear w link v => exact execLkErrClear_keeps w link v s (.refl s) touched t e
  | form cx => exact execForm_keeps cx s (.refl s) touched touched touched touched touched touched touched t e
  | reform cx => exact execReform_keeps cx s (.refl s) touched touched touched touched touched touched touched t e
  | groupFree cx => exact execGroupFree_keeps cx s (.refl s) touched touched touched touched touched touched touched t e
  | reduce cx => exact execReduce_keeps cx s (.refl s) touched touched touched touched touched touched touched touched touched touched t e
  | bcast cx => exact execBcast_keeps cx s (.refl s) touched touched touched touched touched touched touched touched touched touched t e
  | sprint cx => exact execSprint_keeps cx s (.refl s) touched touched touched touched touched touched touched touched touched touched t e
  | collectiveTimeout cx group => exact execCollectiveTimeout_keeps cx group s (.refl s) touched touched touched touched touched touched touched touched touched touched t e
  | abClear w site v => exact execAbClear_keeps w site v s (.refl s) touched touched t e
  | streamBind w st v => exact execStreamBind_keeps w st v s (.refl s) touched touched t e
  | stArm w st v => exact execStArm_keeps w st v s (.refl s) touched touched t e
  | doorbellSnoop cx => exact execDoorbellSnoop_keeps cx s (.refl s) touched t e
  | doorbellPoll cx => exact execDoorbellPoll_keeps cx s (.refl s) touched t e
  | doorbellReadDone cx line failed => exact execDoorbellReadDone_keeps cx line failed s (.refl s) touched touched t e
  | nop cx ring => exact execNop_keeps cx ring s (.refl s) touched touched touched touched touched touched t e
  | semSignal cx ring => exact execSemSignal_keeps cx ring s (.refl s) touched touched touched touched touched touched t e
  | semWait cx ring => exact execSemWait_keeps cx ring s (.refl s) touched touched touched touched touched touched t e
  | hostCopy cx data failed => exact execHostCopy_keeps cx data failed s (.refl s) touched touched touched touched touched touched touched touched touched t e
  | bulkSend cx => exact execBulkSend_keeps cx s (.refl s) touched touched touched touched touched touched touched touched t e
  | admitPackage cx data failed => exact execAdmit_keeps cx data failed s (.refl s) touched touched touched touched touched touched touched touched touched touched t e
  | evict cx => exact execEvict_keeps cx s (.refl s) touched touched touched touched touched touched touched touched touched t e
  | completionAck cx ring => exact execCompletionAck_keeps cx ring s (.refl s) touched touched t e
  | irqCoalesceTimer cx ring => exact execIrqCoalesceTimer_keeps cx ring s (.refl s) touched t e
  | hostPortDown port => exact execHostPortDown_keeps port s (.refl s) touched touched touched touched touched touched touched touched touched touched touched t e
  | hostPortDegraded port => exact execHostPortDegraded_keeps port s (.refl s) touched touched t e
  | hpCxMaskWrite w port v => exact execHpCxMaskWrite_keeps w port v s (.refl s) touched touched t e
  | cxStart w cx line failed => exact execCxStart_keeps w cx line failed s (.refl s) touched touched t e
  | cxStop w cx => exact execCxStop_keeps w cx s (.refl s) touched touched t e
  | legEdge => exact execLegEdge_keeps s (.refl s) touched touched touched touched touched touched touched touched touched touched touched touched t e
  | sharedQuantumExpiry => exact execSharedQuantumExpiry_keeps s (.refl s) touched t e
  | contextSwitch overrunNs lateNs => exact execContextSwitch_keeps overrunNs lateNs s (.refl s) touched touched touched touched touched t e
  | durationExpiry cx ring => exact execDurationExpiry_keeps cx ring s (.refl s) touched touched touched touched touched touched touched touched touched touched touched touched touched t e
  | teardown cx => exact execTeardown_keeps cx s (.refl s) touched touched touched touched touched touched touched touched touched touched touched touched touched touched touched t e
  | scClear w v => exact execScClear_keeps w v s (.refl s) touched touched t e
  | streamOpen cx => exact execStreamOpen_keeps cx s (.refl s) touched touched touched touched touched touched touched touched touched touched t e
  | streamClose cx => exact execStreamClose_keeps cx s (.refl s) touched touched touched touched touched touched touched t e
  | encode cx => exact execEncode_keeps cx s (.refl s) touched touched touched touched touched touched touched t e
  | decode cx => exact execDecode_keeps cx s (.refl s) touched touched touched touched touched touched touched t e
  | playStart cx => exact execPlayStart_keeps cx s (.refl s) touched touched touched touched touched touched touched t e
  | playStop cx => exact execPlayStop_keeps cx s (.refl s) touched touched touched touched touched touched touched touched touched touched touched t e
  | playQueue cx => exact execPlayQueue_keeps cx s (.refl s) touched touched touched touched touched touched touched t e
  | slate cx => exact execSlate_keeps cx s (.refl s) touched touched touched touched touched touched touched touched t e
  | mediaFrameStart eng => exact execMediaFrameStart_keeps eng s (.refl s) touched t e
  | mediaFrameEnd eng => exact execMediaFrameEnd_keeps eng s (.refl s) touched touched touched touched touched touched touched touched touched touched t e
  | playoutFrameTake po => exact execPlayoutFrameTake_keeps po s (.refl s) touched touched touched touched touched touched touched touched touched touched touched t e
  | playoutPacketSend po => exact execPlayoutPacketSend_keeps po s (.refl s) touched touched touched touched touched touched touched touched touched touched touched t e
  | ptpSync po offset settled newMaster => exact execPtpSync_keeps po offset settled newMaster s (.refl s) touched touched t e
  | ptpSyncLoss po => exact execPtpSyncLoss_keeps po s (.refl s) touched t e
  | runOutLimit po => exact execRunOutLimit_keeps po s (.refl s) touched touched touched touched touched touched touched touched touched touched touched t e
  | poClear w po v => exact execPoClear_keeps w po v s (.refl s) touched t e
  | csOpen w cset g => exact execCsOpen_keeps w cset g s (.refl s) touched t e
  | csClose w cset g => exact execCsClose_keeps w cset g s (.refl s) touched touched touched touched touched touched touched touched touched touched touched t e
  | registerWrite w off size data => exact execRegisterWrite_keeps w off size data s (.refl s) touched touched touched touched touched touched touched touched touched touched touched touched touched touched touched touched touched t e
  | registerReadLo port off => exact execRegisterReadLo_keeps port off s (.refl s) touched touched touched t e
  | glCfgErrWrite w v => exact execGlCfgErrWrite_keeps w v s (.refl s) touched t e
  | glOwnerEventWrite w v => exact execGlOwnerEventWrite_keeps w v s (.refl s) touched t e
  | fdStallClear w site v => exact execFdStallClear_keeps w site v s (.refl s) touched touched t e
  | parityFault place => exact execParityFault_keeps place s (.refl s) touched touched touched touched touched touched touched touched touched touched touched touched touched touched t e
  | coreRetest site core passed => exact execCoreRetest_keeps site core passed s (.refl s) touched touched touched touched touched t e
  | fieldLost site => exact execFieldLost_keeps site s (.refl s) touched touched touched touched touched touched touched touched touched touched touched touched touched t e
  | heartbeatMiss unit => exact execHeartbeatMiss_keeps unit s (.refl s) touched touched touched touched touched touched touched touched touched touched touched touched touched touched t e
  | mgcWatchdog => exact execMgcWatchdog_keeps s (.refl s) touched touched touched touched touched touched t e
  | plannedSubstStart w v => exact execPlannedSubstStart_keeps w v s (.refl s) touched touched touched t e
  | substDrain => exact execSubstDrain_keeps s (.refl s) touched touched touched touched touched touched touched touched touched touched touched touched touched t e
  | unplannedSubstDone => exact execUnplannedSubstDone_keeps s (.refl s) touched touched touched touched touched touched touched touched touched t e
  | weightRebuildDone rank => exact execWeightRebuildDone_keeps rank s (.refl s) touched t e
  | leaseMark w => exact execLeaseMark_keeps w s (.refl s) touched touched touched touched t e
  | checkpointRequest w => exact execCheckpointRequest_keeps w s (.refl s) touched touched touched touched t e
  | grade w => exact execGrade_keeps w s (.refl s) touched touched touched touched t e
  | usageRecord milliKwh hotSeconds inlet => exact execUsageRecord_keeps milliKwh hotSeconds inlet s (.refl s) touched touched touched touched t e
  | tmDataWrite w v => exact execTmDataWrite_keeps w v s (.refl s) touched touched t e
  | tmCommit w v => exact execTmCommit_keeps w v s (.refl s) touched touched touched touched t e
  | fuOpen w v => exact execFuOpen_keeps w v s (.refl s) touched touched touched t e
  | fuPut w v => exact execFuPut_keeps w v s (.refl s) touched touched touched t e
  | fuDiscard w v => exact execFuDiscard_keeps w v s (.refl s) touched touched touched t e
  | fuArm w v => exact execFuArm_keeps w v s (.refl s) touched touched touched touched touched touched touched touched touched touched touched touched touched touched touched touched t e
  | armLoadDone => exact execArmLoadDone_keeps s (.refl s) touched touched touched t e
  | quiescentActivation passed => exact execQuiescentActivation_keeps passed s (.refl s) touched touched touched touched touched touched touched touched touched touched touched t e
  | fuInstallCert w v => exact execFuInstallCert_keeps w v s (.refl s) touched touched touched touched t e
  | fuCommit w v => exact execFuCommit_keeps w v s (.refl s) touched touched touched t e
  | attestationRequest w v => exact execAttestationRequest_keeps w v s (.refl s) touched touched touched touched t e
  | wipeStart w v => exact execWipeStart_keeps w v s (.refl s) touched touched touched touched touched touched touched touched touched touched touched t e
  | resetAssert => exact execResetAssert_keeps s (.refl s) touched touched touched touched touched touched touched touched touched touched touched touched touched touched touched touched t e
  | resetRelease straps => exact execResetRelease_keeps straps s (.refl s) touched touched touched touched touched t e
  | setComplete badSites => exact execSetComplete_keeps badSites s (.refl s) touched touched touched touched touched touched touched touched touched touched t e
  | setLimitExpiry => exact execSetLimitExpiry_keeps s (.refl s) touched touched t e
  | setStatusAlternate => exact execSetStatusAlternate_keeps s (.refl s) touched t e
  | busVoltageEvent centivolts microseconds => exact execBusVoltageEvent_keeps centivolts microseconds s (.refl s) touched touched touched touched touched touched touched touched touched touched touched touched t e
  | powerFault rail site => exact execPowerFault_keeps rail site s (.refl s) touched touched touched touched touched touched touched touched touched touched touched touched touched touched touched t e
  | fieldThermalSample site celsius => exact execFieldThermalSample_keeps site celsius s (.refl s) touched touched touched touched touched touched touched touched touched touched touched touched touched touched touched t e
  | refClockLoss => exact execRefClockLoss_keeps s (.refl s) touched touched touched touched touched touched touched touched touched touched touched touched touched touched touched touched t e
  | moReset w v => exact execMoReset_keeps w v s (.refl s) touched touched touched touched touched touched touched touched touched touched touched touched touched touched touched touched t e
  | moClear w v => exact execMoClear_keeps w v s (.refl s) touched touched t e
  | mctpRead off length => exact execMctpRead_keeps off length s (.refl s) touched touched touched t e
  | mctpWrite off length data => exact execMctpWrite_keeps off length data s (.refl s) touched touched touched touched touched touched touched touched touched touched touched touched touched touched touched touched touched t e
  | mctpReset off => exact execMctpReset_keeps off s (.refl s) touched touched touched touched touched touched touched touched touched touched touched touched touched touched touched touched t e
  | mctpState => exact execMctpState_keeps s (.refl s) touched t e
  | i3cAddressAssign setdasa addr => exact execI3cAddressAssign_keeps setdasa addr s (.refl s) touched t e
  | mgcHeartbeatToggle => exact execMgcHeartbeatToggle_keeps s (.refl s) touched t e
  | batonCrcFailure link baton => exact execBatonCrcFailure_keeps link baton s (.refl s) touched touched t e
  | malformedBaton link baton => exact execMalformedBaton_keeps link baton s (.refl s) touched touched touched touched touched touched touched touched touched touched t e
  | rlEventsRead w => exact execRlEventsRead_keeps w s (.refl s) touched t e
  | coolantInletSample logicIn stackIn logicOut stackOut => exact execCoolantInletSample_keeps logicIn stackIn logicOut stackOut s (.refl s) touched touched t e
  | busInRange => exact execBusInRange_keeps s (.refl s) touched touched touched touched touched t e
  | hostPortUp port => exact execHostPortUp_keeps port s (.refl s) touched touched touched t e

/-- Every part. -/
def allParts : List Part :=
  [.module, .sites, .tiles, .package, .rails, .memory, .tiers, .kv, .attn, .links, .hosts, .sched, .media, .regs, .rel, .fw, .draws]

theorem mem_allParts (p : Part) : p ∈ allParts := by cases p <;> decide

theorem tick_keeps_allParts (s : State) : Keeps allParts s s.tick :=
  State.tick_keeps s (.refl s) (mem_allParts _) (mem_allParts _) (mem_allParts _) (mem_allParts _) (mem_allParts _)
    (mem_allParts _) (mem_allParts _) (mem_allParts _) (mem_allParts _) (mem_allParts _) (mem_allParts _) (mem_allParts _)
    (mem_allParts _)

/-- What every step keeps, the queue apart: a tick, or the command that leads the queue. -/
theorem step_keeps {s t : State} (e : step s = .next t) : Keeps allParts { s with pending := t.pending } t := by
  have key : ∀ u : State, Keeps allParts u t → Keeps allParts { u with pending := t.pending } t := fun u h =>
    ⟨fun p m => absurd (mem_allParts p) m, rfl, h.bytes, h.dies, h.serial, h.fuses, h.number, h.book⟩
  unfold step at e
  split at e
  · have h : s.tick = t := Host.Outcome.next.inj e
    exact key s (h ▸ tick_keeps_allParts s)
  · next c rest _ =>
    exact key { s with pending := rest } ((exec_keeps e).mono fun p _ => mem_allParts p)

/-- Settles O5: every step keeps the canonical form, a tick and every command alike. -/
theorem bytesStayCanonical : Obligations.BytesStayCanonical := fun _ _ h e => (step_keeps e).bytes h

/-- Settles O6: a step keeps the book, the fuses, the serial number and the ports, a tick and every command alike. -/
theorem logbookAndFusesOnlyGrow : Obligations.LogbookAndFusesOnlyGrow := fun _ _ e =>
  have h := step_keeps e
  ⟨h.number, h.book, h.fuses, h.serial, h.dies⟩

/-- Settles O7: each command's meaning keeps the parts outside its list, and the queue. -/
theorem commandsStayInTheirParts : Obligations.CommandsStayInTheirParts := fun _ _ _ e =>
  have h := exec_keeps e
  ⟨h.pending, h.parts⟩

/-- Settles O1: `step` is the meaning of the front command. -/
theorem frontCommandRuns : Obligations.FrontCommandRuns := by
  intro s c rest h
  unfold step
  rw [h]

end Sys2Proof.Machine

end

section

/-! Which commands run: all but those whose operands break `Instr.wf`; and the state right after reset. -/

namespace Sys2Proof.Machine

open Sys2Proof Sys2Proof.Safety

/-- An outcome that is a next state where `b` holds, and the fault `illFormed` where it does not. -/
def RunsWhen (b : Bool) (o : Out) : Prop :=
  (b = true → ∃ t, o = .next t) ∧ (b = false → ∃ m, o = .fault (.illFormed m))

theorem runsWhen_next (t : State) : RunsWhen true (.next t) := ⟨fun _ => ⟨t, rfl⟩, fun h => nomatch h⟩

theorem runsWhen_guard {b : Bool} {c : Prop} [Decidable c] (hc : c ↔ b = false) (m : String) (t : State) :
    RunsWhen b (if c then .fault (.illFormed m) else .next t) :=
  ⟨fun h => ⟨t, if_neg (by simp [hc, h])⟩, fun h => ⟨m, if_pos (hc.mpr h)⟩⟩

theorem runsWhen_batonRow (m : String) (k : Nat) (b : BatonWord) (t : State) : RunsWhen (batonIs k b) (batonRow m k b t) :=
  ⟨fun h => ⟨t, if_pos h⟩, fun h => ⟨m, if_neg (by simp [h])⟩⟩

theorem exec_runsWhen_wf (i : Instr) (s : State) : RunsWhen i.wf (exec i s) := by
  cases i with
  | idleBaton n b => exact runsWhen_batonRow ..
  | nakBaton n b => exact runsWhen_batonRow ..
  | bulkBaton n b => exact runsWhen_batonRow ..
  | doneBaton n b => exact runsWhen_batonRow ..
  | unreachBaton n b => exact runsWhen_batonRow ..
  | reduceBaton n b => exact runsWhen_batonRow ..
  | bcastBaton n b => exact runsWhen_batonRow ..
  | sprintBaton n b => exact runsWhen_batonRow ..
  | mgmtBaton n b => exact runsWhen_batonRow ..
  | batonCrcFailure n b => exact runsWhen_guard (by simp [Instr.wf]) _ _
  | malformedBaton n b => exact runsWhen_guard (by simp [Instr.wf, ← Bool.not_and]) _ _
  | mctpWrite off len data => exact runsWhen_guard (by simp [Instr.wf]) _ _
  | _ => exact runsWhen_next _

/-- Settles O3: an arm that checks its operands is a guard over a next state, and every other arm is a next state. -/
theorem wellFormedCommandsRun : Obligations.WellFormedCommandsRun := exec_runsWhen_wf

/-- Settles O4: every table is empty at reset, so each unit reads what its kind reads where nothing was written. -/
theorem resetLeavesTheModuleIdle : Obligations.ResetLeavesTheModuleIdle := by
  refine ⟨reset_memory_wf, rfl, rfl, fun _ => rfl, by decide +kernel, by decide +kernel, fun _ => rfl, fun _ _ => rfl,
    fun _ => rfl, fun _ => rfl, fun _ => rfl, rfl, fun n => ?_, fun n hn => ?_, fun n k hk _ => ?_⟩
  · show (Site.reset n).use = _
    unfold Site.reset
    split <;> rfl
  · show (Site.reset n).rank = _
    rw [Site.reset, if_pos hn]
  · show (CoreSite.reset k).use = _
    rw [CoreSite.reset, Nat.mod_eq_of_lt hk]
    split <;> rfl

end Sys2Proof.Machine

end

section

/-! Chapter 3: roundings, and the round trip of the number formats. A rounding keeps within one unit of the exact value, and
what a format holds exactly is rounded to its own code; so a value's code does not depend on how the value is written as
m · 2^e, and codes of one value with one sign are equal. -/

namespace Sys2Proof.Machine

open Sys2Proof Sys2Proof.Safety

/-! ### Rounding a magnitude -/

/-- The exponent of the last place of a rounded magnitude. -/
def lastPlace (p : Nat) (qmin : Int) (m : Nat) (e : Int) : Int := max qmin (e + (Nat.log2 m : Int) + 1 - (p : Int))

/-- Whether the magnitude t · 2^d + rem is rounded away from zero. -/
def roundsUp (r : Rounding) (t rem d : Nat) : Bool :=
  match r with
  | .rne => decide (2 * rem > 2 ^ d) || (decide (2 * rem = 2 ^ d) && t % 2 == 1)
  | .sr r24 => rem != 0 && decide ((rem <<< 24) >>> d + r24 ≥ 2 ^ 24)

section

variable {r : Rounding} {p m : Nat} {qmin e : Int}

theorem roundMag_of_le (hm : m ≠ 0) (h : lastPlace p qmin m e ≤ e) :
    roundMag r p qmin m e = (m * 2 ^ (e - lastPlace p qmin m e).toNat, lastPlace p qmin m e) := by
  unfold roundMag
  rw [if_neg hm, ← Nat.shiftLeft_eq]
  exact if_pos h

theorem roundMag_of_lt (hm : m ≠ 0) {d : Nat} (h : (d : Int) = lastPlace p qmin m e - e) (hd : 0 < d) :
    roundMag r p qmin m e =
      (if roundsUp r (m / 2 ^ d) (m % 2 ^ d) d then m / 2 ^ d + 1 else m / 2 ^ d, lastPlace p qmin m e) := by
  have hq : ¬ lastPlace p qmin m e ≤ e := by omega
  have hd' : (lastPlace p qmin m e - e).toNat = d := by omega
  unfold roundMag
  rw [if_neg hm, ← Nat.shiftRight_eq_div_pow]
  subst hd'
  refine (if_neg hq).trans ?_
  cases r <;> rfl

theorem roundMag_snd (hm : m ≠ 0) : (roundMag r p qmin m e).2 = lastPlace p qmin m e := by
  rcases le_or_gt (lastPlace p qmin m e) e with h | h
  · rw [roundMag_of_le hm h]
  · rw [roundMag_of_lt hm (d := (lastPlace p qmin m e - e).toNat) (by omega) (by omega)]

theorem roundsUp_exact (t d : Nat) : roundsUp r t 0 d = false := by
  cases r <;> simp [roundsUp, (Nat.two_pow_pos d).ne]

theorem roundMag_le (hm : m ≠ 0) : (roundMag r p qmin m e).1 ≤ 2 ^ p := by
  have hlog : m < 2 ^ (Nat.log2 m + 1) := Nat.lt_log2_self
  have hq : e + (Nat.log2 m : Int) + 1 - p ≤ lastPlace p qmin m e := le_max_right _ _
  rcases le_or_gt (lastPlace p qmin m e) e with h | h
  · rw [roundMag_of_le hm h]
    calc m * 2 ^ (e - lastPlace p qmin m e).toNat
        ≤ 2 ^ (Nat.log2 m + 1) * 2 ^ (e - lastPlace p qmin m e).toNat := Nat.mul_le_mul_right _ hlog.le
      _ = 2 ^ (Nat.log2 m + 1 + (e - lastPlace p qmin m e).toNat) := (pow_add ..).symm
      _ ≤ 2 ^ p := Nat.pow_le_pow_right (by decide) (by omega)
  · obtain ⟨d, hd⟩ : ∃ d : Nat, (d : Int) = lastPlace p qmin m e - e := ⟨(lastPlace p qmin m e - e).toNat, by omega⟩
    rw [roundMag_of_lt hm hd (by omega)]
    have ht : m / 2 ^ d < 2 ^ p := by
      rw [Nat.div_lt_iff_lt_mul (by positivity), ← pow_add]
      exact hlog.trans_le (Nat.pow_le_pow_right (by decide) (by omega))
    dsimp only
    split <;> omega

/-- Rounding to nearest even, against the exact magnitude in half units. -/
theorem roundsUp_rne_nearest (m d : Nat) :
    let t := if roundsUp .rne (m / 2 ^ d) (m % 2 ^ d) d then m / 2 ^ d + 1 else m / 2 ^ d
    2 * (t * 2 ^ d) ≤ 2 * m + 2 ^ d ∧ 2 * m ≤ 2 * (t * 2 ^ d) + 2 ^ d ∧
      (2 * (t * 2 ^ d) = 2 * m + 2 ^ d ∨ 2 * m = 2 * (t * 2 ^ d) + 2 ^ d → t % 2 = 0) := by
  have hm := Nat.div_add_mod m (2 ^ d)
  have hrem := Nat.mod_lt m (Nat.two_pow_pos d)
  rw [Nat.mul_comm] at hm
  generalize m / 2 ^ d = t at *
  generalize m % 2 ^ d = rem at *
  generalize he : roundsUp .rne t rem d = up
  simp only [roundsUp] at he
  cases up
  · simp only [Bool.or_eq_false_iff, Bool.and_eq_false_imp, decide_eq_false_iff_not, decide_eq_true_eq, beq_eq_false_iff_ne] at he
    simp only [Bool.false_eq_true, if_false]
    generalize t * 2 ^ d = x at *
    generalize 2 ^ d = u at *
    omega
  · simp only [Bool.or_eq_true, Bool.and_eq_true, decide_eq_true_eq, beq_iff_eq] at he
    simp only [if_true, Nat.add_mul]
    generalize t * 2 ^ d = x at *
    generalize 2 ^ d = u at *
    omega

/-- Stochastic rounding answers one of the two neighbours. -/
theorem roundsUp_sr_neighbour (r24 m d : Nat) :
    let t := if roundsUp (.sr r24) (m / 2 ^ d) (m % 2 ^ d) d then m / 2 ^ d + 1 else m / 2 ^ d
    t * 2 ^ d < m + 2 ^ d ∧ m < t * 2 ^ d + 2 ^ d := by
  have hm := Nat.div_add_mod m (2 ^ d)
  have hrem := Nat.mod_lt m (Nat.two_pow_pos d)
  rw [Nat.mul_comm] at hm
  generalize m / 2 ^ d = t at *
  generalize he : roundsUp (.sr r24) t (m % 2 ^ d) d = up
  simp only [roundsUp] at he
  cases up
  · simp only [Bool.false_eq_true, if_false]
    omega
  · simp only [Bool.and_eq_true, bne_iff_ne] at he
    simp only [if_true, Nat.add_mul]
    omega

end

/-- Settles O31: a rounding is m / 2^d or the next number, by what the remainder says. -/
theorem roundingIsNearest : Obligations.RoundingIsNearest := by
  intro p m qmin e hm hp q
  have hm0 : m ≠ 0 := by omega
  refine ⟨fun r => ⟨roundMag_snd hm0, roundMag_le hm0⟩, fun r hq => ?_, fun hq d hd => ?_⟩
  · rw [roundMag_of_le hm0 hq]; rfl
  · have hpos : 0 < d := by omega
    refine ⟨?_, ?_, ?_, fun r24 _ => ?_⟩
    all_goals rw [roundMag_of_lt hm0 hd hpos]
    · exact (roundsUp_rne_nearest m d).1
    · exact (roundsUp_rne_nearest m d).2.1
    · exact (roundsUp_rne_nearest m d).2.2
    · exact roundsUp_sr_neighbour r24 m d

end Sys2Proof.Machine

end

section

/-! The formats of Table 3.1: a finite code's value, however written, rounds to the code itself. -/

namespace Sys2Proof.Machine

open Sys2Proof Sys2Proof.Safety

/-! ### A value's code -/

/-- What a format holds exactly keeps its rounding when it is written with a smaller exponent. -/
theorem roundMag_shift {r : Rounding} {p m k : Nat} {qmin e : Int} (hm : m ≠ 0) (h : lastPlace p qmin m e ≤ e) :
    roundMag r p qmin (m * 2 ^ k) (e - k) = roundMag r p qmin m e := by
  have hmk : m * 2 ^ k ≠ 0 := by positivity
  have hlog : Nat.log2 (m * 2 ^ k) = Nat.log2 m + k := by
    rw [Nat.log2_eq_iff hmk, Nat.add_right_comm, pow_add, pow_add _ (Nat.log2 m + 1)]
    exact ⟨Nat.mul_le_mul_right _ (Nat.log2_self_le hm), Nat.mul_lt_mul_of_pos_right Nat.lt_log2_self (Nat.two_pow_pos k)⟩
  have hlast : lastPlace p qmin (m * 2 ^ k) (e - k) = lastPlace p qmin m e := by
    unfold lastPlace
    rw [hlog]
    congr 2
    push_cast
    ring
  rw [roundMag_of_le hm h]
  rcases le_or_gt (lastPlace p qmin m e) (e - k) with hk | hk
  · rw [roundMag_of_le hmk (by rw [hlast]; exact hk), hlast, Nat.mul_assoc, ← pow_add]
    congr 3
    omega
  · obtain ⟨d, hd⟩ : ∃ d : Nat, (d : Int) = lastPlace p qmin m e - (e - k) :=
      ⟨(lastPlace p qmin m e - (e - k)).toNat, by omega⟩
    obtain ⟨j, rfl⟩ : ∃ j, k = j + d := ⟨k - d, by omega⟩
    have hdiv : m * 2 ^ (j + d) / 2 ^ d = m * 2 ^ j := by
      rw [pow_add, ← Nat.mul_assoc, Nat.mul_div_cancel _ (Nat.two_pow_pos d)]
    have hmod : m * 2 ^ (j + d) % 2 ^ d = 0 := by
      rw [pow_add, ← Nat.mul_assoc, Nat.mul_mod_left]
    rw [roundMag_of_lt hmk (d := d) (by rw [hlast]; exact hd) (by omega), hdiv, hmod, roundsUp_exact, hlast]
    have hj : (e - lastPlace p qmin m e).toNat = j := by omega
    rw [hj]
    rfl

namespace Fmt

variable {f : Fmt} {c : Nat}

/-- The exponent field of a code. -/
def expField (f : Fmt) (c : Nat) : Nat := c / 2 ^ f.fb % 2 ^ f.eb

theorem bits_eq_expField (heb : 0 < f.eb) : bits c (f.eb + f.fb - 1) f.fb = f.expField c := by
  have h : f.eb + f.fb - 1 + 1 - f.fb = f.eb := by omega
  rw [bits, h, Nat.shiftRight_eq_div_pow, expField]

/-- A code without its sign. -/
theorem mod_eq_fields (f : Fmt) (c : Nat) : c % 2 ^ (f.eb + f.fb) = f.expField c * 2 ^ f.fb + c % 2 ^ f.fb := by
  rw [Nat.add_comm f.eb, pow_add, Nat.mod_mul, expField, Nat.mul_comm, Nat.add_comm]

/-- A code is its sign and its magnitude. -/
theorem sign_add_mod (hc : c < 2 ^ (1 + f.eb + f.fb)) : f.sign (bit c (f.eb + f.fb)) + c % 2 ^ (f.eb + f.fb) = c := by
  have hdiv : c / 2 ^ (f.eb + f.fb) < 2 := by
    rw [Nat.div_lt_iff_lt_mul (Nat.two_pow_pos _)]
    calc c < 2 ^ (1 + f.eb + f.fb) := hc
      _ = 2 * 2 ^ (f.eb + f.fb) := by ring
  have hsum := Nat.div_add_mod c (2 ^ (f.eb + f.fb))
  unfold sign bit
  rw [Nat.shiftRight_eq_div_pow, Nat.mod_eq_of_lt hdiv]
  interval_cases c / 2 ^ (f.eb + f.fb) <;> simpa using hsum

theorem decode_eq_inf (heb : 0 < f.eb) {neg : Bool} (h : f.decode c = .inf neg) :
    f.ieee = true ∧ neg = bit c (f.eb + f.fb) ∧ c % 2 ^ (f.eb + f.fb) = (2 ^ f.eb - 1) * 2 ^ f.fb := by
  unfold decode at h
  rw [bits_eq_expField heb] at h
  dsimp only at h
  split at h
  · next hx =>
    split at h
    · next hm =>
      cases h
      simp only [Bool.and_eq_true, beq_iff_eq] at hx hm
      exact ⟨hx.1, rfl, by rw [mod_eq_fields, hx.2, hm, Nat.add_zero]⟩
    · cases h
  · split at h
    · cases h
    · split at h <;> cases h

/-- A finite code's value, with the last place that its rounding has. -/
theorem decode_eq_fin (heb : 0 < f.eb) {neg : Bool} {m : Nat} {e : Int} (h : f.decode c = .fin neg m e) :
    neg = bit c (f.eb + f.fb) ∧ (m ≠ 0 → lastPlace (f.fb + 1) f.qmin m e = e) ∧ f.qmin ≤ e ∧ (m = 0 → e = f.qmin) ∧ f.magCode m e = c % 2 ^ (f.eb + f.fb) ∧
      (f.ieee = true → f.expField c ≠ 2 ^ f.eb - 1) ∧
      (f.topNan = true → ¬ (f.expField c = 2 ^ f.eb - 1 ∧ c % 2 ^ f.fb = 2 ^ f.fb - 1)) := by
  have hfrac := Nat.mod_lt c (Nat.two_pow_pos f.fb)
  rw [mod_eq_fields]
  unfold decode at h
  rw [bits_eq_expField heb] at h
  dsimp only at h
  split at h
  · split at h <;> cases h
  · next hinf =>
    split at h
    · cases h
    · next hnan =>
      have hi : f.ieee = true → f.expField c ≠ 2 ^ f.eb - 1 := by simpa using hinf
      have ht : f.topNan = true → ¬ (f.expField c = 2 ^ f.eb - 1 ∧ c % 2 ^ f.fb = 2 ^ f.fb - 1) := by simpa using hnan
      split at h
      · next hx =>
        cases h
        simp only [beq_iff_eq] at hx
        refine ⟨rfl, fun hm => ?_, le_refl _, fun _ => rfl, ?_, hi, ht⟩
        · have hlog : Nat.log2 (c % 2 ^ f.fb) < f.fb := (Nat.log2_lt hm).mpr hfrac
          exact max_eq_left (by push_cast; omega)
        · simp [magCode, hx]
      · next hx =>
        cases h
        simp only [beq_iff_eq] at hx
        have hlog : Nat.log2 (c % 2 ^ f.fb + 2 ^ f.fb) = f.fb := by
          rw [Nat.log2_eq_iff (by positivity)]
          exact ⟨by omega, by rw [pow_succ]; omega⟩
        refine ⟨rfl, fun _ => ?_, by omega, fun hm => by omega, ?_, hi, ht⟩
        · unfold lastPlace
          rw [hlog]
          push_cast
          exact (max_eq_right (by omega)).trans (by ring)
        · have hexp : (f.qmin + (f.expField c : Int) - 1 - f.qmin).toNat = f.expField c - 1 := by omega
          have hmul : f.expField c * 2 ^ f.fb = (f.expField c - 1) * 2 ^ f.fb + 2 ^ f.fb := by
            rw [← Nat.succ_mul]; congr 1; omega
          rw [magCode, hexp, Nat.shiftLeft_eq, hmul]
          omega

/-- Every way of writing a code's value rounds to the code. -/
theorem roundCode_decode (heb : 0 < f.eb) (r : Rounding) {neg : Bool} {m : Nat} {e : Int} (h : f.decode c = .fin neg m e) (k : Nat) :
    f.roundCode r (m * 2 ^ k) (e - k) = c % 2 ^ (f.eb + f.fb) := by
  obtain ⟨-, hlast, -, hzero, hcode, -, -⟩ := decode_eq_fin heb h
  unfold roundCode
  by_cases hm : m = 0
  · subst hm
    rw [← hcode, hzero rfl]
    simp [roundMag, magCode]
  · rw [roundMag_shift hm (hlast hm).le, roundMag_of_le hm (hlast hm).le, hlast hm, ← hcode]
    simp

theorem expField_le (f : Fmt) (c : Nat) : f.expField c ≤ 2 ^ f.eb - 1 := by
  have := Nat.mod_lt (c / 2 ^ f.fb) (Nat.two_pow_pos f.eb)
  unfold expField
  omega

/-- A finite code lies within its format's finite codes. -/
theorem mod_le_maxCode (heb : 0 < f.eb) {neg : Bool} {m : Nat} {e : Int} (h : f.decode c = .fin neg m e) :
    c % 2 ^ (f.eb + f.fb) ≤ f.maxCode := by
  obtain ⟨-, -, -, -, -, hinf, hnan⟩ := decode_eq_fin heb h
  have hfrac := Nat.mod_lt c (Nat.two_pow_pos f.fb)
  have hexp := f.expField_le c
  have hall : (2 ^ f.eb - 1) * 2 ^ f.fb + 2 ^ f.fb = 2 ^ (f.eb + f.fb) := by
    rw [← Nat.succ_mul, Nat.succ_eq_add_one, Nat.sub_add_cancel Nat.one_le_two_pow, ← pow_add]
  have hbelow : f.expField c ≠ 2 ^ f.eb - 1 → f.expField c * 2 ^ f.fb + 2 ^ f.fb ≤ (2 ^ f.eb - 1) * 2 ^ f.fb := fun hne => by
    rw [← Nat.succ_mul]
    exact Nat.mul_le_mul_right _ (by omega)
  rw [mod_eq_fields]
  unfold maxCode
  split
  · next hi =>
    have := hbelow (hinf hi)
    omega
  · have htop : f.expField c * 2 ^ f.fb ≤ (2 ^ f.eb - 1) * 2 ^ f.fb := Nat.mul_le_mul_right _ hexp
    split
    · next ht =>
      rcases ne_or_eq (f.expField c) (2 ^ f.eb - 1) with hne | heq
      · have := hbelow hne
        omega
      · have hfb : c % 2 ^ f.fb ≠ 2 ^ f.fb - 1 := fun hm => hnan ht ⟨heq, hm⟩
        omega
    · omega

end Fmt

/-! ### Conversion of a format's own values -/

theorem fmtOf_le_four {fmt : Nat} {f : Fmt} (hf : fmtOf fmt = some f) (h4 : fmt ≤ 4) :
    (fmt = 0 ∧ f = fp32) ∨ (fmt = 1 ∧ f = bf16) ∨ (fmt = 2 ∧ f = fp16) ∨ (fmt = 3 ∧ f = e4m3) ∨ (fmt = 4 ∧ f = e5m2) := by
  interval_cases fmt <;> cases hf <;> decide

/-- A magnitude that rounds within the format's range converts to its rounded code, without a flag. -/
theorem convOut_fin_of_le (r : Rounding) {fmt : Nat} {f : Fmt} (hf : fmtOf fmt = some f) (h4 : fmt ≤ 4) {neg : Bool} {m : Nat} {e : Int}
    (h : f.roundCode r m e ≤ f.maxCode) : convOut r fmt (.fin neg m e) = (f.sign neg + f.roundCode r m e, 0) := by
  rcases fmtOf_le_four hf h4 with ⟨rfl, rfl⟩ | ⟨rfl, rfl⟩ | ⟨rfl, rfl⟩ | ⟨rfl, rfl⟩ | ⟨rfl, rfl⟩
  all_goals exact if_neg (not_lt.mpr h)

theorem convOut_inf (r : Rounding) {fmt : Nat} {f : Fmt} (hf : fmtOf fmt = some f) (h4 : fmt ≤ 4) (hi : f.ieee = true) (neg : Bool) :
    convOut r fmt (.inf neg) = (f.sign neg + (2 ^ f.eb - 1) * 2 ^ f.fb, 0) := by
  rcases fmtOf_le_four hf h4 with ⟨rfl, rfl⟩ | ⟨rfl, rfl⟩ | ⟨rfl, rfl⟩ | ⟨rfl, rfl⟩ | ⟨rfl, rfl⟩
  case inr.inr.inr.inl => cases hi
  all_goals rfl

theorem convOut_nan (r : Rounding) {fmt : Nat} {f : Fmt} (hf : fmtOf fmt = some f) (h4 : fmt ≤ 4) :
    ∃ code, convOut r fmt .nan = (code, flNan) ∧ f.decode code = .nan := by
  rcases fmtOf_le_four hf h4 with ⟨rfl, rfl⟩ | ⟨rfl, rfl⟩ | ⟨rfl, rfl⟩ | ⟨rfl, rfl⟩ | ⟨rfl, rfl⟩
  all_goals exact ⟨_, rfl, by decide⟩

theorem Num.eq_nan_of_isNan {x : Num} (h : x.isNan = true) : x = .nan := by
  cases x <;> first | rfl | cases h

/-- Settles O30: a finite code's value rounds to the code, an infinity has one code for each sign, and every NaN converts as
one. -/
theorem formatsRoundTrip : Obligations.FormatsRoundTrip := by
  intro r fmt c f hf h4 hc
  have heb : 0 < f.eb := by
    rcases fmtOf_le_four hf h4 with ⟨-, rfl⟩ | ⟨-, rfl⟩ | ⟨-, rfl⟩ | ⟨-, rfl⟩ | ⟨-, rfl⟩ <;> decide
  have hsign := Fmt.sign_add_mod hc
  refine ⟨fun hnum => ?_, fun hnan => ?_⟩
  · cases hx : f.decode c with
    | nan => rw [hx] at hnum; cases hnum
    | inf neg =>
      obtain ⟨hi, rfl, hcode⟩ := Fmt.decode_eq_inf heb hx
      rw [convOut_inf r hf h4 hi, ← hcode, hsign]
    | fin neg m e =>
      obtain ⟨rfl, -⟩ := Fmt.decode_eq_fin heb hx
      have hround := Fmt.roundCode_decode heb r hx 0
      simp only [pow_zero, Nat.mul_one, Int.natCast_zero, Int.sub_zero] at hround
      rw [convOut_fin_of_le r hf h4 (hround ▸ Fmt.mod_le_maxCode heb hx), hround, hsign]
  · obtain ⟨code, hcode, hcanonical⟩ := convOut_nan r hf h4
    rw [Num.eq_nan_of_isNan hnan, hcode]
    exact ⟨rfl, hcanonical, fun d hd => by rw [Num.eq_nan_of_isNan hd, hcode]⟩

end Sys2Proof.Machine

end

section

/-! FP32 addition, MAX and MIN. A sum is one rounding of the exact sum, and a value's code does not depend on how it is written,
so the order of the operands and a zero beside them do not matter; two codes of one sign whose values neither is below the
other are one code. -/

namespace Sys2Proof.Machine

open Sys2Proof Sys2Proof.Safety

/-! ### Addition -/

theorem Num.add_comm (x y : Num) : x.add y = y.add x := by
  cases x with
  | nan => cases y <;> rfl
  | inf a =>
    cases y with
    | nan => rfl
    | inf b => cases a <;> cases b <;> rfl
    | fin b n g => rfl
  | fin a m e =>
    cases y with
    | nan => rfl
    | inf b => rfl
    | fin b n g =>
      simp only [Num.add, min_comm g e, Nat.add_comm (n <<< _), eq_comm (a := b)]
      by_cases hab : a = b
      · simp [hab]
      · simp only [hab, if_false]
        generalize m <<< (e - min e g).toNat = x
        generalize n <<< (g - min e g).toNat = y
        rcases Nat.lt_trichotomy x y with h | h | h
        · simp [h, h.ne, h.ne', h.asymm]
        · simp [h]
        · simp [h, h.ne, h.ne', h.asymm]

theorem toF32_nan (r : Rounding) : toF32 r .nan = (0x7FC00000, flNan) := rfl

theorem fp32_sign_le (neg : Bool) : fp32.sign neg ≤ 2 ^ 31 := by cases neg <;> decide

theorem toF32_lt (r : Rounding) (x : Num) : (toF32 r x).1 < 2 ^ 32 := by
  have hmax : fp32.maxCode = 0x7F7FFFFF := by decide
  cases x with
  | nan => exact (by decide : nan32 < 2 ^ 32)
  | inf neg =>
    have hs := fp32_sign_le neg
    show fp32.sign neg + 0x7F800000 < 2 ^ 32
    omega
  | fin neg m e =>
    have hs := fp32_sign_le neg
    simp only [toF32, hmax]
    split <;> simp only <;> omega

theorem Num.add_nan_left (y : Num) : Num.nan.add y = .nan := by cases y <;> rfl

theorem f32Add_of_isNan (r : Rounding) {a b : Nat} (h : (ofF32 a).isNan = true ∨ (ofF32 b).isNan = true) :
    f32Add r a b = (0x7FC00000, flNan) := by
  unfold f32Add
  rcases h with h | h
  · rw [Num.eq_nan_of_isNan h, Num.add_nan_left, toF32_nan]
  · rw [Num.eq_nan_of_isNan h, Num.add_comm, Num.add_nan_left, toF32_nan]

theorem ofF32_zero : ofF32 0 = .fin false 0 fp32.qmin := by decide

/-- The rounding of an FP32 code's value, however the value is written. -/
theorem toF32_decode (r : Rounding) {c : Nat} (hc : c < 2 ^ 32) {neg : Bool} {m : Nat} {e : Int} (h : ofF32 c = .fin neg m e) (k : Nat) :
    toF32 r (.fin neg (m * 2 ^ k) (e - k)) = (c, 0) := by
  have hround := Fmt.roundCode_decode (f := fp32) (by decide) r h k
  have hle := Fmt.mod_le_maxCode (f := fp32) (by decide) h
  obtain ⟨rfl, -⟩ := Fmt.decode_eq_fin (f := fp32) (by decide) h
  have hsign := Fmt.sign_add_mod (f := fp32) (c := c) hc
  unfold toF32
  dsimp only
  rw [hround, if_neg (not_lt.mpr hle), hsign]

/-- A zero of the positive sign beside a number but −0. -/
theorem Num.add_zero_right {neg : Bool} {m : Nat} {e q : Int} (hq : q ≤ e) (hz : neg = false ∨ m ≠ 0) :
    (Num.fin neg m e).add (.fin false 0 q) = .fin neg (m * 2 ^ (e - q).toNat) (e - (e - q).toNat) := by
  have hexp : e - ((e - q).toNat : Int) = q := by omega
  rw [hexp]
  simp only [Num.add, min_eq_right hq, Nat.shiftLeft_eq, Nat.zero_mul, Nat.add_zero]
  cases neg with
  | false => rfl
  | true =>
    have hpos : 0 < m * 2 ^ (e - q).toNat := Nat.mul_pos (by simpa [Nat.pos_iff_ne_zero] using hz) (Nat.two_pow_pos _)
    simp [hpos, hpos.ne']

theorem f32Add_zero_right (r : Rounding) {a : Nat} (ha : a < 2 ^ 32) (hnum : (ofF32 a).isNan = false) (hz : a ≠ 0x80000000) :
    f32Add r a 0 = (a, 0) := by
  unfold f32Add
  rw [ofF32_zero]
  cases hx : ofF32 a with
  | nan => rw [hx] at hnum; cases hnum
  | inf neg =>
    obtain ⟨-, rfl, hcode⟩ := Fmt.decode_eq_inf (f := fp32) (by decide) hx
    have hsign := Fmt.sign_add_mod (f := fp32) (c := a) ha
    rw [hcode] at hsign
    exact congrArg (·, 0) hsign
  | fin neg m e =>
    obtain ⟨hneg, -, hmin, hzero, hcode, -⟩ := Fmt.decode_eq_fin (f := fp32) (by decide) hx
    have hsign := Fmt.sign_add_mod (f := fp32) (c := a) ha
    rw [Num.add_zero_right hmin, toF32_decode r ha hx]
    by_contra hboth
    simp only [not_or, Bool.not_eq_false, ne_eq, not_not] at hboth
    obtain ⟨rfl, rfl⟩ := hboth
    rw [← hneg, ← hcode, hzero rfl] at hsign
    exact hz (hsign.symm.trans (by decide))

/-! ### Order -/

theorem Num.lt_asymm {x y : Num} (h : x.lt y = true) : y.lt x = false := by
  cases x with
  | nan => cases h
  | inf a =>
    cases y with
    | nan => cases h
    | inf b => cases a <;> cases b <;> first | rfl | cases h
    | fin b n g => simpa [Num.lt] using h
  | fin a m e =>
    cases y with
    | nan => cases h
    | inf b => simpa [Num.lt] using h
    | fin b n g =>
      simp only [Num.lt, decide_eq_true_eq, decide_eq_false_iff_not, not_lt, min_comm g e] at h ⊢
      exact h.le

theorem Num.lt_irrefl (x : Num) : x.lt x = false := by
  by_contra h
  have h := Bool.not_eq_false _ ▸ h
  exact absurd (Num.lt_asymm h) (by simp [h])

/-- Codes of one sign whose values neither is below the other are one code. -/
theorem eq_of_not_lt {a b : Nat} (ha : a < 2 ^ 32) (hb : b < 2 ^ 32) (hna : (ofF32 a).isNan = false) (hnb : (ofF32 b).isNan = false)
    (hab : (ofF32 a).lt (ofF32 b) = false) (hba : (ofF32 b).lt (ofF32 a) = false) (hs : (ofF32 a).isNeg = (ofF32 b).isNeg) : a = b := by
  have hsa := Fmt.sign_add_mod (f := fp32) (c := a) ha
  have hsb := Fmt.sign_add_mod (f := fp32) (c := b) hb
  cases hx : ofF32 a with
  | nan => rw [hx] at hna; cases hna
  | inf n =>
    cases hy : ofF32 b with
    | nan => rw [hy] at hnb; cases hnb
    | inf k =>
      obtain ⟨-, hn, hca⟩ := Fmt.decode_eq_inf (f := fp32) (by decide) hx
      obtain ⟨-, hk, hcb⟩ := Fmt.decode_eq_inf (f := fp32) (by decide) hy
      rw [hx, hy] at hs
      rw [← hsa, ← hsb, hca, hcb, ← hn, ← hk, show n = k from hs]
    | fin k m e =>
      rw [hx, hy] at hab hba
      cases n <;> simp [Num.lt] at hab hba
  | fin n m e =>
    cases hy : ofF32 b with
    | nan => rw [hy] at hnb; cases hnb
    | inf k =>
      rw [hx, hy] at hab hba
      cases k <;> simp [Num.lt] at hab hba
    | fin k l g =>
      have hta := toF32_decode .rne ha hx (e - min e g).toNat
      have htb := toF32_decode .rne hb hy (g - min e g).toNat
      have hea : e - ((e - min e g).toNat : Int) = min e g := by omega
      have heb : g - ((g - min e g).toNat : Int) = min e g := by omega
      rw [hx, hy] at hab hba hs
      obtain rfl : n = k := hs
      have hmag : m * 2 ^ (e - min e g).toNat = l * 2 ^ (g - min e g).toNat := by
        simp only [Num.lt, decide_eq_false_iff_not, not_lt, min_comm g e, Nat.shiftLeft_eq] at hab hba
        generalize m * 2 ^ (e - min e g).toNat = u at hab hba ⊢
        generalize l * 2 ^ (g - min e g).toNat = v at hab hba ⊢
        cases n
        · simp only [Bool.false_eq_true, if_false] at hab hba
          omega
        · simp only [if_true] at hab hba
          omega
      rw [hea, hmag] at hta
      rw [heb] at htb
      exact congrArg Prod.fst (hta.symm.trans htb)

section

variable {a b : Nat}

theorem max32_of_nan (h : (ofF32 a).isNan = true ∨ (ofF32 b).isNan = true) : max32 a b = (0x7FC00000, flNan) := by
  unfold max32
  exact if_pos (by simpa using h)

theorem min32_of_nan (h : (ofF32 a).isNan = true ∨ (ofF32 b).isNan = true) : min32 a b = (0x7FC00000, flNan) := by
  unfold min32
  exact if_pos (by simpa using h)

variable (hna : (ofF32 a).isNan = false) (hnb : (ofF32 b).isNan = false)

include hna hnb

theorem max32_of_lt (h : (ofF32 a).lt (ofF32 b) = true) : max32 a b = (b, 0) ∧ max32 b a = (b, 0) := by
  simp [max32, hna, hnb, h, Num.lt_asymm h]

theorem min32_of_lt (h : (ofF32 a).lt (ofF32 b) = true) : min32 a b = (a, 0) ∧ min32 b a = (a, 0) := by
  simp [min32, hna, hnb, h, Num.lt_asymm h]

/-- Of two values neither of which is below the other, both orders of the operands choose the same code. -/
theorem max32_of_not_lt (ha : a < 2 ^ 32) (hb : b < 2 ^ 32) (hab : (ofF32 a).lt (ofF32 b) = false)
    (hba : (ofF32 b).lt (ofF32 a) = false) :
    max32 a b = (if (ofF32 a).isNeg then b else a, 0) ∧ max32 b a = max32 a b := by
  have hx : max32 a b = (if (ofF32 a).isNeg then b else a, 0) := by simp [max32, hna, hnb, hab, hba]
  have hy : max32 b a = (if (ofF32 b).isNeg then a else b, 0) := by simp [max32, hna, hnb, hab, hba]
  refine ⟨hx, ?_⟩
  rw [hx, hy]
  by_cases hs : (ofF32 a).isNeg = (ofF32 b).isNeg
  · rw [eq_of_not_lt ha hb hna hnb hab hba hs]
  · cases h1 : (ofF32 a).isNeg <;> cases h2 : (ofF32 b).isNeg <;> simp_all

theorem min32_of_not_lt (ha : a < 2 ^ 32) (hb : b < 2 ^ 32) (hab : (ofF32 a).lt (ofF32 b) = false)
    (hba : (ofF32 b).lt (ofF32 a) = false) :
    min32 a b = (if (ofF32 a).isNeg then a else b, 0) ∧ min32 b a = min32 a b := by
  have hx : min32 a b = (if (ofF32 a).isNeg then a else b, 0) := by simp [min32, hna, hnb, hab, hba]
  have hy : min32 b a = (if (ofF32 b).isNeg then b else a, 0) := by simp [min32, hna, hnb, hab, hba]
  refine ⟨hx, ?_⟩
  rw [hx, hy]
  by_cases hs : (ofF32 a).isNeg = (ofF32 b).isNeg
  · rw [eq_of_not_lt ha hb hna hnb hab hba hs]
  · cases h1 : (ofF32 a).isNeg <;> cases h2 : (ofF32 b).isNeg <;> simp_all

end

/-- What MAX and MIN answer for two numbers: one of the operands, none of which lies beyond it, in either order. -/
theorem max32_min32_of_numbers {a b : Nat} (ha : a < 2 ^ 32) (hb : b < 2 ^ 32) (hna : (ofF32 a).isNan = false)
    (hnb : (ofF32 b).isNan = false) :
    ((max32 a b).1 = a ∨ (max32 a b).1 = b) ∧ ((min32 a b).1 = a ∨ (min32 a b).1 = b) ∧
      (max32 a b).2 = 0 ∧ (min32 a b).2 = 0 ∧
      (ofF32 (max32 a b).1).lt (ofF32 a) = false ∧ (ofF32 (max32 a b).1).lt (ofF32 b) = false ∧
      (ofF32 a).lt (ofF32 (min32 a b).1) = false ∧ (ofF32 b).lt (ofF32 (min32 a b).1) = false ∧
      max32 a b = max32 b a ∧ min32 a b = min32 b a := by
  by_cases hab : (ofF32 a).lt (ofF32 b) = true
  · obtain ⟨hmax, hmax'⟩ := max32_of_lt hna hnb hab
    obtain ⟨hmin, hmin'⟩ := min32_of_lt hna hnb hab
    simp [hmax, hmax', hmin, hmin', Num.lt_irrefl, Num.lt_asymm hab]
  · by_cases hba : (ofF32 b).lt (ofF32 a) = true
    · obtain ⟨hmax, hmax'⟩ := max32_of_lt hnb hna hba
      obtain ⟨hmin, hmin'⟩ := min32_of_lt hnb hna hba
      simp [hmax, hmax', hmin, hmin', Num.lt_irrefl, Num.lt_asymm hba]
    · rw [Bool.not_eq_true] at hab hba
      obtain ⟨hmax, hmax'⟩ := max32_of_not_lt hna hnb ha hb hab hba
      obtain ⟨hmin, hmin'⟩ := min32_of_not_lt hna hnb ha hb hab hba
      rw [hmax', hmin', hmax, hmin]
      cases (ofF32 a).isNeg <;> simp [Num.lt_irrefl, hab, hba]

/-- Settles O32: an exact sum is commutative and rounds to one code; MAX and MIN choose by the order of the values, and by the
sign where it leaves them open. -/
theorem additionAndOrderFollowTheirRules : Obligations.AdditionAndOrderFollowTheirRules := by
  refine ⟨fun r a b => ⟨?_, toF32_lt r _, f32Add_of_isNan r, fun n hx hy => ?_, fun n hx m k e hy => ?_, f32Add_zero_right r⟩,
    fun a b ha hb => ⟨fun h => ⟨max32_of_nan h, min32_of_nan h⟩, max32_min32_of_numbers ha hb, by decide, by decide⟩⟩
  · rw [f32Add, Num.add_comm]; rfl
  · rw [f32Add, hx, hy]
    cases n <;> rfl
  · rw [f32Add, hx, hy]
    cases n <;> rfl

end Sys2Proof.Machine

end

section

/-! Engine commands (chapters 5, 6 and 8): how the ranks divide a command's rows, what a row writes, and how a command that issues
ends. -/

namespace Sys2Proof.Machine

open Sys2Proof Sys2Proof.Safety

/-! ### The rows that each rank runs -/

/-- Neighbouring ranges, one after the other, are one range. -/
theorem range_flatMap_range (b : Nat → Nat) (h0 : b 0 = 0) (hb : Monotone b) (n : Nat) :
    ((List.range n).flatMap fun r => (List.range (b (r + 1) - b r)).map fun i => b r + i) = List.range (b n) := by
  induction n with
  | zero => simp [h0]
  | succ n ih =>
    rw [List.range_succ, List.flatMap_append, ih, List.flatMap_singleton, ← List.range_add, Nat.add_sub_cancel' (hb n.le_succ)]

theorem rowParts_map_snd (n : Nat) : (rowParts n).map Prod.snd = List.range n := by
  have h := range_flatMap_range (fun r => n * r / 75) (by simp) (fun a b h => Nat.div_le_div_right (Nat.mul_le_mul_left n h)) 75
  rw [Nat.mul_div_cancel n (by decide)] at h
  simpa [rowParts, List.map_flatMap, Function.comp_def] using h

theorem mem_rowParts {n : Nat} {p : Nat × Nat} (h : p ∈ rowParts n) : p.1 < 75 ∧ n * p.1 / 75 ≤ p.2 ∧ p.2 < n * (p.1 + 1) / 75 := by
  simp only [rowParts, List.mem_flatMap, List.mem_map, List.mem_range] at h
  obtain ⟨r, hr, i, hi, rfl⟩ := h
  dsimp only
  omega

/-! ### What a row writes -/

@[simp] theorem State.infWrite_store (s : State) (r a : Nat) (l : List Byte) : (s.infWrite r a l).memory.store = s.memory.store := by
  unfold State.infWrite
  split <;> rfl

theorem State.noteRow_memory (s : State) (x : Line) (rank : Nat) (w : EngRow) : (s.noteRow x rank w).memory = s.memory :=
  (State.noteRow_keeps (P := [.rails, .regs]) s x rank w (Keeps.refl s) (by decide) (by decide)).parts .memory (by decide)

theorem State.raise_memory (s : State) (id : CmdId) (fl : Nat) : (s.raise id fl).memory = s.memory :=
  (State.raise_keeps (P := [.hosts]) s id fl (Keeps.refl s) (by decide)).parts .memory (by decide)

/-- The bytes that lie in no range of a row's writes. -/
theorem State.infByte_foldl_infWrite_other {rank q a : Nat} (ha : a < 100663296) :
    ∀ (l : List (Nat × List Byte)) (s : State), (∀ e ∈ l, e.1 + e.2.length ≤ 100663296) →
      (q ≠ rank ∨ ∀ e ∈ l, a < e.1 ∨ e.1 + e.2.length ≤ a) →
      (l.foldl (fun u e => u.infWrite rank e.1 e.2) s).infByte q a = s.infByte q a := by
  intro l
  induction l with
  | nil => intros; rfl
  | cons e l ih =>
    intro s hin hout
    have he := hin e (by simp)
    rw [List.foldl_cons, ih _ (fun d hd => hin d (by simp [hd])) (hout.imp_right fun h d hd => h d (by simp [hd]))]
    apply State.infByte_infWrite_other
    simp only [infKey]
    rcases hout with h | h
    · omega
    · have := h e (by simp)
      omega

theorem State.foldl_infWrite_store (rank : Nat) (l : List (Nat × List Byte)) (s : State) :
    (l.foldl (fun u e => u.infWrite rank e.1 e.2) s).memory.store = s.memory.store :=
  foldl_same (fun u : State => u.memory.store) l _ s fun _ _ => State.infWrite_store ..

theorem State.infRead_infWrite_same (s : State) (r a : Nat) (l : List Byte) : (s.infWrite r a l).infRead r a l.length = l := by
  refine List.ext_getElem (by simp [State.infRead]) fun i h _ => ?_
  have hi : i < l.length := by simpa [State.infRead] using h
  simp [State.infRead, State.infByte_infWrite_same _ _ _ _ _ hi, hi]

theorem State.infByte_congr {s t : State} (h : t.memory = s.memory) (q a : Nat) : t.infByte q a = s.infByte q a := by
  unfold State.infByte
  rw [h]

section

variable {f : RowFn} {id : CmdId} {seed : Nat} {x : Line} {s : State} {rank row : Nat}

theorem runRow_of_poisoned (h : ((f s seed x rank row).reads.any fun r => s.infPoisoned r.1 r.2.1 r.2.2) = true) :
    runRow f id seed x (s, false) (rank, row) = (s, true) := by
  simp [runRow, h]

/-- A row that reads no poison leaves the bytes that its writes leave. -/
theorem runRow_memory (h : ((f s seed x rank row).reads.any fun r => s.infPoisoned r.1 r.2.1 r.2.2) = false) :
    (runRow f id seed x (s, false) (rank, row)).1.memory =
      ((f s seed x rank row).writes.foldl (fun u e => u.infWrite rank e.1 e.2) s).memory := by
  simp [runRow, h, State.raise_memory, State.noteRow_memory]

end

/-- Settles O28: the ranks' rows are neighbouring ranges, and a row's counts and flags lie outside the bytes, which its writes
alone change. -/
theorem engineRowsStayInPlace : Obligations.EngineRowsStayInPlace := by
  refine ⟨fun n => ⟨rowParts_map_snd n, fun p => mem_rowParts⟩, ?_⟩
  intro f id seed x s rank row w t _ hin
  refine ⟨runRow_of_poisoned, fun hclean => ?_⟩
  have hmem : t.memory = _ := runRow_memory hclean
  refine ⟨fun q a _ ha hout => ?_, ?_, fun e he => ?_⟩
  · rw [State.infByte_congr hmem, State.infByte_foldl_infWrite_other ha _ _ hin hout]
  · rw [hmem, State.foldl_infWrite_store]
  · have hone : t.infRead rank e.1 e.2.length = (s.infWrite rank e.1 e.2).infRead rank e.1 e.2.length := by
      unfold State.infRead
      refine List.map_congr_left fun i _ => State.infByte_congr ?_ _ _
      rw [hmem, show (f s seed x rank row).writes = [e] from he]
      rfl
    rw [hone, State.infRead_infWrite_same]

/-! ### How a command ends -/

section

variable {s : State} {cx : Fin 16} {op : Nat} {f : RowFn} {c : Cmd} (h : issues s cx 0 (wantEngine op) [] c = true)

include h

theorem State.engineRun_of_named (hop : opNamed (egOp c.ext) = true) :
    s.engineRun cx op f = (s.markIssued ⟨cx, 0, c.index⟩ []).runCount ⟨cx, 0, c.index⟩ (stamped s cx [] c) f
      ((s.markIssued ⟨cx, 0, c.index⟩ []).shape cx (egRows c.ext)) := by
  unfold State.engineRun
  rw [State.issueHead_of_issues (pinsOf := noPins) h]
  exact if_pos hop

theorem State.engineRun_of_unnamed (hop : opNamed (egOp c.ext) = false) :
    s.engineRun cx op f =
      (s.markIssued ⟨cx, 0, c.index⟩ []).finish ⟨cx, 0, c.index⟩ (if opKnown (egOp c.ext) then 0x0256 else 0x0250) 0 := by
  unfold State.engineRun
  rw [State.issueHead_of_issues (pinsOf := noPins) h]
  exact if_neg (by simp [stamped, hop])

end

section

variable {t : State} {id : CmdId} {c : Cmd} {f : RowFn} {n : Nat}

theorem State.runCount_of_lt (h : egMaxRows c.ext < n) : t.runCount id c f n = t.finish id 0x0257 0 := by
  unfold State.runCount
  rw [if_pos h]

theorem State.runCount_of_le {x : Line} {seed : Nat} (hx : c.ext = x) (hseed : c.seed = seed) (h : n ≤ egMaxRows x) {u : State}
    {bad : Bool} (hrun : (rowParts n).foldl (runRow f id seed x) (t, false) = (u, bad)) :
    t.runCount id c f n = if bad then u.consumePoison id else u.modCmd id fun d => { d with worked := true, progress := n } := by
  unfold State.runCount
  rw [hx, hseed, if_neg (not_lt.mpr h), hrun]
  cases bad <;> simp

end

/-- Every engine command but POOL is a run of its operation's rows. -/
theorem exec_engineRows (s : State) (cx : Fin 16) :
    ∀ e ∈ engineRows, exec (e.1 cx) s = .next (s.engineRun cx e.2.1 e.2.2) := by
  simp only [engineRows, vectorRows, routineRows, otherRows, List.forall_mem_append, List.forall_mem_cons, List.not_mem_nil,
    false_imp_iff, implies_true, and_true]
  repeat' constructor

theorem opNamed_engineRows : ∀ e ∈ engineRows, opNamed e.2.1 = true := by decide

/-- Settles O27: an engine command that issues is its run of rows, whose end is the fold's. -/
theorem engineCommandsRunRows : Obligations.EngineCommandsRunRows := by
  intro e he s cx c hissue id t n
  rw [exec_engineRows s cx e he]
  refine ⟨fun hop => ?_, fun hop => by rw [State.engineRun_of_unnamed hissue hop]⟩
  rw [State.engineRun_of_named hissue (hop ▸ opNamed_engineRows e he)]
  refine ⟨fun hlt => ?_, fun hle u hrun => ?_, fun hle u hrun => ?_⟩
  · rw [State.runCount_of_lt]; exact hlt
  · rw [State.runCount_of_le (c := stamped s cx [] c) rfl rfl hle hrun, if_neg Bool.false_ne_true]
  · rw [State.runCount_of_le (c := stamped s cx [] c) rfl rfl hle hrun, if_pos rfl]

/-! ### POOL -/

/-- POOL's window at the extents that its command issues with. -/
def poolAt (t : State) (cx w : Nat) (x : Line) : PoolAt :=
  ⟨w, egFmtA x, t.shape cx (winSrcD w), t.shape cx (winSrcH w), t.shape cx (winSrcW w), t.shape cx (egRows x)⟩

/-- The slices of every rank's stripe, in the order in which they are staged. -/
def PoolAt.slices (p : PoolAt) : List (Nat × Nat) :=
  (List.range 75).flatMap fun r => (List.range ((p.stripe r).2 - (p.stripe r).1)).map fun i => (r, (p.stripe r).1 + i)

theorem exec_pool_of_issues {s : State} {cx : Fin 16} {win : Line} {c : Cmd}
    (h : issues s cx 0 (wantEngine 0x210) (poolPins win.toNat cx s c) c = true) (hop : egOp c.ext = 0x210) :
    exec (.pool cx win) s = .next (poolWork win.toNat (s.markIssued ⟨cx, 0, c.index⟩ (poolPins win.toNat cx s c)) ⟨cx, 0, c.index⟩
      (stamped s cx (poolPins win.toNat cx s c) c)) := by
  have hnamed : opNamed (egOp (stamped s cx (poolPins win.toNat cx s c) c).ext) = true := by
    rw [show (stamped s cx (poolPins win.toNat cx s c) c).ext = c.ext from rfl, hop]
    decide
  show execPool cx win s = _
  unfold execPool
  rw [State.issueHead_of_issues h]
  simp only [hnamed, if_true]

section

variable {t : State} {id : CmdId} {c : Cmd} {w : Nat}

theorem poolWork_of_bad_load (h : t.poolLoadStatus id.cx c.ext (poolAt t id.cx w c.ext) ≠ 0) :
    poolWork w t id c = t.finish id (t.poolLoadStatus id.cx c.ext (poolAt t id.cx w c.ext)) 0 := by
  unfold poolWork
  exact if_pos h

variable (hload : t.poolLoadStatus id.cx c.ext (poolAt t id.cx w c.ext) = 0)

include hload

theorem poolWork_of_too_many (h : egMaxRows c.ext < (poolAt t id.cx w c.ext).rows) : poolWork w t id c = t.finish id 0x0257 0 := by
  unfold poolWork
  exact (if_neg (not_not.mpr hload)).trans (if_pos h)

variable (hrows : (poolAt t id.cx w c.ext).rows ≤ egMaxRows c.ext)

include hrows

theorem poolWork_of_bad_issue (h : poolIssueStatus (poolAt t id.cx w c.ext) id (t.kernelBefore id.cx none) ≠ 0) :
    poolWork w t id c = t.finish id (poolIssueStatus (poolAt t id.cx w c.ext) id (t.kernelBefore id.cx none)) 0 := by
  unfold poolWork
  exact (if_neg (not_not.mpr hload)).trans ((if_neg (not_lt.mpr hrows)).trans (if_pos h))

variable (hissue : poolIssueStatus (poolAt t id.cx w c.ext) id (t.kernelBefore id.cx none) = 0)

include hissue

/-- With its checks passed, POOL stages every stripe and runs its rows over what was staged. -/
theorem poolWork_of_staged {u : State} {st : Nat}
    (h : (poolAt t id.cx w c.ext).slices.foldl
      (poolStage (poolAt t id.cx w c.ext) ((poolAt t id.cx w c.ext).source id (t.kernelBefore id.cx none)))
      (t.windowStart (poolAt t id.cx w c.ext).stripe, 0) = (u, st)) :
    (st = 0 → poolWork w t id c = u.runCount id c (poolRow (poolAt t id.cx w c.ext)) (poolAt t id.cx w c.ext).rows) ∧
    (st ≠ 0 → poolWork w t id c = (((rowParts (poolAt t id.cx w c.ext).rows).foldl
      (fun v r => v.infHavoc r.1 (egAtOut c.ext r.2) (egLen c.ext * fmtBytes (egFmtOut c.ext))) u).finish id st 0)) := by
  have hwork : poolWork w t id c = match (u, st) with
      | (t', 0) => t'.runCount id c (poolRow (poolAt t id.cx w c.ext)) (poolAt t id.cx w c.ext).rows
      | (t', st) => ((rowParts (poolAt t id.cx w c.ext).rows).foldl
        (fun v r => v.infHavoc r.1 (egAtOut c.ext r.2) (egLen c.ext * fmtBytes (egFmtOut c.ext))) t').finish id st 0 := by
    rw [← h]
    unfold poolWork
    exact (if_neg (not_not.mpr hload)).trans ((if_neg (not_lt.mpr hrows)).trans (if_neg (not_not.mpr hissue)))
  refine ⟨fun hst => ?_, fun hst => ?_⟩
  · subst hst
    exact hwork
  rw [hwork]
  split
  · next heq =>
    cases heq
    exact absurd rfl hst
  · next heq =>
    cases heq
    rfl

end

/-- Settles O29: POOL's checks come in their order, and its rows run over the staged slices. -/
theorem poolStagesAndRuns : Obligations.PoolStagesAndRuns := by
  intro s cx win c pins id t x p q slices hissue hop
  rw [exec_pool_of_issues hissue hop]
  refine ⟨fun hload => congrArg Host.Outcome.next (poolWork_of_bad_load hload),
    fun hload hrows => congrArg Host.Outcome.next (poolWork_of_too_many hload hrows),
    fun hload hrows hst => congrArg Host.Outcome.next (poolWork_of_bad_issue hload hrows hst),
    fun hload hrows hst u st hstage => ?_⟩
  obtain ⟨hgood, hbad⟩ := poolWork_of_staged (t := t) (id := id) (c := stamped s cx pins c) (w := win.toNat) hload hrows hst hstage
  refine ⟨fun h0 v bad hrun => ?_, fun h0 => ?_⟩
  · rw [hgood h0]
    exact congrArg Host.Outcome.next (State.runCount_of_le (c := stamped s cx pins c) (x := x) (seed := s.cxSeed cx) rfl rfl hrows hrun)
  · rw [hbad h0]
    rfl

end Sys2Proof.Machine

end

section

/-! Registers (chapter 16): rows that write one register, the access codes of REGISTER_WRITE, the commit sets, and the latch of a
_LO read. -/

namespace Sys2Proof.Machine

open Sys2Proof Sys2Proof.Safety

/-! ### Bits -/

theorem bit_eq_testBit (v n : Nat) : bit v n = v.testBit n := by
  rw [bit, Nat.testBit_eq_decide_div_mod_eq, Nat.shiftRight_eq_div_pow, beq_eq_decide]

/-- Written with 1, a bit clears. -/
theorem bit_clearBits {old m n : Nat} (hn : n < 32) : bit (clearBits old m) n = (bit old n && !bit m n) := by
  have hones : Nat.testBit 0xFFFFFFFF n = true := by
    rw [show 0xFFFFFFFF = 2 ^ 32 - 1 from rfl, Nat.testBit_two_pow_sub_one, decide_eq_true hn]
  have hmod : Nat.testBit (m % 4294967296) n = m.testBit n := by
    rw [show 4294967296 = 2 ^ 32 from rfl, Nat.testBit_mod_two_pow, decide_eq_true hn, Bool.true_and]
  simp only [bit_eq_testBit, clearBits, Nat.testBit_and, Nat.testBit_xor, hones, hmod]
  cases m.testBit n <;> simp

/-! ### A row that is a guarded register write -/

/-- A permitted row has its register's effect. -/
theorem exec_of_permits {i : Instr} {s : State} {w : Writer} {off v : Nat} {f : State → State} (h : permits s w off v = true)
    (hrow : exec i s = .next (s.guarded w off v f)) : exec i s = .next (f s) := by
  rw [hrow, State.guarded_of_permits h]

theorem regsBecome_ite {c : Prop} [Decidable c] {e : List (Nat × Nat)} {s t : State} (h : regsBecome e s t) :
    regsBecome (if c then e else []) s (if c then t else s) := by
  split
  · exact h
  · exact regsBecome_refl s

/-- Registers at offsets from a base set to zero, the last first in the list. -/
theorem regsBecome_foldl_zero (b : Nat) (l : List Nat) (s : State) :
    regsBecome (l.reverse.map fun o => (b + o, 0)) s (l.foldl (fun u o => u.setReg (b + o) 0) s) := by
  induction l generalizing s with
  | nil => exact regsBecome_refl s
  | cons o l ih =>
    rw [List.reverse_cons, List.map_append]
    exact regsBecome_trans (regsBecome_setReg s (b + o) 0) (ih _)

/-! ### Clear registers -/

theorem stack_iter_clearStack (s : State) (n r : Nat) :
    (iter n clearStack s).stack r =
      if r < n then { s.stack r with corrected := 0, uncorrected := 0, recon := 0, holdMax := 0 } else s.stack r := by
  induction n with
  | zero => rfl
  | succ n ih =>
    have hstep : iter (n + 1) clearStack s = clearStack n (iter n clearStack s) := by
      simp [iter, List.range_succ]
    rw [hstep, clearStack]
    rcases eq_or_ne r n with rfl | hr
    · rw [State.stack_setStack_same, ih]
      simp
    · rw [State.stack_setStack_other _ _ _ _ hr, ih]
      have : r < n + 1 ↔ r < n := by omega
      simp [this]

theorem iter_clearStack_frame (s : State) (n : Nat) :
    iter n clearStack s = { s with tiers := { s.tiers with stackTab := (iter n clearStack s).tiers.stackTab } } :=
  iter_keeps (fun u : State => u = { s with tiers := { s.tiers with stackTab := u.tiers.stackTab } }) n clearStack s rfl
    fun i u h => by rw [h]; rfl

/-! ### First-trace fields -/

theorem State.grFirst_fields (s : State) (v : Nat) (h : s.reg 0x200C < 2 ^ 32) :
    bits ((s.grFirst v).reg 0x200C) 15 0 = (if bits v 15 0 = 0xFFFF then 0xFFFF else bits (s.reg 0x200C) 15 0) ∧
      bits ((s.grFirst v).reg 0x200C) 31 16 = (if bits v 31 16 = 0xFFFF then 0xFFFF else bits (s.reg 0x200C) 31 16) := by
  unfold State.grFirst
  simp only [State.reg_setReg_same]
  generalize s.reg 0x200C = a at h
  simp only [setFld, bits, Nat.shiftRight_eq_div_pow]
  split_ifs <;> omega

/-! ### GL_CFG_ERR -/

theorem regsBecome_clearCfgErr (s : State) (p v : Nat) :
    regsBecome (if clearBits (s.reg (portKey p 0x40)) v = 0 then [(portKey p 0x44, 0), (portKey p 0x40, 0)]
      else [(portKey p 0x40, clearBits (s.reg (portKey p 0x40)) v)]) s (s.clearCfgErr p v) := by
  unfold State.clearCfgErr
  dsimp only
  split
  · next h =>
    rw [h]
    exact regsBecome_trans (regsBecome_setReg s _ 0) (regsBecome_setReg _ _ 0)
  · exact regsBecome_setReg ..

/-- Settles O9: each row is its register's guarded write, and a permitted one has just that effect. -/
theorem clearWritesClear : Obligations.ClearWritesClear := by
  refine ⟨fun s w v => ⟨fun h => exec_of_permits h rfl, fun h => ⟨_, exec_of_permits h rfl, ?_⟩, fun h => ⟨_, exec_of_permits h rfl, ?_⟩,
    fun h => exec_of_permits h rfl, fun site h => ⟨_, exec_of_permits h rfl, ?_⟩, fun site h => ⟨_, exec_of_permits h rfl, ?_⟩,
    fun link h => ⟨_, exec_of_permits h rfl, ?_⟩, fun po h => ⟨_, exec_of_permits h rfl, ?_⟩⟩,
    fun s w v => ⟨fun h hreg => ⟨_, exec_of_permits h rfl, ?_⟩, fun site h => ⟨_, exec_of_permits h rfl, ?_⟩⟩,
    fun s w v => ⟨fun h => ⟨_, exec_of_permits h rfl, regsBecome_setReg ..⟩,
      fun h => ⟨_, exec_of_permits h rfl, regsBecome_clearCfgErr ..⟩, fun old m n _ hn => bit_clearBits hn⟩⟩
  · exact regsBecome_ite (regsBecome_setReg ..)
  · cases hv : flag v 0
    · exact ⟨rfl, fun r => by simp⟩
    · exact ⟨iter_clearStack_frame s 75, fun r => by simpa using stack_iter_clearStack s 75 r⟩
  · cases hv : flag v 0
    · exact ⟨rfl, fun n => by simp⟩
    · refine ⟨rfl, fun n => ?_⟩
      rcases eq_or_ne n site.val with rfl | hn
      · simp
      · simp [hn, State.site_setSite_other _ _ _ _ hn]
  · exact regsBecome_ite (regsBecome_trans (regsBecome_trans (regsBecome_setReg ..) (regsBecome_setReg ..)) (regsBecome_setReg ..))
  · exact regsBecome_ite (regsBecome_foldl_zero (linkBase link) [0x14, 0x18, 0x1C, 0x20, 0x24] s)
  · exact regsBecome_ite (regsBecome_foldl_zero (poBase po) [0x50, 0x54, 0x58] s)
  · exact ⟨fun k hk => State.reg_setReg_other _ _ _ _ hk, rfl, State.grFirst_fields s v.toNat hreg⟩
  · exact regsBecome_ite (regsBecome_setReg ..)

/-! ### The latch of a _LO read -/

section

variable {s : State} {p off v : Nat}

theorem State.readWord_of_latched (h : tget s.regs.latches (latchKey p off) none = some v) :
    s.readWord p off = (v, s.setLatch (latchKey p off) none) := by
  unfold State.readWord
  rw [h]

theorem State.readWord_of_lo (h : tget s.regs.latches (latchKey p off) none = none) (hlo : isLo off = true) :
    s.readWord p off = (s.regRead p off, s.setLatch (latchKey p (off + 4)) (some (s.regRead p (off + 4)))) := by
  unfold State.readWord
  rw [h]
  exact if_pos hlo

end

/-- Settles O12: a read of a _LO register uses up its own latch, or latches its _HI. -/
theorem lowReadsLatchTheirHigh : Obligations.LowReadsLatchTheirHigh := by
  intro s p off
  have hexec : exec (.registerReadLo p off) s =
      .next (if s.reaches (.port p) ∧ isLo off.toNat then (s.readWord p off.toNat).2 else s) := rfl
  refine ⟨fun hreach hlo => ?_, fun h => ?_, fun v => State.readWord_of_latched⟩
  · rw [hexec, if_pos ⟨hreach, hlo⟩]
    cases hlatch : tget s.regs.latches (latchKey p off.toNat) none with
    | none => rw [State.readWord_of_lo hlatch hlo]
    | some v => rw [State.readWord_of_latched hlatch]
  · rw [hexec, if_neg]
    rcases h with h | h <;> simp [h]

/-! ### REGISTER_WRITE by access code -/

theorem exec_registerWrite_word (s : State) (w : Writer) {off : BitVec 26} (d : DWord) (h : off.toNat % 4 = 0) :
    exec (.registerWrite w off 4 d) s = .next (s.regWrite w off.toNat (d.toNat % 2 ^ 32)) := by
  show execRegisterWrite w off 4 d s = _
  unfold execRegisterWrite
  dsimp only
  rw [if_pos ⟨rfl, h⟩]

theorem exec_registerWrite_pair (s : State) (w : Writer) {off : BitVec 26} (d : DWord) (h : off.toNat % 8 = 0) :
    exec (.registerWrite w off 8 d) s =
      .next ((s.regWrite w off.toNat (d.toNat % 2 ^ 32)).regWrite w (off.toNat + 4) (d.toNat / 2 ^ 32)) := by
  show execRegisterWrite w off 8 d s = _
  unfold execRegisterWrite
  dsimp only
  rw [if_neg (by simp), if_pos ⟨rfl, h⟩]

section

variable {s : State} {w : Writer} {off v : Nat} {i : RegInfo}

theorem State.regWrite_of_undefined (hr : s.reaches w = true) (h : regInfo off = none) : s.regWrite w off v = s.cfgErr w 4 off := by
  unfold State.regWrite
  rw [h]
  exact if_pos hr

theorem State.regWrite_of_ro (h : regInfo off = some i) (hro : i.acc = .ro) : s.regWrite w off v = s := by
  unfold State.regWrite
  rw [h]
  exact if_pos hro

/-- A permitted write of a register without a row of its own. -/
theorem State.regWrite_of_plain (h : regInfo off = some i) (hro : i.acc ≠ .ro) (hp : permits s w off v = true)
    (hlow : s.rowLow w off (BitVec.ofNat 32 v) = none) (hmid : s.rowMid w off (BitVec.ofNat 32 v) = none)
    (hhigh : s.rowHigh w off (BitVec.ofNat 32 v) = none) : s.regWrite w off v = s.plainWrite w off v i := by
  unfold State.regWrite
  rw [h]
  dsimp only
  rw [if_neg hro, hlow, hmid, hhigh]
  exact State.guarded_of_permits hp _

theorem State.plainWrite_rw (h : i.acc = .rw) (hoff : off < 0x790000) :
    s.plainWrite w off v i = s.setReg (if i.perPort then portKey (writerNo w) off else off) (s.clampReg off (v &&& i.mask)) := by
  unfold State.plainWrite
  rw [h]
  exact if_neg (not_le.mpr hoff)

theorem State.plainWrite_w1c (h : i.acc = .w1c) (hoff : ¬(0x310000 ≤ off ∧ off < 0x320000)) :
    s.plainWrite w off v i = s.setReg off (clearBits (s.reg off) (v &&& i.mask)) := by
  unfold State.plainWrite State.w1cSet
  rw [h]
  dsimp only
  rw [if_neg (fun hc => hoff ⟨hc.1, hc.2.1⟩), if_neg (fun hc => hoff ⟨hc.1, hc.2.1⟩)]

theorem State.plainWrite_rwi (h : i.acc = .rwi) (hoff : ¬(0x580000 ≤ off ∧ off < 0x582000)) :
    s.plainWrite w off v i =
      if s.rwiIdle off then s.setReg off (s.clampReg off (v &&& i.mask)) else s.cfgErr w 1 off := by
  unfold State.plainWrite State.whenIdle State.rwiSet
  rw [h]
  dsimp only
  rw [if_neg hoff]

theorem State.plainWrite_rws {n : Nat} (h : i.acc = .rws n) : s.plainWrite w off v i = s.shadowWrite w n off (v &&& i.mask) := by
  unfold State.plainWrite
  rw [h]

end

/-- Settles O10: the words of a write go to the register table in turn, whose entry says what a permitted write does. -/
theorem registerWritesFollowAccessCodes : Obligations.RegisterWritesFollowAccessCodes := by
  intro s w off d
  refine ⟨fun hr hnone h4 => ?_, fun size hr h4 h8 => ?_, fun i hi hro h4 => ?_, fun i hi h4 hoff hp hlow hmid hhigh => ?_,
    fun h8 hoff => ⟨_, exec_registerWrite_word s w _ (by omega), ?_⟩⟩
  · rw [exec_registerWrite_word s w d h4, State.regWrite_of_undefined hr hnone]
  · show execRegisterWrite w off size d s = _
    unfold execRegisterWrite
    dsimp only
    rw [if_neg h4, if_neg h8, if_pos hr]
  · rw [exec_registerWrite_word s w d h4, State.regWrite_of_ro hi hro]
  · have hexec : i.acc ≠ .ro → exec (.registerWrite w off 4 d) s = .next (s.plainWrite w off.toNat (d.toNat % 2 ^ 32) i) :=
      fun hro => by rw [exec_registerWrite_word s w d h4, State.regWrite_of_plain hi hro hp hlow hmid hhigh]
    refine ⟨fun hacc => ⟨_, hexec (by simp [hacc]), ?_⟩, fun hacc hctx => ⟨_, hexec (by simp [hacc]), ?_⟩,
      fun hacc hpo => ⟨_, hexec (by simp [hacc]), fun hidle => ?_, fun hbusy => ?_⟩,
      fun n hacc => ⟨_, hexec (by simp [hacc]), fun hopen => ?_, fun hshut => ?_⟩⟩
    · rw [State.plainWrite_rw hacc hoff]
      exact regsBecome_setReg ..
    · rw [State.plainWrite_w1c hacc hctx]
      exact regsBecome_setReg ..
    · rw [State.plainWrite_rwi hacc hpo, if_pos hidle]
      exact regsBecome_setReg ..
    · rw [State.plainWrite_rwi hacc hpo, if_neg (by simp [hbusy])]
    · rw [State.plainWrite_rws hacc, State.shadowWrite, if_pos hopen]
    · rw [State.plainWrite_rws hacc, State.shadowWrite, if_neg hshut]
  · have hlow : (d &&& 0xFFFFFFFF#64).toNat % 2 ^ 32 = d.toNat % 2 ^ 32 := by
      rw [BitVec.toNat_and]
      have := Nat.and_two_pow_sub_one_eq_mod d.toNat 32
      simp_all
    have hnext : (off + 4#26).toNat = off.toNat + 4 := by
      rw [BitVec.toNat_add]
      exact Nat.mod_eq_of_lt hoff
    have hhigh : (d >>> 32).toNat % 2 ^ 32 = d.toNat / 2 ^ 32 := by
      rw [BitVec.toNat_ushiftRight, Nat.shiftRight_eq_div_pow]
      have := d.isLt
      omega
    rw [exec_registerWrite_pair s w d h8, exec_registerWrite_word _ w _ (by omega), hlow, hnext, hhigh]

/-! ### Commit sets -/

/-- A context's registers clamp alike in every state. -/
theorem State.clampReg_ctx (s t : State) {off : Nat} (h : 0x310000 ≤ off ∧ off < 0x320000) (v : Nat) :
    t.clampReg off v = s.clampReg off v := by
  have hrecipe : ¬(0x2100 ≤ off ∧ off < 0x2140) := by omega
  have hplayout : ¬(0x580000 ≤ off ∧ off < 0x582000) := by omega
  simp only [State.clampReg, if_neg hrecipe, if_neg hplayout]

theorem State.applyVals_cons (s : State) (e : Nat × Nat) (p : List (Nat × Nat)) :
    s.applyVals (e :: p) = (s.setReg e.1 (s.clampReg e.1 e.2)).applyVals p := rfl

theorem State.applyVals_frame (s : State) (p : List (Nat × Nat)) :
    s.applyVals p = { s with regs := { s.regs with vals := (s.applyVals p).regs.vals } } :=
  foldl_keeps (fun u : State => u = { s with regs := { s.regs with vals := u.regs.vals } }) p _ s rfl
    fun u e h => by rw [h]; rfl

theorem State.cset_applyVals (s : State) (p : List (Nat × Nat)) (m : Nat) : (s.applyVals p).cset m = s.cset m :=
  foldl_same (fun u : State => u.cset m) p _ s fun _ _ => rfl

theorem State.reg_applyVals_other (k : Nat) (p : List (Nat × Nat)) :
    ∀ s : State, (∀ e ∈ p, e.1 ≠ k) → (s.applyVals p).reg k = s.reg k := by
  induction p with
  | nil => intros; rfl
  | cons e p ih =>
    intro s h
    rw [State.applyVals_cons, ih _ fun d hd => h d (by simp [hd]), State.reg_setReg_other _ _ _ _ (h e (by simp)).symm]

theorem State.reg_applyVals_mem (p : List (Nat × Nat)) :
    ∀ s : State, (p.map Prod.fst).Nodup → (∀ e ∈ p, 0x310000 ≤ e.1 ∧ e.1 < 0x320000) →
      ∀ e ∈ p, (s.applyVals p).reg e.1 = s.clampReg e.1 e.2 := by
  induction p with
  | nil => intro s _ _ e he; cases he
  | cons d p ih =>
    intro s hnodup hrange e he
    simp only [List.map_cons, List.nodup_cons] at hnodup
    rw [State.applyVals_cons]
    rcases List.mem_cons.mp he with rfl | he
    · rw [State.reg_applyVals_other, State.reg_setReg_same]
      exact fun x hx heq => hnodup.1 (heq ▸ List.mem_map_of_mem hx)
    · rw [ih _ hnodup.2 (fun x hx => hrange x (by simp [hx])) e he]
      exact State.clampReg_ctx _ _ (hrange e (by simp [he])) _

section

variable {s : State} {w : Writer} {n g : Nat}

/-- The set once it is closed under the generation that it was opened with. -/
def CommitSet.shut (c : CommitSet) (w : Writer) (g : Nat) : CommitSet :=
  { c with closeGen := g, mode := .closed, status := 0, pending := some c.shadow, shadow := [], closer := writerNo w }

theorem State.csetClose_of_fit (h : (s.cset n).mode = .opened) (hg : g = (s.cset n).openGen) :
    s.csetClose w n g =
      if s.commitsNow n then (s.setCset n ((s.cset n).shut w g)).commitPoint n else s.setCset n ((s.cset n).shut w g) := by
  unfold State.csetClose
  exact if_pos ⟨h, hg⟩

theorem State.csetClose_of_misfit (h : ¬((s.cset n).mode = .opened ∧ g = (s.cset n).openGen)) (h4 : n ≠ 4) (h5 : n ≠ 5) :
    s.csetClose w n g =
      ((s.setCset n { s.cset n with closeGen := g, mode := .hold, status := 0x0A01 }).cfgErr w 0 (0x10004 + 16 * n)).ownerEvent 7 := by
  unfold State.csetClose
  dsimp only
  rw [if_neg h, if_neg (by simp [h4, h5])]

theorem State.commitsNow_of_ge (h : 6 ≤ n) : s.commitsNow n = true := by
  unfold State.commitsNow
  rw [if_neg (by omega), if_neg (by omega)]

/-- A closed set of a context, at its commit point. -/
theorem State.commitPoint_ctx {p : List (Nat × Nat)} (hn : 16 ≤ n ∧ n < 32) (hp : (s.cset n).pending = some p)
    (hmode : (s.cset n).mode = .closed) : s.commitPoint n = (s.setCset n { s.cset n with pending := none }).applyVals p := by
  unfold State.commitPoint State.applySet
  dsimp only
  rw [hp]
  dsimp only
  rw [if_pos hmode, if_neg (by omega), if_neg (by omega), if_neg (by omega), if_neg (by omega), if_neg (by omega)]

end

/-- Settles O11: a close that fits leaves its values pending or meets its commit point at once, where a context's set goes
through the registers' clamps in turn. -/
theorem commitSetsCommitWhole : Obligations.CommitSetsCommitWhole := by
  refine ⟨fun s w n g => ⟨fun h => by rw [exec_of_permits h rfl]; rfl, fun h => ⟨_, exec_of_permits h rfl, fun ho hg hc => ?_, fun hmis h4 h5 => ?_⟩⟩,
    fun s w n g hn hn' h ho hg hnodup hrange => ?_⟩
  · dsimp only
    rw [State.csetClose_of_fit ho hg, if_neg (by simp [hc])]
    rfl
  · dsimp only
    rw [State.csetClose_of_misfit hmis h4 h5]
  · refine ⟨_, exec_of_permits h rfl, ?_⟩
    have hshut : (s.setCset n ((s.cset n).shut w g.toNat)).cset n = (s.cset n).shut w g.toNat := State.cset_setCset_same ..
    rw [State.csetClose_of_fit ho hg, if_pos (State.commitsNow_of_ge (by omega)),
      State.commitPoint_ctx (p := (s.cset n).shadow) ⟨hn, hn'⟩ (by rw [hshut]; rfl) (by rw [hshut]; rfl)]
    refine ⟨?_, ?_, fun e he => ?_, fun k hk => ?_, fun m hm => ?_, ?_, ?_⟩
    · rw [State.cset_applyVals, State.cset_setCset_same, hshut]
      rfl
    · rw [State.cset_applyVals, State.cset_setCset_same]
    · rw [State.reg_applyVals_mem _ _ hnodup hrange e he, State.clampReg_ctx s _ (hrange e he)]
    · rw [State.reg_applyVals_other _ _ _ hk]
      rfl
    · rw [State.cset_applyVals, State.cset_setCset_other _ _ _ _ hm, State.cset_setCset_other _ _ _ _ hm]
    · rw [State.applyVals_frame]
      rfl
    · rw [State.applyVals_frame]
      rfl

end Sys2Proof.Machine

end

section

/-! What a record in the logbook leaves: a record may be followed by a checkpoint, which may be followed by the records of the
signature count; between them they write the book, the count of signatures, GL_OWNER_EVENT, the ports' interrupts and FAULT_N. -/

namespace Sys2Proof.Machine

open Sys2Proof Sys2Proof.Safety

theorem bit_lor (a b n : Nat) : bit (a ||| b) n = (bit a n || bit b n) := by
  simp only [bit_eq_testBit, Nat.testBit_or]

theorem bit_two_pow_self (n : Nat) : bit (2 ^ n) n = true := by
  rw [bit_eq_testBit, Nat.testBit_two_pow_self]

/-- `t` is `s` but for what a record in the logbook writes. -/
structure Logged (s t : State) : Prop where
  rest : t = { s with
    module := { s.module with faultLow := t.module.faultLow }
    hosts := { s.hosts with ports := t.hosts.ports }
    regs := { s.regs with vals := t.regs.vals }
    rel := { s.rel with
      book := t.rel.book, signatures := t.rel.signatures, sinceCheckpoint := t.rel.sinceCheckpoint, events := t.rel.events }
    fw := { s.fw with sigUsed := t.fw.sigUsed } }
  port : ∀ p, t.port p = { s.port p with msix := (t.port p).msix }
  reg : ∀ k, k ≠ 0x48 → t.reg k = s.reg k
  event : ∀ n, bit (s.reg 0x48) n = true → bit (t.reg 0x48) n = true

namespace Logged

theorem refl (s : State) : Logged s s := ⟨rfl, fun _ => rfl, fun _ _ => rfl, fun _ => id⟩

theorem trans {s t u : State} (h : Logged s t) (g : Logged t u) : Logged s u where
  rest := by
    have hs := h.rest
    have ht := g.rest
    rw [hs] at ht
    exact ht
  port p := by rw [g.port, h.port]
  reg k hk := (g.reg k hk).trans (h.reg k hk)
  event n hn := g.event n (h.event n hn)

section

variable {s t : State} (h : Logged s t)

include h

theorem ctxs : t.hosts.ctxs = s.hosts.ctxs := by rw [h.rest]

theorem ctx (n : Nat) : t.ctx n = s.ctx n := by simp only [State.ctx, h.ctxs]

theorem ring (cx r : Nat) : t.ring cx r = s.ring cx r := by simp only [State.ring, h.ctx]

theorem portUp (p : Nat) : t.portUp p = s.portUp p := by
  simp only [State.portUp]
  rw [h.port]

end

theorem ite {c : Prop} [Decidable c] {s t u : State} (h : Logged s t) (g : Logged s u) : Logged s (if c then t else u) := by
  split
  · exact h
  · exact g

end Logged

/-! ### Each operation of the logbook -/

theorem State.port_msix (s : State) (p v q : Nat) : (s.msix p v).port q = { s.port q with msix := ((s.msix p v).port q).msix } := by
  rcases eq_or_ne q p with rfl | h
  · rw [State.msix, State.port_setPort_same]
  · rw [State.msix, State.port_setPort_other _ _ _ _ h]

theorem State.msix_logged (s : State) (p v : Nat) : Logged s (s.msix p v) :=
  ⟨rfl, State.port_msix s p v, fun _ _ => rfl, fun _ => id⟩

theorem State.ownerEvent_logged (s : State) (n : Nat) : Logged s (s.ownerEvent n) := by
  have hset : Logged s (s.setReg 0x48 (s.reg 0x48 ||| 2 ^ n)) :=
    ⟨rfl, fun _ => rfl, fun k hk => State.reg_setReg_other _ _ _ _ hk, fun m hm => by
      rw [State.reg_setReg_same, bit_lor, hm, Bool.true_or]⟩
  unfold State.ownerEvent
  dsimp only
  split
  · exact hset.trans (State.msix_logged ..)
  · exact hset

/-- An owner event stands in its register. -/
theorem State.bit_ownerEvent (s : State) (n : Nat) : bit ((s.ownerEvent n).reg 0x48) n = true := by
  have hset : bit ((s.setReg 0x48 (s.reg 0x48 ||| 2 ^ n)).reg 0x48) n = true := by
    rw [State.reg_setReg_same, bit_lor, bit_two_pow_self, Bool.or_true]
  unfold State.ownerEvent
  dsimp only
  split
  · exact hset
  · exact hset

theorem State.appendRecord_logged (s : State) (ty status kind unit data : Nat) : Logged s (s.appendRecord ty status kind unit data) := by
  unfold State.appendRecord
  split
  · exact State.ownerEvent_logged ..
  · refine Logged.trans ?_ (State.ownerEvent_logged ..)
    exact ⟨rfl, fun _ => rfl, fun _ _ => rfl, fun _ => id⟩

theorem State.sign_logged (s : State) (m : List Byte) : Logged s (s.sign m).1 := by
  have hrecord : ∀ (c : Prop) [Decidable c] (u : State) (x : Nat), Logged u (if c then u.appendRecord 0x92 0 0 0 x else u) :=
    fun c _ u x => .ite (State.appendRecord_logged ..) (.refl u)
  unfold State.sign
  split
  · exact .refl s
  · refine Logged.trans (t := { s with fw := { s.fw with sigUsed := s.fw.sigUsed + 1 } }) ⟨rfl, fun _ => rfl, fun _ _ => rfl, fun _ => id⟩ ?_
    exact (hrecord ..).trans ((hrecord ..).trans ((hrecord ..).trans (hrecord ..)))

theorem State.checkpoint_logged (s : State) : Logged s s.checkpoint := by
  unfold State.checkpoint
  extract_lets first slot t last rel u
  have ht : Logged s t := State.appendRecord_logged ..
  have hu : Logged s u := ht.trans ⟨rfl, fun _ => rfl, fun _ _ => rfl, fun _ => id⟩
  have hsigned := hu.trans (State.sign_logged u ([0x55, 0x5A, 0x4C, 0x42] ++ last))
  generalize u.sign ([0x55, 0x5A, 0x4C, 0x42] ++ last) = p at hsigned ⊢
  obtain ⟨x, _ | g⟩ := p
  · exact hsigned
  · exact hsigned.trans ⟨rfl, fun _ => rfl, fun _ _ => rfl, fun _ => id⟩

theorem State.log_logged (s : State) (ty status kind unit data : Nat) : Logged s (s.log ty status kind unit data) := by
  unfold State.log
  dsimp only
  split
  · exact (State.appendRecord_logged ..).trans (State.checkpoint_logged _)
  · exact State.appendRecord_logged ..

theorem State.interrupt_logged (s : State) (status : Nat) (unavailable : Bool) : Logged s (s.interrupt status unavailable) := by
  unfold State.interrupt
  refine Logged.trans ?_ (State.log_logged ..)
  exact ⟨rfl, fun _ => rfl, fun _ _ => rfl, fun _ => id⟩

end Sys2Proof.Machine

end

section

/-! Contexts and rings (chapter 13): what an update of a ring leaves of its context, what a fault of a context does, and the
records that a ring gives up as it settles. -/

namespace Sys2Proof.Machine

open Sys2Proof Sys2Proof.Safety

/-! ### A ring's update -/

theorem State.ctx_setRing_same (s : State) (cx r : Nat) (v : Ring) :
    (s.setRing cx r v).ctx cx = { s.ctx cx with rings := tput (s.ctx cx).rings r v Ring.empty } := State.ctx_setCtx_same ..

theorem State.ctx_setRing_other (s : State) {cx n : Nat} (r : Nat) (v : Ring) (h : n ≠ cx) : (s.setRing cx r v).ctx n = s.ctx n :=
  State.ctx_setCtx_other _ _ _ _ h

/-- The rings of a context, each changed by its own function. -/
def State.mapRings (s : State) (cx n : Nat) (g : Nat → Ring → Ring) : State :=
  iter n (fun r u => u.setRing cx r (g r (u.ring cx r))) s

theorem iter_succ {σ : Type} (n : Nat) (f : Nat → σ → σ) (s : σ) : iter (n + 1) f s = f n (iter n f s) := by
  simp [iter, List.range_succ]

section

variable (s : State) (cx n : Nat) (g : Nat → Ring → Ring)

theorem State.mapRings_frame : s.mapRings cx n g = { s with hosts := { s.hosts with ctxs := (s.mapRings cx n g).hosts.ctxs } } :=
  iter_keeps (fun u : State => u = { s with hosts := { s.hosts with ctxs := u.hosts.ctxs } }) n _ s rfl
    fun i u h => by rw [h]; rfl

theorem State.ctx_mapRings_other {m : Nat} (h : m ≠ cx) : (s.mapRings cx n g).ctx m = s.ctx m :=
  iter_same (fun u : State => u.ctx m) n _ s fun _ u => State.ctx_setRing_other u _ _ h

theorem State.ctx_mapRings_same : (s.mapRings cx n g).ctx cx = { s.ctx cx with rings := ((s.mapRings cx n g).ctx cx).rings } :=
  iter_keeps (fun u : State => u.ctx cx = { s.ctx cx with rings := (u.ctx cx).rings }) n _ s rfl
    fun i u h => by rw [State.ctx_setRing_same, h]

theorem State.ring_mapRings (r : Nat) : (s.mapRings cx n g).ring cx r = if r < n then g r (s.ring cx r) else s.ring cx r := by
  unfold State.mapRings
  induction n with
  | zero => rfl
  | succ n ih =>
    rw [iter_succ]
    rcases eq_or_ne r n with rfl | hr
    · rw [State.ring_setRing_same, ih]
      simp
    · rw [State.ring_setRing_other _ _ _ _ _ _ (.inr hr), ih]
      have : r < n + 1 ↔ r < n := by omega
      simp [this]

end

/-! ### A context's fault -/

theorem State.ctx_hpEvent (s : State) (p n m : Nat) : (s.hpEvent p n).ctx m = s.ctx m := rfl

theorem State.portUp_msix (s : State) (p v q : Nat) : (s.msix p v).portUp q = s.portUp q := (State.msix_logged s p v).portUp q

theorem State.portUp_hpEvent (s : State) (p n q : Nat) : (s.hpEvent p n).portUp q = s.portUp q := State.portUp_msix ..

/-- HP_EVENT shows the event raised. -/
theorem State.bit_hpEvent (s : State) (p n : Nat) : bit ((s.hpEvent p n).reg (0x300108 + 0x100 * p)) n = true := by
  have hreg : (s.hpEvent p n).reg (0x300108 + 0x100 * p) = s.reg (0x300108 + 0x100 * p) ||| 2 ^ n := State.reg_setReg_same ..
  rw [hreg, bit_lor, bit_two_pow_self, Bool.or_true]

theorem State.port_hpEvent (s : State) (p n q : Nat) :
    (s.hpEvent p n).port q = { s.port q with msix := ((s.hpEvent p n).port q).msix } := State.port_msix (s.orReg _ _) p 64 q

section

variable {s : State} {cx st : Nat}

theorem State.faultCx_of_ready (h : (s.ctx cx).mode = .ready) :
    s.faultCx cx st = (s.setCtx cx { s.ctx cx with mode := .faulted, status := st }).hpEvent (s.ctx cx).port 3 := by
  unfold State.faultCx
  exact if_pos h

theorem State.faultCx_of_not_ready (h : (s.ctx cx).mode ≠ .ready) : s.faultCx cx st = s := by
  unfold State.faultCx
  exact if_neg h

theorem State.ctx_faultCx_of_ready (h : (s.ctx cx).mode = .ready) :
    (s.faultCx cx st).ctx cx = { s.ctx cx with mode := .faulted, status := st } := by
  rw [State.faultCx_of_ready h, State.ctx_hpEvent, State.ctx_setCtx_same]

theorem State.ctx_faultCx_other {n : Nat} (h : n ≠ cx) : (s.faultCx cx st).ctx n = s.ctx n := by
  by_cases hr : (s.ctx cx).mode = .ready
  · rw [State.faultCx_of_ready hr, State.ctx_hpEvent, State.ctx_setCtx_other _ _ _ _ h]
  · rw [State.faultCx_of_not_ready hr]

/-- A fault changes a context's state and status alone. -/
theorem State.ctx_faultCx (n : Nat) : (s.faultCx cx st).ctx n =
    { s.ctx n with mode := ((s.faultCx cx st).ctx n).mode, status := ((s.faultCx cx st).ctx n).status } := by
  by_cases hr : (s.ctx cx).mode = .ready
  · rcases eq_or_ne n cx with rfl | hn
    · rw [State.ctx_faultCx_of_ready hr]
    · rw [State.ctx_faultCx_other hn]
  · rw [State.faultCx_of_not_ready hr]

theorem State.ring_faultCx (n r : Nat) : (s.faultCx cx st).ring n r = s.ring n r := by
  unfold State.ring
  rw [State.ctx_faultCx]

theorem State.portUp_faultCx (q : Nat) : (s.faultCx cx st).portUp q = s.portUp q := by
  by_cases hr : (s.ctx cx).mode = .ready
  · rw [State.faultCx_of_ready hr]
    exact State.portUp_hpEvent ..
  · rw [State.faultCx_of_not_ready hr]

end

/-! ### Records that leave a ring -/

section

variable (s : State) (cx r : Nat) (c : Cmd)

/-- The record of a ring's first command, as it is written where the port of the context is up. -/
def State.recordsOf : List Completion :=
  if s.portUp (s.ctx cx).port then
    [⟨c.index, kindSlots c.kind,
      completionRecord s cx c (completionStatus (if c.refusal ≠ 0 then c.refusal else c.status) c.flags c.trap), c.irq,
      (s.ctx cx).port, s.slotAddr cx r c.index⟩]
  else []

/-- The state that a written record leaves, but for the fault of a command that was refused as unreadable. -/
def State.recorded : State :=
  let t := s.setRing cx r { s.ring cx r with cmds := (s.ring cx r).cmds.drop 1, written := (s.ring cx r).written ++ s.recordsOf cx r c }
  c.pins.foldl (fun u p => u.setSeq p.1 { u.seq p.1 with pinned := (u.seq p.1).pinned.erase p.2 })
    (t.setCtx cx { t.ctx cx with flags := (t.ctx cx).flags ||| c.flags })

theorem State.writeRecord_eq : s.writeRecord cx r c =
    if c.refusal = 0x0B04 then ((s.recorded cx r c).faultCx cx 0x0B04).interrupt 0x0B04 false else s.recorded cx r c := rfl

theorem State.recorded_hosts : (s.recorded cx r c).hosts =
    (((s.setRing cx r { s.ring cx r with
      cmds := (s.ring cx r).cmds.drop 1, written := (s.ring cx r).written ++ s.recordsOf cx r c })).setCtx cx
        { (s.setRing cx r { s.ring cx r with
            cmds := (s.ring cx r).cmds.drop 1, written := (s.ring cx r).written ++ s.recordsOf cx r c }).ctx cx with
          flags := (s.ctx cx).flags ||| c.flags }).hosts := by
  unfold State.recorded
  rw [foldl_same (fun u : State => u.hosts) _ _ _ fun u p => State.setSeq_hosts .., State.ctx_setRing_same]

theorem State.ctx_recorded (n : Nat) : (s.recorded cx r c).ctx n =
    if n = cx then { s.ctx cx with
      rings := tput (s.ctx cx).rings r { s.ring cx r with
        cmds := (s.ring cx r).cmds.drop 1, written := (s.ring cx r).written ++ s.recordsOf cx r c } Ring.empty
      flags := (s.ctx cx).flags ||| c.flags } else s.ctx n := by
  have hctx : (s.recorded cx r c).ctx n = _ := congrArg (fun h : Hosts => tget h.ctxs n Ctx.empty) (State.recorded_hosts s cx r c)
  rw [hctx]
  split
  · next h =>
    subst h
    exact (State.ctx_setCtx_same ..).trans (by rw [State.ctx_setRing_same])
  · next h => exact (State.ctx_setCtx_other _ _ _ _ h).trans (State.ctx_setRing_other _ _ _ h)

theorem State.portUp_recorded (q : Nat) : (s.recorded cx r c).portUp q = s.portUp q := by
  simp only [State.portUp, State.port, State.recorded_hosts]
  rfl

theorem State.ring_recorded : (s.recorded cx r c).ring cx r = { s.ring cx r with
    cmds := (s.ring cx r).cmds.drop 1, written := (s.ring cx r).written ++ s.recordsOf cx r c } := by
  unfold State.ring
  rw [State.ctx_recorded, if_pos rfl]
  exact tget_tput_same ..

/-- A record written: the ring's first command goes, its record is written, and the port of the context is as it was. -/
theorem State.writeRecord_spec :
    (s.writeRecord cx r c).ring cx r = { s.ring cx r with
      cmds := (s.ring cx r).cmds.drop 1, written := (s.ring cx r).written ++ s.recordsOf cx r c } ∧
    ((s.writeRecord cx r c).ctx cx).port = (s.ctx cx).port ∧ (s.writeRecord cx r c).portUp = s.portUp := by
  have hport : ((s.recorded cx r c).ctx cx).port = (s.ctx cx).port := by rw [State.ctx_recorded, if_pos rfl]
  rw [State.writeRecord_eq]
  split
  · have hlog := State.interrupt_logged ((s.recorded cx r c).faultCx cx 0x0B04) 0x0B04 false
    refine ⟨?_, ?_, funext fun q => ?_⟩
    · rw [hlog.ring, State.ring_faultCx, State.ring_recorded]
    · rw [hlog.ctx, State.ctx_faultCx, hport]
    · rw [hlog.portUp, State.portUp_faultCx, State.portUp_recorded]
  · exact ⟨State.ring_recorded s cx r c, hport, funext fun q => State.portUp_recorded s cx r c q⟩

end

/-- As far as a ring settles, its commands leave in order, each with its record where the context's port is up. -/
theorem State.flush_spec (cx r : Nat) : ∀ (n : Nat) (s : State), ∃ k,
    ((State.flush cx r n s).ring cx r).cmds = (s.ring cx r).cmds.drop k ∧
    ∃ l : List Completion, ((State.flush cx r n s).ring cx r).written = (s.ring cx r).written ++ l ∧
      l.map Completion.index = if s.portUp (s.ctx cx).port then ((s.ring cx r).cmds.take k).map Cmd.index else [] := by
  intro n
  induction n with
  | zero => exact fun s => ⟨0, rfl, [], by simp [State.flush], by simp⟩
  | succ n ih =>
    intro s
    unfold State.flush
    split
    · exact ⟨0, by simp, [], by simp, by simp⟩
    · next c rest hcmds =>
      split
      · obtain ⟨hring, hport, hup⟩ := State.writeRecord_spec s cx r c
        obtain ⟨k, hleft, l, hwritten, hindex⟩ := ih (s.writeRecord cx r c)
        rw [hring] at hleft hwritten hindex
        rw [hport, hup] at hindex
        refine ⟨k + 1, by simpa [hcmds] using hleft, s.recordsOf cx r c ++ l, by simpa using hwritten, ?_⟩
        rw [List.map_append, hindex]
        unfold State.recordsOf
        split <;> simp [hcmds]
      · exact ⟨0, by simp, [], by simp, by simp⟩

end Sys2Proof.Machine

end

section

/-! Contexts, their doorbells and their rings' records (chapters 13 and 14): O13 to O19. -/

namespace Sys2Proof.Machine

open Sys2Proof Sys2Proof.Safety

/-! ### Completion records (O17) -/

section

variable (s : State) (cx r : Nat)

theorem State.ring_ringMsix : (s.ringMsix cx r).ring cx r = { s.ring cx r with coalesced := 0 } :=
  (State.msix_logged ..).ring cx r |>.trans (State.ring_setRing_same ..)

theorem State.msix_ringMsix :
    ((s.ringMsix cx r).port (s.ctx cx).port).msix = (4 * cx + r) :: (s.port (s.ctx cx).port).msix := by
  unfold State.ringMsix State.msix
  dsimp only
  rw [State.port_setPort_same]
  rfl

theorem State.ringMsix_frame : s.ringMsix cx r = { s with hosts := (s.ringMsix cx r).hosts } := rfl

end

theorem exec_completionAck_cons {s : State} {cx : Fin 16} {ring : Fin 4} {a : Completion} {rest : List Completion}
    (h : (s.ring cx ring).written = a :: rest) : ∃ t u : State, exec (.completionAck cx ring) s = .next t ∧
      t = u.reschedule false ∧ (u.ring cx ring).written = rest ∧
      (u.ring cx ring).done = wrap32 (a.index + a.slots) ∧
      (u.port (s.ctx cx).port).msix = (if a.irq || (bit (s.ringIrq cx ring) 0 &&
          decide (bits (s.ringIrq cx ring) 15 8 ≤ (s.ring cx ring).coalesced + 1)) then
        (4 * cx.val + ring.val) :: (s.port (s.ctx cx).port).msix else (s.port (s.ctx cx).port).msix) := by
  let on := bit (s.ringIrq cx ring) 0
  let n := if on then (s.ring cx ring).coalesced + 1 else (s.ring cx ring).coalesced
  let v : Ring := { s.ring cx ring with written := rest, done := wrap32 (a.index + a.slots), coalesced := n }
  let t := s.setRing cx ring v
  let u := if a.irq || (on && decide (bits (s.ringIrq cx ring) 15 8 ≤ n)) then t.ringMsix cx ring else t
  have hport : (t.ctx cx).port = (s.ctx cx).port := by rw [State.ctx_setRing_same]
  have hring : t.ring cx ring = v := State.ring_setRing_same ..
  have hu : (u.ring cx ring).written = rest ∧ (u.ring cx ring).done = wrap32 (a.index + a.slots) := by
    by_cases hc : (a.irq || (on && decide (bits (s.ringIrq cx ring) 15 8 ≤ n))) = true
    · rw [show u = t.ringMsix cx ring from if_pos hc, State.ring_ringMsix, hring]
      exact ⟨rfl, rfl⟩
    · rw [show u = t from if_neg hc, hring]
      exact ⟨rfl, rfl⟩
  have hn : (on && decide (bits (s.ringIrq cx ring) 15 8 ≤ n)) =
      (bit (s.ringIrq cx ring) 0 && decide (bits (s.ringIrq cx ring) 15 8 ≤ (s.ring cx ring).coalesced + 1)) := by
    cases hon : bit (s.ringIrq cx ring) 0 <;> simp [on, n, hon]
  refine ⟨u.reschedule false, u, ?_, rfl, hu.1, hu.2, ?_⟩
  · show execCompletionAck cx ring s = _
    unfold execCompletionAck
    simp only [h]
    rfl
  · rw [← hn]
    by_cases hc : (a.irq || (on && decide (bits (s.ringIrq cx ring) 15 8 ≤ n))) = true
    · rw [show u = t.ringMsix cx ring from if_pos hc, if_pos hc, ← hport, State.msix_ringMsix, hport]
      rfl
    · rw [show u = t from if_neg hc, if_neg hc]
      rfl

/-- Settles O17: what a ring writes follows from `flush_spec`, by induction on how far it settles. -/
theorem completionsLeaveInOrder : Obligations.CompletionsLeaveInOrder := by
  unfold Obligations.CompletionsLeaveInOrder
  refine ⟨fun s cx ring => ⟨fun a rest h => exec_completionAck_cons h, fun h => ?_, fun hon hn => ?_⟩, fun s cx r => ?_⟩
  · show execCompletionAck cx ring s = _
    unfold execCompletionAck
    simp only [h]
  · refine ⟨s.ringMsix cx ring, ?_, ?_, State.msix_ringMsix .., State.ringMsix_frame ..⟩
    · show execIrqCoalesceTimer cx ring s = _
      unfold execIrqCoalesceTimer
      rw [if_pos (by simp [hon, hn])]
    · rw [State.ring_ringMsix]
  · obtain ⟨k, hleft, l, hwritten, hindex⟩ := State.flush_spec cx r (s.ring cx r).cmds.length s
    refine ⟨k, hleft, l, hwritten, ?_⟩
    split at hindex
    · exact .inr hindex
    · exact .inl (List.map_eq_nil_iff.mp hindex)

/-! ### The service tool (O13) -/

/-- Settles O13, by cases on the request's refusals, in their order. -/
theorem toolCommandsAnswer : Obligations.ToolCommandsAnswer := by
  unfold Obligations.ToolCommandsAnswer
  intro s off len data
  refine ⟨fun h => ⟨?_, ?_, ?_, fun hl => ?_⟩, fun h =>
    ⟨fun hok hall => ?_, fun hok => ?_, fun hl hok hall => ?_, fun hl hok hall => ?_, fun hkey => ?_, fun hkey => ?_, ?_⟩⟩
  · show execMctpRead off len s = _
    simp only [execMctpRead, h, Bool.not_false, if_true]
  · show execMctpReset off s = _
    simp only [execMctpReset, h, Bool.not_false, if_true]
  · show execMctpState s = _
    simp only [execMctpState, h, Bool.false_eq_true, if_false]
  · show execMctpWrite off len data s = _
    simp only [execMctpWrite, hl, h, ne_eq, not_true, Bool.not_false, if_true, if_false]
  · show execMctpRead off len s = _
    simp only [execMctpRead, h, hok, hall, Bool.not_true, Bool.false_eq_true, if_false]
  · show execMctpRead off len s = _
    simp only [execMctpRead, h, hok, Bool.not_true, Bool.not_false, Bool.false_eq_true, if_false, if_true]
  · show execMctpWrite off len data s = _
    simp only [execMctpWrite, State.writeWords, hl, h, hok, hall, ne_eq, not_true, Bool.not_true, Bool.false_eq_true, if_false]
  · show execMctpWrite off len data s = _
    simp only [execMctpWrite, hl, h, hok, hall, ne_eq, not_true, Bool.not_true, Bool.not_false, Bool.false_eq_true, if_false, if_true]
    rfl
  · refine ⟨(s.respond 0 []).moduleReset 0, ?_, rfl, rfl, rfl, rfl⟩
    show execMctpReset off s = _
    simp only [execMctpReset, h, hkey, resetKey, Bool.not_true, Bool.false_eq_true, if_false, if_true]
  · show execMctpReset off s = _
    simp only [execMctpReset, h, hkey, resetKey, Bool.not_true, Bool.false_eq_true, if_false]
  · show execMctpState s = _
    simp only [execMctpState, h, if_true]

/-! ### Assignment and start (O14) -/

/-- Two states that differ in the contexts alone. -/
def SameButCtxs (s t : State) : Prop := t = { s with hosts := { s.hosts with ctxs := t.hosts.ctxs } }

theorem SameButCtxs.trans {s t u : State} (h : SameButCtxs s t) (g : SameButCtxs t u) : SameButCtxs s u := by
  unfold SameButCtxs at h g ⊢
  rw [h] at g
  exact g

theorem State.assignCx_frame (s : State) (p n : Nat) (on : Bool) : SameButCtxs s (s.assignCx p n on) := by
  unfold SameButCtxs State.assignCx
  dsimp only
  split
  · rfl
  · split <;> rfl

theorem State.ctx_assignCx_other (s : State) (p : Nat) (on : Bool) {n m : Nat} (h : m ≠ n) : (s.assignCx p n on).ctx m = s.ctx m := by
  unfold State.assignCx
  dsimp only
  split
  · exact State.ctx_setCtx_other _ _ _ _ h
  · split
    · exact State.ctx_setCtx_other _ _ _ _ h
    · rfl

/-- What the mask bit of a port makes of a context: ASSIGNED to it, FREE again, or as it was. -/
def Ctx.assign (c : Ctx) (dies p : Nat) (on : Bool) : Ctx :=
  if on = true ∧ c.mode = .free ∧ p < dies then { c with mode := .assigned, port := p }
  else if on = false ∧ c.mode = .assigned ∧ c.port = p then { c with mode := .free, port := 0 }
  else c

theorem State.ctx_assignCx_same (s : State) (p n : Nat) (on : Bool) :
    (s.assignCx p n on).ctx n = (s.ctx n).assign s.module.dies p on := by
  unfold State.assignCx Ctx.assign
  simp only [Bool.and_eq_true, Bool.not_eq_true', decide_eq_true_eq, beq_iff_eq, and_assoc]
  split
  · exact State.ctx_setCtx_same ..
  · split
    · exact State.ctx_setCtx_same ..
    · rfl

theorem State.assignAll_spec (p : Nat) (on : Nat → Bool) (s : State) : ∀ k : Nat,
    SameButCtxs s (iter k (fun n u => u.assignCx p n (on n)) s) ∧
    ∀ n, (iter k (fun n u => u.assignCx p n (on n)) s).ctx n =
      if n < k then (s.ctx n).assign s.module.dies p (on n) else s.ctx n := by
  intro k
  induction k with
  | zero => exact ⟨rfl, fun _ => rfl⟩
  | succ k ih =>
    rw [iter_succ]
    obtain ⟨hframe, hctx⟩ := ih
    refine ⟨hframe.trans (State.assignCx_frame ..), fun n => ?_⟩
    · rcases eq_or_ne n k with rfl | hn
      · rw [State.ctx_assignCx_same, hctx, hframe]
        simp
      · rw [State.ctx_assignCx_other _ _ _ hn, hctx]
        have : n < k + 1 ↔ n < k := by omega
        simp only [this]

theorem exec_hpCxMask_of_permits {s : State} {w : Writer} {p : Fin 4} {v : Word}
    (h : permits s w (0x300104 + 0x100 * p) v.toNat = true) :
    exec (.hpCxMaskWrite w p v) s = .next (iter 16 (fun n u => u.assignCx p n (flag v n)) s) :=
  exec_of_permits h rfl

section

variable {s : State} {w : Writer} {cx : Fin 16} (h : permits s w (ctxBase cx) 1 = true) (hm : (s.ctx cx).mode = .assigned)

/-- A context as a start leaves it before the doorbell line is read. -/
def Ctx.started (c : Ctx) (failed : Bool) : Ctx :=
  { c with mode := .ready, status := 0, doorbellHeld := !failed, doorbellReading := false, doorbellAgain := false }

include h hm

theorem exec_cxStart_of_unsound (hs : s.startOk cx = false) (line : Line) (failed : Bool) :
    exec (.cxStart w cx line failed) s = .next (s.setCtx cx { s.ctx cx with status := 0x0611 }) := by
  refine (exec_of_permits h rfl).trans (congrArg Host.Outcome.next ?_)
  dsimp only
  rw [if_neg (by simp [hm]), if_pos (by simp [hs])]

theorem exec_cxStart_of_sound (hs : s.startOk cx = true) (line : Line) : exec (.cxStart w cx line false) s =
    .next (((s.setCtx cx ((s.ctx cx).started false)).readDoorbell cx).mapRings cx 4 fun r _ => Ring.startAt (doorbellIndex line r)) := by
  refine (exec_of_permits h rfl).trans (congrArg Host.Outcome.next ?_)
  dsimp only
  rw [if_neg (by simp [hm]), if_neg (by simp [hs]), if_neg (by simp)]
  rfl

theorem exec_cxStart_of_failed (hs : s.startOk cx = true) (line : Line) : exec (.cxStart w cx line true) s =
    .next (((s.setCtx cx ((s.ctx cx).started true)).readDoorbell cx).faultCx cx 0x0610) := by
  refine (exec_of_permits h rfl).trans (congrArg Host.Outcome.next ?_)
  dsimp only
  rw [if_neg (by simp [hm]), if_neg (by simp [hs]), if_pos rfl]
  rfl

end

theorem State.ctx_readDoorbell (s : State) (cx n : Nat) : (s.readDoorbell cx).ctx n = s.ctx n := rfl

/-- A doorbell read of a context that keeps its port appends the read of its doorbell line. -/
theorem State.readDoorbell_setCtx (s : State) (cx : Nat) (c : Ctx) (hp : c.port = (s.ctx cx).port) :
    (s.setCtx cx c).readDoorbell cx = { s with hosts := { s.hosts with
      ctxs := (s.setCtx cx c).hosts.ctxs
      reads := s.hosts.reads ++ [⟨(s.ctx cx).port, s.doorbellAddr cx, 64, true⟩] } } := by
  unfold State.readDoorbell State.hostRead
  rw [State.ctx_setCtx_same, hp]
  rfl

/-- Settles O14: the mask by induction over the contexts, a start by its two checks. -/
theorem contextsAreAssignedAndStarted : Obligations.ContextsAreAssignedAndStarted := by
  unfold Obligations.ContextsAreAssignedAndStarted
  refine ⟨fun s w p v h => ?_, fun s w cx line => ⟨fun h hm => ⟨fun hs => ⟨?_, ?_⟩, fun hs failed => ?_⟩, fun h hm => ?_⟩⟩
  · obtain ⟨hframe, hctx⟩ := State.assignAll_spec p (flag v) s 16
    refine ⟨_, exec_hpCxMask_of_permits h, hframe, fun n hn => ?_⟩
    rw [hctx, if_pos hn]
    rfl
  · refine ⟨_, exec_cxStart_of_sound h hm hs line, ?_, ?_, ?_, fun r hr => ?_, fun n hn => ?_⟩
    · rw [State.mapRings_frame, State.readDoorbell_setCtx s cx ((s.ctx cx).started false) rfl]
    · rw [State.ctx_mapRings_same, State.ctx_readDoorbell, State.ctx_setCtx_same]
      rfl
    · rw [State.ctx_mapRings_same, State.ctx_readDoorbell, State.ctx_setCtx_same]
      rfl
    · rw [State.ring_mapRings, if_pos hr]
      rfl
    · rw [State.ctx_mapRings_other _ _ _ _ hn, State.ctx_readDoorbell, State.ctx_setCtx_other _ _ _ _ hn]
  · refine ⟨_, exec_cxStart_of_failed h hm hs line, ?_⟩
    rw [State.ctx_faultCx_of_ready (by rw [State.ctx_readDoorbell, State.ctx_setCtx_same]; rfl)]
    exact ⟨rfl, rfl⟩
  · exact exec_cxStart_of_unsound h hm hs line failed
  · refine (exec_of_permits h rfl).trans (congrArg Host.Outcome.next ?_)
    exact if_pos hm

/-! ### Teardown (O15) -/

section

variable (s : State) (cx : Nat)

theorem State.ctx_clearCx : (s.clearCx cx).ctx cx =
    { (s.mapRings cx 4 fun _ q => { q with fetched := q.issuedEnd, cmds := [], ranNs := [] }).ctx cx with
      mode := .assigned, slots := [], sems := [], doorbellHeld := false, doorbellReading := false, doorbellAgain := false } :=
  State.ctx_setCtx_same ..

theorem State.ring_clearCx {r : Nat} (h : r < 4) : ((s.clearCx cx).ring cx r).cmds = [] := by
  have hring : (s.clearCx cx).ring cx r =
      (s.mapRings cx 4 fun _ q => { q with fetched := q.issuedEnd, cmds := [], ranNs := [] }).ring cx r := by
    unfold State.ring
    rw [State.ctx_clearCx]
  rw [hring, State.ring_mapRings, if_pos h]

/-- A media engine works on a frame of this context. -/
def State.mediaWorksFor : Bool :=
  (List.range 24).any fun e => match (s.engine e).running with
    | some f => f.cmd.cx == cx
    | none => false

theorem State.mediaWorksFor_eq_false (h : ∀ e, e < 24 → ∀ f, (s.engine e).running = some f → f.cmd.cx ≠ cx) :
    s.mediaWorksFor cx = false := by
  unfold State.mediaWorksFor
  rw [List.any_eq_false]
  intro e he
  cases hr : (s.engine e).running with
  | none => simp
  | some f => simpa using h e (List.mem_range.mp he) f hr

end

theorem exec_teardown (s : State) (cx : Fin 16) : exec (.teardown cx) s = .next (
    if (s.ctx cx).mode ≠ .stopping ∨ s.mediaWorksFor cx = true ∨ (!s.holds cx) = true then s
    else (((s.stopAll cx).clearCx cx).runOutOf cx).reschedule false) := rfl

/-- Settles O15: what a teardown leaves of a context is read off its last update. -/
theorem teardownEmptiesContext : Obligations.TeardownEmptiesContext := by
  unfold Obligations.TeardownEmptiesContext
  intro s cx
  refine ⟨fun hm hh hb => ⟨_, ?_, rfl⟩, fun h => ?_, ?_, ?_, ?_, fun r => State.ring_clearCx s cx⟩
  · rw [exec_teardown, if_neg (by simp [hm, hh, State.mediaWorksFor_eq_false s cx hb])]
  · rw [exec_teardown, if_pos]
    rcases h with h | h
    · exact .inl h
    · exact .inr (.inr (by simp [h]))
  all_goals rw [State.ctx_clearCx]

/-! ### The doorbell line (O16) -/

section

variable (s : State) (cx : Nat)

/-- A context whose doorbell line has just been read. -/
def Ctx.lineRead (c : Ctx) : Ctx :=
  { c with doorbellReading := c.doorbellAgain, doorbellAgain := false, doorbellHeld := !c.doorbellAgain }

/-- The state in which a doorbell line that has been read is looked at: a snoop since has it read again. -/
def State.lineRead : State :=
  if (s.ctx cx).doorbellAgain then (s.setCtx cx (s.ctx cx).lineRead).readDoorbell cx else s.setCtx cx (s.ctx cx).lineRead

theorem State.lineRead_frame : s.lineRead cx = { s with hosts := { s.hosts with
    ctxs := (s.lineRead cx).hosts.ctxs
    reads := s.hosts.reads ++
      (if (s.ctx cx).doorbellAgain then [⟨(s.ctx cx).port, s.doorbellAddr cx, 64, true⟩] else []) } } := by
  unfold State.lineRead
  split
  · rw [State.readDoorbell_setCtx s cx (s.ctx cx).lineRead rfl]
  · simp only [List.append_nil]
    rfl

theorem State.ctx_lineRead_same : (s.lineRead cx).ctx cx = (s.ctx cx).lineRead := by
  unfold State.lineRead
  split
  · rw [State.ctx_readDoorbell, State.ctx_setCtx_same]
  · rw [State.ctx_setCtx_same]

theorem State.ctx_lineRead_other {n : Nat} (h : n ≠ cx) : (s.lineRead cx).ctx n = s.ctx n := by
  unfold State.lineRead
  split
  · rw [State.ctx_readDoorbell, State.ctx_setCtx_other _ _ _ _ h]
  · rw [State.ctx_setCtx_other _ _ _ _ h]

theorem State.ring_lineRead (r : Nat) : (s.lineRead cx).ring cx r = s.ring cx r := by
  unfold State.ring
  rw [State.ctx_lineRead_same]
  rfl

theorem State.producerBad_lineRead (l : Line) : (s.lineRead cx).producerBad cx l = s.producerBad cx l := by
  funext r
  unfold State.producerBad
  rw [State.ring_lineRead, State.lineRead_frame]
  rfl

end

section

variable {s : State} {cx : Fin 16} {line : Line} (hm : (s.ctx cx).mode = .ready) (hr : (s.ctx cx).doorbellReading = true)

include hm hr

theorem exec_doorbellReadDone_of_failed : exec (.doorbellReadDone cx line true) s =
    .next ((s.setCtx cx { s.ctx cx with doorbellReading := false, doorbellAgain := false, doorbellHeld := false }).faultCx cx 0x0610) := by
  show execDoorbellReadDone cx line true s = _
  unfold execDoorbellReadDone
  dsimp only
  rw [if_neg (by simp [hm, hr]), if_pos rfl]

theorem exec_doorbellReadDone_of_read : exec (.doorbellReadDone cx line false) s = .next (
    if (List.range 4).any (s.producerBad cx line) then (s.lineRead cx).faultCx cx 0x060F
    else (s.lineRead cx).mapRings cx 4 fun r q => { q with producer := doorbellIndex line r }) := by
  rw [← State.producerBad_lineRead]
  show execDoorbellReadDone cx line false s = _
  unfold execDoorbellReadDone
  dsimp only
  rw [if_neg (by simp [hm, hr]), if_neg (by simp)]
  rfl

theorem doorbellReadDone_of_inRange (hok : ∀ r, r < 4 → s.producerBad cx line r = false) :
    ∃ t, exec (.doorbellReadDone cx line false) s = .next t ∧
      t = { s with hosts := { s.hosts with
        ctxs := t.hosts.ctxs
        reads := s.hosts.reads ++
          (if (s.ctx cx).doorbellAgain then [⟨(s.ctx cx).port, s.doorbellAddr cx, 64, true⟩] else []) } } ∧
      (t.ctx cx).mode = .ready ∧
      (t.ctx cx).doorbellReading = (s.ctx cx).doorbellAgain ∧ (t.ctx cx).doorbellHeld = !(s.ctx cx).doorbellAgain ∧
      (∀ r, r < 4 → t.ring cx r = { s.ring cx r with producer := doorbellIndex line r }) ∧
      ∀ n, n ≠ cx.val → t.ctx n = s.ctx n := by
  have hany : ((List.range 4).any (s.producerBad cx line)) = false := by
    rw [List.any_eq_false]
    exact fun r hr => by simp [hok r (List.mem_range.mp hr)]
  have hctx := State.ctx_mapRings_same (s.lineRead cx) cx 4 fun r q => { q with producer := doorbellIndex line r }
  rw [State.ctx_lineRead_same] at hctx
  refine ⟨_, (exec_doorbellReadDone_of_read hm hr).trans (by rw [hany, if_neg Bool.false_ne_true]), ?_, ?_, ?_, ?_,
    fun r hr => ?_, fun n hn => ?_⟩
  · rw [State.mapRings_frame, State.lineRead_frame]
  · rw [hctx]
    exact hm
  · rw [hctx]
    rfl
  · rw [hctx]
    rfl
  · rw [State.ring_mapRings, if_pos hr, State.ring_lineRead]
  · rw [State.ctx_mapRings_other _ _ _ _ hn, State.ctx_lineRead_other _ _ hn]

theorem doorbellReadDone_of_outOfRange (hbad : ∃ r, r < 4 ∧ s.producerBad cx line r = true) :
    ∃ t, exec (.doorbellReadDone cx line false) s = .next t ∧ (t.ctx cx).mode = .faulted ∧ (t.ctx cx).status = 0x060F ∧
      ∀ r, t.ring cx r = s.ring cx r := by
  have hany : ((List.range 4).any (s.producerBad cx line)) = true := by
    obtain ⟨r, hlt, hb⟩ := hbad
    exact List.any_eq_true.mpr ⟨r, List.mem_range.mpr hlt, hb⟩
  have hready : ((s.lineRead cx).ctx cx).mode = .ready := by
    rw [State.ctx_lineRead_same]
    exact hm
  refine ⟨_, (exec_doorbellReadDone_of_read hm hr).trans (by rw [if_pos hany]), ?_, ?_, fun r => ?_⟩
  · rw [State.ctx_faultCx_of_ready hready]
  · rw [State.ctx_faultCx_of_ready hready]
  · rw [State.ring_faultCx, State.ring_lineRead]

end

/-! ### Decoding a slot (O16) -/

section

variable (s : State) (cx r i n : Nat)

theorem State.fetchSlots_frame : s.fetchSlots cx r i n =
    { s with hosts := { s.hosts with reads := (s.fetchSlots cx r i n).hosts.reads } } :=
  iter_keeps (fun u : State => u = { s with hosts := { s.hosts with reads := u.hosts.reads } }) n _ s rfl
    fun j u h => by rw [h]; rfl

theorem State.ctx_fetchSlots (m : Nat) : (s.fetchSlots cx r i n).ctx m = s.ctx m := by
  rw [State.fetchSlots_frame]
  rfl

theorem State.reg_fetchSlots (k : Nat) : (s.fetchSlots cx r i n).reg k = s.reg k := by
  rw [State.fetchSlots_frame]
  rfl

end

section

variable {s : State} {cx : Fin 16} {ring : Fin 4} {line ext : Line} {m : Nat}

/-- The slots that the producer index has passed and the dispatcher has not fetched. -/
def Ring.waiting (q : Ring) : Nat := wrap32 (q.producer + 4294967296 - q.fetched)

/-- A ring with the command of its next slot behind the others. -/
def Ring.decoded (q : Ring) (line ext : Line) (status : Nat) : Ring :=
  { q with
    fetched := wrap32 (q.fetched + kindSlots (fld line 7 0))
    cmds := q.cmds ++ [{ Cmd.make q.fetched line ext status with runNs := tget q.ranNs q.fetched 0 }]
    ranNs := tput q.ranNs q.fetched 0 0 }

/-- The state in which a slot's command stands behind the others and nothing has settled yet. -/
def State.decoded (s : State) (cx ring : Nat) (line ext : Line) (m : Nat) : State :=
  ((s.addSat 0x600124 m).fetchSlots cx ring (s.ring cx ring).fetched (kindSlots (fld line 7 0))).setRing cx ring
    ((s.ring cx ring).decoded line ext (s.decodeStatus cx ring line ext m))

theorem exec_dispatchDecode_of_none (h : (s.ring cx ring).waiting = 0) (failed : Bool) :
    exec (.dispatchDecode cx ring line ext failed m) s = .next s := by
  show execDispatchDecode cx ring line ext failed m s = _
  unfold execDispatchDecode
  exact congrArg Host.Outcome.next (if_pos (.inr (.inr (.inl h))))

section

variable (hm : (s.ctx cx).mode = .ready) (hup : s.portUp (s.ctx cx).port = true)
  (hroom : ((s.ring cx ring).cmds.filter fun c => !c.issued).length < 8)

include hm hup hroom

theorem exec_dispatchDecode (hw : (s.ring cx ring).waiting ≠ 0) (failed : Bool) :
    exec (.dispatchDecode cx ring line ext failed m) s = .next (
      if failed then (s.fetchSlots cx ring (s.ring cx ring).fetched 1).faultCx cx 0x0610
      else if (s.ring cx ring).waiting < kindSlots (fld line 7 0) then s
      else ((if s.decodeStatus cx ring line ext m = 0 then (s.decoded cx ring line ext m).prefetch cx line
        else s.decoded cx ring line ext m).settle cx ring).reschedule false) := by
  show execDispatchDecode cx ring line ext failed m s = _
  unfold Ring.waiting at hw
  unfold execDispatchDecode
  dsimp only
  rw [if_neg (by simp only [hm, hup, hw]; simp only [ne_eq, not_true, Bool.not_true, Bool.false_eq_true, false_or]; omega)]
  rfl

end

theorem State.decoded_reg_same : (s.decoded cx ring line ext m).reg 0x600124 = sat32 (s.reg 0x600124 + m) := by
  have hreg : (s.decoded cx ring line ext m).reg 0x600124 =
      ((s.addSat 0x600124 m).fetchSlots cx ring (s.ring cx ring).fetched (kindSlots (fld line 7 0))).reg 0x600124 := rfl
  rw [hreg, State.reg_fetchSlots]
  exact State.reg_setReg_same ..

theorem State.decoded_reg_other {k : Nat} (hk : k ≠ 0x600124) : (s.decoded cx ring line ext m).reg k = s.reg k := by
  have hreg : (s.decoded cx ring line ext m).reg k =
      ((s.addSat 0x600124 m).fetchSlots cx ring (s.ring cx ring).fetched (kindSlots (fld line 7 0))).reg k := rfl
  rw [hreg, State.reg_fetchSlots]
  exact State.reg_setReg_other _ _ _ _ hk

theorem State.ring_decoded : (s.decoded cx ring line ext m).ring cx ring =
    (s.ring cx ring).decoded line ext (s.decodeStatus cx ring line ext m) := State.ring_setRing_same ..

theorem State.decoded_ctx_other {n : Nat} (hn : n ≠ cx.val) : (s.decoded cx ring line ext m).ctx n = s.ctx n := by
  unfold State.decoded
  rw [State.ctx_setRing_other _ _ _ hn, State.ctx_fetchSlots]
  rfl

theorem exec_dispatchDecode_of_waiting (hm : (s.ctx cx).mode = .ready) (hup : s.portUp (s.ctx cx).port = true)
    (hroom : ((s.ring cx ring).cmds.filter fun c => !c.issued).length < 8) (hd : (s.ring cx ring).waiting ≠ 0)
    (hs : kindSlots (fld line 7 0) ≤ (s.ring cx ring).waiting) :
    ∃ t u : State, exec (.dispatchDecode cx ring line ext false m) s = .next t ∧
      t = ((if s.decodeStatus cx ring line ext m = 0 then u.prefetch cx line else u).settle cx ring).reschedule false ∧
      u.reg 0x600124 = sat32 (s.reg 0x600124 + m) ∧
      u.ring cx ring = (s.ring cx ring).decoded line ext (s.decodeStatus cx ring line ext m) ∧
      (∀ k, k ≠ 0x600124 → u.reg k = s.reg k) ∧ (∀ n, n ≠ cx.val → u.ctx n = s.ctx n) := by
  refine ⟨_, s.decoded cx ring line ext m, ?_, rfl, State.decoded_reg_same, State.ring_decoded,
    fun k hk => State.decoded_reg_other hk, fun n hn => State.decoded_ctx_other hn⟩
  rw [exec_dispatchDecode hm hup hroom hd false, if_neg Bool.false_ne_true, if_neg (Nat.not_lt.mpr hs)]

end

/-- Settles O16: what a line leaves by the state of the context, a slot by what is waiting. -/
theorem doorbellsReachTheDispatcher : Obligations.DoorbellsReachTheDispatcher := by
  unfold Obligations.DoorbellsReachTheDispatcher
  refine ⟨fun s cx line hm => ⟨fun hr => ?_, fun hr hh => ?_, fun hr hh => ?_, fun hr hp => ?_,
    fun hr hok => doorbellReadDone_of_inRange hm hr hok, fun hr hbad => doorbellReadDone_of_outOfRange hm hr hbad,
    fun hr => ?_⟩, ?_⟩
  · show execDoorbellSnoop cx s = _
    simp only [execDoorbellSnoop, hm, hr, ne_eq, not_true, if_true, if_false]
  · show execDoorbellSnoop cx s = _
    simp only [execDoorbellSnoop, hm, hr, hh, ne_eq, not_true, Bool.false_eq_true, if_true, if_false]
  · show execDoorbellSnoop cx s = _
    simp only [execDoorbellSnoop, hm, hr, hh, ne_eq, not_true, Bool.false_eq_true, if_false]
  · show execDoorbellPoll cx s = _
    simp only [execDoorbellPoll, hm, hr, hp, ne_eq, not_true, Bool.false_eq_true, or_self, if_false]
  · refine ⟨_, exec_doorbellReadDone_of_failed hm hr, ?_⟩
    rw [State.ctx_faultCx_of_ready (by rw [State.ctx_setCtx_same]; exact hm)]
    exact ⟨rfl, rfl⟩
  · intro s cx ring line ext m hm hup hroom q d
    have hw : (s.ring cx ring).waiting = d := rfl
    refine ⟨fun hd => ?_, fun hd hs => exec_dispatchDecode_of_waiting hm hup hroom hd hs,
      fun hd => ?_, fun hd failed => exec_dispatchDecode_of_none (hw.trans hd) failed⟩
    · rw [exec_dispatchDecode hm hup hroom (by rw [hw]; exact hd) true, if_pos rfl]
    · rcases Decidable.em (d = 0) with h0 | h0
      · exact exec_dispatchDecode_of_none (hw.trans h0) false
      · rw [exec_dispatchDecode hm hup hroom (by rw [hw]; exact h0) false, if_neg Bool.false_ne_true, hw, if_pos hd]

/-! ### Host ports (O18) -/

/-- Settles O18, by the state of the port. -/
theorem hostPortsChangeState : Obligations.HostPortsChangeState := by
  unfold Obligations.HostPortsChangeState
  refine fun s p => ⟨fun h => ⟨(s.setPort p { s.port p with mode := .degraded }).hpEvent p 2, ?_, ?_, rfl, State.bit_hpEvent ..⟩,
    fun h => ⟨_, ?_, rfl⟩,
    fun h => ⟨({ s.setPort p ((s.port p).trained s.draws) with draws := s.draws + 1 } : State).hpEvent p 2, ?_, ?_, rfl,
      State.bit_hpEvent ..⟩⟩
  · show execHostPortDegraded p s = _
    unfold execHostPortDegraded
    dsimp only
    rw [if_pos h]
  · rw [State.port_hpEvent, State.port_setPort_same]
  · show execHostPortDown p s = _
    unfold execHostPortDown State.portDown
    dsimp only
    rw [if_neg (by rcases h with h | h | h <;> simp [h])]
  · show execHostPortUp p s = _
    unfold execHostPortUp
    dsimp only
    rw [if_neg (by rcases h with h | h | h <;> simp [h])]
  · have hport : ({ s.setPort p ((s.port p).trained s.draws) with draws := s.draws + 1 } : State).port p =
        (s.port p).trained s.draws := State.port_setPort_same ..
    rw [State.port_hpEvent, hport]
    rfl

/-! ### Semaphores (O19) -/

theorem State.sem_signalled (t : State) (cx i n j : Nat) :
    (t.setCtx cx { t.ctx cx with sems := tput (t.ctx cx).sems i (wrap32 (t.sem cx i + n)) 0 }).sem cx j =
      if j = i then wrap32 (t.sem cx j + n) else t.sem cx j := by
  unfold State.sem
  rw [State.ctx_setCtx_same]
  dsimp only
  split
  · next h => rw [h, tget_tput_same]
  · next h => rw [tget_tput_other _ _ _ _ _ _ h]

/-- Settles O19: the three commands issue at the head of their ring, so each is its run on the marked state. -/
theorem semaphoresCount : Obligations.SemaphoresCount := by
  unfold Obligations.SemaphoresCount
  intro s cx ring c
  refine ⟨fun h => ?_, fun h => ?_, fun h => ?_⟩
  · exact congrArg Host.Outcome.next (State.issueHead_of_issues (pinsOf := noPins) h _)
  · refine ⟨_, congrArg Host.Outcome.next (State.issueHead_of_issues (pinsOf := noPins) h _), rfl,
      fun n hn => State.ctx_setCtx_other _ _ _ _ hn, fun i => State.sem_signalled _ cx (fld c.desc 195 192) (fld c.desc 255 224) i⟩
  · exact congrArg Host.Outcome.next (State.issueHead_of_issues (pinsOf := noPins) h _)

end Sys2Proof.Machine

end

section

/-! Lap counters and the start of kernels (chapters 5 and 13): O20. -/

namespace Sys2Proof.Machine

open Sys2Proof Sys2Proof.Safety

/-! ### Lap counters -/

section

variable (s : State) (rank i : Nat) (v : LapCounter)

theorem State.lap_setLap_same : (s.setLap rank i v).lap rank i = v := tget_tput_same ..

theorem State.lap_setLap_other {q j : Nat} (h : q * 256 + j ≠ rank * 256 + i) : (s.setLap rank i v).lap q j = s.lap q j :=
  tget_tput_other _ _ _ _ _ _ h

theorem State.lap_setLap_rank {q : Nat} (h : q ≠ rank) : (s.setLap rank i v).lap q i = s.lap q i :=
  State.lap_setLap_other s rank i v (by omega)

theorem State.kernel_setLap (j : Nat) : (s.setLap rank i v).kernel j = s.kernel j := rfl

end

/-- The lap counter of a rank as a kernel that takes it leaves it. -/
def Kernel.lapOf (k : Kernel) (r : Nat) : LapCounter :=
  let lo := (k.range r).1 * k.parts
  let hi := (k.range r).2 * k.parts
  ⟨if lo < hi then .serving else .exhausted, k.cmd.cx, lo, hi, 0, [], [], 0, 0, 0, k.boundM, k.boundN, k.boundK, k.boundB⟩

theorem State.lap_takeCounters (s : State) (i : Nat) (k : Kernel) {r : Nat} (h : r < 75) :
    (s.takeCounters i k).lap r i = k.lapOf r := by
  have hlap : ∀ n, r < n → (iter n (fun r t => t.setLap r i (k.lapOf r)) s).lap r i = k.lapOf r := by
    intro n
    induction n with
    | zero => omega
    | succ n ih =>
      intro hn
      rw [iter_succ]
      rcases eq_or_ne r n with rfl | hr
      · exact State.lap_setLap_same ..
      · rw [State.lap_setLap_rank _ _ _ _ hr]
        exact ih (by omega)
  exact hlap 75 h

theorem State.kernel_takeCounters (s : State) (i : Nat) (k : Kernel) (j : Nat) : (s.takeCounters i k).kernel j = s.kernel j :=
  iter_same (fun u : State => u.kernel j) 75 _ s fun _ _ => rfl

/-! ### A kernel's start -/

theorem State.zeroBands_tiles (s : State) (k : Kernel) :
    (s.zeroBands k).tiles = { s.tiles with bands := (s.zeroBands k).tiles.bands } := by
  unfold State.zeroBands
  dsimp only
  split <;> rfl

theorem State.windowRegs_tiles (s : State) (k : Kernel) : (s.windowRegs k).tiles = s.tiles :=
  (State.windowRegs_keeps (P := [.regs]) s k (Keeps.refl s) (by decide)).parts .tiles (by decide)

theorem State.noteWide_tiles (s : State) (k : Kernel) : (s.noteWide k).tiles = s.tiles :=
  (State.noteWide_keeps (P := [.rails]) s k (Keeps.refl s) (by decide)).parts .tiles (by decide)

theorem State.raise_tiles (s : State) (id : CmdId) (fl : Nat) : (s.raise id fl).tiles = s.tiles :=
  (State.raise_keeps (P := [.hosts]) s id fl (Keeps.refl s) (by decide)).parts .tiles (by decide)

theorem State.startKernel_of_refused {s : State} {id : CmdId} {img : KImage} {p : Option Nat}
    (h : issueStatus (s.kernelAt id img (if img.windowed && winChained img.window then (s.kernelBefore id.cx p).map Kernel.cmd else none))
      (s.kernelBefore id.cx p) ≠ 0) :
    s.startKernel id img p = s.refuseKernel id (issueStatus (s.kernelAt id img
      (if img.windowed && winChained img.window then (s.kernelBefore id.cx p).map Kernel.cmd else none)) (s.kernelBefore id.cx p)) := by
  unfold State.startKernel
  exact if_pos h

/-- A kernel that passes its issue checks stands in the table under its counter, which every rank's share is loaded into. -/
theorem State.startKernel_of_passed {s : State} {id : CmdId} {img : KImage} {p : Option Nat} {k : Kernel}
    (hk : k = s.kernelAt id img (if img.windowed && winChained img.window then (s.kernelBefore id.cx p).map Kernel.cmd else none))
    (h : issueStatus k (s.kernelBefore id.cx p) = 0) :
    (s.startKernel id img p).kernel (claimCounter (wordOf k.prog 1)) = some k ∧
      ∀ r, r < 75 → (s.startKernel id img p).lap r (claimCounter (wordOf k.prog 1)) = k.lapOf r := by
  unfold State.startKernel
  dsimp only
  rw [← hk, if_neg (by simp [h])]
  generalize ({ s with tiles := { s.tiles with cores := _ } } : State) = t
  set i := claimCounter (wordOf k.prog 1)
  have htiles : ∀ u : State, ((((u.zeroBands k).windowRegs k).noteWide k).raise id (if 4194304 < k.boundK then flLongK else 0)).tiles =
      { u.tiles with bands := (u.zeroBands k).tiles.bands } := by
    intro u
    rw [State.raise_tiles, State.noteWide_tiles, State.windowRegs_tiles, State.zeroBands_tiles]
  refine ⟨?_, fun r hr => ?_⟩
  · unfold State.kernel
    rw [htiles]
    exact State.kernel_setKernel_same (t.takeCounters i k) i (some k)
  · unfold State.lap
    rw [htiles]
    exact State.lap_takeCounters t i k hr

section

variable {s : State} {cx : Nat} {c : Cmd}

theorem State.runHead_of_issues {want : Cmd → Bool}
    (h : issues s cx 0 (fun d => wantKind 2 d && want d) (runPins cx s c) c = true) :
    s.runHead cx want = s.runSlot ⟨cx, 0, c.index⟩ c (runPins cx s c) none := by
  simp only [issues, Bool.and_eq_true, beq_iff_eq, Bool.or_eq_true, Bool.not_eq_true'] at h
  obtain ⟨⟨⟨⟨hhead, hrules⟩, hserved⟩, hpkg⟩, hmissing⟩ := h
  obtain ⟨hwant, -⟩ := State.headCmd_some hhead
  have hkind : c.kind = 2 := by
    simp only [wantKind, Bool.and_eq_true, beq_iff_eq] at hwant
    exact hwant.1.1
  have hsome : s.package.isNone = false := by
    rw [hkind] at hpkg
    simpa [kindFree, ← Option.not_isSome] using hpkg
  have hempty : s.rel.missing.isEmpty = true := by
    rw [hkind] at hmissing
    simpa [kindFields] using hmissing
  unfold State.runHead
  rw [hhead]
  simp only [hrules, hserved, hsome, hempty, Bool.and_self, Bool.not_true, Bool.false_eq_true, if_true, if_false]

theorem exec_runKernel_of_issues {cx : Fin 16} (h : issues s cx 0 (fun d => wantKind 2 d && (d.waitsCounter == false)) (runPins cx s c) c = true) :
    exec (.runKernel cx) s = .next (s.runSlot ⟨cx, 0, c.index⟩ c (runPins cx s c) none) := by
  have hwant : (fun d : Cmd => wantKind 2 d && (d.waitsCounter == false)) = fun d => wantKind 2 d && !d.waitsCounter := by
    funext d
    cases d.waitsCounter <;> rfl
  rw [hwant] at h
  exact congrArg Host.Outcome.next (State.runHead_of_issues h)

theorem exec_lapCounterFreed_of_issues {cx : Fin 16}
    (h : issues s cx 0 (fun d => wantKind 2 d && (d.waitsCounter == true)) (runPins cx s c) c = true) :
    exec (.lapCounterFreed cx) s = .next (s.runSlot ⟨cx, 0, c.index⟩ c (runPins cx s c) none) := by
  have hwant : (fun d : Cmd => wantKind 2 d && (d.waitsCounter == true)) = fun d => wantKind 2 d && d.waitsCounter := by
    funext d
    cases d.waitsCounter <;> rfl
  rw [hwant] at h
  exact congrArg Host.Outcome.next (State.runHead_of_issues h)

theorem exec_chainedKernelIssue_of_producer {cx : Fin 16} {a : Cmd} {rest : List Cmd} {j : Nat} {k : Kernel}
    (hcmds : (s.ring cx 0).cmds = a :: c :: rest) (hk : s.kernelOf ⟨cx, 0, a.index⟩ = some (j, k))
    (hcond : (a.issued && !a.finished && wantKind 2 c && s.chainedSlot cx c && s.ringRules cx 0 c (runPins cx s c) &&
      s.served cx 0 && s.rel.missing.isEmpty) = true) :
    exec (.chainedKernelIssue cx) s = .next (s.runSlot ⟨cx, 0, c.index⟩ c (runPins cx s c) (some j)) := by
  show execChainedKernelIssue cx s = _
  unfold execChainedKernelIssue
  simp only [hcmds, hk, hcond, if_true]

end

section

variable {s : State} {id : CmdId} {c : Cmd} {pins : List Nat} {p : Option Nat} {img : KImage}

theorem State.runSlot_of_empty (h : s.slot id.cx (fld c.desc 197 192) = none) :
    s.runSlot id c pins p = (s.markIssued id []).refuseKernel id 0x0607 := by
  simp only [State.runSlot, h]

theorem State.runSlot_of_held (h : s.slot id.cx (fld c.desc 197 192) = some img) (hh : s.counterHeld img = true) :
    s.runSlot id c pins p = s.modCmd id fun d => { d with waitsCounter := true } := by
  simp only [State.runSlot, h, hh, if_true]

theorem State.runSlot_of_free (h : s.slot id.cx (fld c.desc 197 192) = some img) (hh : s.counterHeld img = false) :
    s.runSlot id c pins p = (s.markIssued id pins).startKernel id img p := by
  simp only [State.runSlot, h, hh, Bool.false_eq_true, if_false]

end

/-- A row that starts a kernel has it stand under its counter, or ends the command with the status of its issue checks. -/
theorem startKernel_outcome {row : Instr} {s t : State} {cx : Nat} {id : CmdId} {img : KImage} {p : Option Nat} (hcx : id.cx = cx)
    (hrow : exec row s = .next (t.startKernel id img p)) :
    let q := t.kernelBefore cx p
    let k := t.kernelAt id img (if img.windowed && winChained img.window then q.map Kernel.cmd else none)
    let i := claimCounter (wordOf k.prog 1)
    (issueStatus k q = 0 → ∃ u : State, exec row s = .next u ∧ u.kernel i = some k ∧
      ∀ r, r < 75 → (u.lap r i).cx = cx ∧ (u.lap r i).next = k.tiles * r / 75 * k.parts ∧
        (u.lap r i).stop = k.tiles * (r + 1) / 75 * k.parts ∧ (u.lap r i).held = [] ∧ (u.lap r i).retry = []) ∧
    (issueStatus k q ≠ 0 → exec row s = .next (t.refuseKernel id (issueStatus k q))) := by
  subst hcx
  intro q k i
  refine ⟨fun h => ⟨_, hrow, ?_⟩, fun h => hrow.trans (congrArg Host.Outcome.next (State.startKernel_of_refused h))⟩
  obtain ⟨hkernel, hlap⟩ := State.startKernel_of_passed (k := k) rfl h
  refine ⟨hkernel, fun r hr => ?_⟩
  rw [hlap r hr]
  exact ⟨rfl, rfl, rfl, rfl, rfl⟩

/-! ### A kernel's image -/

section

variable {t : State} {id : CmdId} {c : Cmd}

theorem loadWork_of_unread {st : Nat} {l : Marked} (h : t.cvaRead id (fld c.desc 303 256) 1024 = (st, l)) (hst : st ≠ 0) :
    loadWork t id c = t.finish id st 0 := by
  unfold loadWork
  rw [h]
  split
  · next h0 => exact absurd (Prod.mk.inj h0).1 hst
  · next h1 => rw [← (Prod.mk.inj h1).1]

section

variable {l : Marked} (h : t.cvaRead id (fld c.desc 303 256) 1024 = (0, l))

include h

theorem loadWork_of_poison (hp : anyPoison l = true) :
    loadWork t id c = (t.noteRead id (t.isLive id.cx) (fld c.desc 303 256) 1024).consumePoison id := by
  unfold loadWork
  rw [h]
  exact if_pos hp

theorem loadWork_of_unsound (hp : anyPoison l = false) (hbad : (t.noteRead id (t.isLive id.cx) (fld c.desc 303 256) 1024).loadChecks
      id.cx (unmark l) (KImage.parse (unmark l)) ≠ 0) :
    loadWork t id c = (t.noteRead id (t.isLive id.cx) (fld c.desc 303 256) 1024).finish id
      ((t.noteRead id (t.isLive id.cx) (fld c.desc 303 256) 1024).loadChecks id.cx (unmark l) (KImage.parse (unmark l))) 0 := by
  unfold loadWork
  rw [h]
  exact (if_neg (by simp [hp])).trans (if_pos hbad)

theorem loadWork_of_sound (hp : anyPoison l = false) (hok : (t.noteRead id (t.isLive id.cx) (fld c.desc 303 256) 1024).loadChecks
      id.cx (unmark l) (KImage.parse (unmark l)) = 0) :
    loadWork t id c = ((t.noteRead id (t.isLive id.cx) (fld c.desc 303 256) 1024).setSlot id.cx (fld c.desc 197 192)
      (some (KImage.parse (unmark l)))).finish id 0 0 := by
  unfold loadWork
  rw [h]
  exact (if_neg (by simp [hp])).trans (if_neg (not_not_intro hok))

end

end

theorem exec_loadKernel_of_issues {s : State} {cx : Fin 16} {c : Cmd}
    (h : issues s cx 0 (wantKind 1) (s.pinsOf cx [(fld c.desc 303 256, 1024)]) c = true) :
    exec (.loadKernel cx) s = .next (loadWork (s.markIssued ⟨cx, 0, c.index⟩ (s.pinsOf cx [(fld c.desc 303 256, 1024)]))
      ⟨cx, 0, c.index⟩ c) :=
  congrArg Host.Outcome.next
    (State.issueHead_of_issues (pinsOf := fun t c => t.pinsOf cx [(fld c.desc 303 256, 1024)]) h loadWork)

/-- Settles O20: a load by what its image reads as, a start by `startKernel_outcome` for each of its three rows. -/
theorem kernelsLoadAndIssue : Obligations.KernelsLoadAndIssue := by
  unfold Obligations.KernelsLoadAndIssue
  refine ⟨?_, ?_, ?_⟩
  · intro s cx c va pins id t u h
    have hrow : exec (.loadKernel cx) s = .next (loadWork t id c) := exec_loadKernel_of_issues h
    exact ⟨fun l hl hp =>
        ⟨fun hok => ⟨_, hrow.trans (congrArg Host.Outcome.next (loadWork_of_sound hl hp hok)), rfl, State.slot_setSlot_same ..⟩,
          fun hbad => hrow.trans (congrArg Host.Outcome.next (loadWork_of_unsound hl hp hbad))⟩,
      fun l hl hp => hrow.trans (congrArg Host.Outcome.next (loadWork_of_poison hl hp)),
      fun st l hl hst => hrow.trans (congrArg Host.Outcome.next (loadWork_of_unread hl hst))⟩
  · intro s cx c img id t at_ wait starts
    refine ⟨fun hslot h => ?_, fun hslot => ⟨fun h hfree => ?_, fun h hheld => ?_, fun h hfree => ?_, fun h hheld => ?_,
      fun a rest j k hcmds hk hai haf hw hcs hrr hsv hmiss => ?_⟩⟩
    · rw [exec_runKernel_of_issues h, State.runSlot_of_empty hslot]
    · refine startKernel_outcome rfl ((exec_runKernel_of_issues h).trans ?_)
      rw [State.runSlot_of_free hslot hfree]
    · rw [exec_runKernel_of_issues h, State.runSlot_of_held hslot hheld]
    · refine startKernel_outcome rfl ((exec_lapCounterFreed_of_issues h).trans ?_)
      rw [State.runSlot_of_free hslot hfree]
    · rw [exec_lapCounterFreed_of_issues h, State.runSlot_of_held hslot hheld]
    · have hrow := exec_chainedKernelIssue_of_producer hcmds hk (by simp [hai, haf, hw, hcs, hrr, hsv, hmiss])
      refine ⟨fun hfree => ?_, fun hheld => ?_⟩
      · refine startKernel_outcome (p := some j) rfl (hrow.trans ?_)
        rw [State.runSlot_of_free hslot hfree]
      · rw [hrow, State.runSlot_of_held hslot hheld]
  · intro s i k r _ hr l
    have hl : l = k.lapOf r := State.lap_takeCounters s i k hr
    rw [hl]
    exact ⟨rfl, rfl, rfl, rfl, rfl, rfl, rfl, rfl, rfl, rfl, rfl, rfl, rfl, rfl⟩

end Sys2Proof.Machine

end

section

/-! Cores and the tiles they claim (chapter 5): O21. -/

namespace Sys2Proof.Machine

open Sys2Proof Sys2Proof.Safety

/-! ### One owner per tile -/

section

variable (k : Kernel) {t : Nat}

/-- The shares of two ranks do not overlap. -/
theorem Kernel.range_unique {q r : Nat} (hq : (k.range q).1 ≤ t ∧ t < (k.range q).2) (hr : (k.range r).1 ≤ t ∧ t < (k.range r).2) :
    q = r := by
  have hle : ∀ a b : Nat, (k.range a).1 ≤ t → t < (k.range b).2 → a ≤ b := by
    intro a b ha hb
    by_contra hlt
    have : (k.range b).2 ≤ (k.range a).1 := Nat.div_le_div_right (Nat.mul_le_mul_left _ (by omega))
    omega
  exact Nat.le_antisymm (hle q r hq.1 hr.2) (hle r q hr.1 hq.2)

/-- The shares of the 75 ranks hold every tile. -/
theorem Kernel.exists_range (h : t < k.tiles) : ∃ r, r < 75 ∧ (k.range r).1 ≤ t ∧ t < (k.range r).2 := by
  have hex : ∃ r, t < (k.range r).2 := ⟨74, by simpa [Kernel.range] using h⟩
  have hspec := Nat.find_spec hex
  have hmin := fun m => Nat.find_min (m := m) hex
  have hlast : Nat.find hex ≤ 74 := Nat.find_min' hex (by simpa [Kernel.range] using h)
  generalize Nat.find hex = r at hspec hmin hlast
  refine ⟨r, by omega, ?_, hspec⟩
  cases r with
  | zero => simp [Kernel.range]
  | succ r => simpa [Kernel.range] using hmin r (Nat.lt_succ_self r)

theorem Kernel.owner_eq {r : Nat} (hlt : r < 75) (hr : (k.range r).1 ≤ t ∧ t < (k.range r).2) : k.owner t = r := by
  unfold Kernel.owner
  cases hf : (List.range 75).find? fun r => decide ((k.range r).1 ≤ t) && decide (t < (k.range r).2) with
  | none => exact absurd hr (by simpa using List.find?_eq_none.mp hf r (List.mem_range.mpr hlt))
  | some q => exact k.range_unique (by simpa using List.find?_some hf) hr

end

/-! ### A tile that is taken -/

section

variable (s : State) (k : Kernel) (i site core own r n : Nat)

theorem giveOut_of_retry {l : LapCounter} {rest : List Nat} (h : l.retry = n :: rest) : giveOut l n site core =
    { l with retry := rest, held := l.held ++ [⟨n, site, core⟩], mode := if l.next < l.stop then l.mode else .exhausted } := by
  unfold giveOut
  simp [h]

theorem giveOut_of_range {l : LapCounter} (h : l.retry = []) (hlt : l.next < l.stop) :
    (giveOut l n site core).retry = [] ∧ (giveOut l n site core).stop - (giveOut l n site core).next + 1 = l.stop - l.next := by
  unfold giveOut
  simp only [h, List.head?_nil, reduceCtorEq, if_false]
  split
  · exact ⟨rfl, by simp only []; omega⟩
  · exact ⟨rfl, by simp only []; omega⟩

theorem giveOut_held (l : LapCounter) : (giveOut l n site core).held = l.held ++ [⟨n, site, core⟩] := by
  unfold giveOut
  dsimp only
  split
  · rfl
  · split <;> rfl

theorem giveOut_handOut (l : LapCounter) : (giveOut l n site core).handOut = l.handOut := by
  unfold giveOut
  dsimp only
  split
  · rfl
  · split <;> rfl

theorem State.lap_takeTile_own : (s.takeTile k i site core own own n).lap own i = giveOut (s.lap own i) n site core := by
  unfold State.takeTile
  simp only [if_true]
  exact State.lap_setLap_same ..

section

variable {r own : Nat} (h : r ≠ own)

include h

/-- A tile that a rank serves to a core of another one counts as handed out. -/
theorem State.lap_takeTile_server : (s.takeTile k i site core own r n).lap r i =
    { giveOut (s.lap r i) n site core with handOut := wrap32 ((s.lap r i).handOut + 1) } := by
  unfold State.takeTile
  simp only [if_neg h, State.lap_setLap_same]
  refine (State.lap_setLap_rank _ _ _ _ h).trans ((State.lap_setLap_same ..).trans ?_)
  rw [giveOut_handOut]

/-- And as handed in, at the rank of the core. -/
theorem State.lap_takeTile_taker : (s.takeTile k i site core own r n).lap own i =
    { s.lap own i with handIn := wrap32 ((s.lap own i).handIn + 1) } := by
  unfold State.takeTile
  simp only [if_neg h, State.lap_setLap_same]
  refine (State.lap_setLap_same ..).trans ?_
  rw [State.lap_setLap_rank _ _ _ _ h.symm, State.lap_setLap_rank _ _ _ _ h.symm]

end

theorem State.core_setCore_same (v : Core) : (s.setCore site core v).core site core = v := tget_tput_same ..

/-- The counters' side of a taken tile. -/
def State.tookTile : State :=
  if r = own then s.setLap r i (giveOut (s.lap r i) n site core)
  else
    let a := s.setLap r i (giveOut (s.lap r i) n site core)
    let b := a.setLap r i { a.lap r i with handOut := wrap32 ((a.lap r i).handOut + 1) }
    b.setLap own i { b.lap own i with handIn := wrap32 ((b.lap own i).handIn + 1) }

theorem State.tookTile_frame : s.tookTile i site core own r n =
    { s with tiles := { s.tiles with counters := (s.tookTile i site core own r n).tiles.counters } } := by
  unfold State.tookTile
  split <;> rfl

theorem State.takeTile_eq : s.takeTile k i site core own r n = (s.tookTile i site core own r n).setCore site core
    { (s.tookTile i site core own r n).core site core with
      passes := ((s.tookTile i site core own r n).core site core).passes ++ [{ k.pass i r n with issued := 1 }], gateWait := false } := rfl

/-- What a taken tile leaves of the state: only the tiles' part changes, and the core holds the pass. -/
theorem State.takeTile_frame : s.takeTile k i site core own r n = { s with tiles := (s.takeTile k i site core own r n).tiles } := by
  rw [State.takeTile_eq, State.tookTile_frame]
  rfl

theorem State.core_takeTile : (s.takeTile k i site core own r n).core site core =
    { s.core site core with passes := (s.core site core).passes ++ [{ k.pass i r n with issued := 1 }], gateWait := false } := by
  rw [State.takeTile_eq, State.core_setCore_same, State.tookTile_frame]
  rfl

end

/-- A counter offers the first returned tile, else the range's next one, and its last one to a core of another rank. -/
theorem State.serve_eq_tile {s : State} {k : Kernel} {r n : Nat} {l : LapCounter} {off : Bool} (h : s.serve k r l off = .tile n) :
    (∃ rest, l.retry = n :: rest) ∨ (l.retry = [] ∧ l.next < l.stop ∧ n = if off then l.stop - 1 else l.next) := by
  unfold State.serve at h
  cases hretry : l.retry with
  | cons a rest =>
    rw [hretry] at h
    dsimp only at h
    split at h
    · cases h
      exact .inl ⟨rest, rfl⟩
    · cases h
  | nil =>
    rw [hretry] at h
    dsimp only at h
    split at h
    · cases h
    · next hlt =>
      refine .inr ⟨rfl, by omega, ?_⟩
      generalize (if off = true then l.stop - 1 else l.next) = m at h ⊢
      split at h
      · exact (Served.tile.inj h).symm
      · cases h

/-! ### A core's claim -/

section

variable {s : State} {i site core own : Nat} {k : Kernel} (hk : s.coreKernel (s.core site core) = some (i, k))
  (hown : s.rankOf site = some own)

include hk hown

theorem State.claim_of_tile {r n : Nat} (h : (s.findTile k i own).1 = some (r, n)) :
    s.claim site core = s.takeTile k i site core own r n := by
  rcases hf : s.findTile k i own with ⟨f, b⟩
  rw [hf] at h
  cases h
  simp only [State.claim, hk, hown, hf]

theorem State.claim_of_closed (h : s.findTile k i own = (none, true)) :
    s.claim site core = (s.setCore site core { s.core site core with gateWait := true }).waitBegins k := by
  simp only [State.claim, hk, hown, h]

theorem State.claim_of_none (h : s.findTile k i own = (none, false)) : s.claim site core = (s.noTile i site core).waitBegins k := by
  simp only [State.claim, hk, hown, h]

end

section

variable {s : State} {site : Fin 81} {core : Fin 4096} {i : Nat} {k : Kernel} {own : Nat}

theorem exec_claim_of_ready (h : s.claimReady site core = true) : exec (.claim site core) s = .next (s.claim site core) :=
  congrArg Host.Outcome.next (if_pos h)

section

variable (hk : s.coreKernel (s.core site core) = some (i, k)) (hown : s.rankOf site = some own) {wait : Nat}
  (hgate : (s.core site core).gateWait = true) (hruns : s.coreRuns site core = true) (hsw : s.sched.switching = false)
  (hhalt : s.sched.halted = false)

include hk hown hgate hruns hsw hhalt

theorem exec_gatedClaim_of_tile {r n : Nat} (h : (s.findTile k i own).1 = some (r, n)) :
    exec (.gatedClaim site core wait) s = .next (((drainsOf k.prog).filter drainLink).foldl
      (fun u w => u.streamWaited (drainStream w) (1000 * wait / s.fieldMhz site))
      ((s.takeTile k i site core own r n).addSat (siteBase site + 0x708) wait)) := by
  show execGatedClaim site core wait s = _
  simp only [execGatedClaim, hgate, hruns, hsw, hhalt, State.claim_of_tile hk hown h, State.core_takeTile, hk, Bool.not_false,
    Bool.and_self, Bool.not_true, Bool.false_eq_true, if_false]

theorem exec_gatedClaim_of_closed (h : s.findTile k i own = (none, true)) (hp : s.producerCounter k = none) :
    exec (.gatedClaim site core wait) s = .next s := by
  have hclaim : s.claim site core = s.setCore site core { s.core site core with gateWait := true } := by
    rw [State.claim_of_closed hk hown h]
    unfold State.waitBegins
    rw [show (s.setCore site core { s.core site core with gateWait := true }).producerCounter k = none from hp]
  show execGatedClaim site core wait s = _
  simp only [execGatedClaim, hgate, hruns, hsw, hhalt, hclaim, State.core_setCore_same, Bool.not_false,
    Bool.and_self, Bool.not_true, Bool.false_eq_true, if_false, if_true]

end

section

variable (hk : s.coreKernel (s.core site core) = some (i, k)) (hstop : (s.core site core).stopped = true)
  (hpass : (s.core site core).passes = [])

include hk hstop hpass

theorem exec_coreIdle_of_stopped : exec (.coreIdle site core) s = .next (s.noTile i site core) := by
  show execCoreIdle site core s = _
  simp only [execCoreIdle, hstop, hpass, hk, List.isEmpty_nil, Bool.and_self, if_true]

theorem exec_coreIdle_of_chained {j : Nat} (hj : s.chainedTo i = some j) :
    exec (.coreIdle site core) s = .next (s.setCore site core { Core.empty with kern := some j }) := by
  rw [exec_coreIdle_of_stopped hk hstop hpass]
  simp only [State.noTile, hj, hpass]

theorem exec_coreIdle_of_unchained (hj : s.chainedTo i = none) :
    exec (.coreIdle site core) s = .next (s.setCore site core { s.core site core with stopped := true, gateWait := false }) := by
  rw [exec_coreIdle_of_stopped hk hstop hpass]
  simp only [State.noTile, hj]

end

end

theorem State.takeTile_of_served {s : State} {k : Kernel} {i own r n site core : Nat}
    (h : s.serve k r (s.lap r i) (r != own) = .tile n) :
    let l := s.lap r i
    let t := s.takeTile k i site core own r n
    (t.lap r i).held = l.held ++ [⟨n, site, core⟩] ∧
    (∀ rest, l.retry = n :: rest → (t.lap r i).retry = rest ∧ (t.lap r i).next = l.next ∧ (t.lap r i).stop = l.stop) ∧
    (l.retry = [] → (t.lap r i).retry = [] ∧ (n = if r = own then l.next else l.stop - 1) ∧
      (t.lap r i).stop - (t.lap r i).next + 1 = l.stop - l.next) := by
  intro l t
  have hg : ∃ h : Nat, t.lap r i = { giveOut l n site core with handOut := h } := by
    rcases eq_or_ne r own with rfl | hne
    · exact ⟨_, State.lap_takeTile_own ..⟩
    · exact ⟨_, State.lap_takeTile_server s k i site core n hne⟩
  obtain ⟨o, hlap⟩ := hg
  rw [hlap]
  refine ⟨giveOut_held site core n l, fun rest hr => ?_, fun hr => ?_⟩
  · rw [giveOut_of_retry site core n hr]
    exact ⟨rfl, rfl, rfl⟩
  · rcases State.serve_eq_tile h with ⟨rest, hcons⟩ | ⟨-, hlt, hn⟩
    · exact absurd (hcons.symm.trans hr) (by simp)
    · obtain ⟨hretry, hwidth⟩ := giveOut_of_range site core n hr hlt
      refine ⟨hretry, ?_, hwidth⟩
      rw [hn]
      by_cases hro : r = own <;> simp [hro, l]

/-- Settles O21: the shares by `Kernel.range_unique`, a taken tile by what its counter offered. -/
theorem coresClaimTiles : Obligations.CoresClaimTiles := by
  unfold Obligations.CoresClaimTiles
  refine ⟨fun k t ht => ?_, fun s site core i k own hk hown => ⟨fun hready => ⟨fun r n h => ?_, fun h => ?_, fun h => ?_⟩,
    fun wait hgate hruns hsw hhalt => ⟨fun r n h => exec_gatedClaim_of_tile hk hown hgate hruns hsw hhalt h,
      fun h hp => exec_gatedClaim_of_closed hk hown hgate hruns hsw hhalt h hp⟩,
    fun hstop hpass => ⟨fun j hj => exec_coreIdle_of_chained hk hstop hpass hj, fun hj => exec_coreIdle_of_unchained hk hstop hpass hj⟩⟩,
    fun s k i own r n site core _ h => ?_⟩
  · obtain ⟨r, hlt, hr⟩ := k.exists_range ht
    exact ⟨r, hlt, k.owner_eq hlt hr, hr.1, hr.2, fun q _ hlo hhi => k.range_unique ⟨hlo, hhi⟩ hr⟩
  · rw [exec_claim_of_ready hready, State.claim_of_tile hk hown h]
  · rw [exec_claim_of_ready hready, State.claim_of_closed hk hown h]
  · rw [exec_claim_of_ready hready, State.claim_of_none hk hown h]
  · intro l t
    obtain ⟨hheld, hretry, hrange⟩ := State.takeTile_of_served (site := site) (core := core) h
    refine ⟨hheld, hretry, hrange, fun hne => ⟨?_, ?_⟩, ?_, State.takeTile_frame ..⟩
    · rw [State.lap_takeTile_server s k i site core n hne]
    · rw [State.lap_takeTile_taker s k i site core n hne]
    · rw [State.core_takeTile]

end Sys2Proof.Machine

end

section

/-! The words of a core's program (chapter 2): O22. -/

namespace Sys2Proof.Machine

open Sys2Proof Sys2Proof.Safety

section

variable {s : State} {site : Fin 81} {core : Fin 4096} {i : Nat} {k : Kernel} {j : Nat} {p : Pass} {w : Nat}

/-- The word that the core's program has next, at pass `p`, may run. -/
structure WordReady (s : State) (site core op i : Nat) (k : Kernel) (j : Nat) (p : Pass) (w : Nat) : Prop where
  kernel : s.coreKernel (s.core site core) = some (i, k)
  runs : s.coreRuns site core = true
  pass : passFor k.prog op none 0 (s.core site core).passes = some (j, p, w)

theorem WordReady.onWord {op : Nat} (h : WordReady s site core op i k j p w)
    (f : Nat × Kernel → Core → Nat → Pass → Nat → State) : s.onWord site core op f = f (i, k) (s.core site core) j p w := by
  unfold State.onWord
  simp only [h.kernel, h.runs, h.pass, Bool.not_true, Bool.false_eq_true, if_false]

/-! ### Load words -/

/-- The ring of A slabs or of B slabs. -/
def Core.ring (c : Core) (isB : Bool) : OperandRing := if isB then c.ringB else c.ringA

/-- A core after a load: the pass stands at its slabs' slots, the ring and the slabs' store are as given. -/
def Core.loaded (c : Core) (isB : Bool) (j : Nat) (p : Pass) (slot now : Nat) (sram : Tab (List Byte)) (g : OperandRing) : Core :=
  let p' := if isB then { p with issued := p.issued + 1, slotB := slot, inB := now }
    else { p with issued := p.issued + 1, slotA := slot, inA := now }
  let c' := setPass { c with sram := sram } j p'
  if isB then { c' with ringB := g } else { c' with ringA := g }

/-- The slabs that a load word names. -/
def Kernel.slabKeys (k : Kernel) (p : Pass) (w : Nat) (isB : Bool) := (List.range p.kLen).map (k.slabKey p w isB)

/-- The slabs' store once a load has filled its ring as far as it has room, and whether a slab was poisoned. -/
def State.filled (s : State) (k : Kernel) (p : Pass) (w : Nat) (isB : Bool) (c : Core) : Tab (List Byte) × Bool :=
  s.fillSlabs k p w isB (c.ring isB).next 0 (min p.kLen (ringSlots w (s.slabSize k w isB))) c.sram

theorem not_reused {α : Type} [BEq α] [LawfulBEq α] {a b : α} (hr : loadReuse w = false ∨ a ≠ b) : (loadReuse w && a == b) = false := by
  rcases hr with hr | hr
  · rw [hr, Bool.false_and]
  · rw [beq_eq_false_iff_ne.mpr hr, Bool.and_false]

section

variable {isB : Bool} (h : WordReady s site core (if isB then 3 else 2) i k j p w)

include h

theorem State.load_of_reused (hr : loadReuse w = true) (hk : k.slabKeys p w isB = ((s.core site core).ring isB).keys) :
    s.load site core isB = s.putCore site core k.prog ((s.core site core).loaded isB j p ((s.core site core).ring isB).first p.kLen
      (s.core site core).sram ((s.core site core).ring isB)) := by
  unfold State.load
  rw [h.onWord]
  have hreuse : (loadReuse w && k.slabKeys p w isB == ((s.core site core).ring isB).keys) = true := by
    rw [hr, hk, beq_self_eq_true, Bool.and_self]
  unfold Kernel.slabKeys Core.ring at hreuse
  simp only [hreuse, if_true, Bool.false_eq_true, if_false]
  rfl

theorem State.load_of_poison (hr : loadReuse w = false ∨ k.slabKeys p w isB ≠ ((s.core site core).ring isB).keys)
    (hf : (s.filled k p w isB (s.core site core)).2 = true) : s.load site core isB = s.poisonKernel i k := by
  unfold State.load
  rw [h.onWord]
  have hreuse := not_reused hr
  unfold Kernel.slabKeys Core.ring at hreuse
  unfold State.filled Core.ring at hf
  simp only [hreuse, hf, Bool.false_eq_true, if_false, if_true]

theorem State.load_of_filled (hr : loadReuse w = false ∨ k.slabKeys p w isB ≠ ((s.core site core).ring isB).keys)
    (hf : (s.filled k p w isB (s.core site core)).2 = false) :
    s.load site core isB = s.putCore site core k.prog ((s.core site core).loaded isB j p ((s.core site core).ring isB).next
      (min p.kLen (ringSlots w (s.slabSize k w isB))) (s.filled k p w isB (s.core site core)).1
      ⟨(((s.core site core).ring isB).next + p.kLen) % ringSlots w (s.slabSize k w isB), k.slabKeys p w isB,
        ((s.core site core).ring isB).next⟩) := by
  unfold State.load
  rw [h.onWord]
  have hreuse := not_reused hr
  unfold Kernel.slabKeys Core.ring at hreuse
  unfold State.filled Core.ring at hf
  simp only [hreuse, hf, Bool.false_eq_true, if_false]
  rfl

end

theorem exec_loadA : exec (.loadA site core) s = .next (s.load site core false) := rfl

theorem exec_loadB : exec (.loadB site core) s = .next (s.load site core true) := rfl

/-! ### MMA -/

section

variable (h : WordReady s site core 4 i k j p w)

include h

theorem exec_mma_of_toggleDue (ht : (s.core site core).toggleDue = true) : exec (.mma site core) s = .next s := by
  show execMma site core s = _
  unfold execMma
  rw [h.onWord]
  exact congrArg Host.Outcome.next (if_pos ht)

/-- The operands of a pass: the A slabs and what they leave, then the B slabs. -/
def State.slabsA (s : State) (k : Kernel) (p : Pass) (c : Core) := s.passSlabs k p false c.sram

def State.slabsB (s : State) (k : Kernel) (p : Pass) (c : Core) := s.passSlabs k p true (s.slabsA k p c).2.1

theorem exec_mma_of_poison (ht : (s.core site core).toggleDue = false)
    (hbad : (s.slabsA k p (s.core site core)).2.2 = true ∨ (s.slabsB k p (s.core site core)).2.2 = true) :
    exec (.mma site core) s = .next (s.poisonKernel i k) := by
  show execMma site core s = _
  unfold execMma
  rw [h.onWord]
  have hor : ((s.slabsA k p (s.core site core)).2.2 || (s.slabsB k p (s.core site core)).2.2) = true := by
    simpa using hbad
  unfold State.slabsB State.slabsA at hor
  dsimp only
  rw [if_neg (by simp [ht]), if_pos hor]

theorem exec_mma_of_clean (ht : (s.core site core).toggleDue = false)
    (ha : (s.slabsA k p (s.core site core)).2.2 = false) (hb : (s.slabsB k p (s.core site core)).2.2 = false) {bank : Tab Nat}
    {fl : Nat} (hrun : runPass k (s.sideOf k.image k.wide) p ((s.slabsA k p (s.core site core)).1.zip (s.slabsB k p (s.core site core)).1)
      (if (s.core site core).computeB then (s.core site core).bankB else (s.core site core).bankA) = (bank, fl)) :
    exec (.mma site core) s = .next ((s.putCore site core k.prog
      { s.core site core with
        passes := (s.core site core).passes.set j { p with issued := p.issued + 1, ran := true, inA := p.kLen, inB := p.kLen }
        sram := (s.slabsB k p (s.core site core)).2.1
        blocks := passBlocks k (s.sideOf k.image k.wide) ((s.slabsA k p (s.core site core)).1.zip (s.slabsB k p (s.core site core)).1)
          (s.core site core).blocks
        bankA := if (s.core site core).computeB then (s.core site core).bankA else bank
        bankB := if (s.core site core).computeB then bank else (s.core site core).bankB }).raise k.cmd fl) := by
  show execMma site core s = _
  unfold execMma
  rw [h.onWord]
  unfold State.slabsB at hb hrun ⊢
  unfold State.slabsA at ha hb hrun ⊢
  dsimp only
  rw [if_neg (by simp [ht]), if_neg (by simp [ha, hb]), hrun]
  cases hc : (s.core site core).computeB <;> rfl

end

/-! ### CHANGEOVER and FENCE -/

theorem exec_changeover_of_ready (h : WordReady s site core 5 i k j p w) (wait : Nat) : exec (.changeover site core wait) s =
    .next ((s.putCore site core k.prog (if drainFull (s.core site core) then
        { setPass (s.core site core) j { p with issued := p.issued + 1 } with toggleDue := true }
      else toggle (setPass (s.core site core) j { p with issued := p.issued + 1 }))).setSite site
        { s.site site with opdStall := sat32 ((s.site site).opdStall + wait) }) := by
  show execChangeover site core wait s = _
  unfold execChangeover
  rw [h.onWord]
  rfl

theorem exec_fence_of_ready (h : WordReady s site core 7 i k j p w) : exec (.fence site core) s = .next (
    if (bit w 59 && loadsOpen k.prog (s.core site core)) || (bit w 58 && drainsOpen k.prog (s.core site core)) then s
    else s.putCore site core k.prog (setPass (s.core site core) j { p with issued := p.issued + 1 })) := by
  show execFence site core s = _
  unfold execFence
  rw [h.onWord]

end

/-- Settles O22, word by word. -/
theorem coreWordsRun : Obligations.CoreWordsRun := by
  unfold Obligations.CoreWordsRun
  intro s site core i k j p w c ready keys slots fill next
  have hready : ∀ op, ready op → WordReady s site core op i k j p w := fun op h => ⟨h.1, h.2.1, h.2.2⟩
  refine ⟨fun h hr => ⟨fun hf => ?_, fun hf => ?_⟩, fun h hr hk => ?_, fun h hr => ⟨fun hf => ?_, fun hf => ?_⟩, fun h hr hk => ?_,
    ?_, fun h wait => exec_changeover_of_ready (hready 5 h) wait, fun h h59 h58 => ?_, fun h hopen => ?_⟩
  · rw [exec_loadA, State.load_of_filled (isB := false) (hready 2 h) hr hf]
    rfl
  · rw [exec_loadA, State.load_of_poison (isB := false) (hready 2 h) hr hf]
  · rw [exec_loadA, State.load_of_reused (isB := false) (hready 2 h) hr hk]
    rfl
  · rw [exec_loadB, State.load_of_filled (isB := true) (hready 3 h) hr hf]
    rfl
  · rw [exec_loadB, State.load_of_poison (isB := true) (hready 3 h) hr hf]
  · rw [exec_loadB, State.load_of_reused (isB := true) (hready 3 h) hr hk]
    rfl
  · intro a b
    exact ⟨fun h ht ha hb bank fl hrun => exec_mma_of_clean (hready 4 h) ht ha hb hrun,
      fun h ht hbad => exec_mma_of_poison (hready 4 h) ht hbad, fun h ht => exec_mma_of_toggleDue (hready 4 h) ht⟩
  · rw [exec_fence_of_ready (hready 7 h), if_neg]
    simp only [Bool.or_eq_true, Bool.and_eq_true]
    rintro (⟨hb, ho⟩ | ⟨hb, ho⟩)
    · exact h59.elim (fun h0 => by simp [h0] at hb) (fun h0 => by simp [c, h0] at ho)
    · exact h58.elim (fun h0 => by simp [h0] at hb) (fun h0 => by simp [c, h0] at ho)
  · rw [exec_fence_of_ready (hready 7 h), if_pos]
    rcases hopen with ⟨hb, ho⟩ | ⟨hb, ho⟩
    · rw [hb, show loadsOpen k.prog (s.core site core) = true from ho]
      rfl
    · rw [hb, show drainsOpen k.prog (s.core site core) = true from ho]
      simp

end Sys2Proof.Machine

end

section

/-! Banks, drains and the end of a kernel's tiles (chapters 2 and 5): O23 and O24. -/

namespace Sys2Proof.Machine

open Sys2Proof Sys2Proof.Safety

/-! ### A core's passes -/

/-- The first pass at which a test holds is no later than one at which it holds. -/
theorem findIdx?_le {α : Type} {q : α → Bool} {l : List α} {j : Nat} {p : α} (hj : l[j]? = some p) (hp : q p = true) :
    ∃ j₀, l.findIdx? q = some j₀ ∧ j₀ ≤ j := by
  obtain ⟨hlt, hget⟩ := List.getElem?_eq_some_iff.mp hj
  refine ⟨_, List.findIdx?_eq_some_of_exists ⟨p, hget ▸ List.getElem_mem hlt, hp⟩, ?_⟩
  by_contra hgt
  have hnot := List.not_of_lt_findIdx (Nat.lt_of_not_le hgt)
  rw [hget, hp] at hnot
  cases hnot

theorem issueDrain_frame (prog : List Nat) (c : Core) : issueDrain prog c = { c with passes := (issueDrain prog c).passes } := by
  unfold issueDrain
  dsimp only
  split
  · split <;> rfl
  · rfl

theorem issueDrains_frame (prog : List Nat) (c : Core) : issueDrains prog c = { c with passes := (issueDrains prog c).passes } := by
  unfold issueDrains
  rw [issueDrain_frame, issueDrain_frame prog (issueDrain prog (issueDrain prog c)), issueDrain_frame prog (issueDrain prog c),
    issueDrain_frame prog c]

section

variable (s : State) (site core : Nat) (prog : List Nat) (c : Core)

/-- A core that is put back differs from the given one in its passes alone. -/
theorem State.core_putCore : ∃ l, (s.putCore site core prog c).core site core = { c with passes := l } := by
  refine ⟨(retirePasses prog (issueDrains prog c)).passes, (State.core_setCore_same ..).trans ?_⟩
  unfold retirePasses
  rw [issueDrains_frame]

theorem State.putCore_frame : s.putCore site core prog c = { s with tiles := (s.putCore site core prog c).tiles } := rfl

end

/-! ### BANK_TOGGLE and SHADOW_COPY -/

section

variable {s : State} {site : Fin 81} {core : Fin 4096} {i : Nat} {k : Kernel}
  (hk : s.coreKernel (s.core site core) = some (i, k)) (hruns : s.coreRuns site core = true)

section

include hk hruns

theorem exec_bankToggle_of_due (lost : Nat) (hdue : (s.core site core).toggleDue = true) (hfull : drainFull (s.core site core) = false) :
    exec (.bankToggle site core lost) s = .next ((s.putCore site core k.prog (toggle (s.core site core))).setSite site
      { s.site site with chgStall := sat32 ((s.site site).chgStall + lost) }) := by
  show execBankToggle site core lost s = _
  unfold execBankToggle
  simp only [hdue, hfull, hruns, hk, Bool.not_false, Bool.and_self, if_true]
  rfl

end

theorem exec_bankToggle_of_not_due (lost : Nat) (h : (s.core site core).toggleDue = false ∨ drainFull (s.core site core) = true) :
    exec (.bankToggle site core lost) s = .next s := by
  show execBankToggle site core lost s = _
  unfold execBankToggle
  dsimp only
  rw [if_neg]
  rcases h with h | h <;> simp [h]

/-- A core whose accumulated words have passed from its compute bank to the shadow. -/
def Core.copied (c : Core) (k : Kernel) : Core :=
  let bank := if c.computeB then c.bankA else c.bankB
  let rest := bank.filter fun e => !inTile k e.1
  let c' := { c with
    shadow := bank.filter fun e => inTile k e.1
    passes := modFirst (fun q => q.changed && !q.shadowed) (fun q => { q with shadowed := true }) c.passes }
  if c.computeB then { c' with bankA := rest } else { c' with bankB := rest }

theorem Core.copied_spec (c : Core) (k : Kernel) :
    (c.copied k).shadow = (if c.computeB then c.bankA else c.bankB).filter (fun e => inTile k e.1) ∧
    (if c.computeB then (c.copied k).bankA else (c.copied k).bankB) =
      (if c.computeB then c.bankA else c.bankB).filter (fun e => !inTile k e.1) ∧
    (if c.computeB then (c.copied k).bankB else (c.copied k).bankA) = (if c.computeB then c.bankB else c.bankA) := by
  unfold Core.copied
  cases c.computeB <;> exact ⟨rfl, rfl, rfl⟩

include hk hruns

theorem exec_shadowCopy_of_free {p : Pass} (hp : (s.core site core).passes.find? (fun p => p.changed && !p.shadowed) = some p)
    (hfree : shadowFree k.prog (s.core site core) = true) (hd : 0 < drainsIssued k.prog p) :
    exec (.shadowCopy site core) s = .next (s.putCore site core k.prog ((s.core site core).copied k)) := by
  show execShadowCopy site core s = _
  unfold execShadowCopy
  simp only [hk, hp, hruns, hfree, hd, decide_true, Bool.and_self, if_true]
  rfl

/-! ### DRAIN -/

section

variable {j : Nat} {p : Pass} (hj : (s.core site core).passes[j]? = some p)
  (hdrain : (s.core site core).passes.findIdx? (fun q => q.shadowed && decide (q.drained < drainsIssued k.prog q)) = some j)
  (hran : p.ran = true)

/-- A core after a DRAIN word: the pass counts it, and the last one empties the shadow. -/
def Core.drained (c : Core) (k : Kernel) (j : Nat) (p : Pass) (sent : List (Nat × List (Nat × Nat))) : Core :=
  { c with
    passes := c.passes.set j { p with drained := p.drained + 1, sent := sent }
    shadow := if (drainsOf k.prog).length ≤ p.drained + 1 then [] else c.shadow }

/-- What a DRAIN word of a pass does, once it is the one that is due. -/
def State.drainWord (s : State) (site core i : Nat) (k : Kernel) (j : Nat) (p : Pass) : State :=
  let c := s.core site core
  let w := nth (drainsOf k.prog) p.drained 0
  let seed := match s.cmd? k.cmd with | some d => d.seed | none => 0
  let value := fun r x => tget c.shadow (r * 64 + x) 0
  if s.vectorsPoisoned k w p.rank p.tileM p.tileN then s.poisonKernel i k
  else if drainLink w && !s.tileSendable k [w] p.tileM p.tileN p.tileB then s
  else
    let link := s.linkTile k w p.rank p.tileM p.tileN p.tileB p.mValid p.nValid value
    let r := if drainLink w then (s, link.2)
      else s.drainTile k w p.rank p.tileM p.tileN p.tileB (p.claim % k.parts) p.mValid p.nValid seed value
    let t := (r.1.putCore site core k.prog (c.drained k j p
      (if drainLink w then p.sent ++ [(drainStream w, link.1)] else p.sent))).raise k.cmd r.2
    if decide ((drainsOf k.prog).length ≤ p.drained + 1) && drainLink w then t.complete site core else t

include hj hdrain hran

theorem exec_drain_of_due : exec (.drain site core) s = .next (s.drainWord site core i k j p) := by
  have hshadowed : p.shadowed = true := by
    obtain ⟨hlt, hq, -⟩ := List.findIdx?_eq_some_iff_getElem.mp hdrain
    obtain ⟨_, hget⟩ := List.getElem?_eq_some_iff.mp hj
    rw [hget] at hq
    simp only [Bool.and_eq_true] at hq
    exact hq.1
  obtain ⟨j₀, hfirst, hle⟩ := findIdx?_le (q := fun p : Pass => p.shadowed && !p.ran.not) hj (by simp [hshadowed, hran])
  have hnth : nth (s.core site core).passes j (k.pass i 0 0) = p := by
    simp [nth, List.getD_eq_getElem?_getD, hj]
  show execDrain site core s = _
  unfold execDrain
  simp only [hk, hfirst, hdrain, hnth]
  rw [if_neg (by simp [hruns]; omega)]
  unfold State.drainWord Core.drained
  dsimp only
  by_cases hlast : (drainsOf k.prog).length ≤ p.drained + 1
  · simp only [hlast, decide_true, if_true]
    rfl
  · simp only [hlast, decide_false, Bool.false_eq_true, if_false]
    rfl

end

end

section

variable {s : State} {site core i j : Nat} {k : Kernel} {p : Pass}

/-- The value of an accumulator's word in the shadow of a core. -/
def State.shadowValue (s : State) (site core : Nat) : Nat → Nat → Nat := fun r x => tget (s.core site core).shadow (r * 64 + x) 0

/-- The seed of a kernel's command. -/
def State.kernelSeed (s : State) (k : Kernel) : Nat := match s.cmd? k.cmd with | some d => d.seed | none => 0

theorem State.drainWord_of_poison (h : s.vectorsPoisoned k (nth (drainsOf k.prog) p.drained 0) p.rank p.tileM p.tileN = true) :
    s.drainWord site core i k j p = s.poisonKernel i k := by
  unfold State.drainWord
  dsimp only
  rw [if_pos h]

section

variable (h : s.vectorsPoisoned k (nth (drainsOf k.prog) p.drained 0) p.rank p.tileM p.tileN = false)

include h

theorem State.drainWord_of_infield (hlink : drainLink (nth (drainsOf k.prog) p.drained 0) = false) {t : State} {fl : Nat}
    (ht : s.drainTile k (nth (drainsOf k.prog) p.drained 0) p.rank p.tileM p.tileN p.tileB (p.claim % k.parts) p.mValid p.nValid
      (s.kernelSeed k) (s.shadowValue site core) = (t, fl)) :
    s.drainWord site core i k j p = (t.putCore site core k.prog ((s.core site core).drained k j p p.sent)).raise k.cmd fl := by
  unfold State.kernelSeed State.shadowValue at ht
  unfold State.drainWord
  simp only [h, hlink, ht, Bool.false_and, Bool.and_false, Bool.false_eq_true, if_false]

variable (hlink : drainLink (nth (drainsOf k.prog) p.drained 0) = true)

include hlink

theorem State.drainWord_of_unsendable (hs : s.tileSendable k [nth (drainsOf k.prog) p.drained 0] p.tileM p.tileN p.tileB = false) :
    s.drainWord site core i k j p = s := by
  unfold State.drainWord
  simp only [h, hlink, hs, Bool.not_false, Bool.and_self, Bool.false_eq_true, if_false, if_true]

theorem State.drainWord_of_link (hs : s.tileSendable k [nth (drainsOf k.prog) p.drained 0] p.tileM p.tileN p.tileB = true)
    {l : List (Nat × Nat)} {fl : Nat}
    (hl : s.linkTile k (nth (drainsOf k.prog) p.drained 0) p.rank p.tileM p.tileN p.tileB p.mValid p.nValid
      (s.shadowValue site core) = (l, fl)) :
    s.drainWord site core i k j p =
      if (drainsOf k.prog).length ≤ p.drained + 1 then
        ((s.putCore site core k.prog ((s.core site core).drained k j p
          (p.sent ++ [(drainStream (nth (drainsOf k.prog) p.drained 0), l)]))).raise k.cmd fl).complete site core
      else (s.putCore site core k.prog ((s.core site core).drained k j p
          (p.sent ++ [(drainStream (nth (drainsOf k.prog) p.drained 0), l)]))).raise k.cmd fl := by
  unfold State.shadowValue at hl
  unfold State.drainWord
  simp only [h, hlink, hs, hl, Bool.not_true, Bool.and_false, Bool.and_true, Bool.false_eq_true, if_false, if_true, decide_eq_true_eq]

end

end

/-! ### TILE_COMPLETE -/

section

variable {s : State} {site : Fin 81} {core : Fin 4096} {i : Nat} {k : Kernel} {j : Nat} {p : Pass}

/-- A pass whose drains have all run and whose tile is not posted yet. -/
def Kernel.postDue (k : Kernel) (p : Pass) : Bool := p.shadowed && !p.posted && decide ((drainsOf k.prog).length ≤ p.drained)

theorem exec_tileComplete_of_due (hk : s.coreKernel (s.core site core) = some (i, k)) (hruns : s.coreRuns site core = true)
    (hj : (s.core site core).passes[j]? = some p) (hdue : (s.core site core).passes.findIdx? k.postDue = some j) :
    exec (.tileComplete site core) s = .next (
      if p.sent.any fun d => !s.tileRoom d.1 d.2 then s
      else ((s.acceptSent p).putCore site core k.prog
        (setPass (s.core site core) j { p with posted := true, sent := [] })).post i k site core p) := by
  have hfind : (s.core site core).passes.find? k.postDue = some p := by
    obtain ⟨hlt, hq, hmin⟩ := List.findIdx?_eq_some_iff_getElem.mp hdue
    obtain ⟨_, hget⟩ := List.getElem?_eq_some_iff.mp hj
    exact List.find?_eq_some_iff_getElem.mpr ⟨hget ▸ hq, j, hlt, hget, fun a ha => by simpa using hmin a ha⟩
  show execTileComplete site core s = _
  unfold execTileComplete State.complete
  unfold Kernel.postDue at hdue hfind
  simp only [hruns, hk, hdue, hfind, if_true]

theorem State.post_spec (s : State) (i : Nat) (k : Kernel) (site core : Nat) (p : Pass)
    (h : ((s.lap p.rank p.counter).held.any fun h => h.claim == p.claim && h.site == site && h.core == core) = true) :
    (s.post i k site core p).lap p.rank p.counter = { s.lap p.rank p.counter with
      held := (s.lap p.rank p.counter).held.filter fun h => !(h.claim == p.claim && h.site == site && h.core == core)
      done := (s.lap p.rank p.counter).done + 1 } := by
  have htile : ∀ (t : State) (r x : Nat), (t.tileDone k r x).lap p.rank p.counter = t.lap p.rank p.counter := by
    intro t r x
    unfold State.tileDone
    dsimp only
    split <;> rfl
  unfold State.post
  simp only [h, Bool.not_true, Bool.false_eq_true, if_false]
  split
  · exact State.lap_setLap_same ..
  · exact (htile ..).trans (State.lap_setLap_same ..)

end

/-- Settles O23: each word by the pass that is due, the post by `State.post_spec`. -/
theorem tilesDrainAndPost : Obligations.TilesDrainAndPost := by
  unfold Obligations.TilesDrainAndPost
  refine ⟨?_, ?_⟩
  · intro s site core i k c hk hruns
    refine ⟨fun lost hdue hfull => exec_bankToggle_of_due hk hruns lost hdue hfull,
      fun lost h => exec_bankToggle_of_not_due lost h, rfl, rfl, fun p hp hfree hd => ?_⟩
    obtain ⟨l, hcore⟩ := State.core_putCore s site core k.prog (c.copied k)
    obtain ⟨hshadow, hrest, hother⟩ := c.copied_spec k
    refine ⟨_, exec_shadowCopy_of_free hk hruns hp hfree hd, State.putCore_frame .., ?_⟩
    rw [hcore]
    exact ⟨hshadow, hrest, hother⟩
  · intro s site core i k j p c w last value due after hk hruns hj
    refine ⟨fun hdrain hran => ?_, fun hdue => ⟨fun hroom => ?_, fun hroom => ?_⟩, fun hheld => ?_⟩
    · rw [exec_drain_of_due hk hruns hj hdrain hran]
      refine ⟨fun h => ?_, fun h hlink t fl ht => ?_, fun h hlink => ⟨fun hs => ?_, fun hs l fl hl => ?_⟩⟩
      · rw [State.drainWord_of_poison h]
      · exact congrArg Host.Outcome.next (State.drainWord_of_infield h hlink ht)
      · rw [State.drainWord_of_unsendable h hlink hs]
      · exact congrArg Host.Outcome.next (State.drainWord_of_link h hlink hs hl)
    · rw [exec_tileComplete_of_due hk hruns hj hdue, if_pos hroom]
    · rw [exec_tileComplete_of_due hk hruns hj hdue, if_neg (by simp [hroom])]
    · rw [State.post_spec s i k site core p hheld]
      exact ⟨rfl, rfl⟩

/-! ### STAGE_C_SUM -/

/-- A tile of a split kernel whose partials are posted and whose sums may be drained now. -/
structure SumReady (s : State) (i tile : Nat) (k : Kernel) : Prop where
  kernel : s.kernel i = some k
  split : k.split = true
  inRange : tile < k.tiles
  notSummed : k.summed.contains tile = false
  live : k.cancelled = false
  holds : s.holds k.cmd.cx = true
  posted : ∀ p, p < k.parts → k.posted.contains (tile, p) = true
  sendable : s.tileSendable k [recReduce k.image.counter] (k.place tile).1 (k.place tile).2.1 (k.place tile).2.2 = true

section

variable (s t : State) (i tile : Nat) (k : Kernel)

/-- The rows and columns of a tile that lie within the kernel's bounds. -/
def Kernel.validRows (k : Kernel) (tile : Nat) : Nat := min k.m (k.boundM - (k.place tile).1 * k.m)

def Kernel.validCols (k : Kernel) (tile : Nat) : Nat := min k.n (k.boundN - (k.place tile).2.1 * k.n)

/-- The sums of a tile's partials, each with its flags. -/
def State.tileSums (r c : Nat) : Nat × Nat :=
  s.stageSum k (k.owner tile) (k.place tile).1 (k.place tile).2.1 (k.place tile).2.2 (s.kernelSeed k) r c

/-- The flags of a tile's sums. -/
def State.sumFlags : Nat :=
  (List.range (k.validRows tile)).foldl (fun a r => (List.range (k.validCols tile)).foldl (fun b c => b ||| (s.tileSums tile k r c).2) a) 0

/-- Poison among the partials of a tile or the vectors of its epilogue. -/
def State.sumPoisoned : Bool :=
  s.partsPoisoned k (k.owner tile) (k.place tile).1 (k.place tile).2.1 (k.place tile).2.2 (k.validRows tile) (k.validCols tile) ||
    s.vectorsPoisoned k (recReduce k.image.counter) (k.owner tile) (k.place tile).1 (k.place tile).2.1

/-- The tile counted as summed. -/
def State.tileSummed (fl : Nat) : State :=
  ((t.setKernel i (some { k with summed := sput k.summed tile })).tileDone k (k.owner tile) tile).raise k.cmd fl

/-- The sums handed to the link stream. -/
def State.sumLink : List (Nat × Nat) × Nat :=
  s.linkTile k (recReduce k.image.counter) (k.owner tile) (k.place tile).1 (k.place tile).2.1 (k.place tile).2.2 (k.validRows tile)
    (k.validCols tile) fun r c => (s.tileSums tile k r c).1

/-- The sums drained into the infield. -/
def State.sumDrain : State × Nat :=
  s.drainTile k (recReduce k.image.counter) (k.owner tile) (k.place tile).1 (k.place tile).2.1 (k.place tile).2.2 0 (k.validRows tile)
    (k.validCols tile) (s.kernelSeed k) fun r c => (s.tileSums tile k r c).1

end

section

variable {s : State} {i : Fin 256} {tile : Nat} {k : Kernel} (h : SumReady s i tile k) (wait : Nat)

include h

theorem exec_stageCSum_of_ready : exec (.stageCSum i ⟨tile, wait⟩) s = .next (
    if s.sumPoisoned tile k then s.poisonKernel i k
    else if drainLink (recReduce k.image.counter) then
      ((s.deliver (drainStream (recReduce k.image.counter)) (s.sumLink tile k).1).streamWaited
        (drainStream (recReduce k.image.counter)) wait).tileSummed i tile k (s.sumFlags tile k ||| (s.sumLink tile k).2)
    else (s.sumDrain tile k).1.tileSummed i tile k (s.sumFlags tile k ||| (s.sumDrain tile k).2)) := by
  have hposted : (List.range k.parts).all (fun p => k.posted.contains (tile, p)) = true :=
    List.all_eq_true.mpr fun p hp => h.posted p (List.mem_range.mp hp)
  show execStageCSum i ⟨tile, wait⟩ s = _
  unfold execStageCSum
  simp only [h.kernel]
  rw [if_neg (by simp only [h.split, h.inRange, h.notSummed, h.live, h.holds, hposted, h.sendable]; decide)]
  by_cases hlink : drainLink (recReduce k.image.counter) = true
  · simp only [hlink, if_true]
    rfl
  · simp only [hlink]
    rfl

theorem exec_stageCSum_of_poison (hp : s.sumPoisoned tile k = true) :
    exec (.stageCSum i ⟨tile, wait⟩) s = .next (s.poisonKernel i k) := by
  rw [exec_stageCSum_of_ready h, if_pos hp]

variable (hp : s.sumPoisoned tile k = false)

include hp

theorem exec_stageCSum_of_drain (hlink : drainLink (recReduce k.image.counter) = false) : exec (.stageCSum i ⟨tile, wait⟩) s =
    .next ((s.sumDrain tile k).1.tileSummed i tile k (s.sumFlags tile k ||| (s.sumDrain tile k).2)) := by
  rw [exec_stageCSum_of_ready h, if_neg (by simp [hp]), if_neg (by simp [hlink])]

theorem exec_stageCSum_of_link (hlink : drainLink (recReduce k.image.counter) = true) : exec (.stageCSum i ⟨tile, wait⟩) s =
    .next (((s.deliver (drainStream (recReduce k.image.counter)) (s.sumLink tile k).1).streamWaited
        (drainStream (recReduce k.image.counter)) wait).tileSummed i tile k (s.sumFlags tile k ||| (s.sumLink tile k).2)) := by
  rw [exec_stageCSum_of_ready h, if_neg (by simp [hp]), if_pos hlink]

end

/-! ### SLICE_STAGE -/

/-- The next input slice of a rank's stripe, which may be staged now. -/
structure SliceDue (s : State) (i : Nat) (rank : Nat) (k : Kernel) (sl : Nat) : Prop where
  kernel : s.kernel i = some k
  next : k.nextSlice rank = some sl
  windowed : k.image.windowed = true
  live : k.cancelled = false
  holds : s.holds k.cmd.cx = true
  ready : s.sliceReady k sl = true

section

variable {s : State} {i : Fin 256} {rank : Fin 75} {k : Kernel} {sl : Nat} (h : SliceDue s i rank k sl) (wait : Nat)
  {l : List (Nat × Marked)}

include h

theorem exec_sliceStage_of_unread {st : Nat} (hs : s.sliceSource k sl = (st, l)) (hst : st ≠ 0) :
    exec (.sliceStage i rank wait) s = .next (s.cancelKernel i k st) := by
  show execSliceStage i rank wait s = _
  unfold execSliceStage
  simp only [h.kernel, h.next, h.windowed, h.live, h.holds, h.ready, hs, Bool.not_false, Bool.and_self, Bool.not_true,
    Bool.false_eq_true, if_false]

theorem exec_sliceStage_of_read (hs : s.sliceSource k sl = (0, l)) : exec (.sliceStage i rank wait) s =
    .next ((((s.stageSlice k rank sl (winLine k.image.window * 128 + (sl -
      (stripeOf k.image k.boundM k.boundN k.inD k.inH k.inW rank).1 * rawPer k.image.window) *
        sliceBytes k.image.window (loadFmt (wordOf k.prog 2)) k.inD k.inH k.inW) l).setKernel i
      (some { k with staged := sput k.staged (65536 * rank.val + sl) })).addWrap (siteBase (s.siteAt rank) + 0x700)
        (if l.isEmpty then 0 else 1)).addSat (siteBase (s.siteAt rank) + 0x70C) wait) := by
  show execSliceStage i rank wait s = _
  unfold execSliceStage
  simp only [h.kernel, h.next, h.windowed, h.live, h.holds, h.ready, hs, Bool.not_false, Bool.and_self, Bool.not_true,
    Bool.false_eq_true, if_false]

end

/-! ### HURDLE_ARRIVAL -/

section

variable {s : State} {cx : Fin 16} {chained : Bool} {rank : Fin 75} {id : CmdId} {c : Cmd}

/-- A field's arrival noted with the command. -/
def State.arrived (s : State) (id : CmdId) (rank : Nat) : State := s.modCmd id fun d => { d with arrived := sput d.arrived rank }

theorem exec_hurdleArrival (hc : s.hurdleCmd cx chained = some (id, c))
    (hmay : (!c.issued || c.finished || c.arrived.contains rank.val || !s.mayArrive id c rank) = false) :
    exec (.hurdleArrival cx chained rank) s = .next (
      if c.arrived.length + 1 < 75 then s.arrived id rank else
      match s.kernelOf id with
      | some (i, k) => (s.arrived id rank).endKernel i k k.status
      | none =>
        let t := if c.kind = 4 then (s.arrived id rank).closeAttention id c else s.arrived id rank
        if t.writesDue id then t.modCmd id fun d => { d with worked := true } else t.finish id c.status c.result) := by
  show execHurdleArrival cx chained rank s = _
  unfold execHurdleArrival
  simp only [hc, hmay, Bool.false_eq_true, if_false]
  rfl

end

/-- Settles O24: the sums by where they go, a slice by what it reads, the hurdle by how many fields have arrived. -/
theorem fieldsFinishKernels : Obligations.FieldsFinishKernels := by
  unfold Obligations.FieldsFinishKernels
  refine ⟨?_, ?_, ?_⟩
  · intro s i tile wait k hk rd q rank mv nv seed sums fl done poisoned hsplit hlt hsum hlive hholds hposted hsend
    have h : SumReady s i tile k := ⟨hk, hsplit, hlt, hsum, hlive, hholds, hposted, hsend⟩
    refine ⟨fun hp => exec_stageCSum_of_poison h wait hp, fun hp hlink t f ht => ?_, fun hp hlink l f hl => ?_⟩
    · have hdrain : s.sumDrain tile k = (t, f) := ht
      rw [exec_stageCSum_of_drain h wait hp hlink, hdrain]
      rfl
    · have hout : s.sumLink tile k = (l, f) := hl
      rw [exec_stageCSum_of_link h wait hp hlink, hout]
      rfl
  · intro s i rank wait sl st k l hk hnext hw hlive hholds hready hs lo at_ base
    have h : SliceDue s i rank k sl := ⟨hk, hnext, hw, hlive, hholds, hready⟩
    refine ⟨fun hst => ?_, fun hst => exec_sliceStage_of_unread h wait hs hst⟩
    subst hst
    exact exec_sliceStage_of_read h wait hs
  · intro s cx chained rank id c hc hi hf ha hmay t u
    have hrow := exec_hurdleArrival (rank := rank) hc (by simp only [hi, hf, ha, hmay]; decide)
    refine ⟨fun hlt => ?_, fun hge => ⟨fun i k hk => ?_, fun hk hw => ?_, fun hk hw => ?_⟩⟩
    · rw [hrow, if_pos (by omega)]
      rfl
    · rw [hrow, if_neg (by omega), hk]
      rfl
    · rw [hrow, if_neg (by omega), hk]
      exact congrArg Host.Outcome.next (if_neg (show ¬ u.writesDue id = true by simp [hw]))
    · rw [hrow, if_neg (by omega), hk]
      exact congrArg Host.Outcome.next (if_pos hw)

end Sys2Proof.Machine

end

section

/-! Cores that come and go (chapters 5 and 17) and the boundary of a step (chapter 4): O25 and O26. -/

namespace Sys2Proof.Machine

open Sys2Proof Sys2Proof.Safety

theorem Logged.tiles {s t : State} (h : Logged s t) : t.tiles = s.tiles := by rw [h.rest]

theorem Logged.core {s t : State} (h : Logged s t) (site core : Nat) : t.core site core = s.core site core := by
  unfold State.core
  rw [h.tiles]

theorem Logged.coreSite {s t : State} (h : Logged s t) (site core : Nat) : t.coreSite site core = s.coreSite site core := by
  unfold State.coreSite
  rw [h.tiles]

/-! ### Core sites -/

section

variable (s : State) (site core : Nat)

theorem State.coreSite_setCoreSite_same (v : CoreSite) : (s.setCoreSite site core v).coreSite site core = v := tget_tput_same ..

theorem State.coreSite_retireCore : (s.retireCore site core).coreSite site core = ⟨.retired, (s.coreSite site core).lostAt⟩ := by
  unfold State.retireCore
  dsimp only
  rw [(State.ownerEvent_logged _ 4).coreSite, (State.log_logged _ _ _ _ _ _).coreSite, State.coreSite_setCoreSite_same]

theorem State.core_retireCore : (s.retireCore site core).core site core = s.core site core := by
  unfold State.retireCore
  dsimp only
  rw [(State.ownerEvent_logged _ 4).core, (State.log_logged _ _ _ _ _ _).core]
  rfl

end

/-! ### A core that leaves -/

/-- A step that leaves the core sites, and gives a core that holds no pass none. -/
structure LeavesOut (site core : Nat) (s t : State) : Prop where
  sites : t.tiles.coreSites = s.tiles.coreSites
  empty : (s.core site core).passes = [] → (t.core site core).passes = []

namespace LeavesOut

variable {site core : Nat}

theorem refl (s : State) : LeavesOut site core s s := ⟨rfl, id⟩

theorem trans {s t u : State} (h : LeavesOut site core s t) (g : LeavesOut site core t u) : LeavesOut site core s u :=
  ⟨g.sites.trans h.sites, fun e => g.empty (h.empty e)⟩

theorem of_cores {s t : State} (hsites : t.tiles.coreSites = s.tiles.coreSites) (hcores : t.tiles.cores = s.tiles.cores) :
    LeavesOut site core s t :=
  ⟨hsites, fun h => by
    unfold State.core at h ⊢
    rwa [hcores]⟩

theorem foldl {α : Type} {f : State → α → State} (hf : ∀ t a, LeavesOut site core t (f t a)) (l : List α) (s : State) :
    LeavesOut site core s (l.foldl f s) := by
  induction l generalizing s with
  | nil => exact refl s
  | cons a l ih => exact (hf s a).trans (ih (f s a))

end LeavesOut

theorem tget_map_core (g : Core → Core) (q : Core → Bool) (hg : ∀ c, (g c).passes = c.passes) (k : Nat) :
    ∀ t : Tab Core, (tget (t.map fun e => if q e.2 then (e.1, g e.2) else e) k Core.empty).passes = (tget t k Core.empty).passes := by
  intro t
  induction t with
  | nil => rfl
  | cons e t ih =>
    obtain ⟨j, c⟩ := e
    rw [List.map_cons]
    by_cases hq : q c = true
    · simp only [hq, if_true, tget]
      split
      · exact hg c
      · exact ih
    · simp only [hq, Bool.false_eq_true, if_false, tget]
      split
      · rfl
      · exact ih

section

variable (s : State) (site core : Nat)

theorem State.wake_leavesOut (i : Nat) : LeavesOut site core s (s.wake i) :=
  ⟨rfl, fun h => (tget_map_core (fun c => { c with stopped := false })
    (fun c => c.stopped && (s.coreKernel c).map Prod.fst == some i) (fun _ => rfl) (4096 * site + core) s.tiles.cores).trans h⟩

theorem State.returnCore_leavesOut (i : Nat) : LeavesOut site core s (s.returnCore i) := by
  unfold State.returnCore
  split
  · exact .refl s
  · split
    · exact .refl s
    · next e _ =>
      refine ⟨rfl, fun h => ?_⟩
      show (tget (tput s.tiles.cores (4096 * (e.1 / 4096) + e.1 % 4096) { Core.empty with kern := some i } Core.empty)
        (4096 * site + core) Core.empty).passes = []
      rw [tget_tput]
      split
      · rfl
      · exact h

theorem LeavesOut.returnCore {s t : State} (h : LeavesOut site core s t) (i : Nat) : LeavesOut site core s (t.returnCore i) :=
  h.trans (State.returnCore_leavesOut t site core i)

theorem State.wakeAll_leavesOut : LeavesOut site core s s.wakeAll := by
  unfold State.wakeAll
  exact LeavesOut.foldl (fun t (e : Nat × Kernel) => (State.wake_leavesOut t site core e.1).returnCore site core e.1) _ s

theorem State.returnClaim_leavesOut (x c : Nat) (lost : Bool) (p : Pass) : LeavesOut site core s (s.returnClaim x c lost p) := by
  unfold State.returnClaim
  dsimp only
  split
  · split
    · refine LeavesOut.returnCore site core ?_ p.counter
      exact .of_cores rfl rfl
    · exact .of_cores rfl rfl
  · exact .refl s

theorem State.returnAttn_leavesOut (which : Held → Bool) (lost : Bool) : LeavesOut site core s (s.returnAttn which lost) := by
  refine LeavesOut.foldl (fun t a => ?_) _ s
  dsimp only
  split
  · exact .refl t
  · split
    · exact .of_cores rfl rfl
    · exact .refl t

/-- A dropped core holds no pass any more. -/
theorem State.core_dropCore (lost : Bool) : ((s.dropCore site core lost).core site core).passes = [] ∧
    (s.dropCore site core lost).tiles.coreSites = s.tiles.coreSites := by
  have hout : LeavesOut site core (s.setCore site core Core.empty) (s.dropCore site core lost) :=
    (LeavesOut.foldl (fun t p => State.returnClaim_leavesOut t site core site core lost p) _ _).trans
      (State.returnAttn_leavesOut _ site core _ lost)
  refine ⟨hout.empty ?_, hout.sites⟩
  rw [State.core_setCore_same]
  rfl

/-- A core that was lost while it served, before what its earlier loss makes of it. -/
def State.coreGone : State :=
  let t := ((s.dropCore site core true).setCoreSite site core ⟨.lost, some s.module.lifeSeconds⟩).wakeAll
  t.log 0x10 0 2 (4096 * site + core) (t.sparesLeft site)

theorem State.coreGone_spec : (s.coreGone site core).coreSite site core = ⟨.lost, some s.module.lifeSeconds⟩ ∧
    ((s.coreGone site core).core site core).passes = [] := by
  unfold State.coreGone
  dsimp only
  set t := (s.dropCore site core true).setCoreSite site core ⟨.lost, some s.module.lifeSeconds⟩ with ht
  have hout := State.wakeAll_leavesOut t site core
  refine ⟨?_, ?_⟩
  · rw [(State.log_logged _ _ _ _ _ _).coreSite]
    unfold State.coreSite
    rw [hout.sites]
    exact State.coreSite_setCoreSite_same ..
  · rw [(State.log_logged _ _ _ _ _ _).core]
    exact hout.empty (State.core_dropCore s site core true).1

theorem State.loseCore_of_serving (h : (s.coreSite site core).use = .inService) : s.loseCore site core =
    if (match (s.coreSite site core).lostAt with | some t => decide (s.module.lifeSeconds < t + days30) | none => false) = true then
      (s.coreGone site core).retireCore site core else s.coreGone site core := by
  unfold State.loseCore
  dsimp only
  rw [if_neg (not_not_intro h)]
  rfl

/-- The core site was lost within the last 30 days of powered time. -/
theorem lostLately_iff : (match (s.coreSite site core).lostAt with
      | some t => decide (s.module.lifeSeconds < t + days30)
      | none => false) = true ↔
    ∃ b, (s.coreSite site core).lostAt = some b ∧ s.module.lifeSeconds < b + 2592000 := by
  cases (s.coreSite site core).lostAt with
  | none => simp
  | some b =>
    simp only [Option.some.injEq, exists_eq_left', days30]
    exact decide_eq_true_iff

end

theorem exec_coreEnterService_of_spare {s : State} {site : Fin 81} {core : Fin 4096}
    (hs : (List.range 4096).find? (fun k => (s.coreSite site k).use == .spare) = some core.val) (hn : s.coresInService site < 4000) :
    exec (.coreEnterService site core) s =
      .next (((s.setCoreSite site core ⟨.inService, (s.coreSite site core).lostAt⟩).setCore site core Core.empty).log 0x13 0 2
        (4096 * site.val + core)
        (((s.setCoreSite site core ⟨.inService, (s.coreSite site core).lostAt⟩).setCore site core Core.empty).sparesLeft site)) := by
  show execCoreEnterService site core s = _
  unfold execCoreEnterService
  rw [hs]
  dsimp only
  rw [if_pos ⟨rfl, hn⟩]

/-- Settles O25: what a lost core leaves by `State.coreGone_spec`, the rest by the core's place. -/
theorem coresComeAndGo : Obligations.CoresComeAndGo := by
  unfold Obligations.CoresComeAndGo
  refine fun s site core => ⟨fun h => ?_, fun hs hn => ⟨_, exec_coreEnterService_of_spare hs hn, ?_, ?_⟩, fun h => ⟨?_, ?_⟩⟩
  · obtain ⟨hgone, hpasses⟩ := State.coreGone_spec s site core
    refine ⟨s.loseCore site core, rfl, ?_⟩
    have hhang : (s.core site core).passes ≠ [] → exec (.coreHangTimeout site core) s = .next (s.loseCore site core) :=
      fun hp => congrArg Host.Outcome.next (if_neg (by simpa using hp))
    have hlately := lostLately_iff s site core
    by_cases hb : ∃ b, (s.coreSite site core).lostAt = some b ∧ s.module.lifeSeconds < b + 2592000
    · rw [if_pos hb]
      refine ⟨?_, ?_, ?_, hhang⟩
      all_goals rw [State.loseCore_of_serving s site core h, if_pos (hlately.mpr hb)]
      · rw [State.coreSite_retireCore]
      · rw [State.coreSite_retireCore, hgone]
      · rw [State.core_retireCore, hpasses]
    · rw [if_neg hb]
      refine ⟨?_, ?_, ?_, hhang⟩
      all_goals rw [State.loseCore_of_serving s site core h, if_neg (fun ht => hb (hlately.mp ht))]
      · rw [hgone]
      · rw [hgone]
      · exact hpasses
  · rw [(State.log_logged _ _ _ _ _ _).coreSite]
    exact congrArg CoreSite.use (State.coreSite_setCoreSite_same s site core ⟨.inService, (s.coreSite site core).lostAt⟩)
  · rw [(State.log_logged _ _ _ _ _ _).core, State.core_setCore_same]
  · refine ⟨_, congrArg Host.Outcome.next ((if_neg (not_not_intro h)).trans (if_pos rfl)), ?_⟩
    rw [(State.log_logged _ _ _ _ _ _).coreSite, State.coreSite_setCoreSite_same]
  · refine ⟨_, congrArg Host.Outcome.next ((if_neg (not_not_intro h)).trans (if_neg Bool.false_ne_true)), ?_⟩
    rw [State.coreSite_retireCore]

end Sys2Proof.Machine

end

section

/-! The boundary of a step (chapter 4): O26. -/

namespace Sys2Proof.Machine

open Sys2Proof Sys2Proof.Safety

/-! ### One bit of a register -/

theorem bits_single (v n : Nat) : bits v n n = v / 2 ^ n % 2 := by
  unfold bits
  rw [Nat.shiftRight_eq_div_pow, Nat.add_sub_cancel_left, pow_one]

theorem b2n_lt_two (x : Bool) : b2n x < 2 := by cases x <;> decide

/-- The bit that is set, or cleared, alone changes. -/
theorem bit_setFld_single (v n m : Nat) (x : Bool) : bit (setFld v n n (b2n x)) m = if m = n then x else bit v m := by
  have hx := b2n_lt_two x
  have hv : v = 2 ^ n * (2 * (v / 2 ^ n / 2) + v / 2 ^ n % 2) + v % 2 ^ n := by
    rw [Nat.div_add_mod, Nat.div_add_mod]
  have hw : setFld v n n (b2n x) = 2 ^ n * (2 * (v / 2 ^ n / 2) + b2n x) + v % 2 ^ n := by
    unfold setFld
    rw [bits_single]
    generalize v / 2 ^ n / 2 = a at hv
    generalize v / 2 ^ n % 2 = b at hv ⊢
    generalize v % 2 ^ n = c at hv ⊢
    generalize b2n x = y
    rw [hv, Nat.mul_add, Nat.mul_add, Nat.mul_comm b, Nat.mul_comm y]
    omega
  have hmod : setFld v n n (b2n x) % 2 ^ n = v % 2 ^ n := by
    rw [hw, Nat.mul_add_mod, Nat.mod_mod]
  have hdiv : setFld v n n (b2n x) / 2 ^ n = 2 * (v / 2 ^ n / 2) + b2n x := by
    rw [hw, Nat.mul_add_div (Nat.two_pow_pos n), Nat.div_eq_of_lt (Nat.mod_lt _ (Nat.two_pow_pos n)), Nat.add_zero]
  rcases lt_trichotomy m n with hlt | rfl | hgt
  · rw [if_neg (by omega), bit_eq_testBit, bit_eq_testBit]
    have hlow : ∀ u : Nat, u.testBit m = (u % 2 ^ n).testBit m := fun u => by simp [Nat.testBit_mod_two_pow, hlt]
    rw [hlow, hmod, ← hlow]
  · rw [if_pos rfl, bit, Nat.shiftRight_eq_div_pow, hdiv]
    cases x <;> simp [b2n]
  · obtain ⟨d, rfl⟩ := Nat.exists_eq_add_of_lt hgt
    rw [if_neg (by omega), bit, bit, Nat.shiftRight_eq_div_pow, Nat.shiftRight_eq_div_pow, Nat.add_assoc, Nat.pow_add,
      ← Nat.div_div_eq_div_mul, ← Nat.div_div_eq_div_mul, hdiv, Nat.pow_succ', ← Nat.div_div_eq_div_mul, ← Nat.div_div_eq_div_mul]
    congr 3
    omega

/-! ### The recipes' bits -/

section

variable (s : State)

/-- Where the three banks of recipe bits lie. -/
def recipeBank (b : Nat) : Prop := b = 0x2100 ∨ b = 0x2200 ∨ b = 0x2300

theorem State.recipeBit_setRecipeBit {a b i j : Nat} (ha : recipeBank a) (hb : recipeBank b) (hi : i < 512) (hj : j < 512) (v : Bool) :
    (s.setRecipeBit a i v).recipeBit b j = if b = a ∧ j = i then v else s.recipeBit b j := by
  unfold State.setRecipeBit State.recipeBit
  dsimp only
  by_cases hk : b + 4 * (j / 32) = a + 4 * (i / 32)
  · have hab : b = a ∧ j / 32 = i / 32 := by
      unfold recipeBank at ha hb
      omega
    obtain ⟨rfl, hdiv⟩ := hab
    rw [hk, State.reg_setReg_same, bit_setFld_single]
    have hmod : j % 32 = i % 32 ↔ j = i := by omega
    simp only [hmod, true_and]
  · rw [State.reg_setReg_other _ _ _ _ hk, if_neg]
    rintro ⟨rfl, rfl⟩
    exact hk rfl

theorem State.recipeBit_setReg {b k j : Nat} (hb : recipeBank b) (_ : j < 512) (hk : k < 0x2100) (v : Nat) :
    (s.setReg k v).recipeBit b j = s.recipeBit b j := by
  unfold State.recipeBit
  rw [State.reg_setReg_other]
  unfold recipeBank at hb
  omega

end

/-! ### Narrow and wide records -/

/-- A pass over the recipes' records that leaves the requests. -/
def KeepsRequests (s t : State) : Prop := ∀ j, j < 512 → t.recipeBit 0x2100 j = s.recipeBit 0x2100 j

theorem KeepsRequests.trans {s t u : State} (h : KeepsRequests s t) (g : KeepsRequests t u) : KeepsRequests s u :=
  fun j hj => (g j hj).trans (h j hj)

section

variable (s : State) {i : Nat} (hi : i < 512)

include hi

theorem setRecipeBit_keepsRequests {b : Nat} (hb : b = 0x2200 ∨ b = 0x2300) (v : Bool) : KeepsRequests s (s.setRecipeBit b i v) :=
  fun j hj => by rw [State.recipeBit_setRecipeBit s (.inr hb) (.inl rfl) hi hj, if_neg (by omega)]

theorem narrowRecord_keepsRequests : KeepsRequests s (narrowRecord i s) := by
  unfold narrowRecord
  split
  · exact setRecipeBit_keepsRequests s hi (.inl rfl) false
  · exact fun _ _ => rfl

/-- A record whose request is clear becomes narrow; the others stay as they are. -/
theorem narrowRecord_wide {j : Nat} (hj : j < 512) : (narrowRecord i s).recipeBit 0x2200 j =
    if j = i then s.recipeBit 0x2200 j && s.recipeBit 0x2100 j else s.recipeBit 0x2200 j := by
  unfold narrowRecord
  split
  · next h =>
    rw [State.recipeBit_setRecipeBit s (.inr (.inl rfl)) (.inr (.inl rfl)) hi hj]
    by_cases hji : j = i
    · subst hji
      simp only [Bool.and_eq_true, Bool.not_eq_true'] at h
      simp [h.2]
    · simp [hji]
  · next h =>
    split
    · next hji =>
      subst hji
      simp only [Bool.and_eq_true, Bool.not_eq_true', not_and, Bool.not_eq_false] at h
      cases hw : s.recipeBit 0x2200 j with
      | false => rfl
      | true => rw [h hw, Bool.and_self]
    · rfl

end

theorem narrowRecords_spec (s : State) : ∀ n, n ≤ 512 → KeepsRequests s (iter n narrowRecord s) ∧
    ∀ j, j < n → s.recipeBit 0x2100 j = false → (iter n narrowRecord s).recipeBit 0x2200 j = false := by
  intro n
  induction n with
  | zero => exact fun _ => ⟨fun _ _ => rfl, fun j hj => absurd hj (by omega)⟩
  | succ n ih =>
    intro hn
    obtain ⟨hkeeps, hnarrow⟩ := ih (by omega)
    rw [iter_succ]
    refine ⟨hkeeps.trans (narrowRecord_keepsRequests _ (by omega)), fun j hj hreq => ?_⟩
    rw [narrowRecord_wide _ (by omega) (by omega)]
    split
    · rw [hkeeps j (by omega), hreq, Bool.and_false]
    · exact hnarrow j (by omega) hreq

/-- A record that stands wide, or was refused and reported. -/
def answered (p : State × List Nat) (i : Nat) : Prop :=
  p.1.recipeBit 0x2200 i = true ∨ p.1.recipeBit 0x2300 i = true ∧ p.2 ≠ []

/-- A record is left, or becomes wide, or is refused. -/
theorem wideRecord_cases (p : State × List Nat) (i : Nat) :
    (wideRecord p i = p ∧ (p.1.recipeBit 0x2200 i = true ∨ p.1.recipeBit 0x2100 i = false)) ∨
    p.1.recipeBit 0x2100 i = true ∧
      ((∃ l, wideRecord p i = (({ p.1 with rails := { p.1.rails with counted := l } } : State).setRecipeBit 0x2200 i true, p.2)) ∨
        wideRecord p i = (p.1.setRecipeBit 0x2300 i true, p.2 ++ [i])) := by
  unfold wideRecord
  dsimp only
  split
  · next h => exact .inl ⟨rfl, by simpa using h⟩
  · next h =>
    simp only [Bool.or_eq_true, Bool.not_eq_true', not_or, Bool.not_eq_false] at h
    refine .inr ⟨h.2, ?_⟩
    split
    · exact .inl ⟨p.1.rails.counted, rfl⟩
    · split
      · exact .inl ⟨_, rfl⟩
      · exact .inr rfl

section

variable (p : State × List Nat) {i : Nat} (hi : i < 512)

include hi

theorem wideRecord_keepsRequests : KeepsRequests p.1 (wideRecord p i).1 := by
  rcases wideRecord_cases p i with ⟨h, -⟩ | ⟨-, ⟨l, h⟩ | h⟩
  · rw [h]
    exact fun _ _ => rfl
  · rw [h]
    exact setRecipeBit_keepsRequests ({ p.1 with rails := { p.1.rails with counted := l } } : State) hi (.inl rfl) true
  · rw [h]
    exact setRecipeBit_keepsRequests _ hi (.inr rfl) true

variable {j : Nat} (hj : j < 512)

include hj

theorem wideRecord_unrequested (hreq : p.1.recipeBit 0x2100 j = false) :
    (wideRecord p i).1.recipeBit 0x2200 j = p.1.recipeBit 0x2200 j := by
  rcases wideRecord_cases p i with ⟨h, -⟩ | ⟨hi2, ⟨l, h⟩ | h⟩
  · rw [h]
  · have hji : j ≠ i := fun e => by simp [e, hi2] at hreq
    rw [h, State.recipeBit_setRecipeBit _ (.inr (.inl rfl)) (.inr (.inl rfl)) hi hj, if_neg (by simp [hji])]
    rfl
  · rw [h, State.recipeBit_setRecipeBit _ (.inr (.inr rfl)) (.inr (.inl rfl)) hi hj, if_neg (by omega)]

theorem wideRecord_answers (h : answered p j ∨ j = i ∧ p.1.recipeBit 0x2100 j = true) : answered (wideRecord p i) j := by
  rcases wideRecord_cases p i with ⟨e, hleft⟩ | ⟨-, ⟨l, e⟩ | e⟩
  · rw [e]
    rcases h with h | ⟨rfl, hreq⟩
    · exact h
    · exact .inl (hleft.resolve_right (by simp [hreq]))
  · unfold answered
    rw [e, State.recipeBit_setRecipeBit _ (.inr (.inl rfl)) (.inr (.inl rfl)) hi hj,
      State.recipeBit_setRecipeBit _ (.inr (.inl rfl)) (.inr (.inr rfl)) hi hj]
    by_cases hji : j = i
    · exact .inl (by simp [hji])
    · rw [if_neg (by simp [hji]), if_neg (by simp [hji])]
      exact h.resolve_right fun hreq => hji hreq.1
  · unfold answered
    rw [e, State.recipeBit_setRecipeBit _ (.inr (.inr rfl)) (.inr (.inl rfl)) hi hj,
      State.recipeBit_setRecipeBit _ (.inr (.inr rfl)) (.inr (.inr rfl)) hi hj]
    by_cases hji : j = i
    · exact .inr (by simp [hji])
    · rw [if_neg (by simp [hji]), if_neg (by simp [hji])]
      exact (h.resolve_right fun hreq => hji hreq.1).imp_right fun g => ⟨g.1, by simp⟩

end

theorem wideRecords_spec (a : State) : ∀ n, n ≤ 512 → ∀ p, p = (List.range n).foldl wideRecord (a, []) →
    KeepsRequests a p.1 ∧ (∀ j, j < 512 → a.recipeBit 0x2100 j = false → p.1.recipeBit 0x2200 j = a.recipeBit 0x2200 j) ∧
    ∀ j, j < n → a.recipeBit 0x2100 j = true → answered p j := by
  intro n
  induction n with
  | zero =>
    rintro - p rfl
    exact ⟨fun _ _ => rfl, fun _ _ _ => rfl, fun j hj => absurd hj (by omega)⟩
  | succ n ih =>
    rintro hn p rfl
    rw [List.range_succ, List.foldl_append, List.foldl_cons, List.foldl_nil]
    obtain ⟨hkeeps, hnarrow, hwide⟩ := ih (by omega) _ rfl
    generalize (List.range n).foldl wideRecord (a, []) = q at hkeeps hnarrow hwide
    refine ⟨hkeeps.trans (wideRecord_keepsRequests q (by omega)), fun j hj hreq => ?_, fun j hj hreq => ?_⟩
    · rw [wideRecord_unrequested q (by omega) hj (by rw [hkeeps j hj, hreq]), hnarrow j hj hreq]
    · refine wideRecord_answers q (by omega) (by omega) ?_
      by_cases hjn : j = n
      · exact .inr ⟨hjn, by rw [hkeeps j (by omega), hreq]⟩
      · exact .inl (hwide j (by omega) hreq)

/-! ### The boundary -/

theorem State.boundary_of_open {s : State} (h : s.setClosed 0 = false) : s.boundary = (s.dropCounted.foldMonitors, false) := by
  unfold State.boundary
  rw [if_pos (by simp [h])]

/-- The records once the boundary has gone over them, with those it refused. -/
def State.boundaryRecords (s : State) : State × List Nat :=
  (List.range s.recipes.length).foldl wideRecord (iter s.recipes.length narrowRecord s.dropCounted, [])

/-- The fields' monitor counts, then the module's. -/
def State.monitors (s : State) : Tab Nat × Tab Nat := (s.rails.fieldMon, s.rails.moduleMon)

theorem State.boundaryRecords_monitors (s : State) : s.boundaryRecords.1.monitors = s.monitors := by
  have hnarrow : ∀ n, (iter n narrowRecord s.dropCounted).monitors = s.monitors := fun n =>
    iter_keeps (fun u : State => u.monitors = s.monitors) n _ _ rfl fun i u hu => by
      unfold narrowRecord
      split
      · exact hu
      · exact hu
  refine foldl_keeps (fun p : State × List Nat => p.1.monitors = s.monitors) _ _ _ (hnarrow _) fun p i hp => ?_
  rcases wideRecord_cases p i with ⟨e, -⟩ | ⟨-, ⟨l, e⟩ | e⟩
  · rw [e]
    exact hp
  · rw [e]
    exact hp
  · rw [e]
    exact hp

theorem State.foldMonitors_monitors {s t : State} (h : t.monitors = s.monitors) : t.foldMonitors.monitors = ([],
    s.rails.fieldMon.foldl (fun m p => tput m (p.1 % 1539) (sat32 (tget m (p.1 % 1539) 0 + p.2)) 0) s.rails.moduleMon) := by
  obtain ⟨hf, hm⟩ := Prod.mk.inj h
  rw [← hf, ← hm]
  rfl

/-- With the set CLOSED a boundary goes over the records, and then changes registers below the recipes' bits alone. -/
theorem State.boundary_of_closed {s : State} (h : s.setClosed 0 = true) : ∃ d : State,
    s.boundary = (d.foldMonitors, !s.boundaryRecords.2.isEmpty) ∧ d.monitors = s.monitors ∧
      ∀ b j, recipeBank b → j < 512 → d.recipeBit b j = s.boundaryRecords.1.recipeBit b j := by
  have hsame : ∀ c : State, c.rails = s.boundaryRecords.1.rails → c.monitors = s.monitors := fun c hc => by
    rw [← State.boundaryRecords_monitors s]
    unfold State.monitors
    rw [hc]
  have hreported : ∀ l : List Nat, ∃ c : State, (match l with
        | [] => s.boundaryRecords.1
        | i :: _ => s.boundaryRecords.1.setReg 0x200C
            (setFld (s.boundaryRecords.1.reg 0x200C) 15 0 (recipeLayer (nth s.boundaryRecords.1.recipes i 0)))) = c ∧
      c.rails = s.boundaryRecords.1.rails ∧
      ∀ b j, recipeBank b → j < 512 → c.recipeBit b j = s.boundaryRecords.1.recipeBit b j := by
    rintro (_ | ⟨i, l⟩)
    · exact ⟨_, rfl, rfl, fun _ _ _ _ => rfl⟩
    · exact ⟨_, rfl, rfl, fun b j hb hj => State.recipeBit_setReg _ hb hj (by decide) _⟩
  obtain ⟨c, hc, hrails, hbits⟩ := hreported s.boundaryRecords.2
  refine ⟨if c.activeBits == s.activeBits then c else c.addWrap 0x2008 1, ?_, ?_, fun b j hb hj => ?_⟩
  · rw [← hc]
    unfold State.boundary
    rw [if_neg (by simp [h])]
    rfl
  · split
    · exact hsame c hrails
    · exact hsame _ hrails
  · split
    · exact hbits b j hb hj
    · exact (State.recipeBit_setReg _ hb hj (by decide) _).trans (hbits b j hb hj)

theorem State.boundary_monitors (s : State) : s.boundary.1.monitors = ([],
    s.rails.fieldMon.foldl (fun m p => tput m (p.1 % 1539) (sat32 (tget m (p.1 % 1539) 0 + p.2)) 0) s.rails.moduleMon) := by
  cases h : s.setClosed 0 with
  | false =>
    rw [State.boundary_of_open h]
    exact State.foldMonitors_monitors rfl
  | true =>
    obtain ⟨d, hd, hmon, -⟩ := State.boundary_of_closed h
    rw [hd]
    exact State.foldMonitors_monitors hmon

theorem State.boundary_records {s : State} (h : s.setClosed 0 = true) (hn : s.recipes.length ≤ 512) {i : Nat}
    (hi : i < s.recipes.length) :
    (s.recipeBit 0x2100 i = false → s.boundary.1.recipeBit 0x2200 i = false) ∧
    (s.recipeBit 0x2100 i = true → s.boundary.1.recipeBit 0x2200 i = true ∨
      (s.boundary.1.recipeBit 0x2300 i = true ∧ s.boundary.2 = true)) := by
  obtain ⟨d, hd, -, hbits⟩ := State.boundary_of_closed h
  obtain ⟨hreq, hnarrow⟩ := narrowRecords_spec s.dropCounted s.recipes.length hn
  obtain ⟨-, hleft, hwide⟩ := wideRecords_spec (iter s.recipes.length narrowRecord s.dropCounted) s.recipes.length hn
    s.boundaryRecords rfl
  have hi' : i < 512 := by omega
  have hsame : (iter s.recipes.length narrowRecord s.dropCounted).recipeBit 0x2100 i = s.recipeBit 0x2100 i := hreq i hi'
  have hb : ∀ b, recipeBank b → s.boundary.1.recipeBit b i = s.boundaryRecords.1.recipeBit b i := fun b hb => by
    rw [hd]
    exact hbits b i hb hi'
  rw [hb _ (.inr (.inl rfl)), hb _ (.inr (.inr rfl)), hd]
  refine ⟨fun hclear => ?_, fun hset => ?_⟩
  · rw [hleft i hi' (hsame.trans hclear)]
    exact hnarrow i hi hclear
  · refine (hwide i hi (hsame.trans hset)).imp_right fun g => ⟨g.1, ?_⟩
    simpa using g.2

theorem exec_stepBoundary_of_due {s : State} {cx : Fin 16} {ring : Fin 4} {c : Cmd}
    (h : s.headCmd cx ring (fun d => (d.finished || (d.refusal != 0 && (s.ctx cx).mode == .ready)) && s.boundaryDue cx d) = some c) :
    exec (.stepBoundary cx ring) s = .next ((s.boundary.1.modCmd ⟨cx, ring, c.index⟩ fun d => { d with
      bounded := true, flags := d.flags ||| (if s.boundary.2 then 2 ^ 31 else 0) }).settle cx ring) := by
  show execStepBoundary cx ring s = _
  unfold execStepBoundary State.stepBoundary
  simp only [h]

/-- Settles O26: the records by induction over the recipes, narrow ones first, then wide ones. -/
theorem stepBoundariesApply : Obligations.StepBoundariesApply := by
  unfold Obligations.StepBoundariesApply
  intro s cx ring c
  obtain ⟨hfield, hmodule⟩ := Prod.mk.inj (State.boundary_monitors s)
  refine ⟨fun h => exec_stepBoundary_of_due h, hfield, hmodule, fun h => ?_, fun h hn i hi => State.boundary_records h hn hi⟩
  rw [State.boundary_of_open h]
  exact ⟨rfl, fun _ => rfl⟩

end Sys2Proof.Machine

end

section

/-! The tier commands (chapter 9): O33 and O34. -/

namespace Sys2Proof.Machine

open Sys2Proof Sys2Proof.Safety

/-! ### A command that issues, or that has issued and waits -/

/-- Such a command's work runs on the state that `works` names, with the command's own descriptor and extension. -/
theorem State.issueOrRun_of_works {s b : State} {cx r : Nat} {want : Cmd → Bool} {pinsOf : State → Cmd → List Nat} {c : Cmd}
    (h : works s b cx r want (pinsOf s c) c) (run : State → CmdId → Cmd → State) :
    ∃ d : Cmd, d.desc = c.desc ∧ d.ext = c.ext ∧ d.progress = c.progress ∧ s.issueOrRun cx r want pinsOf run = run b ⟨cx, r, c.index⟩ d := by
  rcases h with ⟨h, rfl⟩ | ⟨hhead, hf, hw, hserved, rfl⟩
  · exact ⟨stamped s cx (pinsOf s c) c, rfl, rfl, rfl, State.issueOrRun_of_issues h run⟩
  · refine ⟨c, rfl, rfl, rfl, ?_⟩
    unfold State.issueOrRun
    simp only [hhead, hf, hw, hserved, Bool.not_true, Bool.or_self, Bool.false_eq_true, if_false]

section

variable {s b : State} {cx ring op : Nat} {c : Cmd} (h : works s b cx ring (wantTier op) (tierPins cx s c) c)
  (work : State → CmdId → Line → State)

include h

theorem State.tierRun_of_works : s.tierRun cx ring op work =
    if b.tierBad c.ext then b.finish ⟨cx, ring, c.index⟩ 0x0301 0
    else if (op = 1 ∨ op = 2) ∧ b.tierLinesBad cx c.ext then b.finish ⟨cx, ring, c.index⟩ 0x0308 0
    else work b ⟨cx, ring, c.index⟩ c.ext := by
  obtain ⟨d, -, hext, -, hrun⟩ := State.issueOrRun_of_works (pinsOf := tierPins cx) h fun t id c =>
    if t.tierBad c.ext then t.finish id 0x0301 0
    else if (op = 1 ∨ op = 2) ∧ t.tierLinesBad cx c.ext then t.finish id 0x0308 0
    else work t id c.ext
  rw [← hext]
  exact hrun

theorem State.tierRun_of_bad (hbad : b.tierBad c.ext = true) : s.tierRun cx ring op work = b.finish ⟨cx, ring, c.index⟩ 0x0301 0 := by
  rw [State.tierRun_of_works h, if_pos hbad]

variable (hbad : b.tierBad c.ext = false)

include hbad

theorem State.tierRun_of_linesBad (hop : op = 1 ∨ op = 2) (hl : b.tierLinesBad cx c.ext = true) :
    s.tierRun cx ring op work = b.finish ⟨cx, ring, c.index⟩ 0x0308 0 := by
  rw [State.tierRun_of_works h, if_neg (by simp [hbad]), if_pos ⟨hop, hl⟩]

theorem State.tierRun_of_sound (hl : op = 1 ∨ op = 2 → b.tierLinesBad cx c.ext = false) :
    s.tierRun cx ring op work = work b ⟨cx, ring, c.index⟩ c.ext := by
  rw [State.tierRun_of_works h, if_neg (by simp [hbad]), if_neg]
  rintro ⟨hop, ht⟩
  simp [hl hop] at ht

end

/-! ### The work of each operation -/

section

variable {s u : State} {id : CmdId} {x : Line} {st : Nat}

theorem fillWork_of_rows (h : (tierParts x).foldl (fillRow id x) (s, 0) = (u, st)) : fillWork s id x =
    if st = 0 then u.endWork id 0 0
    else ((tierParts x).foldl (fun v p => v.infHavoc p.1 (tierInf x p.2) (tierBytes x)) u).finish id st 0 := by
  unfold fillWork
  rw [h]
  cases st <;> rfl

theorem spillWork_of_waits (h : ∃ p ∈ tierParts x, s.writeWaits id (tierVa x (tierA x) p) (tierBytes x) = true) :
    spillWork s id x = s := by
  unfold spillWork
  rw [if_pos (List.any_eq_true.mpr h)]

theorem spillWork_of_rows (hw : ∀ p ∈ tierParts x, s.writeWaits id (tierVa x (tierA x) p) (tierBytes x) = false)
    (h : (tierParts x).foldl (spillRow id x) (s, 0) = (u, st)) : spillWork s id x =
    if st = 0 then u.endWork id 0 0
    else ((tierParts x).foldl (fun v p => v.cvaHavoc id (tierVa x (tierA x) p) (tierBytes x)) u).finish id st 0 := by
  unfold spillWork
  rw [if_neg (by simpa using hw), h]
  cases st <;> rfl

theorem copyWork_of_waits (h : ∃ p ∈ tierParts x, s.writeWaits id (tierVa x (tierB x) p) (tierBytes x) = true) :
    copyWork s id x = s := by
  unfold copyWork
  rw [if_pos (List.any_eq_true.mpr h)]

theorem copyWork_of_rows (hw : ∀ p ∈ tierParts x, s.writeWaits id (tierVa x (tierB x) p) (tierBytes x) = false)
    (h : (tierParts x).foldl (copyRow id x) (s, 0) = (u, st)) : copyWork s id x =
    if st = 0 then u.endWork id 0 0
    else ((tierParts x).foldl (fun v p => v.cvaHavoc id (tierVa x (tierB x) p) (tierBytes x)) u).finish id st 0 := by
  unfold copyWork
  rw [if_neg (by simpa using hw), h]
  cases st <;> rfl

theorem packageWindow_closed_iff :
    (s.inPackageWindow (tierA x) (tierPages x) && !s.ownerCx id.cx) = true ↔
      ¬(s.inPackageWindow (tierA x) (tierPages x) = false ∨ s.ownerCx id.cx = true) := by
  cases s.inPackageWindow (tierA x) (tierPages x) <;> cases s.ownerCx id.cx <;> simp

theorem mapWork_of_refused (h : ¬(s.inPackageWindow (tierA x) (tierPages x) = false ∨ s.ownerCx id.cx = true)) :
    mapWork s id x = s.finish id 0x0309 0 := by
  unfold mapWork
  rw [if_pos (packageWindow_closed_iff.mpr h)]

theorem mapWork_of_allowed (ha : s.inPackageWindow (tierA x) (tierPages x) = false ∨ s.ownerCx id.cx = true)
    (h : (List.range (tierPages x)).foldl (mapPage id x) (s, 0) = (u, st)) : mapWork s id x = u.finish id st 0 := by
  unfold mapWork
  rw [if_neg fun hc => packageWindow_closed_iff.mp hc ha, h]

theorem unmapWork_of_refused (h : ¬(s.inPackageWindow (tierA x) (tierPages x) = false ∨ s.ownerCx id.cx = true)) :
    unmapWork s id x = s.finish id 0x0309 0 := by
  unfold unmapWork
  rw [if_pos (packageWindow_closed_iff.mpr h)]

theorem unmapWork_of_allowed (ha : s.inPackageWindow (tierA x) (tierPages x) = false ∨ s.ownerCx id.cx = true)
    {l : List (Nat × Nat)} (h : (List.range (tierPages x)).foldl (unmapPage id x) (s, 0, []) = (u, st, l)) :
    unmapWork s id x = State.finish { u with tiers := { u.tiers with
      frees := u.tiers.frees ++ (pendingFree s id l id.cx ++ pendingFree s id l 16) } } id st 0 := by
  unfold unmapWork
  rw [if_neg fun hc => packageWindow_closed_iff.mp hc ha, h]

theorem wmapWork_of_stranger (h : s.ownerCx id.cx = false) : wmapWork s id x = s.finish id 0x0309 0 := by
  unfold wmapWork
  rw [if_pos (by simp [h])]

theorem wmapWork_of_unfit (ho : s.ownerCx id.cx = true) (h : ¬tierB x / 2097152 + tierPages x ≤ 65 * s.weightGib * 512) :
    wmapWork s id x = s.finish id 0x0306 0 := by
  unfold wmapWork
  rw [if_neg (by simp [ho]), if_pos (Nat.lt_of_not_le h)]

theorem wmapWork_of_fit (ho : s.ownerCx id.cx = true) (hfit : tierB x / 2097152 + tierPages x ≤ 65 * s.weightGib * 512)
    (h : (List.range (tierPages x)).foldl (wmapPage x) (s, 0) = (u, st)) : wmapWork s id x = u.finish id st 0 := by
  unfold wmapWork
  rw [if_neg (by simp [ho]), if_neg (Nat.not_lt.mpr hfit), h]

/-- A weight load that may run: whole granules within the weight partition, by the owner, with no other command outstanding. -/
def State.mayLoad (s : State) (id : CmdId) (x : Line) : Prop :=
  tierB x % 53248 = 0 ∧ tierRows x * tierBytes x % 53248 = 0 ∧
    tierB x + tierRows x * tierBytes x ≤ 1073741824 * (65 * s.weightGib) ∧ s.ownerCx id.cx = true ∧
    (∀ d ∈ s.outstanding, d = id) ∧ tierOne x = true

theorem loadRefused_iff : (tierB x % 53248 != 0 || tierRows x * tierBytes x % 53248 != 0 ||
    decide (1073741824 * (65 * s.weightGib) < tierB x + tierRows x * tierBytes x) || !s.ownerCx id.cx ||
    s.outstanding.any (fun c => c != id) || !tierOne x) = true ↔ ¬s.mayLoad id x := by
  rw [← Bool.not_eq_false, not_iff_not]
  unfold State.mayLoad
  simp only [Bool.or_eq_false_iff, bne_eq_false_iff_eq, decide_eq_false_iff_not, Nat.not_lt, Bool.not_eq_false', List.any_eq_false,
    and_assoc, bne_iff_ne, ne_eq, not_not]

theorem wloadWork_of_refused (h : ¬s.mayLoad id x) : wloadWork s id x = s.finish id 0x0307 0 := by
  unfold wloadWork
  exact if_pos (loadRefused_iff.mpr h)

theorem wloadWork_of_unread (h : s.mayLoad id x) {l : Marked} (hst : st ≠ 0) (hl : wloadRead s id x = (st, l)) :
    wloadWork s id x =
      ((List.range (tierRows x * tierBytes x / 53248)).foldl (wloadSpoil (tierB x / 53248)) s).finish id st 0 := by
  unfold wloadWork
  refine (if_neg fun hc => loadRefused_iff.mp hc h).trans ?_
  rw [hl]
  cases st with
  | zero => exact absurd rfl hst
  | succ st => rfl

theorem wloadWork_of_read (h : s.mayLoad id x) {l : Marked} (hl : wloadRead s id x = (0, l)) :
    wloadWork s id x = ((List.range (tierRows x * tierBytes x / 53248)).foldl (wloadStripe id l (tierB x / 53248))
      (s.noteReads id (s.isLive id.cx) ((List.range (tierRows x)).map fun i =>
        (tierA x + i * tierStride x, tierBytes x)))).endWork id 0 0 := by
  unfold wloadWork
  refine (if_neg fun hc => loadRefused_iff.mp hc h).trans ?_
  rw [hl]
  rfl

end

/-- The seven tier commands, each with its operation and its work. -/
def tierRows7 (cx : Fin 16) (ring : Fin 4) : List (Nat × Instr × (State → CmdId → Line → State)) :=
  [(1, .fill cx ring, fillWork), (2, .spill cx ring, spillWork), (3, .copy cx ring, copyWork), (4, .map cx ring, mapWork),
    (5, .unmap cx ring, unmapWork), (6, .wmap cx ring, wmapWork), (7, .wload cx ring, wloadWork)]

theorem exec_tierRows (cx : Fin 16) (ring : Fin 4) (s : State) :
    ∀ e ∈ tierRows7 cx ring, exec e.2.1 s = .next (s.tierRun cx ring e.1 e.2.2) := by
  simp only [tierRows7, List.forall_mem_cons]
  exact ⟨rfl, rfl, rfl, rfl, rfl, rfl, rfl, by simp⟩

/-- Settles O33: each command runs its own work on the state that `works` names. -/
theorem tierCommandsMove : Obligations.TierCommandsMove := by
  unfold Obligations.TierCommandsMove
  intro s b cx ring c x id at_ sound allowed fits n loads
  have hrun : ∀ e ∈ tierRows7 cx ring, sound e.1 → exec e.2.1 s = .next (e.2.2 b id x) := fun e he hs =>
    (exec_tierRows cx ring s e he).trans (congrArg Host.Outcome.next (State.tierRun_of_sound hs.1 e.2.2 hs.2.1 hs.2.2))
  simp only [tierRows7, List.forall_mem_cons] at hrun
  obtain ⟨hfill, hspill, hcopy, hmap, hunmap, hwmap, hwload, -⟩ := hrun
  refine ⟨fun hs u st h => ?_, fun hs hw u st h => ?_, fun hs hw => ?_, fun hs hw u st h => ?_, fun hs hw => ?_,
    fun hs ha u st h => ?_, fun hs ha u st l h => ?_, fun ha => ⟨fun hs => ?_, fun hs => ?_⟩, fun hs ho hfit u st h => ?_,
    fun hs ho hfit => ?_, fun hs ho => ?_, fun hs hl l h => ?_, fun hs hl st l hst h => ?_, fun hs hl => ?_, fun op row hrow h => ?_⟩
  · rw [hfill hs, fillWork_of_rows h]
  · rw [hspill hs, spillWork_of_rows hw h]
  · rw [hspill hs, spillWork_of_waits hw]
  · rw [hcopy hs, copyWork_of_rows hw h]
  · rw [hcopy hs, copyWork_of_waits hw]
  · rw [hmap hs, mapWork_of_allowed ha h]
  · rw [hunmap hs, unmapWork_of_allowed ha h]
  · rw [hmap hs, mapWork_of_refused ha]
  · rw [hunmap hs, unmapWork_of_refused ha]
  · rw [hwmap hs, wmapWork_of_fit ho hfit h]
  · rw [hwmap hs, wmapWork_of_unfit ho hfit]
  · rw [hwmap hs, wmapWork_of_stranger ho]
  · rw [hwload hs, wloadWork_of_read (show b.mayLoad id x from hl) h]
  · rw [hwload hs, wloadWork_of_unread (show b.mayLoad id x from hl) hst h]
  · rw [hwload hs, wloadWork_of_refused (show ¬b.mayLoad id x from hl)]
  · obtain ⟨work, he⟩ : ∃ work, (op, row, work) ∈ tierRows7 cx ring := by
      simp only [List.mem_cons, Prod.mk.injEq, List.not_mem_nil, or_false] at hrow
      rcases hrow with ⟨rfl, rfl⟩ | ⟨rfl, rfl⟩ | ⟨rfl, rfl⟩ | ⟨rfl, rfl⟩ | ⟨rfl, rfl⟩ | ⟨rfl, rfl⟩ | ⟨rfl, rfl⟩ <;>
        simp [tierRows7]
    have hexec := exec_tierRows cx ring s _ he
    refine ⟨fun hbad => ?_, fun hbad hop hl => ?_⟩
    · rw [hexec, State.tierRun_of_bad h work hbad]
    · have hpos : op ≠ 0 := by
        simp only [List.mem_cons, Prod.mk.injEq, List.not_mem_nil, or_false] at hrow
        omega
      rw [hexec, State.tierRun_of_linesBad h work hbad (by omega) hl]

/-! ### A row of a FILL (O34) -/

theorem State.noteRead_memory (s : State) (id : CmdId) (place : Bool) (va n : Nat) : (s.noteRead id place va n).memory = s.memory :=
  (State.noteRead_keeps (P := [.tiers, .hosts]) s id place va n (Keeps.refl s) (by decide) (by decide)).parts .memory (by decide)

theorem State.infWriteMarked_infield (s : State) (rank addr : Nat) (l : Marked) :
    (s.infWriteMarked rank addr l).memory.infield = (s.infWrite rank addr (unmark l)).memory.infield := by
  unfold State.infWriteMarked
  refine foldl_same (fun u : State => u.memory.infield) _ _ _ fun u p => ?_
  split <;> rfl

theorem unmark_length (l : Marked) : (unmark l).length = l.length := List.length_map ..

section

variable {s : State} {id : CmdId} {x : Line} {p : Nat × Nat} {l : Marked}

theorem fillRow_of_read (h : s.cvaRead id (tierVa x (tierA x) p) (tierBytes x) = (0, l)) : ∃ u : State,
    fillRow id x (s, 0) p = (u.infWriteMarked p.1 (tierInf x p.2) l, 0) ∧ u.memory = s.memory := by
  refine ⟨_, ?_, State.noteRead_memory s id (!s.infKind1 id.cx (tierInf x p.2 / 128) (tierBytes x / 128)) (tierVa x (tierA x) p) (tierBytes x)⟩
  unfold fillRow
  rw [if_neg (by simp)]
  simp only [h]

theorem fillRow_spec (h : s.cvaRead id (tierVa x (tierA x) p) (tierBytes x) = (0, l)) :
    let u := (fillRow id x (s, 0) p).1
    (fillRow id x (s, 0) p).2 = 0 ∧ u.infRead p.1 (tierInf x p.2) l.length = unmark l ∧
    ∀ q a, infKey q a < infKey p.1 (tierInf x p.2) ∨ infKey p.1 (tierInf x p.2) + l.length ≤ infKey q a →
      u.infByte q a = s.infByte q a := by
  obtain ⟨t, hrow, hmem⟩ := fillRow_of_read h
  rw [hrow]
  have hbyte : ∀ q a, (t.infWriteMarked p.1 (tierInf x p.2) l).infByte q a = (t.infWrite p.1 (tierInf x p.2) (unmark l)).infByte q a :=
    fun q a => congrArg (fun m => tget m (infKey q a) 0) (State.infWriteMarked_infield ..)
  refine ⟨rfl, ?_, fun q a hout => ?_⟩
  · rw [← unmark_length l]
    refine Eq.trans ?_ (State.infRead_infWrite_same t p.1 (tierInf x p.2) (unmark l))
    exact List.map_congr_left fun i _ => hbyte ..
  · rw [hbyte, State.infByte_infWrite_other _ _ _ _ _ _ (by rwa [unmark_length]), State.infByte_congr hmem]

end

/-! ### A page's entry -/

section

variable {s : State} {id : CmdId} {x : Line} {i : Nat}

theorem mapPage_of_outside (h : ∀ tab, s.space id.cx (tierPage x i) ≠ .table tab) : mapPage id x (s, 0) i = (s, 0x0302) := by
  unfold mapPage
  rw [if_neg (by simp)]
  cases hsp : s.space id.cx (tierPage x i) with
  | table tab => exact absurd hsp (h tab)
  | _ => simp only [hsp]

theorem unmapPage_of_outside (h : ∀ tab, s.space id.cx (tierPage x i) ≠ .table tab) (l : List (Nat × Nat)) :
    unmapPage id x (s, 0, l) i = (s, 0x0302, l) := by
  unfold unmapPage
  rw [if_neg (by simp)]
  cases hsp : s.space id.cx (tierPage x i) with
  | table tab => exact absurd hsp (h tab)
  | _ => simp only [hsp]

variable {tab : Nat} (h : s.space id.cx (tierPage x i) = .table tab)

include h

theorem mapPage_of_mapped (hm : bit (s.entry (entryKey tab (tierPage x i))) 63 = true) : mapPage id x (s, 0) i = (s, 0x0306) := by
  unfold mapPage
  rw [if_neg (by simp)]
  simp only [h, hm, if_true]

variable (hm : bit (s.entry (entryKey tab (tierPage x i))) 63 = false)

theorem unmapPage_of_unmapped (l : List (Nat × Nat)) (hm : bit (s.entry (entryKey tab (tierPage x i))) 63 = false) :
    unmapPage id x (s, 0, l) i = (s, 0, l) := by
  unfold unmapPage
  rw [if_neg (by simp)]
  simp only [h, hm, Bool.not_false, if_true]

theorem unmapPage_of_mapped (l : List (Nat × Nat)) (hm : bit (s.entry (entryKey tab (tierPage x i))) 63 = true) : ∃ m,
    unmapPage id x (s, 0, l) i =
      ((s.setEntry (entryKey tab (tierPage x i)) 0).dropSpoils tab (tierPage x i), 0, m) := by
  unfold unmapPage
  rw [if_neg (by simp)]
  simp only [h, hm, Bool.not_true, Bool.false_eq_true, if_false]
  exact ⟨_, rfl⟩

include hm

theorem mapPage_of_unbacked (hp : tierPlacement x = 0) : mapPage id x (s, 0) i =
    (s.setEntry (entryKey tab (tierPage x i)) (2 ^ 63 + 2 ^ 62 * b2n (tierWriteOk x)), 0) := by
  unfold mapPage
  rw [if_neg (by simp)]
  simp only [h, hm, hp, Bool.false_eq_true, if_false, if_true]
  rfl

theorem mapPage_of_backed (hp : tierPlacement x ≠ 0) (hq : s.quotaOk tab 32 = true) {t : State} {page : Nat}
    (ht : s.takePage ((tierRank x + i) % 75) = some (t, page)) : mapPage id x (s, 0) i =
    ((t.charge tab 32).setEntry (entryKey tab (tierPage x i))
      (2 ^ 63 + 2 ^ 62 * b2n (tierWriteOk x) + 2 ^ 61 + 2 ^ 57 + 2 ^ 50 * ((tierRank x + i) % 75) + page), 0) := by
  unfold mapPage
  rw [if_neg (by simp)]
  simp only [h, hm, hp, hq, ht, Bool.not_true, Bool.false_eq_true, if_false]
  rfl

end

/-! ### UNMAP_FREE and HEAT_DECAY -/

theorem State.freeAll_tiers (s : State) (f : PendingFree) :
    (s.freeAll f).tiers.frees = s.tiers.frees ∧ (s.freeAll f).tiers.entries = s.tiers.entries := by
  have hsame : ∀ u : State, ∀ p, ((u.freePage p).credit f.charge 32).tiers.frees = u.tiers.frees ∧
      ((u.freePage p).credit f.charge 32).tiers.entries = u.tiers.entries := fun _ _ => ⟨rfl, rfl⟩
  exact ⟨foldl_same (fun u : State => u.tiers.frees) _ _ _ fun u p => (hsame u p).1,
    foldl_same (fun u : State => u.tiers.entries) _ _ _ fun u p => (hsame u p).2⟩

/-- The counts of a table whose keys are distinct, halved, those that become zero left out. -/
theorem tget_halved (k : Nat) : ∀ t : Tab Nat, (t.map Prod.fst).Nodup →
    tget ((t.map fun p => (p.1, p.2 / 2)).filter fun p => p.2 != 0) k 0 = tget t k 0 / 2 := by
  intro t
  induction t with
  | nil => simp [tget]
  | cons e t ih =>
    intro hnodup
    obtain ⟨j, v⟩ := e
    simp only [List.map_cons, List.nodup_cons] at hnodup
    obtain ⟨hnot, hrest⟩ := hnodup
    have habsent : j = k → tget t k 0 = 0 := fun hj => tget_none t k 0 fun p hp hpk => hnot (hj ▸ hpk ▸ List.mem_map_of_mem hp)
    rw [List.map_cons, List.filter_cons]
    by_cases hj : j = k
    · split
      · simp [tget, hj]
      · next hz =>
        have hz0 : v / 2 = 0 := by simpa using hz
        rw [ih hrest, habsent hj]
        simp [tget, hj, hz0]
    · split
      · simpa [tget, hj] using ih hrest
      · simpa [tget, hj] using ih hrest

/-- Settles O34: a page by its entry, a free by `State.freeAll_tiers`, the decay by induction over the counters. -/
theorem tierUnitsKeepCount : Obligations.TierUnitsKeepCount := by
  unfold Obligations.TierUnitsKeepCount
  refine ⟨fun s id x => ⟨fun p l h => fillRow_spec h, ?_, fun i h => ⟨mapPage_of_outside h, unmapPage_of_outside h⟩⟩,
    fun s cx => ⟨_, _, rfl, rfl, rfl, ?_, fun k => ?_⟩, fun s h => ⟨_, rfl, rfl, fun k => tget_halved k _ h⟩⟩
  · intro i tab h k
    refine ⟨fun hm => mapPage_of_mapped h hm, fun hm hp => ?_, fun hm hp hq t page ht => ?_, fun l => ?_⟩
    · rw [mapPage_of_unbacked h hm hp]
      exact ⟨rfl, State.entry_setEntry_same .., fun j hj => State.entry_setEntry_other _ _ _ _ hj⟩
    · rw [mapPage_of_backed h hm hp hq ht]
      exact ⟨rfl, State.entry_setEntry_same ..⟩
    · cases hm : bit (s.entry k) 63 with
      | false =>
        rw [unmapPage_of_unmapped h l hm]
        exact ⟨rfl, fun hc => absurd hc (by decide), fun _ _ => rfl⟩
      | true =>
        obtain ⟨m, hrow⟩ := unmapPage_of_mapped h l hm
        rw [hrow]
        exact ⟨rfl, fun _ => State.entry_setEntry_same s k 0, fun j hj => State.entry_setEntry_other s k 0 j hj⟩
  · exact foldl_same (fun u : State => u.tiers.frees) _ _ _ fun u f => (State.freeAll_tiers u f).1
  · exact foldl_same (fun u : State => u.entry k) _ State.freeAll _ fun u f =>
      congrArg (fun t => tget t k 0) (State.freeAll_tiers u f).2

end Sys2Proof.Machine

end

section

/-! Sequences and their pages (chapter 7): O36 and O37. -/

namespace Sys2Proof.Machine

open Sys2Proof Sys2Proof.Safety

/-! ### A sequence's entries -/

section

variable (s : State) (q i number n : Nat)

theorem State.seq_setKvEntry (v m : Nat) : (s.setKvEntry q i v).seq m = s.seq m := rfl

theorem State.seq_pushShare (f : Nat) (a b : Int) (m : Nat) : (s.pushShare f a b).seq m = s.seq m := rfl

/-- An entry that is reclaimed changes its sequence's list and frames alone. -/
theorem State.seq_reclaimEntry : (s.reclaimEntry q i).seq q =
    { s.seq q with reclaim := (s.seq q).reclaim.erase i, frames := (s.seq q).frames - 1 } := State.seq_setSeq_same ..

/-- An entry that has become freeing and waits to be reclaimed. -/
def State.freeing : State :=
  let e := s.kvEntry q i
  let t := (s.pushShare (kvFrame e) (-1) 1).setKvEntry q i (e + 2 ^ 61 + 2 ^ 21 * number)
  let sq := t.seq q
  t.setSeq q { sq with reclaim := sq.reclaim ++ [i] }

theorem State.freeEntry_eq : s.freeEntry q i number =
    if !kvValid (s.kvEntry q i) || kvFreeing (s.kvEntry q i) then s
    else if (s.freeing q i number).seqLow q = number then (s.freeing q i number).reclaimEntry q i else s.freeing q i number := rfl

theorem State.seq_freeing : (s.freeing q i number).seq q = { s.seq q with reclaim := (s.seq q).reclaim ++ [i] } := by
  unfold State.freeing
  rw [State.seq_setSeq_same, State.seq_setKvEntry, State.seq_pushShare]

theorem State.enabled_freeEntry : ((s.freeEntry q i number).seq q).enabled = (s.seq q).enabled := by
  rw [State.freeEntry_eq]
  split
  · rfl
  · split
    · rw [State.seq_reclaimEntry, State.seq_freeing]
    · rw [State.seq_freeing]

theorem State.settleSeq_of_due (h : (s.seq q).disabling = true) (hr : (s.seq q).reclaim = []) : s.settleSeq q =
    (s.setSeq q { s.seq q with enabled := false, disabling := false, later := none }).setReg (seqBase q)
      ((s.seq q).later.getD (setFld (s.reg (seqBase q)) 0 0 0)) := by
  unfold State.settleSeq
  dsimp only
  rw [if_pos (by simp [h, hr])]

theorem State.settleSeq_of_waits (h : (s.seq q).reclaim ≠ []) : s.settleSeq q = s := by
  unfold State.settleSeq
  dsimp only
  rw [if_neg (by simp [h])]

end

/-! ### SQ_CTRL (O36) -/

/-- An enabled sequence that is disabled takes its register once none of its entries waits to be reclaimed. -/
theorem State.disableSeq_spec {s : State} {q word : Nat} (h : (s.seq q).enabled = true) :
    (((s.disableSeq q (some word)).seq q).reclaim = [] → ((s.disableSeq q (some word)).seq q).enabled = false ∧
      (s.disableSeq q (some word)).reg (seqBase q) = word) ∧
    (((s.disableSeq q (some word)).seq q).reclaim ≠ [] → ((s.disableSeq q (some word)).seq q).enabled = true ∧
      ((s.disableSeq q (some word)).seq q).disabling = true ∧ ((s.disableSeq q (some word)).seq q).later = some word) := by
  have hen : ((iter (s.seqLayers q * s.seqPages q) (fun i u => u.freeEntry q i (s.seq q).issue) s).seq q).enabled = true :=
    (iter_same (fun u : State => (u.seq q).enabled) _ _ s fun i u => State.enabled_freeEntry u q i _).trans h
  unfold State.disableSeq
  dsimp only
  generalize iter _ _ s = t at hen
  rw [if_pos hen]
  set u := t.setSeq q { t.seq q with disabling := true, later := some word } with hu
  have huq : u.seq q = { t.seq q with disabling := true, later := some word } := State.seq_setSeq_same ..
  by_cases hr : (u.seq q).reclaim = []
  · rw [State.settleSeq_of_due u q (by rw [huq]) hr]
    refine ⟨fun _ => ⟨?_, ?_⟩, fun hne => absurd ?_ hne⟩
    · exact congrArg Sequence.enabled (State.seq_setSeq_same u q _)
    · rw [State.reg_setReg_same, huq]
      rfl
    · exact (congrArg Sequence.reclaim (State.seq_setSeq_same u q _)).trans hr
  · rw [State.settleSeq_of_waits u q hr]
    refine ⟨fun he => absurd he hr, fun _ => ?_⟩
    rw [huq]
    exact ⟨hen, rfl, rfl⟩

section

variable {s : State} {w : Writer} {q : Fin 8} {v : Word}

/-- The word that a write of SQ_CTRL leaves in the register. -/
def State.seqWord (s : State) (q : Nat) (v : Word) : Nat :=
  s.clampReg (seqBase q) (v.toNat % 65536 - v.toNat % 16 + v.toNat % 4)

theorem exec_sequenceEnable_of_clear (hv : flag v 0 = false) : exec (.sequenceEnable w q v) s = .next s :=
  congrArg Host.Outcome.next (if_neg (by simp [hv]))

theorem exec_sequenceDisable_of_set (hv : flag v 0 = true) : exec (.sequenceDisable w q v) s = .next s :=
  congrArg Host.Outcome.next (if_pos hv)

variable (h : permits s w (seqBase q) v.toNat = true)

include h

theorem exec_sequenceEnable (hv : flag v 0 = true) : exec (.sequenceEnable w q v) s = .next (
    if ((s.seq q).pinned.isEmpty && !(s.seq q).disabling) = true then s.enableSeq q v.toNat else s.cfgErr w 1 (seqBase q)) := by
  show execSequenceEnable w q v s = _
  unfold execSequenceEnable
  rw [if_pos hv, State.guarded_of_permits h]
  rfl

theorem exec_sequenceDisable (hv : flag v 0 = false) : exec (.sequenceDisable w q v) s = .next (
    if (s.seq q).pinned.isEmpty = true then
      if (s.seq q).enabled then s.disableSeq q (some (s.seqWord q v)) else s.setReg (seqBase q) (s.seqWord q v)
    else s.cfgErr w 1 (seqBase q)) := by
  show execSequenceDisable w q v s = _
  unfold execSequenceDisable
  rw [if_neg (by simp [hv]), State.guarded_of_permits h]
  rfl

end

section

variable {s : State} {q v : Nat}

/-- SQ_CTRL as a write of it leaves the registers. -/
def State.seqWritten (s : State) (q v : Nat) : State := s.setReg (seqBase q) (s.clampReg (seqBase q) (v % 65536 - v % 16 + v % 4))

theorem State.enableSeq_of_enabled (he : (s.seq q).enabled = true) :
    s.enableSeq q v = if (s.seqWritten q v).regionBad q then s else s.seqWritten q v := if_pos he

theorem State.enableSeq_of_fit (he : (s.seq q).enabled = false) (hr : (s.seqWritten q v).regionBad q = false) : s.enableSeq q v =
    (s.seqWritten q v).setSeq q { s.seq q with enabled := true, disabling := false, copies := 0 } := by
  unfold State.enableSeq
  dsimp only
  rw [if_neg (by simp [he])]
  exact if_neg (by unfold State.seqWritten at hr; simp [hr])

theorem State.enableSeq_of_misfit (he : (s.seq q).enabled = false) (hr : (s.seqWritten q v).regionBad q = true) : s.enableSeq q v =
    (s.seqWritten q v).setReg (seqBase q) (setFld ((s.seqWritten q v).reg (seqBase q)) 0 0 0) := by
  unfold State.enableSeq
  dsimp only
  rw [if_neg (by simp [he])]
  exact if_pos hr

end

/-- Settles O36: an enable by whether the region fits, a disable by what is left to reclaim. -/
theorem sequencesEnableAndDisable : Obligations.SequencesEnableAndDisable := by
  unfold Obligations.SequencesEnableAndDisable
  intro s w q v h word t
  refine ⟨fun hv hp hd => ?_, fun hbusy hv => ?_, fun hp hv => ?_, fun hv hp => ⟨fun he => ?_, fun he => ?_⟩,
    exec_sequenceEnable_of_clear, exec_sequenceDisable_of_set⟩
  · rw [exec_sequenceEnable h hv, if_pos (by simp [hp, hd])]
    refine ⟨fun he hr => ?_, fun he hr => ⟨_, congrArg Host.Outcome.next (State.enableSeq_of_misfit he hr), he, ?_, fun k hk => ?_⟩,
      fun he => ?_⟩
    · rw [State.enableSeq_of_fit he hr]
      rfl
    · rw [State.reg_setReg_same]
      exact bit_setFld_single _ 0 0 false
    · rw [State.reg_setReg_other _ _ _ _ hk, State.seqWritten, State.reg_setReg_other _ _ _ _ hk]
    · rw [State.enableSeq_of_enabled he]
      rfl
  · rw [exec_sequenceEnable h hv, if_neg]
    rcases hbusy with hp | hd
    · simp [hp]
    · simp [hd]
  · rw [exec_sequenceDisable h hv, if_neg (by simpa using hp)]
  · rw [exec_sequenceDisable h hv, if_pos (by simp [hp]), if_neg (by simp [he])]
    rfl
  · rw [exec_sequenceDisable h hv, if_pos (by simp [hp]), if_pos he]
    obtain ⟨hdone, hwaits⟩ := State.disableSeq_spec (word := s.seqWord q v) he
    exact ⟨_, rfl, hdone, hwaits⟩

/-! ### Shares and frees (O37) -/

section

variable {s : State} {cx : Fin 16} {c : Cmd}

theorem shareWork_of_stranger {t : State} {id : CmdId}
    (h : t.cxPort (t.seqCx (pageSrcSeq c.desc)) ≠ t.cxPort id.cx) : shareWork t id c = t.finish id 0x0337 0 := by
  unfold shareWork
  rw [if_pos h]

theorem shareWork_of_pages {t u : State} {id : CmdId} {st : Nat} (h : t.cxPort (t.seqCx (pageSrcSeq c.desc)) = t.cxPort id.cx)
    (hp : (pageList c.desc).foldl (sharePage c.desc) (t, 0) = (u, st)) : shareWork t id c = u.finish id st 0 := by
  unfold shareWork
  rw [if_neg (not_not_intro h), hp]

theorem exec_share_of_issues (h : issues s cx 0 (wantPage 2) (pagePins s c) c = true) :
    exec (.share cx) s = .next (shareWork (s.markIssued ⟨cx, 0, c.index⟩ (pagePins s c)) ⟨cx, 0, c.index⟩ c) :=
  congrArg Host.Outcome.next (State.issueHead_of_issues h shareWork)

theorem exec_pageFree_of_works {b u : State} {n : Nat} (h : works s b cx 0 (wantPage 1) (pagePins s c) c)
    (hfree : freePages (pageSeq c.desc) (b.issueOf ⟨cx, 0, c.index⟩ (pageSeq c.desc)) ((pageList c.desc).drop c.progress) c.desc
      (b, c.progress) = (u, n)) :
    exec (.pageFree cx) s = .next (if n < (pageList c.desc).length then u.modCmd ⟨cx, 0, c.index⟩ fun d => { d with progress := n }
      else u.finish ⟨cx, 0, c.index⟩ 0 0) := by
  obtain ⟨d, hdesc, -, hprogress, hrun⟩ := State.issueOrRun_of_works (pinsOf := pagePins) h freeWork
  refine congrArg Host.Outcome.next (hrun.trans ?_)
  unfold freeWork
  rw [hdesc, hprogress]
  dsimp only
  rw [hfree]

theorem State.drainShares_of_nil (h : s.kv.updates = []) : s.drainShares = s := by
  unfold State.drainShares
  rw [h, List.foldl_nil, ← h]

end

section

variable {s : State} {d : Line} {p : Nat × Nat} {i j : Nat} (hu : s.kv.updates = [])
  (hi : s.pageIndex (pageSeq d) (pageLayer d + p.1) (pageFirst d + p.2) = some i)
  (hj : s.pageIndex (pageSrcSeq d) (pageSrcLayer d + p.1) (pageSrcPage d + p.2) = some j)
  (hnew : kvValid (s.kvEntry (pageSeq d) i) = false) (hsrc : kvValid (s.kvEntry (pageSrcSeq d) j) = true)
  (hlive : kvFreeing (s.kvEntry (pageSrcSeq d) j) = false)
  (hmap : (s.shareOf (kvFrame (s.kvEntry (pageSrcSeq d) j))).map ≠ 0xFFFF)
  (hq : s.quotaOk (s.seqCx (pageSeq d)) s.frameUnits = true)

include hu hi hj hnew hsrc hlive hmap hq

theorem sharePage_of_sound : ∃ t : State, sharePage d (s, 0) p =
      ((t.setKvEntry (pageSeq d) i (kvWord (pageWrite d) (kvFrame (s.kvEntry (pageSrcSeq d) j)))).setSeq (pageSeq d)
        { t.seq (pageSeq d) with frames := (t.seq (pageSeq d)).frames + 1 }, 0) ∧
    t.kv = { s.kv with updates := [⟨kvFrame (s.kvEntry (pageSrcSeq d) j), 1, 0⟩] } := by
  refine ⟨(s.charge (s.seqCx (pageSeq d)) s.frameUnits).pushShare (kvFrame (s.kvEntry (pageSrcSeq d) j)) 1 0, ?_, ?_⟩
  · unfold sharePage
    rw [if_neg (by simp)]
    dsimp only
    rw [State.drainShares_of_nil hu]
    simp only [hi, hj, hnew, Option.map_some, Option.getD_some, hsrc, hlive, hmap, hq, Bool.not_true, Bool.or_self, Bool.false_eq_true,
      if_false]
  · unfold State.pushShare State.charge State.setUsed
    simp only [hu, List.nil_append]

theorem sharePage_spec : let u := (sharePage d (s, 0) p).1
    (sharePage d (s, 0) p).2 = 0 ∧
    u.kvEntry (pageSeq d) i = kvWord (pageWrite d) (kvFrame (s.kvEntry (pageSrcSeq d) j)) ∧
    (∀ k, k ≠ kvKey (pageSeq d) i → tget u.kv.table k 0 = tget s.kv.table k 0) ∧
    (u.seq (pageSeq d)).frames = (s.seq (pageSeq d)).frames + 1 ∧
    u.kv.updates = [⟨kvFrame (s.kvEntry (pageSrcSeq d) j), 1, 0⟩] := by
  obtain ⟨t, hpage, hkv⟩ := sharePage_of_sound hu hi hj hnew hsrc hlive hmap hq
  have hseq : t.seq (pageSeq d) = s.seq (pageSeq d) := by
    unfold State.seq
    rw [hkv]
  rw [hpage]
  refine ⟨rfl, tget_tput_same .., fun k hk => ?_, ?_, ?_⟩
  · refine (tget_tput_other _ _ _ _ _ _ hk).trans ?_
    rw [hkv]
  · refine (congrArg Sequence.frames (State.seq_setSeq_same _ _ _)).trans ?_
    rw [hseq]
  · exact congrArg (fun m => m.updates) hkv

end

/-! ### RECLAIM and SHARE_COUNT_UPDATE -/

section

variable (s : State) (q i : Nat)

theorem State.settleSeq_spec : (s.settleSeq q).kv.table = s.kv.table ∧ (s.settleSeq q).kv.updates = s.kv.updates ∧
    ((s.settleSeq q).seq q).reclaim = (s.seq q).reclaim ∧ ((s.settleSeq q).seq q).frames = (s.seq q).frames := by
  unfold State.settleSeq
  dsimp only
  split
  · refine ⟨rfl, rfl, ?_, ?_⟩
    · exact (congrArg Sequence.reclaim (State.seq_setSeq_same s q { s.seq q with enabled := false, disabling := false, later := none })).trans rfl
    · exact (congrArg Sequence.frames (State.seq_setSeq_same s q { s.seq q with enabled := false, disabling := false, later := none })).trans rfl
  · exact ⟨rfl, rfl, rfl, rfl⟩

theorem reclaimed_spec : let t := (s.reclaimEntry q i).settleSeq q
    t.kvEntry q i = 0 ∧ (t.seq q).reclaim = (s.seq q).reclaim.erase i ∧ (t.seq q).frames = (s.seq q).frames - 1 ∧
    t.kv.updates = s.kv.updates ++ [⟨kvFrame (s.kvEntry q i), 0, -1⟩] ∧
    ∀ k, k ≠ kvKey q i → tget t.kv.table k 0 = tget s.kv.table k 0 := by
  obtain ⟨htable, hupdates, hreclaim, hframes⟩ := State.settleSeq_spec (s.reclaimEntry q i) q
  have hcleared : (s.reclaimEntry q i).kv.table = tput s.kv.table (kvKey q i) 0 0 := rfl
  refine ⟨?_, ?_, ?_, hupdates, fun k hk => ?_⟩
  · unfold State.kvEntry
    rw [htable, hcleared, tget_tput_same]
  · rw [hreclaim, State.seq_reclaimEntry]
  · rw [hframes, State.seq_reclaimEntry]
  · rw [htable, hcleared, tget_tput_other _ _ _ _ _ _ hk]

theorem takeFirst_append {α : Type} {p : α → Bool} {u : α} (hu : p u = true) (b : List α) :
    ∀ a : List α, (∀ v ∈ a, p v = false) → takeFirst p (a ++ u :: b) = some (u, a ++ b) := by
  intro a
  induction a with
  | nil => exact fun _ => if_pos hu
  | cons v a ih =>
    intro h
    rw [List.cons_append, takeFirst, if_neg (by simp [h v (by simp)]), ih fun w hw => h w (by simp [hw])]
    rfl

end

/-! ### What the end of a command leaves of the pages -/

/-- The page table, the copies on write under way and the counts of those done are as they were. -/
structure SamePages (s t : State) : Prop where
  table : t.kv.table = s.kv.table
  cows : t.kv.cows = s.kv.cows
  copies : ∀ n, (t.seq n).copies = (s.seq n).copies

namespace SamePages

theorem of_kv {s t : State} (h : t.kv = s.kv) : SamePages s t :=
  ⟨by rw [h], by rw [h], fun n => by rw [State.seq, h, State.seq]⟩

theorem trans {s t u : State} (h : SamePages s t) (g : SamePages t u) : SamePages s u :=
  ⟨g.table.trans h.table, g.cows.trans h.cows, fun n => (g.copies n).trans (h.copies n)⟩

theorem foldl {α : Type} {f : State → α → State} (hf : ∀ t a, SamePages t (f t a)) (l : List α) (s : State) :
    SamePages s (l.foldl f s) := by
  induction l generalizing s with
  | nil => exact of_kv rfl
  | cons a l ih => exact (hf s a).trans (ih (f s a))

end SamePages

theorem State.faultCx_kv (s : State) (cx st : Nat) : (s.faultCx cx st).kv = s.kv :=
  (State.faultCx_keeps (P := [.hosts, .regs]) s cx st (Keeps.refl s) (by decide) (by decide)).parts .kv (by decide)

theorem State.unpin_samePages (s : State) (p : Nat × Nat) :
    SamePages s (s.setSeq p.1 { s.seq p.1 with pinned := (s.seq p.1).pinned.erase p.2 }) := by
  refine ⟨rfl, rfl, fun n => ?_⟩
  rcases eq_or_ne n p.1 with rfl | hn
  · rw [State.seq_setSeq_same]
  · rw [State.seq_setSeq_other _ _ _ _ hn]

theorem State.writeRecord_samePages (s : State) (cx r : Nat) (c : Cmd) : SamePages s (s.writeRecord cx r c) := by
  have hrec : SamePages s (s.recorded cx r c) := by
    refine SamePages.trans ?_ (SamePages.foldl State.unpin_samePages c.pins _)
    exact .of_kv rfl
  rw [State.writeRecord_eq]
  split
  · refine hrec.trans (.of_kv ?_)
    rw [(State.interrupt_logged _ _ _).rest]
    exact State.faultCx_kv ..
  · exact hrec

theorem State.flush_samePages (cx r n : Nat) (s : State) : SamePages s (State.flush cx r n s) := by
  induction n generalizing s with
  | zero => exact .of_kv rfl
  | succ n ih =>
    unfold State.flush
    split
    · exact .of_kv rfl
    · split
      · exact (State.writeRecord_samePages s cx r _).trans (ih _)
      · exact .of_kv rfl

theorem State.finish_samePages (s : State) (id : CmdId) (status result : Nat) : SamePages s (s.finish id status result) := by
  unfold State.finish
  dsimp only
  generalize hu : s.modCmd id _ = u
  have hkv : u.kv = s.kv := by
    rw [← hu]
    rfl
  refine SamePages.trans (.of_kv hkv) (SamePages.trans (State.flush_samePages id.cx id.ring (u.ring id.cx id.ring).cmds.length u) ?_)
  split
  · exact .of_kv (State.faultCx_kv ..)
  · exact .of_kv rfl

theorem State.storeHavoc_kv (s : State) (k n : Nat) : (s.storeHavoc k n).kv = s.kv :=
  (State.storeHavoc_keeps (P := [.memory, .draws]) s k n (Keeps.refl s) (by decide) (by decide)).parts .kv (by decide)

theorem State.havocPiece_kv (s : State) (id : CmdId) (va n : Nat) : (s.havocPiece id va n).kv = s.kv := by
  unfold State.havocPiece
  split
  · rfl
  · dsimp only
    split
    · exact State.storeHavoc_kv ..
    · rfl
  · dsimp only
    split
    · exact State.storeHavoc_kv ..
    · rfl

theorem State.cvaHavoc_kv (s : State) (id : CmdId) (va n : Nat) : (s.cvaHavoc id va n).kv = s.kv := by
  refine foldl_same (fun u : State => u.kv) _ _ _ fun u p => ?_
  split
  · rfl
  · exact State.havocPiece_kv ..

theorem State.endMessage_kv (s : State) (cx gi : Nat) (m : Message) (status : Nat) (named : Bool) :
    (s.endMessage cx gi m status named).kv = s.kv := by
  have hspoil : (s.spoilError m status).kv = s.kv := by
    unfold State.spoilError
    split
    · rfl
    · split
      · rfl
      · exact State.cvaHavoc_kv ..
  exact hspoil

theorem State.checkWork_samePages (s : State) (id : CmdId) : SamePages s (s.checkWork id) := by
  unfold State.checkWork
  split
  · dsimp only
    split
    · exact State.finish_samePages ..
    · exact .of_kv rfl
  · exact .of_kv rfl

theorem State.workDone_samePages (s : State) (id : CmdId) : SamePages s (s.workDone id) := by
  unfold State.workDone
  split
  · split
    · exact SamePages.trans (.of_kv (State.endMessage_kv ..)) (State.finish_samePages ..)
    · exact .of_kv rfl
  · exact State.checkWork_samePages ..

theorem State.donesGo_kv (s : State) (cx : Nat) : (s.donesGo cx).kv = s.kv :=
  (State.donesGo_keeps (P := [.links, .regs]) s cx (Keeps.refl s) (by decide) (by decide)).parts .kv (by decide)

/-! ### COW_COPY_DONE -/

section

variable (s : State) (q page : Nat) (c : Cow)

/-- The frame copied, with the reads that this took. -/
def State.frameCopied : State :=
  (iter s.frameUnits (fun i u => u.noteStack c.cmd.cx true (frameKey c.src (65536 * i)) 65536) s).copyFrame c.src c.dst

theorem State.frameCopied_kv : (s.frameCopied c).kv = s.kv := by
  have hread : (iter s.frameUnits (fun i u => u.noteStack c.cmd.cx true (frameKey c.src (65536 * i)) 65536) s).kv = s.kv :=
    iter_same (fun u : State => u.kv) _ _ _ fun i u =>
      (State.noteStack_keeps (P := [.tiers]) u _ _ _ _ (Keeps.refl u) (by decide)).parts .kv (by decide)
  exact ((State.copyFrame_keeps (P := [.memory]) _ c.src c.dst (Keeps.refl _) (by decide)).parts .kv (by decide)).trans hread

/-- The copy entered: the entry names the new frame, the old one has a hold less, and the copy is no longer under way. -/
def State.cowNoted (t : State) (q page acc units : Nat) (c : Cow) : State :=
  let t := (t.setKvEntry q page (kvWord true c.dst)).modCmd c.cmd fun d =>
    { d with frames := d.frames.filter fun p => p.1 != kvKey q page }
  let t := (t.pushShare c.src 0 (-1)).credit acc units
  let sq := t.seq q
  let t := t.setSeq q { sq with copies := wrap32 (sq.copies + 1), frames := sq.frames - 1 }
  { t with kv := { t.kv with cows := t.kv.cows.filter fun x => x != c } }

theorem State.cowNoted_kv (acc units : Nat) : (s.cowNoted q page acc units c).kv = { s.kv with
    table := tput s.kv.table (kvKey q page) (kvWord true c.dst) 0
    updates := s.kv.updates ++ [⟨c.src, 0, -1⟩]
    seqs := tput s.kv.seqs q { s.seq q with copies := wrap32 ((s.seq q).copies + 1), frames := (s.seq q).frames - 1 } Sequence.empty
    cows := s.kv.cows.filter fun x => x != c } := rfl

/-- The state in which the held writes have landed in the new frame. -/
def State.cowEntered : State :=
  c.bytes.foldl (fun u p => u.stackWrite c.cmd (frameKey c.dst p.1) [p.2])
    ((s.frameCopied c).cowNoted q page (s.seqCx q) s.frameUnits c)

theorem State.stackWrite_kv (id : CmdId) (k : Nat) (l : Marked) : (s.stackWrite id k l).kv = s.kv :=
  (State.stackWrite_keeps (P := [.memory, .tiers]) s id k l (Keeps.refl s) (by decide) (by decide)).parts .kv (by decide)

theorem State.cowEntered_kv : (s.cowEntered q page c).kv = { s.kv with
    table := tput s.kv.table (kvKey q page) (kvWord true c.dst) 0
    updates := s.kv.updates ++ [⟨c.src, 0, -1⟩]
    seqs := tput s.kv.seqs q { s.seq q with copies := wrap32 ((s.seq q).copies + 1), frames := (s.seq q).frames - 1 } Sequence.empty
    cows := s.kv.cows.filter fun x => x != c } := by
  have hseq : (s.frameCopied c).seq q = s.seq q := by rw [State.seq, State.frameCopied_kv, State.seq]
  have hbytes := foldl_same (fun u : State => u.kv) c.bytes (fun u p => u.stackWrite c.cmd (frameKey c.dst p.1) [p.2])
    ((s.frameCopied c).cowNoted q page (s.seqCx q) s.frameUnits c) fun u p => State.stackWrite_kv ..
  refine hbytes.trans ?_
  rw [State.cowNoted_kv, hseq, State.frameCopied_kv]

end

theorem exec_cowCopyDone_of_due {s : State} {q : Fin 8} {page : Nat} {c : Cow} (h : s.cowOn q page = some c) :
    exec (.cowCopyDone q page) s = .next (if c.cmd.ring = 4 then (s.cowEntered q page c).donesGo c.cmd.cx
      else (s.cowEntered q page c).workDone c.cmd) := by
  show execCowCopyDone q page s = _
  unfold execCowCopyDone
  rw [h]
  rfl

/-- Settles O37: a page by its entry, a copy on write by what the end of its command leaves of the pages. -/
theorem pagesAreSharedAndFreed : Obligations.PagesAreSharedAndFreed := by
  unfold Obligations.PagesAreSharedAndFreed
  refine ⟨fun s cx c => ?_, fun s d p i j hu hi hj hnew hsrc hlive hmap hq => sharePage_spec hu hi hj hnew hsrc hlive hmap hq,
    fun s q => ⟨fun i hi => ⟨_, ?_, reclaimed_spec s q i⟩, fun h => ?_⟩, fun s rank a b u hs ha hrank => ?_,
    fun s q page c h => ?_⟩
  · intro id t
    refine ⟨fun h => ⟨fun hp => ?_, fun hp u st hu => ?_⟩, fun b h u n hu => ⟨fun hn => ?_, fun hn => ?_⟩⟩
    · rw [exec_share_of_issues h, shareWork_of_stranger hp]
    · rw [exec_share_of_issues h, shareWork_of_pages hp hu]
    · rw [exec_pageFree_of_works h hu, if_neg (by omega)]
    · rw [exec_pageFree_of_works h hu, if_pos hn]
  · show execReclaim q s = _
    simp only [execReclaim, hi]
  · have hnone : (s.seq q).reclaim.find? (fun i => !before (s.seqLow q) (kvFree (s.kvEntry q i))) = none :=
      List.find?_eq_none.mpr fun i hi => by simp [h i hi]
    show execReclaim q s = _
    simp only [execReclaim, hnone]
  · have htake := takeFirst_append (p := fun u : ShareUpdate => u.frame % 75 == rank.val) (by simpa using hrank) b a
      fun v hv => by simpa using ha v hv
    refine ⟨({ s with kv := { s.kv with updates := a ++ b } } : State).applyShare u, ?_, rfl, fun f => ?_⟩
    · show execShareCountUpdate rank s = _
      unfold execShareCountUpdate
      rw [hs, htake]
    · split
      · next hf =>
        subst hf
        exact State.shareOf_setShare_same ..
      · next hf => exact State.shareOf_setShare_other _ _ _ _ hf
  · have hlast : ∃ t, exec (.cowCopyDone q page) s = .next t ∧ SamePages (s.cowEntered q page c) t := by
      refine ⟨_, exec_cowCopyDone_of_due h, ?_⟩
      split
      · exact .of_kv (State.donesGo_kv ..)
      · exact State.workDone_samePages ..
    obtain ⟨t, hrow, hsame⟩ := hlast
    have hkv := State.cowEntered_kv s q page c
    refine ⟨t, hrow, ?_, ?_, ?_, fun k hk => ?_⟩
    · rw [State.kvEntry, hsame.table, hkv, tget_tput_same]
    · rw [hsame.copies, State.seq, hkv, tget_tput_same]
    · rw [hsame.cows, hkv]
      simp
    · rw [hsame.table, hkv, tget_tput_other _ _ _ _ _ _ hk]

end Sys2Proof.Machine

end

section

/-! Attention commands (chapter 7): O38. -/

namespace Sys2Proof.Machine

open Sys2Proof Sys2Proof.Safety

/-! ### The issue of an attention command -/

section

variable {s : State} {cx : Fin 16} {c : Cmd}

theorem exec_attention_of_issues (h : issues s cx 0 (fun d => wantKind 0x04 d && s.attnFree d) (attnPins cx s c) c = true) :
    exec (.attention cx) s = .next (attnWork (s.markIssued ⟨cx, 0, c.index⟩ (attnPins cx s c)) ⟨cx, 0, c.index⟩ c) :=
  congrArg Host.Outcome.next (State.issueHead_of_issues h attnWork)

section

variable {t : State} {id : CmdId}

theorem attnWork_of_blocks (h : atMaxBlocks c.ext < t.shape id.cx (atBlocks c.ext)) : attnWork t id c = t.finish id 0x0263 0 := by
  unfold attnWork
  dsimp only
  rw [if_pos h]

variable (h : t.shape id.cx (atBlocks c.ext) ≤ atMaxBlocks c.ext)

include h

theorem attnWork_of_layer (hq : ∃ q ∈ atSeqs c.ext, t.seqLayers q ≠ 1 ∧ t.seqLayers q ≤ atLayer c.ext) :
    attnWork t id c = t.finish id 0x0265 0 := by
  obtain ⟨q, hmem, h1, hle⟩ := hq
  unfold attnWork
  dsimp only
  rw [if_neg (Nat.not_lt.mpr h), if_pos (List.any_eq_true.mpr ⟨q, hmem, by simp [h1, hle]⟩)]

/-- The scratch lines of the ranks that hold claims made undefined, and the claims entered. -/
def State.claimsEntered (t : State) (id : CmdId) (x : Line) : State :=
  let qb := t.shape id.cx (atBlocks x)
  let n := qb * atHeads x
  let lens := (List.range 8).map fun q => t.reg (seqBase q + 0x18)
  let claims := (List.range n).map fun k => (⟨id, k, qb, lens, false, [], false⟩ : AttnClaim)
  let u := (List.range 75).foldl (fun u r =>
    if (claimRange n r).2 = (claimRange n r).1 then u
    else u.infHavoc r (atScratch x * 128) (atScratchLines x * 128)) t
  { u with attn := { u.attn with claims := u.attn.claims ++ claims } }

theorem attnWork_of_sound (hq : ∀ q ∈ atSeqs c.ext, t.seqLayers q = 1 ∨ atLayer c.ext < t.seqLayers q) : attnWork t id c =
    if t.shape id.cx (atBlocks c.ext) * atHeads c.ext = 0 then
      (t.claimsEntered id c.ext).modCmd id fun d => { d with worked := true }
    else (t.claimsEntered id c.ext).attnCounters id.cx (atCounter c.ext) (t.shape id.cx (atBlocks c.ext) * atHeads c.ext) := by
  have hany : ((atSeqs c.ext).any fun q => t.seqLayers q != 1 && decide (t.seqLayers q ≤ atLayer c.ext)) = false := by
    rw [List.any_eq_false]
    intro q hmem
    rcases hq q hmem with h1 | hlt
    · simp [h1]
    · simp [Nat.not_le.mpr hlt]
  unfold attnWork
  dsimp only
  rw [if_neg (Nat.not_lt.mpr h), if_neg (by simp [hany])]
  rfl

end

end

section

variable (t : State) (id : CmdId) (x : Line)

theorem State.claimsEntered_spec : (t.claimsEntered id x).tiles = t.tiles ∧ (t.claimsEntered id x).attn = { t.attn with
    claims := t.attn.claims ++ (List.range (t.shape id.cx (atBlocks x) * atHeads x)).map fun k =>
      ⟨id, k, t.shape id.cx (atBlocks x), (List.range 8).map fun q => t.reg (seqBase q + 0x18), false, [], false⟩ } := by
  have hhavoc : ∀ (u : State) (r : Nat), (if (claimRange (t.shape id.cx (atBlocks x) * atHeads x) r).2 =
        (claimRange (t.shape id.cx (atBlocks x) * atHeads x) r).1 then u
      else u.infHavoc r (atScratch x * 128) (atScratchLines x * 128)).tiles = u.tiles ∧
    (if (claimRange (t.shape id.cx (atBlocks x) * atHeads x) r).2 = (claimRange (t.shape id.cx (atBlocks x) * atHeads x) r).1 then u
      else u.infHavoc r (atScratch x * 128) (atScratchLines x * 128)).attn = u.attn := by
    intro u r
    have hkeep := State.infHavoc_keeps (P := [.memory, .draws]) u r (atScratch x * 128) (atScratchLines x * 128) (Keeps.refl u)
      (by decide) (by decide)
    split
    · exact ⟨rfl, rfl⟩
    · exact ⟨hkeep.parts .tiles (by decide), hkeep.parts .attn (by decide)⟩
  unfold State.claimsEntered
  refine ⟨foldl_same (fun u : State => u.tiles) _ _ _ fun u r => (hhavoc u r).1, ?_⟩
  dsimp only
  rw [foldl_same (fun u : State => u.attn) _ _ _ fun u r => (hhavoc u r).2]

theorem State.claimsEntered_of_none (h : t.shape id.cx (atBlocks x) * atHeads x = 0) : t.claimsEntered id x = t := by
  unfold State.claimsEntered
  simp only [h, claimRange, Nat.zero_mul, Nat.zero_div, if_true, List.range_zero, List.map_nil, List.append_nil]
  rw [foldl_same (fun u : State => u) _ _ _ fun _ _ => rfl]

end

/-- The share of a rank in an attention command's claims, as its lap counter takes it. -/
def LapCounter.attend (l : LapCounter) (cx n r : Nat) : LapCounter :=
  { l with
    mode := if n * r / 75 < n * (r + 1) / 75 then .serving else .exhausted
    cx := cx, next := n * r / 75, stop := n * (r + 1) / 75, done := 0, retry := [], held := []
    handOut := 0, handIn := 0, returned := 0 }

theorem State.attnCounters_spec (s : State) (cx i n : Nat) : (∀ r, r < 75 → (s.attnCounters cx i n).lap r i = (s.lap r i).attend cx n r) ∧
    (s.attnCounters cx i n).attn = s.attn := by
  have hlap : ∀ m r, (iter m (fun r t => t.setLap r i ((t.lap r i).attend cx n r)) s).lap r i =
      if r < m then (s.lap r i).attend cx n r else s.lap r i := by
    intro m
    induction m with
    | zero => exact fun _ => rfl
    | succ m ih =>
      intro r
      rw [iter_succ]
      rcases eq_or_ne r m with rfl | hr
      · rw [State.lap_setLap_same, ih]
        simp
      · rw [State.lap_setLap_rank _ _ _ _ hr, ih]
        have : r < m + 1 ↔ r < m := by omega
        simp only [this]
  refine ⟨fun r hr => ?_, iter_same (fun u : State => u.attn) 75 _ s fun _ _ => rfl⟩
  exact (hlap 75 r).trans (if_pos hr)

/-! ### Claims -/

section

variable {s : State} {a : AttnClaim} {c : Cmd}

theorem State.attnTake_of_held (h : (s.lap (claimRank (attnCount c a) a.claim) (attnIndex c)).held.any (fun h => h.claim == a.claim) = true) :
    s.attnTake a c = some s := by
  unfold State.attnTake
  dsimp only
  rw [if_pos h]

section

variable (h : (s.lap (claimRank (attnCount c a) a.claim) (attnIndex c)).held.any (fun h => h.claim == a.claim) = false)

include h

theorem State.attnTake_of_noCore (hc : s.attnCore (claimRank (attnCount c a) a.claim) = none) : s.attnTake a c = none := by
  unfold State.attnTake
  dsimp only
  rw [if_neg (by simp [h]), hc]
  rfl

theorem State.attnTake_of_core {p : Nat × Nat × Nat} (hc : s.attnCore (claimRank (attnCount c a) a.claim) = some p) :
    ∃ u : State, s.attnTake a c = some u ∧
      (u.lap (claimRank (attnCount c a) a.claim) (attnIndex c)).held =
        (s.lap (claimRank (attnCount c a) a.claim) (attnIndex c)).held ++ [⟨a.claim, p.2.1, p.2.2⟩] ∧
      (u.lap (claimRank (attnCount c a) a.claim) (attnIndex c)).retry =
        (s.lap (claimRank (attnCount c a) a.claim) (attnIndex c)).retry.erase a.claim ∧
      u.memory = s.memory := by
  unfold State.attnTake
  dsimp only
  rw [if_neg (by simp [h]), hc, Option.map_some]
  refine ⟨_, rfl, ?_⟩
  split
  · rw [State.lap_setLap_same]
    exact ⟨rfl, rfl, rfl⟩
  · next hne =>
    rw [State.lap_setLap_rank _ _ _ _ (Ne.symm hne), State.lap_setLap_same]
    exact ⟨rfl, rfl, rfl⟩

end

end

/-! ### Spans -/

section

variable {s : State} {cx : Fin 16} {claim : Nat} {a : AttnClaim} {c : Cmd} (h : s.attnClaim cx claim = some (a, c))

include h

theorem exec_spanForm_of_untaken {span : Nat} (ht : s.attnTake a c = none) : exec (.spanForm cx claim span) s = .next s := by
  show execSpanForm cx claim span s = _
  unfold execSpanForm
  simp only [h, ht, ite_self]

section

variable (hholds : s.holds cx = true) (hm : a.merged = false) {span : Nat} (hf : a.formed.contains span = false)
  (hlt : span < s.spanCount c.ext a) {u : State} (ht : s.attnTake a c = some u)

/-- The span noted as formed. -/
def State.spanFormed (v : State) (a : AttnClaim) (claim span : Nat) : State :=
  v.modClaim a.cmd claim fun y => { y with formed := sput y.formed span }

include hholds hm hf hlt ht

theorem exec_spanForm_of_unmasked (hb : bit (atMask c.ext) (u.spanAt c.ext a span).1 = false) : exec (.spanForm cx claim span) s =
    .next ((u.modCmd a.cmd fun d => { d with status := if d.status = 0 then 0x0262 else d.status }).spanFormed a claim span) := by
  show execSpanForm cx claim span s = _
  unfold execSpanForm
  simp only [h, ht, hholds, hm, hf, hb, Nat.not_le.mpr hlt, decide_false, Bool.not_true, Bool.not_false, Bool.or_self,
    Bool.false_eq_true, if_false, if_true]
  rfl

theorem exec_spanForm_of_masked (hb : bit (atMask c.ext) (u.spanAt c.ext a span).1 = true) {st : Nat} {poison : Bool}
    {states : List SpanState} {fl : Nat} (hs : u.formStates a c.ext span = (st, poison, states, fl)) :
    exec (.spanForm cx claim span) s = .next (
      if poison then (u.endAttention a.cmd c).consumePoison a.cmd
      else if st ≠ 0 then (u.endAttention a.cmd c).finish a.cmd st 0
      else
        let v := (u.spanFormed a claim span).noteReads a.cmd true (u.spanReads a c.ext span)
        State.raise { v with attn := { v.attn with states := v.attn.states ++ states } } a.cmd fl) := by
  show execSpanForm cx claim span s = _
  unfold execSpanForm
  simp only [h, ht, hholds, hm, hf, hb, hs, Nat.not_le.mpr hlt, decide_false, Bool.not_true, Bool.or_self,
    Bool.false_eq_true, if_false]
  rfl

end

/-! ### The merge -/

/-- The ranges that the merge of a claim writes. -/
def State.mergeRanges (s : State) (x : Line) (a : AttnClaim) (claim : Nat) : List (Nat × Nat) :=
  (List.range (s.spanValid x a)).flatMap fun i =>
    (atOutAt x (claim / atHeads x) (claim % atHeads x) i, atHd x * fmtBytes (atOutFmt x)) ::
      (if atLseEn x then [(atLseAt x (claim / atHeads x) (claim % atHeads x) i, 4)] else [])

theorem exec_spanMerge_of_waits (hw : (s.mergeRanges c.ext a claim).any (fun p => s.writeWaits a.cmd p.1 p.2) = true) :
    exec (.spanMerge cx claim) s = .next s := by
  unfold State.mergeRanges at hw
  show execSpanMerge cx claim s = _
  unfold execSpanMerge
  simp only [h, hw, Bool.or_true, if_true]

theorem exec_spanMerge_of_untaken (ht : s.attnTake a c = none) : exec (.spanMerge cx claim) s = .next s := by
  show execSpanMerge cx claim s = _
  unfold execSpanMerge
  simp only [h, ht, ite_self]

/-- The claim merged, and the command's work done where it was its last. -/
def State.claimEnds (v : State) (a : AttnClaim) (c : Cmd) (claim : Nat) : State :=
  State.attnDone (State.attnGive (State.modClaim { v with attn := { v.attn with
    states := v.attn.states.filter fun p => !(p.cmd == a.cmd && p.claim == claim) } } a.cmd claim
      fun y => { y with merged := true }) a c) a.cmd

section

variable (hholds : s.holds cx = true) (hm : a.merged = false) (hn : s.spanCount c.ext a ≤ a.formed.length)
  (hw : (s.mergeRanges c.ext a claim).any (fun p => s.writeWaits a.cmd p.1 p.2) = false) {u : State} (ht : s.attnTake a c = some u)

include hholds hm hn hw ht

theorem exec_spanMerge_of_sound (hs : u.claimSound c.ext a = true) {v : State} {st : Nat}
    (hv : (List.range (s.spanValid c.ext a)).foldl (State.writeRow c.ext a (claimRank (a.blocks * atHeads c.ext) claim)) (u, 0) = (v, st)) :
    exec (.spanMerge cx claim) s =
      .next (if st = 0 then v.claimEnds a c claim else (v.endAttention a.cmd c).finish a.cmd st 0) := by
  unfold State.mergeRanges at hw
  show execSpanMerge cx claim s = _
  unfold execSpanMerge
  simp only [h, ht, hholds, hm, hw, hs, hv, Nat.not_lt.mpr hn, decide_false, Bool.not_true, Bool.or_self, Bool.false_eq_true, if_false,
    if_true, ite_not]
  rfl

theorem exec_spanMerge_of_unsound (hs : u.claimSound c.ext a = false) : exec (.spanMerge cx claim) s =
    .next (((s.mergeRanges c.ext a claim).foldl (fun v p => v.cvaHavoc a.cmd p.1 p.2) u).claimEnds a c claim) := by
  have hw' := hw
  unfold State.mergeRanges at hw'
  show execSpanMerge cx claim s = _
  unfold execSpanMerge
  simp only [h, ht, hholds, hm, hw', hs, Nat.not_lt.mpr hn, decide_false, Bool.not_true, Bool.or_self, Bool.false_eq_true, if_false,
    ne_eq, not_true]
  rfl

end

end

/-- Settles O38: the issue by its two checks, a span and a merge by the claim's core and what they read. -/
theorem attentionFormsAndMerges : Obligations.AttentionFormsAndMerges := by
  unfold Obligations.AttentionFormsAndMerges
  refine ⟨?_, ?_⟩
  · intro s cx c x id t n h
    have hrow : exec (.attention cx) s = .next (attnWork t id c) := exec_attention_of_issues h
    have hkeep := State.markIssued_keeps (P := [.kv, .hosts]) s id (attnPins cx s c) (Keeps.refl s) (by decide) (by decide)
    have htiles : t.tiles = s.tiles := hkeep.parts .tiles (by decide)
    have hattn : t.attn = s.attn := hkeep.parts .attn (by decide)
    refine ⟨fun hb => ?_, fun hb hq => ⟨fun hn => ?_, fun hn => ?_⟩, fun hb hq => ?_⟩
    · rw [hrow, attnWork_of_blocks hb]
    · obtain ⟨htab, hclaims⟩ := t.claimsEntered_spec id x
      obtain ⟨hlap, hsame⟩ := (t.claimsEntered id x).attnCounters_spec cx (atCounter x) n
      refine ⟨(t.claimsEntered id x).attnCounters cx (atCounter x) n, ?_, ?_, ?_, fun r hr => ?_⟩
      · rw [hrow, attnWork_of_sound hb hq, if_neg (Nat.pos_iff_ne_zero.mp hn)]
      · rw [hsame, hclaims, hattn]
      · rw [hsame, hclaims, hattn]
      · rw [hlap r hr]
        unfold State.lap
        rw [htab, htiles]
        rfl
    · rw [hrow, attnWork_of_sound hb hq, if_pos hn, State.claimsEntered_of_none t id c.ext hn]
    · rw [hrow, attnWork_of_layer hb hq]
  · intro s cx claim span a c h hholds hm x r l ranges
    refine ⟨State.attnTake_of_held, fun hheld => ⟨State.attnTake_of_noCore hheld, fun p hp => State.attnTake_of_core hheld hp⟩,
      fun ht => ⟨exec_spanForm_of_untaken h ht, exec_spanMerge_of_untaken h ht⟩, fun u ht => ⟨fun hf hlt => ?_, fun hn hw => ?_⟩,
      fun hw => exec_spanMerge_of_waits h hw⟩
    · refine ⟨fun hb => exec_spanForm_of_unmasked h hholds hm hf hlt ht hb, fun hb st poison states fl hs => ?_⟩
      have hform := exec_spanForm_of_masked h hholds hm hf hlt ht hb hs
      refine ⟨fun hp hst => ?_, fun hp => ?_, fun hp hst => ?_⟩
      · rw [hform, if_neg (by simp [hp]), if_neg (not_not_intro hst)]
        rfl
      · rw [hform, if_pos hp]
      · rw [hform, if_neg (by simp [hp]), if_pos hst]
    · exact ⟨fun hs v st hv => exec_spanMerge_of_sound h hholds hm hn hw ht hs hv,
        fun hs => exec_spanMerge_of_unsound h hholds hm hn hw ht hs⟩

end Sys2Proof.Machine

end

section

/-! The channels of the stacks (chapters 9 and 17): O39. -/

namespace Sys2Proof.Machine

open Sys2Proof Sys2Proof.Safety

theorem Logged.tiers {s t : State} (h : Logged s t) : t.tiers = s.tiers := by rw [h.rest]

theorem Logged.stack {s t : State} (h : Logged s t) (r : Nat) : t.stack r = s.stack r := by
  unfold State.stack
  rw [h.tiers]

theorem Logged.memory {s t : State} (h : Logged s t) : t.memory = s.memory := by rw [h.rest]

theorem contains_sput (l : List Nat) (k : Nat) : (sput l k).contains k = true :=
  List.contains_iff_mem.mpr ((mem_sput l k k).mpr (.inl rfl))

theorem contains_sput_of_contains {l : List Nat} {a : Nat} (k : Nat) (h : l.contains a = true) : (sput l k).contains a = true :=
  List.contains_iff_mem.mpr ((mem_sput l k a).mpr (.inr (List.contains_iff_mem.mp h)))

/-! ### Retrains -/

section

variable {s : State} {rank : Fin 75} {chan : Fin 64}

theorem exec_channelRetrainStart_of_free (hm : (s.stack rank).mode ≠ .critical)
    (hr : (s.stack rank).retraining.contains chan.val = false) (hg : s.groupRetrains rank chan = false)
    (hsite : (s.siteOf rank).isSome = true) (scheduled : Bool) : exec (.channelRetrainStart rank chan scheduled) s = .next (
      if (scheduled && !s.retrainSlot rank chan) = true then s
      else
        let t := s.setStack rank { s.stack rank with
          retraining := sput (s.stack rank).retraining chan, retrains := wrap32 ((s.stack rank).retrains + 1) }
        if scheduled then { t with sched := { t.sched with retrained := t.sched.retrained ++ [(rank.val, chan.val)] } } else t) := by
  have hnone : (s.siteOf rank).isNone = false := by simpa [← Option.not_isSome] using hsite
  show execChannelRetrainStart rank chan scheduled s = _
  unfold execChannelRetrainStart
  simp only [hm, hr, hg, hnone, decide_false, Bool.false_or]

/-- A channel that a retrain has left, with its count of failures in a row. -/
def Stack.retrainEnds (k : Stack) (chan holdNs n : Nat) : Stack :=
  { k with
    retraining := k.retraining.filter fun c => c != chan
    holdMax := max k.holdMax (min holdNs 4000)
    failed := tput k.failed chan n 0 }

theorem exec_channelRetrainEnd_of_passed (hr : (s.stack rank).retraining.contains chan.val = true) (holdNs : Nat) :
    exec (.channelRetrainEnd rank chan true holdNs) s = .next (s.setStack rank ((s.stack rank).retrainEnds chan holdNs 0)) := by
  show execChannelRetrainEnd rank chan true holdNs s = _
  unfold execChannelRetrainEnd
  simp only [hr, Bool.not_true, Bool.false_eq_true, if_false, if_true]
  rfl

theorem exec_channelRetrainEnd_of_failed (hr : (s.stack rank).retraining.contains chan.val = true) (holdNs : Nat)
    (hn : tget (s.stack rank).failed chan 0 ≠ 2) : exec (.channelRetrainEnd rank chan false holdNs) s =
      .next (s.setStack rank ((s.stack rank).retrainEnds chan holdNs (tget (s.stack rank).failed chan 0 + 1))) := by
  have hne : tget (s.stack rank).failed chan 0 + 1 ≠ 3 := by omega
  show execChannelRetrainEnd rank chan false holdNs s = _
  unfold execChannelRetrainEnd
  simp only [hr, hne, Bool.not_true, Bool.false_eq_true, if_false]
  rfl

theorem exec_channelRetrainEnd_of_third (hr : (s.stack rank).retraining.contains chan.val = true) (holdNs : Nat)
    (hn : tget (s.stack rank).failed chan 0 = 2) : exec (.channelRetrainEnd rank chan false holdNs) s =
      .next ((s.setStack rank ((s.stack rank).retrainEnds chan holdNs 0)).channelFails rank chan) := by
  show execChannelRetrainEnd rank chan false holdNs s = _
  unfold execChannelRetrainEnd
  simp only [hr, hn, Bool.not_true, Bool.false_eq_true, if_false, if_true]
  rfl

end

/-! ### The start of a repair -/

section

variable {s : State} {rank chan : Nat}

theorem State.startRepair_of_busy (h : (s.stack rank).repair.isSome = true ∨ s.activationDue = true) :
    s.startRepair rank chan = s.setStack rank { s.stack rank with repairsDue := sput (s.stack rank).repairsDue chan } := by
  unfold State.startRepair
  dsimp only
  rw [if_pos (by simpa using h)]

variable (hr : (s.stack rank).repair = none) (ha : s.activationDue = false)

include hr ha

theorem State.startRepair_of_spare {p : Nat} {r : List Nat} (hs : (s.stack rank).spares = p :: r) :
    ((s.startRepair rank chan).stack rank).repair = some (chan, p) ∧
      ((s.startRepair rank chan).stack rank).remap = (s.stack rank).remap ∧ bit ((s.startRepair rank chan).reg 0x48) 3 = true := by
  unfold State.startRepair
  dsimp only
  rw [if_neg (by simp [hr, ha])]
  have hs' : ({ s.stack rank with repairsDue := (s.stack rank).repairsDue.filter fun c => c != chan } : Stack).spares = p :: r := hs
  simp only [hs']
  refine ⟨?_, ?_, State.bit_ownerEvent ..⟩
  · rw [(State.ownerEvent_logged _ _).stack, State.logChannel, (State.log_logged _ _ _ _ _ _).stack, State.stack_setStack_same]
  · rw [(State.ownerEvent_logged _ _).stack, State.logChannel, (State.log_logged _ _ _ _ _ _).stack, State.stack_setStack_same]

theorem State.startRepair_of_noSpare (hs : (s.stack rank).spares = []) :
    ((s.startRepair rank chan).stack rank).degraded.contains chan = true ∧
      ((s.startRepair rank chan).stack rank).remap = (s.stack rank).remap ∧ ((s.startRepair rank chan).stack rank).repair = none := by
  unfold State.startRepair
  dsimp only
  rw [if_neg (by simp [hr, ha])]
  have hs' : ({ s.stack rank with repairsDue := (s.stack rank).repairsDue.filter fun c => c != chan } : Stack).spares = [] := hs
  simp only [hs']
  split
  · next hd =>
    rw [State.stack_setStack_same]
    exact ⟨hd, rfl, hr⟩
  · rw [State.logChannel, (State.log_logged _ _ _ _ _ _).stack, State.stack_setStack_same]
    exact ⟨contains_sput .., rfl, hr⟩

end

/-! ### The granules that a repair carries -/

section

variable (s : State)

theorem State.storePoisoned_poisonWord (k : Nat) : (s.poisonWord k).storePoisoned k = true := by
  unfold State.storePoisoned
  rw [Bool.or_eq_true]
  exact .inl (contains_sput ..)

theorem State.storePoisoned_poisonWord_of_poisoned {i : Nat} (k : Nat) (h : s.storePoisoned i = true) :
    (s.poisonWord k).storePoisoned i = true := by
  unfold State.storePoisoned at h ⊢
  rw [Bool.or_eq_true] at h ⊢
  exact h.imp (contains_sput_of_contains _) id

/-- A codeword that the old channel did not give is poisoned, once. -/
def State.poisonOnce (t : State) (k : Nat) : State := if t.storePoisoned k then t else (t.poisonWord k).addSat 0x600114 1

theorem State.poisonOnce_poisoned (k : Nat) : (s.poisonOnce k).storePoisoned k = true := by
  unfold State.poisonOnce
  split
  · next h => exact h
  · exact State.storePoisoned_poisonWord s k

theorem State.poisonOnce_of_poisoned {i : Nat} (k : Nat) (h : s.storePoisoned i = true) : (s.poisonOnce k).storePoisoned i = true := by
  unfold State.poisonOnce
  split
  · exact h
  · exact State.storePoisoned_poisonWord_of_poisoned s k h

theorem State.poisonOnce_tiers (k : Nat) : (s.poisonOnce k).tiers = s.tiers := by
  unfold State.poisonOnce
  split <;> rfl

theorem poisoned_of_iter (key : Nat) : ∀ n j, j < n → (iter n (fun j t => t.poisonOnce (key + 64 * j)) s).storePoisoned (key + 64 * j) = true := by
  intro n
  induction n with
  | zero => intro j hj; omega
  | succ n ih =>
    intro j hj
    rw [iter_succ]
    rcases Nat.lt_succ_iff_lt_or_eq.mp hj with hlt | rfl
    · exact State.poisonOnce_of_poisoned _ _ (ih j hlt)
    · exact State.poisonOnce_poisoned ..

variable (rank addr : Nat)

theorem State.carryGranule_of_weight (h : s.isWeight (stackKey rank addr) = true) :
    s.carryGranule rank addr = s.setStack rank { s.stack rank with recon := sat32 ((s.stack rank).recon + 1) } := if_pos h

theorem State.carryGranule_of_data (h : s.isWeight (stackKey rank addr) = false) : s.carryGranule rank addr =
    iter 4 (fun j t => t.poisonOnce (stackKey rank addr + 64 * j))
      (s.setStack rank { s.stack rank with uncorrected := sat32 ((s.stack rank).uncorrected + 1) }) := if_neg (by simp [h])

theorem State.stack_carryGranule {r : Nat} (hr : r ≠ rank) : (s.carryGranule rank addr).stack r = s.stack r := by
  cases h : s.isWeight (stackKey rank addr) with
  | true => rw [State.carryGranule_of_weight s rank addr h, State.stack_setStack_other _ _ _ _ hr]
  | false =>
    rw [State.carryGranule_of_data s rank addr h]
    refine (iter_same (fun u : State => u.stack r) _ _ _ fun j u => ?_).trans (State.stack_setStack_other _ _ _ _ hr)
    simp only [State.stack, State.poisonOnce_tiers]

end

/-! ### The end of a repair -/

section

variable (s : State) (rank : Nat) (chan p : Nat) (l : List Nat)

/-- The state in which a repaired channel has its spare's place, before a repair that waited starts. -/
def State.repaired : State :=
  let t := l.foldl (fun t i => t.carryGranule rank (granuleAt chan i)) s
  let t := t.setStack rank { t.stack rank with
    repair := none
    remap := tput (s.stack rank).remap chan p chan
    retired := sput (s.stack rank).retired ((s.stack rank).physical chan) }
  ((t.logChannel 0x31 rank chan p).ownerEvent 3).ownerEvent 4

theorem State.stack_repaired : ((s.repaired rank chan p l).stack rank).repair = none ∧
    ((s.repaired rank chan p l).stack rank).remap = tput (s.stack rank).remap chan p chan ∧
    ((s.repaired rank chan p l).stack rank).retired = sput (s.stack rank).retired ((s.stack rank).physical chan) := by
  unfold State.repaired
  dsimp only
  rw [(State.ownerEvent_logged _ _).stack, (State.ownerEvent_logged _ _).stack, State.logChannel, (State.log_logged _ _ _ _ _ _).stack,
    State.stack_setStack_same]
  exact ⟨rfl, rfl, rfl⟩

theorem State.stack_repaired_other {r : Nat} (hr : r ≠ rank) : (s.repaired rank chan p l).stack r = s.stack r := by
  unfold State.repaired
  dsimp only
  rw [(State.ownerEvent_logged _ _).stack, (State.ownerEvent_logged _ _).stack, State.logChannel, (State.log_logged _ _ _ _ _ _).stack,
    State.stack_setStack_other _ _ _ _ hr]
  exact foldl_same (fun u : State => u.stack r) _ _ _ fun u i => State.stack_carryGranule u rank _ hr

theorem State.memory_repaired : (s.repaired rank chan p []).memory = s.memory := by
  unfold State.repaired
  dsimp only
  rw [(State.ownerEvent_logged _ _).memory, (State.ownerEvent_logged _ _).memory, State.logChannel, (State.log_logged _ _ _ _ _ _).memory]
  rfl

theorem carriedGranules_of_all {answered : Nat} (h : channelGranules ≤ answered) : carriedGranules [] answered = [] := by
  unfold carriedGranules
  rw [Nat.sub_eq_zero_of_le h]
  rfl

end

theorem exec_channelRepairEnd_of_due {s : State} {rank : Fin 75} {chan : Fin 64} {p answered : Nat} {bad : List Nat}
    (h : (s.stack rank).repair = some (chan.val, p)) : exec (.channelRepairEnd rank ⟨chan, bad, answered⟩) s =
      .next (match (s.stack rank).repairsDue with
        | d :: _ => (s.repaired rank chan p (carriedGranules bad answered)).startRepair rank d
        | [] => s.repaired rank chan p (carriedGranules bad answered)) := by
  show execChannelRepairEnd rank ⟨chan, bad, answered⟩ s = _
  unfold execChannelRepairEnd
  simp only [h]
  rw [if_neg (not_not_intro rfl)]
  rfl

/-! ### The patrol -/

section

variable {s : State} {rank addr : Nat} (hp : s.storePoisoned (wordKey rank addr) = false)

include hp

theorem State.symbolFault_of_one : s.symbolFault rank addr 1 = s.correctOne rank (channelOf addr) := by
  unfold State.symbolFault
  dsimp only
  rw [if_neg (by simp [hp]), if_pos rfl]

variable {n : Nat} (hn : 2 ≤ n)

include hn

theorem State.symbolFault_of_weight (hw : s.isWeight (wordKey rank addr) = true) : s.symbolFault rank addr n =
    (s.setStack rank { s.stack rank with recon := sat32 ((s.stack rank).recon + 1) }).startRepair rank (channelOf addr) := by
  unfold State.symbolFault
  dsimp only
  rw [if_neg (by simp [hp]; omega), if_neg (by omega), if_pos hw]

theorem State.symbolFault_of_data (hw : s.isWeight (wordKey rank addr) = false) : s.symbolFault rank addr n =
    State.startRepair ((State.poisonWord (s.setStack rank { s.stack rank with uncorrected := sat32 ((s.stack rank).uncorrected + 1) })
      (wordKey rank addr)).addSat 0x600114 1) rank (channelOf addr) := by
  unfold State.symbolFault
  dsimp only
  rw [if_neg (by simp [hp]; omega), if_neg (by omega), if_neg (by simp [hw])]

end

theorem State.symbolFault_of_poisoned {s : State} {rank addr n : Nat} (h : n = 0 ∨ s.storePoisoned (wordKey rank addr) = true) :
    s.symbolFault rank addr n = s := if_pos h

/-! ### A corrected error -/

theorem filter_tins {α : Type} (k : Nat) (v : α) (t : Tab α) :
    (tins t k v).filter (fun p => p.1 != k) = t.filter fun p => p.1 != k := by
  induction t with
  | nil => simp [tins]
  | cons e t ih =>
    obtain ⟨j, u⟩ := e
    unfold tins
    split
    · simp only [List.filter_cons, ih]
    · simp [List.filter_cons]

/-- A second write of a key takes the place of the first. -/
theorem tput_tput {α : Type} [DecidableEq α] (t : Tab α) (k : Nat) (v w d : α) : tput (tput t k v d) k w d = tput t k w d := by
  have hfilter : (tput t k v d).filter (fun p => p.1 != k) = t.filter fun p => p.1 != k := by
    unfold tput
    dsimp only
    split
    · rw [List.filter_filter]
      simp
    · rw [filter_tins, List.filter_filter]
      simp
  show (let r := (tput t k v d).filter fun p => p.1 != k; if w = d then r else tins r k w) = tput t k w d
  rw [hfilter]
  rfl

theorem State.setStack_setStack (s : State) (rank : Nat) (v w : Stack) : (s.setStack rank v).setStack rank w = s.setStack rank w := by
  unfold State.setStack
  dsimp only
  rw [tput_tput]

section

variable (s : State) (rank chan : Nat)

/-- The errors of a stack within the last day, with one more of a channel. -/
def State.recentErrors : List (Nat × Nat) :=
  (chan, s.module.lifeSeconds) :: (s.stack rank).errors.filter fun e => decide (s.module.lifeSeconds < e.2 + 86400)

/-- A corrected error counted. -/
def State.oneCorrected (l : List (Nat × Nat)) : State :=
  s.setStack rank { s.stack rank with corrected := sat32 ((s.stack rank).corrected + 1), errors := l }

theorem State.correctOne_of_few (h : ((s.recentErrors rank chan).filter fun e => e.1 == chan).length ≤ 4096) :
    s.correctOne rank chan = s.oneCorrected rank (s.recentErrors rank chan) := by
  unfold State.recentErrors at h
  unfold State.correctOne
  dsimp only
  rw [if_neg (Nat.not_lt.mpr h)]
  rfl

theorem State.correctOne_of_many (h : 4096 < ((s.recentErrors rank chan).filter fun e => e.1 == chan).length) :
    s.correctOne rank chan = (s.oneCorrected rank ((s.recentErrors rank chan).filter fun e => e.1 != chan)).startRepair rank chan := by
  have h' := h
  unfold State.recentErrors at h'
  unfold State.correctOne
  dsimp only
  rw [if_pos h', State.setStack_setStack, State.stack_setStack_same]
  rfl

end

theorem exec_patrolScrub_of_working {s : State} {rank : Fin 75} {g : Nat} (hs : (s.siteOf rank).isSome = true)
    (hg : g < 402653184 ∨ 536870912 ≤ g) (n : Nat) : exec (.patrolScrub rank g n) s = .next (s.symbolFault rank (g * 256) n) := by
  have hnone : (s.siteOf rank).isNone = false := by simpa [← Option.not_isSome] using hs
  show execPatrolScrub rank g n s = _
  unfold execPatrolScrub
  rw [if_neg]
  rw [hnone]
  rintro (h | ⟨h1, h2⟩)
  · cases h
  · omega

/-- Settles O39: retrains by their count of failures, a repair by what it leaves of the stack, the patrol by the symbols wrong. -/
theorem channelsAreKeptInService : Obligations.ChannelsAreKeptInService := by
  unfold Obligations.ChannelsAreKeptInService
  refine ⟨fun s rank chan => ?_, fun s rank chan hsite => ?_, fun s rank g n hsite hg => ?_⟩
  · intro k
    refine ⟨fun hm hr hg hsite => ?_, fun hr holdNs => ?_, fun hd => if_neg (by simp [k] at hd; simp [hd]), fun n hd hn => ?_⟩
    · have hrow := exec_channelRetrainStart_of_free hm hr hg hsite
      refine ⟨_, (hrow false).trans (by rw [Bool.false_and, if_neg Bool.false_ne_true]; rfl), rfl, fun hslot => ?_, fun hslot => ?_⟩
      · rw [hrow true, hslot]
        rfl
      · rw [hrow true, hslot, if_pos (show (true && !false) = true from rfl)]
    · exact ⟨exec_channelRetrainEnd_of_passed hr holdNs, fun hn => exec_channelRetrainEnd_of_failed hr holdNs hn,
        fun hn => exec_channelRetrainEnd_of_third hr holdNs hn⟩
    · unfold State.channelFails
      rw [if_pos hd, hn]
  · have hsome : (s.siteOf rank).isNone = false := by simpa [← Option.not_isSome] using hsite
    have hstart : exec (.channelRepairStart rank chan) s = .next (s.startRepair rank chan) :=
      congrArg Host.Outcome.next (if_neg (by simp [hsome]))
    intro k
    refine ⟨fun p r hr ha hs => ⟨_, hstart, State.startRepair_of_spare hr ha hs⟩,
      fun hr ha hs => ⟨_, hstart, State.startRepair_of_noSpare hr ha hs⟩, fun hb => ?_, fun p bad answered hr => ?_,
      fun addr _ => ⟨fun hw => State.carryGranule_of_weight s rank addr hw, fun hw j hj => ?_⟩⟩
    · rw [hstart, State.startRepair_of_busy hb]
    · obtain ⟨hrepair, hremap, hretired⟩ := State.stack_repaired s rank chan p (carriedGranules bad answered)
      refine ⟨s.repaired rank chan p (carriedGranules bad answered), exec_channelRepairEnd_of_due hr, hrepair, ?_, ?_, fun c hc => ?_,
        State.bit_ownerEvent .., fun r hr => State.stack_repaired_other s rank chan p _ hr, fun hb hall => ?_⟩
      · rw [Stack.physical, hremap, tget_tput_same]
      · rw [hretired]
        exact contains_sput ..
      · rw [Stack.physical, hremap, tget_tput_other _ _ _ _ _ _ hc]
        rfl
      · rw [hb, carriedGranules_of_all hall, State.memory_repaired]
    · rw [State.carryGranule_of_data s rank addr hw]
      exact poisoned_of_iter _ _ 4 j hj
  · intro key chan k
    have hrow := exec_patrolScrub_of_working hsite hg
    refine ⟨fun hp => ⟨?_, fun hn hw => ?_, fun hn hw => ?_⟩, ?_, fun hp => ?_⟩
    · intro recent one
      rw [hrow, State.symbolFault_of_one hp]
      exact ⟨fun h => congrArg Host.Outcome.next (State.correctOne_of_few s rank chan h),
        fun h => congrArg Host.Outcome.next (State.correctOne_of_many s rank chan h)⟩
    · rw [hrow, State.symbolFault_of_data hp hn hw]
    · rw [hrow, State.symbolFault_of_weight hp hn hw]
    · rw [hrow, State.symbolFault_of_poisoned (.inl rfl)]
    · rw [hrow, State.symbolFault_of_poisoned (.inr hp)]

end Sys2Proof.Machine

end

section

/-! Links and their lanes (chapter 10): O41. -/

namespace Sys2Proof.Machine

open Sys2Proof Sys2Proof.Safety

theorem Logged.links {s t : State} (h : Logged s t) : t.links = s.links := by rw [h.rest]

theorem Logged.link {s t : State} (h : Logged s t) (n : Nat) : t.link n = s.link n := by
  unfold State.link
  rw [h.links]

theorem State.link_addSat (s : State) (k v n : Nat) : (s.addSat k v).link n = s.link n := rfl

/-! ### A link that leaves service -/

section

variable (s : State) (n status : Nat)

theorem State.linkLeave_of_down (h : s.linkUp n = false) (f : Link → Link) : s.linkLeave n f = s.setLink n (f (s.link n)) := by
  unfold State.linkLeave
  dsimp only
  rw [if_neg (by simp [h])]

theorem State.linkDown_of_down (h : s.linkUp n = false) : ((s.linkDown n status).link n).mode = .down ∧
    ((s.linkDown n status).link n).status = status ∧ bit ((s.linkDown n status).reg 0x48) 1 = true := by
  unfold State.linkDown
  rw [State.linkLeave_of_down s n h]
  refine ⟨?_, ?_, State.bit_ownerEvent ..⟩
  · rw [(State.ownerEvent_logged _ _).link, State.link_setLink_same]
    rfl
  · rw [(State.ownerEvent_logged _ _).link, State.link_setLink_same]

theorem linkUp_eq_false (h : (s.link n).mode = .retrain ∨ (s.link n).mode = .training) : s.linkUp n = false := by
  unfold State.linkUp
  rcases h with h | h <;> rw [h] <;> rfl

end

/-! ### Training -/

section

variable {s : State} {n : Fin 36}

section

variable (h0 : bit (s.reg (linkBase n)) 0 = true) (h1 : bit (s.reg (linkBase n)) 1 = false) (hid : s.moduleId ≠ 0xFFF)

include h0 h1 hid

theorem exec_linkTrainingStart_of_enabled : exec (.linkTrainingStart n) s = .next (match (s.link n).mode with
    | .disabled => s.setLink n (Link.fresh .training 0)
    | .up | .degraded | .retrain => s.linkLeave n fun _ => Link.fresh .training 0
    | _ => s) := by
  show execLinkTrainingStart n s = _
  unfold execLinkTrainingStart
  simp only [h0, h1, Bool.not_true, Bool.false_or, beq_iff_eq, hid, if_false] <;> rfl

end

/-- A training attempt of the link may end. -/
def State.attempts (s : State) (n : Nat) : Prop :=
  (s.link n).mode = .retrain ∨ ((s.link n).mode = .training ∧ (s.link n).waiting = false)

theorem State.attempts.down (h : s.attempts n) : s.linkUp n = false := linkUp_eq_false s n (h.imp_right And.left)

section

variable {tx rx : BitVec 10} {peer : BitVec 12} {pl : Fin 36} (h : s.attempts n)

include h

theorem exec_linkTrainingEnd : exec (.linkTrainingEnd n tx rx peer pl) s = .next (
    if (lanesOf tx).length < 4 ∨ (lanesOf rx).length < 4 then s.trainFail n
    else if peer.toNat = s.moduleId ∨ peer.toNat = 0xFFF then s.linkDown n 0x06
    else s.trainDone n (lanesOf tx) (lanesOf rx) peer.toNat pl.val) := by
  have hguard : (!((s.link n).mode == .retrain || ((s.link n).mode == .training && !(s.link n).waiting))) = false := by
    rcases h with h | ⟨h, hw⟩
    · rw [h]
      rfl
    · rw [h, hw]
      rfl
  show execLinkTrainingEnd n tx rx peer pl s = _
  unfold execLinkTrainingEnd
  simp only [hguard, Bool.false_eq_true, if_false]

theorem exec_linkTrainingEnd_of_failed (hl : (lanesOf tx).length < 4 ∨ (lanesOf rx).length < 4) :
    exec (.linkTrainingEnd n tx rx peer pl) s = .next (s.trainFail n) := by
  rw [exec_linkTrainingEnd h, if_pos hl]

variable (htx : 4 ≤ (lanesOf tx).length) (hrx : 4 ≤ (lanesOf rx).length)

include htx hrx

theorem exec_linkTrainingEnd_of_badPeer (hp : peer.toNat = s.moduleId ∨ peer.toNat = 0xFFF) :
    exec (.linkTrainingEnd n tx rx peer pl) s = .next (s.linkDown n 0x06) := by
  rw [exec_linkTrainingEnd h, if_neg (by omega), if_pos hp]

theorem exec_linkTrainingEnd_of_passed (hp : peer.toNat ≠ s.moduleId) (hf : peer.toNat ≠ 0xFFF) :
    exec (.linkTrainingEnd n tx rx peer pl) s = .next (s.trainDone n (lanesOf tx) (lanesOf rx) peer.toNat pl.val) := by
  rw [exec_linkTrainingEnd h, if_neg (by omega), if_neg (by simp [hp, hf])]

end

end

section

variable (s : State) (n : Nat) (tx rx : List Nat) (peer peerLink : Nat)

/-- A link whose training has passed. -/
def Link.trained (l : Link) (tx rx : List Nat) (peer peerLink : Nat) : Link :=
  { l with
    mode := if decide (tx.length < 8) || decide (rx.length < 8) then .degraded else .up
    failures := 0
    waiting := false
    txLanes := logicalLanes tx
    rxLanes := logicalLanes rx
    txSpares := tx.drop 8
    rxSpares := rx.drop 8
    peer := some (peer, peerLink)
    status := 0
    credits := fullCredits
    creditDue := []
    resend := l.replay.length }

theorem State.trainDone_logged : Logged (s.setLink n ((s.link n).trained tx rx peer peerLink)) (s.trainDone n tx rx peer peerLink) := by
  unfold State.trainDone
  exact Logged.ite (State.log_logged _ _ _ _ _ _) (Logged.refl _)

theorem State.link_trainDone_same : (s.trainDone n tx rx peer peerLink).link n = (s.link n).trained tx rx peer peerLink := by
  rw [(State.trainDone_logged ..).link, State.link_setLink_same]

theorem State.link_trainDone_other {m : Nat} (h : m ≠ n) : (s.trainDone n tx rx peer peerLink).link m = s.link m := by
  rw [(State.trainDone_logged ..).link, State.link_setLink_other _ _ _ _ h]

theorem Link.trained_mode (l : Link) : (l.trained tx rx peer peerLink).mode =
    if 8 ≤ tx.length ∧ 8 ≤ rx.length then .up else .degraded := by
  unfold Link.trained
  by_cases h : 8 ≤ tx.length ∧ 8 ≤ rx.length
  · have : (decide (tx.length < 8) || decide (rx.length < 8)) = false := by
      simp only [Bool.or_eq_false_iff, decide_eq_false_iff_not]
      omega
    simp [this, h]
  · have : (decide (tx.length < 8) || decide (rx.length < 8)) = true := by
      simp only [Bool.or_eq_true, decide_eq_true_eq]
      omega
    simp [this, h]

end

/-! ### Spare lanes -/

/-- Of eight lanes the failing one is not among the four that a direction without a spare keeps. -/
theorem not_mem_lowLanes {lanes : List Nat} {bad : Nat} (hlen : lanes.length = 8) (hnodup : lanes.Nodup) : bad ∉ lowLanes lanes bad := by
  have hspare : ((lanes.drop 4).filter fun l => l != bad).headD bad ≠ bad := by
    cases hf : (lanes.drop 4).filter fun l => l != bad with
    | cons x r =>
      have hx : x ∈ (lanes.drop 4).filter fun l => l != bad := by simp [hf]
      simpa using (List.mem_filter.mp hx).2
    | nil =>
      have hall : ∀ x ∈ lanes.drop 4, x = bad := fun x hx => by
        simpa using List.filter_eq_nil_iff.mp hf x hx
      have h4 : lanes[4]'(by omega) = bad := hall _ (List.mem_drop_iff_getElem.mpr ⟨0, by omega, rfl⟩)
      have h5 : lanes[5]'(by omega) = bad := hall _ (List.mem_drop_iff_getElem.mpr ⟨1, by omega, rfl⟩)
      have heq := (hnodup.getElem_inj_iff (hi := by omega) (hj := by omega)).mp (h4.trans h5.symm)
      omega
  intro hmem
  obtain ⟨x, -, hx⟩ := List.mem_map.mp (List.mem_of_mem_take hmem)
  split at hx
  · exact hspare hx
  · next hne => exact hne hx

section

variable {s : State} {n lane : Nat} {tx : Bool} (hup : s.linkUp n = true)
  (hlen : (if tx then (s.link n).txLanes else (s.link n).rxLanes).length = 8)
  (hlane : (if tx then (s.link n).txLanes else (s.link n).rxLanes).contains lane = true)

include hup hlen hlane

theorem State.spareLane_of_spare {p : Nat} {rest : List Nat} (hs : (if tx then (s.link n).txSpares else (s.link n).rxSpares) = p :: rest) :
    (s.spareLane n tx lane).link n = (if tx then
        { s.link n with txLanes := moveLane (s.link n).txLanes lane p, txSpares := rest }
      else { s.link n with rxLanes := moveLane (s.link n).rxLanes lane p, rxSpares := rest, spareDue := some lane }) ∧
    bit ((s.spareLane n tx lane).reg 0x48) 4 = true := by
  unfold State.spareLane
  dsimp only
  rw [if_neg (by simp only [hup, hlen, hlane]; decide), hs]
  refine ⟨?_, State.bit_ownerEvent ..⟩
  rw [(State.ownerEvent_logged _ _).link, (State.ownerEvent_logged _ _).link, (State.log_logged _ _ _ _ _ _).link,
    State.link_setLink_same]
  cases tx <;> rfl

theorem State.spareLane_of_none (hs : (if tx then (s.link n).txSpares else (s.link n).rxSpares) = []) :
    (s.spareLane n tx lane).link n = (if tx then
        { s.link n with txLanes := lowLanes (s.link n).txLanes lane, mode := .degraded }
      else { s.link n with rxLanes := lowLanes (s.link n).rxLanes lane, mode := .degraded }) := by
  unfold State.spareLane
  dsimp only
  rw [if_neg (by simp only [hup, hlen, hlane]; decide), hs]
  rw [State.logDegraded, (State.log_logged _ _ _ _ _ _).link, State.link_setLink_same]
  cases tx <;> rfl

end

theorem length_lowLanes {lanes : List Nat} (bad : Nat) (h : lanes.length = 8) : (lowLanes lanes bad).length = 4 := by
  unfold lowLanes moveLane
  rw [List.length_take, List.length_map, h]
  rfl

/-- Settles O41: a link by its state, a lane by the spares left. -/
theorem linksTrain : Obligations.LinksTrain := by
  unfold Obligations.LinksTrain
  intro s n l
  refine ⟨fun h0 h1 hid => ⟨fun hm => ?_, fun hm => ?_⟩, fun hm hw => ?_, fun tx rx peer pl h =>
    ⟨fun htx hrx hp hf => ?_, fun hlow => ⟨fun hfl => ?_, fun hfl => ?_⟩, fun htx hrx hp => ?_⟩, fun hup => ?_, fun lane => ⟨rfl, rfl, fun ms hup => ?_, fun hup tx => ?_⟩⟩
  · rw [exec_linkTrainingStart_of_enabled h0 h1 hid, show (s.link n).mode = .disabled from hm]
  · rw [exec_linkTrainingStart_of_enabled h0 h1 hid]
    rcases hm with hm | hm | hm <;> rw [show (s.link n).mode = _ from hm]
  · exact congrArg Host.Outcome.next (if_pos ⟨hm, hw⟩)
  · refine ⟨_, exec_linkTrainingEnd_of_passed h htx hrx hp hf, ?_⟩
    rw [State.link_trainDone_same]
    exact ⟨Link.trained_mode .., rfl, rfl, rfl, rfl, rfl, rfl, rfl, rfl, rfl, fun m hm => State.link_trainDone_other _ _ _ _ _ _ hm⟩
  · rw [exec_linkTrainingEnd_of_failed h hlow]
    exact congrArg Host.Outcome.next (if_neg (Nat.not_le.mpr hfl))
  · obtain ⟨hmode, -, hbit⟩ := State.linkDown_of_down s n 0 (State.attempts.down h)
    refine ⟨s.linkDown n 0, ?_, hmode, hbit⟩
    rw [exec_linkTrainingEnd_of_failed h hlow]
    exact congrArg Host.Outcome.next (if_pos hfl)
  · obtain ⟨hmode, hstatus, -⟩ := State.linkDown_of_down s n 0x06 (State.attempts.down h)
    exact ⟨_, exec_linkTrainingEnd_of_badPeer h htx hrx hp, hmode, hstatus⟩
  · exact congrArg Host.Outcome.next (if_pos hup)
  · intro t
    have hrow : exec (.laneSpare n lane (.counts ms)) s = .next (if ratioOver ms then t.spareLane n false lane else t) := by
      show execLaneSpare n lane (.counts ms) s = _
      unfold execLaneSpare
      simp only [hup, Bool.not_true, Bool.false_eq_true, if_false]
      rfl
    refine ⟨fun hr => ?_, fun hr => ?_⟩
    · rw [hrow, if_pos hr]
    · rw [hrow, if_neg (by simp [hr])]
  · intro lanes spares hlen hlane
    refine ⟨fun p rest hs => ?_, fun hs => ?_⟩
    · obtain ⟨hlink, hbit⟩ := State.spareLane_of_spare hup hlen hlane hs
      rw [hlink]
      refine ⟨?_, ?_, ?_, ?_, hbit⟩
      · cases tx <;> rfl
      · cases tx <;> rfl
      · rintro rfl
        rfl
      · rintro rfl
        exact ⟨rfl, rfl⟩
    · rw [State.spareLane_of_none hup hlen hlane hs]
      cases tx
      · exact ⟨rfl, length_lowLanes _ hlen, not_mem_lowLanes hlen⟩
      · exact ⟨rfl, length_lowLanes _ hlen, not_mem_lowLanes hlen⟩

end Sys2Proof.Machine

end

section

/-! Batons and their sequence (chapter 10): O42. -/

namespace Sys2Proof.Machine

open Sys2Proof Sys2Proof.Safety

/-! ### A slot of a link -/

section

variable (l : Link) (wc wb : Nat)

theorem Link.put_frame (b : BatonWord) (seq : Nat) : (l.put b seq).1.replay = l.replay ∧ (l.put b seq).1.nextSeq = l.nextSeq ∧
    (l.put b seq).1.credits = l.credits := ⟨rfl, rfl, rfl⟩

/-- What a sequenced baton changes of the sequence: the number, the replay buffer and a credit of its class. -/
structure Sequenced (l m : Link) (b : BatonWord) : Prop where
  number : m.nextSeq = (l.nextSeq + 1) % 4096
  replay : m.replay.map Replay.seq = l.replay.map Replay.seq ++ [l.nextSeq]
  credits : ∀ k, tget m.credits k 0 = tget l.credits k 0 - (if k = batVc b * 2 + batClass b then 1 else 0)

theorem Link.sendSeq_sequenced (b : BatonWord) : Sequenced l (l.sendSeq b) b := by
  refine ⟨rfl, ?_, fun k => ?_⟩
  · unfold Link.sendSeq Link.put
    simp
  · have hcredits : (l.sendSeq b).credits =
        tput l.credits (batVc b * 2 + batClass b) (tget l.credits (batVc b * 2 + batClass b) 0 - 1) 0 := rfl
    rw [hcredits, tget_tput]
    split
    · next h => rw [h]
    · rfl

theorem Link.slot_sequenced {b : BatonWord}
    (h : l.pick wc = .sprint b ∨ l.pick wc = .mgmt b ∨ l.pick wc = .collective b ∨ l.pick wc = .bulk b) : Sequenced l (l.slot wc wb) b := by
  obtain ⟨hnumber, hreplay, hcredits⟩ :=
    Link.sendSeq_sequenced { l with mgmt := l.mgmt.map fun (p : BatonWord × Nat) => (p.1, p.2 + 1) } b
  unfold Link.slot
  rcases h with h | h | h | h
  all_goals
    rw [h]
    exact ⟨hnumber, hreplay, hcredits⟩

theorem Link.slot_unsequenced (h : l.pick wc = .idle ∨ l.pick wc = .nak) : (l.slot wc wb).replay = l.replay ∧
    (l.slot wc wb).nextSeq = l.nextSeq ∧ (l.slot wc wb).credits = l.credits ∧ (l.pick wc = .nak → (l.slot wc wb).nakDue = false) := by
  unfold Link.slot
  rcases h with h | h
  · rw [h]
    exact ⟨rfl, rfl, rfl, fun hc => by cases hc⟩
  · rw [h]
    exact ⟨rfl, rfl, rfl, fun _ => rfl⟩

theorem Link.slot_resent (h : l.pick wc = .resend) : (l.slot wc wb).resend = l.resend - 1 ∧ (l.slot wc wb).nextSeq = l.nextSeq ∧
    (l.slot wc wb).replay.map Replay.baton = l.replay.map Replay.baton := by
  unfold Link.slot
  rw [h]
  refine ⟨rfl, rfl, ?_⟩
  unfold Link.replayOne
  dsimp only
  rw [List.map_map]
  have hsame : ∀ p : Replay × Nat, (Replay.baton ∘ fun p : Replay × Nat => if p.2 = l.replay.length - l.resend then
      { p.1 with replays := p.1.replays + 1 } else p.1) p = Replay.baton p.1 := by
    intro p
    simp only [Function.comp_apply]
    split <;> rfl
  rw [List.map_congr_left fun p _ => hsame p, ← Function.comp_def, ← List.map_map, List.zipIdx_map_fst]

/-- The batons up to the one acknowledged leave the replay buffer. -/
theorem Link.acked_replay {a : Nat} {q r : List Replay} (hl : l.replay = q ++ r) (hlast : q.getLast?.map Replay.seq = some a)
    (hother : ∀ x ∈ q.dropLast, x.seq ≠ a) : (l.acked a).replay = r := by
  obtain ⟨x, hx, hseq⟩ := Option.map_eq_some_iff.mp hlast
  have hq : q = q.dropLast ++ [x] := (List.dropLast_append_getLast? x hx).symm
  have hdrop : l.replay.dropWhile (fun r => r.seq != a) = x :: r := by
    rw [hl, hq, List.append_assoc, List.dropWhile_append_of_pos fun y hy => by simpa using hother y hy, List.singleton_append,
      List.dropWhile_cons_of_neg (by simp [hseq])]
  have hany : (l.replay.any fun r => r.seq == a) = true :=
    List.any_eq_true.mpr ⟨x, by rw [hl, hq]; simp, by simp [hseq]⟩
  unfold Link.acked
  rw [if_pos hany, hdrop]
  rfl

end

/-! ### The rows -/

section

variable {s : State} {n : Fin 36} {b : BatonWord}

/-- The state after the lanes have taken what the link picked. -/
def State.slotTaken (s : State) (n : Nat) : State :=
  s.setLink n ((s.link n).slot (bits (s.reg 0x20000C) 7 0) (bits (s.reg 0x20000C) 15 8))

theorem State.link_slotTaken (s : State) (n : Nat) :
    (s.slotTaken n).link n = (s.link n).slot (bits (s.reg 0x20000C) 7 0) (bits (s.reg 0x20000C) 15 8) := State.link_setLink_same ..

section

variable (h : s.linkFlows n = true)

include h

theorem exec_batonSlot_of_sequenced {q : BatonWord} (hp : (s.link n).pick (bits (s.reg 0x20000C) 7 0) = .sprint q ∨
      (s.link n).pick (bits (s.reg 0x20000C) 7 0) = .mgmt q ∨ (s.link n).pick (bits (s.reg 0x20000C) 7 0) = .collective q ∨
      (s.link n).pick (bits (s.reg 0x20000C) 7 0) = .bulk q) :
    exec (.batonSlot n) s = .next (((s.slotTaken n).addWrap (linkBase n + 0x0C) 1).refill n) := by
  show execBatonSlot n s = _
  unfold execBatonSlot
  rcases hp with hp | hp | hp | hp
  all_goals
    simp only [h, hp, Bool.not_true, Bool.false_eq_true, if_false]
    rfl

theorem exec_batonSlot_of_unsequenced (hp : (s.link n).pick (bits (s.reg 0x20000C) 7 0) = .idle ∨
      (s.link n).pick (bits (s.reg 0x20000C) 7 0) = .nak) : exec (.batonSlot n) s = .next ((s.slotTaken n).refill n) := by
  show execBatonSlot n s = _
  unfold execBatonSlot
  rcases hp with hp | hp
  all_goals
    simp only [h, hp, Bool.not_true, Bool.false_eq_true, if_false]
    rfl

theorem exec_batonSlot_of_resend (hp : (s.link n).pick (bits (s.reg 0x20000C) 7 0) = .resend) :
    exec (.batonSlot n) s = .next (
      if ((s.slotTaken n).link n).replay.any fun r => decide (8 ≤ r.replays) then
        (((s.slotTaken n).addSat (linkBase n + 0x14) 1).setLink n { (s.slotTaken n).link n with
          replay := ((s.slotTaken n).link n).replay.map fun r => { r with replays := 0 } }).linkRetrain n
      else (s.slotTaken n).addSat (linkBase n + 0x14) 1) := by
  show execBatonSlot n s = _
  unfold execBatonSlot
  simp only [h, hp, Bool.not_true, Bool.false_eq_true, if_false]
  rfl

end

theorem any_replayed_iff (l : List Replay) :
    (l.any fun r => decide (8 ≤ r.replays)) = !l.all fun r => decide (r.replays < 8) := by
  rw [List.not_all_eq_any_not]
  congr 1
  funext r
  rw [← decide_not]
  congr 1
  exact propext Nat.not_lt.symm

theorem State.accept_of_other (h : s.arrives n b = true) (hb : batSeq b ≠ (s.link n).expect) :
    s.accept n b = (s.setLink n { s.link n with ackDue := true }, false) := by
  unfold State.accept
  dsimp only
  rw [if_neg (by simp [h]), if_pos hb]

theorem Link.hear_expect (l : Link) (b : BatonWord) : (l.hear b).expect = l.expect := by
  show (l.acked (batAck b)).expect = l.expect
  unfold Link.acked
  split <;> rfl

theorem State.accept_of_expected (h : s.arrives n b = true) (hb : batSeq b = (s.link n).expect) :
    s.accept n b = (((s.setLink n { (s.link n).hear b with
      expect := ((s.link n).expect + 1) % 4096, nakSent := false, ackDue := true
      creditDue := tput ((s.link n).hear b).creditDue (batVc b * 2 + batClass b)
        (tget ((s.link n).hear b).creditDue (batVc b * 2 + batClass b) 0 + 1) 0 }).addWrap (linkBase n + 0x10) 1).checkReduces
          n, true) := by
  unfold State.accept
  dsimp only
  rw [if_neg (by simp [h]), if_neg (not_not_intro hb), Link.hear_expect]

theorem batonRow_of_is {mnemonic : String} {k : Nat} (h : batonIs k b = true) (f : State) : batonRow mnemonic k b f = .next f := if_pos h

theorem exec_batonCrcFailure_of_bad (codewords : Nat) (hc : crcGood b = false) (h : s.arrives n b = true) :
    exec (.batonCrcFailure n ⟨b, codewords⟩) s = .next (
      if (s.link n).nakSent then (s.addSat (linkBase n + 0x18) 1).addSat (linkBase n + 0x20) codewords
      else ((s.addSat (linkBase n + 0x18) 1).addSat (linkBase n + 0x20) codewords).setLink n
        { s.link n with nakDue := true, nakSent := true }) := by
  show execBatonCrcFailure n ⟨b, codewords⟩ s = _
  unfold execBatonCrcFailure
  simp only [hc, h, Bool.not_true, Bool.false_eq_true, if_false]

section

variable (hc : crcGood b = true) (hm : malformed b = true) (h : s.arrives n b = true)

include hc hm

theorem exec_malformedBaton_of_unsequenced (h : s.arrives n b = true) (hk : batKind b ≤ 1) :
    exec (.malformedBaton n b) s = .next (s.addSat (linkBase n + 0x24) 1) := by
  show execMalformedBaton n b s = _
  unfold execMalformedBaton
  simp only [hc, hm, h, hk, Bool.not_true, Bool.or_self, Bool.false_eq_true, if_false, if_true]

theorem exec_malformedBaton_of_sequenced (hk : 1 < batKind b) : exec (.malformedBaton n b) s =
    .next (if (s.accept n b).2 then (s.accept n b).1.addSat (linkBase n + 0x24) 1 else (s.accept n b).1) := by
  show execMalformedBaton n b s = _
  unfold execMalformedBaton
  simp only [hc, hm, Nat.not_le.mpr hk, Bool.not_true, Bool.or_self, Bool.false_eq_true, if_false]

end

end

/-- Settles O42: a slot by what the link picks, a baton by its number. -/
theorem batonsKeepTheirSequence : Obligations.BatonsKeepTheirSequence := by
  unfold Obligations.BatonsKeepTheirSequence
  intro s n b l wc wb t
  have ht : t.link n = l.slot wc wb := State.link_setLink_same ..
  refine ⟨fun hf => ⟨fun q hp => ?_, fun hp => ?_, fun hp => ?_⟩, fun hf hr => ?_, fun hb ha => ?_, fun hb ha => ?_,
    fun a q r hl hlast hother => l.acked_replay hl hlast hother, fun codewords hc ha => ?_, fun hc hm ha => ⟨fun hk => ?_, fun hk hb => ?_,
    fun hk hb => ?_⟩, fun ha hb => State.accept_of_expected ha hb, fun ha hb => State.accept_of_other ha hb⟩
  · have hpick : l.pick wc = .sprint q ∨ l.pick wc = .mgmt q ∨ l.pick wc = .collective q ∨ l.pick wc = .bulk q := hp
    obtain ⟨hnumber, hreplay, hcredits⟩ := l.slot_sequenced wc wb hpick
    rw [ht]
    exact ⟨exec_batonSlot_of_sequenced hf hpick, hnumber, hreplay, hcredits⟩
  · obtain ⟨hreplay, hnumber, hcredits, hnak⟩ := l.slot_unsequenced wc wb hp
    rw [ht]
    exact ⟨exec_batonSlot_of_unsequenced hf hp, hreplay, hnumber, hcredits, hnak⟩
  · obtain ⟨hresend, hnumber, hreplay⟩ := l.slot_resent wc wb hp
    have hrow := exec_batonSlot_of_resend hf hp
    rw [any_replayed_iff] at hrow
    refine ⟨?_, ?_, ?_, ?_⟩
    · rw [ht, hresend]
    · rw [ht, hnumber]
    · rw [ht, hreplay]
    · intro u
      refine ⟨fun hall => ?_, fun hall => ?_⟩
      · rw [hrow, if_neg (by rw [show ((s.slotTaken n).link n) = t.link n from rfl, hall]; decide)]
        rfl
      · rw [hrow, if_pos (by rw [show ((s.slotTaken n).link n) = t.link n from rfl, hall]; decide)]
        rfl
  · exact congrArg Host.Outcome.next (if_pos (by simp [hf]; exact hr))
  · exact (batonRow_of_is hb _).trans (congrArg Host.Outcome.next (if_pos ha))
  · exact (batonRow_of_is hb _).trans (congrArg Host.Outcome.next (if_pos ha))
  · refine ⟨_, exec_batonCrcFailure_of_bad codewords hc ha, ?_, ?_, ?_⟩
    · have hreg : ∀ u : State, u.regs = ((s.addSat (linkBase n + 0x18) 1).addSat (linkBase n + 0x20) codewords).regs →
          u.reg (linkBase n + 0x18) = sat32 (s.reg (linkBase n + 0x18) + 1) := fun u hu => by
        rw [show u.reg (linkBase n + 0x18) = ((s.addSat (linkBase n + 0x18) 1).addSat (linkBase n + 0x20) codewords).reg
          (linkBase n + 0x18) by rw [State.reg, hu, State.reg]]
        rw [State.addSat, State.reg_setReg_other _ _ _ _ (by omega), State.addSat, State.reg_setReg_same]
      split
      · exact hreg _ rfl
      · exact hreg _ rfl
    · have hreg : ∀ u : State, u.regs = ((s.addSat (linkBase n + 0x18) 1).addSat (linkBase n + 0x20) codewords).regs →
          u.reg (linkBase n + 0x20) = sat32 (s.reg (linkBase n + 0x20) + codewords) := fun u hu => by
        rw [show u.reg (linkBase n + 0x20) = ((s.addSat (linkBase n + 0x18) 1).addSat (linkBase n + 0x20) codewords).reg
          (linkBase n + 0x20) by rw [State.reg, hu, State.reg]]
        rw [State.addSat, State.reg_setReg_same, State.addSat, State.reg_setReg_other _ _ _ _ (by omega)]
      split
      · exact hreg _ rfl
      · exact hreg _ rfl
    · split
      · rw [State.link_addSat, State.link_addSat]
      · rw [State.link_setLink_same]
  · exact exec_malformedBaton_of_unsequenced hc hm ha hk
  · rw [exec_malformedBaton_of_sequenced hc hm hk, State.accept_of_expected ha hb]
    rfl
  · rw [exec_malformedBaton_of_sequenced hc hm hk, State.accept_of_other ha hb]
    rfl

end Sys2Proof.Machine

end

section

/-! Routed batons (chapter 10): O43. -/

namespace Sys2Proof.Machine

open Sys2Proof Sys2Proof.Safety

/-! ### A transfer and its batons -/

section

variable {s : State} {cx : Fin 16} {c : Cmd}

/-- The transfer that a BULK_SEND stands for on the link `link`. -/
def Cmd.bulk (c : Cmd) (id : CmdId) (link : Nat) : Bulk :=
  ⟨id, fld c.desc 203 192, fld c.desc 223 208, link, fld c.desc 303 256, fld c.desc 351 320, 0⟩

/-- What a BULK_SEND does once it has issued. -/
def bulkWork (t : State) (id : CmdId) (c : Cmd) : State :=
  let l := t.routeLinks (fld c.desc 203 192)
  if l = [] then t.finish id 0x0401 0
  else ({ t with links := { t.links with
    bulks := t.links.bulks ++ [c.bulk id (nth l ((fld c.desc 203 192 + fld c.desc 223 208) % l.length) 0)] } } : State).bulkFill id

theorem exec_bulkSend_of_issues (h : issues s cx 1 (wantKind 0x12) (s.pinsFor cx c) c) : exec (.bulkSend cx) s =
    .next (bulkWork (s.markIssued ⟨cx, 1, c.index⟩ (s.pinsFor cx c)) ⟨cx, 1, c.index⟩ (stamped s cx (s.pinsFor cx c) c)) :=
  congrArg Host.Outcome.next (State.issueHead_of_issues (pinsOf := fun t c => t.pinsFor cx c) h bulkWork)

end

section

variable {s : State} {id : CmdId} {b : Bulk} (h : s.links.bulks.find? (fun x => x.cmd == id) = some b)

include h

theorem State.bulkStep_of_idle (hi : b.len ≤ 256 * b.next ∨ 64 ≤ s.bulkUnsent b) : s.bulkStep id = s := by
  unfold State.bulkStep
  rw [h]
  exact if_pos hi

variable (hl : 256 * b.next < b.len) (hu : s.bulkUnsent b < 64)

include hl hu

theorem State.bulkStep_of_unread {st : Nat} {l : Marked} (hst : st ≠ 0)
    (hr : s.cvaRead id (b.va + 256 * b.next) (min 256 (b.len - 256 * b.next)) = (st, l)) :
    s.bulkStep id = (s.dropBulk b).finish id st 0 := by
  unfold State.bulkStep
  rw [h]
  dsimp only
  rw [if_neg (by simp [hl, hu]), hr]
  cases st with
  | zero => exact absurd rfl hst
  | succ st => rfl

theorem State.bulkStep_of_read {l : Marked}
    (hr : s.cvaRead id (b.va + 256 * b.next) (min 256 (b.len - 256 * b.next)) = (0, l)) :
    s.bulkStep id = if anyPoison l then (s.dropBulk b).consumePoison id else
      s.bulkSent id b ((s.noteRead id (s.isLive id.cx) (b.va + 256 * b.next) (min 256 (b.len - 256 * b.next))).routeNew 2 b.dst
        b.tag b.next (min 256 (b.len - 256 * b.next)) (b.len ≤ 256 * b.next + 256) (unmark l)) := by
  unfold State.bulkStep
  rw [h]
  dsimp only
  rw [if_neg (by simp [hl, hu]), hr]
  rfl

end

/-! ### Routed batons -/

section

variable {s : State} {n : Fin 36} {b : BatonWord}

theorem seqRow_of_expected {mnemonic : String} {k : Nat} {f : State → State} (hk : batonIs k b = true)
    (ha : s.arrives n b = true) (hb : batSeq b = (s.link n).expect) : seqRow mnemonic k n b s f = .next (f (s.accept n b).1) := by
  have hok : (s.accept n b).2 = true := by rw [State.accept_of_expected ha hb]
  refine (batonRow_of_is hk _).trans (congrArg Host.Outcome.next ?_)
  dsimp only
  rw [hok]
  exact if_pos rfl

section

variable (ha : s.arrives n b = true) (hb : batSeq b = (s.link n).expect)

include ha hb

theorem exec_bulkBaton_of_expected (hk : batonIs 2 b = true) : exec (.bulkBaton n b) s =
    .next (if batDst b = (s.accept n b).1.moduleId then (s.accept n b).1.bulkHere b else (s.accept n b).1.forward n b) := by
  show execBulkBaton n b s = _
  unfold execBulkBaton
  rw [seqRow_of_expected hk ha hb]

theorem exec_doneBaton_of_expected (hk : batonIs 3 b = true) : exec (.doneBaton n b) s =
    .next (if batDst b ≠ (s.accept n b).1.moduleId then (s.accept n b).1.forward n b
      else (s.accept n b).1.bulkEnd (fun k => k.dst == batSrc b && k.tag == batTag b)
        (if bits (batDetail b) 7 0 = 0 then 0 else 0x0400 + bits (batDetail b) 7 0)) := by
  show execDoneBaton n b s = _
  unfold execDoneBaton
  rw [seqRow_of_expected hk ha hb]

theorem exec_unreachBaton_of_expected (hk : batonIs 4 b = true) : exec (.unreachBaton n b) s =
    .next (if batDst b ≠ (s.accept n b).1.moduleId then (s.accept n b).1.forward n b
      else (s.accept n b).1.bulkEnd (fun k => k.tag == batTag b) (bits (batDetail b) 15 0)) := by
  show execUnreachBaton n b s = _
  unfold execUnreachBaton
  rw [seqRow_of_expected hk ha hb]

theorem exec_mgmtBaton_of_expected (hk : batonIs 8 b = true) : exec (.mgmtBaton n b) s =
    .next (if batDst b = (s.accept n b).1.moduleId then
      { (s.accept n b).1 with links := { (s.accept n b).1.links with mgmtIn := (s.accept n b).1.links.mgmtIn ++ [b] } }
      else (s.accept n b).1.forward n b) := by
  show execMgmtBaton n b s = _
  unfold execMgmtBaton
  rw [seqRow_of_expected hk ha hb]

end

theorem State.forward_of_hopless (link : Nat) (h : batHops b ≤ 1) : s.forward link b = s.discard b := if_pos h

theorem State.forward_of_route {link k : Nat} {u : State} (h : 1 < batHops b)
    (hr : s.route (some link) (setBat b 67 62 (batHops b - 1)) = some (u, k)) : s.forward link b = u := by
  unfold State.forward
  rw [if_neg (Nat.not_le.mpr h), hr]

theorem State.forward_of_noRoute {link : Nat} (h : 1 < batHops b)
    (hr : s.route (some link) (setBat b 67 62 (batHops b - 1)) = none) : s.forward link b = s.discard b := by
  unfold State.forward
  rw [if_neg (Nat.not_le.mpr h), hr]

end

/-! ### A BULK baton at its destination -/

/-- What has arrived of a transfer once `b` has, with the status `st` of its landing. -/
def Landing.arrived (l : Landing) (b : BatonWord) (st : Nat) : Landing :=
  ⟨l.count + 1, if batLast b then batOffset b + 1 else l.total, if l.status = 0 then st else l.status, max l.top (batOffset b + 1)⟩

/-- The state after a landing of status `st`: LK_DISCARD counts the baton that R286 discards. -/
def State.counted (s : State) (st : Nat) : State := if st = 0x03 then s.addSat 0x200014 1 else s

/-- The end of a transfer: DONE with the landing's status, the bytes of a failed one undefined (R285). -/
def State.landed (v : State) (b : BatonWord) (m : Landing) : State :=
  let t := v.setLanding (batSrc b) (batTag b) ⟨0, 0, 0, 0⟩
  let t := if m.status = 0 then t else t.landHavoc (batTag b) m.top
  t.sendDone (bits (t.reg (landBase (batTag b % 256))) 4 1) (batSrc b) (batTag b) m.status

theorem State.landed_of_success {v : State} {b : BatonWord} {m : Landing} (h : m.status = 0) :
    v.landed b m = (v.setLanding (batSrc b) (batTag b) ⟨0, 0, 0, 0⟩).sendDone
      (bits ((v.setLanding (batSrc b) (batTag b) ⟨0, 0, 0, 0⟩).reg (landBase (batTag b % 256))) 4 1) (batSrc b) (batTag b)
      m.status := by
  unfold State.landed
  dsimp only
  rw [if_pos h]

theorem State.landed_of_failure {v : State} {b : BatonWord} {m : Landing} (h : m.status ≠ 0) :
    v.landed b m = ((v.setLanding (batSrc b) (batTag b) ⟨0, 0, 0, 0⟩).landHavoc (batTag b) m.top).sendDone
      (bits (((v.setLanding (batSrc b) (batTag b) ⟨0, 0, 0, 0⟩).landHavoc (batTag b) m.top).reg (landBase (batTag b % 256))) 4 1)
      (batSrc b) (batTag b) m.status := by
  unfold State.landed
  dsimp only
  rw [if_neg h]

theorem State.bulkHere_of_land {s u : State} {b : BatonWord} {st : Nat} (h : (s.landStart b).land b = (u, st)) :
    s.bulkHere b =
      if (((u.counted st).landing (batSrc b) (batTag b)).arrived b st).total ≠ 0 ∧
        (((u.counted st).landing (batSrc b) (batTag b)).arrived b st).total ≤
          (((u.counted st).landing (batSrc b) (batTag b)).arrived b st).count
      then (u.counted st).landed b (((u.counted st).landing (batSrc b) (batTag b)).arrived b st)
      else (u.counted st).setLanding (batSrc b) (batTag b) (((u.counted st).landing (batSrc b) (batTag b)).arrived b st) := by
  unfold State.bulkHere
  rw [h]
  rfl

/-- Settles O43: a transfer by the link it has, one of its steps by what its bytes read as, an accepted baton by its
destination, and a landing by how much of its transfer has arrived. -/
theorem routedBatonsArrive : Obligations.RoutedBatonsArrive := by
  unfold Obligations.RoutedBatonsArrive
  refine ⟨?_, ?_, ?_, ?_⟩
  · intro s cx c id t dst tag l h
    exact ⟨fun hl => (exec_bulkSend_of_issues h).trans (congrArg Host.Outcome.next (if_pos hl)),
      fun hl => (exec_bulkSend_of_issues h).trans (congrArg Host.Outcome.next (if_neg hl))⟩
  · intro s id b hb n
    refine ⟨fun hh => if_neg hh, fun hh => if_pos hh, State.bulkStep_of_idle hb, fun hl hu =>
      ⟨fun st l hst hr => State.bulkStep_of_unread hb hl hu hst hr, ?_⟩⟩
    intro l hr t sent
    have hrow := State.bulkStep_of_read hb hl hu hr
    refine ⟨fun hp => ?_, fun hp hs => ?_, fun u link hp hs => ?_⟩
    · rw [hrow, if_pos hp]
    · rw [hrow, if_neg (by simp [hp])]
      exact congrArg (s.bulkSent id b) hs
    · rw [hrow, if_neg (by simp [hp])]
      exact congrArg (s.bulkSent id b) hs
  · intro s n b ha hb t
    refine ⟨fun hd => ⟨fun hk => ?_, fun hk => ?_, fun hk => ?_, fun hk => ?_⟩,
      fun hd => ⟨fun hk => ?_, fun hk => ?_, fun hk => ?_, fun hk => ?_, State.forward_of_hopless n,
        fun h u link hr => State.forward_of_route h hr, State.forward_of_noRoute⟩⟩
    · rw [exec_bulkBaton_of_expected ha hb hk, if_pos hd]
    · rw [exec_doneBaton_of_expected ha hb hk, if_neg (not_not.mpr hd)]
    · rw [exec_unreachBaton_of_expected ha hb hk, if_neg (not_not.mpr hd)]
    · rw [exec_mgmtBaton_of_expected ha hb hk, if_pos hd]
    · rw [exec_bulkBaton_of_expected ha hb hk, if_neg hd]
    · rw [exec_doneBaton_of_expected ha hb hk, if_pos hd]
    · rw [exec_unreachBaton_of_expected ha hb hk, if_pos hd]
    · rw [exec_mgmtBaton_of_expected ha hb hk, if_neg hd]
  · intro s u b st h v l m cleared done
    refine ⟨fun hm => ?_, fun h0 hm hs => ?_, fun h0 hm hs => ?_⟩
    · rw [State.bulkHere_of_land h]
      exact if_neg fun ⟨h0, h1⟩ => hm.elim h0 (Nat.not_lt.mpr h1)
    · rw [State.bulkHere_of_land h]
      exact (if_pos ⟨h0, hm⟩).trans (State.landed_of_success hs)
    · rw [State.bulkHere_of_land h]
      exact (if_pos ⟨h0, hm⟩).trans (State.landed_of_failure hs)

end Sys2Proof.Machine

end

section

/-! Groups and what an operation leaves of them (chapter 11): O44. -/

namespace Sys2Proof.Machine

open Sys2Proof Sys2Proof.Safety

/-! ### What leaves the groups alone -/

section

variable (s : State)

@[simp] theorem State.group_setGroup_same (cx gi : Nat) (v : Group) : (s.setGroup cx gi v).group cx gi = v :=
  tget_tput_same ..

theorem State.group_setGroup_other (cx : Nat) {gi k : Nat} (v : Group) (h : k ≠ gi) :
    (s.setGroup cx gi v).group cx k = s.group cx k :=
  tget_tput_other _ _ _ _ _ _ (by omega)

theorem State.group_of_links {s t : State} (h : t.links.groups = s.links.groups) (cx gi : Nat) : t.group cx gi = s.group cx gi := by
  unfold State.group
  rw [h]

theorem State.finish_links (id : CmdId) (status result : Nat) : (s.finish id status result).links = s.links :=
  (State.finish_keeps (P := [.module, .kv, .hosts, .regs, .rel, .fw]) s id status result (Keeps.refl s) (by decide) (by decide)
    (by decide) (by decide) (by decide) (by decide)).parts .links (by decide)

@[simp] theorem State.group_finish (id : CmdId) (status result cx gi : Nat) :
    (s.finish id status result).group cx gi = s.group cx gi :=
  State.group_of_links (congrArg Links.groups (s.finish_links id status result)) cx gi

theorem State.cvaHavoc_links (id : CmdId) (va n : Nat) : (s.cvaHavoc id va n).links = s.links :=
  (State.cvaHavoc_keeps (P := [.memory, .tiers, .kv, .draws]) s id va n (Keeps.refl s) (by decide) (by decide) (by decide)
    (by decide)).parts .links (by decide)

theorem State.spoilError_groups (m : Message) (status : Nat) : (s.spoilError m status).links.groups = s.links.groups := by
  unfold State.spoilError
  split
  · rfl
  · split
    · rfl
    · next c _ =>
      have hgroups : (s.cvaHavoc m.cmd (s.streamErr (collStream c.ext)) (4 * min m.len m.cap)).links.groups = s.links.groups := by
        rw [State.cvaHavoc_links]
      exact hgroups

theorem State.sendOn_groups (n : Nat) (b : BatonWord) : (s.sendOn n b).links.groups = s.links.groups := rfl

theorem State.control_groups (g : Group) (k : Nat × Nat) (code msg : Nat) (payload : List Byte) :
    (s.control g k code msg payload).links.groups = s.links.groups := by
  unfold State.control
  exact s.sendOn_groups k.2 _

theorem State.unbindGroup_groups (cx gi : Nat) : (s.unbindGroup cx gi).links.groups = s.links.groups := by
  unfold State.unbindGroup
  refine iter_same (fun u : State => u.links.groups) 256 _ s fun n u => ?_
  split
  · unfold State.unbindStream
    dsimp only
    split
    · rfl
    · rw [State.setReg_links]
      rfl
  · rfl

end

/-! ### The end of a group's messages -/

/-- What a group's end says: its mode and the abort it names. -/
def Group.verdict (g : Group) : GroupMode × Nat × Nat := (g.mode, g.abort, g.abortMember)

theorem Group.verdict_noteSlow (g : Group) (m : Message) : (g.noteSlow m).verdict = g.verdict := rfl

theorem State.verdict_endMessage (s : State) (cx gi : Nat) (m : Message) (status : Nat) (named : Bool) :
    ((s.endMessage cx gi m status named).group cx gi).verdict = (s.group cx gi).verdict := by
  have hgroup : ((s.spoilError m status).group cx gi) = s.group cx gi := State.group_of_links (s.spoilError_groups m status) cx gi
  unfold State.endMessage
  dsimp only
  rw [State.group_setGroup_same, hgroup]
  split <;> rfl

theorem State.verdict_endGroup (s : State) (cx gi status : Nat) :
    ((s.endGroup cx gi status).group cx gi).verdict = (s.group cx gi).verdict := by
  have hmsgs : ∀ l : List Message, ((l.foldl (fun t m => (t.endMessage cx gi m status false).finish m.cmd status
      (((t.cmd? m.cmd).map Cmd.result).getD 0)) s).group cx gi).verdict = (s.group cx gi).verdict := fun l =>
    foldl_same (fun u : State => (u.group cx gi).verdict) l _ s fun u m => by
      rw [State.group_finish, State.verdict_endMessage]
  unfold State.endGroup
  dsimp only
  split
  · exact hmsgs _
  · rw [State.group_finish, State.group_setGroup_same]
    exact hmsgs _

theorem State.verdict_abortGroup {s : State} {cx gi : Nat} (status member : Nat) (h : (s.group cx gi).live = true) :
    ((s.abortGroup cx gi status member).group cx gi).verdict = (.broken, status, member) := by
  unfold State.abortGroup State.breakGroup
  dsimp only
  rw [if_neg (by simp [h]), State.verdict_endGroup, State.group_setGroup_same]
  rfl

/-! ### Formation -/

/-- The group that a record's formation enters: the record's identity and members, forming or already active. -/
structure Group.Formed (g : Group) (h : Nat) (ms : List Member) : Prop where
  gid : g.gid = grpGid h
  members : g.members = ms
  gen : g.gen = grpGen h
  mode : g.mode = .forming ∨ g.mode = .active

theorem State.formStep_formed {s : State} {cx gi h : Nat} {ms : List Member} (hf : (s.group cx gi).Formed h ms) :
    ((s.formStep cx gi).group cx gi).Formed h ms := by
  unfold State.formStep
  dsimp only
  split
  · exact hf
  · split
    · rwa [State.group_of_links (s.control_groups ..)]
    · have hkids : ∀ l : List (Nat × Nat), (l.foldl (fun t k => t.control (s.group cx gi) k 2 0 [0]) s).group cx gi =
          s.group cx gi := fun l => foldl_same (fun u : State => u.group cx gi) l _ s fun u k =>
          State.group_of_links (u.control_groups _ k 2 0 [0]) cx gi
      have hactive : Group.Formed { s.group cx gi with mode := .active, cmd := none } h ms :=
        ⟨hf.gid, hf.members, hf.gen, .inr rfl⟩
      split
      · rwa [State.group_finish, State.group_setGroup_same, hkids]
      · rwa [State.group_setGroup_same, hkids]

theorem State.startForm_formed (s : State) (id : CmdId) (cx gi h : Nat) (ms : List Member) (self : Nat)
    (kids : List (Nat × Nat)) (iface staged : Nat) (digest : List Byte) :
    ((s.startForm id cx gi h ms self kids iface staged digest).group cx gi).Formed h ms := by
  refine State.formStep_formed ?_
  rw [State.group_setGroup_same]
  exact ⟨rfl, rfl, rfl, .inl rfl⟩

section

variable {t : State} {id : CmdId} {c : Cmd} {again : Bool}

theorem State.formRun_of_bad (hb : formBad c.ext = true) : t.formRun again id c = t.finish id 0x0501 0 := if_pos hb

variable (hb : formBad c.ext = false)

include hb

theorem State.formRun_of_frozen (hf : again = true ∧ ((t.group id.cx (collGroup c.ext)).pinned = true ∨
    ((t.group id.cx (collGroup c.ext)).mode ≠ .active ∧ (t.group id.cx (collGroup c.ext)).mode ≠ .broken))) :
    t.formRun again id c = t.finish id 0x0506 0 := by
  unfold State.formRun
  dsimp only
  rw [if_neg (by simp [hb]), if_pos (by simpa using hf)]

variable {st st2 : Nat} {head body : Marked}
  (hf : ¬(again = true ∧ ((t.group id.cx (collGroup c.ext)).pinned = true ∨
    ((t.group id.cx (collGroup c.ext)).mode ≠ .active ∧ (t.group id.cx (collGroup c.ext)).mode ≠ .broken))))
  (h1 : t.cvaRead id (collSrcVa c.ext) 64 = (st, head))
  (h2 : t.cvaRead id (collSrcVa c.ext + 64) (8 * min (grpMembers (ofBytes (unmark head))) 4096) = (st2, body))

/-- What a formation does with its record: `h` and `ms` are the record's header and members. -/
def State.formOf (t : State) (again : Bool) (id : CmdId) (gi h : Nat) (head body : Marked) (ms : List Member) : State :=
  if again ∧ (grpGen h ≠ wrap32 ((t.group id.cx gi).gen + 1) ∨ ms = (t.group id.cx gi).members) then t.finish id 0x0506 0
  else if recordBad t.moduleId h (unmark body) ms then t.finish id 0x0503 0
  else
  match t.treePlace ms with
  | none => t.finish id 0x0503 0
  | some (self, kids) =>
    if (!again && (t.group id.cx gi).mode != .free) || (grpPinned h && decide (4 ≤ t.pinnedGroups id.cx gi)) then
      t.finish id 0x050C 0
    else if t.gidHeld id.cx gi (grpGid h) then t.finish id 0x050F 0
    else
      let (iface, need) := stagingOf ms self kids (grpWindow h)
      let back := if again && (t.group id.cx gi).iface == iface then (t.group id.cx gi).staged else 0
      if 4194304 < tget t.links.stagingUsed iface 0 - back + need then t.finish id 0x0504 0
      else (if again then (t.unbindGroup id.cx gi).returnStaging id.cx gi else t).startForm id id.cx gi h ms self kids iface need
        (sha256 (unmark head ++ unmark body))

include hf h1 h2

theorem State.formRun_of_read : t.formRun again id c =
    if st = 0x030A ∨ (st = 0 ∧ st2 = 0x030A) then t.finish id 0x030A 0
    else if st ≠ 0 ∨ st2 ≠ 0 then t.finish id 0x050A 0
    else if anyPoison head || anyPoison body then t.consumePoison id
    else t.formOf again id (collGroup c.ext) (ofBytes (unmark head)) head body
      (membersOf (min (grpMembers (ofBytes (unmark head))) 4096) (unmark body)) := by
  unfold State.formRun
  dsimp only
  rw [if_neg (by simp [hb]), if_neg (by simpa using hf), h1]
  dsimp only
  rw [h2]
  rfl

end

section

variable {t : State} {id : CmdId} {again : Bool} {gi h : Nat} {head body : Marked} {ms : List Member}

theorem State.formOf_of_stale (hs : again = true ∧ (grpGen h ≠ wrap32 ((t.group id.cx gi).gen + 1) ∨
    ms = (t.group id.cx gi).members)) : t.formOf again id gi h head body ms = t.finish id 0x0506 0 := if_pos hs

variable (hs : ¬(again = true ∧ (grpGen h ≠ wrap32 ((t.group id.cx gi).gen + 1) ∨ ms = (t.group id.cx gi).members)))

include hs

theorem State.formOf_of_badRecord (hr : recordBad t.moduleId h (unmark body) ms = true ∨ t.treePlace ms = none) :
    t.formOf again id gi h head body ms = t.finish id 0x0503 0 := by
  unfold State.formOf
  rw [if_neg hs]
  split
  · rfl
  · next hgood => rw [hr.resolve_left hgood]

variable (hr : recordBad t.moduleId h (unmark body) ms = false) {self : Nat} {kids : List (Nat × Nat)}
  (hp : t.treePlace ms = some (self, kids))

include hr hp

theorem State.formOf_of_full (hf : (again = false ∧ (t.group id.cx gi).mode ≠ .free) ∨
    (grpPinned h = true ∧ 4 ≤ t.pinnedGroups id.cx gi)) : t.formOf again id gi h head body ms = t.finish id 0x050C 0 := by
  unfold State.formOf
  rw [if_neg hs, if_neg (by simp [hr]), hp]
  exact if_pos (by simpa using hf)

variable (hf : ¬((again = false ∧ (t.group id.cx gi).mode ≠ .free) ∨ (grpPinned h = true ∧ 4 ≤ t.pinnedGroups id.cx gi)))

include hf

theorem State.formOf_of_gidHeld (hg : t.gidHeld id.cx gi (grpGid h) = true) :
    t.formOf again id gi h head body ms = t.finish id 0x050F 0 := by
  unfold State.formOf
  rw [if_neg hs, if_neg (by simp [hr]), hp]
  dsimp only
  rw [if_neg (by simpa using hf), if_pos hg]

variable (hg : t.gidHeld id.cx gi (grpGid h) = false) {iface need : Nat} (hst : stagingOf ms self kids (grpWindow h) = (iface, need))

include hg hst

theorem State.formOf_of_staging : t.formOf again id gi h head body ms =
    if 4194304 < tget t.links.stagingUsed iface 0 -
        (if again = true ∧ (t.group id.cx gi).iface = iface then (t.group id.cx gi).staged else 0) + need
    then t.finish id 0x0504 0
    else (if again = true then (t.unbindGroup id.cx gi).returnStaging id.cx gi else t).startForm id id.cx gi h ms self kids iface
      need (sha256 (unmark head ++ unmark body)) := by
  unfold State.formOf
  rw [if_neg hs, if_neg (by simp [hr]), hp]
  dsimp only
  rw [if_neg (by simpa using hf), if_neg (by simp [hg]), hst]
  simp only [Bool.and_eq_true, beq_iff_eq]

theorem State.formOf_of_past (hpast : 4194304 < tget t.links.stagingUsed iface 0 -
      (if again = true ∧ (t.group id.cx gi).iface = iface then (t.group id.cx gi).staged else 0) + need) :
    t.formOf again id gi h head body ms = t.finish id 0x0504 0 := by
  rw [State.formOf_of_staging hs hr hp hf hg hst, if_pos hpast]

theorem State.formOf_of_fits (hpast : ¬4194304 < tget t.links.stagingUsed iface 0 -
      (if again = true ∧ (t.group id.cx gi).iface = iface then (t.group id.cx gi).staged else 0) + need) :
    t.formOf again id gi h head body ms =
      (if again = true then (t.unbindGroup id.cx gi).returnStaging id.cx gi else t).startForm id id.cx gi h ms self kids iface need
        (sha256 (unmark head ++ unmark body)) := by
  rw [State.formOf_of_staging hs hr hp hf hg hst, if_neg hpast]

end

/-! ### The rows of ring 2 -/

section

variable {s : State} {cx : Fin 16} {c : Cmd} {op : Nat}
  (h : issues s cx 2 (fun d => wantKind 0x20 d && (collOp d.ext == op || !collNamed (collOp d.ext))) (collPins cx s c) c)

include h

theorem State.collRun_of_issues (run : State → CmdId → Cmd → State) : s.collRun cx op run =
    if collNamed (collOp c.ext) then
      run (s.markIssued ⟨cx, 2, c.index⟩ (collPins cx s c)) ⟨cx, 2, c.index⟩ (stamped s cx (collPins cx s c) c)
    else (s.markIssued ⟨cx, 2, c.index⟩ (collPins cx s c)).finish ⟨cx, 2, c.index⟩ 0x0501 0 :=
  State.issueHead_of_issues (pinsOf := collPins cx) h _

theorem State.collRun_of_unnamed (run : State → CmdId → Cmd → State) (hn : collNamed (collOp c.ext) = false) :
    s.collRun cx op run = (s.markIssued ⟨cx, 2, c.index⟩ (collPins cx s c)).finish ⟨cx, 2, c.index⟩ 0x0501 0 := by
  rw [State.collRun_of_issues h, if_neg (by simp [hn])]

theorem State.collRun_of_named (run : State → CmdId → Cmd → State) (hn : collNamed (collOp c.ext) = true) :
    s.collRun cx op run =
      run (s.markIssued ⟨cx, 2, c.index⟩ (collPins cx s c)) ⟨cx, 2, c.index⟩ (stamped s cx (collPins cx s c) c) := by
  rw [State.collRun_of_issues h, if_pos hn]

end

/-- What a GROUP_FREE does once it has issued. -/
def groupFreeWork (t : State) (id : CmdId) (c : Cmd) : State :=
  if formBad c.ext then t.finish id 0x0501 0 else
  (((t.unbindGroup id.cx (collGroup c.ext)).returnStaging id.cx (collGroup c.ext)).setGroup id.cx (collGroup c.ext)
    Group.empty).finish id 0 0

theorem State.group_freed_other (t : State) (cx : Nat) {gi k : Nat} (h : k ≠ gi) :
    (((t.unbindGroup cx gi).returnStaging cx gi).setGroup cx gi Group.empty).group cx k = t.group cx k := by
  rw [State.group_setGroup_other _ _ _ h]
  have hunbind : (t.unbindGroup cx gi).group cx k = t.group cx k := State.group_of_links (t.unbindGroup_groups cx gi) cx k
  generalize t.unbindGroup cx gi = u at hunbind ⊢
  unfold State.returnStaging
  dsimp only
  rw [State.group_setGroup_other _ _ _ h]
  exact hunbind

theorem exec_collRun_of_mem {cx : Fin 16} {op : Nat} {row : Instr}
    (h : (op, row) ∈ [(1, Instr.reduce cx), (2, Instr.bcast cx), (3, Instr.sprint cx), (0x10, Instr.form cx),
      (0x11, Instr.reform cx), (0x12, Instr.groupFree cx)]) :
    ∃ run, ∀ s : State, exec row s = .next (s.collRun cx op run) := by
  simp only [List.mem_cons, Prod.mk.injEq, List.not_mem_nil, or_false] at h
  obtain ⟨rfl, rfl⟩ | ⟨rfl, rfl⟩ | ⟨rfl, rfl⟩ | ⟨rfl, rfl⟩ | ⟨rfl, rfl⟩ | ⟨rfl, rfl⟩ := h
  all_goals exact ⟨_, fun s => rfl⟩

/-- The rows of a formation: FORM and REFORM run `State.formRun`, GROUP_FREE `groupFreeWork`. -/
theorem exec_formRow_of_mem {cx : Fin 16} {op : Nat} {row : Instr}
    (h : (op, row) ∈ [(1, Instr.reduce cx), (2, Instr.bcast cx), (3, Instr.sprint cx), (0x10, Instr.form cx),
      (0x11, Instr.reform cx), (0x12, Instr.groupFree cx)]) (s : State) :
    (op = 0x10 → exec row s = .next (s.collRun cx op (State.formRun false))) ∧
    (op = 0x11 → exec row s = .next (s.collRun cx op (State.formRun true))) ∧
    (op = 0x12 → exec row s = .next (s.collRun cx op groupFreeWork)) := by
  simp only [List.mem_cons, Prod.mk.injEq, List.not_mem_nil, or_false] at h
  obtain ⟨rfl, rfl⟩ | ⟨rfl, rfl⟩ | ⟨rfl, rfl⟩ | ⟨rfl, rfl⟩ | ⟨rfl, rfl⟩ | ⟨rfl, rfl⟩ := h
  case inr.inr.inr.inl => exact ⟨fun _ => rfl, fun h => absurd h (by decide), fun h => absurd h (by decide)⟩
  case inr.inr.inr.inr.inl => exact ⟨fun h => absurd h (by decide), fun _ => rfl, fun h => absurd h (by decide)⟩
  case inr.inr.inr.inr.inr => exact ⟨fun h => absurd h (by decide), fun h => absurd h (by decide), fun _ => rfl⟩
  all_goals exact ⟨fun h => absurd h (by decide), fun h => absurd h (by decide), fun h => absurd h (by decide)⟩

/-- Settles O44: the rows of ring 2 by the op they name, a formation check by check in its order, and a member's absence by
`State.verdict_abortGroup`. -/
theorem groupsFormAndBreak : Obligations.GroupsFormAndBreak := by
  unfold Obligations.GroupsFormAndBreak
  refine ⟨?_, ?_⟩
  · intro s cx c op row hrow h x id t gi g ends
    obtain ⟨hform, hreform, hfree⟩ := exec_formRow_of_mem hrow s
    have hnamed : collOp x = op → collNamed (collOp x) = true := fun ho => by
      rw [ho]
      simp only [List.mem_cons, Prod.mk.injEq, List.not_mem_nil, or_false] at hrow
      obtain ⟨rfl, -⟩ | ⟨rfl, -⟩ | ⟨rfl, -⟩ | ⟨rfl, -⟩ | ⟨rfl, -⟩ | ⟨rfl, -⟩ := hrow <;> decide
    have hruns : ∀ again : Bool, op = (if again then 0x11 else 0x10) → collOp x = op →
        exec row s = .next (t.formRun again id (stamped s cx (collPins cx s c) c)) := fun again ha ho => by
      cases again with
      | false => rw [hform ha, State.collRun_of_named h _ (hnamed ho)]
      | true => rw [hreform ha, State.collRun_of_named h _ (hnamed ho)]
    have hfrees : op = 0x12 → collOp x = op →
        exec row s = .next (groupFreeWork t id (stamped s cx (collPins cx s c) c)) := fun ha ho => by
      rw [hfree ha, State.collRun_of_named h _ (hnamed ho)]
    refine ⟨fun hn => ?_, fun ho hop hb => ?_, fun ho hop hb => ?_, ?_⟩
    · obtain ⟨run, hrun⟩ := exec_collRun_of_mem hrow
      exact (hrun s).trans (congrArg Host.Outcome.next (State.collRun_of_unnamed h run hn))
    · have hop' : op = 0x10 ∨ op = 0x11 ∨ op = 0x12 := by
        simp only [List.mem_cons, Prod.mk.injEq, List.not_mem_nil, or_false] at hrow
        omega
      obtain hop' | hop' | hop' := hop'
      · exact (hruns false hop' ho).trans (congrArg Host.Outcome.next (State.formRun_of_bad hb))
      · exact (hruns true hop' ho).trans (congrArg Host.Outcome.next (State.formRun_of_bad hb))
      · exact (hfrees hop' ho).trans (congrArg Host.Outcome.next (if_pos hb))
    · refine ⟨((t.unbindGroup cx gi).returnStaging cx gi).setGroup cx gi Group.empty, ?_, State.group_setGroup_same ..,
        fun k hk _ => State.group_freed_other t cx hk⟩
      exact (hfrees hop ho).trans (congrArg Host.Outcome.next (if_neg (by simp [stamped, x, hb])))
    · intro again ha ho hb frozen
      clear hfrees
      clear_value t
      refine ⟨fun hf => (hruns again ha ho).trans (congrArg Host.Outcome.next (State.formRun_of_frozen hb hf)), ?_⟩
      intro st st2 head body hf h1 h' ms stale h2
      have hread := (hruns again ha ho).trans (congrArg Host.Outcome.next (State.formRun_of_read hb hf h1 h2))
      refine ⟨fun hst => hread.trans (congrArg Host.Outcome.next (if_pos hst)),
        fun hn hst => hread.trans (congrArg Host.Outcome.next ((if_neg hn).trans (if_pos hst))), fun h0 h0' => ?_⟩
      have hgot := hread.trans (congrArg Host.Outcome.next ((if_neg (by simp [h0, h0'])).trans (if_neg (by simp [h0, h0']))))
      refine ⟨fun hp => hgot.trans (congrArg Host.Outcome.next (if_pos hp)), fun hp hp' => ?_⟩
      have hform : exec row s = .next (t.formOf again id gi h' head body ms) := hgot.trans (congrArg Host.Outcome.next (if_neg (by simp [hp, hp'])))
      refine ⟨fun hs => hform.trans (congrArg Host.Outcome.next (State.formOf_of_stale (id := id) hs)),
        fun hs hr => hform.trans (congrArg Host.Outcome.next (State.formOf_of_badRecord (id := id) hs hr)),
        fun hs hr self kids iface need htree hst => ?_⟩
      intro full back past base
      refine ⟨fun hfull => hform.trans (congrArg Host.Outcome.next (State.formOf_of_full (id := id) hs hr htree hfull)),
        fun hfull hg => hform.trans (congrArg Host.Outcome.next (State.formOf_of_gidHeld (id := id) hs hr htree hfull hg)),
        fun hfull hg => ?_⟩
      refine ⟨fun hpast => ?_, fun hpast => ?_⟩
      · exact hform.trans (congrArg Host.Outcome.next (State.formOf_of_past (id := id) hs hr htree hfull hg hst hpast))
      · obtain ⟨hgid, hmembers, hgen, hmode⟩ :=
          State.startForm_formed base id cx gi h' ms self kids iface need (sha256 (unmark head ++ unmark body))
        refine ⟨_, ?_, rfl, hgid, hmembers, hgen, hmode⟩
        rw [hform, State.formOf_of_fits (id := id) hs hr htree hfull hg hst hpast]
  · intro s cx gi
    refine ⟨fun hlive => congrArg Host.Outcome.next ?_, fun m hlive hm => ?_⟩
    · dsimp only
      split
      · rfl
      · next hnot =>
        rw [hlive.resolve_left (by simpa using hnot)]
    · have hverdict := State.verdict_abortGroup 0x0508 m hlive
      obtain ⟨hmode, hverdict⟩ := Prod.mk.inj hverdict
      obtain ⟨habort, hmember⟩ := Prod.mk.inj hverdict
      refine ⟨s.abortGroup cx gi 0x0508 m, congrArg Host.Outcome.next ?_, hmode, habort, hmember⟩
      dsimp only
      rw [if_neg (by simp [hlive]), hm]

end Sys2Proof.Machine

end

section

/-! Collective commands, their sums and their batons (chapter 11): O45. -/

namespace Sys2Proof.Machine

open Sys2Proof Sys2Proof.Safety

/-! ### A collective command at issue -/

section

variable {t : State} {id : CmdId} {c : Cmd} {run : State → Nat → Message → Line → State}

/-- The words of a rank's own input that a collective takes. -/
def State.collOwn (t : State) (id : CmdId) (x : Line) : Nat := min (t.shape id.cx (collLen x)) (collCap x)

theorem State.collIssue_of_bad (h : collBad (t.group id.cx (collGroup c.ext)) c.ext = true) :
    t.collIssue id c run = t.finish id 0x0501 0 := if_pos h

variable (hb : collBad (t.group id.cx (collGroup c.ext)) c.ext = false)

include hb

theorem State.collIssue_of_outside (h : t.collOutside id (t.group id.cx (collGroup c.ext)) c.ext (t.collOwn id c.ext) = true) :
    t.collIssue id c run = t.finish id 0x050A 0 :=
  (if_neg (Bool.eq_false_iff.mp hb)).trans (if_pos h)

variable (ho : t.collOutside id (t.group id.cx (collGroup c.ext)) c.ext (t.collOwn id c.ext) = false)

include ho

theorem State.collIssue_of_refused (h : t.errorRefused id c.ext = true) : t.collIssue id c run = t.finish id 0x0411 0 :=
  (if_neg (Bool.eq_false_iff.mp hb)).trans ((if_neg (Bool.eq_false_iff.mp ho)).trans (if_pos h))

variable (he : t.errorRefused id c.ext = false)

include he

theorem State.collIssue_of_inactive (h : (t.group id.cx (collGroup c.ext)).mode ≠ .active) :
    t.collIssue id c run = t.finish id 0x0502 0 :=
  (if_neg (Bool.eq_false_iff.mp hb)).trans ((if_neg (Bool.eq_false_iff.mp ho)).trans ((if_neg (Bool.eq_false_iff.mp he)).trans
    (if_pos h)))

theorem State.collIssue_of_active (h : (t.group id.cx (collGroup c.ext)).mode = .active) :
    t.collIssue id c run = run (t.startMessage id c).1 (collGroup c.ext) (t.startMessage id c).2 c.ext :=
  (if_neg (Bool.eq_false_iff.mp hb)).trans ((if_neg (Bool.eq_false_iff.mp ho)).trans ((if_neg (Bool.eq_false_iff.mp he)).trans
    (if_neg (not_not.mpr h))))

end

theorem State.group_modCmd (s : State) (k : CmdId) (f : Cmd → Cmd) (cx gi : Nat) :
    (s.modCmd k f).group cx gi = s.group cx gi := rfl

/-- The group that has issued one more command, `m`. -/
theorem State.group_startMessage (t : State) (id : CmdId) (c : Cmd) :
    (((t.startMessage id c).1.group id.cx (collGroup c.ext)).issued = wrap32 ((t.group id.cx (collGroup c.ext)).issued + 1)) ∧
    ((t.startMessage id c).1.group id.cx (collGroup c.ext)).msgs =
      (t.group id.cx (collGroup c.ext)).msgs ++ [(t.startMessage id c).2] := by
  unfold State.startMessage
  dsimp only
  rw [State.group_modCmd, State.group_setGroup_same]
  exact ⟨rfl, rfl⟩

/-- What a REDUCE does once its message has started. -/
def reduceWork (u : State) (id : CmdId) (gi : Nat) (m : Message) : State :=
  if (u.group id.cx gi).reduceBatons m ≠ 0 then u else
  (u.endMessage id.cx gi m (u.reduceStatus m) ((u.group id.cx gi).self == 0)).finish id (u.reduceStatus m)
    (((u.cmd? id).map Cmd.result).getD 0)

/-- What a BCAST or SPRINT does once its message has started. -/
def castWork (op : Nat) (u : State) (id : CmdId) (gi : Nat) (m : Message) (x : Line) : State :=
  (if (u.group id.cx gi).self ≠ m.origin then u
  else if op = 3 then u.castStep1 id.cx gi m.number x 0
  else u.castFill id.cx gi).castStep id.cx gi m.number

/-- What the row of `op` does once its message has started. -/
def messageWork (op : Nat) (u : State) (id : CmdId) (gi : Nat) (m : Message) (x : Line) : State :=
  if op = 1 then reduceWork u id gi m else castWork op u id gi m x

theorem exec_collective_of_issues {s : State} {cx : Fin 16} {c : Cmd} {op : Nat} {row : Fin 16 → Instr}
    (hrow : (op, row) ∈ [(1, Instr.reduce), (2, Instr.bcast), (3, Instr.sprint)])
    (h : issues s cx 2 (fun d => wantKind 0x20 d && (collOp d.ext == op || !collNamed (collOp d.ext))) (collPins cx s c) c)
    (ho : collOp c.ext = op) : exec (row cx) s = .next ((s.markIssued ⟨cx, 2, c.index⟩ (collPins cx s c)).collIssue ⟨cx, 2, c.index⟩
      (stamped s cx (collPins cx s c) c) fun u gi m x => messageWork op u ⟨cx, 2, c.index⟩ gi m x) := by
  simp only [List.mem_cons, Prod.mk.injEq, List.not_mem_nil, or_false] at hrow
  have hnamed : collNamed (collOp c.ext) = true := by
    rw [ho]
    obtain ⟨rfl, -⟩ | ⟨rfl, -⟩ | ⟨rfl, -⟩ := hrow <;> rfl
  obtain ⟨rfl, rfl⟩ | ⟨rfl, rfl⟩ | ⟨rfl, rfl⟩ := hrow
  all_goals exact congrArg Host.Outcome.next (State.collRun_of_named h _ hnamed)

theorem State.startMessage_message (t : State) (id : CmdId) (c : Cmd) :
    (t.startMessage id c).2.number = (t.group id.cx (collGroup c.ext)).issued ∧
    (t.startMessage id c).2.cap = collCap c.ext ∧ (t.startMessage id c).2.emitted = 0 := ⟨rfl, rfl, rfl⟩

/-- The group's own rank keeps its place when a message starts. -/
theorem State.self_startMessage (t : State) (id : CmdId) (c : Cmd) :
    ((t.startMessage id c).1.group id.cx (collGroup c.ext)).self = (t.group id.cx (collGroup c.ext)).self := by
  unfold State.startMessage
  dsimp only
  rw [State.group_modCmd, State.group_setGroup_same]

section

variable {u : State} {id : CmdId} {gi : Nat} {m : Message} {x : Line}

theorem messageWork_reduce (h : (u.group id.cx gi).reduceBatons m ≠ 0) : messageWork 1 u id gi m x = u := by
  unfold messageWork reduceWork
  rw [if_pos rfl, if_pos h]

theorem messageWork_reduce_empty (h : (u.group id.cx gi).reduceBatons m = 0) : messageWork 1 u id gi m x =
    (u.endMessage id.cx gi m (u.reduceStatus m) ((u.group id.cx gi).self == 0)).finish id (u.reduceStatus m)
      (((u.cmd? id).map Cmd.result).getD 0) := by
  unfold messageWork reduceWork
  rw [if_pos rfl, if_neg (not_not.mpr h)]

theorem messageWork_cast_member {op : Nat} (hop : op ≠ 1) (h : (u.group id.cx gi).self ≠ m.origin) :
    messageWork op u id gi m x = u.castStep id.cx gi m.number := by
  unfold messageWork castWork
  rw [if_neg hop, if_pos h]

theorem messageWork_bcast_origin (h : (u.group id.cx gi).self = m.origin) :
    messageWork 2 u id gi m x = (u.castFill id.cx gi).castStep id.cx gi m.number := by
  unfold messageWork castWork
  rw [if_neg (by decide), if_neg (not_not.mpr h), if_neg (by decide)]

theorem messageWork_sprint_origin (h : (u.group id.cx gi).self = m.origin) :
    messageWork 3 u id gi m x = (u.castStep1 id.cx gi m.number x 0).castStep id.cx gi m.number := by
  unfold messageWork castWork
  rw [if_neg (by decide), if_neg (not_not.mpr h), if_pos rfl]

end

/-! ### A sum at a node -/

section

variable {u : State} {cx : Fin 16} {gi : Fin 64} {localNs : Nat} {childNs : List Nat}

/-- What an ADDER_SUM does once the granted rows are taken. -/
def State.sumStep (u : State) (cx gi localNs : Nat) (childNs : List Nat) : State :=
  let g := u.group cx gi
  match g.msgs.find? fun m => m.op == 1 with
  | none => u
  | some m =>
    match u.cmd? m.cmd, childParts g m m.emitted with
    | some c, some kids =>
      let e := linkEntries m.fmt g.packed
      let n := min e (m.cap - m.emitted * e)
      if g.mode ≠ .active ∨ g.reduceBatons m ≤ m.emitted ∨ !g.mayEmit m then u else
      match localPart c.ext m m.emitted (m.emitted * e) n with
      | none => u
      | some (st, bad, l) =>
        if st ≠ 0 then u.failCmd m.cmd st
        else if bad then (u.notePoison cx).failCmd m.cmd 0x0B01
        else u.sumOffset cx gi c.ext m kids l (localNs :: childNs)
    | _, _ => u

/-- The message with the granted rows, taken where it has rows left to emit. -/
def State.sumTaken (s : State) (cx gi grants : Nat) (m : Message) (c : Cmd) : State :=
  if (s.group cx gi).reduceBatons m ≤ m.emitted then s.modMsg cx gi m.number fun y => { y with granted := y.granted + grants }
  else (s.modMsg cx gi m.number fun y => { y with granted := y.granted + grants }).takeWindow cx gi c.ext
    { m with granted := m.granted + grants }

/-- The rows granted with an ADDER_SUM, taken in by the message that sums. -/
def State.sumGrant (s : State) (cx gi grants : Nat) : State :=
  match (s.group cx gi).msgs.find? fun m => m.op == 1 with
  | some m => match s.cmd? m.cmd with
    | some c => s.sumTaken cx gi grants m c
    | none => s
  | none => s

theorem exec_adderSum (s : State) (cx : Fin 16) (gi : Fin 64) (grants localNs : Nat) (childNs : List Nat) :
    exec (.adderSum cx gi grants localNs childNs) s = .next ((s.sumGrant cx gi grants).sumStep cx gi localNs childNs) := rfl

theorem State.sumGrant_of_message {s : State} {cx gi grants : Nat} {m : Message} {c : Cmd}
    (hm : (s.group cx gi).msgs.find? (fun m => m.op == 1) = some m) (hc : s.cmd? m.cmd = some c) :
    s.sumGrant cx gi grants = s.sumTaken cx gi grants m c := by
  unfold State.sumGrant
  rw [hm]
  dsimp only
  rw [hc]

variable {n : Message} {d : Cmd} (hn : (u.group cx gi).msgs.find? (fun m => m.op == 1) = some n) (hd : u.cmd? n.cmd = some d)

include hn hd

theorem State.sumStep_of_waiting (h : (u.group cx gi).mode ≠ .active ∨ (u.group cx gi).reduceBatons n ≤ n.emitted ∨
    (u.group cx gi).mayEmit n = false ∨ childParts (u.group cx gi) n n.emitted = none ∨
    localPart d.ext n n.emitted (n.emitted * linkEntries n.fmt (u.group cx gi).packed)
      (min (linkEntries n.fmt (u.group cx gi).packed) (n.cap - n.emitted * linkEntries n.fmt (u.group cx gi).packed)) = none) :
    u.sumStep cx gi localNs childNs = u := by
  unfold State.sumStep
  dsimp only
  rw [hn]
  dsimp only
  rw [hd]
  cases hkids : childParts (u.group cx gi) n n.emitted with
  | none => rfl
  | some kids =>
    dsimp only
    split
    · rfl
    · next hgo =>
      simp only [not_or, ne_eq, not_not, Bool.not_eq_true', Bool.not_eq_false] at hgo
      obtain ⟨hmode, hbatons, hemit⟩ := hgo
      simp only [hmode, hbatons, hemit, hkids, ne_eq, not_true, Bool.true_eq_false, reduceCtorEq, false_or] at h
      rw [h]

variable {kids : List BatonWord} {st : Nat} {bad : Bool} {l : List Nat} (hmode : (u.group cx gi).mode = .active)
  (hmore : n.emitted < (u.group cx gi).reduceBatons n) (hemit : (u.group cx gi).mayEmit n = true)
  (hkids : childParts (u.group cx gi) n n.emitted = some kids)
  (hlocal : localPart d.ext n n.emitted (n.emitted * linkEntries n.fmt (u.group cx gi).packed)
    (min (linkEntries n.fmt (u.group cx gi).packed) (n.cap - n.emitted * linkEntries n.fmt (u.group cx gi).packed)) =
      some (st, bad, l))

include hmode hmore hemit hkids hlocal

theorem State.sumStep_of_ready : u.sumStep cx gi localNs childNs =
    if st ≠ 0 then u.failCmd n.cmd st
    else if bad then (u.notePoison cx).failCmd n.cmd 0x0B01
    else u.sumOffset cx gi d.ext n kids l (localNs :: childNs) := by
  unfold State.sumStep
  dsimp only
  rw [hn]
  dsimp only
  rw [hd, hkids]
  dsimp only
  rw [if_neg (by simp [hmode, hmore, hemit]), hlocal]

end

/-! ### A tree baton -/

section

variable {t : State} {n gen : Nat} {b : BatonWord} {f : Nat → Nat → Nat → State}

theorem State.treeBaton_of_reached {cx gi member : Nat} (h : t.findGroup (batTag b) gen = some (cx, gi))
    (ha : (t.group cx gi).across n = some member) : t.treeBaton n gen b f = f cx gi member := by
  unfold State.treeBaton
  rw [h]
  dsimp only
  rw [ha]

theorem State.treeBaton_of_lost (h : ∀ cx gi, t.findGroup (batTag b) gen = some (cx, gi) → (t.group cx gi).across n = none) :
    t.treeBaton n gen b f = t.stale := by
  unfold State.treeBaton
  split
  · rfl
  · next k hk =>
    rw [h k.1 k.2 hk]

end

section

variable {s : State} {n : Fin 36} {b : BatonWord} (ha : s.arrives n b = true) (hb : batSeq b = (s.link n).expect)

/-- What a REDUCE baton does in the group and to the member it reaches. -/
def State.reduceArrive (t : State) (cx gi member : Nat) (b : BatonWord) : State :=
  match (t.group cx gi).msgFor (redMsg b) with
  | some m =>
    if !m.takes b || (m.inputs.any fun i => i.1 == member && i.2.1 == batOffset b) then t.abortGroup cx gi 0x0509 member
    else t.modMsg cx gi m.number fun y => { y with inputs := y.inputs ++ [(member, batOffset b, b)] }
  | none =>
    if (t.group cx gi).earlyHas (redMsg b) (some member) b then t.abortGroup cx gi 0x0509 member
    else t.keepEarly cx gi (redMsg b) member b

/-- What a SPRINT baton does in the group and to the member it reaches, by its control code. -/
def State.sprintArrive (t : State) (n cx gi member : Nat) (b : BatonWord) : State :=
  match sprControl b with
  | 0 => t.castArrive cx gi n member (sprMsg b) b
  | 1 => t.formUp cx gi member b
  | 2 => t.goDown cx gi member
  | 3 => t.ackUp cx gi member b
  | _ => t.breakGroup cx gi (bits (ofBytes (batPayload b)) 15 0) (bits (ofBytes (batPayload b)) 27 16) 0x0505 (some (n, b))

include ha hb

theorem exec_reduceBaton_of_expected (hk : batonIs 5 b = true) : exec (.reduceBaton n b) s =
    .next ((s.accept n b).1.treeBaton n (redGen b) b fun cx gi member => (s.accept n b).1.reduceArrive cx gi member b) := by
  show execReduceBaton n b s = _
  unfold execReduceBaton
  rw [seqRow_of_expected hk ha hb]
  rfl

theorem exec_bcastBaton_of_expected (hk : batonIs 6 b = true) : exec (.bcastBaton n b) s =
    .next ((s.accept n b).1.treeBaton n (bcGen b) b fun cx gi member =>
      (s.accept n b).1.castArrive cx gi n member (bcMsg b) b) := by
  show execBcastBaton n b s = _
  unfold execBcastBaton
  rw [seqRow_of_expected hk ha hb]

theorem exec_sprintBaton_of_expected (hk : batonIs 7 b = true) : exec (.sprintBaton n b) s =
    .next ((s.accept n b).1.treeBaton n (sprGen b) b fun cx gi member => (s.accept n b).1.sprintArrive n cx gi member b) := by
  show execSprintBaton n b s = _
  unfold execSprintBaton
  rw [seqRow_of_expected hk ha hb]
  rfl

end

section

variable {s : State} {n : Fin 36} {b : BatonWord} (ha : s.arrives n b = true) (hb : batSeq b = (s.link n).expect)
  {cx gi member : Nat}

include ha hb

theorem reduceBaton_arrives (hk : batonIs 5 b = true) (hf : (s.accept n b).1.findGroup (batTag b) (redGen b) = some (cx, gi))
    (hm : ((s.accept n b).1.group cx gi).across n = some member) :
    (∀ m, ((s.accept n b).1.group cx gi).msgFor (redMsg b) = some m →
      (¬(m.takes b = false ∨ (∃ i ∈ m.inputs, i.1 = member ∧ i.2.1 = batOffset b)) → exec (.reduceBaton n b) s =
        .next ((s.accept n b).1.modMsg cx gi m.number fun y => { y with inputs := y.inputs ++ [(member, batOffset b, b)] })) ∧
      (m.takes b = false ∨ (∃ i ∈ m.inputs, i.1 = member ∧ i.2.1 = batOffset b) →
        exec (.reduceBaton n b) s = .next ((s.accept n b).1.abortGroup cx gi 0x0509 member))) ∧
    (((s.accept n b).1.group cx gi).msgFor (redMsg b) = none →
      (((s.accept n b).1.group cx gi).earlyHas (redMsg b) (some member) b = false →
        exec (.reduceBaton n b) s = .next ((s.accept n b).1.keepEarly cx gi (redMsg b) member b)) ∧
      (((s.accept n b).1.group cx gi).earlyHas (redMsg b) (some member) b = true →
        exec (.reduceBaton n b) s = .next ((s.accept n b).1.abortGroup cx gi 0x0509 member))) := by
  rw [exec_reduceBaton_of_expected ha hb hk, State.treeBaton_of_reached hf hm]
  refine ⟨fun m hfor => ⟨fun hnot => ?_, fun hagain => ?_⟩, fun hfor => ⟨fun hearly => ?_, fun hearly => ?_⟩⟩
  all_goals
    unfold State.reduceArrive
    rw [hfor]
    dsimp only
  · rw [if_neg (by simpa using hnot)]
  · rw [if_pos (by simpa using hagain)]
  · rw [if_neg (by simp [hearly])]
  · rw [if_pos hearly]

theorem sprintBaton_arrives (hk : batonIs 7 b = true) (hf : (s.accept n b).1.findGroup (batTag b) (sprGen b) = some (cx, gi))
    (hm : ((s.accept n b).1.group cx gi).across n = some member) :
    (sprControl b = 0 → exec (.sprintBaton n b) s = .next ((s.accept n b).1.castArrive cx gi n member (sprMsg b) b)) ∧
    (sprControl b = 1 → exec (.sprintBaton n b) s = .next ((s.accept n b).1.formUp cx gi member b)) ∧
    (sprControl b = 2 → exec (.sprintBaton n b) s = .next ((s.accept n b).1.goDown cx gi member)) ∧
    (sprControl b = 3 → exec (.sprintBaton n b) s = .next ((s.accept n b).1.ackUp cx gi member b)) ∧
    (4 ≤ sprControl b → exec (.sprintBaton n b) s = .next ((s.accept n b).1.breakGroup cx gi
      (bits (ofBytes (batPayload b)) 15 0) (bits (ofBytes (batPayload b)) 27 16) 0x0505 (some (n.val, b)))) := by
  rw [exec_sprintBaton_of_expected ha hb hk, State.treeBaton_of_reached hf hm]
  refine ⟨fun hc => ?_, fun hc => ?_, fun hc => ?_, fun hc => ?_, fun hc => ?_⟩
  case refine_5 =>
    obtain ⟨k, hc⟩ : ∃ k, sprControl b = k + 4 := ⟨_, (Nat.sub_add_cancel hc).symm⟩
    unfold State.sprintArrive
    rw [hc]
    rfl
  all_goals
    unfold State.sprintArrive
    rw [hc]
    rfl

end

/-- Settles O45: a command by its checks at issue and by what its op does with the message begun, a sum by what it waits for,
and an accepted tree baton by the group and the member it reaches. -/
theorem collectivesStartAndArrive : Obligations.CollectivesStartAndArrive := by
  unfold Obligations.CollectivesStartAndArrive
  refine ⟨⟨?_, ?_⟩, ?_⟩
  · intro s cx c op row hrow x id t gi g own d u m h ho
    have hrun := exec_collective_of_issues hrow h ho
    refine ⟨fun hb => ?_, fun hb hout => ?_, fun hb hout he => ?_, fun hb hout he => ⟨fun hmode => ?_, fun hmode => ?_⟩⟩
    · rw [hrun, State.collIssue_of_bad (id := id) (c := d) hb]
    · rw [hrun, State.collIssue_of_outside (id := id) (c := d) hb hout]
    · rw [hrun, State.collIssue_of_refused (id := id) (c := d) hb hout he]
    · rw [hrun, State.collIssue_of_inactive (id := id) (c := d) hb hout he hmode]
    · have hwork : exec (row cx) s = .next (messageWork op u id gi m x) := by
        rw [hrun, State.collIssue_of_active (id := id) (c := d) hb hout he hmode]
        rfl
      obtain ⟨hissued, hmsgs⟩ := State.group_startMessage t id d
      obtain ⟨hnumber, hcap, hemitted⟩ := State.startMessage_message t id d
      have hself : (u.group id.cx gi).self = g.self := State.self_startMessage t id d
      have hmember : g.self ≠ m.origin → (u.group id.cx gi).self ≠ m.origin := fun hs => by rwa [hself]
      have horigin : g.self = m.origin → (u.group id.cx gi).self = m.origin := fun hs => by rwa [hself]
      refine ⟨hissued, hmsgs, hnumber, hcap, hemitted, fun hop hn => ?_, fun hop hn => ?_, fun hop hs => ?_, fun hop hs => ?_,
        fun hop hs => ?_⟩
      · subst hop
        rw [hwork, messageWork_reduce (id := id) hn]
      · subst hop
        rw [hwork, messageWork_reduce_empty (id := id) hn, hself]
      · rw [hwork, messageWork_cast_member (id := id) hop (hmember hs)]
      · subst hop
        rw [hwork, messageWork_bcast_origin (id := id) (horigin hs)]
      · subst hop
        rw [hwork, messageWork_sprint_origin (id := id) (horigin hs)]
  · intro s cx gi grants localNs childNs m c g t u hm hc n d hn hd k e local_
    have hrun : exec (.adderSum cx gi grants localNs childNs) s = .next (u.sumStep cx gi localNs childNs) := by
      rw [exec_adderSum, State.sumGrant_of_message hm hc]
      rfl
    refine ⟨fun hwait => ?_, fun kids st bad l hmode hmore hemit hkids hlocal => ?_⟩
    · rw [hrun, State.sumStep_of_waiting hn hd hwait]
    · rw [State.sumStep_of_ready hn hd hmode hmore hemit hkids hlocal] at hrun
      refine ⟨fun h0 hbad => ?_, fun h0 hbad => ?_, fun h0 => ?_⟩
      · rw [hrun, if_neg (not_not.mpr h0), if_neg (by simp [hbad])]
      · rw [hrun, if_neg (not_not.mpr h0), if_pos hbad]
      · rw [hrun, if_pos h0]
  · intro s n b ha hb t lost
    refine ⟨fun cx gi member => ?_, fun hk hl => ?_, fun hk hl => ?_, fun hk hl => ?_⟩
    · intro reach
      exact ⟨fun hk ⟨hf, hm⟩ => reduceBaton_arrives ha hb hk hf hm, fun hk ⟨hf, hm⟩ => by
        rw [exec_bcastBaton_of_expected ha hb hk, State.treeBaton_of_reached hf hm], fun hk ⟨hf, hm⟩ =>
          sprintBaton_arrives ha hb hk hf hm⟩
    · rw [exec_reduceBaton_of_expected ha hb hk, State.treeBaton_of_lost hl]
    · rw [exec_bcastBaton_of_expected ha hb hk, State.treeBaton_of_lost hl]
    · rw [exec_sprintBaton_of_expected ha hb hk, State.treeBaton_of_lost hl]

end Sys2Proof.Machine

end

section

/-! Data and packages from a host (chapters 13 and 17): O47. -/

namespace Sys2Proof.Machine

open Sys2Proof Sys2Proof.Safety

/-! ### HOST_COPY -/

section

variable {s b : State} {cx : Fin 16} {c : Cmd} (data : List Byte) (h : works s b cx 1 (wantKind 0x11) (s.pinsFor cx c) c)

include h

/-- A copy that works runs on the descriptor it was fetched with. -/
theorem exec_hostCopy_of_works (failed : Bool) : ∃ d : Cmd, d.desc = c.desc ∧ exec (.hostCopy cx data failed) s = .next (
    if failed then (b.hostRead cx (fld c.desc 383 320) (fld c.desc 415 384) false).finish ⟨cx, 1, c.index⟩ 0x060D 0
    else if flag c.desc 192 then hostOut b ⟨cx, 1, c.index⟩ d else hostIn b ⟨cx, 1, c.index⟩ d data) := by
  obtain ⟨d, hdesc, -, -, hrun⟩ := State.issueOrRun_of_works (pinsOf := fun t c => t.pinsFor cx c) h fun t id c =>
    if failed then (t.hostRead id.cx (fld c.desc 383 320) (fld c.desc 415 384) false).finish id 0x060D 0
    else if flag c.desc 192 then hostOut t id c
    else hostIn t id c data
  refine ⟨d, hdesc, (congrArg Host.Outcome.next hrun).trans ?_⟩
  rw [hdesc]

end

section

variable {b : State} {id : CmdId} {d : Cmd} {data : List Byte}

theorem hostIn_of_waiting (h : data.length ≠ fld d.desc 415 384 ∨ b.writeWaits id (fld d.desc 303 256) (fld d.desc 415 384) = true) :
    hostIn b id d data = b := if_pos h

theorem hostIn_of_write (hlen : data.length = fld d.desc 415 384)
    (hw : b.writeWaits id (fld d.desc 303 256) (fld d.desc 415 384) = false) {u : State} {st : Nat}
    (hu : (b.hostRead id.cx (fld d.desc 383 320) (fld d.desc 415 384) false).cvaWrite id (placeRank (fld d.desc 303 256))
      (fld d.desc 303 256) (clean data) = (u, st)) :
    hostIn b id d data = if st = 0 then u.endWork id 0 (fld d.desc 415 384)
      else (u.cvaHavoc id (fld d.desc 303 256) (fld d.desc 415 384)).finish id st 0 := by
  unfold hostIn
  dsimp only
  rw [if_neg (by simp [hlen, hw]), hu]
  cases st with
  | zero => rfl
  | succ st => rfl

theorem hostOut_of_unread {st : Nat} {l : Marked} (h : b.cvaRead id (fld d.desc 303 256) (fld d.desc 415 384) = (st, l))
    (hst : st ≠ 0) : hostOut b id d = b.finish id st 0 := by
  unfold hostOut
  dsimp only
  rw [h]
  cases st with
  | zero => exact absurd rfl hst
  | succ st => rfl

/-- The lines of a copy to the host, behind what its port has to send. -/
def State.sendLines (b : State) (id : CmdId) (d : Cmd) (l : Marked) : State :=
  let t := b.noteRead id (b.isLive id.cx) (fld d.desc 303 256) (fld d.desc 415 384)
  { t with hosts := { t.hosts with outbox := t.hosts.outbox ++ hostLines (t.ctx id.cx).port (fld d.desc 383 320) l } }

theorem hostOut_of_read {l : Marked} (h : b.cvaRead id (fld d.desc 303 256) (fld d.desc 415 384) = (0, l)) :
    hostOut b id d = if anyPoison l then ((b.sendLines id d l).notePoison id.cx).finish id 0x0B01 (fld d.desc 415 384)
      else (b.sendLines id d l).finish id 0 (fld d.desc 415 384) := by
  unfold hostOut
  dsimp only
  rw [h]
  rfl

end

/-! ### ADMIT -/

section

variable {s b : State} {cx : Fin 16} {c : Cmd} {data : List Byte} {failed : Bool}

theorem exec_admit_of_works (h : works s b cx 1 (wantKind 0x13) [] c) : exec (.admitPackage cx data failed) s = .next (
    if !b.ownerCx cx then b.finish ⟨cx, 1, c.index⟩ 0x0609 0
    else if bookSize ≤ b.rel.book.length then b.finish ⟨cx, 1, c.index⟩ 0x0B11 0
    else if sigBudget ≤ b.fw.sigUsed then b.finish ⟨cx, 1, c.index⟩ 0x0C12 0
    else if failed then (b.hostRead cx (fld c.desc 255 192) 128 false).finish ⟨cx, 1, c.index⟩ 0x060D 0
    else admitWork b ⟨cx, 1, c.index⟩ (fld c.desc 255 192) data) := by
  obtain ⟨d, hdesc, -, -, hrun⟩ := State.issueOrRun_of_works (pinsOf := noPins) h fun t id c =>
    if !t.ownerCx cx then t.finish id 0x0609 0
    else if bookSize ≤ t.rel.book.length then t.finish id 0x0B11 0
    else if sigBudget ≤ t.fw.sigUsed then t.finish id 0x0C12 0
    else if failed then (t.hostRead id.cx (fld c.desc 255 192) 128 false).finish id 0x060D 0
    else admitWork t id (fld c.desc 255 192) data
  refine (congrArg Host.Outcome.next hrun).trans ?_
  rw [hdesc]

end

section

variable {b : State} {id : CmdId} {addr : Nat} {data : List Byte}

theorem admitWork_of_short (h : data.length < 128) : admitWork b id addr data = b := if_pos h

/-- What bars a header: a resident package, an unsound field or a table that does not fit. -/
def State.headBars (b : State) (h : Nat) : Bool := b.package.isSome || headerBad h || (pkTables h).any fun e => !tableFits h e

variable (h128 : 128 ≤ data.length)

include h128

theorem admitWork_of_barred (h : b.headBars (ofBytes (data.take 128)) = true) :
    admitWork b id addr data = (b.hostRead id.cx addr 128 false).finish id 0x060B 0 :=
  (if_neg (Nat.not_lt.mpr h128)).trans (if_pos h)

variable (hbars : b.headBars (ofBytes (data.take 128)) = false)

include hbars

theorem admitWork_of_partial (h : data.length < pkHeadBytes (ofBytes (data.take 128))) : admitWork b id addr data = b :=
  (if_neg (Nat.not_lt.mpr h128)).trans ((if_neg (Bool.eq_false_iff.mp hbars)).trans (if_pos h))

variable (hhead : pkHeadBytes (ofBytes (data.take 128)) ≤ data.length)

include hhead

/-- The head read in full: its digest, then the checks of an admission. -/
theorem admitWork_of_head : admitWork b id addr data =
    (let h := ofBytes (data.take 128)
    let head := data.take (pkHeadBytes h)
    let r := b.hostRead id.cx addr (pkHeadBytes h) false
    if ofBytes (sha256 (head.drop 128)) ≠ bits h 1023 768 then r.finish id 0x060B 0
    else if r.admitChecks (Package.parse h head) ≠ 0 then r.finish id (r.admitChecks (Package.parse h head)) 0
    else (r.install (Package.parse h head)).finish id 0 0) :=
  (if_neg (Nat.not_lt.mpr h128)).trans ((if_neg (Bool.eq_false_iff.mp hbars)).trans (if_neg (Nat.not_lt.mpr hhead)))

end

/-! ### What an admission and an eviction leave -/

theorem tget_of_filtered {α : Type} (t : Tab α) (p : Nat × α → Bool) (k : Nat) (d : α) (h : ∀ v, p (k, v) = false) :
    tget (t.filter p) k d = d := by
  induction t with
  | nil => rfl
  | cons a r ih =>
    obtain ⟨j, v⟩ := a
    rw [List.filter_cons]
    split
    · next hp =>
      have hj : j ≠ k := fun e => by simp [e, h] at hp
      exact (if_neg hj).trans ih
    · exact ih

/-- No guard rail's register keeps a value. -/
theorem State.reg_resetRails (s : State) (k : Nat) (h : 0x2000 ≤ k ∧ k < 0x3000) : s.resetRails.reg k = regReset k := by
  have hk : k % 67108864 = k := Nat.mod_eq_of_lt (by omega)
  refine (tget_of_filtered _ _ k _ fun v => ?_).trans (by rw [hk])
  simp [hk, h.1, h.2]

theorem State.reg_hpEventAll (s : State) (n k : Nat) (h : k < 0x300108) : (s.hpEventAll n).reg k = s.reg k := by
  refine iter_same (fun u : State => u.reg k) _ _ s fun p u => ?_
  exact State.reg_setReg_other _ _ _ _ (by omega)

theorem State.ctx_hpEventAll (s : State) (n k : Nat) : (s.hpEventAll n).ctx k = s.ctx k :=
  iter_same (fun u : State => u.ctx k) _ _ s fun _ _ => rfl

/-- The allocations zeroed and the decoded commands checked again. -/
def State.cleared (s : State) (l : List Nat) : State := (l.foldl (fun u a => iter 75 (zeroAlloc a) u) s).recheckAll

theorem State.cleared_keeps (s : State) (l : List Nat) : Keeps [.memory, .hosts] s (s.cleared l) :=
  State.recheckAll_keeps _ (Keeps.foldl l _ (fun u a hu => Keeps.iter 75 _ (fun i v hv => zeroAlloc_keeps a i v hv (by decide)) hu)
    (Keeps.refl s)) (by decide)

theorem State.install_admitted (s : State) (p : Package) : (s.install p).package = some p ∧
    (s.install p).rails = ⟨[], [], [], [], false⟩ ∧ (s.install p).tiers.heat = [] ∧
    ∀ k, 0x2000 ≤ k → k < 0x3000 → (s.install p).reg k = regReset k := by
  let t : State := { s.resetRails with
    package := some p, tiers := { s.tiers with partition := 8 * pkP8 p.header, heat := [], heatReads := [] } }
  let u := t.setUsed 16 (t.usedOf 16 + p.reserve)
  have hinstall : s.install p = (u.cleared p.allocs).hpEventAll 1 := rfl
  have hcleared := u.cleared_keeps p.allocs
  have hevent := State.hpEventAll_keeps (P := [.memory, .hosts, .regs]) (u.cleared p.allocs) 1 (Keeps.refl _) (by decide) (by decide)
  rw [hinstall]
  refine ⟨(hevent.parts .package (by decide)).trans (hcleared.parts .package (by decide)),
    (hevent.parts .rails (by decide)).trans (hcleared.parts .rails (by decide)),
    (congrArg Tiers.heat (hevent.parts .tiers (by decide))).trans (congrArg Tiers.heat (hcleared.parts .tiers (by decide))),
    fun k hlo hhi => ?_⟩
  have hregs : (u.cleared p.allocs).regs = s.resetRails.regs := hcleared.parts .regs (by decide)
  rw [State.reg_hpEventAll _ _ _ (by omega), ← s.reg_resetRails k ⟨hlo, hhi⟩]
  unfold State.reg
  rw [hregs]

theorem State.ctx_of_hosts {s t : State} (h : t.hosts = s.hosts) (n : Nat) : t.ctx n = s.ctx n := by
  unfold State.ctx
  rw [h]

theorem State.slots_dropped (s : State) (k : Nat) : ∀ n, n < k →
    ((iter k (fun n u => u.setCtx n { u.ctx n with slots := [] }) s).ctx n).slots = [] := by
  induction k with
  | zero => exact fun n hn => absurd hn (Nat.not_lt_zero n)
  | succ k ih =>
    intro n hn
    rw [iter_succ]
    by_cases h : n = k
    · rw [h, State.ctx_setCtx_same]
    · rw [State.ctx_setCtx_other _ _ _ _ h]
      exact ih n (by omega)

theorem State.uninstall_package (s : State) : s.uninstall.package = none := by
  unfold State.uninstall
  exact (State.hpEventAll_keeps (P := [.hosts, .regs]) _ 1 (Keeps.refl _) (by decide) (by decide)).parts .package (by decide)

theorem State.uninstall_slots (s : State) (n : Nat) (hn : n < 16) : (s.uninstall.ctx n).slots = [] := by
  unfold State.uninstall
  dsimp only
  rw [State.ctx_hpEventAll]
  generalize List.foldl _ _ _ = t
  have hdropped := State.slots_dropped t 16 n hn
  generalize iter 16 _ t = u at hdropped ⊢
  refine (congrArg Ctx.slots (State.ctx_of_hosts (s := u) ?_ n)).trans hdropped
  rfl

/-! ### EVICT -/

theorem exec_evict_of_works {s b : State} {cx : Fin 16} {c : Cmd} (h : works s b cx 1 (wantKind 0x14) [] c) :
    exec (.evict cx) s = .next (
      if !b.ownerCx cx then b.finish ⟨cx, 1, c.index⟩ 0x0609 0
      else if (List.range 8).any fun q => (b.seq q).enabled then b.finish ⟨cx, 1, c.index⟩ 0x060C 0
      else if b.outstanding.any fun i => i.cx != cx.val then b
      else b.uninstall.finish ⟨cx, 1, c.index⟩ 0 0) := by
  obtain ⟨d, -, -, -, hrun⟩ := State.issueOrRun_of_works (pinsOf := noPins) h fun t id _ =>
    if !t.ownerCx cx then t.finish id 0x0609 0
    else if (List.range 8).any fun q => (t.seq q).enabled then t.finish id 0x060C 0
    else if t.outstanding.any fun i => i.cx != cx.val then t
    else t.uninstall.finish id 0 0
  exact congrArg Host.Outcome.next hrun

/-- Settles O47: a copy by its direction and what its bytes read as, an admission by its refusals and the head as far as it has
come, an eviction by the sequences and the commands that still stand. -/
theorem hostsMoveDataAndPackages : Obligations.HostsMoveDataAndPackages := by
  unfold Obligations.HostsMoveDataAndPackages
  refine ⟨?_, ?_, ?_⟩
  · intro s b cx data c id va addr n r h
    refine ⟨?_, fun hin => ⟨fun hwait => ?_, fun hlen hw u st hu => ?_⟩, fun hout st l hread => ?_⟩
    · obtain ⟨d, hdesc, hrun⟩ := exec_hostCopy_of_works data h true
      rw [hrun, if_pos rfl]
    · obtain ⟨d, hdesc, hrun⟩ := exec_hostCopy_of_works data h false
      rw [hrun, if_neg Bool.false_ne_true, if_neg (by simp [hin]), hostIn_of_waiting (id := id) (by rwa [hdesc])]
    · obtain ⟨d, hdesc, hrun⟩ := exec_hostCopy_of_works data h false
      have hrow := hostIn_of_write (b := b) (id := id) (d := d) (data := data) (by rwa [hdesc]) (by rwa [hdesc]) (u := u) (st := st)
        (by rw [hdesc]; exact hu)
      rw [hrun, if_neg Bool.false_ne_true, if_neg (by simp [hin]), hrow, hdesc]
    · obtain ⟨d, hdesc, hrun⟩ := exec_hostCopy_of_works data h false
      rw [if_neg Bool.false_ne_true, if_pos hout] at hrun
      intro t u
      have hu : b.sendLines id d l = u := by
        unfold State.sendLines
        rw [hdesc]
      have hgot : st = 0 → b.cvaRead id (fld d.desc 303 256) (fld d.desc 415 384) = (0, l) := fun h0 => by
        rw [hdesc, ← h0]
        exact hread
      refine ⟨fun h0 hp => ?_, fun h0 hp => ?_, fun h0 => ?_⟩
      · rw [hrun, hostOut_of_read (hgot h0), if_neg (by simp [hp]), hu, hdesc]
      · rw [hrun, hostOut_of_read (hgot h0), if_pos hp, hu, hdesc]
      · rw [hrun, hostOut_of_unread (by rw [hdesc]; exact hread) h0]
  · intro s b cx data c id addr h head p r bad hw
    have hrun := fun f => exec_admit_of_works (data := data) (failed := f) hw
    refine ⟨fun ho f => ?_, fun ho hbook f => ?_, fun ho hbook hsig f => ?_, fun ho hbook hsig => ?_⟩
    · rw [hrun, if_pos (by simp [ho])]
    · rw [hrun, if_neg (by simp [ho]), if_pos hbook]
    · rw [hrun, if_neg (by simp [ho]), if_neg (Nat.not_le.mpr hbook), if_pos hsig]
    · have hgo : ∀ f, exec (.admitPackage cx data f) s = .next (if f then (b.hostRead cx addr 128 false).finish id 0x060D 0
          else admitWork b id addr data) := fun f => by
        rw [hrun, if_neg (by simp [ho]), if_neg (Nat.not_le.mpr hbook), if_neg (Nat.not_le.mpr hsig)]
      have hwork : exec (.admitPackage cx data false) s = .next (admitWork b id addr data) := by
        rw [hgo, if_neg Bool.false_ne_true]
      refine ⟨by rw [hgo, if_pos rfl], fun hs => by rw [hwork, admitWork_of_short hs], fun h128 hb => ?_, fun h128 hb hpart => ?_,
        fun h128 hb hfull => ?_⟩
      · rw [hwork, admitWork_of_barred h128 hb]
      · rw [hwork, admitWork_of_partial h128 hb hpart]
      · have hhead := hwork.trans (congrArg Host.Outcome.next (admitWork_of_head (id := id) h128 hb hfull))
        refine ⟨fun hsha => hhead.trans (congrArg Host.Outcome.next (if_pos hsha)), fun hsha => ⟨fun hc => ?_, fun hc => ?_⟩⟩
        · exact hhead.trans (congrArg Host.Outcome.next ((if_neg (not_not.mpr hsha)).trans (if_pos hc)))
        · exact ⟨r.install p, hhead.trans (congrArg Host.Outcome.next ((if_neg (not_not.mpr hsha)).trans (if_neg (not_not.mpr hc)))),
            r.install_admitted p⟩
  · intro s b cx c id hw
    have hrun := exec_evict_of_works hw
    have hnone : (∀ q, q < 8 → (b.seq q).enabled = false) → ¬((List.range 8).any fun q => (b.seq q).enabled) = true := by
      simp
    refine ⟨fun ho => ?_, fun ho ⟨q, hq, he⟩ => ?_, fun ho hq => ⟨fun ⟨i, hi, hcx⟩ => ?_, fun hall => ?_⟩⟩
    · rw [hrun, if_pos (by simp [ho])]
    · rw [hrun, if_neg (by simp [ho]), if_pos (List.any_eq_true.mpr ⟨q, List.mem_range.mpr hq, he⟩)]
    · rw [hrun, if_neg (by simp [ho]), if_neg (hnone hq), if_pos (List.any_eq_true.mpr ⟨i, hi, by simpa using hcx⟩)]
    · refine ⟨b.uninstall, ?_, b.uninstall_package, b.uninstall_slots⟩
      rw [hrun, if_neg (by simp [ho]), if_neg (hnone hq), if_neg (by simpa using hall)]

end Sys2Proof.Machine

end

section

/-! The heat sheet (chapter 14): O48. -/

namespace Sys2Proof.Machine

open Sys2Proof Sys2Proof.Safety

/-! ### A debit made and a switch begun leave the sheet's position -/

/-- `t` stands where `s` does in the sheet, with its registers. -/
structure SamePlace (s t : State) : Prop where
  legNs : t.sched.legNs = s.sched.legNs
  leg : t.sched.leg = s.sched.leg
  heats : t.sched.heats = s.sched.heats
  spent : t.sched.spent = s.sched.spent
  retrained : t.sched.retrained = s.sched.retrained
  regs : t.regs = s.regs

theorem SamePlace.refl (s : State) : SamePlace s s := ⟨rfl, rfl, rfl, rfl, rfl, rfl⟩

theorem State.debitMade_samePlace (s : State) (c : Nat) : SamePlace s (s.debitMade c) := by
  unfold State.debitMade
  split
  · exact ⟨rfl, rfl, rfl, rfl, rfl, rfl⟩
  · exact .refl s

theorem State.beginSwitch_samePlace (s : State) (w : Option Nat) : SamePlace s (s.beginSwitch w) := by
  unfold State.beginSwitch
  dsimp only
  split
  · next c _ =>
    obtain ⟨hlegNs, hleg, hheats, hspent, hretrained, hregs⟩ := s.debitMade_samePlace c
    exact ⟨hlegNs, hleg, hheats, hspent, hretrained, hregs⟩
  · exact ⟨rfl, rfl, rfl, rfl, rfl, rfl⟩

theorem State.reschedule_samePlace (s : State) (expire : Bool) : SamePlace s (s.reschedule expire) := by
  unfold State.reschedule
  split
  · exact .refl s
  · dsimp only
    split
    · exact .refl s
    · exact s.beginSwitch_samePlace _

theorem State.reschedule_of_settled {s : State} {expire : Bool}
    (h : s.sched.switching = true ∨ s.wantHolder expire = s.sched.holder) : s.reschedule expire = s := by
  unfold State.reschedule
  split
  · rfl
  · next hs =>
    exact if_pos (h.resolve_left hs)

theorem State.reschedule_of_wanted {s : State} {expire : Bool} (hs : s.sched.switching = false)
    (h : s.wantHolder expire ≠ s.sched.holder) : s.reschedule expire = s.beginSwitch (s.wantHolder expire) := by
  unfold State.reschedule
  rw [if_neg (by simp [hs])]
  exact if_neg h

/-! ### LEG_EDGE -/

/-- The state with the debit of its holder made. -/
def State.holderDebited (s : State) : State :=
  match s.sched.holder with
  | some c => s.debitMade c
  | none => s

theorem State.holderDebited_samePlace (s : State) : SamePlace s s.holderDebited := by
  unfold State.holderDebited
  split
  · exact s.debitMade_samePlace _
  · exact .refl s

/-- The next leg begun: `last` says whether the leg that ends is the sheet's last. -/
def State.legBegun (s : State) (last : Bool) : State :=
  let t := if last then s.holderDebited.heatEnd else s.holderDebited
  { t with sched := { t.sched with
      legNs := s.sched.legNs - s.legLen, leg := if last then 0 else s.sched.leg + 1, fresh := [], spent := [], retrained := [] } }

theorem exec_legEdge_of_run {s : State} (hh : s.sched.halted = false) (hl : s.legLen ≤ s.sched.legNs) :
    exec .legEdge s = .next
      { (s.legBegun (decide (s.legs.length ≤ s.sched.leg + 1))).reschedule false with
        sched := { ((s.legBegun (decide (s.legs.length ≤ s.sched.leg + 1))).reschedule false).sched with fresh := [] } } := by
  refine congrArg Host.Outcome.next (Eq.trans (if_neg ?_) rfl)
  simpa [hh] using hl

theorem exec_legEdge_of_halted {s : State} (h : s.sched.halted = true ∨ s.sched.legNs < s.legLen) : exec .legEdge s = .next s :=
  congrArg Host.Outcome.next (if_pos (by simpa using h))

/-- With no sheet committed, the end of a heat counts it while the sheet is enabled. -/
theorem State.heatEnd_heats {s : State} (hb : bit (s.reg 0x400000) 0 = true) (hc : (s.cset 3).pending = none) :
    s.heatEnd.sched.heats = wrap32 (s.sched.heats + 1) := by
  unfold State.heatEnd
  rw [if_pos hb]
  dsimp only
  generalize ht : ({ s with sched := { s.sched with heats := wrap32 (s.sched.heats + 1) } } : State) = t
  have hheats : t.sched.heats = wrap32 (s.sched.heats + 1) := by rw [← ht]
  have hcommit : t.commitPoint 3 = t := by
    have hnone : (t.cset 3).pending = none := by rwa [← ht]
    unfold State.commitPoint
    dsimp only
    rw [hnone]
  have hregs : t.reg 0x400000 = s.reg 0x400000 := by rw [← ht, State.reg, State.reg]
  rw [hcommit]
  unfold State.heatsFrom
  rw [if_neg (by simp [hregs, hb])]
  exact hheats

/-! ### CONTEXT_SWITCH -/

theorem State.returnClaim_regs (s : State) (site core : Nat) (p : Pass) : (s.returnClaim site core false p).regs = s.regs := by
  unfold State.returnClaim
  dsimp only
  split <;> rfl

theorem State.returnAttn_regs (s : State) (which : Held → Bool) : (s.returnAttn which false).regs = s.regs :=
  (State.returnAttn_keeps (P := [.tiles, .attn]) s which false (Keeps.refl s) (by decide) (by decide)).parts .regs (by decide)

theorem State.dropCore_regs (s : State) (site core : Nat) : (s.dropCore site core false).regs = s.regs := by
  unfold State.dropCore
  dsimp only
  rw [State.returnAttn_regs]
  exact foldl_same (fun u : State => u.regs) _ _ _ fun u p => u.returnClaim_regs site core p

theorem State.withdraw_regs (s : State) : s.withdraw.regs = s.regs := by
  unfold State.withdraw
  rw [State.returnAttn_regs]
  exact foldl_same (fun u : State => u.regs) _ _ s fun u e => u.dropCore_regs _ _

/-- The outgoing context's progress withdrawn: the schedule and the registers stay. -/
theorem State.withdrawn_frame (s : State) (cx : Nat) :
    (s.withdraw.dropDecoded cx).sched = s.sched ∧ (s.withdraw.dropDecoded cx).regs = s.regs := by
  have hdrop := State.dropDecoded_keeps (P := [.hosts]) s.withdraw cx (Keeps.refl _) (by decide)
  have hwithdraw := State.withdraw_keeps (P := [.tiles, .attn, .regs]) s (Keeps.refl s) (by decide) (by decide) (by decide)
  exact ⟨(hdrop.parts .sched (by decide)).trans (hwithdraw.parts .sched (by decide)),
    (hdrop.parts .regs (by decide)).trans s.withdraw_regs⟩

theorem State.saveOut_sched (s : State) (cx ovr late : Nat) :
    tget (s.saveOut cx ovr late).sched.overrun cx 0 = max (tget s.sched.overrun cx 0) ovr ∧
    tget (s.saveOut cx ovr late).sched.late cx 0 = sat32 (tget s.sched.late cx 0 + late) ∧
    tget (s.saveOut cx ovr late).sched.debit cx 0 = tget s.sched.debit cx 0 + (if s.classOf cx = 0 then 0 else ovr) := by
  obtain ⟨hsched, hregs⟩ := s.withdrawn_frame cx
  have hclass : (s.withdraw.dropDecoded cx).classOf cx = s.classOf cx := by
    unfold State.classOf State.reg
    rw [hregs]
  unfold State.saveOut
  dsimp only
  rw [hsched, hclass]
  exact ⟨tget_tput_same .., tget_tput_same .., tget_tput_same ..⟩

/-- The switch ended: the outgoing context's work saved, and the incoming one in the fields if it still should be. -/
def State.switched (s : State) (ovr late : Nat) : State :=
  let t := match s.sched.outgoing with
    | some c => s.saveOut c (if s.sched.outgoing.isSome then ovr else 0) late
    | none => s
  let keep := decide (t.wantHolder false = s.sched.incoming)
  { t with sched := { t.sched with
      switching := false
      outgoing := none
      incoming := none
      servedNs := 0
      holder := if keep then s.sched.incoming else none
      lastServed := if keep then s.sched.incoming.getD t.sched.lastServed else t.sched.lastServed } }

section

variable {s : State} {ovr late : Nat}

theorem exec_contextSwitch_of_ended (hs : s.sched.switching = true)
    (hw : (if s.sched.outgoing.isSome then ovr else 0) + (if s.sched.incoming.isSome then switchNs else 0) ≤ s.sched.servedNs)
    (hu : s.sched.outgoing.any s.unsent = false) :
    exec (.contextSwitch ovr late) s = .next ((s.switched ovr late).reschedule false) := by
  refine congrArg Host.Outcome.next (Eq.trans (if_neg ?_) rfl)
  simpa [hs, hu] using hw

theorem exec_contextSwitch_of_waiting (h : s.sched.switching = false ∨
    s.sched.servedNs < (if s.sched.outgoing.isSome then ovr else 0) + (if s.sched.incoming.isSome then switchNs else 0) ∨
    s.sched.outgoing.any s.unsent = true) : exec (.contextSwitch ovr late) s = .next s :=
  congrArg Host.Outcome.next (if_pos (by simpa [or_assoc] using h))

end

/-! ### DURATION_EXPIRY -/

theorem exec_durationExpiry_of_none {s : State} {cx : Fin 16} {ring : Fin 4} (h : s.expired cx ring = none) :
    exec (.durationExpiry cx ring) s = .next s := by
  show execDurationExpiry cx ring s = _
  unfold execDurationExpiry
  rw [h]

theorem exec_durationExpiry_of_some {s : State} {cx : Fin 16} {ring : Fin 4} {c : Cmd} (h : s.expired cx ring = some c) :
    exec (.durationExpiry cx ring) s = .next (
      if (if c.issued then s.workStatus ⟨cx, ring, c.index⟩ c else s.waitStatus ⟨cx, ring, c.index⟩ c) = 0 then s
      else if c.issued then s.stopCmd ⟨cx, ring, c.index⟩ c
        (if c.issued then s.workStatus ⟨cx, ring, c.index⟩ c else s.waitStatus ⟨cx, ring, c.index⟩ c)
      else s.finish ⟨cx, ring, c.index⟩
        (if c.issued then s.workStatus ⟨cx, ring, c.index⟩ c else s.waitStatus ⟨cx, ring, c.index⟩ c) 0) := by
  show execDurationExpiry cx ring s = _
  unfold execDurationExpiry
  rw [h]

/-- Settles O48: a leg by whether it is the sheet's last, a quantum by who should hold the fields, a switch by what it waits for,
and an expired command by whether it has issued. -/
theorem sheetTurns : Obligations.SheetTurns := by
  unfold Obligations.SheetTurns
  refine ⟨fun s hh hl => ?_, fun s => exec_legEdge_of_halted, fun s => ?_, fun s ovr late => ?_, fun s cx ring =>
    ⟨exec_durationExpiry_of_none, fun c hc => ?_⟩⟩
  · have hturn := (s.legBegun (decide (s.legs.length ≤ s.sched.leg + 1))).reschedule_samePlace false
    obtain ⟨hlegNs, hleg, hheats, hspent, hretrained, hregs⟩ := hturn
    refine ⟨_, exec_legEdge_of_run hh hl, hlegNs, hspent, rfl, hretrained, ?_, fun hmore => ?_, fun hlast hb hc => ?_⟩
    · refine hleg.trans ?_
      by_cases hlast : s.legs.length ≤ s.sched.leg + 1
      · rw [if_neg (Nat.not_lt.mpr hlast), decide_eq_true hlast]
        rfl
      · rw [if_pos (Nat.not_le.mp hlast), decide_eq_false hlast]
        rfl
    · have hlast : decide (s.legs.length ≤ s.sched.leg + 1) = false := decide_eq_false (Nat.not_le.mpr hmore)
      rw [hlast] at hheats hregs ⊢
      exact ⟨hheats.trans s.holderDebited_samePlace.heats,
        fun k => congrArg (fun r : Regs => tget r.vals k _) (hregs.trans s.holderDebited_samePlace.regs)⟩
    · have hlast' : decide (s.legs.length ≤ s.sched.leg + 1) = true := decide_eq_true hlast
      rw [hlast'] at hheats ⊢
      have hregs' := s.holderDebited_samePlace.regs
      have hend : s.holderDebited.heatEnd.sched.heats = wrap32 (s.holderDebited.sched.heats + 1) :=
        State.heatEnd_heats (by unfold State.reg; rwa [hregs']) (by unfold State.cset; rwa [hregs'])
      rw [s.holderDebited_samePlace.heats] at hend
      exact hheats.trans hend
  · by_cases h : s.sched.switching = true ∨ s.wantHolder true = s.sched.holder
    · refine ⟨s, congrArg Host.Outcome.next (State.reschedule_of_settled h), fun _ => rfl, fun hs hw => ?_⟩
      exact absurd h (by simp [hs, hw])
    · have hs : s.sched.switching = false := by simpa using fun e => h (.inl e)
      refine ⟨_, congrArg Host.Outcome.next (State.reschedule_of_wanted hs fun e => h (.inr e)), fun h' => absurd h' h,
        fun _ _ => ⟨rfl, rfl, rfl, rfl⟩⟩
  · intro v wait base
    refine ⟨fun hs hw hu => ?_, exec_contextSwitch_of_waiting⟩
    refine ⟨_, s.switched ovr late, exec_contextSwitch_of_ended hs hw hu, rfl, rfl, ?_, fun c hc => ?_⟩
    · show (if decide (base.wantHolder false = s.sched.incoming) = true then s.sched.incoming else none) = _
      simp only [decide_eq_true_eq]
    · obtain ⟨hoverrun, hlate, hdebit⟩ : (s.switched ovr late).sched.overrun = (s.saveOut c ovr late).sched.overrun ∧
          (s.switched ovr late).sched.late = (s.saveOut c ovr late).sched.late ∧
          (s.switched ovr late).sched.debit = (s.saveOut c ovr late).sched.debit := by
        unfold State.switched
        rw [hc]
        exact ⟨rfl, rfl, rfl⟩
      rw [hoverrun, hlate, hdebit]
      exact s.saveOut_sched c ovr late
  · intro id
    have hrow := exec_durationExpiry_of_some hc
    refine ⟨fun hi h0 => ?_, fun hi h0 => ?_, fun h0 => ?_⟩
    · rw [hrow, if_neg (by simpa [hi] using h0), if_neg (by simp [hi]), if_neg (by simp [hi])]
    · rw [hrow, if_neg (by simpa [hi] using h0), if_pos hi, if_pos hi]
    · rw [hrow, if_pos h0]

end Sys2Proof.Machine

end

section

/-! Media streams and frames (chapter 15): O49. -/

namespace Sys2Proof.Machine

open Sys2Proof Sys2Proof.Safety

/-! ### Streams -/

section

variable {s : State} {cx : Fin 16} {c : Cmd}

theorem State.mediaRun_of_issues {k : Nat} (h : issues s cx 3 (wantKind k) (mediaPins cx s c) c)
    (run : State → CmdId → Cmd → State) : s.mediaRun cx k run =
      run (s.markIssued ⟨cx, 3, c.index⟩ (mediaPins cx s c)) ⟨cx, 3, c.index⟩ (stamped s cx (mediaPins cx s c) c) :=
  State.issueHead_of_issues (pinsOf := mediaPins cx) h run

/-- A stream that may open does: a LIVE one on the engine it is bound to. -/
def streamBind (t : State) (cx : Nat) (id : CmdId) (x : Line) : State :=
  if !srLive x then (t.poolWrite id (srSlot x) (MStream.start cx x none)).finish id 0 0
  else match t.bindEngine x with
    | none => t.finish id 0x0804 0
    | some e => (t.poolWrite id (srSlot x) (MStream.start cx x (some e))).finish id 0 0

/-- What a STREAM_OPEN does once it has issued. -/
def streamOpenWork (t : State) (cx : Nat) (id : CmdId) (x : Line) : State :=
  if streamBad x then t.finish id 0x0801 0
  else if streamOutside x then t.finish id 0x0802 0
  else if (t.mstream (srSlot x)).isOpen then t.finish id 0x0803 0
  else if poolShort x || t.mappedOk id true (srPoolVa x) (srPoolBytes x) != 0 then t.finish id 0x0805 0
  else streamBind t cx id x

theorem exec_streamOpen_of_issues (h : issues s cx 3 (wantKind 0x30) (mediaPins cx s c) c) : exec (.streamOpen cx) s =
    .next (streamOpenWork (s.markIssued ⟨cx, 3, c.index⟩ (mediaPins cx s c)) cx ⟨cx, 3, c.index⟩ c.ext) :=
  congrArg Host.Outcome.next (State.mediaRun_of_issues h fun t id c => streamOpenWork t cx id c.ext)

/-- What a STREAM_CLOSE of slot `n` does once it has issued. -/
def streamCloseWork (t : State) (cx : Nat) (id : CmdId) (n : Nat) : State :=
  if !t.streamHeld cx n then t.finish id 0x0803 0
  else if srPort (t.mstream n).record ≠ 0 ∧ !t.poQuiet (srPort (t.mstream n).record - 1) then t.finish id 0x0905 0
  else (t.setMstream n MStream.empty).finish id 0 0

theorem exec_streamClose_of_issues (h : issues s cx 3 (wantKind 0x31) (mediaPins cx s c) c) : exec (.streamClose cx) s =
    .next (streamCloseWork (s.markIssued ⟨cx, 3, c.index⟩ (mediaPins cx s c)) cx ⟨cx, 3, c.index⟩ (fld c.desc 197 192)) :=
  congrArg Host.Outcome.next (State.mediaRun_of_issues h fun t id c => streamCloseWork t cx id (fld c.desc 197 192))

/-- What an ENCODE or a DECODE does once it has issued. -/
def frameWork (t : State) (cx : Nat) (enc : Bool) (id : CmdId) (x : Line) : State :=
  let m := (t.mstream (frStream x)).record
  if !t.streamHeld cx (frStream x) then t.finish id 0x0803 0
  else if frameBad m x enc then t.finish id 0x0801 0
  else
    let st := firstStatus [t.rangesBad id enc [(frBitsVa x, frBitsBytes x)], t.rangesBad id (!enc) (sfRows (frSurface x)),
      t.rangesBad id false (if enc then hintRows m x else [])]
    if st ≠ 0 then t.finish id st 0 else t.frameReady id (frStream x) none

/-- The row that codes or decodes a frame. -/
def frameRow (cx : Fin 16) (enc : Bool) : Instr := if enc then .encode cx else .decode cx

theorem exec_frameRow_of_issues {enc : Bool} (h : issues s cx 3 (wantKind (if enc then 0x32 else 0x33)) (mediaPins cx s c) c) :
    exec (frameRow cx enc) s =
      .next (frameWork (s.markIssued ⟨cx, 3, c.index⟩ (mediaPins cx s c)) cx enc ⟨cx, 3, c.index⟩ c.ext) := by
  cases enc with
  | false => exact congrArg Host.Outcome.next (State.mediaRun_of_issues h fun t id c => frameWork t cx false id c.ext)
  | true => exact congrArg Host.Outcome.next (State.mediaRun_of_issues h fun t id c => frameWork t cx true id c.ext)

end

section

variable {t : State} {cx : Nat} {id : CmdId} {x : Line}

theorem streamOpenWork_of_bad (h : streamBad x = true) : streamOpenWork t cx id x = t.finish id 0x0801 0 := if_pos h

variable (hb : streamBad x = false)

include hb

theorem streamOpenWork_of_outside (h : streamOutside x = true) : streamOpenWork t cx id x = t.finish id 0x0802 0 :=
  (if_neg (Bool.eq_false_iff.mp hb)).trans (if_pos h)

variable (ho : streamOutside x = false)

include ho

theorem streamOpenWork_of_taken (h : (t.mstream (srSlot x)).isOpen = true) : streamOpenWork t cx id x = t.finish id 0x0803 0 :=
  (if_neg (Bool.eq_false_iff.mp hb)).trans ((if_neg (Bool.eq_false_iff.mp ho)).trans (if_pos h))

variable (hf : (t.mstream (srSlot x)).isOpen = false)

include hf

theorem streamOpenWork_of_noPool (h : poolShort x = true ∨ t.mappedOk id true (srPoolVa x) (srPoolBytes x) ≠ 0) :
    streamOpenWork t cx id x = t.finish id 0x0805 0 := by
  unfold streamOpenWork
  rw [if_neg (Bool.eq_false_iff.mp hb), if_neg (Bool.eq_false_iff.mp ho), if_neg (Bool.eq_false_iff.mp hf),
    if_pos (by simpa using h)]

variable (hs : poolShort x = false) (hp : t.mappedOk id true (srPoolVa x) (srPoolBytes x) = 0)

include hs hp

theorem streamOpenWork_of_pool : streamOpenWork t cx id x = streamBind t cx id x := by
  unfold streamOpenWork
  rw [if_neg (Bool.eq_false_iff.mp hb), if_neg (Bool.eq_false_iff.mp ho), if_neg (Bool.eq_false_iff.mp hf),
    if_neg (by simp [hs, hp])]

end

section

variable {t : State} {cx : Nat} {id : CmdId} {x : Line}

theorem streamBind_of_batch (h : srLive x = false) :
    streamBind t cx id x = (t.poolWrite id (srSlot x) (MStream.start cx x none)).finish id 0 0 := if_pos (by simp [h])

theorem streamBind_of_engine {e : Nat} (h : srLive x = true) (he : t.bindEngine x = some e) :
    streamBind t cx id x = (t.poolWrite id (srSlot x) (MStream.start cx x (some e))).finish id 0 0 := by
  unfold streamBind
  rw [if_neg (by simp [h]), he]

theorem streamBind_of_noEngine (h : srLive x = true) (he : t.bindEngine x = none) : streamBind t cx id x = t.finish id 0x0804 0 := by
  unfold streamBind
  rw [if_neg (by simp [h]), he]

end

/-! ### Frames -/

/-- An engine that runs or is retired, or that no frame waits for, starts none. -/
theorem exec_mediaFrameStart_of_idle {s : State} {eng : Fin 24}
    (h : (s.engine eng).running.isSome ∨ (s.engine eng).retired = true ∨ s.nextFrame eng = none) :
    exec (.mediaFrameStart eng) s = .next s := by
  show execMediaFrameStart eng s = _
  unfold execMediaFrameStart
  split
  · rfl
  · next hnot =>
    rw [h.resolve_left (fun e => hnot (by simp [e])) |>.resolve_left (fun e => hnot (by simp [e]))]

theorem exec_mediaFrameStart_of_frame {s : State} {eng : Fin 24} {f : MFrame} (hr : (s.engine eng).running = none)
    (ht : (s.engine eng).retired = false) (hf : s.nextFrame eng = some f) :
    exec (.mediaFrameStart eng) s = .next (s.startFrame eng f) := by
  show execMediaFrameStart eng s = _
  unfold execMediaFrameStart
  rw [if_neg (by simp [hr, ht]), hf]

theorem State.startFrame_started (s : State) (e : Nat) (f : MFrame) :
    (((s.startFrame e f).engine e).running.map MFrame.cmd) = some f.cmd ∧
    (∀ g ∈ (s.startFrame e f).media.waiting, g.cmd ≠ f.cmd) ∧ ∀ n, n ≠ e → (s.startFrame e f).engine n = s.engine n := by
  unfold State.startFrame
  refine ⟨?_, fun g hg => ?_, fun n hn => State.engine_setEngine_other _ _ _ _ hn⟩
  · rw [State.engine_setEngine_same]
    rfl
  · have hmem : g ∈ s.media.waiting.filter fun k => k.cmd != f.cmd := hg
    simpa using (List.mem_filter.mp hmem).2

theorem concealUnits_spent_le (m : Line) (history : Nat) (input : List Nat) (f spent : Nat) (h : spent ≤ srFrameNs m) :
    (concealUnits m history input f spent).2 ≤ srFrameNs m := by
  unfold concealUnits
  dsimp only
  refine foldl_keeps (fun acc : List Bool × Nat × Bool => acc.2.1 ≤ srFrameNs m) _ _ _ h fun acc u hacc => ?_
  split
  · exact Nat.min_le_left ..
  · split
    · exact hacc
    · exact Nat.min_le_left ..

theorem decodeInput_cycles_le (m : MStream) (input : List Nat) : (decodeInput m input).cycles ≤ srFrameNs m.record := by
  unfold decodeInput
  dsimp only
  refine foldl_keeps (fun acc : List Bool × Nat × List (List Nat) => acc.2.1 ≤ srFrameNs m.record) _ _ _ (Nat.zero_le _)
    fun acc f _ => ?_
  exact concealUnits_spent_le _ _ _ _ _ (Nat.min_le_left ..)

theorem State.frameCycles_le (s : State) (f : MFrame) : s.frameCycles f ≤ srFrameNs (s.mstream f.slot).record := by
  unfold State.frameCycles
  dsimp only
  split
  · split
    · exact decodeInput_cycles_le ..
    · exact Nat.le_refl _
  · split
    · exact Nat.zero_le _
    · exact Nat.le_refl _

section

variable {s : State} {eng : Fin 24}

theorem exec_mediaFrameEnd_of_idle (h : (s.engine eng).running = none) : exec (.mediaFrameEnd eng) s = .next s := by
  show execMediaFrameEnd eng s = _
  unfold execMediaFrameEnd
  rw [h]

variable {f : MFrame} (hf : (s.engine eng).running = some f)

include hf

theorem exec_mediaFrameEnd_of_noCmd (h : s.cmd? f.cmd = none) :
    exec (.mediaFrameEnd eng) s = .next (s.freeEngine eng f (s.frameCycles f)) := by
  show execMediaFrameEnd eng s = _
  unfold execMediaFrameEnd
  rw [hf]
  dsimp only
  rw [h]

variable {c : Cmd} (hc : s.cmd? f.cmd = some c)

include hc

theorem exec_mediaFrameEnd_of_waiting (h : ∃ r ∈ s.frameWrites f c, s.writeWaits f.cmd r.1 r.2 = true) :
    exec (.mediaFrameEnd eng) s = .next s := by
  show execMediaFrameEnd eng s = _
  unfold execMediaFrameEnd
  rw [hf]
  dsimp only
  rw [hc]
  dsimp only
  rw [if_pos (List.any_eq_true.mpr h)]

/-- The frame done, with its engine free in `u`: its slate, its pictures or its bits. -/
def State.frameDone (s u : State) (f : MFrame) (c : Cmd) : State :=
  match f.slate with
  | some p => u.slateDone f c p
  | none => if srDecode (s.mstream f.slot).record then u.decodeDone f c else u.encodeDone f c

omit hf hc in
theorem State.frameDone_of_slate {u : State} {p : Nat} (h : f.slate = some p) : s.frameDone u f c = u.slateDone f c p := by
  unfold State.frameDone
  rw [h]

omit hf hc in
theorem State.frameDone_of_frame {u : State} (h : f.slate = none) : s.frameDone u f c =
    if srDecode (s.mstream f.slot).record then u.decodeDone f c else u.encodeDone f c := by
  unfold State.frameDone
  rw [h]

theorem exec_mediaFrameEnd_of_done (h : ∀ r ∈ s.frameWrites f c, s.writeWaits f.cmd r.1 r.2 = false) :
    exec (.mediaFrameEnd eng) s = .next
      (s.frameDone ((s.freeEngine eng f (s.frameCycles f)).noteReads f.cmd true (s.frameReads f c)) f c) := by
  show execMediaFrameEnd eng s = _
  unfold execMediaFrameEnd
  rw [hf]
  dsimp only
  rw [hc]
  dsimp only
  rw [if_neg (by simpa using h)]
  rfl

end

/-- Settles O49: a stream's record check by check, a frame by its stream and its ranges, an engine by the frame that waits for
it, and a frame's end by what its writes wait for. -/
theorem mediaStreamsWork : Obligations.MediaStreamsWork := by
  unfold Obligations.MediaStreamsWork
  refine ⟨fun s cx c => ?_, fun s eng => ⟨exec_mediaFrameStart_of_idle, fun f hr ht hf => ?_⟩,
    fun s eng => ⟨exec_mediaFrameEnd_of_idle, fun f hf => ?_⟩⟩
  · intro x id t
    refine ⟨fun h => ?_, fun h => ?_, fun enc h => ?_⟩
    · have hrun := exec_streamOpen_of_issues h
      intro ends opens
      have hends : ∀ st, streamOpenWork t cx id x = t.finish id st 0 → ends st := fun st e =>
        hrun.trans (congrArg Host.Outcome.next e)
      refine ⟨fun hb => hends _ (streamOpenWork_of_bad hb), fun hb ho => hends _ (streamOpenWork_of_outside hb ho), fun hb ho =>
        ⟨fun hf => hends _ (streamOpenWork_of_taken hb ho hf), fun hf => ⟨fun hp => hends _ (streamOpenWork_of_noPool hb ho hf hp),
          fun hs hp => ?_⟩⟩⟩
      have hbind := hrun.trans (congrArg Host.Outcome.next (streamOpenWork_of_pool hb ho hf hs hp))
      exact ⟨fun hl => hbind.trans (congrArg Host.Outcome.next (streamBind_of_batch hl)),
        fun e hl he => hbind.trans (congrArg Host.Outcome.next (streamBind_of_engine hl he)),
        fun hl he => hbind.trans (congrArg Host.Outcome.next (streamBind_of_noEngine hl he))⟩
    · have hrun := exec_streamClose_of_issues h
      intro n p
      refine ⟨fun hh hp => ?_, fun hh => ?_, fun hh hp hq => ?_⟩
      · refine hrun.trans (congrArg Host.Outcome.next ((if_neg (by simpa using hh)).trans (if_neg fun ⟨h0, hq⟩ => ?_)))
        exact absurd (hp.resolve_left h0) (by simpa using hq)
      · exact hrun.trans (congrArg Host.Outcome.next (if_pos (by simpa using hh)))
      · exact hrun.trans (congrArg Host.Outcome.next ((if_neg (by simpa using hh)).trans (if_pos ⟨hp, by simpa using hq⟩)))
    · intro m row st
      have hrow : exec row s = .next (frameWork t cx enc id x) := exec_frameRow_of_issues h
      refine ⟨fun hh => ?_, fun hh hb => ?_, fun hh hb => ⟨fun hst => ?_, fun hst => ?_⟩⟩
      · exact hrow.trans (congrArg Host.Outcome.next (if_pos (by simpa using hh)))
      · exact hrow.trans (congrArg Host.Outcome.next ((if_neg (by simpa using hh)).trans (if_pos hb)))
      · exact hrow.trans (congrArg Host.Outcome.next
          ((if_neg (by simpa using hh)).trans ((if_neg (by simpa using hb)).trans (if_pos hst))))
      · exact hrow.trans (congrArg Host.Outcome.next
          ((if_neg (by simpa using hh)).trans ((if_neg (by simpa using hb)).trans (if_neg (not_not.mpr hst)))))
  · exact ⟨_, exec_mediaFrameStart_of_frame hr ht hf, s.startFrame_started eng f⟩
  · intro n t
    refine ⟨s.frameCycles_le f, ?_, ?_, exec_mediaFrameEnd_of_noCmd hf, fun c hc => ?_⟩
    · exact (congrArg MEngine.running (State.engine_setEngine_same ..))
    · exact (congrArg MEngine.cycles (State.engine_setEngine_same ..))
    · intro u
      refine ⟨exec_mediaFrameEnd_of_waiting hf hc, fun hw => ⟨fun p hs => ?_, fun hs hd => ?_, fun hs hd => ?_⟩⟩
      · rw [exec_mediaFrameEnd_of_done hf hc hw, State.frameDone_of_slate hs]
      · rw [exec_mediaFrameEnd_of_done hf hc hw, State.frameDone_of_frame hs, if_pos hd]
      · rw [exec_mediaFrameEnd_of_done hf hc hw, State.frameDone_of_frame hs, if_neg (by simp [hd])]

end Sys2Proof.Machine

end

section

/-! Playout ports (chapter 15): O50. -/

namespace Sys2Proof.Machine

open Sys2Proof Sys2Proof.Safety

/-! ### A command's end leaves the commit sets and the playout ports -/

theorem Logged.sets {s t : State} (h : Logged s t) : t.regs.sets = s.regs.sets := by rw [h.rest]

section

variable (s : State)

theorem State.faultCx_sets (cx st : Nat) : (s.faultCx cx st).regs.sets = s.regs.sets := by
  unfold State.faultCx
  dsimp only
  split <;> rfl

theorem State.writeRecord_sets (cx r : Nat) (c : Cmd) : (s.writeRecord cx r c).regs.sets = s.regs.sets := by
  have hpins : ∀ u : State, (c.pins.foldl (fun u p => u.setSeq p.1 { u.seq p.1 with pinned := (u.seq p.1).pinned.erase p.2 })
      u).regs.sets = u.regs.sets := fun u => foldl_same (fun u : State => u.regs.sets) _ _ u fun _ _ => rfl
  unfold State.writeRecord
  dsimp only
  split
  · rw [(State.interrupt_logged ..).sets, State.faultCx_sets, hpins]
    rfl
  · rw [hpins]
    rfl

theorem State.flush_sets (cx r n : Nat) (s : State) : (State.flush cx r n s).regs.sets = s.regs.sets := by
  induction n generalizing s with
  | zero => rfl
  | succ n ih =>
    unfold State.flush
    split
    · rfl
    · split
      · rw [ih, State.writeRecord_sets]
      · rfl

theorem State.finish_sets (id : CmdId) (status result : Nat) : (s.finish id status result).regs.sets = s.regs.sets := by
  unfold State.finish
  dsimp only
  split
  · rw [State.faultCx_sets]
    exact State.flush_sets ..
  · exact State.flush_sets ..

theorem State.checkWork_sets (id : CmdId) : (s.checkWork id).regs.sets = s.regs.sets := by
  unfold State.checkWork
  split
  · dsimp only
    split
    · exact s.finish_sets ..
    · rfl
  · rfl

theorem State.finish_media (id : CmdId) (status result : Nat) : (s.finish id status result).media = s.media :=
  (State.finish_keeps (P := [.module, .kv, .hosts, .regs, .rel, .fw]) s id status result (Keeps.refl s) (by decide) (by decide)
    (by decide) (by decide) (by decide) (by decide)).parts .media (by decide)

theorem State.checkWork_media (id : CmdId) : (s.checkWork id).media = s.media := by
  unfold State.checkWork
  split
  · dsimp only
    split
    · exact s.finish_media ..
    · rfl
  · rfl

end

/-! ### Idle again -/

/-- The port's state once it is idle. -/
def Playout.idled (q : Playout) : Playout :=
  { q with
    mode := .idle, queue := [], freeSeq := q.nextSeq, last := none, slateSent := none, showing := .nothing, repeats := 0,
    sinceSlate := 0, packets := [], stop := none, ending := false, runOutNs := 0, entering := none }

/-- The command whose frame waited for the port ends with its run, and so does the PLAY_STOP. -/
def State.poDropped (s : State) (q : Playout) : State :=
  match q.entering with
  | some (id, _) => s.checkWork id
  | none => s

def State.poStopped (s : State) (q : Playout) : State :=
  match q.stop with
  | some id => s.finish id 0 q.queue.length
  | none => s

theorem State.poDropped_frame (s : State) (q : Playout) :
    (s.poDropped q).media = s.media ∧ (s.poDropped q).regs.sets = s.regs.sets := by
  unfold State.poDropped
  split
  · exact ⟨s.checkWork_media _, s.checkWork_sets _⟩
  · exact ⟨rfl, rfl⟩

theorem State.poStopped_frame (s : State) (q : Playout) :
    (s.poStopped q).media = s.media ∧ (s.poStopped q).regs.sets = s.regs.sets := by
  unfold State.poStopped
  split
  · exact ⟨s.finish_media .., s.finish_sets ..⟩
  · exact ⟨rfl, rfl⟩

theorem State.po_of_media {s t : State} (h : t.media = s.media) (p : Nat) : t.po p = s.po p := by
  unfold State.po
  rw [h]

theorem State.poIdle_of_unpending {s : State} {p : Nat} (h : (s.cset (4 + p)).pending = none) :
    (s.poIdle p).po p = (s.po p).idled := by
  let u := ((s.setPo p (s.po p).idled).addSat (poBase p + 0x58) (s.po p).queue.length)
  have hidle : s.poIdle p = ((u.poDropped (s.po p)).poStopped (s.po p)).commitPoint (4 + p) := rfl
  obtain ⟨hmedia, hsets⟩ := u.poDropped_frame (s.po p)
  obtain ⟨hmedia', hsets'⟩ := (u.poDropped (s.po p)).poStopped_frame (s.po p)
  generalize (u.poDropped (s.po p)).poStopped (s.po p) = t at hidle hmedia' hsets'
  have hset : (t.cset (4 + p)).pending = none := by
    unfold State.cset
    rw [hsets', hsets]
    exact h
  have hcommit : t.commitPoint (4 + p) = t := by
    unfold State.commitPoint
    dsimp only
    rw [hset]
  rw [hidle, hcommit, State.po_of_media (hmedia'.trans hmedia)]
  exact State.po_setPo_same ..

section

variable {s : State} {p : Nat}

theorem State.poEnd_of_ended (hm : (s.po p).mode = .runOut) (he : (s.po p).ending = true) (hp : (s.po p).packets = []) :
    s.poEnd p = s.poIdle p := if_pos (by simp [hm, he, hp])

theorem State.poEnd_of_going (h : (s.po p).mode ≠ .runOut ∨ (s.po p).ending = false ∨ (s.po p).packets ≠ []) : s.poEnd p = s := by
  refine if_neg fun hall => ?_
  simp only [Bool.and_eq_true, beq_iff_eq, List.isEmpty_iff] at hall
  obtain ⟨⟨hm, he⟩, hp⟩ := hall
  simp [hm, he, hp] at h

/-- The port in its run-out, with the command that asked for it. -/
def State.runsOut (s : State) (p : Nat) (stop : Option CmdId) : State :=
  s.setPo p { s.po p with
    mode := .runOut, stop := stop, runOutNs := 0
    ending := !s.poCompressed p || (s.po p).showing == .slate || (s.po p).showing == .nothing }

theorem State.runOut_of_playing {stop : Option CmdId} (h : (s.po p).mode = .armed ∨ (s.po p).mode = .running) :
    s.runOut p stop = (s.runsOut p stop).poEnd p := if_pos h

theorem State.runOut_of_quiet (id : CmdId) (h : (s.po p).mode = .idle ∨ (s.po p).mode = .hold) :
    s.runOut p (some id) = s.finish id 0 0 := by
  obtain h | h := h
  · exact (if_neg (by simp [h])).trans (if_neg (by simp [h]))
  · exact (if_neg (by simp [h])).trans (if_neg (by simp [h]))

end

/-! ### What a port sends -/

section

variable (s : State) (p k : Nat)

theorem State.poNote_media (f : PFrame) : (s.poNote p f).media = s.media :=
  (State.poNote_keeps (P := [.tiers, .hosts]) s p f (Keeps.refl s) (by decide) (by decide)).parts .media (by decide)

theorem State.poNote_regs (f : PFrame) : (s.poNote p f).regs = s.regs :=
  (State.poNote_keeps (P := [.tiers, .hosts]) s p f (Keeps.refl s) (by decide) (by decide)).parts .regs (by decide)

theorem State.po_poNote (f : PFrame) (n : Nat) : (s.poNote p f).po n = s.po n := by
  unfold State.po
  rw [State.poNote_media]

/-- The packets of one more frame change nothing else of the port. -/
structure Playout.SameRun (q r : Playout) : Prop where
  queue : r.queue = q.queue
  entering : r.entering = q.entering
  showing : r.showing = q.showing
  repeats : r.repeats = q.repeats
  sinceSlate : r.sinceSlate = q.sinceSlate

theorem State.poSendPackets_sameRun (seq : Nat) (l : List (List Byte)) :
    ((s.po p)).SameRun ((s.poSendPackets p k seq l).po p) := by
  unfold State.poSendPackets
  dsimp only
  rw [State.po_setPo_same]
  exact ⟨rfl, rfl, rfl, rfl, rfl⟩

theorem State.poSendPackets_regs (seq : Nat) (l : List (List Byte)) : (s.poSendPackets p k seq l).regs = s.regs := rfl

/-- A repeat's packets, before it is counted. -/
def State.repeatSent (s : State) (p k : Nat) (slate : Bool) : State :=
  if slate then
    match (s.po p).slateSent with
    | some f => s.poSendPackets p k (s.poHeldSeq p) (s.repeatPayloads p true f ((s.po p).sinceSlate + 1))
    | none => s
  else
    match (s.po p).last with
    | some f => (s.poNote p f).poSendPackets p k (s.poHeldSeq p) (s.repeatPayloads p false f ((s.po p).repeats + 1))
    | none => s

theorem State.repeatSent_frame (slate : Bool) : (s.po p).SameRun ((s.repeatSent p k slate).po p) ∧
    (s.repeatSent p k slate).regs = s.regs := by
  have hsame : (s.po p).SameRun (s.po p) := ⟨rfl, rfl, rfl, rfl, rfl⟩
  unfold State.repeatSent
  split
  · split
    · exact ⟨State.poSendPackets_sameRun .., rfl⟩
    · exact ⟨hsame, rfl⟩
  · split
    · next f _ =>
      have hsent := (s.poNote p f).poSendPackets_sameRun p k (s.poHeldSeq p) (s.repeatPayloads p false f ((s.po p).repeats + 1))
      rw [State.po_poNote] at hsent
      exact ⟨hsent, s.poNote_regs p f⟩
    · exact ⟨hsame, rfl⟩

theorem State.poRepeat_eq : s.poRepeat p k =
    ((s.repeatSent p k (decide ((s.po p).showing = .slate))).countRepeat p (decide ((s.po p).showing = .slate))).addSat
      (poBase p + 0x50) 1 := by
  unfold State.poRepeat State.repeatSent
  dsimp only
  split
  · next h =>
    rw [decide_eq_true h, if_pos rfl]
    cases hs : (s.po p).slateSent with
    | some f => rfl
    | none => rfl
  · next h =>
    rw [decide_eq_false h, if_neg Bool.false_ne_true]
    cases hl : (s.po p).last with
    | some f => rfl
    | none => rfl

end

section

variable {s : State} {p : Nat} (k : Nat)

theorem State.po_addSat (s : State) (a n p : Nat) : (s.addSat a n).po p = s.po p := rfl

/-- A repeat of a slate: it shows on, and its repeats count. -/
theorem State.poRepeat_of_slate (h : (s.po p).showing = .slate) : ((s.poRepeat p k).po p).showing = .slate ∧
    ((s.poRepeat p k).po p).sinceSlate = (s.po p).sinceSlate + 1 ∧
    (s.poRepeat p k).reg (poBase p + 0x50) = sat32 (s.reg (poBase p + 0x50) + 1) := by
  obtain ⟨hrun, hregs⟩ := s.repeatSent_frame p k true
  rw [State.poRepeat_eq, decide_eq_true h]
  generalize s.repeatSent p k true = t at hrun hregs
  have hpo : (t.countRepeat p true).po p = { t.po p with sinceSlate := (t.po p).sinceSlate + 1 } := State.po_setPo_same ..
  have hreg : ((t.countRepeat p true).addSat (poBase p + 0x50) 1).reg (poBase p + 0x50) = sat32 (t.reg (poBase p + 0x50) + 1) :=
    State.reg_setReg_same ..
  rw [State.po_addSat, hpo, hreg]
  refine ⟨hrun.showing.trans h, congrArg (· + 1) hrun.sinceSlate, ?_⟩
  rw [State.reg, hregs, State.reg]

/-- A repeat of the last real frame. -/
theorem State.poRepeat_of_real (h : (s.po p).showing ≠ .slate) : ((s.poRepeat p k).po p).showing = .repeated ∧
    ((s.poRepeat p k).po p).repeats = (s.po p).repeats + 1 ∧
    (s.poRepeat p k).reg (poBase p + 0x50) = sat32 (s.reg (poBase p + 0x50) + 1) := by
  obtain ⟨hrun, hregs⟩ := s.repeatSent_frame p k false
  rw [State.poRepeat_eq, decide_eq_false h]
  generalize s.repeatSent p k false = t at hrun hregs
  have hpo : (t.countRepeat p false).po p = { t.po p with showing := .repeated, repeats := (t.po p).repeats + 1 } :=
    State.po_setPo_same ..
  have hreg : ((t.countRepeat p false).addSat (poBase p + 0x50) 1).reg (poBase p + 0x50) = sat32 (t.reg (poBase p + 0x50) + 1) :=
    State.reg_setReg_same ..
  rw [State.po_addSat, hpo, hreg]
  refine ⟨rfl, congrArg (· + 1) hrun.repeats, ?_⟩
  rw [State.reg, hregs, State.reg]

/-- The slate's packets. -/
def State.slatePackets (s : State) (p k : Nat) : State :=
  match (s.po p).slate with
  | some f => s.poSendPackets p k (s.poHeldSeq p) (s.framePayloads p true f)
  | none => s

theorem State.slatePackets_regs (s : State) (p k : Nat) : (s.slatePackets p k).regs = s.regs := by
  unfold State.slatePackets
  split <;> rfl

/-- The slate counted, before what was coded earlier goes stale. -/
def State.slateShown (s : State) (p k : Nat) : State :=
  ((s.slatePackets p k).setPo p
    { (s.slatePackets p k).po p with showing := .slate, sinceSlate := 0, slateSent := ((s.slatePackets p k).po p).slate }).addSat
    (poBase p + 0x54) 1

theorem State.poSlate_eq (s : State) (p k : Nat) : s.poSlate p k =
    if (s.slateShown p k).poCompressed p then (s.slateShown p k).staleStream ((s.slateShown p k).poSlot p)
    else s.slateShown p k := rfl

theorem State.staleStream_frame (s : State) (slot p : Nat) :
    (s.staleStream slot).po p = s.po p ∧ (s.staleStream slot).regs = s.regs := ⟨rfl, rfl⟩

theorem State.poSlate_shown (s : State) (p k : Nat) : ((s.poSlate p k).po p).showing = .slate ∧
    ((s.poSlate p k).po p).sinceSlate = 0 ∧ (s.poSlate p k).reg (poBase p + 0x54) = sat32 (s.reg (poBase p + 0x54) + 1) := by
  have hframe : (s.poSlate p k).po p = (s.slateShown p k).po p ∧ (s.poSlate p k).regs = (s.slateShown p k).regs := by
    rw [State.poSlate_eq]
    split
    · exact State.staleStream_frame ..
    · exact ⟨rfl, rfl⟩
  obtain ⟨hpo, hregs⟩ := hframe
  have hshown : (s.slateShown p k).po p =
      { (s.slatePackets p k).po p with showing := .slate, sinceSlate := 0, slateSent := ((s.slatePackets p k).po p).slate } :=
    State.po_setPo_same ..
  have hreg : (s.slateShown p k).reg (poBase p + 0x54) = sat32 ((s.slatePackets p k).reg (poBase p + 0x54) + 1) :=
    State.reg_setReg_same ..
  rw [hpo, hshown, State.reg, hregs, ← State.reg, hreg]
  refine ⟨rfl, rfl, ?_⟩
  rw [State.reg, s.slatePackets_regs, State.reg]

/-- A real frame's packets, before it is counted. -/
def State.realPackets (s : State) (p k : Nat) (f : PFrame) : State :=
  (s.poNote p f).poSendPackets p k f.seq (s.framePayloads p false f)

theorem State.realPackets_frame (s : State) (p k : Nat) (f : PFrame) :
    (s.po p).SameRun ((s.realPackets p k f).po p) ∧ (s.realPackets p k f).regs = s.regs := by
  have hsent := (s.poNote p f).poSendPackets_sameRun p k f.seq (s.framePayloads p false f)
  rw [State.po_poNote] at hsent
  exact ⟨hsent, s.poNote_regs p f⟩

/-- The port's state once it has sent the real frame `f`. -/
def Playout.showsReal (q : Playout) (f : PFrame) (rest : List PFrame) : Playout :=
  { q with
    queue := rest, last := some f, slateSent := none, showing := .real, repeats := 0, sinceSlate := 0
    ending := q.ending || (q.mode == .runOut && f.endGop) }

theorem State.poReal_eq {s : State} {p : Nat} (k : Nat) {f : PFrame} {rest : List PFrame} (h : (s.po p).entering = none) :
    s.poReal p k f rest =
      ((s.realPackets p k f).setPo p (((s.realPackets p k f).po p).showsReal f rest)).addWrap (poBase p + 0x4C) 1 := by
  obtain ⟨hrun, -⟩ := s.realPackets_frame p k f
  have henter : s.poReal p k f rest =
    (((s.realPackets p k f).setPo p (((s.realPackets p k f).po p).showsReal f rest)).addWrap (poBase p + 0x4C) 1).poEnter p := rfl
  rw [henter]
  generalize ht : ((s.realPackets p k f).setPo p (((s.realPackets p k f).po p).showsReal f rest)).addWrap (poBase p + 0x4C) 1 = t
  have hpo : t.po p = ((s.realPackets p k f).po p).showsReal f rest := by
    rw [← ht]
    exact State.po_setPo_same ..
  have hnone : (t.po p).entering = none := by
    rw [hpo]
    exact hrun.entering.trans h
  unfold State.poEnter
  rw [hnone]

theorem State.poReal_shown {f : PFrame} {rest : List PFrame} (h : (s.po p).entering = none) :
    ((s.poReal p k f rest).po p).queue = rest ∧ ((s.poReal p k f rest).po p).last = some f ∧
    ((s.poReal p k f rest).po p).showing = .real ∧ ((s.poReal p k f rest).po p).repeats = 0 ∧
    (s.poReal p k f rest).reg (poBase p + 0x4C) = wrap32 (s.reg (poBase p + 0x4C) + 1) := by
  obtain ⟨-, hregs⟩ := s.realPackets_frame p k f
  rw [State.poReal_eq k h]
  generalize s.realPackets p k f = t at hregs
  have hpo : ((t.setPo p ((t.po p).showsReal f rest)).addWrap (poBase p + 0x4C) 1).po p = (t.po p).showsReal f rest :=
    State.po_setPo_same ..
  have hreg : ((t.setPo p ((t.po p).showsReal f rest)).addWrap (poBase p + 0x4C) 1).reg (poBase p + 0x4C) =
      wrap32 (t.reg (poBase p + 0x4C) + 1) := State.reg_setReg_same ..
  rw [hpo, hreg]
  refine ⟨rfl, rfl, rfl, rfl, ?_⟩
  rw [State.reg, hregs, State.reg]

end

section

variable {s : State} {p : Nat} (k : Nat)

theorem State.poSend_of_queued {f : PFrame} {r : List PFrame} (h : (s.po p).queue = f :: r) : s.poSend p k = s.poReal p k f r := by
  unfold State.poSend
  dsimp only
  rw [h]

variable (h : (s.po p).queue = [])

include h

theorem State.poSend_of_real (hs : (s.po p).showing ≠ .slate) :
    s.poSend p k = if (s.po p).repeats < s.poRepeatMax p then s.poRepeat p k else s.poSlate p k := by
  unfold State.poSend
  dsimp only
  rw [h]
  exact if_neg hs

theorem State.poSend_of_slate (hs : (s.po p).showing = .slate) :
    s.poSend p k = if 15 ≤ (s.po p).sinceSlate then s.poSlate p k else s.poRepeat p k := by
  unfold State.poSend
  dsimp only
  rw [h]
  exact if_pos hs

end

/-! ### The commands of a port -/

section

variable {s : State} {cx : Fin 16} {c : Cmd}

theorem exec_playStart_of_issues (h : issues s cx 3 (wantKind 0x34) (mediaPins cx s c) c) : exec (.playStart cx) s = .next (
    let t := s.markIssued ⟨cx, 3, c.index⟩ (mediaPins cx s c)
    let q := t.po (cmdPort c)
    if t.poOwner (cmdPort c) ≠ cx then t.finish ⟨cx, 3, c.index⟩ 0x0903 0
    else if !t.setClosed (4 + cmdPort c) || q.mode != .idle || q.slate.isNone then t.finish ⟨cx, 3, c.index⟩ 0x0902 0
    else (t.setPo (cmdPort c) { q with mode := .armed }).finish ⟨cx, 3, c.index⟩ 0 0) :=
  congrArg Host.Outcome.next (State.mediaRun_of_issues h _)

theorem exec_playStop_of_issues (h : issues s cx 3 (wantKind 0x35) (mediaPins cx s c) c) : exec (.playStop cx) s = .next (
    let t := s.markIssued ⟨cx, 3, c.index⟩ (mediaPins cx s c)
    if t.poOwner (cmdPort c) ≠ cx then t.finish ⟨cx, 3, c.index⟩ 0x0903 0
    else t.runOut (cmdPort c) (some ⟨cx, 3, c.index⟩)) :=
  congrArg Host.Outcome.next (State.mediaRun_of_issues h _)

/-- What a PLAY_QUEUE of the surface `v` at port `p` does. -/
def playQueueWork (t : State) (cx : Nat) (id : CmdId) (p v : Nat) : State :=
  let q := t.po p
  if t.poOwner p ≠ cx ∨ t.poCompressed p ∨ (q.mode ≠ .armed ∧ q.mode ≠ .running) then t.finish id 0x0903 0
  else if !t.poSurfaceOk p v then t.finish id 0x0904 0
  else if t.rangesBad id false (sfRows v) ≠ 0 then t.finish id (t.rangesBad id false (sfRows v)) 0
  else if 8 ≤ q.queue.length then t
  else (t.setPo p { q with
      queue := q.queue ++ [⟨q.nextSeq, v, [], false, false, 0, 0⟩]
      nextSeq := wrap32 (q.nextSeq + 1) }).finish id 0 q.nextSeq

theorem exec_playQueue_of_works {b : State} (h : works s b cx 3 (wantKind 0x36) (mediaPins cx s c) c) :
    exec (.playQueue cx) s = .next (playQueueWork b cx ⟨cx, 3, c.index⟩ (cmdPort c) (fld c.ext 255 0)) := by
  obtain ⟨d, hdesc, hext, -, hrun⟩ := State.issueOrRun_of_works (pinsOf := mediaPins cx) h fun t id c =>
    playQueueWork t cx id (cmdPort c) (fld c.ext 255 0)
  refine (congrArg Host.Outcome.next hrun).trans ?_
  rw [cmdPort, hdesc, hext, cmdPort]

/-- What a SLATE of the surface `v` at port `p` does: the samples of an uncompressed port are stored, those of a compressed
one coded. -/
def slateWork (t : State) (cx : Nat) (id : CmdId) (p v : Nat) : State :=
  let m := (t.mstream (t.poSlot p)).record
  let coded := t.poCompressed p
  if t.poOwner p ≠ cx then t.finish id 0x0903 0
  else if coded && !t.streamHeld cx (t.poSlot p) then t.finish id 0x0803 0
  else if coded && (surfaceBad v || sfLayout v != b2n (srTenBit m) || sfWidth v != srWidth m || sfHeight v != srHeight m) then
    t.finish id 0x0801 0
  else if !coded && !t.poSurfaceOk p v then t.finish id 0x0904 0
  else if coded then
    (if t.rangesBad id false (sfRows v) ≠ 0 then t.finish id (t.rangesBad id false (sfRows v)) 0
    else t.frameReady id (t.poSlot p) (some p))
  else
    match t.readRanges id (sfRows v) with
    | (0, l) =>
      if anyPoison l then t.consumePoison id
      else
        ((t.noteReads id true (sfRows v)).setPo p { t.po p with slate := some ⟨0, 0, unmark l, false, true, 0, 0⟩ }).finish id 0 0
    | (st, _) => t.finish id (mediaStatus st) 0

theorem exec_slate_of_issues (h : issues s cx 3 (wantKind 0x37) (mediaPins cx s c) c) : exec (.slate cx) s =
    .next (slateWork (s.markIssued ⟨cx, 3, c.index⟩ (mediaPins cx s c)) cx ⟨cx, 3, c.index⟩ (cmdPort c) (fld c.ext 255 0)) :=
  congrArg Host.Outcome.next (State.mediaRun_of_issues h fun t id c => slateWork t cx id (cmdPort c) (fld c.ext 255 0))

end

section

variable {t : State} {cx : Nat} {id : CmdId} {p v : Nat}

section

variable (h : t.poOwner p = cx ∧ t.poCompressed p = false ∧ ((t.po p).mode = .armed ∨ (t.po p).mode = .running))

include h

theorem playQueueWork_of_own : playQueueWork t cx id p v =
    if !t.poSurfaceOk p v then t.finish id 0x0904 0
    else if t.rangesBad id false (sfRows v) ≠ 0 then t.finish id (t.rangesBad id false (sfRows v)) 0
    else if 8 ≤ (t.po p).queue.length then t
    else (t.setPo p { t.po p with
        queue := (t.po p).queue ++ [⟨(t.po p).nextSeq, v, [], false, false, 0, 0⟩]
        nextSeq := wrap32 ((t.po p).nextSeq + 1) }).finish id 0 (t.po p).nextSeq := by
  obtain ⟨howner, hraw, hmode⟩ := h
  refine if_neg fun hbad => ?_
  simp only [howner, hraw, ne_eq, not_true, Bool.false_eq_true, false_or] at hbad
  exact hmode.elim hbad.1 hbad.2

end

theorem playQueueWork_of_other
    (h : ¬(t.poOwner p = cx ∧ t.poCompressed p = false ∧ ((t.po p).mode = .armed ∨ (t.po p).mode = .running))) :
    playQueueWork t cx id p v = t.finish id 0x0903 0 := by
  refine if_pos ?_
  by_contra hnot
  simp only [not_or, not_and_or, not_not, Bool.not_eq_true] at hnot
  exact h hnot

section

variable (ho : t.poOwner p = cx)

include ho

section

variable (hc : t.poCompressed p = true)

include hc

theorem slateWork_of_unheld (h : t.streamHeld cx (t.poSlot p) = false) : slateWork t cx id p v = t.finish id 0x0803 0 := by
  unfold slateWork
  dsimp only
  rw [if_neg (not_not.mpr ho), if_pos (by simp [hc, h])]

variable (hh : t.streamHeld cx (t.poSlot p) = true)

include hh

theorem slateWork_of_unsuited (h : ¬(surfaceBad v = false ∧ sfLayout v = b2n (srTenBit (t.mstream (t.poSlot p)).record) ∧
    sfWidth v = srWidth (t.mstream (t.poSlot p)).record ∧ sfHeight v = srHeight (t.mstream (t.poSlot p)).record)) :
    slateWork t cx id p v = t.finish id 0x0801 0 := by
  unfold slateWork
  dsimp only
  rw [if_neg (not_not.mpr ho), if_neg (by simp [hh]), if_pos]
  by_contra hnot
  simp only [hc, Bool.true_and, Bool.or_eq_true, bne_iff_ne, ne_eq, not_or, Bool.not_eq_true, not_not, and_assoc] at hnot
  exact h hnot

theorem slateWork_of_suited (h : surfaceBad v = false ∧ sfLayout v = b2n (srTenBit (t.mstream (t.poSlot p)).record) ∧
    sfWidth v = srWidth (t.mstream (t.poSlot p)).record ∧ sfHeight v = srHeight (t.mstream (t.poSlot p)).record) :
    slateWork t cx id p v =
      if t.rangesBad id false (sfRows v) ≠ 0 then t.finish id (t.rangesBad id false (sfRows v)) 0
      else t.frameReady id (t.poSlot p) (some p) := by
  obtain ⟨hsound, hlayout, hwidth, hheight⟩ := h
  unfold slateWork
  dsimp only
  rw [if_neg (not_not.mpr ho), if_neg (by simp [hh]), if_neg (by simp [hsound, hlayout, hwidth, hheight]), if_neg (by simp [hc]),
    if_pos hc]

end

variable (hc : t.poCompressed p = false)

include hc

theorem slateWork_of_badSurface (h : t.poSurfaceOk p v = false) : slateWork t cx id p v = t.finish id 0x0904 0 := by
  unfold slateWork
  dsimp only
  rw [if_neg (not_not.mpr ho), if_neg (by simp [hc]), if_neg (by simp [hc]), if_pos (by simp [hc, h])]

variable (hs : t.poSurfaceOk p v = true)

include hs

theorem slateWork_of_read {l : Marked} (h : t.readRanges id (sfRows v) = (0, l)) : slateWork t cx id p v =
    if anyPoison l then t.consumePoison id
    else ((t.noteReads id true (sfRows v)).setPo p
      { t.po p with slate := some ⟨0, 0, unmark l, false, true, 0, 0⟩ }).finish id 0 0 := by
  unfold slateWork
  dsimp only
  rw [if_neg (not_not.mpr ho), if_neg (by simp [hc]), if_neg (by simp [hc]), if_neg (by simp [hs]), if_neg (by simp [hc]), h]
  rfl

theorem slateWork_of_unread {st : Nat} {l : Marked} (hst : st ≠ 0) (h : t.readRanges id (sfRows v) = (st, l)) :
    slateWork t cx id p v = t.finish id (mediaStatus st) 0 := by
  unfold slateWork
  dsimp only
  rw [if_neg (not_not.mpr ho), if_neg (by simp [hc]), if_neg (by simp [hc]), if_neg (by simp [hs]), if_neg (by simp [hc]), h]
  cases st with
  | zero => exact absurd rfl hst
  | succ st => rfl

end

end

/-! ### An alignment point -/

/-- What a port does at alignment point `k`, its values committed. -/
def State.poTake (t : State) (p k : Nat) : State :=
  let q := t.po p
  if q.mode = .armed then
    (if q.clock = .locked ∧ q.queue ≠ [] then (t.setPo p { q with mode := .running }).poSend p k else t)
  else if q.mode = .running then t.poSend p k
  else if q.mode = .runOut ∧ !q.ending then t.poSend p k
  else t

section

variable {t : State} {p k : Nat}

theorem State.poTake_of_armed (hm : (t.po p).mode = .armed) (h : (t.po p).clock = .locked ∧ (t.po p).queue ≠ []) :
    t.poTake p k = (t.setPo p { t.po p with mode := .running }).poSend p k := (if_pos hm).trans (if_pos h)

theorem State.poTake_of_running (h : (t.po p).mode = .running ∨ ((t.po p).mode = .runOut ∧ (t.po p).ending = false)) :
    t.poTake p k = t.poSend p k := by
  unfold State.poTake
  dsimp only
  obtain hm | ⟨hm, he⟩ := h
  · rw [if_neg (by simp [hm]), if_pos hm]
  · rw [if_neg (by simp [hm]), if_neg (by simp [hm]), if_pos ⟨hm, by simp [he]⟩]

theorem State.poTake_of_quiet (h : (t.po p).mode = .idle ∨ (t.po p).mode = .hold ∨
    ((t.po p).mode = .armed ∧ ((t.po p).clock ≠ .locked ∨ (t.po p).queue = [])) ∨
    ((t.po p).mode = .runOut ∧ (t.po p).ending = true)) : t.poTake p k = t := by
  unfold State.poTake
  dsimp only
  obtain hm | hm | ⟨hm, hw⟩ | ⟨hm, he⟩ := h
  · rw [if_neg (by simp [hm]), if_neg (by simp [hm]), if_neg (by simp [hm])]
  · rw [if_neg (by simp [hm]), if_neg (by simp [hm]), if_neg (by simp [hm])]
  · rw [if_pos hm, if_neg fun ⟨hc, hq⟩ => hw.elim (fun n => n hc) hq]
  · rw [if_neg (by simp [hm]), if_neg (by simp [hm]), if_neg (by simp [he])]

end

/-- Settles O50: the commands of a port by its owner and mode, an alignment point by the port's mode and what it has to send, a
packet and the end of a run by the packets left. -/
theorem playoutPortsRun : Obligations.PlayoutPortsRun := by
  unfold Obligations.PlayoutPortsRun
  refine ⟨fun s cx c => ?_, fun s po k => ?_, fun s po k _ he => ?_, fun s po => ?_⟩
  · intro id t p q v
    refine ⟨fun h => ?_, fun h => ?_, fun b h => ?_, fun h => ?_⟩
    · have hrun := exec_playStart_of_issues h
      refine ⟨fun ho => hrun.trans (congrArg Host.Outcome.next (if_pos ho)), fun ho hc hm hs => ?_, fun ho hbad => ?_⟩
      · refine hrun.trans (congrArg Host.Outcome.next ((if_neg (not_not.mpr ho)).trans (if_neg ?_)))
        simp [t, id, p, q] at hc hm hs ⊢
        simp [hc, hm, Option.isSome_iff_ne_none.mp hs]
      · refine hrun.trans (congrArg Host.Outcome.next ((if_neg (not_not.mpr ho)).trans (if_pos ?_)))
        simpa [t, id, p, q, or_assoc] using hbad
    · have hrun := exec_playStop_of_issues h
      exact ⟨fun ho => hrun.trans (congrArg Host.Outcome.next (if_pos ho)), fun ho =>
        ⟨hrun.trans (congrArg Host.Outcome.next (if_neg (not_not.mpr ho))), State.runOut_of_quiet id, State.runOut_of_playing⟩⟩
    · have hrun := exec_playQueue_of_works h
      intro q st mine
      refine ⟨fun hm => hrun.trans (congrArg Host.Outcome.next (playQueueWork_of_other hm)), fun hm hv => ?_, fun hm hv hst => ?_,
        fun hm hv hst => ⟨fun hq => ?_, fun hq => ?_⟩⟩
      all_goals refine hrun.trans (congrArg Host.Outcome.next ((playQueueWork_of_own hm).trans ?_))
      · exact if_pos (by simpa using hv)
      · exact (if_neg (by simpa using hv)).trans (if_pos hst)
      · exact (if_neg (by simpa using hv)).trans ((if_neg (not_not.mpr hst)).trans (if_neg (Nat.not_le.mpr hq)))
      · exact (if_neg (by simpa using hv)).trans ((if_neg (not_not.mpr hst)).trans (if_pos hq))
    · have hrun := exec_slate_of_issues h
      intro m suits st
      refine ⟨fun ho => hrun.trans (congrArg Host.Outcome.next (if_pos ho)), fun ho hc => ⟨fun hh => ?_, fun hh hs => ?_,
        fun hh hs hst => ?_, fun hh hs hst => ?_⟩, fun ho hc => ⟨fun hv => ?_, fun st l hv hr => ⟨fun h0 hp => ?_, fun h0 hp => ?_,
          fun h0 => ?_⟩⟩⟩
      · rw [hrun, slateWork_of_unheld ho hc hh]
      · rw [hrun, slateWork_of_unsuited ho hc hh hs]
      · rw [hrun, slateWork_of_suited ho hc hh hs, if_pos hst]
      · rw [hrun, slateWork_of_suited ho hc hh hs, if_neg (not_not.mpr hst)]
        rfl
      · rw [hrun, slateWork_of_badSurface ho hc hv]
      · rw [hrun, slateWork_of_read ho hc hv (by rw [← h0]; exact hr), if_neg (by simp [hp])]
      · rw [hrun, slateWork_of_read ho hc hv (by rw [← h0]; exact hr), if_pos hp]
      · rw [hrun, slateWork_of_unread ho hc hv h0 hr]
  · intro t q
    have htake : exec (.playoutFrameTake ⟨po, k⟩) s = .next (t.poTake po k) := rfl
    rw [htake]
    exact ⟨fun hm hc hq => by rw [State.poTake_of_armed hm ⟨hc, hq⟩], fun hm => by rw [State.poTake_of_running hm],
      fun hm => by rw [State.poTake_of_quiet hm]⟩
  · refine ⟨fun f r hq => ?_, fun hq hs hr => ?_, fun hq hs => ?_, fun hq hs hr => ?_⟩
    · rw [State.poSend_of_queued k hq]
      exact State.poReal_shown k he
    · rw [State.poSend_of_real k hq hs, if_pos hr]
      exact State.poRepeat_of_real k hs
    · have hslate : s.poSend po k = s.poSlate po k := by
        obtain ⟨hs, hr⟩ | ⟨hs, hr⟩ := hs
        · rw [State.poSend_of_real k hq hs, if_neg (Nat.not_lt.mpr hr)]
        · rw [State.poSend_of_slate k hq hs, if_pos hr]
      rw [hslate]
      exact s.poSlate_shown po k
    · rw [State.poSend_of_slate k hq hs, if_neg (Nat.not_le.mpr hr)]
      exact State.poRepeat_of_slate k hs
  · intro q late
    refine ⟨fun hp => ?_, fun k rest hp => ?_, fun hm hl => ?_, fun h => ?_, fun hm he hp hn => ?_, State.poEnd_of_going,
      fun off settled newMaster => rfl, rfl⟩
    · show execPlayoutPacketSend po s = _
      unfold execPlayoutPacketSend
      dsimp only
      rw [hp]
    · show execPlayoutPacketSend po s = _
      unfold execPlayoutPacketSend
      dsimp only
      rw [hp]
    · exact congrArg Host.Outcome.next (if_pos (Bool.and_eq_true_iff.mpr ⟨beq_iff_eq.mpr hm, decide_eq_true hl⟩))
    · refine congrArg Host.Outcome.next (if_neg fun e => ?_)
      obtain ⟨hm, hl⟩ := Bool.and_eq_true_iff.mp e
      exact h.elim (fun n => n (beq_iff_eq.mp hm)) fun n => n (of_decide_eq_true hl)
    · rw [State.poEnd_of_ended hm he hp, State.poIdle_of_unpending hn]
      exact ⟨rfl, rfl⟩

end Sys2Proof.Machine

end

section

/-! Faults at their place (chapter 17): O51. -/

namespace Sys2Proof.Machine

open Sys2Proof Sys2Proof.Safety

section

variable (s : State)

theorem State.pathFault_of_resent {n : Nat} (site cx ring : Nat) (h : n < 4) :
    s.pathFault site cx ring n = s.addSat 0x60011C (min n 3) := if_pos h

theorem State.pathFault_of_failed {n : Nat} (site cx ring : Nat) (h : 4 ≤ n) :
    s.pathFault site cx ring n = ((s.addSat 0x60011C 3).faultCmd cx ring 0x0B02).pathFailed site := by
  unfold State.pathFault
  dsimp only
  rw [if_neg (Nat.not_lt.mpr h), Nat.min_eq_right (by omega)]

theorem State.checksumFault_of_resent {n : Nat} (cx ring : Nat) (h : n < 4) : s.checksumFault cx ring n = s.addSat 0x600124 n := by
  unfold State.checksumFault
  dsimp only
  rw [if_pos h, Nat.min_eq_left (by omega)]

theorem State.checksumFault_of_failed {n : Nat} (cx ring : Nat) (h : 4 ≤ n) :
    s.checksumFault cx ring n = (s.addSat 0x600124 4).faultCmd cx ring 0x0B04 := by
  unfold State.checksumFault
  dsimp only
  rw [if_neg (Nat.not_lt.mpr h), Nat.min_eq_right h]

theorem State.heatFault_of_present {rank unit : Nat} (h : ∃ u ∈ tget s.tiers.heat rank [], u.unit = unit) :
    (s.heatFault rank unit).reg 0x600120 = sat32 (s.reg 0x600120 + 1) ∧
    (∀ u ∈ tget (s.heatFault rank unit).tiers.heat rank [], u.unit ≠ unit) ∧ (s.heatFault rank unit).memory = s.memory := by
  have hany : (tget s.tiers.heat rank []).any (fun u => u.unit == unit) = true := by
    obtain ⟨u, hu, he⟩ := h
    exact List.any_eq_true.mpr ⟨u, hu, beq_iff_eq.mpr he⟩
  unfold State.heatFault
  dsimp only
  rw [if_pos hany]
  refine ⟨State.reg_setReg_same .., fun u hu => ?_, rfl⟩
  have hmem : u ∈ tget (tput s.tiers.heat rank ((tget s.tiers.heat rank []).filter fun u => u.unit != unit) []) rank [] := hu
  rw [tget_tput_same] at hmem
  simpa using (List.mem_filter.mp hmem).2

theorem State.heatFault_of_absent {rank unit : Nat} (h : ∀ u ∈ tget s.tiers.heat rank [], u.unit ≠ unit) :
    s.heatFault rank unit = s := if_neg (by simpa using h)

theorem State.lineFault_of_clean {rank line : Nat} (h : line < 786432) (hp : 786432 * rank + line ∉ s.memory.poisonLines) :
    s.lineFault rank line = s.poisonLine rank line := by
  refine if_neg fun e => e.elim (Nat.not_le.mpr h) fun hc => hp ?_
  simpa using hc

end

theorem Logged.media {s t : State} (h : Logged s t) : t.media = s.media := by rw [h.rest]

theorem State.engine_of_media {s t : State} (h : t.media = s.media) (n : Nat) : t.engine n = s.engine n := by
  unfold State.engine
  rw [h]

/-- An engine struck by a fault has no frame and says when it was lost. -/
theorem State.mediaFault_of_serving {s : State} {eng : Nat} (hr : (s.engine eng).retired = false) :
    ((s.mediaFault eng).engine eng).running = none ∧ ((s.mediaFault eng).engine eng).lostAt = some s.module.lifeSeconds := by
  have hlogged : ∀ (u : State) (ty n : Nat), ((u.log 0x10 0x0B06 6 n 0).log ty 0 6 n 0).media = u.media := fun u ty n =>
    ((State.log_logged u 0x10 0x0B06 6 n 0).trans (State.log_logged _ ty 0 6 n 0)).media
  unfold State.mediaFault
  dsimp only
  rw [if_neg (by simp [hr]), State.engine_of_media (hlogged _ _ _)]
  split
  · rw [State.engine_of_media (State.finish_media ..), State.engine_setEngine_same]
    exact ⟨rfl, rfl⟩
  · rw [State.engine_setEngine_same]
    exact ⟨rfl, rfl⟩

/-- Settles O51: each fault by its place, a resend by how often it failed, and a line or an entry by whether it stood. -/
theorem faultsActAtTheirPlace : Obligations.FaultsActAtTheirPlace := by
  unfold Obligations.FaultsActAtTheirPlace
  refine ⟨fun s site cx ring n => ⟨fun h => ?_, fun h => ?_, fun h => ?_, fun h => ?_⟩, fun s rank unit line =>
    ⟨fun h => ⟨_, rfl, s.heatFault_of_present h⟩, fun h => ?_, fun h hp => ?_, fun _ => rfl, fun _ _ => rfl⟩,
    fun s site core eng link p => ⟨rfl, rfl, rfl, rfl, rfl, rfl, rfl, rfl, rfl, fun f _ hr =>
      ⟨_, rfl, State.mediaFault_of_serving hr⟩⟩⟩
  · exact congrArg Host.Outcome.next (s.pathFault_of_resent site cx ring h)
  · exact congrArg Host.Outcome.next (s.pathFault_of_failed site cx ring h)
  · exact congrArg Host.Outcome.next (s.checksumFault_of_resent cx ring h)
  · exact congrArg Host.Outcome.next (s.checksumFault_of_failed cx ring h)
  · exact congrArg Host.Outcome.next (s.heatFault_of_absent h)
  · exact ⟨_, congrArg Host.Outcome.next (s.lineFault_of_clean h hp), fun m => mem_sput .., rfl, rfl, State.reg_setReg_same ..⟩

end Sys2Proof.Machine

end

section

/-! What the end of commands leaves of a state (chapters 13 and 17): the layer under the loss of a field. -/

namespace Sys2Proof.Machine

open Sys2Proof Sys2Proof.Safety

/-! ### Events only rise -/

section

variable (s : State)

theorem State.ownerEvent_rel (n : Nat) : (s.ownerEvent n).rel = s.rel := by
  unfold State.ownerEvent
  dsimp only
  split <;> rfl

theorem State.appendRecord_events (ty status kind unit data : Nat) :
    (s.appendRecord ty status kind unit data).rel.events = s.rel.events := by
  unfold State.appendRecord
  split <;> rw [State.ownerEvent_rel]

/-- A record that a signature's count may bring. -/
theorem State.recordIf_events (p : Prop) [Decidable p] (data : Nat) :
    (if p then s.appendRecord 0x92 0 0 0 data else s).rel.events = s.rel.events := by
  split
  · exact s.appendRecord_events ..
  · rfl

theorem State.sign_events (m : List Byte) : (s.sign m).1.rel.events = s.rel.events := by
  unfold State.sign
  split
  · rfl
  · simp only [State.recordIf_events]

theorem State.checkpoint_events : s.checkpoint.rel.events = s.rel.events := by
  unfold State.checkpoint
  dsimp only
  generalize ht : (State.mk _ _ _ _ _ _ _ _ _ _ _ _ _ _ _ _ _ _ : State) = t
  have hevents : t.rel.events = s.rel.events := by
    rw [← ht]
    exact s.appendRecord_events ..
  split
  · next u hu =>
    rw [← hevents, ← t.sign_events, hu]
  · next u g hu =>
    have hsign := t.sign_events
    rw [← hevents, ← hsign, hu]

theorem State.log_events (ty status kind unit data : Nat) : (s.log ty status kind unit data).rel.events = s.rel.events := by
  unfold State.log
  dsimp only
  split
  · rw [State.checkpoint_events, State.appendRecord_events]
  · rw [State.appendRecord_events]

theorem State.interrupt_events (status : Nat) (unavailable : Bool) :
    (s.interrupt status unavailable).rel.events = s.rel.events + 1 := by
  unfold State.interrupt
  rw [State.log_events]

end

/-! ### The ends of commands -/

/-- What the end of commands may change: a READY context may fault, records and events are appended, kernels end. Faulted
contexts, disabled sequences, the sites, the package and the substitution stand. -/
structure CmdEnds (s t : State) : Prop where
  ready : ∀ n, (s.ctx n).mode = .ready → (t.ctx n).mode = .ready ∨ (t.ctx n).mode = .faulted
  faulted : ∀ n, (s.ctx n).mode = .faulted → (t.ctx n).mode = .faulted ∧ (t.ctx n).status = (s.ctx n).status
  disabled : ∀ q, (s.seq q).enabled = false → (t.seq q).enabled = false
  rel : t.rel = { s.rel with
    book := t.rel.book, signatures := t.rel.signatures, sinceCheckpoint := t.rel.sinceCheckpoint, events := t.rel.events }
  events : s.rel.events ≤ t.rel.events
  ctrl : t.reg 0x600100 = s.reg 0x600100
  kernels : ∀ n, s.kernel n = none → t.kernel n = none
  sites : t.sites = s.sites
  package : t.package = s.package

namespace CmdEnds

theorem refl (s : State) : CmdEnds s s :=
  ⟨fun _ h => .inl h, fun _ h => ⟨h, rfl⟩, fun _ h => h, rfl, Nat.le_refl _, rfl, fun _ h => h, rfl, rfl⟩

theorem trans {s t u : State} (h : CmdEnds s t) (g : CmdEnds t u) : CmdEnds s u where
  ready n hn := by
    obtain hr | hf := h.ready n hn
    · exact g.ready n hr
    · exact .inr (g.faulted n hf).1
  faulted n hn := by
    obtain ⟨hf, hs⟩ := h.faulted n hn
    obtain ⟨hf', hs'⟩ := g.faulted n hf
    exact ⟨hf', hs'.trans hs⟩
  disabled q hq := g.disabled q (h.disabled q hq)
  rel := by
    have hs := h.rel
    have ht := g.rel
    rw [hs] at ht
    exact ht
  events := h.events.trans g.events
  ctrl := g.ctrl.trans h.ctrl
  kernels n hn := g.kernels n (h.kernels n hn)
  sites := g.sites.trans h.sites
  package := g.package.trans h.package

theorem foldl {α : Type} (l : List α) (f : State → α → State) (s : State) (hf : ∀ u a, CmdEnds u (f u a)) :
    CmdEnds s (l.foldl f s) :=
  foldl_keeps (CmdEnds s) l f s (refl s) fun u a hu => hu.trans (hf u a)

theorem iter (n : Nat) (f : Nat → State → State) (s : State) (hf : ∀ i u, CmdEnds u (f i u)) : CmdEnds s (iter n f s) :=
  iter_keeps (CmdEnds s) n f s (refl s) fun i u hu => hu.trans (hf i u)

theorem of_parts {P : List Part} {s t : State} (h : Keeps P s t) (ekv : t.kv = s.kv) (hhosts : Part.hosts ∉ P) (hrel : Part.rel ∉ P)
    (hregs : Part.regs ∉ P) (htiles : Part.tiles ∉ P) (hsites : Part.sites ∉ P) (hpackage : Part.package ∉ P) : CmdEnds s t := by
  have ehosts : t.hosts = s.hosts := h.parts .hosts hhosts
  have erel : t.rel = s.rel := h.parts .rel hrel
  have eregs : t.regs = s.regs := h.parts .regs hregs
  have etiles : t.tiles = s.tiles := h.parts .tiles htiles
  have hctx : ∀ n, t.ctx n = s.ctx n := State.ctx_of_hosts ehosts
  refine ⟨fun n hn => ?_, fun n hn => ?_, fun q hq => ?_, by rw [erel], by rw [erel], ?_, fun n hn => ?_, h.parts .sites hsites,
    h.parts .package hpackage⟩
  · rw [hctx]
    exact .inl hn
  · rw [hctx]
    exact ⟨hn, rfl⟩
  · rwa [State.seq, ekv]
  · rw [State.reg, eregs, State.reg]
  · rwa [State.kernel, etiles]

theorem of_logged {s t : State} (h : Logged s t) (he : s.rel.events ≤ t.rel.events) : CmdEnds s t := by
  have hrest := h.rest
  refine ⟨fun n hn => ?_, fun n hn => ?_, fun q hq => ?_, by rw [hrest], he, h.reg _ (by decide), fun n hn => ?_, by rw [hrest],
    by rw [hrest]⟩
  · rw [h.ctx]
    exact .inl hn
  · rw [h.ctx]
    exact ⟨hn, rfl⟩
  · rwa [hrest]
  · rwa [hrest]

end CmdEnds

/-- An update of the contexts that keeps each one's mode and status. -/
theorem CmdEnds.of_ctxs {s t : State} (h : t = { s with hosts := t.hosts })
    (hctx : ∀ n, (t.ctx n).mode = (s.ctx n).mode ∧ (t.ctx n).status = (s.ctx n).status) : CmdEnds s t := by
  refine ⟨fun n hn => .inl ((hctx n).1.trans hn), fun n hn => ⟨(hctx n).1.trans hn, (hctx n).2⟩, fun q hq => ?_, by rw [h],
    by rw [h], by rw [h]; rfl, fun n hn => ?_, by rw [h], by rw [h]⟩
  · rwa [h]
  · rwa [h]

section

variable (s : State)

theorem State.setCtx_cmdEnds (n : Nat) (v : Ctx) (hm : v.mode = (s.ctx n).mode) (hs : v.status = (s.ctx n).status) :
    CmdEnds s (s.setCtx n v) := by
  refine .of_ctxs rfl fun k => ?_
  by_cases h : k = n
  · rw [h, State.ctx_setCtx_same]
    exact ⟨hm, hs⟩
  · rw [State.ctx_setCtx_other _ _ _ _ h]
    exact ⟨rfl, rfl⟩

theorem State.setRing_cmdEnds (cx r : Nat) (v : Ring) : CmdEnds s (s.setRing cx r v) := s.setCtx_cmdEnds cx _ rfl rfl

theorem State.setReg_cmdEnds (k v : Nat) (h : k ≠ 0x600100) : CmdEnds s (s.setReg k v) :=
  ⟨fun _ hn => .inl hn, fun _ hn => ⟨hn, rfl⟩, fun _ hq => hq, rfl, Nat.le_refl _, State.reg_setReg_other _ _ _ _ (Ne.symm h),
    fun _ hn => hn, rfl, rfl⟩

theorem State.hpEvent_cmdEnds (p n : Nat) : CmdEnds s (s.hpEvent p n) :=
  (s.setReg_cmdEnds (0x300108 + 0x100 * p) _ (by omega)).trans (.of_ctxs rfl fun _ => ⟨rfl, rfl⟩)

theorem State.faultCx_cmdEnds (cx status : Nat) : CmdEnds s (s.faultCx cx status) := by
  unfold State.faultCx
  dsimp only
  split
  · next hready =>
    refine CmdEnds.trans ?_ (State.hpEvent_cmdEnds ..)
    refine ⟨fun n hn => ?_, fun n hn => ?_, fun _ hq => hq, rfl, Nat.le_refl _, rfl, fun _ hn => hn, rfl, rfl⟩
    · by_cases h : n = cx
      · rw [h, State.ctx_setCtx_same]
        exact .inr rfl
      · rw [State.ctx_setCtx_other _ _ _ _ h]
        exact .inl hn
    · have h : n ≠ cx := fun e => by simp [e, hready] at hn
      rw [State.ctx_setCtx_other _ _ _ _ h]
      exact ⟨hn, rfl⟩
  · exact .refl s

theorem State.unpin_cmdEnds (p : Nat × Nat) : CmdEnds s (s.setSeq p.1 { s.seq p.1 with pinned := (s.seq p.1).pinned.erase p.2 }) := by
  refine ⟨fun _ hn => .inl hn, fun _ hn => ⟨hn, rfl⟩, fun q hq => ?_, rfl, Nat.le_refl _, rfl, fun _ hn => hn, rfl, rfl⟩
  by_cases h : q = p.1
  · rw [h, State.seq_setSeq_same]
    rwa [h] at hq
  · rwa [State.seq_setSeq_other _ _ _ _ h]

theorem State.interrupt_cmdEnds (status : Nat) (unavailable : Bool) : CmdEnds s (s.interrupt status unavailable) :=
  .of_logged (s.interrupt_logged ..) (by rw [State.interrupt_events]; exact Nat.le_succ _)

theorem State.log_cmdEnds (ty status kind unit data : Nat) : CmdEnds s (s.log ty status kind unit data) :=
  .of_logged (s.log_logged ..) (by rw [State.log_events])

theorem State.ownerEvent_cmdEnds (n : Nat) : CmdEnds s (s.ownerEvent n) :=
  .of_logged (s.ownerEvent_logged n) (by rw [State.ownerEvent_rel])

theorem State.writeRecord_cmdEnds (cx r : Nat) (c : Cmd) : CmdEnds s (s.writeRecord cx r c) := by
  have hpins : ∀ u : State, CmdEnds u (c.pins.foldl (fun u p => u.setSeq p.1 { u.seq p.1 with pinned := (u.seq p.1).pinned.erase p.2 })
      u) := fun u => CmdEnds.foldl _ _ u fun v p => v.unpin_cmdEnds p
  unfold State.writeRecord
  dsimp only
  generalize hu : s.setRing cx r _ = u
  have hring : CmdEnds s u := hu ▸ s.setRing_cmdEnds cx r _
  have hrec := (hring.trans (u.setCtx_cmdEnds cx { u.ctx cx with flags := (u.ctx cx).flags ||| c.flags } rfl rfl)).trans (hpins _)
  split
  · exact (hrec.trans (State.faultCx_cmdEnds ..)).trans (State.interrupt_cmdEnds ..)
  · exact hrec

theorem State.flush_cmdEnds (cx r n : Nat) (s : State) : CmdEnds s (State.flush cx r n s) := by
  induction n generalizing s with
  | zero => exact .refl s
  | succ n ih =>
    unfold State.flush
    split
    · exact .refl s
    · split
      · exact (s.writeRecord_cmdEnds cx r _).trans (ih _)
      · exact .refl s

theorem State.modCmd_cmdEnds (id : CmdId) (f : Cmd → Cmd) : CmdEnds s (s.modCmd id f) := s.setRing_cmdEnds id.cx id.ring _

theorem State.finish_cmdEnds (id : CmdId) (status result : Nat) : CmdEnds s (s.finish id status result) := by
  unfold State.finish
  dsimp only
  generalize hu : s.modCmd id _ = u
  have hmod : CmdEnds s u := hu ▸ s.modCmd_cmdEnds id _
  have hsettle : CmdEnds s (u.settle id.cx id.ring) := hmod.trans (State.flush_cmdEnds ..)
  split
  · exact hsettle.trans (State.faultCx_cmdEnds ..)
  · exact hsettle

theorem State.checkWork_cmdEnds (id : CmdId) : CmdEnds s (s.checkWork id) := by
  unfold State.checkWork
  split
  · dsimp only
    split
    · exact s.finish_cmdEnds ..
    · exact .refl s
  · exact .refl s

/-! ### Groups and messages -/

theorem State.cvaHavoc_cmdEnds (id : CmdId) (va n : Nat) : CmdEnds s (s.cvaHavoc id va n) :=
  .of_parts (State.cvaHavoc_keeps (P := [.memory, .tiers, .kv, .draws]) s id va n (Keeps.refl s) (by decide) (by decide)
    (by decide) (by decide)) (s.cvaHavoc_kv id va n) (by decide) (by decide) (by decide) (by decide) (by decide) (by decide)

theorem State.endMessage_cmdEnds (cx gi : Nat) (m : Message) (status : Nat) (named : Bool) :
    CmdEnds s (s.endMessage cx gi m status named) :=
  .of_parts (State.endMessage_keeps (P := [.memory, .tiers, .kv, .links, .draws]) s cx gi m status named (Keeps.refl s) (by decide)
    (by decide) (by decide) (by decide) (by decide)) (s.endMessage_kv cx gi m status named) (by decide) (by decide) (by decide)
    (by decide) (by decide) (by decide)

/-- An update of the links alone. -/
theorem CmdEnds.of_links {s t : State} (h : Keeps [.links] s t) : CmdEnds s t :=
  .of_parts h (h.parts .kv (by decide)) (by decide) (by decide) (by decide) (by decide) (by decide) (by decide)

theorem State.setGroup_cmdEnds (cx gi : Nat) (g : Group) : CmdEnds s (s.setGroup cx gi g) :=
  .of_links (State.setGroup_keeps s cx gi g (Keeps.refl s) (by decide))

theorem State.sendOn_cmdEnds (n : Nat) (b : BatonWord) : CmdEnds s (s.sendOn n b) :=
  .of_links (State.sendOn_keeps s n b (Keeps.refl s) (by decide))

theorem State.control_cmdEnds (g : Group) (k : Nat × Nat) (code msg : Nat) (payload : List Byte) :
    CmdEnds s (s.control g k code msg payload) :=
  .of_links (State.control_keeps s g k code msg payload (Keeps.refl s) (by decide))

theorem State.endGroup_cmdEnds (cx gi status : Nat) : CmdEnds s (s.endGroup cx gi status) := by
  have hmsgs : CmdEnds s ((s.group cx gi).msgs.foldl (fun t m => (t.endMessage cx gi m status false).finish m.cmd status
      (((t.cmd? m.cmd).map Cmd.result).getD 0)) s) :=
    CmdEnds.foldl _ _ s fun u m => (u.endMessage_cmdEnds cx gi m status false).trans (State.finish_cmdEnds ..)
  unfold State.endGroup
  dsimp only
  split
  · exact hmsgs
  · exact (hmsgs.trans (State.setGroup_cmdEnds ..)).trans (State.finish_cmdEnds ..)

theorem State.breakGroup_cmdEnds (cx gi status member mine : Nat) (source : Option (Nat × BatonWord)) :
    CmdEnds s (s.breakGroup cx gi status member mine source) := by
  unfold State.breakGroup
  dsimp only
  split
  · exact .refl s
  · refine ((CmdEnds.foldl _ _ s fun u p => ?_).trans (State.setGroup_cmdEnds ..)).trans (State.endGroup_cmdEnds ..)
    split
    · split
      · exact .refl u
      · exact u.sendOn_cmdEnds ..
    · exact u.control_cmdEnds ..

theorem State.failCmd_cmdEnds (id : CmdId) (status : Nat) : CmdEnds s (s.failCmd id status) := by
  unfold State.failCmd
  split
  · dsimp only
    split
    · exact s.breakGroup_cmdEnds ..
    · exact s.finish_cmdEnds ..
  · exact s.finish_cmdEnds ..

theorem State.workDone_cmdEnds (id : CmdId) : CmdEnds s (s.workDone id) := by
  unfold State.workDone
  split
  · split
    · exact (s.endMessage_cmdEnds ..).trans (State.finish_cmdEnds ..)
    · exact .refl s
  · exact s.checkWork_cmdEnds id

/-! ### Outputs left undefined and kernels ended -/

/-- An update of the infields alone. -/
theorem CmdEnds.of_memory {s t : State} (h : Keeps [.memory, .draws] s t) : CmdEnds s t :=
  .of_parts h (h.parts .kv (by decide)) (by decide) (by decide) (by decide) (by decide) (by decide) (by decide)

theorem State.infHavoc_cmdEnds (rank addr n : Nat) : CmdEnds s (s.infHavoc rank addr n) :=
  .of_memory (State.infHavoc_keeps s rank addr n (Keeps.refl s) (by decide) (by decide))

theorem State.latticeHavoc_cmdEnds (x : Lattice) : CmdEnds s (s.latticeHavoc x) :=
  .of_memory (State.latticeHavoc_keeps s x (Keeps.refl s) (by decide) (by decide))

theorem State.havocCmd_cmdEnds (id : CmdId) (c : Cmd) : CmdEnds s (s.havocCmd id c) := by
  have hcva : ∀ l : List (Nat × Nat), CmdEnds s (l.foldl (fun u r => u.cvaHavoc id r.1 r.2) s) := fun l =>
    CmdEnds.foldl _ _ s fun u r => u.cvaHavoc_cmdEnds id r.1 r.2
  unfold State.havocCmd
  dsimp only
  split
  · split
    · exact CmdEnds.foldl _ _ s fun u p => u.infHavoc_cmdEnds ..
    · split
      · exact hcva _
      · split
        · exact hcva _
        · exact .refl s
  · split
    · exact s.cvaHavoc_cmdEnds ..
    · split
      · exact CmdEnds.foldl _ _ s fun u e => u.latticeHavoc_cmdEnds _
      · split
        · split
          · split
            · exact s.infHavoc_cmdEnds ..
            · exact s.cvaHavoc_cmdEnds ..
          · split
            · exact CmdEnds.foldl _ _ s fun u r => u.infHavoc_cmdEnds ..
            · exact .refl s
        · exact .refl s

theorem State.havocOf_cmdEnds (id : CmdId) : CmdEnds s (s.havocOf id) := by
  unfold State.havocOf
  split
  · exact s.havocCmd_cmdEnds ..
  · exact .refl s

/-- An update of the tiles that brings no kernel. -/
theorem CmdEnds.of_tiles {s t : State} (h : t = { s with tiles := t.tiles }) (hk : ∀ n, s.kernel n = none → t.kernel n = none) :
    CmdEnds s t := by
  refine ⟨fun n hn => .inl ?_, fun n hn => ?_, fun q hq => ?_, by rw [h], by rw [h], by rw [h]; rfl, hk, by rw [h], by rw [h]⟩
  · rwa [h]
  · rw [h]
    exact ⟨hn, rfl⟩
  · rwa [h]

theorem State.setKernel_none_cmdEnds (n : Nat) : CmdEnds s (s.setKernel n none) := by
  refine .of_tiles rfl fun i hi => ?_
  by_cases h : i = n
  · rw [h, State.kernel_setKernel_same]
  · rwa [State.kernel_setKernel_other _ _ _ _ h]

/-- A kernel ended: it is gone, and its command is finished. -/
theorem State.endWith_cmdEnds (i : Nat) (k : Kernel) (lap : LapCounter → LapCounter) (status : Nat) :
    CmdEnds s (s.endWith i k lap status) ∧ (s.endWith i k lap status).kernel i = none := by
  have hgone : ∀ u : State, CmdEnds s u → CmdEnds s ((((u.setKernel i none).notePrior k.cmd.cx (some k)).finish k.cmd status 0)) ∧
      ((((u.setKernel i none).notePrior k.cmd.cx (some k)).finish k.cmd status 0)).kernel i = none := fun u hu => by
    have hnone : ((u.setKernel i none).notePrior k.cmd.cx (some k)).kernel i = none := u.kernel_setKernel_same i none
    have hprior : CmdEnds s ((u.setKernel i none).notePrior k.cmd.cx (some k)) :=
      (hu.trans (u.setKernel_none_cmdEnds i)).trans (.of_tiles rfl fun _ hn => hn)
    exact ⟨hprior.trans (State.finish_cmdEnds ..), (State.finish_cmdEnds ..).kernels i hnone⟩
  unfold State.endWith
  dsimp only
  refine hgone _ ?_
  have hlaps : ∀ u : State, CmdEnds u (iter 75 (fun r u => u.setLap r i (lap (u.lap r i))) u) := fun u =>
    CmdEnds.iter 75 _ u fun _ v => .of_tiles rfl fun _ hn => hn
  have hcores : CmdEnds s { s with tiles := { s.tiles with cores := s.tiles.cores.filter fun e => coreFree s i e.2 } } :=
    .of_tiles rfl fun _ hn => hn
  split
  · exact (hcores.trans (hlaps _)).trans (CmdEnds.iter 75 _ _ fun _ v => .of_tiles rfl fun _ hn => hn)
  · exact hcores.trans (hlaps _)

theorem State.cancelKernel_cmdEnds (i : Nat) (k : Kernel) (status : Nat) :
    CmdEnds s (s.cancelKernel i k status) ∧ (s.cancelKernel i k status).kernel i = none := by
  have hout : CmdEnds s (s.havocOutputs k) := .of_memory (State.havocOutputs_keeps s k (Keeps.refl s) (by decide) (by decide))
  obtain ⟨hends, hnone⟩ := (s.havocOutputs k).endWith_cmdEnds i k cancelLap status
  exact ⟨hout.trans hends, hnone⟩

end

end Sys2Proof.Machine

end

section

/-! The loss of a field (chapter 17): O52. -/

namespace Sys2Proof.Machine

open Sys2Proof Sys2Proof.Safety

/-! ### A field's cores -/

/-- What a field's cores give back leaves kernels and RL_CTRL alone. -/
structure CoresBack (s t : State) : Prop where
  kernels : t.tiles.kernels = s.tiles.kernels
  ctrl : t.reg 0x600100 = s.reg 0x600100

namespace CoresBack

theorem refl (s : State) : CoresBack s s := ⟨rfl, rfl⟩

theorem trans {s t u : State} (h : CoresBack s t) (g : CoresBack t u) : CoresBack s u :=
  ⟨g.kernels.trans h.kernels, g.ctrl.trans h.ctrl⟩

theorem foldl {α : Type} (l : List α) (f : State → α → State) (s : State) (hf : ∀ u a, CoresBack u (f u a)) :
    CoresBack s (l.foldl f s) :=
  foldl_keeps (CoresBack s) l f s (refl s) fun u a hu => hu.trans (hf u a)

end CoresBack

section

variable (s : State)

theorem State.setLap_back (r i : Nat) (v : LapCounter) : CoresBack s (s.setLap r i v) := ⟨rfl, rfl⟩

theorem State.setCore_back (site core : Nat) (v : Core) : CoresBack s (s.setCore site core v) := ⟨rfl, rfl⟩

theorem State.wake_back (i : Nat) : CoresBack s (s.wake i) := ⟨rfl, rfl⟩

theorem State.returnCore_back (i : Nat) : CoresBack s (s.returnCore i) := by
  unfold State.returnCore
  split
  · exact .refl s
  · split
    · exact .refl s
    · refine ⟨rfl, State.reg_setReg_other _ _ _ _ ?_⟩
      rw [siteBase]
      omega

theorem State.returnClaim_back (site core : Nat) (lost : Bool) (p : Pass) : CoresBack s (s.returnClaim site core lost p) := by
  unfold State.returnClaim
  dsimp only
  split
  · split
    · exact (s.setLap_back ..).trans (State.returnCore_back ..)
    · exact ⟨rfl, rfl⟩
  · exact .refl s

theorem State.returnAttn_back (which : Held → Bool) (lost : Bool) : CoresBack s (s.returnAttn which lost) := by
  refine CoresBack.foldl _ _ s fun u a => ?_
  split
  · exact .refl u
  · dsimp only
    split
    · exact ⟨rfl, rfl⟩
    · exact .refl u

theorem State.dropCore_back (site core : Nat) (lost : Bool) : CoresBack s (s.dropCore site core lost) := by
  unfold State.dropCore
  exact ((s.setCore_back site core Core.empty).trans (CoresBack.foldl _ _ _ fun u p => u.returnClaim_back ..)).trans
    (State.returnAttn_back ..)

theorem State.dropField_back (site : Nat) : CoresBack s (s.dropField site) := by
  have hcores : CoresBack s ((s.tiles.cores.filter fun e => e.1 / 4096 == site).foldl
      (fun t e => t.dropCore site (e.1 % 4096) true) s) :=
    CoresBack.foldl _ _ s fun u e => u.dropCore_back ..
  have hwake : ∀ u : State, CoresBack u u.wakeAll := fun u =>
    CoresBack.foldl _ _ u fun v e => (v.wake_back e.1).trans ((v.wake e.1).returnCore_back e.1)
  unfold State.dropField
  exact (hcores.trans (State.returnAttn_back ..)).trans (hwake _)

theorem State.dropField_keptParts (site : Nat) : Keeps [.tiles, .attn, .regs] s (s.dropField site) :=
  State.dropField_keeps s site (Keeps.refl s) (by decide) (by decide) (by decide)

theorem State.dropField_cmdEnds (site : Nat) : CmdEnds s (s.dropField site) := by
  have hkeeps := s.dropField_keptParts site
  have hback := s.dropField_back site
  have ectx := State.ctx_of_hosts (hkeeps.parts .hosts (by decide))
  have erel : (s.dropField site).rel = s.rel := hkeeps.parts .rel (by decide)
  have ekv : (s.dropField site).kv = s.kv := hkeeps.parts .kv (by decide)
  refine ⟨fun n hn => .inl (by rwa [ectx]), fun n hn => ⟨by rwa [ectx], by rw [ectx]⟩, fun q hq => by rwa [State.seq, ekv],
    by rw [erel], by rw [erel], hback.ctrl, fun n hn => ?_, hkeeps.parts .sites (by decide), hkeeps.parts .package (by decide)⟩
  rwa [State.kernel, hback.kernels]

end

/-! ### Every kernel ends -/

/-- One kernel's end among them all. -/
def State.endEntry (s : State) (status : Nat) (e : Nat × Option Kernel) : State :=
  match s.kernel e.1 with
  | some k => s.cancelKernel e.1 k status
  | none => s

theorem State.endKernels_eq (s : State) (status : Nat) :
    s.endKernels status = s.tiles.kernels.foldl (fun u e => u.endEntry status e) s := rfl

theorem State.endEntry_cmdEnds (s : State) (status : Nat) (e : Nat × Option Kernel) :
    CmdEnds s (s.endEntry status e) ∧ (s.endEntry status e).kernel e.1 = none := by
  unfold State.endEntry
  split
  · exact s.cancelKernel_cmdEnds ..
  · next h => exact ⟨.refl s, h⟩

theorem State.endEntries_none (status : Nat) (l : List (Nat × Option Kernel)) (s : State) (n : Nat)
    (h : (∃ e ∈ l, e.1 = n) ∨ s.kernel n = none) : (l.foldl (fun u e => u.endEntry status e) s).kernel n = none := by
  induction l generalizing s with
  | nil => exact h.resolve_left (by simp)
  | cons e l ih =>
    obtain ⟨hends, hnone⟩ := s.endEntry_cmdEnds status e
    refine ih _ ?_
    obtain ⟨f, hf, rfl⟩ | h := h
    · obtain rfl | hf := List.mem_cons.mp hf
      · exact .inr hnone
      · exact .inl ⟨f, hf, rfl⟩
    · exact .inr (hends.kernels n h)

theorem State.endKernels_cmdEnds (s : State) (status : Nat) : CmdEnds s (s.endKernels status) := by
  rw [State.endKernels_eq]
  exact CmdEnds.foldl _ _ s fun u e => (u.endEntry_cmdEnds status e).1

theorem State.endKernels_none (s : State) (status n : Nat) : (s.endKernels status).kernel n = none := by
  rw [State.endKernels_eq]
  refine State.endEntries_none status _ s n ?_
  by_cases h : ∃ e ∈ s.tiles.kernels, e.1 = n
  · exact .inl h
  · exact .inr (tget_none _ n none fun e he hn => h ⟨e, he, hn⟩)

theorem State.endKernels_of_none {s : State} (status : Nat) (h : ∀ n, s.kernel n = none) : s.endKernels status = s := by
  have hentries : ∀ l : List (Nat × Option Kernel), l.foldl (fun u e => u.endEntry status e) s = s := fun l => by
    induction l with
    | nil => rfl
    | cons e l ih =>
      have hentry : s.endEntry status e = s := by
        unfold State.endEntry
        rw [h]
      rw [List.foldl_cons, hentry, ih]
  rw [State.endKernels_eq, hentries]

/-! ### Every context faults and every sequence is disabled -/

theorem State.faultAll_cmdEnds (s : State) (k status : Nat) : CmdEnds s (iter k (fun cx u => u.faultCx cx status) s) :=
  CmdEnds.iter k _ s fun cx u => u.faultCx_cmdEnds cx status

/-- A fault of every context strikes each one as a fault of its own does. -/
theorem State.ctx_faultAll (s : State) (status k n : Nat) :
    (iter k (fun cx u => u.faultCx cx status) s).ctx n = if n < k then (s.faultCx n status).ctx n else s.ctx n := by
  induction k with
  | zero => exact (if_neg (Nat.not_lt_zero n)).symm
  | succ k ih =>
    rw [iter_succ]
    by_cases hn : n = k
    · subst hn
      rw [if_neg (Nat.lt_irrefl n)] at ih
      rw [if_pos (Nat.lt_succ_self n)]
      by_cases hr : (s.ctx n).mode = .ready
      · rw [State.ctx_faultCx_of_ready (by rwa [ih]), State.ctx_faultCx_of_ready hr, ih]
      · rw [State.faultCx_of_not_ready (by rwa [ih]), State.faultCx_of_not_ready hr, ih]
    · rw [State.ctx_faultCx_other hn, ih]
      simp only [show n < k + 1 ↔ n < k by omega]

theorem State.faultAll_faulted (s : State) (status k cx : Nat) (hk : cx < k)
    (h : (s.ctx cx).mode = .ready ∨ (s.ctx cx).mode = .faulted) :
    ((iter k (fun cx u => u.faultCx cx status) s).ctx cx).mode = .faulted := by
  rw [State.ctx_faultAll, if_pos hk]
  obtain hr | hf := h
  · rw [State.ctx_faultCx_of_ready hr]
  · exact ((s.faultCx_cmdEnds cx status).faulted cx hf).1

theorem State.faultAll_status (s : State) (status k cx : Nat) (hk : cx < k) (h : (s.ctx cx).mode = .ready) :
    ((iter k (fun cx u => u.faultCx cx status) s).ctx cx).status = status := by
  rw [State.ctx_faultAll, if_pos hk, State.ctx_faultCx_of_ready h]

/-- One sequence cleared. -/
def State.clearSeq (q : Nat) (s : State) : State :=
  let u := s.credit (s.seqCx q) ((s.seq q).frames * s.frameUnits)
  (u.setSeq q { s.seq q with enabled := false, disabling := false, reclaim := [], frames := 0 }).setReg (seqBase q)
    (setFld (u.reg (seqBase q)) 0 0 0)

theorem State.clearSeq_cmdEnds (s : State) {q : Nat} (hq : q < 8) : CmdEnds s (s.clearSeq q) := by
  have hbase : 0x600100 ≠ seqBase q := by
    rw [seqBase]
    omega
  refine ⟨fun _ hn => .inl hn, fun _ hn => ⟨hn, rfl⟩, fun i hi => ?_, rfl, Nat.le_refl _, State.reg_setReg_other _ _ _ _ hbase,
    fun _ hn => hn, rfl, rfl⟩
  by_cases h : i = q
  · subst h
    exact congrArg Sequence.enabled (State.seq_setSeq_same ..)
  · exact (congrArg Sequence.enabled (State.seq_setSeq_other _ _ _ _ h)).trans hi

theorem State.seq_clearSeq (s : State) (q : Nat) : ((s.clearSeq q).seq q).enabled = false :=
  congrArg Sequence.enabled (State.seq_setSeq_same ..)

theorem State.clearSeqs_upTo (s : State) (k : Nat) (hk : k ≤ 8) :
    CmdEnds s (iter k State.clearSeq s) ∧ ∀ q, q < k → ((iter k State.clearSeq s).seq q).enabled = false := by
  induction k with
  | zero => exact ⟨.refl s, fun q hq => absurd hq (Nat.not_lt_zero q)⟩
  | succ k ih =>
    obtain ⟨hends, hoff⟩ := ih (by omega)
    have hstep := (iter k State.clearSeq s).clearSeq_cmdEnds (q := k) (by omega)
    rw [iter_succ]
    refine ⟨hends.trans hstep, fun q hq => ?_⟩
    by_cases h : q = k
    · rw [h]
      exact State.seq_clearSeq ..
    · exact hstep.disabled q (hoff q (by omega))

/-- The sequences' tables emptied. -/
def State.tablesEmpty (s : State) : State := { s with kv := { s.kv with table := [], shares := [], updates := [], cows := [] } }

theorem State.tablesEmpty_cmdEnds (s : State) : CmdEnds s s.tablesEmpty :=
  ⟨fun _ hn => .inl hn, fun _ hn => ⟨hn, rfl⟩, fun _ hq => hq, rfl, Nat.le_refl _, rfl, fun _ hn => hn, rfl, rfl⟩

theorem State.clearSeqs_eq (s : State) :
    s.clearSeqs = ((s.kv.cows.map Cow.cmd).eraseDups).foldl State.workDone (iter 8 State.clearSeq s).tablesEmpty := rfl

theorem State.clearSeqs_cmdEnds (s : State) : CmdEnds s s.clearSeqs ∧ ∀ q, q < 8 → (s.clearSeqs.seq q).enabled = false := by
  obtain ⟨hends, hoff⟩ := s.clearSeqs_upTo 8 (Nat.le_refl 8)
  rw [State.clearSeqs_eq]
  generalize iter 8 State.clearSeq s = t at hends hoff
  have htables := t.tablesEmpty_cmdEnds
  have hwork : CmdEnds t.tablesEmpty (((s.kv.cows.map Cow.cmd).eraseDups).foldl State.workDone t.tablesEmpty) :=
    CmdEnds.foldl _ _ _ fun v id => v.workDone_cmdEnds id
  exact ⟨(hends.trans htables).trans hwork, fun q hq => hwork.disabled q (htables.disabled q (hoff q hq))⟩

/-! ### What a lost site takes with it -/

/-- An update of the stacks' and the tiers' bytes. -/
theorem CmdEnds.of_bytes {s t : State} (h : t = { s with memory := t.memory, tiers := t.tiers }) : CmdEnds s t := by
  refine ⟨fun n hn => .inl ?_, fun n hn => ?_, fun q hq => ?_, by rw [h], by rw [h], by rw [h]; rfl, fun n hn => ?_, by rw [h],
    by rw [h]⟩
  · rwa [h]
  · rw [h]
    exact ⟨hn, rfl⟩
  · rwa [h]
  · rwa [h]

section

variable (s : State)

theorem State.dropHeld_cmdEnds (rank status : Nat) : CmdEnds s (s.dropHeld rank status) := by
  unfold State.dropHeld
  dsimp only
  generalize ht : ({ s with tiers := { s.tiers with heldWrites := s.tiers.heldWrites.filter fun h => h.rank != rank } } : State) = t
  have hheld : CmdEnds s t := by
    rw [← ht]
    exact .of_bytes rfl
  exact hheld.trans (CmdEnds.foldl _ _ t fun u id => (u.havocOf_cmdEnds id).trans (State.failCmd_cmdEnds ..))

theorem State.loseStore_cmdEnds (rank : Nat) : CmdEnds s (s.loseStore rank) := by
  have hheld := s.dropHeld_cmdEnds rank 0x0B05
  unfold State.loseStore
  generalize s.dropHeld rank 0x0B05 = t at hheld
  exact hheld.trans (.of_bytes rfl)

theorem State.poisonInfield_cmdEnds (rank : Nat) : CmdEnds s (s.poisonInfield rank) := .of_bytes rfl

theorem State.loseController_cmdEnds (rank : Nat) : CmdEnds s (s.loseController rank) := .of_tiles rfl fun _ hn => hn

theorem State.loseController_memory (rank : Nat) : (s.loseController rank).memory = s.memory := rfl

/-- The site out of use with its rank missing. -/
def State.siteGone (s : State) (site rank : Nat) : State := (s.retireSite site).setMissing site rank

theorem State.siteGone_eq (site rank : Nat) : s.siteGone site rank =
    (((s.dropField site).setSite site { (s.dropField site).site site with use := .out, rank := none, stopped := false }).setMissing
      site rank) := rfl

/-- What the end of a field's commands starts from. -/
structure Gone (s t : State) (site rank : Nat) : Prop where
  ctx : ∀ n, t.ctx n = s.ctx n
  rel : t.rel = { s.rel with missing := (s.rel.missing.filter fun p => p.1 != rank) ++ [(rank, site)] }
  ctrl : t.reg 0x600100 = s.reg 0x600100
  kernels : ∀ n, s.kernel n = none → t.kernel n = none
  package : t.package = s.package
  others : ∀ n, n ≠ site → t.site n = s.site n
  lost : (t.site site).use = .out ∧ (t.site site).rank = none

theorem State.siteGone_gone (site rank : Nat) : Gone s (s.siteGone site rank) site rank := by
  have hends := s.dropField_cmdEnds site
  have hkeeps := s.dropField_keptParts site
  have erel : (s.dropField site).rel = s.rel := hkeeps.parts .rel (by decide)
  rw [State.siteGone_eq]
  generalize s.dropField site = t at hends hkeeps erel
  refine ⟨State.ctx_of_hosts (hkeeps.parts .hosts (by decide)), by rw [← erel]; rfl, hends.ctrl, hends.kernels, hends.package,
    fun n hn => ?_, ?_⟩
  · refine (State.site_setSite_other _ _ _ _ hn).trans ?_
    rw [State.site, hends.sites, State.site]
  · have hsite : ((t.setSite site { t.site site with use := .out, rank := none, stopped := false }).setMissing site rank).site site =
        { t.site site with use := .out, rank := none, stopped := false } := State.site_setSite_same ..
    rw [hsite]
    exact ⟨rfl, rfl⟩

/-- The lost site's state once its contexts have faulted. -/
def State.siteFaulted (s : State) (site rank : Nat) : State :=
  iter 16 (fun cx u => u.faultCx cx 0x0B03) ((s.siteGone site rank).endKernels 0x0154)

theorem State.siteFaulted_cmdEnds (site rank : Nat) :
    CmdEnds ((s.siteGone site rank).endKernels 0x0154) (s.siteFaulted site rank) := by
  unfold State.siteFaulted
  exact State.faultAll_cmdEnds ..

theorem State.siteFaulted_mode (site rank cx : Nat) (hcx : cx < 16) (hr : (s.ctx cx).mode = .ready) :
    ((s.siteFaulted site rank).ctx cx).mode = .faulted := by
  have hgone := s.siteGone_gone site rank
  have hkernels := (s.siteGone site rank).endKernels_cmdEnds 0x0154
  unfold State.siteFaulted
  exact State.faultAll_faulted _ _ 16 cx hcx (hkernels.ready cx (by rwa [hgone.ctx]))

theorem State.siteFaulted_status (site rank cx : Nat) (hcx : cx < 16) (hr : (s.ctx cx).mode = .ready)
    (hk : ∀ n, s.kernel n = none) : ((s.siteFaulted site rank).ctx cx).status = 0x0B03 := by
  have hgone := s.siteGone_gone site rank
  unfold State.siteFaulted
  rw [State.endKernels_of_none 0x0154 fun n => hgone.kernels n (hk n)]
  exact State.faultAll_status _ _ 16 cx hcx (by rwa [hgone.ctx])

theorem State.takeDown_eq (site rank : Nat) : s.takeDown site rank =
    (((s.siteFaulted site rank).clearSeqs.loseStore rank).poisonInfield rank).loseController rank := rfl

/-- What a site takes with it: every READY context faults, no kernel runs, every sequence is disabled and the rank's infield
reads as poison. -/
structure TakenDown (s t : State) (site rank : Nat) : Prop where
  ends : CmdEnds (s.siteGone site rank) t
  faulted : ∀ cx, cx < 16 → (s.ctx cx).mode = .ready →
    (t.ctx cx).mode = .faulted ∧ ((∀ n, s.kernel n = none) → (t.ctx cx).status = 0x0B03)
  kernels : ∀ n, t.kernel n = none
  disabled : ∀ q, q < 8 → (t.seq q).enabled = false
  poison : ∀ l, l < 786432 → 786432 * rank + l ∈ t.memory.poisonLines

theorem State.mem_poisonInfield (rank l : Nat) (h : l < 786432) :
    786432 * rank + l ∈ (s.poisonInfield rank).memory.poisonLines := by
  refine List.mem_append.mpr (.inl (List.mem_append.mpr (.inr ?_)))
  exact List.mem_map.mpr ⟨l, List.mem_range.mpr h, rfl⟩

theorem State.takeDown_takenDown (site rank : Nat) : TakenDown s (s.takeDown site rank) site rank := by
  have hkernels := (s.siteGone site rank).endKernels_cmdEnds 0x0154
  have hnone := (s.siteGone site rank).endKernels_none 0x0154
  have hfaults := s.siteFaulted_cmdEnds site rank
  obtain ⟨hseqs, hoff⟩ := (s.siteFaulted site rank).clearSeqs_cmdEnds
  have hrest : CmdEnds (s.siteFaulted site rank).clearSeqs (s.takeDown site rank) := by
    rw [State.takeDown_eq]
    exact ((State.loseStore_cmdEnds ..).trans (State.poisonInfield_cmdEnds ..)).trans (State.loseController_cmdEnds ..)
  have hafter : CmdEnds (s.siteFaulted site rank) (s.takeDown site rank) := hseqs.trans hrest
  refine ⟨(hkernels.trans hfaults).trans hafter, fun cx hcx hr => ?_, fun n => hafter.kernels n (hfaults.kernels n (hnone n)),
    fun q hq => hrest.disabled q (hoff q hq), fun l hl => ?_⟩
  · obtain ⟨hmode, hstatus⟩ := hafter.faulted cx (s.siteFaulted_mode site rank cx hcx hr)
    exact ⟨hmode, fun hk => hstatus.trans (s.siteFaulted_status site rank cx hcx hr hk)⟩
  · rw [State.takeDown_eq, State.loseController_memory]
    exact State.mem_poisonInfield _ rank l hl

end

/-! ### What follows a loss -/

section

variable {u : State} {site rank : Nat}

theorem State.substAfter_of_mirror (h : u.rel.subst = .mirror ∧ u.rel.oldSite = site) :
    u.substAfter site rank = { u with rel := { u.rel with subst := .unplanned } } := if_pos h

variable (h : ¬(u.rel.subst = .mirror ∧ u.rel.oldSite = site))

include h

theorem State.substAfter_of_off (hb : bit (u.reg 0x600100) 0 = false) : u.substAfter site rank = u :=
  (if_neg h).trans (if_neg (Bool.eq_false_iff.mp hb))

theorem State.substAfter_of_on (hb : bit (u.reg 0x600100) 0 = true) : u.substAfter site rank = u.beginUnplanned site rank :=
  (if_neg h).trans (if_pos hb)

end

section

variable {u : State} {old rank : Nat}

theorem State.beginUnplanned_of_idle {n : Nat} (hi : u.rel.subst = .idle) (hn : u.spareSites.head? = some n) :
    u.beginUnplanned old rank = { u with rel := { u.rel with
      subst := .unplanned, oldSite := old, newSite := n, moving := rank, waiting := u.rel.waiting.filter fun r => r.1 != rank } } := by
  unfold State.beginUnplanned
  cases hs : u.spareSites with
  | nil => simp [hs] at hn
  | cons a l =>
    obtain rfl : a = n := by simpa [hs] using hn
    rw [hi]

theorem State.beginUnplanned_of_busy (h : u.rel.subst ≠ .idle) : u.beginUnplanned old rank =
    { u with rel := { u.rel with waiting := u.rel.waiting ++ [(rank, old)] } } := by
  unfold State.beginUnplanned
  split
  · next hi _ => exact absurd hi h
  · next hi _ => exact absurd hi h
  · rfl

end

/-- What a substitution's beginning leaves: all but the substitution itself. -/
structure SubstOnly (u v : State) : Prop where
  sites : ∀ n, v.site n = u.site n
  kernels : ∀ n, v.kernel n = u.kernel n
  seqs : ∀ q, v.seq q = u.seq q
  ctxs : ∀ cx, v.ctx cx = u.ctx cx
  memory : v.memory = u.memory
  package : v.package = u.package
  events : v.rel.events = u.rel.events
  missing : v.rel.missing = u.rel.missing
  module : v.module = u.module

theorem State.substAfter_substOnly (u : State) (site rank : Nat) : SubstOnly u (u.substAfter site rank) := by
  unfold State.substAfter
  split
  · constructor <;> intros <;> rfl
  · split
    · unfold State.beginUnplanned
      split <;> constructor <;> intros <;> rfl
    · constructor <;> intros <;> rfl

/-! ### A loss as a whole -/

/-- The state once a site that held a rank is down, its loss logged and the event raised. -/
def State.lost (s : State) (site rank : Nat) : State := ((s.takeDown site rank).logLoss site).interrupt 0x0B03 true

theorem State.logLoss_logged (s : State) (site : Nat) : Logged s (s.logLoss site) :=
  (s.log_logged ..).trans (State.ownerEvent_logged ..)

theorem State.logLoss_events (s : State) (site : Nat) : (s.logLoss site).rel.events = s.rel.events := by
  unfold State.logLoss
  rw [State.ownerEvent_rel, State.log_events]

theorem State.lost_logged (s : State) (site rank : Nat) : Logged (s.takeDown site rank) (s.lost site rank) :=
  (State.logLoss_logged ..).trans (State.interrupt_logged ..)

theorem State.lost_events (s : State) (site rank : Nat) : (s.lost site rank).rel.events = (s.takeDown site rank).rel.events + 1 := by
  unfold State.lost
  rw [State.interrupt_events, State.logLoss_events]

theorem State.log_module (s : State) (ty status kind unit data : Nat) : (s.log ty status kind unit data).module = s.module :=
  (State.log_keeps (P := [.hosts, .regs, .rel, .fw]) s ty status kind unit data (Keeps.refl s) (by decide) (by decide) (by decide)
    (by decide)).parts .module (by decide)

theorem State.interrupt_faultLow (s : State) (status : Nat) (unavailable : Bool) :
    (s.interrupt status unavailable).module.faultLow = true := by
  unfold State.interrupt
  rw [State.log_module]

/-- The site that is lost was not a spare one, so the spare sites stand. -/
theorem State.spareSites_of_lost {s t : State} {site : Nat} (hactive : (s.site site).use = .active) (hout : (t.site site).use = .out)
    (hsame : ∀ n, n ≠ site → t.site n = s.site n) : t.spareSites = s.spareSites := by
  refine List.filter_congr fun n _ => ?_
  by_cases h : n = site
  · rw [h, hactive, hout]
    rfl
  · rw [hsame n h]

section

variable (s : State) {site rank : Nat}

theorem State.lost_cmdEnds (site rank : Nat) : CmdEnds (s.siteGone site rank) (s.lost site rank) :=
  (s.takeDown_takenDown site rank).ends.trans
    (.of_logged (s.lost_logged site rank) (by rw [State.lost_events]; exact Nat.le_succ _))

/-- What the loss of a rank leaves of the substitution's fields. -/
theorem State.lost_subst (site rank : Nat) : (s.lost site rank).rel.subst = s.rel.subst ∧
    (s.lost site rank).rel.oldSite = s.rel.oldSite ∧ (s.lost site rank).rel.waiting = s.rel.waiting ∧
    (rank, site) ∈ (s.lost site rank).rel.missing := by
  have hrel := (s.lost_cmdEnds site rank).rel
  rw [(s.siteGone_gone site rank).rel] at hrel
  rw [hrel]
  exact ⟨rfl, rfl, rfl, List.mem_append.mpr (.inr (List.mem_singleton.mpr rfl))⟩

theorem State.lost_ctrl (site rank : Nat) : (s.lost site rank).reg 0x600100 = s.reg 0x600100 :=
  (s.lost_cmdEnds site rank).ctrl.trans (s.siteGone_gone site rank).ctrl

theorem State.lost_site (site rank n : Nat) : (s.lost site rank).site n = (s.siteGone site rank).site n := by
  rw [State.site, (s.lost_cmdEnds site rank).sites, State.site]

theorem State.lost_events_lt (site rank : Nat) : s.rel.events < (s.lost site rank).rel.events := by
  have hends := (s.takeDown_takenDown site rank).ends.events
  rw [(s.siteGone_gone site rank).rel] at hends
  rw [State.lost_events]
  exact Nat.lt_succ_of_le hends

end

/-- What the loss of a site that held a rank leaves, before its substitution. -/
structure LostAs (s u : State) (site rank : Nat) : Prop where
  gone : (u.site site).use = .out ∧ (u.site site).rank = none
  others : ∀ n, n ≠ site → u.site n = s.site n
  missing : (rank, site) ∈ u.rel.missing
  kernels : ∀ n, u.kernel n = none
  disabled : ∀ q, q < 8 → (u.seq q).enabled = false
  faulted : ∀ cx, cx < 16 → (s.ctx cx).mode = .ready →
    (u.ctx cx).mode = .faulted ∧ ((∀ n, s.kernel n = none) → (u.ctx cx).status = 0x0B03)
  poison : ∀ l, l < 786432 → 786432 * rank + l ∈ u.memory.poisonLines
  package : u.package = s.package
  events : s.rel.events < u.rel.events
  faultLow : u.module.faultLow = true
  subst : u.rel.subst = s.rel.subst
  oldSite : u.rel.oldSite = s.rel.oldSite
  waiting : u.rel.waiting = s.rel.waiting
  ctrl : u.reg 0x600100 = s.reg 0x600100

theorem Logged.seq {s t : State} (h : Logged s t) (q : Nat) : t.seq q = s.seq q := by
  rw [h.rest]
  rfl

theorem Logged.kernel {s t : State} (h : Logged s t) (n : Nat) : t.kernel n = s.kernel n := by
  rw [State.kernel, h.tiles, State.kernel]

theorem State.lost_lostAs (s : State) (site rank : Nat) : LostAs s (s.lost site rank) site rank := by
  have hdown := s.takeDown_takenDown site rank
  have hgone := s.siteGone_gone site rank
  have hlogged := s.lost_logged site rank
  obtain ⟨hsubst, hold, hwaiting, hmissing⟩ := s.lost_subst site rank
  refine ⟨?_, fun n hn => ?_, hmissing, fun n => ?_, fun q hq => ?_, fun cx hcx hm => ?_, fun l hl => ?_, ?_, s.lost_events_lt site rank,
    ?_, hsubst, hold, hwaiting, s.lost_ctrl site rank⟩
  · rw [State.lost_site]
    exact hgone.lost
  · rw [State.lost_site, hgone.others n hn]
  · rw [hlogged.kernel]
    exact hdown.kernels n
  · rw [hlogged.seq]
    exact hdown.disabled q hq
  · rw [hlogged.ctx cx]
    exact hdown.faulted cx hcx hm
  · rw [hlogged.memory]
    exact hdown.poison l hl
  · exact (s.lost_cmdEnds site rank).package.trans hgone.package
  · rw [State.lost, State.interrupt_faultLow]

theorem loseField_of_active {s : State} {site r : Nat} (hu : (s.site site).use = .active) (hr : (s.site site).rank = some r) :
    s.loseField site = s.loseActive site r := by
  unfold State.loseField
  dsimp only
  rw [hu, hr]

theorem loseActive_of_quiet {s : State} {site r : Nat} (ha : s.activationDue = false) :
    s.loseActive site r = (s.lost site r).substAfter site r := by
  unfold State.loseActive
  dsimp only
  rw [if_neg (Bool.eq_false_iff.mp ha)]
  rfl

theorem loseActive_of_activating {s : State} {site r : Nat} (ha : s.activationDue = true) :
    s.loseActive site r = (s.undoActivation.lost site r).substAfter site r := by
  unfold State.loseActive
  dsimp only
  rw [if_pos ha]
  rfl

/-! ### The loss of a spare site -/

/-- The spare site out of the reserve, its loss logged. -/
def State.spareLost (s : State) (site : Nat) : State :=
  ((s.setSite site { s.site site with use := .out }).logLoss site).ownerEvent 4

theorem loseField_of_spare {s : State} {site : Nat} (hu : (s.site site).use = .spare) : s.loseField site =
    if (s.spareLost site).rel.subst ≠ .idle ∧ (s.spareLost site).rel.newSite = site then (s.spareLost site).replaceNew
    else s.spareLost site := by
  unfold State.loseField
  dsimp only
  rw [hu]
  rfl

theorem loseField_of_out {s : State} {site : Nat} (hu : (s.site site).use = .out) : s.loseField site = s := by
  unfold State.loseField
  dsimp only
  rw [hu]

theorem State.replaceNew_rel (s : State) : s.replaceNew = { s with rel := { s.rel with
    newSite := s.replaceNew.rel.newSite, subst := s.replaceNew.rel.subst, status := s.replaceNew.rel.status } } := by
  unfold State.replaceNew
  split <;> rfl

theorem State.spareLost_frame (s : State) (site : Nat) : ((s.spareLost site).site site).use = .out ∧
    (s.spareLost site).memory = s.memory ∧ (s.spareLost site).rel.events = s.rel.events ∧
    ∀ n, n ≠ site → (s.spareLost site).site n = s.site n := by
  have hlogged : Logged (s.setSite site { s.site site with use := .out }) (s.spareLost site) :=
    (State.logLoss_logged ..).trans (State.ownerEvent_logged ..)
  have hsite : ∀ n, (s.spareLost site).site n = (s.setSite site { s.site site with use := .out }).site n := fun n => by
    rw [hlogged.rest]
    rfl
  refine ⟨?_, hlogged.memory, ?_, fun n hn => ?_⟩
  · rw [hsite, State.site_setSite_same]
  · unfold State.spareLost
    rw [State.ownerEvent_rel, State.logLoss_events]
    rfl
  · rw [hsite, State.site_setSite_other _ _ _ _ hn]

/-- A rank is lost and nothing else was under way: what the substitution of its site then is. -/
theorem substAfter_of_lostAs {s u : State} {site r : Nat} (hl : LostAs s u site r) (hu : (s.site site).use = .active) :
    (bit (s.reg 0x600100) 0 = false → ¬(s.rel.subst = .mirror ∧ s.rel.oldSite = site) →
      (u.substAfter site r).rel.subst = s.rel.subst) ∧
    (s.rel.subst = .mirror → s.rel.oldSite = site → (u.substAfter site r).rel.subst = .unplanned) ∧
    (bit (s.reg 0x600100) 0 = true → s.rel.subst = .idle → ∀ n, s.spareSites.head? = some n →
      (u.substAfter site r).rel.subst = .unplanned ∧ (u.substAfter site r).rel.oldSite = site ∧
      (u.substAfter site r).rel.newSite = n ∧ (u.substAfter site r).rel.moving = r) ∧
    (bit (s.reg 0x600100) 0 = true → s.rel.subst ≠ .idle → ¬(s.rel.subst = .mirror ∧ s.rel.oldSite = site) →
      (u.substAfter site r).rel.subst = s.rel.subst ∧ (u.substAfter site r).rel.waiting = s.rel.waiting ++ [(r, site)]) := by
  have hspare : u.spareSites = s.spareSites := State.spareSites_of_lost hu hl.gone.1 hl.others
  refine ⟨fun hb hnot => ?_, fun hm ho => ?_, fun hb hi n hn => ?_, fun hb hi hnot => ?_⟩
  · rw [State.substAfter_of_off (by rwa [hl.subst, hl.oldSite]) (by rwa [hl.ctrl]), hl.subst]
  · rw [State.substAfter_of_mirror ⟨hl.subst.trans hm, hl.oldSite.trans ho⟩]
  · rw [State.substAfter_of_on (by simp [hl.subst, hi]) (by rwa [hl.ctrl]),
      State.beginUnplanned_of_idle (hl.subst.trans hi) (by rwa [hspare])]
    exact ⟨rfl, rfl, rfl, rfl⟩
  · rw [State.substAfter_of_on (by rwa [hl.subst, hl.oldSite]) (by rwa [hl.ctrl]), State.beginUnplanned_of_busy (by rwa [hl.subst])]
    exact ⟨hl.subst, congrArg (· ++ [(r, site)]) hl.waiting⟩

/-- Settles O52: the loss of a rank by `State.lost_lostAs` and by how the substitution stood, that of a spare site by what it
leaves. -/
theorem lostFieldsTakeTheirRank : Obligations.LostFieldsTakeTheirRank := by
  unfold Obligations.LostFieldsTakeTheirRank
  refine ⟨fun s site r hu hr ha => ?_, fun s site r hu hr ha => ?_, fun s site hu => ?_, fun s site hu => ?_⟩
  · have hexec : exec (.fieldLost site) s = .next ((s.lost site r).substAfter site r) := by
      show execFieldLost site s = _
      rw [execFieldLost, loseField_of_active hu hr, loseActive_of_quiet ha]
    rw [hexec]
    have hl := s.lost_lostAs site r
    generalize s.lost site r = u at hl
    have hsubst := substAfter_of_lostAs hl hu
    have hsame := u.substAfter_substOnly site r
    generalize u.substAfter site r = t at hsubst hsame
    refine ⟨t, rfl, ?_, ?_, fun n hn => ?_, ?_, fun n => ?_, fun q hq => ?_, fun cx hcx hm => ?_, fun l hlt => ?_, ?_, ?_, ?_, hsubst⟩
    · rw [hsame.sites]
      exact hl.gone.1
    · rw [hsame.sites]
      exact hl.gone.2
    · rw [hsame.sites, hl.others n hn]
    · rw [hsame.missing]
      exact hl.missing
    · rw [hsame.kernels, hl.kernels]
    · rw [hsame.seqs]
      exact hl.disabled q hq
    · rw [hsame.ctxs]
      exact hl.faulted cx hcx hm
    · rw [hsame.memory]
      exact hl.poison l hlt
    · rw [hsame.package, hl.package]
    · rw [hsame.events]
      exact hl.events
    · rw [hsame.module, hl.faultLow]
  · show execFieldLost site s = _
    rw [execFieldLost, loseField_of_active hu hr, loseActive_of_activating ha]
    rfl
  · obtain ⟨huse, hmemory, hevents, hothers⟩ := s.spareLost_frame site
    refine ⟨s.loseField site, rfl, ?_⟩
    rw [loseField_of_spare hu]
    split
    · rw [State.replaceNew_rel]
      exact ⟨huse, hmemory, hevents, hothers⟩
    · exact ⟨huse, hmemory, hevents, hothers⟩
  · exact congrArg Host.Outcome.next (loseField_of_out hu)

end Sys2Proof.Machine

end

section

/-! The substitution of a rank (chapter 17): O53. -/

namespace Sys2Proof.Machine

open Sys2Proof Sys2Proof.Safety

/-! ### Asking for a planned substitution -/

section

variable {s : State} {w : Writer} {v : Word} (h : permits s w 0x600104 v.toNat = true)

include h

theorem exec_plannedSubstStart_of_clear (hv : flag v 7 = false) : exec (.plannedSubstStart w v) s = .next s := by
  refine (exec_of_permits h rfl).trans (congrArg Host.Outcome.next ?_)
  exact if_neg (Bool.eq_false_iff.mp hv)

theorem exec_plannedSubstStart_of_set (hv : flag v 7 = true) :
    exec (.plannedSubstStart w v) s = .next (s.askPlanned (bits v.toNat 6 0)) := by
  refine (exec_of_permits h rfl).trans (congrArg Host.Outcome.next ?_)
  exact if_pos hv

end

section

variable {s : State} {n : Nat}

theorem State.askPlanned_of_due (h : s.activationDue = true) :
    s.askPlanned n = { s with fw := { s.fw with heldSubst := some n } } := if_pos h

theorem State.askPlanned_of_quiet (h : s.activationDue = false) : s.askPlanned n = s.startPlanned n :=
  if_neg (Bool.eq_false_iff.mp h)

theorem State.startPlanned_of_free {m r : Nat} (hm : s.spareSites.head? = some m) (hr : (s.site n).rank = some r)
    (hidle : s.rel.subst = .idle) (hn : n < 81) : s.startPlanned n =
      { s with rel := { s.rel with subst := .mirror, oldSite := n, newSite := m, moving := r, status := 0 } } := by
  unfold State.startPlanned
  cases hs : s.spareSites with
  | nil => simp [hs] at hm
  | cons a l =>
    obtain rfl : a = m := by simpa [hs] using hm
    dsimp only
    rw [hr]
    exact if_pos ⟨hidle, hn⟩

theorem State.startPlanned_of_refused (h : s.spareSites = [] ∨ (s.site n).rank = none ∨ s.rel.subst ≠ .idle) :
    s.startPlanned n = { s with rel := { s.rel with status := 0x0B10 } } := by
  unfold State.startPlanned
  cases hs : s.spareSites with
  | nil => rfl
  | cons a l =>
    dsimp only
    cases hr : (s.site n).rank with
    | none => rfl
    | some r =>
      have hbusy : s.rel.subst ≠ .idle := by simpa [hs, hr] using h
      exact if_neg fun hidle => hbusy hidle.1

end

/-! ### A rank's new site -/

section

variable (s : State)

theorem State.raiseEpoch_keptParts : Keeps [.module, .hosts, .regs] s s.raiseEpoch :=
  State.raiseEpoch_keeps s (Keeps.refl s) (by decide) (by decide) (by decide)

theorem State.raiseEpoch_siteEpoch : s.raiseEpoch.module.siteEpoch = wrap32 (s.module.siteEpoch + 1) := by
  have hevents : ∀ u : State, ((u.ownerEvent 0).hpEventAll 0).module = u.module := fun u =>
    (State.hpEventAll_keeps (P := [.hosts, .regs]) _ 0
      (State.ownerEvent_keeps u 0 (Keeps.refl u) (by decide) (by decide)) (by decide) (by decide)).parts .module (by decide)
  unfold State.raiseEpoch
  rw [hevents]

/-- The rank at its new site, with a stack of its own, before the hosts are told. -/
def State.rankMoved (old new rank : Nat) (planned : Bool) : State :=
  let t := s.dropField new
  let t := t.setSite new { t.site new with
    use := .active, rank := some rank, steps := 0, sinceStep := 10, coolSamples := 0, stopped := false, served := true }
  let t := t.setStack rank { Stack.empty with weightMissing := !planned && s.weightGib != 0 }
  { t with rel := { t.rel with
    missing := t.rel.missing.filter fun p => p.1 != rank
    moves := t.rel.moves ++ [(old, new, rank)] } }

/-- What a rank's move leaves behind it. -/
structure RankTaken (s t : State) (old new rank : Nat) (planned : Bool) : Prop where
  gained : (t.site new).use = .active ∧ (t.site new).rank = some rank
  others : ∀ n, n ≠ new → t.site n = s.site n
  stack : t.stack rank = { Stack.empty with weightMissing := !planned && s.weightGib != 0 }
  missing : t.rel.missing = s.rel.missing.filter fun p => p.1 != rank
  moves : t.rel.moves = s.rel.moves ++ [(old, new, rank)]
  waiting : t.rel.waiting = s.rel.waiting
  memory : t.memory = s.memory
  sched : t.sched = s.sched

theorem State.rankMoved_taken (old new rank : Nat) (planned : Bool) :
    RankTaken s (s.rankMoved old new rank planned) old new rank planned ∧ (s.rankMoved old new rank planned).module = s.module := by
  have hkeeps := s.dropField_keptParts new
  have hsites : (s.dropField new).sites = s.sites := hkeeps.parts .sites (by decide)
  have hrel : (s.dropField new).rel = s.rel := hkeeps.parts .rel (by decide)
  have hmemory : (s.dropField new).memory = s.memory := hkeeps.parts .memory (by decide)
  have hsched : (s.dropField new).sched = s.sched := hkeeps.parts .sched (by decide)
  have hmodule : (s.dropField new).module = s.module := hkeeps.parts .module (by decide)
  unfold State.rankMoved
  generalize s.dropField new = u at hsites hrel hmemory hsched hmodule
  dsimp only
  refine ⟨⟨?_, fun n hn => ?_, State.stack_setStack_same .., ?_, ?_, ?_, hmemory, hsched⟩, hmodule⟩
  · have hsite := u.site_setSite_same new { u.site new with
      use := .active, rank := some rank, steps := 0, sinceStep := 10, coolSamples := 0, stopped := false, served := true }
    exact ⟨congrArg Site.use hsite, congrArg Site.rank hsite⟩
  · refine (u.site_setSite_other new n _ hn).trans ?_
    rw [State.site, hsites, State.site]
  · rw [← hrel]
    rfl
  · rw [← hrel]
    rfl
  · rw [← hrel]
    rfl

theorem State.takeRank_eq (old new rank : Nat) (planned : Bool) : s.takeRank old new rank planned =
    ((s.rankMoved old new rank planned).raiseEpoch.ownerEvent 4).log 0x21 0 1 new
      (b2n planned + old * 2 + new * 256 + 32768 *
        ((s.rankMoved old new rank planned).raiseEpoch.ownerEvent 4).module.siteEpoch) := rfl

end

/-- The hosts told of a new epoch, and the record written: the rank stays where it is. -/
theorem RankTaken.told {s u t : State} {old new rank : Nat} {planned : Bool} (h : RankTaken s u old new rank planned)
    (hkeeps : Keeps [.module, .hosts, .regs] u t) {v : State} (hlogged : Logged t v) : RankTaken s v old new rank planned := by
  have hsites : v.sites = u.sites := by
    rw [hlogged.rest]
    exact hkeeps.parts .sites (by decide)
  have htiers : v.tiers = u.tiers := hlogged.tiers.trans (hkeeps.parts .tiers (by decide))
  have hrel : t.rel = u.rel := hkeeps.parts .rel (by decide)
  have hmissing : v.rel.missing = t.rel.missing := by rw [hlogged.rest]
  have hmoves : v.rel.moves = t.rel.moves := by rw [hlogged.rest]
  have hwaiting : v.rel.waiting = t.rel.waiting := by rw [hlogged.rest]
  have hsched : v.sched = u.sched := by
    rw [hlogged.rest]
    exact hkeeps.parts .sched (by decide)
  have hmemory : v.memory = u.memory := hlogged.memory.trans (hkeeps.parts .memory (by decide))
  have hsite : ∀ n, v.site n = u.site n := fun n => by rw [State.site, hsites, State.site]
  exact ⟨by rw [hsite]; exact h.gained, fun n hn => (hsite n).trans (h.others n hn),
    by rw [State.stack, htiers]; exact h.stack, by rw [hmissing, hrel, h.missing], by rw [hmoves, hrel, h.moves],
    by rw [hwaiting, hrel, h.waiting], hmemory.trans h.memory, hsched.trans h.sched⟩

theorem State.takeRank_taken (s : State) (old new rank : Nat) (planned : Bool) :
    RankTaken s (s.takeRank old new rank planned) old new rank planned ∧
      (s.takeRank old new rank planned).module.siteEpoch = wrap32 (s.module.siteEpoch + 1) := by
  obtain ⟨htaken, hmodule⟩ := s.rankMoved_taken old new rank planned
  rw [State.takeRank_eq]
  generalize s.rankMoved old new rank planned = u at htaken hmodule
  refine ⟨htaken.told u.raiseEpoch_keptParts ((State.ownerEvent_logged ..).trans (State.log_logged ..)), ?_⟩
  have hevent : (u.raiseEpoch.ownerEvent 4).module = u.raiseEpoch.module :=
    (State.ownerEvent_keeps (P := [.hosts, .regs]) u.raiseEpoch 4 (Keeps.refl _) (by decide) (by decide)).parts .module (by decide)
  rw [State.log_module, hevent, State.raiseEpoch_siteEpoch, hmodule]

theorem State.endSubst_of_none {s : State} (h : s.rel.waiting = []) (st : Nat) :
    s.endSubst st = { s with rel := { s.rel with subst := .idle, status := st } } := by
  unfold State.endSubst
  dsimp only
  rw [h]

theorem State.endSubst_of_waiting {s : State} {r : Nat × Nat} {l : List (Nat × Nat)} (h : s.rel.waiting = r :: l) (st : Nat) :
    s.endSubst st = ({ s with rel := { s.rel with subst := .idle, status := st } } : State).beginUnplanned r.2 r.1 := by
  unfold State.endSubst
  dsimp only
  rw [h]

/-! ### The old site of a planned move -/

theorem State.applyHeld_of_none {s : State} (h : s.tiers.heldWrites = []) (rank : Nat) : s.applyHeld rank = s := by
  unfold State.applyHeld
  rw [h]
  show { s with tiers := { s.tiers with heldWrites := [] } } = s
  rw [← h]

/-- The old site without its rank, nothing else of what a move tells of changed. -/
theorem State.retireSite_frame (s : State) (site : Nat) : ((s.retireSite site).site site).use = .out ∧
    ((s.retireSite site).site site).rank = none ∧ (∀ n, n ≠ site → (s.retireSite site).site n = s.site n) ∧
    Keeps [.sites, .tiles, .attn, .regs] s (s.retireSite site) := by
  have hkeeps := State.retireSite_keeps (P := [.sites, .tiles, .attn, .regs]) s site (Keeps.refl s)
    (by decide) (by decide) (by decide) (by decide)
  have hsites : (s.dropField site).sites = s.sites := (s.dropField_keptParts site).parts .sites (by decide)
  refine ⟨?_, ?_, fun n hn => ?_, hkeeps⟩
  · unfold State.retireSite
    dsimp only
    rw [State.site_setSite_same]
  · unfold State.retireSite
    dsimp only
    rw [State.site_setSite_same]
  · unfold State.retireSite
    dsimp only
    rw [State.site_setSite_other _ _ _ _ hn, State.site, hsites, State.site]

theorem exec_substDrain_of_mirror {s : State} (h : s.rel.subst = .mirror) : exec .substDrain s =
    .next ((((s.withdraw.applyHeld s.rel.moving).retireSite s.rel.oldSite).takeRank s.rel.oldSite s.rel.newSite s.rel.moving
      true).endSubst 0) :=
  congrArg Host.Outcome.next (if_neg (not_not_intro h))

theorem exec_unplannedSubstDone_of_unplanned {s : State} (h : s.rel.subst = .unplanned) : exec .unplannedSubstDone s =
    .next ((s.takeRank s.rel.oldSite s.rel.newSite s.rel.moving false).endSubst 0) :=
  congrArg Host.Outcome.next (if_neg (not_not_intro h))

/-- A planned move whose last writes have reached the stack. -/
theorem substDrain_moves {s : State} (hwaiting : s.rel.waiting = []) (hne : s.rel.oldSite ≠ s.rel.newSite)
    (hmirror : s.rel.subst = .mirror) (hheld : s.tiers.heldWrites = []) : ∃ t, exec .substDrain s = .next t ∧
      (t.site s.rel.newSite).use = .active ∧ (t.site s.rel.newSite).rank = some s.rel.moving ∧
      (t.site s.rel.oldSite).use = .out ∧ (t.site s.rel.oldSite).rank = none ∧
      t.module.siteEpoch = wrap32 (s.module.siteEpoch + 1) ∧ t.rel.subst = .idle ∧ t.rel.status = 0 ∧
      t.rel.moves = s.rel.moves ++ [(s.rel.oldSite, s.rel.newSite, s.rel.moving)] ∧
      t.memory = s.memory ∧ t.stack s.rel.moving = Stack.empty ∧ t.sched = s.sched ∧
      (∀ n, n ≠ s.rel.oldSite → n ≠ s.rel.newSite → t.site n = s.site n) := by
  have hwithdraw := State.withdraw_keeps (P := [.tiles, .attn, .regs]) s (Keeps.refl s) (by decide) (by decide) (by decide)
  have htiers : s.withdraw.tiers = s.tiers := hwithdraw.parts .tiers (by decide)
  have hsites : s.withdraw.sites = s.sites := hwithdraw.parts .sites (by decide)
  obtain ⟨huse, hrank, hothers, hretire⟩ := s.withdraw.retireSite_frame s.rel.oldSite
  rw [exec_substDrain_of_mirror hmirror, State.applyHeld_of_none (by rw [htiers, hheld])]
  have hrel := (hretire.parts .rel (by decide)).trans (hwithdraw.parts .rel (by decide))
  have hmemory := (hretire.parts .memory (by decide)).trans (hwithdraw.parts .memory (by decide))
  have hsched := (hretire.parts .sched (by decide)).trans (hwithdraw.parts .sched (by decide))
  have hmodule := (hretire.parts .module (by decide)).trans (hwithdraw.parts .module (by decide))
  generalize s.withdraw.retireSite s.rel.oldSite = u at huse hrank hothers hrel hmemory hsched hmodule
  have hsame : ∀ n, n ≠ s.rel.oldSite → u.site n = s.site n := fun n hn => by
    rw [hothers n hn, State.site, hsites, State.site]
  obtain ⟨htaken, hepoch⟩ := u.takeRank_taken s.rel.oldSite s.rel.newSite s.rel.moving true
  generalize u.takeRank s.rel.oldSite s.rel.newSite s.rel.moving true = t at htaken hepoch
  rw [State.endSubst_of_none (by rw [htaken.waiting, hrel, hwaiting])]
  refine ⟨_, rfl, htaken.gained.1, htaken.gained.2, ?_, ?_, ?_, rfl, rfl, ?_, htaken.memory.trans hmemory, htaken.stack,
    htaken.sched.trans hsched, fun n hold hnew => (htaken.others n hnew).trans (hsame n hold)⟩
  · exact (congrArg Site.use (htaken.others _ hne)).trans huse
  · exact (congrArg Site.rank (htaken.others _ hne)).trans hrank
  · exact hepoch.trans (by rw [hmodule])
  · exact htaken.moves.trans (by rw [hrel])

theorem unplannedSubstDone_moves {s : State} (hwaiting : s.rel.waiting = []) (hunplanned : s.rel.subst = .unplanned) :
    ∃ t, exec .unplannedSubstDone s = .next t ∧
      (t.site s.rel.newSite).use = .active ∧ (t.site s.rel.newSite).rank = some s.rel.moving ∧
      (∀ p ∈ t.rel.missing, p.1 ≠ s.rel.moving) ∧ t.module.siteEpoch = wrap32 (s.module.siteEpoch + 1) ∧ t.rel.subst = .idle ∧
      t.memory = s.memory ∧ (t.stack s.rel.moving).weightMissing = (s.weightGib != 0) ∧
      (∀ n, n ≠ s.rel.newSite → t.site n = s.site n) := by
  rw [exec_unplannedSubstDone_of_unplanned hunplanned]
  obtain ⟨htaken, hepoch⟩ := s.takeRank_taken s.rel.oldSite s.rel.newSite s.rel.moving false
  generalize s.takeRank s.rel.oldSite s.rel.newSite s.rel.moving false = t at htaken hepoch
  rw [State.endSubst_of_none (by rw [htaken.waiting, hwaiting])]
  refine ⟨_, rfl, htaken.gained.1, htaken.gained.2, fun p hp => ?_, hepoch, rfl, htaken.memory,
    congrArg Stack.weightMissing htaken.stack, htaken.others⟩
  have hmem : p ∈ t.rel.missing := hp
  rw [htaken.missing, List.mem_filter] at hmem
  simpa using hmem.2

/-- Settles O53: the request by how it finds the reserve, each end of a substitution by `State.takeRank_taken`. -/
theorem substitutionsMoveRanks : Obligations.SubstitutionsMoveRanks := by
  unfold Obligations.SubstitutionsMoveRanks
  refine ⟨fun s w v h => ?_, fun s => ⟨fun hm => exec_substDrain_of_mirror hm, fun hu => exec_unplannedSubstDone_of_unplanned hu,
    fun r l st hw => State.endSubst_of_waiting hw st⟩, fun s hw hne => ⟨fun hm hh => substDrain_moves hw hne hm hh,
    fun hu => unplannedSubstDone_moves hw hu⟩, fun s => ⟨fun h => congrArg Host.Outcome.next (if_pos h),
    fun h => congrArg Host.Outcome.next (if_pos h)⟩, fun s r hr => ?_⟩
  · intro n
    refine ⟨fun hv => exec_plannedSubstStart_of_clear h hv, fun hv hdue => ?_, fun hv hquiet => ⟨fun m r hm hr hidle hn => ?_,
      fun hbusy => ?_⟩⟩
    · rw [exec_plannedSubstStart_of_set h hv, State.askPlanned_of_due hdue]
    · rw [exec_plannedSubstStart_of_set h hv, State.askPlanned_of_quiet hquiet, State.startPlanned_of_free hm hr hidle hn]
    · rw [exec_plannedSubstStart_of_set h hv, State.askPlanned_of_quiet hquiet, State.startPlanned_of_refused hbusy]
  · have hnone : ¬(s.siteOf r).isNone = true := by
      cases hs : s.siteOf r with
      | none => simp [hs] at hr
      | some n => simp
    exact ⟨_, congrArg Host.Outcome.next (if_neg hnone), State.stack_setStack_same .., fun q hq => State.stack_setStack_other _ _ _ _ hq,
      rfl⟩

end Sys2Proof.Machine

end

section

/-! The logbook (chapter 17): what a record, a signature and a checkpoint append, and the layout of a record: O54. -/

namespace Sys2Proof.Machine

open Sys2Proof Sys2Proof.Safety

/-! ### What is appended -/

section

variable (s : State)

theorem State.appendRecord_of_room {s : State} (ty status kind unit data : Nat) (h : s.rel.book.length < bookSize) :
    (s.appendRecord ty status kind unit data).rel = { s.rel with
      book := s.rel.book ++ [BitVec.ofNat 1024 (recordOf s ty status kind unit data)]
      sinceCheckpoint := s.rel.sinceCheckpoint + 1 } := by
  unfold State.appendRecord
  rw [if_neg (Nat.not_le.mpr h), State.ownerEvent_rel]

theorem State.appendRecord_of_full {s : State} (ty status kind unit data : Nat) (h : bookSize ≤ s.rel.book.length) :
    (s.appendRecord ty status kind unit data).rel = s.rel := by
  unfold State.appendRecord
  rw [if_pos h, State.ownerEvent_rel]

/-- Records are only appended, and no signature with them. -/
structure BookGrows (s t : State) : Prop where
  book : ∃ l, t.rel.book = s.rel.book ++ l
  full : bookSize ≤ s.rel.book.length → t.rel.book = s.rel.book
  signatures : t.rel.signatures = s.rel.signatures

theorem BookGrows.refl (s : State) : BookGrows s s := ⟨⟨[], (List.append_nil _).symm⟩, fun _ => rfl, rfl⟩

theorem BookGrows.trans {s t u : State} (h : BookGrows s t) (g : BookGrows t u) : BookGrows s u := by
  obtain ⟨l, hl⟩ := h.book
  obtain ⟨m, hm⟩ := g.book
  refine ⟨⟨l ++ m, by rw [hm, hl, List.append_assoc]⟩, fun hs => ?_, g.signatures.trans h.signatures⟩
  have ht := h.full hs
  rw [g.full (by rwa [ht]), ht]

theorem State.appendRecord_grows (ty status kind unit data : Nat) : BookGrows s (s.appendRecord ty status kind unit data) := by
  rcases Nat.lt_or_ge s.rel.book.length bookSize with h | h
  · have hrel := State.appendRecord_of_room ty status kind unit data h
    exact ⟨⟨_, by rw [hrel]⟩, fun hf => absurd h (Nat.not_lt.mpr hf), by rw [hrel]⟩
  · have hrel := State.appendRecord_of_full ty status kind unit data h
    exact ⟨⟨[], by rw [hrel, List.append_nil]⟩, fun _ => by rw [hrel], by rw [hrel]⟩

theorem State.recordIf_grows (p : Prop) [Decidable p] (data : Nat) :
    BookGrows s (if p then s.appendRecord 0x92 0 0 0 data else s) := by
  split
  · exact s.appendRecord_grows ..
  · exact .refl s

theorem State.sign_grows (m : List Byte) : BookGrows s (s.sign m).1 := by
  unfold State.sign
  split
  · exact .refl s
  · have hspent : BookGrows s { s with fw := { s.fw with sigUsed := s.fw.sigUsed + 1 } } :=
      ⟨⟨[], (List.append_nil _).symm⟩, fun _ => rfl, rfl⟩
    exact hspent.trans ((State.recordIf_grows ..).trans ((State.recordIf_grows ..).trans
      ((State.recordIf_grows ..).trans (State.recordIf_grows ..))))

theorem State.sign_of_budget {s : State} (m : List Byte) (h : s.fw.sigUsed < sigBudget) :
    (∃ g, (s.sign m).2 = some g) ∧ (s.sign m).1.fw.sigUsed = s.fw.sigUsed + 1 := by
  unfold State.sign
  rw [if_neg (Nat.not_le.mpr h)]
  refine ⟨⟨_, rfl⟩, ?_⟩
  simp only [State.appendRecord_fw_of_mark]

/-- The data of a checkpoint's record: the slot of its signature and the hash of the first record. -/
def State.checkpointData (s : State) : Nat :=
  s.rel.signatures.length % 16384 + 2 ^ 256 * (match s.rel.book.head? with
    | none => 0
    | some r => ofBytes (sha256 (toBytes 128 r.toNat)))

/-- The message a checkpoint signs. -/
def State.checkpointMessage (s : State) : List Byte :=
  [0x55, 0x5A, 0x4C, 0x42] ++ (match s.rel.book.getLast? with
    | none => []
    | some r => sha256 (toBytes 128 r.toNat))

/-- The checkpoint's record appended, the count of records since it begun anew. -/
def State.checkpointed (s : State) : State :=
  let t := s.appendRecord 0xF0 0 0 0 s.checkpointData
  { t with rel := { t.rel with sinceCheckpoint := 0 } }

theorem State.checkpoint_eq : s.checkpoint =
    match s.checkpointed.sign s.checkpointed.checkpointMessage with
    | (t, none) => t
    | (t, some g) => { t with rel := { t.rel with signatures := t.rel.signatures ++ [(s.rel.signatures.length % 16384, g)] } } := rfl

theorem State.checkpointed_fw : s.checkpointed.fw = s.fw := s.appendRecord_fw ..

theorem State.checkpointed_grows : BookGrows s s.checkpointed :=
  (s.appendRecord_grows 0xF0 0 0 0 s.checkpointData).trans ⟨⟨[], (List.append_nil _).symm⟩, fun _ => rfl, rfl⟩

theorem State.checkpoint_book : s.checkpoint.rel.book = (s.checkpointed.sign s.checkpointed.checkpointMessage).1.rel.book := by
  rw [State.checkpoint_eq]
  split
  · next h => rw [h]
  · next h => rw [h]

theorem State.checkpoint_book_grows : (∃ l, s.checkpoint.rel.book = s.checkpointed.rel.book ++ l) ∧
    (bookSize ≤ s.rel.book.length → s.checkpoint.rel.book = s.rel.book) := by
  have hsign := s.checkpointed.sign_grows s.checkpointed.checkpointMessage
  rw [State.checkpoint_book]
  exact ⟨hsign.book, (s.checkpointed_grows.trans hsign).full⟩

/-- A checkpoint where the book and the key have room: its record, and one signature. -/
theorem State.checkpoint_of_room {s : State} (hroom : s.rel.book.length < bookSize) (hkey : s.fw.sigUsed < sigBudget) :
    (∃ l, s.checkpoint.rel.book = s.rel.book ++ BitVec.ofNat 1024 (recordOf s 0xF0 0 0 0 s.checkpointData) :: l) ∧
    s.checkpoint.fw.sigUsed = s.fw.sigUsed + 1 ∧ s.checkpoint.rel.signatures.length = s.rel.signatures.length + 1 := by
  have hbook : s.checkpointed.rel.book = s.rel.book ++ [BitVec.ofNat 1024 (recordOf s 0xF0 0 0 0 s.checkpointData)] :=
    congrArg Reliability.book (State.appendRecord_of_room 0xF0 0 0 0 s.checkpointData hroom)
  have hkey' : s.checkpointed.fw.sigUsed < sigBudget := by rwa [State.checkpointed_fw]
  obtain ⟨⟨g, hg⟩, hused⟩ := State.sign_of_budget s.checkpointed.checkpointMessage hkey'
  have hgrows := s.checkpointed.sign_grows s.checkpointed.checkpointMessage
  obtain ⟨⟨l, hl⟩, -⟩ := s.checkpoint_book_grows
  refine ⟨⟨l, by rw [hl, hbook, List.append_assoc]; rfl⟩, ?_⟩
  rw [State.checkpoint_eq]
  generalize s.checkpointed.sign s.checkpointed.checkpointMessage = p at hg hused hgrows
  obtain ⟨t, o⟩ := p
  obtain rfl : o = some g := hg
  refine ⟨hused.trans (by rw [State.checkpointed_fw]), ?_⟩
  have hsignatures : t.rel.signatures = s.rel.signatures := hgrows.signatures.trans s.checkpointed_grows.signatures
  simp [hsignatures]

theorem State.log_book (ty status kind unit data : Nat) :
    (∃ l, (s.log ty status kind unit data).rel.book = (s.appendRecord ty status kind unit data).rel.book ++ l) ∧
    (bookSize ≤ s.rel.book.length → (s.log ty status kind unit data).rel.book = s.rel.book) := by
  have happend := s.appendRecord_grows ty status kind unit data
  unfold State.log
  dsimp only
  split
  · obtain ⟨⟨l, hl⟩, hfull⟩ := (s.appendRecord ty status kind unit data).checkpoint_book_grows
    obtain ⟨k, hk⟩ := (s.appendRecord ty status kind unit data).checkpointed_grows.book
    refine ⟨⟨k ++ l, by rw [hl, hk, List.append_assoc]⟩, fun h => ?_⟩
    rw [hfull (by rwa [happend.full h]), happend.full h]
  · exact ⟨⟨[], (List.append_nil _).symm⟩, happend.full⟩

theorem State.log_of_room {s : State} (ty status kind unit data : Nat) (h : s.rel.book.length < bookSize) :
    ∃ l, (s.log ty status kind unit data).rel.book =
      s.rel.book ++ BitVec.ofNat 1024 (recordOf s ty status kind unit data) :: l := by
  obtain ⟨⟨l, hl⟩, -⟩ := s.log_book ty status kind unit data
  exact ⟨l, by rw [hl, State.appendRecord_of_room _ _ _ _ _ h, List.append_assoc]; rfl⟩

/-- A record that brings a checkpoint with it. -/
theorem State.log_of_mark {s : State} {ty : Nat} (hty : ty = 0xA0 ∨ ty = 0xA1) (data : Nat) :
    s.log ty 0 0 0 data = (s.appendRecord ty 0 0 0 data).checkpoint := by
  have hmark : ty = 0xA0 ∨ ty = 0xA1 ∨ ty = 0x90 ∨ ty = 0x91 ∨ 1024 ≤ (s.appendRecord ty 0 0 0 data).rel.sinceCheckpoint := by tauto
  exact if_pos hmark

end

/-! ### The layout of a record (Table 17.6) -/

theorem ofBytes_lt (l : List Byte) : ofBytes l < 256 ^ l.length := by
  induction l with
  | nil => exact Nat.one_pos
  | cons b l ih =>
    have hb := b.isLt
    rw [ofBytes, List.length_cons, pow_succ]
    omega

theorem length_sha256 (l : List Byte) : (sha256 l).length = 32 := by
  simp [sha256, Quad.bytes, beBytes]

theorem ofBytes_sha256_lt (l : List Byte) : ofBytes (sha256 l) < 2 ^ 256 := by
  have h := ofBytes_lt (sha256 l)
  rwa [length_sha256] at h

/-- The parts of a record, each in its place. -/
theorem fld_record {p d b l c k u y st : Nat} (hp : p < 2 ^ 256) (hd : d < 2 ^ 512) (hb : b < 2 ^ 64) (hl : l < 2 ^ 64)
    (hc : c < 2 ^ 32) (hk : k < 256) (hu : u < 2 ^ 24) (hy : y < 65536) (hst : st < 65536) {r : BitVec 1024}
    (hr : r = BitVec.ofNat 1024 (p * 2 ^ 768 + 2 ^ 256 * d + 2 ^ 192 * b + 2 ^ 128 * l + 2 ^ 96 * c + 2 ^ 88 * k + 2 ^ 64 * u
      + 2 ^ 48 * y + 2 ^ 32 * st + 0x424C)) :
    fld r 15 0 = 0x424C ∧ fld r 31 16 = 0 ∧ fld r 47 32 = st ∧ fld r 63 48 = y ∧ fld r 87 64 = u ∧ fld r 95 88 = k ∧
    fld r 127 96 = c ∧ fld r 191 128 = l ∧ fld r 255 192 = b ∧ fld r 767 256 = d ∧ fld r 1023 768 = p := by
  have hnat : r.toNat = p * 2 ^ 768 + 2 ^ 256 * d + 2 ^ 192 * b + 2 ^ 128 * l + 2 ^ 96 * c + 2 ^ 88 * k + 2 ^ 64 * u
      + 2 ^ 48 * y + 2 ^ 32 * st + 0x424C := by
    rw [hr, BitVec.toNat_ofNat, Nat.mod_eq_of_lt]
    omega
  simp only [fld, hnat, bits, Nat.shiftRight_eq_div_pow]
  refine ⟨?_, ?_, ?_, ?_, ?_, ?_, ?_, ?_, ?_, ?_, ?_⟩ <;> omega

/-- The hash of the record before the next one: 0 before the first. -/
def State.previousHash (s : State) : Nat :=
  match s.rel.book.getLast? with
  | none => 0
  | some r => ofBytes (sha256 (toBytes 128 r.toNat))

theorem State.previousHash_lt (s : State) : s.previousHash < 2 ^ 256 := by
  unfold State.previousHash
  split
  · exact Nat.two_pow_pos 256
  · exact ofBytes_sha256_lt _

theorem fld_recordOf {s : State} {ty status kind unit : Nat} (data : Nat) (hty : ty < 65536) (hstatus : status < 65536)
    (hkind : kind < 256) (hunit : unit < 2 ^ 24) (hbook : s.rel.book.length < 2 ^ 64) {r : BitVec 1024}
    (hr : r = BitVec.ofNat 1024 (recordOf s ty status kind unit data)) :
    fld r 15 0 = 0x424C ∧ fld r 31 16 = 0 ∧ fld r 47 32 = status ∧ fld r 63 48 = ty ∧ fld r 87 64 = unit ∧ fld r 95 88 = kind ∧
    fld r 127 96 = s.module.bootCount % 2 ^ 32 ∧ fld r 191 128 = s.module.lifeSeconds % 2 ^ 64 ∧
    fld r 255 192 = s.rel.book.length ∧ fld r 767 256 = data % 2 ^ 512 ∧ fld r 1023 768 = s.previousHash := by
  have hdata : data % 2 ^ 512 < 2 ^ 512 := Nat.mod_lt data (by positivity)
  refine fld_record s.previousHash_lt hdata hbook (Nat.mod_lt _ (Nat.two_pow_pos _))
    (Nat.mod_lt _ (Nat.two_pow_pos _)) hkind hunit hty hstatus ?_
  rw [hr, recordOf, Nat.mod_eq_of_lt hty, Nat.mod_eq_of_lt hstatus, Nat.mod_eq_of_lt hkind, Nat.mod_eq_of_lt hunit]
  rfl

/-- The low field of a record's data. -/
theorem fld_data_low {r : BitVec 1024} {data : Nat} (n : Nat) (hn : n ≤ 511) (h : fld r 767 256 = data % 2 ^ 512) :
    fld r (256 + n) 256 = data % 2 ^ (n + 1) := by
  have hle : 2 ^ (n + 1) ∣ 2 ^ 512 := pow_dvd_pow 2 (Nat.succ_le_succ hn)
  calc fld r (256 + n) 256 = fld r 767 256 % 2 ^ (n + 1) := by
        simp only [fld, bits]
        rw [Nat.mod_mod_of_dvd _ hle, show 256 + n + 1 - 256 = n + 1 by omega]
    _ = data % 2 ^ (n + 1) := by rw [h, Nat.mod_mod_of_dvd _ hle]

theorem State.gradeNow_lt (s : State) : s.gradeNow < 4 := by
  unfold State.gradeNow gradeOf
  split
  · decide
  · split
    · decide
    · split <;> decide

/-! ### O54 -/

/-- A marking record in a book with room for two: it, and a signed checkpoint after it. -/
theorem State.mark_of_room {s : State} {ty : Nat} (hty : ty = 0xA0 ∨ ty = 0xA1) (data : Nat)
    (hroom : s.rel.book.length + 1 < bookSize) (hkey : s.fw.sigUsed < sigBudget) : ∃ (ck : BitVec 1024) (l : List (BitVec 1024)),
      (s.log ty 0 0 0 data).rel.book = s.rel.book ++ BitVec.ofNat 1024 (recordOf s ty 0 0 0 data) :: ck :: l ∧
      fld ck 63 48 = 0xF0 ∧ (s.log ty 0 0 0 data).fw.sigUsed = s.fw.sigUsed + 1 ∧
      (s.log ty 0 0 0 data).rel.signatures.length = s.rel.signatures.length + 1 := by
  have hrel := State.appendRecord_of_room ty 0 0 0 data (Nat.lt_of_succ_lt hroom)
  have hfw := s.appendRecord_fw ty 0 0 0 data
  rw [State.log_of_mark hty]
  generalize s.appendRecord ty 0 0 0 data = t at hrel hfw
  have hlength : t.rel.book.length = s.rel.book.length + 1 := by rw [hrel]; exact List.length_append
  obtain ⟨⟨l, hl⟩, hused, hsigned⟩ := State.checkpoint_of_room (s := t) (by rwa [hlength]) (by rwa [hfw])
  refine ⟨_, l, ?_, (fld_recordOf (s := t) t.checkpointData (ty := 0xF0) (status := 0) (kind := 0) (unit := 0)
    (by decide) (by decide) (by decide) (by decide) ?_ rfl).2.2.2.1, ?_, ?_⟩
  · rw [hl, hrel, List.append_assoc]
    rfl
  · rw [hlength]
    exact hroom.trans (by decide)
  · rw [hused, hfw]
  · rw [hsigned, hrel]

/-- The data of a GRADE record. -/
def State.gradeData (s : State) : Nat :=
  let p := s.shares
  s.gradeNow + nth p 0 0 * 4 + nth p 1 0 * 2 ^ 9 + 2 ^ 16 * nth p 2 0 + 2 ^ 23 * nth p 3 0
    + 2 ^ 32 * (s.module.lifeSeconds / 3600 % 2 ^ 32) + 2 ^ 64 * (s.rel.events % 2 ^ 32) + 2 ^ 96 * (s.rel.criticals % 2 ^ 32)
    + 2 ^ 128 * (trimHash s.trimNow % 2 ^ 128)

theorem State.gradeRecord_eq (s : State) : s.gradeRecord = s.log 0xA1 0 0 0 s.gradeData := rfl

theorem State.gradeData_grade (s : State) : s.gradeData % 2 ^ 2 = s.gradeNow := by
  have hlt := s.gradeNow_lt
  unfold State.gradeData
  generalize s.gradeNow = g at hlt
  dsimp only
  omega

theorem State.checkpointData_slot (s : State) : s.checkpointData % 2 ^ 16 = s.rel.signatures.length % 16384 := by
  unfold State.checkpointData
  generalize (match s.rel.book.head? with
    | none => 0
    | some r => ofBytes (sha256 (toBytes 128 r.toNat))) = hash
  omega

/-- Settles O54: each request by what `State.log` and `State.checkpoint` append, the layout by `fld_recordOf`. -/
theorem logbookRecordsAreAppended : Obligations.LogbookRecordsAreAppended := by
  unfold Obligations.LogbookRecordsAreAppended
  have hlarge : ∀ n, n < bookSize → n < 2 ^ 64 := fun n hn => hn.trans (by decide)
  refine ⟨fun s w hroom hkey => ⟨fun h => ?_, fun h => ?_, fun h => ?_⟩, fun s kwh hot inlet hroom => ?_,
    fun s w kwh hot inlet hfull => ⟨fun h => ?_, ?_⟩, fun s ty status kind unit data hty hstatus hkind hunit hbook => ?_,
    fun s w h => ?_⟩
  · obtain ⟨ck, l, hbook, hck, hused, hsigned⟩ := State.mark_of_room (.inl rfl) s.markBytes hroom hkey
    exact ⟨_, ck, l, exec_of_permits h rfl, hbook, hck, hused, hsigned⟩
  · obtain ⟨ck, l, hbook, hck, hused, -⟩ := State.mark_of_room (.inr rfl) s.gradeData hroom hkey
    obtain ⟨-, -, -, hty, -, -, -, -, -, hdata, -⟩ := fld_recordOf (s := s) s.gradeData (ty := 0xA1) (status := 0) (kind := 0)
      (unit := 0) (by decide) (by decide) (by decide) (by decide) (hlarge _ (Nat.lt_of_succ_lt hroom)) rfl
    exact ⟨_, _, ck, l, exec_of_permits h rfl, hbook, hty, (fld_data_low 1 (by decide) hdata).trans s.gradeData_grade, hck, hused⟩
  · obtain ⟨⟨l, hl⟩, hused, -⟩ := State.checkpoint_of_room (Nat.lt_of_succ_lt hroom) hkey
    obtain ⟨-, -, -, hty, -, -, -, -, -, hdata, -⟩ := fld_recordOf (s := s) s.checkpointData (ty := 0xF0) (status := 0) (kind := 0)
      (unit := 0) (by decide) (by decide) (by decide) (by decide) (hlarge _ (Nat.lt_of_succ_lt hroom)) rfl
    exact ⟨_, _, l, exec_of_permits h rfl, hl, hty, (fld_data_low 15 (by decide) hdata).trans s.checkpointData_slot, hused⟩
  · obtain ⟨l, hl⟩ := State.log_of_room (s := s) 2 0 0 0 (kwh.toNat + 2 ^ 32 * hot.toNat +
      2 ^ 64 * (s.rel.criticals % 2 ^ 32) + 2 ^ 96 * (s.rel.events % 2 ^ 32) + 2 ^ 128 * inlet.toNat +
      2 ^ 160 * (s.correctedAll % 2 ^ 32)) hroom
    exact ⟨_, l, rfl, hl⟩
  · exact ⟨_, exec_of_permits h rfl, (s.log_book ..).2 hfull⟩
  · exact ⟨_, rfl, (s.log_book ..).2 hfull⟩
  · intro r
    obtain ⟨hmagic, hzero, hst, hkindOf, hunitOf, hk, hboot, hlife, hindex, hdata, hhash⟩ :=
      fld_recordOf data hty hstatus hkind hunit hbook (r := r) rfl
    refine ⟨hmagic, hzero, hst, hkindOf, hunitOf, hk, hboot, hlife, hindex, hdata, fun p hp => ?_, fun hnil => ?_⟩
    · rw [hhash, State.previousHash, hp]
    · rw [hhash, State.previousHash, hnil]
      rfl
  · exact congrArg Host.Outcome.next (if_pos h)

end Sys2Proof.Machine

end

section

/-! The trim table (chapter 17): O55. -/

namespace Sys2Proof.Machine

open Sys2Proof Sys2Proof.Safety

/-! ### A word of the staging copy -/

section

variable {s : State} {w : Writer}

theorem State.trimWrite_of_package (n v : Nat) (h : s.package.isSome = true) :
    s.trimWrite w n v = (s.cfgErr w 1 0x600008).provStatus 0x0B12 := if_pos h

theorem State.trimWrite_of_structural {n : Nat} (v : Nat) (h : s.package = none) (hn : n < 4096) :
    s.trimWrite w n v = s.provStatus 0x0B12 := by
  unfold State.trimWrite
  rw [if_neg (by simp [h]), if_pos hn]

theorem State.trimWrite_of_calibration {n : Nat} (v : Nat) (h : s.package = none) (hn : 4096 ≤ n) : s.trimWrite w n v =
    { s with rel := { s.rel with staging := tput s.rel.staging n (some (BitVec.ofNat 32 v)) none } } := by
  unfold State.trimWrite
  rw [if_neg (by simp [h]), if_neg (Nat.not_lt.mpr hn)]

end

/-! ### The staging copy laid over the stored words -/

theorem tget_foldl_tput {α : Type} [DecidableEq α] (d : α) (k : Nat) : ∀ (t m : Tab α), (t.map Prod.fst).Pairwise (· < ·) →
    (∀ p ∈ t, p.2 ≠ d) → tget (t.foldl (fun m e => tput m e.1 e.2 d) m) k d = if tget t k d = d then tget m k d else tget t k d := by
  intro t
  induction t with
  | nil => exact fun m _ _ => (if_pos rfl).symm
  | cons e t ih =>
    intro m hkeys hvals
    obtain ⟨j, v⟩ := e
    rw [List.map_cons, List.pairwise_cons] at hkeys
    obtain ⟨hj, hkeys⟩ := hkeys
    rw [List.foldl_cons, ih _ hkeys fun p hp => hvals p (List.mem_cons_of_mem _ hp), tget_tput]
    rcases eq_or_ne k j with rfl | hk
    · have hnone : tget t k d = d := tget_none t k d fun p hp => by
        have hlt := hj p.1 (List.mem_map_of_mem hp)
        exact (Nat.ne_of_lt hlt).symm
      have hv : v ≠ d := hvals (k, v) (List.mem_cons_self ..)
      simp [hnone, tget, hv]
    · simp [hk, tget, Ne.symm hk]

/-- The stored copy with the staged words in it, one commit more. -/
def State.trimMerged (s : State) : State :=
  { s with rel := { s.rel with
      stored := s.rel.staging.foldl (fun t e => tput t e.1 e.2 none) s.rel.stored
      staging := []
      storedOrigin := 1
      provWrites := s.rel.provWrites + 1 } }

theorem State.trimCommit_of_outside {s : State} (h : trimOutside s.trimStaged = true) :
    s.trimCommit = s.provStatus 0x0D05 := if_pos h

theorem State.trimCommit_of_inside {s : State} (h : trimOutside s.trimStaged = false) :
    s.trimCommit = s.trimMerged.log 0x80 0 0 0 (trimHash s.trimStaged) := if_neg (Bool.eq_false_iff.mp h)

theorem State.trimStored_trimMerged {s : State} (h : tabWf s.rel.staging none) (n : Nat) :
    s.trimMerged.trimStored n = s.trimStaged n := by
  have hmerged := tget_foldl_tput none n s.rel.staging s.rel.stored h.1 h.2
  show (tget (s.rel.staging.foldl (fun t e => tput t e.1 e.2 none) s.rel.stored) n none).getD (s.serviceTrim n) =
    (tget s.rel.staging n none).getD ((tget s.rel.stored n none).getD (s.serviceTrim n))
  rw [hmerged]
  cases tget s.rel.staging n none <;> rfl

/-- What a record in the logbook leaves of the trim table. -/
theorem Logged.trim {s t : State} (h : Logged s t) : (∀ n, t.trimStored n = s.trimStored n) ∧ (∀ n, t.trimNow n = s.trimNow n) ∧
    t.rel.staging = s.rel.staging ∧ t.rel.storedOrigin = s.rel.storedOrigin ∧ t.rel.provWrites = s.rel.provWrites := by
  rw [h.rest]
  exact ⟨fun n => rfl, fun n => rfl, rfl, rfl, rfl⟩

/-! ### O55 -/

/-- Settles O55: a staged word by the table it is written to, a commit by the words laid over the stored ones. -/
theorem trimWordsAreStaged : Obligations.TrimWordsAreStaged := by
  unfold Obligations.TrimWordsAreStaged
  refine ⟨fun s w v h => ⟨fun hp => ?_, fun hp hn => ?_, fun hp hn => ⟨_, exec_of_permits h rfl, ?_⟩⟩, fun s w v h =>
    ⟨fun hv => ?_, fun hv hout => ?_, fun hv hin hwf => ⟨_, exec_of_permits h rfl, ?_⟩⟩⟩
  · rw [exec_of_permits h rfl, State.trimWrite_of_package _ _ hp]
  · rw [exec_of_permits h rfl, State.trimWrite_of_structural _ hp hn]
    rfl
  · rw [State.trimWrite_of_calibration _ hp hn, BitVec.ofNat_toNat, BitVec.setWidth_eq]
    refine ⟨fun n => ?_, fun n => rfl, fun n => rfl⟩
    show (tget (tput s.rel.staging (s.trimSel w) (some v) none) n none).getD (s.trimStored n) = _
    rw [tget_tput]
    split
    · rfl
    · rfl
  · rw [exec_of_permits h rfl, if_neg (Bool.eq_false_iff.mp hv)]
  · rw [exec_of_permits h rfl, if_pos hv, State.trimCommit_of_outside hout]
    rfl
  · rw [if_pos hv, State.trimCommit_of_inside hin]
    obtain ⟨hstored, hnow, hstaging, horigin, hwrites⟩ := (s.trimMerged.log_logged 0x80 0 0 0 (trimHash s.trimStaged)).trim
    exact ⟨fun n => (hstored n).trans (State.trimStored_trimMerged hwf n), hnow, hstaging, horigin, hwrites,
      fun hroom => State.log_of_room (s := s.trimMerged) 0x80 0 0 0 (trimHash s.trimStaged) hroom⟩

end Sys2Proof.Machine

end

section

/-! Attestation reports and the wipe (chapter 18): O57. -/

namespace Sys2Proof.Machine

open Sys2Proof Sys2Proof.Safety

/-! ### A request for a report -/

section

variable {s : State} {w : Writer} {v : Word} (h : permits s w 0x780120 v.toNat = true)

include h

theorem exec_attestationRequest_of_clear (hv : flag v 0 = false) : exec (.attestationRequest w v) s = .next s := by
  rw [exec_of_permits h rfl, if_neg (Bool.eq_false_iff.mp hv)]

theorem exec_attestationRequest_of_set (hv : flag v 0 = true) :
    exec (.attestationRequest w v) s = .next (s.attest (writerNo w)) := by
  rw [exec_of_permits h rfl, if_pos hv]

end

section

variable {s : State} {p : Nat}

theorem State.attest_of_reserve (h : sigReserve ≤ s.fw.sigUsed) : s.attest p = s.atSet p 0x0C10 false := by
  unfold State.attest
  rw [if_pos (.inl h), State.attestNow, if_pos h]

theorem State.attest_of_due (hwaiting : s.fw.atWaiting = []) (hroom : s.attestRoom = true) :
    s.attest p = s.attestNow p := if_pos (.inr ⟨hwaiting, hroom⟩)

theorem State.attest_of_late (h : s.fw.sigUsed < sigReserve) (hp : p ∉ s.fw.atWaiting)
    (hlate : s.fw.atWaiting ≠ [] ∨ s.attestRoom = false) : s.attest p = { s with fw := { s.fw with
      atWaiting := s.fw.atWaiting ++ [p], atReady := s.fw.atReady.filter fun q => q != p } } := by
  have hnot : ¬(sigReserve ≤ s.fw.sigUsed ∨ (s.fw.atWaiting = [] ∧ s.attestRoom = true)) := by
    rintro (hfull | ⟨hnone, hroom⟩)
    · exact absurd h (Nat.not_lt.mpr hfull)
    · rcases hlate with hne | hclosed
      · exact hne hnone
      · simp [hroom] at hclosed
  unfold State.attest
  rw [if_neg hnot, if_neg (by simpa using hp)]

theorem State.atStatus_atSet (st : Nat) (ready : Bool) : tget (s.atSet p st ready).fw.atStatus p 0 = st := by
  unfold State.atSet
  exact tget_tput_same ..

theorem State.notMem_atSet (st : Nat) : p ∉ (s.atSet p st false).fw.atReady := fun h => by
  have hmem : p ∈ s.fw.atReady.filter fun q => q != p := h
  simp at hmem

theorem State.sign_value (m : List Byte) (h : s.fw.sigUsed < sigBudget) :
    (s.sign m).2 = some (Config.hssSign s.fw.keyGen s.fw.sigUsed m) := by
  unfold State.sign
  rw [if_neg (Nat.not_le.mpr h)]

/-- The message a report's signature covers. -/
def State.atMessage (s : State) (p : Nat) : List Byte := [0x55, 0x5A, 0x41, 0x54] ++ sha256 (s.atBody p (s.nonce p))

/-- A requester's report stands, its request served. -/
def State.reported (t : State) (p : Nat) (report : List Byte) : State :=
  { t with fw := { t.fw with
    atReport := tput t.fw.atReport p report []
    atServed := (t.lifeTime :: t.fw.atServed).take 4 } }.atSet p 0 true

theorem State.attestNow_of_signed {t : State} {sig : List Byte} (h : s.fw.sigUsed < sigReserve)
    (hsign : s.sign (s.atMessage p) = (t, some sig)) : s.attestNow p = t.reported p (s.atBody p (s.nonce p) ++ sig) := by
  unfold State.attestNow
  rw [State.atMessage] at hsign
  rw [if_neg (Nat.not_le.mpr h)]
  dsimp only
  rw [hsign]
  rfl

theorem State.reported_frame (t : State) (p : Nat) (report : List Byte) : tget (t.reported p report).fw.atStatus p 0 = 0 ∧
    p ∈ (t.reported p report).fw.atReady ∧ (t.reported p report).fw.sigUsed = t.fw.sigUsed ∧
    tget (t.reported p report).fw.atReport p [] = report ∧
    ∀ q, q ≠ p → tget (t.reported p report).fw.atReport q [] = tget t.fw.atReport q [] :=
  ⟨State.atStatus_atSet .., (mem_sput ..).mpr (.inl rfl), rfl, tget_tput_same .., fun _ hq => tget_tput_other _ _ _ _ _ _ hq⟩

/-- A report made: its body and the signature over it, one signature more spent, every other report as it was. -/
theorem State.attestNow_report (h : s.fw.sigUsed < sigReserve) :
    tget (s.attestNow p).fw.atStatus p 0 = 0 ∧ p ∈ (s.attestNow p).fw.atReady ∧ (s.attestNow p).fw.sigUsed = s.fw.sigUsed + 1 ∧
    tget (s.attestNow p).fw.atReport p [] =
      s.atBody p (s.nonce p) ++ Config.hssSign s.fw.keyGen s.fw.sigUsed (s.atMessage p) ∧
    ∀ q, q ≠ p → tget (s.attestNow p).fw.atReport q [] = tget s.fw.atReport q [] := by
  have hbudget : s.fw.sigUsed < sigBudget := h.trans (by decide)
  have hvalue := State.sign_value (s.atMessage p) hbudget
  have hused := (State.sign_of_budget (s.atMessage p) hbudget).2
  have hreports := congrArg Firmware.atReport (Firmware.eq_of_unsigned_eq (s.sign_fw_unsigned (s.atMessage p)))
  obtain ⟨hstatus, hready, hsig, hreport, hothers⟩ := (s.sign (s.atMessage p)).1.reported_frame p
    (s.atBody p (s.nonce p) ++ Config.hssSign s.fw.keyGen s.fw.sigUsed (s.atMessage p))
  rw [State.attestNow_of_signed h (Prod.ext rfl hvalue)]
  exact ⟨hstatus, hready, hsig.trans hused, hreport, fun q hq => (hothers q hq).trans (congrArg (tget · q []) hreports)⟩

end

/-! ### The wipe -/

section

variable {s : State} {w : Writer} {v : Word} (h : permits s w 0x780200 v.toNat = true)

include h

theorem exec_wipeStart_of_clear (hv : flag v 0 = false) : exec (.wipeStart w v) s = .next s := by
  rw [exec_of_permits h rfl, if_neg (Bool.eq_false_iff.mp hv)]

theorem exec_wipeStart_of_due (hv : flag v 0 = true) (hdue : s.activationDue = true) :
    exec (.wipeStart w v) s = .next { s with fw := { s.fw with heldWipe := true } } := by
  rw [exec_of_permits h rfl, if_pos hv, State.askWipe, if_pos hdue]

theorem exec_wipeStart_of_quiet (hv : flag v 0 = true) (hquiet : s.activationDue = false) :
    exec (.wipeStart w v) s = .next s.wipe := by
  rw [exec_of_permits h rfl, if_pos hv, State.askWipe, if_neg (Bool.eq_false_iff.mp hquiet)]

end

section

variable (s : State)

theorem State.wipe_of_bad {s : State} (h : s.wipeBad = true) :
    s.wipe = { s with fw := { s.fw with wipeStatus := 0x0C20 } } := if_pos h

theorem State.wipe_of_clean {s : State} (h : s.wipeBad = false) : s.wipe = s.wipeState.wipeReport :=
  if_neg (Bool.eq_false_iff.mp h)

/-- The wipe counted. -/
def State.wipeCounted : State := { s with fw := { s.fw with wipeCount := s.fw.wipeCount + 1 } }

/-- The wipe's report signed, and its record written. -/
def State.wipeLogged : State :=
  let hash := sha256 s.wipeCounted.wipeBody
  (s.wipeCounted.sign ([0x55, 0x5A, 0x57, 0x50] ++ hash)).1.log 0x91 0 0 0
    ((s.fw.wipeCount + 1) % 2 ^ 32 + 2 ^ 32 * s.servedCount + 2 ^ 256 * ofBytes hash)

theorem State.wipeLogged_logged : Logged s.wipeCounted s.wipeLogged := by
  unfold State.wipeLogged
  exact (State.sign_logged ..).trans (State.log_logged ..)

theorem State.wipeReport_eq : ∃ (report : List Byte) (last : Option (BitVec 1024)), s.wipeReport =
    { s.wipeLogged with fw := { s.wipeLogged.fw with wipeReport := report, wipeState := 2, wipeStatus := 0, lastWipe := last } } := by
  unfold State.wipeReport State.wipeLogged State.wipeCounted
  dsimp only
  generalize State.sign _ _ = p
  obtain ⟨t, sig⟩ := p
  exact ⟨_, _, rfl⟩

/-- What a record in the logbook leaves of the parts that a wipe speaks of. -/
theorem Logged.wiped {s t : State} (h : Logged s t) : t.kv = s.kv ∧ t.sched = s.sched ∧
    t.fw = { s.fw with sigUsed := t.fw.sigUsed } ∧ t.rel.trim = s.rel.trim ∧ t.rel.stored = s.rel.stored := by
  rw [h.rest]
  exact ⟨rfl, rfl, rfl, rfl, rfl⟩

theorem State.reg_wipeState_wiped {k : Nat} (h : wipedReg k = true) : s.wipeState.reg k = regReset (k % 67108864) :=
  tget_none _ k _ fun e he hk => by
    have hkept := (List.mem_filter.mp he).2
    rw [hk, h] at hkept
    simp at hkept

theorem State.reg_wipeState_kept {k : Nat} (h : wipedReg k = false) : s.wipeState.reg k = s.reg k := by
  show tget (s.regs.vals.filter fun e => !wipedReg e.1) k _ = tget s.regs.vals k _
  induction s.regs.vals with
  | nil => rfl
  | cons e l ih =>
    obtain ⟨j, x⟩ := e
    by_cases hj : j = k
    · simp [hj, h, tget]
    · cases hw : wipedReg j <;> simp [hw, tget, hj, ih]

end

/-- A wipe that is not refused. -/
theorem State.wipe_wiped {s : State} (h : s.wipeBad = false) : s.wipe.memory = State.reset.memory ∧ s.wipe.kv = State.reset.kv ∧
    s.wipe.hosts.ctxs = [] ∧ s.wipe.links.groups = [] ∧
    (∀ k, wipedReg k = true → s.wipe.reg k = regReset (k % 67108864)) ∧
    (∀ k, wipedReg k = false → k ≠ 0x48 → s.wipe.reg k = s.reg k) ∧
    s.wipe.fw.wipeState = 2 ∧ s.wipe.fw.wipeStatus = 0 ∧ s.wipe.fw.wipeCount = s.fw.wipeCount + 1 ∧
    s.wipe.fw.slots = s.fw.slots ∧ s.wipe.fw.fuses = s.fw.fuses ∧ s.wipe.fw.keyGen = s.fw.keyGen ∧ s.wipe.fw.cert = s.fw.cert ∧
    s.wipe.rel.trim = s.rel.trim ∧ s.wipe.rel.stored = s.rel.stored ∧ s.wipe.sched = s.sched := by
  obtain ⟨report, last, heq⟩ := s.wipeState.wipeReport_eq
  have hu := s.wipeState.wipeLogged_logged
  rw [State.wipe_of_clean h, heq]
  generalize s.wipeState.wipeLogged = u at hu
  obtain ⟨hkv, hsched, hfw, htrim, hstored⟩ := hu.wiped
  have hreg : ∀ k, k ≠ 0x48 → u.reg k = s.wipeState.reg k := hu.reg
  refine ⟨hu.memory, hkv, hu.ctxs, congrArg (·.groups) hu.links, fun k hk => ?_, fun k hk hne => ?_, rfl, rfl,
    (congrArg Firmware.wipeCount hfw :), (congrArg Firmware.slots hfw :), (congrArg Firmware.fuses hfw :),
    (congrArg Firmware.keyGen hfw :), (congrArg Firmware.cert hfw :), htrim, hstored, hsched⟩
  · have hne : k ≠ 0x48 := fun hk' => by
      rw [hk'] at hk
      exact absurd hk (by decide)
    exact (hreg k hne).trans (s.reg_wipeState_wiped hk)
  · exact (hreg k hne).trans (s.reg_wipeState_kept hk)

/-- Settles O57: a report by `State.attestNow_report`, a wipe by `State.wipe_wiped`. -/
theorem reportsAndWipes : Obligations.ReportsAndWipes := by
  unfold Obligations.ReportsAndWipes
  refine ⟨fun s w v h => ?_, fun s w v h => ⟨fun hv => exec_wipeStart_of_clear h hv, fun hv hdue => exec_wipeStart_of_due h hv hdue,
    fun hv hquiet hbad => ?_, fun hv hquiet hclean => ⟨_, exec_wipeStart_of_quiet h hv hquiet, State.wipe_wiped hclean⟩⟩⟩
  · intro p body
    refine ⟨fun hv => exec_attestationRequest_of_clear h hv, fun hv hfull => ⟨_, exec_attestationRequest_of_set h hv, ?_⟩,
      fun hv hused hp hlate => ?_, fun hv hused hnone hroom => ⟨_, exec_attestationRequest_of_set h hv, ?_⟩⟩
    · rw [State.attest_of_reserve hfull]
      exact ⟨State.atStatus_atSet .., State.notMem_atSet _, rfl⟩
    · rw [exec_attestationRequest_of_set h hv, State.attest_of_late hused hp hlate]
    · rw [State.attest_of_due hnone hroom]
      exact State.attestNow_report hused
  · rw [exec_wipeStart_of_quiet h hv hquiet, State.wipe_of_bad hbad]

end Sys2Proof.Machine

end

section

/-! From a reset to GO (chapter 19): O58. -/

namespace Sys2Proof.Machine

open Sys2Proof Sys2Proof.Safety

/-! ### The module reset -/

/-- A table that lists a value for each of some keys. -/
theorem tget_map_key {α : Type} (f : Nat → α) (d : α) {k : Nat} : ∀ l : List Nat, k ∈ l → tget (l.map fun n => (n, f n)) k d = f k := by
  intro l
  induction l with
  | nil => exact fun h => absurd h List.not_mem_nil
  | cons n l ih =>
    intro h
    by_cases hn : n = k
    · rw [List.map_cons, tget, if_pos hn, hn]
    · rw [List.map_cons, tget, if_neg hn]
      exact ih ((List.mem_cons.mp h).resolve_left (Ne.symm hn))

theorem State.port_moduleReset (s : State) (st : Nat) {p : Nat} (h : p < s.module.dies) :
    (s.moduleReset st).port p = HostPort.inMarks :=
  tget_map_key (fun _ => HostPort.inMarks) HostPort.empty _ (List.mem_range.mpr h)

/-! ### Out of MARKS -/

section

variable {s : State}

theorem State.leaveMarks_of_stays (h : s.module.phase ≠ .marks ∨ s.module.resetLow = true ∨ s.module.busInRange = false ∨
    s.module.holdHot = true) : s.leaveMarks = s := by
  unfold State.leaveMarks
  rw [if_neg]
  rintro ⟨hphase, hlow, hbus, hhot⟩
  rcases h with h | h | h | h
  · exact h hphase
  · simp [h] at hlow
  · simp [h] at hbus
  · simp [h] at hhot

theorem State.leaveMarks_of_goes (hphase : s.module.phase = .marks) (hlow : s.module.resetLow = false)
    (hbus : s.module.busInRange = true) (hhot : s.module.holdHot = false) : s.leaveMarks = s.beginSet := by
  unfold State.leaveMarks
  rw [if_pos ⟨hphase, by simp [hlow], hbus, by simp [hhot]⟩]

/-- SET begun: its phase, and its first code. -/
def State.setBegun (s : State) : State := { s with module := { s.module with phase := .set, setCode := 1 } }

theorem State.beginSet_of_badStraps (h : fld s.module.straps 15 10 ≠ 0 ∨ s.module.dies ≤ fld s.module.straps 3 2) :
    s.beginSet = s.setFail 0x0D02 := by
  unfold State.beginSet
  exact if_pos h

theorem State.beginSet_of_straps (hzero : fld s.module.straps 15 10 = 0) (hport : fld s.module.straps 3 2 < s.module.dies) :
    s.beginSet = if flag s.module.straps 4 then s.setBegun.recoveryBoot
      else if trimOutside s.trimNow then s.setBegun.servicePhase.setFail 0x0D05 else s.setBegun.servicePhase.slotCheck := by
  unfold State.beginSet
  refine if_neg ?_
  rintro (h | h)
  · exact h hzero
  · exact absurd hport (Nat.not_lt.mpr h)

theorem State.servicePhase_of_none (h : s.fw.trial = none) : s.servicePhase = s := by
  unfold State.servicePhase
  rw [h]

/-- A slot's image is being loaded. -/
def State.bootFrom (s : State) (n : Nat) : State :=
  { s with
    fw := { s.fw with booting := n }
    module := { s.module with setCode := 5, railsOn := true } }

theorem State.slotCheck_of_none (h : s.fw.trial = none) : s.slotCheck =
    if s.slotPasses s.fw.active then s.bootFrom s.fw.active
    else if s.slotPasses (1 - s.fw.active) then s.bootFrom (1 - s.fw.active) else s.setFail 0x0C0E := by
  unfold State.slotCheck
  split
  · next n hn => simp [h] at hn
  · rfl

/-- Whether a slot passes is a fact of the firmware record. -/
theorem State.slotPasses_of_fw {s t : State} (h : t.fw = s.fw) (n : Nat) : t.slotPasses n = s.slotPasses n := by
  unfold State.slotPasses State.fwSlot
  rw [h]

theorem State.servicePhase_phase (s : State) : s.servicePhase.module = s.module :=
  (State.servicePhase_keeps (P := [.hosts, .regs, .rel, .fw]) s (Keeps.refl s)
    (by decide) (by decide) (by decide) (by decide)).parts .module (by decide)

theorem State.slotCheck_phase (h : s.module.phase = .set) : s.slotCheck.module.phase = .set := by
  unfold State.slotCheck
  dsimp only
  split
  · split
    · exact h
    · split
      · exact h
      · rfl
  · split
    · exact h
    · split
      · exact h
      · rfl

theorem State.beginSet_phase (s : State) : s.beginSet.module.phase ≠ .marks := by
  have hservice : s.setBegun.servicePhase.module.phase = .set := by
    rw [State.servicePhase_phase]
    rfl
  by_cases hbad : fld s.module.straps 15 10 ≠ 0 ∨ s.module.dies ≤ fld s.module.straps 3 2
  · rw [State.beginSet_of_badStraps hbad]
    exact nofun
  · rw [not_or, not_not, Nat.not_le] at hbad
    rw [State.beginSet_of_straps hbad.1 hbad.2]
    split
    · exact nofun
    · split
      · exact nofun
      · rw [State.slotCheck_phase hservice]
        exact nofun

end

/-! ### RESET_RELEASE -/

/-- The straps sampled as the reset line rises. -/
def State.released (s : State) (straps : BitVec 16) : State :=
  { s with module := { s.module with straps := straps, resetLow := false } }

section

variable {s : State} {straps : BitVec 16}

theorem exec_resetRelease_of_not (h : s.module.phase ≠ .marks ∨ s.module.resetLow = false) :
    exec (.resetRelease straps) s = .next s := by
  show execResetRelease straps s = _
  unfold execResetRelease
  rw [if_pos (h.imp id fun hl => by simp [hl])]

variable (hphase : s.module.phase = .marks) (hlow : s.module.resetLow = true)

include hphase hlow

theorem exec_resetRelease_of_marks : exec (.resetRelease straps) s = .next (s.released straps).leaveMarks := by
  show execResetRelease straps s = _
  unfold execResetRelease
  rw [if_neg (by simp [hphase, hlow])]
  rfl

theorem exec_resetRelease_of_held (h : s.module.busInRange = false ∨ s.module.holdHot = true) :
    exec (.resetRelease straps) s = .next (s.released straps) := by
  rw [exec_resetRelease_of_marks hphase hlow, State.leaveMarks_of_stays (s := s.released straps) (.inr (.inr h))]

variable (hbus : s.module.busInRange = true) (hhot : s.module.holdHot = false)

include hbus hhot

theorem exec_resetRelease_of_free : exec (.resetRelease straps) s = .next (s.released straps).beginSet := by
  rw [exec_resetRelease_of_marks hphase hlow, State.leaveMarks_of_goes (s := s.released straps) hphase rfl hbus hhot]

theorem exec_resetRelease_of_badStraps (h : fld straps 15 10 ≠ 0 ∨ s.module.dies ≤ fld straps 3 2) :
    exec (.resetRelease straps) s = .next ((s.released straps).setFail 0x0D02) := by
  rw [exec_resetRelease_of_free hphase hlow hbus hhot, State.beginSet_of_badStraps (s := s.released straps) h]

variable (hzero : fld straps 15 10 = 0) (hport : fld straps 3 2 < s.module.dies)

include hzero hport

theorem exec_resetRelease_of_recovery (h : flag straps 4 = true) :
    exec (.resetRelease straps) s = .next (s.released straps).setBegun.recoveryBoot := by
  rw [exec_resetRelease_of_free hphase hlow hbus hhot, State.beginSet_of_straps (s := s.released straps) hzero hport]
  exact congrArg Host.Outcome.next (if_pos h)

theorem exec_resetRelease_of_boot (h : flag straps 4 = false) (htrial : s.fw.trial = none) : exec (.resetRelease straps) s =
    .next (if trimOutside s.trimNow then (s.released straps).setBegun.setFail 0x0D05 else (s.released straps).setBegun.slotCheck) := by
  rw [exec_resetRelease_of_free hphase hlow hbus hhot, State.beginSet_of_straps (s := s.released straps) hzero hport,
    State.servicePhase_of_none (s := (s.released straps).setBegun) htrial]
  exact congrArg Host.Outcome.next (if_neg (Bool.eq_false_iff.mp h))

end

/-! ### The end of SET -/

section

variable {s : State}

theorem exec_setComplete_of_not (h : s.module.phase ≠ .set ∨ s.module.setCode ≠ 5) (l : List (Fin 81)) :
    exec (.setComplete l) s = .next s := congrArg Host.Outcome.next (if_pos h)

theorem exec_setLimitExpiry_of_not (h : s.module.phase ≠ .set ∨ s.module.setCode ≠ 5) : exec .setLimitExpiry s = .next s :=
  congrArg Host.Outcome.next (if_pos h)

variable (hphase : s.module.phase = .set) (hcode : s.module.setCode = 5)

include hphase hcode

omit hcode in
theorem State.setFail_of_set (st : Nat) : s.setFail st = { s with module := { s.module with setCode := 0xE, status := st } } := by
  unfold State.setFail
  rw [← hphase]

theorem exec_setLimitExpiry_of_loading : exec .setLimitExpiry s =
    .next (if s.fw.trial = some s.fw.booting then s.rollBack else s.setFail 0x0D06) := by
  refine congrArg Host.Outcome.next (if_neg ?_)
  rintro (h | h)
  · exact h hphase
  · exact h hcode

theorem setLimitExpiry_rollsBack (htrial : s.fw.trial = some s.fw.booting) (hpasses : s.slotPasses s.fw.active = true) :
    ∃ t, exec .setLimitExpiry s = .next t ∧ t.fw.trial = none ∧ t.fw.booting = s.fw.active ∧ t.fw.status = 0x0C0C ∧
      t.module.phase = .set ∧ t.module.setCode = 5 := by
  refine ⟨s.rollBack, ?_, ?_⟩
  · rw [exec_setLimitExpiry_of_loading hphase hcode, if_pos htrial]
  · have hpasses' : ({ s with fw := { s.fw with trial := none, service := false } } : State).slotPasses s.fw.active = true := by
      unfold State.slotPasses at hpasses ⊢
      exact hpasses
    unfold State.rollBack
    rw [State.slotCheck_of_none (s := { s with fw := { s.fw with trial := none, service := false } }) rfl, if_pos hpasses']
    exact ⟨rfl, rfl, rfl, hphase, rfl⟩

end

/-- The ports up and the slot that booted active, before the record of the boot. -/
def State.booted (s : State) : State :=
  { s.portsUp with fw := { s.fw with active := s.fw.booting, target := 1 - s.fw.booting } }

theorem State.bootedSlot_of_none {s : State} (h : s.fw.trial = none) : s.portsUp.bootedSlot = s.booted := by
  unfold State.bootedSlot
  refine if_neg fun hb => ?_
  have hb' : s.fw.trial = some s.fw.booting := hb
  simp [h] at hb'

/-- The record of a boot. -/
def State.bootData (s : State) : Nat := hdVersion (s.fwSlot s.fw.booting).header + 2 ^ 32 * s.module.siteEpoch

theorem exec_setComplete_of_whole {s : State} (hphase : s.module.phase = .set) (hcode : s.module.setCode = 5)
    (hmissing : s.rel.missing = []) (htrial : s.fw.trial = none) : exec (.setComplete []) s =
      .next { s.booted.log 1 0 0 0 s.bootData with
        module := { (s.booted.log 1 0 0 0 s.bootData).module with phase := .go, setCode := 6 } } := by
  have hfill : s.fillRanks = s := by
    unfold State.fillRanks
    rw [hmissing]
    rfl
  show execSetComplete [] s = _
  unfold execSetComplete
  rw [if_neg (by simp [hphase, hcode])]
  dsimp only
  rw [List.foldl_nil, hfill, State.bootedSlot_of_none htrial]
  rfl

/-- A record that brings no checkpoint with it. -/
theorem State.log_of_plain {s : State} {ty : Nat} (hty : ty ≠ 0xA0 ∧ ty ≠ 0xA1 ∧ ty ≠ 0x90 ∧ ty ≠ 0x91) (data : Nat)
    (hroom : s.rel.book.length < bookSize) (hsince : s.rel.sinceCheckpoint < 1023) : (s.log ty 0 0 0 data).rel.book =
      s.rel.book ++ [BitVec.ofNat 1024 (recordOf s ty 0 0 0 data)] := by
  have hrel := State.appendRecord_of_room ty 0 0 0 data hroom
  unfold State.log
  dsimp only
  rw [if_neg, hrel]
  rw [hrel]
  dsimp only
  omega

theorem State.port_booted (s : State) {p : Nat} (h : p < s.module.dies) :
    (s.booted.port p).mode = .up ∧ (s.booted.port p).cycles = 0 := by
  have hport : s.booted.port p = HostPort.empty.trained (s.draws + p) :=
    tget_map_key (fun n => HostPort.empty.trained (s.draws + n)) HostPort.empty _ (List.mem_range.mpr h)
  rw [hport]
  exact ⟨rfl, rfl⟩

theorem setComplete_entersGo {s : State} (hphase : s.module.phase = .set) (hcode : s.module.setCode = 5)
    (hmissing : s.rel.missing = []) (htrial : s.fw.trial = none) (hroom : s.rel.book.length < bookSize)
    (hsince : s.rel.sinceCheckpoint < 1023) :
    ∃ t, exec (.setComplete []) s = .next t ∧ t.module.phase = .go ∧ t.module.setCode = 6 ∧ t.fw.active = s.fw.booting ∧
      (∀ p, p < s.module.dies → (t.port p).mode = .up ∧ (t.port p).cycles = 0) ∧
      t.rel.book = s.rel.book ++ [BitVec.ofNat 1024 (recordOf s 1 0 0 0
        (hdVersion (s.fwSlot s.fw.booting).header + 2 ^ 32 * s.module.siteEpoch))] := by
  have hlogged := s.booted.log_logged 1 0 0 0 s.bootData
  have hbook := State.log_of_plain (s := s.booted) (ty := 1) (by decide) s.bootData hroom hsince
  rw [exec_setComplete_of_whole hphase hcode hmissing htrial]
  generalize s.booted.log 1 0 0 0 s.bootData = u at hlogged hbook
  refine ⟨_, rfl, rfl, rfl, ?_, fun p hp => ?_, hbook⟩
  · show u.fw.active = _
    rw [hlogged.wiped.2.2.1]
    rfl
  · obtain ⟨hup, hcycles⟩ := s.port_booted hp
    have hport := hlogged.port p
    exact ⟨(congrArg HostPort.mode hport).trans hup, (congrArg HostPort.cycles hport).trans hcycles⟩

theorem exec_setStatusAlternate_eq (s : State) : exec .setStatusAlternate s = .next { s with module := { s.module with
    setCode := if s.module.phase = .set then
      (if s.module.setCode = 0xE then 0xF else if s.module.setCode = 0xF then 0xE else s.module.setCode) else s.module.setCode } } := by
  show execSetStatusAlternate s = _
  unfold execSetStatusAlternate
  dsimp only
  by_cases hphase : s.module.phase = .set
  · rw [if_pos hphase]
    by_cases he : s.module.setCode = 0xE
    · rw [if_pos ⟨hphase, .inl he⟩, if_pos he, if_pos he]
    · by_cases hf : s.module.setCode = 0xF
      · rw [if_pos ⟨hphase, .inr hf⟩, if_neg he, if_neg he, if_pos hf]
      · rw [if_neg fun h => h.2.elim he hf, if_neg he, if_neg hf]
  · rw [if_neg fun h => hphase h.1, if_neg hphase]

/-- Settles O58: the reset by its definition, each way out of MARKS and of SET by the lemma of its branch. -/
theorem moduleResetsAndStarts : Obligations.ModuleResetsAndStarts := by
  unfold Obligations.ModuleResetsAndStarts
  refine ⟨⟨fun s => ⟨rfl, rfl⟩, fun s w v h => exec_of_permits h rfl, fun s st => ?_⟩, fun s straps => ?_, fun s => ?_,
    fun s hphase hcode => ⟨fun hm ht hr hs => setComplete_entersGo hphase hcode hm ht hr hs, fun ht => ?_,
      fun ht hp => setLimitExpiry_rollsBack hphase hcode ht hp⟩,
    fun s h => ⟨exec_setLimitExpiry_of_not h, exec_setComplete_of_not h⟩, fun s => ⟨_, exec_setStatusAlternate_eq s, rfl, rfl⟩⟩
  · intro t
    refine ⟨rfl, rfl, rfl, rfl, rfl, rfl, rfl, rfl, rfl, rfl, rfl, rfl, rfl, rfl, rfl, fun p hp => ?_, fun n => rfl, rfl, rfl, rfl,
      rfl, rfl, rfl, rfl, rfl, rfl, rfl, rfl⟩
    rw [s.port_moduleReset st hp]
    rfl
  · intro u stop
    refine ⟨exec_resetRelease_of_not, fun hphase hlow => ⟨exec_resetRelease_of_held hphase hlow, fun hbus hhot =>
      ⟨exec_resetRelease_of_badStraps hphase hlow hbus hhot, fun hzero hport =>
        ⟨exec_resetRelease_of_recovery hphase hlow hbus hhot hzero hport, fun hflag htrial => ?_⟩⟩⟩⟩
    have hboot := exec_resetRelease_of_boot hphase hlow hbus hhot hzero hport hflag htrial
    have hpasses : ∀ n, (s.released straps).setBegun.slotPasses n = s.slotPasses n := State.slotPasses_of_fw rfl
    have hactive : (s.released straps).setBegun.fw.active = s.fw.active := rfl
    have hcheck := State.slotCheck_of_none (s := (s.released straps).setBegun) htrial
    rw [hactive] at hcheck
    refine ⟨fun hout => ?_, fun hin => ⟨fun ha => ?_, fun ha hb => ?_⟩⟩
    · rw [hboot, if_pos hout]
      rfl
    · rw [hboot, if_neg (Bool.eq_false_iff.mp hin), hcheck, if_pos ((hpasses _).trans ha)]
      rfl
    · rw [hboot, if_neg (Bool.eq_false_iff.mp hin), hcheck, if_neg (Bool.eq_false_iff.mp ((hpasses _).trans ha)),
        if_neg (Bool.eq_false_iff.mp ((hpasses _).trans hb))]
      rfl
  · refine ⟨_, rfl, fun h => ?_, fun hphase hlow hhot => ?_⟩
    · refine State.leaveMarks_of_stays (s := { s with module := { s.module with busInRange := true, busOut := false } }) ?_
      exact h.imp id fun h => h.imp id .inr
    · rw [State.leaveMarks_of_goes (s := { s with module := { s.module with busInRange := true, busOut := false } }) hphase hlow rfl hhot]
      exact State.beginSet_phase _
  · rw [exec_setLimitExpiry_of_loading hphase hcode, if_neg ht, State.setFail_of_set hphase]

end Sys2Proof.Machine

end

section

/-! Power, coolant and the module's own events (chapter 19): O59. -/

namespace Sys2Proof.Machine

open Sys2Proof Sys2Proof.Safety

/-! ### What leaves the host ports' links as they are -/

/-- Every host port is in the mode it was in. -/
structure SameModes (s t : State) : Prop where
  mode : ∀ p, (t.port p).mode = (s.port p).mode

namespace SameModes

theorem refl (s : State) : SameModes s s := ⟨fun _ => rfl⟩

theorem trans {s t u : State} (h : SameModes s t) (g : SameModes t u) : SameModes s u := ⟨fun p => (g.mode p).trans (h.mode p)⟩

theorem foldl {α : Type} (l : List α) (f : State → α → State) (s : State) (hf : ∀ u a, SameModes u (f u a)) :
    SameModes s (l.foldl f s) :=
  foldl_keeps (SameModes s) l f s (refl s) fun u a hu => hu.trans (hf u a)

theorem iter (n : Nat) (f : Nat → State → State) (s : State) (hf : ∀ i u, SameModes u (f i u)) : SameModes s (iter n f s) :=
  iter_keeps (SameModes s) n f s (refl s) fun i u hu => hu.trans (hf i u)

theorem of_ports {s t : State} (h : t.hosts.ports = s.hosts.ports) : SameModes s t :=
  ⟨fun p => by rw [State.port, h, State.port]⟩

theorem of_parts {P : List Part} {s t : State} (h : Keeps P s t) (hhosts : Part.hosts ∉ P) : SameModes s t :=
  .of_ports (congrArg Hosts.ports (h.parts .hosts hhosts))

theorem of_logged {s t : State} (h : Logged s t) : SameModes s t :=
  ⟨fun p => (congrArg HostPort.mode (h.port p) :)⟩

end SameModes

section

variable (s : State)

theorem State.setCtx_sameModes (n : Nat) (v : Ctx) : SameModes s (s.setCtx n v) := .of_ports rfl

theorem State.setRing_sameModes (cx r : Nat) (v : Ring) : SameModes s (s.setRing cx r v) := s.setCtx_sameModes ..

theorem State.hpEvent_sameModes (p n : Nat) : SameModes s (s.hpEvent p n) :=
  SameModes.trans (t := s.orReg (0x300108 + 0x100 * p) (2 ^ n)) (.of_ports rfl) (.of_logged (State.msix_logged ..))

theorem State.faultCx_sameModes (cx status : Nat) : SameModes s (s.faultCx cx status) := by
  unfold State.faultCx
  dsimp only
  split
  · exact (s.setCtx_sameModes ..).trans (State.hpEvent_sameModes ..)
  · exact .refl s

theorem State.writeRecord_sameModes (cx r : Nat) (c : Cmd) : SameModes s (s.writeRecord cx r c) := by
  have hrec : SameModes s (s.recorded cx r c) := .of_ports (by rw [State.recorded_hosts]; rfl)
  rw [State.writeRecord_eq]
  split
  · exact (hrec.trans (State.faultCx_sameModes ..)).trans (.of_logged (State.interrupt_logged ..))
  · exact hrec

theorem State.flush_sameModes (cx r n : Nat) (s : State) : SameModes s (State.flush cx r n s) := by
  induction n generalizing s with
  | zero => exact .refl s
  | succ n ih =>
    unfold State.flush
    split
    · exact .refl s
    · split
      · exact (s.writeRecord_sameModes cx r _).trans (ih _)
      · exact .refl s

theorem State.finish_sameModes (id : CmdId) (status result : Nat) : SameModes s (s.finish id status result) := by
  unfold State.finish
  dsimp only
  generalize hu : s.modCmd id _ = u
  have hmod : SameModes s u := hu ▸ s.setRing_sameModes id.cx id.ring _
  have hsettle : SameModes s (u.settle id.cx id.ring) := hmod.trans (State.flush_sameModes ..)
  split
  · exact hsettle.trans (State.faultCx_sameModes ..)
  · exact hsettle

theorem State.endMessage_sameModes (cx gi : Nat) (m : Message) (status : Nat) (named : Bool) :
    SameModes s (s.endMessage cx gi m status named) :=
  .of_parts (State.endMessage_keeps (P := [.memory, .tiers, .kv, .links, .draws]) s cx gi m status named (Keeps.refl s) (by decide)
    (by decide) (by decide) (by decide) (by decide)) (by decide)

theorem State.setGroup_sameModes (cx gi : Nat) (g : Group) : SameModes s (s.setGroup cx gi g) :=
  .of_parts (State.setGroup_keeps (P := [.links]) s cx gi g (Keeps.refl s) (by decide)) (by decide)

theorem State.endGroup_sameModes (cx gi status : Nat) : SameModes s (s.endGroup cx gi status) := by
  have hmsgs : SameModes s ((s.group cx gi).msgs.foldl (fun t m => (t.endMessage cx gi m status false).finish m.cmd status
      (((t.cmd? m.cmd).map Cmd.result).getD 0)) s) :=
    SameModes.foldl _ _ s fun u m => (u.endMessage_sameModes cx gi m status false).trans (State.finish_sameModes ..)
  unfold State.endGroup
  dsimp only
  split
  · exact hmsgs
  · exact (hmsgs.trans (State.setGroup_sameModes ..)).trans (State.finish_sameModes ..)

theorem State.breakGroup_sameModes (cx gi status member mine : Nat) (source : Option (Nat × BatonWord)) :
    SameModes s (s.breakGroup cx gi status member mine source) := by
  unfold State.breakGroup
  dsimp only
  split
  · exact .refl s
  · refine ((SameModes.foldl _ _ s fun u p => ?_).trans (State.setGroup_sameModes ..)).trans (State.endGroup_sameModes ..)
    split
    · split
      · exact .refl u
      · exact .of_parts (State.sendOn_keeps (P := [.links]) u _ _ (Keeps.refl u) (by decide)) (by decide)
    · exact .of_parts (State.control_keeps (P := [.links]) u _ _ _ _ _ (Keeps.refl u) (by decide)) (by decide)

theorem State.linkLost_sameModes (n : Nat) : SameModes s (s.linkLost n) := by
  unfold State.linkLost
  dsimp only
  refine SameModes.trans (SameModes.foldl _ _ s fun u k => ?_) (SameModes.foldl _ _ _ fun u b => ?_)
  · split
    · split
      · exact u.breakGroup_sameModes ..
      · exact .refl u
    · exact .refl u
  · split
    · exact SameModes.trans
        (t := { u with links := { u.links with bulks := u.links.bulks.filter fun x => x != b } }) (.of_ports rfl)
        (State.finish_sameModes ..)
    · exact .refl u

theorem State.linkLeave_sameModes (n : Nat) (f : Link → Link) : SameModes s (s.linkLeave n f) := by
  unfold State.linkLeave
  dsimp only
  split
  · exact SameModes.trans (t := s.setLink n (f (s.link n))) (.of_ports rfl) (State.linkLost_sameModes ..)
  · exact .of_ports rfl

theorem State.checkWork_sameModes (id : CmdId) : SameModes s (s.checkWork id) := by
  unfold State.checkWork
  split
  · dsimp only
    split
    · exact s.finish_sameModes ..
    · exact .refl s
  · exact .refl s

theorem State.applyVals_sameModes (l : List (Nat × Nat)) : SameModes s (s.applyVals l) :=
  .of_parts (State.applyVals_keeps (P := [.regs]) s l (Keeps.refl s) (by decide)) (by decide)

theorem State.csetStatus_sameModes (n st : Nat) : SameModes s (s.csetStatus n st) := .of_ports rfl

theorem State.linkCtrl_sameModes (n : Nat) : SameModes s (s.linkCtrl n) := by
  unfold State.linkCtrl
  dsimp only
  split
  · split
    · exact .refl s
    · exact s.linkLeave_sameModes ..
  · split
    · split
      · exact .refl s
      · exact s.linkLeave_sameModes ..
    · split
      · exact .of_ports rfl
      · exact .refl s

theorem State.poCommit_sameModes (n : Nat) (l : List (Nat × Nat)) : SameModes s (s.poCommit n l).1 := by
  have hset : ∀ (u : State) (v : Playout), SameModes u (u.setPo n v) := fun u v => .of_ports rfl
  have hvals : SameModes s ((s.applyVals l).poReclamp n) := (s.applyVals_sameModes l).trans
    (.of_parts (State.poReclamp_keeps (P := [.regs]) _ n (Keeps.refl _) (by decide)) (by decide))
  unfold State.poCommit
  dsimp only
  split
  · split
    · exact hvals.trans (hset ..)
    · exact hvals
  · split
    · exact SameModes.trans (t := s.setPo n { s.po n with mode := .hold, status := 0x0901 }) (hset ..)
        (.of_logged (State.ownerEvent_logged ..))
    · exact hset ..

theorem State.applySet_sameModes (n : Nat) (l : List (Nat × Nat)) : SameModes s (s.applySet n l) := by
  have herr : ∀ w : Writer, SameModes s (s.cfgErr w 3 (landBase (n - 64))) := fun w =>
    .of_parts (State.cfgErr_keeps (P := [.regs]) s w 3 (landBase (n - 64)) (Keeps.refl s) (by decide)) (by decide)
  have hquota : SameModes s ((s.applyVals (l.filter fun e => !isQtWt e.1)).orReg 0x3048 1) :=
    (s.applyVals_sameModes _).trans (.of_ports rfl)
  have hsheet : SameModes s ((s.setReg 0x400014 0x0704).ownerEvent 6) :=
    SameModes.trans (t := s.setReg 0x400014 0x0704) (.of_ports rfl) (.of_logged (State.ownerEvent_logged ..))
  unfold State.applySet
  split
  · split
    · exact hquota.trans (State.csetStatus_sameModes ..)
    · exact s.applyVals_sameModes l
  · split
    · refine (s.applyVals_sameModes l).trans (SameModes.iter 36 _ _ fun i u => ?_)
      split
      · exact u.linkCtrl_sameModes i
      · exact .refl u
    · split
      · split
        · exact s.applyVals_sameModes l
        · exact hsheet.trans (State.csetStatus_sameModes ..)
      · split
        · dsimp only
          split
          · exact s.poCommit_sameModes ..
          · exact (s.poCommit_sameModes ..).trans (State.csetStatus_sameModes ..)
        · split
          · dsimp only
            split
            · exact s.applyVals_sameModes l
            · split
              · exact herr _
              · exact .refl s
          · exact s.applyVals_sameModes l

theorem State.commitPoint_sameModes (n : Nat) : SameModes s (s.commitPoint n) := by
  unfold State.commitPoint
  dsimp only
  split
  · exact .refl s
  · split
    · exact SameModes.trans (t := s.setCset n { s.cset n with pending := none }) (.of_ports rfl) (State.applySet_sameModes ..)
    · exact .refl s

theorem State.poIdle_sameModes (p : Nat) : SameModes s (s.poIdle p) := by
  let u := (s.setPo p (s.po p).idled).addSat (poBase p + 0x58) (s.po p).queue.length
  have hidle : s.poIdle p = ((u.poDropped (s.po p)).poStopped (s.po p)).commitPoint (4 + p) := rfl
  have hdropped : SameModes s (u.poDropped (s.po p)) := by
    unfold State.poDropped
    split
    · exact SameModes.trans (t := u) (.of_ports rfl) (State.checkWork_sameModes ..)
    · exact .of_ports rfl
  have hstopped : SameModes s ((u.poDropped (s.po p)).poStopped (s.po p)) := by
    unfold State.poStopped
    split
    · exact hdropped.trans (State.finish_sameModes ..)
    · exact hdropped
  rw [hidle]
  exact hstopped.trans (State.commitPoint_sameModes ..)

theorem State.poEnd_sameModes (p : Nat) : SameModes s (s.poEnd p) := by
  unfold State.poEnd
  dsimp only
  split
  · exact s.poIdle_sameModes p
  · exact .refl s

theorem State.runOut_sameModes (p : Nat) (stop : Option CmdId) : SameModes s (s.runOut p stop) := by
  have hset : ∀ v : Playout, SameModes s (s.setPo p v) := fun v => .of_ports rfl
  unfold State.runOut
  dsimp only
  split
  · exact (hset _).trans (State.poEnd_sameModes ..)
  · split
    · exact hset _
    · split
      · exact s.finish_sameModes ..
      · exact .refl s

theorem State.losePort_sameModes (cx : Nat) : SameModes s (s.losePort cx) := by
  have hevent : SameModes s (if (s.ctx cx).mode = .ready then s.hpEvent (s.ctx cx).port 3 else s) := by
    split
    · exact s.hpEvent_sameModes ..
    · exact .refl s
  unfold State.losePort State.runOutOf
  dsimp only
  refine SameModes.trans ?_ (SameModes.iter 2 _ _ fun p u => ?_)
  · split
    · exact hevent.trans (State.setCtx_sameModes ..)
    · exact hevent
  · split
    · exact u.runOut_sameModes ..
    · exact .refl u

end

/-! ### The rails dropped -/

section

variable (s : State)

theorem SameModes.portUp {s t : State} (h : SameModes s t) (p : Nat) : t.portUp p = s.portUp p := by
  rw [State.portUp, h.mode, State.portUp]

/-- A port that has gone down, and every other as it was. -/
theorem State.portUp_portDown (p q : Nat) : (s.portDown p).portUp q = (s.portUp q && q != p) := by
  unfold State.portDown
  dsimp only
  split
  · next hm =>
    by_cases hq : q = p
    · subst hq
      have hdown : s.portUp q = false := by
        unfold State.portUp
        rcases hm with hm | hm | hm <;> rw [hm] <;> rfl
      rw [hdown, Bool.false_and]
    · simp [hq]
  · have hlost : ∀ u : State, SameModes u (iter 16 (fun cx v => if v.cxPort cx = p then v.losePort cx else v) u) := fun u =>
      SameModes.iter 16 _ u fun cx v => by
        split
        · exact v.losePort_sameModes cx
        · exact .refl v
    rw [(hlost _).portUp, State.portUp_hpEvent]
    by_cases hq : q = p
    · subst hq
      rw [State.portUp, State.port_setPort_same]
      simp
    · rw [State.portUp, State.port_setPort_other _ _ _ _ hq, ← State.portUp]
      simp [hq]

/-- The ports in order each gone down. -/
theorem State.portUp_iter_portDown (n : Nat) {q : Nat} (h : q < n) : (iter n (fun p u => u.portDown p) s).portUp q = false := by
  induction n with
  | zero => exact absurd h (Nat.not_lt_zero q)
  | succ n ih =>
    rw [iter_succ, State.portUp_portDown]
    rcases Nat.lt_or_ge q n with hq | hq
    · rw [ih hq, Bool.false_and]
    · have : q = n := by omega
      simp [this]

/-- Every link that is not disabled left. -/
def State.linksLeft : State :=
  iter 36 (fun n u => if (u.link n).mode = .disabled then u else u.linkLeave n fun _ => Link.reset) s

theorem State.linksLeft_sameModes : SameModes s s.linksLeft :=
  SameModes.iter 36 _ s fun n u => by
    split
    · exact .refl u
    · exact u.linkLeave_sameModes ..

/-- The module TRIPPED with a status, what it held lost. -/
def State.trippedWith (st : Nat) : State :=
  { s with
    memory := State.reset.memory
    sched := { s.sched with halted := true }
    media := { s.media with engines := s.media.engines.map fun e => (e.1, { e.2 with running := none }), ports := [] }
    module := { s.module with phase := .tripped, railsOn := false, status := st } }

theorem State.trippedWith_sameModes (st : Nat) : SameModes s (s.trippedWith st) := .of_ports rfl

theorem State.dropRails_eq (st : Nat) : s.dropRails st = (iter 4 (fun p u => u.portDown p) s).linksLeft.trippedWith st := by
  unfold State.dropRails State.trippedWith State.linksLeft
  dsimp only

/-- The module once its rails are gone: TRIPPED with its status, its bytes lost and no host port up. -/
theorem State.dropRails_tripped (st : Nat) : (s.dropRails st).module.phase = .tripped ∧ (s.dropRails st).module.railsOn = false ∧
    (s.dropRails st).module.status = st ∧ (s.dropRails st).memory = State.reset.memory ∧
    ∀ p, p < 4 → (s.dropRails st).portUp p = false := by
  have hdown := fun p (hp : p < 4) => s.portUp_iter_portDown 4 hp
  rw [State.dropRails_eq]
  generalize iter 4 (fun p u => u.portDown p) s = u at hdown
  have hleft := u.linksLeft_sameModes
  generalize u.linksLeft = v at hleft
  exact ⟨rfl, rfl, rfl, rfl, fun p hp => ((v.trippedWith_sameModes st).portUp p).trans ((hleft.portUp p).trans (hdown p hp))⟩

theorem State.powerFault_of_on {s : State} (h : s.module.railsOn = true) : s.powerFault = s.dropRails 0x0D01 :=
  if_neg (by simp [h])

theorem State.powerFault_of_off {s : State} (h : s.module.railsOn = false) : s.powerFault = s := if_pos (by simp [h])

theorem State.powerFault_tripped {s : State} (h : s.module.railsOn = true) : s.powerFault.module.phase = .tripped ∧
    s.powerFault.module.railsOn = false ∧ s.powerFault.module.status = 0x0D01 ∧ s.powerFault.memory = State.reset.memory ∧
    ∀ p, p < 4 → s.powerFault.portUp p = false := by
  rw [State.powerFault_of_on h]
  exact s.dropRails_tripped 0x0D01

end

/-! ### What a sensor shows -/

/-- An update of the module and of registers alone. -/
def ShownIn (s t : State) : Prop := t = { s with module := t.module, regs := { s.regs with vals := t.regs.vals } }

theorem ShownIn.trans {s t u : State} (h : ShownIn s t) (g : ShownIn t u) : ShownIn s u := by
  unfold ShownIn at h g ⊢
  rw [h] at g
  exact g

/-- MO_EVENT takes a bit where its cause stands. -/
def State.moEventIf (s : State) (c : Prop) [Decidable c] (n : Nat) : State := if c then s.moEvent n else s

section

variable (s : State) (c : Prop) [Decidable c] (n : Nat)

theorem State.moEventIf_shown : ShownIn s (s.moEventIf c n) ∧ (s.moEventIf c n).module = s.module := by
  unfold State.moEventIf
  split
  · exact ⟨rfl, rfl⟩
  · exact ⟨rfl, rfl⟩

theorem State.reg_moEventIf (k : Nat) : (s.moEventIf c n).reg k =
    if k = 0x1024 then s.reg 0x1024 ||| (if c then 2 ^ n else 0) else s.reg k := by
  unfold State.moEventIf
  by_cases hc : c
  · rw [if_pos hc, if_pos hc]
    exact State.reg_setReg ..
  · rw [if_neg hc, if_neg hc, Nat.or_zero]
    split
    · next hk => rw [hk]
    · rfl

end

/-- What the bus stood at, shown and flagged. -/
def State.busShown (s : State) (cv us : Nat) : State :=
  let out := decide (cv < 4800) || decide (6000 < cv)
  let t := s.sawLimits out s.module.coolOut
  let t : State := { t with module := { t.module with busInRange := t.module.busInRange && !out } }
  (((t.setReg 0x1008 (min 65535 cv)).moEventIf (cv < 4800) 0).moEventIf (6000 < cv) 1).moEventIf
    (cv < 4800 ∧ 4000 ≤ cv ∧ us ≤ 1000) 6

theorem exec_busVoltageEvent (s : State) (cv us : Nat) : exec (.busVoltageEvent cv us) s =
    .next (if (cv < 4600 ∧ 1000 < us) ∨ 6200 < cv then (s.busShown cv us).powerFault else s.busShown cv us) := rfl

section

variable (s : State) (cv us : Nat)

theorem State.busShown_shown : ShownIn s (s.busShown cv us) ∧ (s.busShown cv us).module = { s.module with
    busOut := decide (cv < 4800) || decide (6000 < cv)
    busInRange := s.module.busInRange && !(decide (cv < 4800) || decide (6000 < cv))
    outsideAt := (s.busShown cv us).module.outsideAt } := by
  unfold State.busShown
  extract_lets out t m u
  have hset : ShownIn s (u.setReg 0x1008 (min 65535 cv)) := rfl
  obtain ⟨hlow, elow⟩ := (u.setReg 0x1008 (min 65535 cv)).moEventIf_shown (cv < 4800) 0
  obtain ⟨hhigh, ehigh⟩ := ((u.setReg 0x1008 (min 65535 cv)).moEventIf (cv < 4800) 0).moEventIf_shown (6000 < cv) 1
  obtain ⟨hdip, edip⟩ := (((u.setReg 0x1008 (min 65535 cv)).moEventIf (cv < 4800) 0).moEventIf (6000 < cv) 1).moEventIf_shown
    (cv < 4800 ∧ 4000 ≤ cv ∧ us ≤ 1000) 6
  refine ⟨((hset.trans hlow).trans hhigh).trans hdip, ?_⟩
  rw [edip, ehigh, elow]
  rfl

theorem State.reg_busShown (k : Nat) : (s.busShown cv us).reg k = if k = 0x1008 then min 65535 cv
    else if k = 0x1024 then s.reg 0x1024 ||| (if cv < 4800 then 1 else 0) ||| (if 6000 < cv then 2 else 0) |||
      (if cv < 4800 ∧ 4000 ≤ cv ∧ us ≤ 1000 then 64 else 0)
    else s.reg k := by
  have hregs : ∀ u : State, u.regs = s.regs → ∀ j, (u.setReg 0x1008 (min 65535 cv)).reg j =
      if j = 0x1008 then min 65535 cv else s.reg j := fun u hu j => by
    rw [State.reg_setReg, State.reg, hu, ← State.reg]
  unfold State.busShown
  extract_lets out t m u
  simp only [State.reg_moEventIf, hregs u rfl]
  by_cases hk : k = 0x1008
  · simp [hk]
  · by_cases he : k = 0x1024
    · simp [he]
    · simp [hk, he]

end

/-- What the inlets stood at, shown and flagged. -/
def State.coolShown (s : State) (a b c d : BitVec 10) : State :=
  let out := decide (350 < a.toNat) || decide (350 < b.toNat) || decide (a.toNat < 150) || decide (b.toNat < 150)
  let t := s.sawLimits s.module.busOut out
  ((((t.setReg 0x1018 (a.toNat + 65536 * b.toNat)).setReg 0x101C (c.toNat + 65536 * d.toNat)).moEventIf (350 < a.toNat) 2).moEventIf
    (350 < b.toNat) 3)

theorem exec_coolantInletSample (s : State) (a b c d : BitVec 10) :
    exec (.coolantInletSample a b c d) s = .next (s.coolShown a b c d) := rfl

section

variable (s : State) (a b c d : BitVec 10)

theorem State.coolShown_shown : ShownIn s (s.coolShown a b c d) ∧ (s.coolShown a b c d).module.phase = s.module.phase ∧
    (s.coolShown a b c d).module.coolOut =
      decide (350 < a.toNat ∨ 350 < b.toNat ∨ a.toNat < 150 ∨ b.toNat < 150) := by
  unfold State.coolShown
  extract_lets out t
  generalize hu : (t.setReg 0x1018 (a.toNat + 65536 * b.toNat)).setReg 0x101C (c.toNat + 65536 * d.toNat) = u
  have hset : ShownIn s u := by
    rw [← hu]
    rfl
  have hmodule : u.module = t.module := by
    rw [← hu]
    rfl
  obtain ⟨hlogic, elogic⟩ := u.moEventIf_shown (350 < a.toNat) 2
  obtain ⟨hstack, estack⟩ := (u.moEventIf (350 < a.toNat) 2).moEventIf_shown (350 < b.toNat) 3
  refine ⟨(hset.trans hlogic).trans hstack, ?_, ?_⟩
  · rw [estack, elogic, hmodule]
    rfl
  · rw [estack, elogic, hmodule]
    show (decide (350 < a.toNat) || decide (350 < b.toNat) || decide (a.toNat < 150) || decide (b.toNat < 150)) = _
    simp only [Bool.decide_or, Bool.or_assoc]

theorem State.reg_coolShown (k : Nat) : (s.coolShown a b c d).reg k =
    if k = 0x1018 then a.toNat + 65536 * b.toNat else if k = 0x101C then c.toNat + 65536 * d.toNat
    else if k = 0x1024 then s.reg 0x1024 ||| (if 350 < a.toNat then 4 else 0) ||| (if 350 < b.toNat then 8 else 0)
    else s.reg k := by
  have hregs : ∀ u : State, u.regs = s.regs → ∀ j,
      ((u.setReg 0x1018 (a.toNat + 65536 * b.toNat)).setReg 0x101C (c.toNat + 65536 * d.toNat)).reg j =
      if j = 0x101C then c.toNat + 65536 * d.toNat else if j = 0x1018 then a.toNat + 65536 * b.toNat else s.reg j := fun u hu j => by
    rw [State.reg_setReg, State.reg_setReg, State.reg, hu, ← State.reg]
  unfold State.coolShown
  extract_lets out t
  simp only [State.reg_moEventIf, hregs t rfl]
  by_cases hin : k = 0x1018
  · simp [hin]
  · by_cases hout : k = 0x101C
    · simp [hout]
    · by_cases he : k = 0x1024
      · simp [he]
      · simp [hin, hout, he]

end

/-! ### The module's own events -/

theorem exec_mgcWatchdog_of_running {s : State} (h : s.module.phase = .go ∨ s.module.phase = .tripped) : exec .mgcWatchdog s =
    .next { s.log 0x70 0 0 0 (Config.freeByte s.draws).toNat with
      draws := (s.log 0x70 0 0 0 (Config.freeByte s.draws).toNat).draws + 1
      module := { (s.log 0x70 0 0 0 (Config.freeByte s.draws).toNat).module with response := none } } := by
  have hmarks : s.module.phase ≠ .marks := by rcases h with h | h <;> simp [h]
  have hset : ¬(s.module.phase = .set ∧ s.module.setCode = 5 ∧ s.fw.trial = some s.fw.booting) := by
    rcases h with h | h <;> simp [h]
  show execMgcWatchdog s = _
  unfold execMgcWatchdog
  rw [if_neg hmarks]
  dsimp only
  rw [if_neg hset]

theorem mgcWatchdog_logs {s : State} (h : s.module.phase = .go ∨ s.module.phase = .tripped) (hroom : s.rel.book.length < bookSize)
    (hsince : s.rel.sinceCheckpoint < 1023) : ∃ (t : State) (c : Nat), c < 256 ∧ exec .mgcWatchdog s = .next t ∧
      t.module = { s.module with response := none } ∧
      t.rel.book = s.rel.book ++ [BitVec.ofNat 1024 (recordOf s 0x70 0 0 0 c)] := by
  refine ⟨_, (Config.freeByte s.draws).toNat, BitVec.isLt _, exec_mgcWatchdog_of_running h, ?_,
    State.log_of_plain (by decide) _ hroom hsince⟩
  dsimp only
  rw [State.log_module]

/-- Settles O59: each sensor by what it shows, a trip by `State.powerFault_tripped`. -/
theorem powerAndContacts : Obligations.PowerAndContacts := by
  unfold Obligations.PowerAndContacts
  refine ⟨fun s cv us => ?_, fun s rail site => ⟨fun hoff => ?_, fun hon hfield => ?_, fun hon h0 h2 => ?_⟩, fun s a b c d => ?_,
    fun s w v h => ⟨fun hv => ?_, fun hv => ⟨_, exec_of_permits h rfl, ?_⟩⟩,
    fun s => ⟨fun h => congrArg Host.Outcome.next (if_pos h), fun h hroom hsince => mgcWatchdog_logs h hroom hsince⟩,
    fun s b a => ⟨fun h => ⟨congrArg Host.Outcome.next (if_pos h), congrArg Host.Outcome.next (if_pos h)⟩, fun h => ?_⟩⟩
  · intro out
    obtain ⟨hshown, hmodule⟩ := s.busShown_shown cv us
    rw [exec_busVoltageEvent]
    refine ⟨fun hin => ⟨_, congrArg Host.Outcome.next (if_neg hin), hshown, hmodule, s.reg_busShown cv us⟩,
      fun hfault hon => ⟨_, congrArg Host.Outcome.next (if_pos hfault), State.powerFault_tripped ?_⟩⟩
    rw [hmodule]
    exact hon
  · exact congrArg Host.Outcome.next (if_pos (by simp [hoff]))
  · exact congrArg Host.Outcome.next ((if_neg (by simp [hon])).trans (if_pos hfield))
  · refine ⟨_, congrArg Host.Outcome.next ((if_neg (by simp [hon])).trans (if_neg fun h => h.elim h0 h2)), ?_⟩
    exact State.powerFault_tripped hon
  · obtain ⟨hshown, hphase, hcool⟩ := s.coolShown_shown a b c d
    exact ⟨_, exec_coolantInletSample s a b c d, hshown, hphase, hcool, s.reg_coolShown a b c d⟩
  · rw [exec_of_permits h rfl, State.clearPeak, if_neg (show ¬bit v.toNat 0 = true from Bool.eq_false_iff.mp hv)]
  · rw [State.clearPeak, if_pos (show bit v.toNat 0 = true from hv)]
    exact ⟨rfl, fun k hk => State.reg_setReg_other s _ _ _ hk⟩
  · have hnot : ¬(s.module.phase = .go ∨ s.module.phase = .tripped) := by rcases h with h | h <;> simp [h]
    exact ⟨congrArg Host.Outcome.next (if_neg hnot), congrArg Host.Outcome.next (if_neg hnot)⟩

end Sys2Proof.Machine

end

section

/-! Commands that complete with their own effect (chapters 2, 4, 5, 6, 8 and 17): O60. -/

namespace Sys2Proof.Machine

open Sys2Proof Sys2Proof.Safety

/-! ### The command of a run of rows -/

theorem find_modFirst {α : Type} (p : α → Bool) (f : α → α) (hf : ∀ a, p (f a) = p a) (l : List α) :
    (modFirst p f l).find? p = (l.find? p).map f := by
  induction l with
  | nil => rfl
  | cons a l ih =>
    by_cases h : p a = true
    · rw [modFirst, if_pos h, List.find?_cons_of_pos (by rwa [hf]), List.find?_cons_of_pos h]
      rfl
    · rw [modFirst, if_neg h, List.find?_cons_of_neg h, List.find?_cons_of_neg h, ih]

section

variable (s : State) (id : CmdId)

theorem State.cmd_modCmd (f : Cmd → Cmd) (hf : ∀ c, (f c).index = c.index) :
    (s.modCmd id f).cmd? id = (s.cmd? id).map f := by
  unfold State.cmd? State.modCmd
  dsimp only
  rw [State.ring_setRing_same]
  exact find_modFirst _ f (fun c => by rw [hf]) _

theorem State.cmd_of_hosts {s t : State} (h : t.hosts = s.hosts) (id : CmdId) : t.cmd? id = s.cmd? id := by
  rw [State.cmd?, State.ring, State.ctx_of_hosts h, State.cmd?, State.ring]

theorem State.cmd_raise (fl : Nat) (h : (s.cmd? id).isSome = true) : ((s.raise id fl).cmd? id).isSome = true := by
  unfold State.raise
  split
  · exact h
  · rw [State.cmd_modCmd]
    · simpa using h
    · exact fun c => rfl

theorem cmd_runRow (f : RowFn) (seed : Nat) (x : Line) (a : State × Bool) (p : Nat × Nat) (h : (a.1.cmd? id).isSome = true) :
    ((runRow f id seed x a p).1.cmd? id).isSome = true := by
  unfold runRow
  dsimp only
  split
  · exact h
  · split
    · exact h
    · have hwrites : ∀ u : State, ((f a.1 seed x p.1 p.2).writes.foldl (fun u e => u.infWrite p.1 e.1 e.2) u).hosts = u.hosts := fun u =>
        foldl_same (fun v : State => v.hosts) _ _ u fun v e =>
          (State.infWrite_keeps (P := [.memory]) v _ _ _ (Keeps.refl v) (by decide)).parts .hosts (by decide)
      have hnoted : ∀ u : State, (u.noteRow x p.1 (f a.1 seed x p.1 p.2)).hosts = u.hosts := fun u =>
        (State.noteRow_keeps (P := [.rails, .regs]) u _ _ _ (Keeps.refl u) (by decide) (by decide)).parts .hosts (by decide)
      refine State.cmd_raise _ _ _ ?_
      rwa [State.cmd_of_hosts (hnoted _), State.cmd_of_hosts (hwrites _)]

theorem cmd_runRows (f : RowFn) (seed : Nat) (x : Line) (l : List (Nat × Nat)) (a : State × Bool) (h : (a.1.cmd? id).isSome = true) :
    ((l.foldl (runRow f id seed x) a).1.cmd? id).isSome = true :=
  foldl_keeps (fun b : State × Bool => (b.1.cmd? id).isSome = true) l _ a h fun b p hb => cmd_runRow id f seed x b p hb

end

theorem headCmd_of_issues {s : State} {cx r : Nat} {want : Cmd → Bool} {pins : List Nat} {c : Cmd}
    (h : issues s cx r want pins c = true) : s.headCmd cx r want = some c := by
  unfold issues at h
  simp only [Bool.and_eq_true] at h
  exact eq_of_beq h.1.1.1.1

/-- An engine command whose rows read no poison has run them all. -/
theorem engineRow_runs {e : (Fin 16 → Instr) × Nat × RowFn} (he : e ∈ engineRows) {s : State} {cx : Fin 16} {c : Cmd}
    (h : issues s cx 0 (wantEngine e.2.1) [] c = true) (hop : egOp c.ext = e.2.1) {n : Nat} {r : State × Bool}
    (hn : n = (s.markIssued ⟨cx, 0, c.index⟩ []).shape cx (egRows c.ext))
    (hr : r = (rowParts n).foldl (runRow e.2.2 ⟨cx, 0, c.index⟩ (s.cxSeed cx) c.ext) (s.markIssued ⟨cx, 0, c.index⟩ [], false))
    (hle : n ≤ egMaxRows c.ext) (hclean : r.2 = false) : ∃ t, exec (e.1 cx) s = .next t ∧ t.memory = r.1.memory ∧
      (t.cmd? ⟨cx, 0, c.index⟩).map (fun d => (d.worked, d.progress)) = some (true, n) := by
  have hthere : (r.1.cmd? ⟨cx, 0, c.index⟩).isSome = true := by
    rw [hr]
    refine cmd_runRows _ _ _ _ _ _ ?_
    rw [State.cmd_markIssued (headCmd_of_issues h)]
    rfl
  obtain ⟨-, hrun, -⟩ := (engineCommandsRunRows e he s cx c h).1 hop
  subst hn
  refine ⟨_, hrun hle r.1 (hr.symm.trans (Prod.ext rfl hclean)), rfl, ?_⟩
  rw [State.cmd_modCmd]
  · obtain ⟨d, hd⟩ := Option.isSome_iff_exists.mp hthere
    rw [hd]
    rfl
  · exact fun d => rfl

/-! ### Cores and tiles -/

theorem claim_takes {s : State} {site : Fin 81} {core : Fin 4096} {i : Nat} {k : Kernel} {own : Nat}
    (hk : s.coreKernel (s.core site core) = some (i, k)) (hown : s.rankOf site = some own) {r n : Nat}
    (hready : s.claimReady site core = true) (hfind : (s.findTile k i own).1 = some (r, n)) :
    ∃ t, exec (.claim site core) s = .next t ∧
      (t.core site core).passes = (s.core site core).passes ++ [{ k.pass i r n with issued := 1 }] := by
  refine ⟨_, (exec_claim_of_ready hready).trans (congrArg Host.Outcome.next (State.claim_of_tile hk hown hfind)), ?_⟩
  rw [State.core_takeTile]

theorem coreIdle_leaves {s : State} {site : Fin 81} {core : Fin 4096} {i : Nat} {k : Kernel}
    (hk : s.coreKernel (s.core site core) = some (i, k)) (hstop : (s.core site core).stopped = true)
    (hpass : (s.core site core).passes = []) : ∃ t, exec (.coreIdle site core) s = .next t ∧
      (t.core site core).passes = [] ∧
      ((∃ j, s.chainedTo i = some j) ∨ ((t.core site core).stopped = true ∧ (t.core site core).gateWait = false)) := by
  cases hj : s.chainedTo i with
  | some j =>
    refine ⟨_, exec_coreIdle_of_chained hk hstop hpass hj, ?_, .inl ⟨j, rfl⟩⟩
    rw [State.core_setCore_same]
    rfl
  | none =>
    refine ⟨_, exec_coreIdle_of_unchained hk hstop hpass hj, ?_, .inr ?_⟩
    · rw [State.core_setCore_same]
      exact hpass
    · rw [State.core_setCore_same]
      exact ⟨rfl, rfl⟩

/-- A tile summed stands among its kernel's. -/
theorem State.summed_tileSummed (t : State) (i tile : Nat) (k : Kernel) (fl : Nat) :
    ∃ f, (t.tileSummed i tile k fl).kernel i = some f ∧ f.summed.contains tile = true := by
  refine ⟨{ k with summed := sput k.summed tile }, ?_, contains_sput ..⟩
  have hset := t.kernel_setKernel_same i (some { k with summed := sput k.summed tile })
  have hdone : ∀ u : State, (u.tileDone k (k.owner tile) tile).kernel i = u.kernel i := fun u => by
    unfold State.tileDone
    dsimp only
    split <;> rfl
  unfold State.tileSummed
  rw [State.kernel, State.raise_tiles, ← State.kernel, hdone, hset]

theorem stageCSum_sums {s : State} {i : Fin 256} {tile : Nat} {k : Kernel} (h : SumReady s i tile k) (wait : Nat)
    (hp : s.sumPoisoned tile k = false) : ∃ t, exec (.stageCSum i ⟨tile, wait⟩) s = .next t ∧
      ∃ f, t.kernel i = some f ∧ f.summed.contains tile = true := by
  cases hlink : drainLink (recReduce k.image.counter) with
  | false => exact ⟨_, exec_stageCSum_of_drain h wait hp hlink, State.summed_tileSummed ..⟩
  | true => exact ⟨_, exec_stageCSum_of_link h wait hp hlink, State.summed_tileSummed ..⟩

/-! ### O60 -/

/-- A slot's kernel starts, whether its command waited for the counter or not. -/
theorem runKernel_starts {s : State} {cx : Fin 16} {c : Cmd} {img : KImage} {waits : Bool}
    (h : issues s cx 0 (fun d => wantKind 2 d && (d.waitsCounter == waits)) (runPins cx s c) c = true)
    (hslot : s.slot cx (fld c.desc 197 192) = some img) (hfree : s.counterHeld img = false) :
    exec (if waits then .lapCounterFreed cx else .runKernel cx) s =
      .next ((s.markIssued ⟨cx, 0, c.index⟩ (runPins cx s c)).startKernel ⟨cx, 0, c.index⟩ img none) := by
  cases waits with
  | false => exact (exec_runKernel_of_issues h).trans (congrArg Host.Outcome.next (State.runSlot_of_free hslot hfree))
  | true => exact (exec_lapCounterFreed_of_issues h).trans (congrArg Host.Outcome.next (State.runSlot_of_free hslot hfree))

/-- Settles O60: each command by the lemma of its row. -/
theorem commandsComplete : Obligations.CommandsComplete := by
  unfold Obligations.CommandsComplete
  refine ⟨fun cx => rfl, fun e he s cx c h hop => ?_, fun s site core i k own hk hown _ =>
    ⟨fun r n hready hfind => claim_takes hk hown hready hfind, fun hstop hpass => coreIdle_leaves hk hstop hpass⟩,
    fun s cx ring c h => ?_, fun s cx c l => ?_, fun s cx c img waits => ?_, fun s i tile wait k hk => ?_, fun s n p site eng => ?_⟩
  · intro id n r hle hclean
    exact engineRow_runs he h hop rfl rfl hle hclean
  · have hmon : s.boundary.1.monitors.1 = [] := by rw [State.boundary_monitors]
    exact ⟨_, s.boundary.1, exec_stepBoundary_of_due h, rfl, rfl, rfl, hmon⟩
  · intro va id t h hread hpoison hok
    have hrow : exec (.loadKernel cx) s = .next (loadWork t id c) := exec_loadKernel_of_issues h
    exact ⟨_, hrow.trans (congrArg Host.Outcome.next (loadWork_of_sound hread hpoison hok)), State.slot_setSlot_same ..⟩
  · intro id t q k h hslot hfree hpassed
    obtain ⟨u, hu, hkernel, -⟩ := (startKernel_outcome (p := none) rfl (runKernel_starts h hslot hfree)).1 hpassed
    exact ⟨u, hu, hkernel⟩
  · intro rd q rank hsplit hrange hsummed hlive hholds hposted hsend hpoison
    exact stageCSum_sums ⟨hk, hsplit, hrange, hsummed, hlive, hholds, hposted, hsend⟩ wait hpoison
  · exact ⟨fun h => congrArg Host.Outcome.next (if_pos h), fun h => congrArg Host.Outcome.next (if_pos h), rfl, rfl, rfl⟩

end Sys2Proof.Machine

end
